-- ==== Sys2Proof/Word.lean ====
section
/-!
DEFINITION. Word.lean: the plain value types shared by the commands and the state: bytes, register words,
sides, ports and status codes (R10 to R18 of spec/00_scope.md). Nothing here computes.
-/
namespace Sys2Proof

/-- One byte of a message, a frame or memory (R10). -/
abbrev Byte := BitVec 8

/-- One 32-bit register of the ATU or the aggregator. -/
abbrev Word := BitVec 32

/-- A sparse map in canonical form: keys strictly rising, and no entry equal to the map's default value.
Register files, byte memories and other sparse tables are held this way, so that equal contents are equal data. -/
abbrev SMap (α : Type) := List (Nat × α)

/-- The two sides of the ATU register window (R276, R281): the host's register bus and the aggregator's die port. -/
inductive Side where
  | host
  | agg
  deriving DecidableEq, Repr

/-- The two die-port lanes of an ATU (R140, R291). -/
inductive PortId where
  | a
  | b
  deriving DecidableEq, Repr

/-- The status codes of R18. Code 0x01 and the codes from 0x11 up are never returned (R19), so they have no constructor. -/
inductive Status where
  | ok | badOpcode | badParam | access | privilege | noResource | notPresent | conflict | staleEpoch | aborted
  | timeout | integrity | noShrink | quorum | busyRetry | contested
  deriving DecidableEq, Repr

/-- The time states of an ATU and of an aggregator (R63, AGG_TIME_STATUS.STATE). -/
inductive TimeState where
  | unset | acquiring | locked | holdover
  deriving DecidableEq, Repr

/-- The states of a die port or skim link (R304, R317). -/
inductive PortState where
  | down | train | calibrate | up
  deriving DecidableEq, Repr

/-- A stroke schedule (R69): anchor window, anchor HT in ns, period in microseconds. -/
structure Sched where
  anchorWin : Nat
  anchorHt  : Nat
  periodUs  : Nat
  deriving DecidableEq, Repr

/-! ### What commands carry -/

/-- A retirement that a core presents on its branch or data-access port. -/
inductive Retire where
  | cond (pc : BitVec 64) (taken : List Bool)
  | indirect (pc target : BitVec 64)
  | exception (pc : BitVec 64) (cause : BitVec 16) (priv : BitVec 2) (secure : Bool) (ret : BitVec 64)
  | access (addr value : BitVec 64) (sizeLog : Fin 4) (wr : Bool)
  deriving DecidableEq, Repr

/-- One 66-bit block: its sync header and its 8 bytes. -/
structure LineBlock where
  sync  : BitVec 2
  bytes : List Byte
  deriving DecidableEq, Repr

/-- A RoCEv2 packet as the analysis port takes it in. -/
structure RocePkt where
  qpn    : Nat
  psn    : Nat
  /-- 0 RDMA WRITE first, 1 middle, 2 last, 3 only, 4 READ request, 5 SEND first, 6 middle, 7 last, 8 only; others unsupported. -/
  op     : Nat
  va     : Nat := 0
  rkey   : Nat := 0
  dmaLen : Nat := 0
  dat    : List Byte := []
  /-- The packet carries a CE mark (R604). -/
  ce     : Bool := false
  /-- An uncorrectable memory error meets the READ: noted with a packet that is parked (R618, R622). -/
  memErr : Bool := false
  deriving DecidableEq, Repr

/-- Where an access of an ATU register comes from: the host's register bus, or a die port with the request's TAG (R276, R295). -/
inductive RegFrom where
  | host
  | port (p : PortId) (tag : BitVec 16)
  deriving DecidableEq, Repr

/-- Whose register is accessed: the ATU's, or the aggregator's. -/
inductive RegTarget where
  | atu (src : RegFrom)
  | agg
  deriving DecidableEq, Repr

/-- Who issued a ring command: its ring, its TAG, and the CTX field of its descriptor (R532, R546). -/
structure Caller where
  ring : Fin 17
  tag  : BitVec 16
  ctx  : Fin 17
  deriving DecidableEq, Repr

/-- An end of a link: a die port of the ATU, a die port of the aggregator, or a skim link of the aggregator (R290, R291). -/
inductive LinkEnd where
  | atu (p : PortId)
  | agg (p : Fin 64)
  | skim (k : Fin 32)
  deriving DecidableEq, Repr

/-- An end of a die port (R290). -/
inductive DieEnd where
  | atu (p : PortId)
  | agg (p : Fin 64)
  deriving DecidableEq, Repr

/-- What the aggregator holds of a sample channel of a die: CFG_SERIAL, the taps selected in ascending number with their kinds (true for a
gauge), the divisor and the phase. -/
structure ChanCfg where
  serial  : Nat
  taps    : List (Nat × Bool)
  divisor : Nat
  phase   : Nat
  deriving DecidableEq, Repr

/-- Whose run completes: a job context's window program, or the STATION_RUN of a ring and tag. -/
inductive RunRef where
  | program (ctx : Fin 17)
  | command (ring : Fin 17) (tag : BitVec 16)
  deriving DecidableEq, Repr

/-- What happens at a root module for its exchange with the other root module (R380): its instant comes, the other's MEMBERS and DIGEST
arrive, or the adopted result arrives whole. -/
inductive RootMsg where
  | moment
  | said (members : BitVec 12) (digest : BitVec 64)
  | whole (k : Fin 32) (m : List Byte)
  deriving DecidableEq, Repr

/-- The parameters of SKIM_TREE_SET CONFIGURE (R397); a link that is not VALID is none. -/
structure TreeArgs where
  act        : BitVec 40
  root       : Bool
  depth      : BitVec 3
  primary    : Option (Fin 32)
  alt        : Option (Fin 32)
  childMask  : BitVec 32
  hallNodes  : BitVec 12
  windows    : BitVec 15
  sealUs     : BitVec 10
  schedDepth : BitVec 3
  stageUs    : BitVec 10
  dstageUs   : BitVec 10
  abortUs    : BitVec 12
  quorumPm   : BitVec 10
  deriving DecidableEq, Repr

/-- The parameters of QP_MANAGE CREATE and RECONNECT (R624). -/
structure QpParams where
  port    : BitVec 1
  pmtu    : BitVec 2
  dest    : BitVec 24
  sqPsn   : BitVec 24
  rqPsn   : BitVec 24
  timeout : BitVec 5
  retry   : BitVec 3
  mac     : BitVec 48
  gid     : BitVec 128
  deriving DecidableEq, Repr

/-- The straps of a module position (R701). `paired` says that PAIR_PRESENT_N is low. -/
structure Straps where
  trayId   : BitVec 12
  role     : Fin 2
  paired   : Bool
  safeMode : Bool
  bootSrc  : BitVec 2
  deriving DecidableEq, Repr

end Sys2Proof
end

