-- ==== Sys2Proof/Machine/LinkState.lean ====
section
/-!
DEFINITION. LinkState.lean: the state of one end of a die port (R293 to R309 of spec/08_links.md). The two ports of the ATU
and the 64 ports of the aggregator are such ends.
-/
namespace Sys2Proof.Machine

/-- A DATA flit held in a retry buffer until it is acknowledged (R296). -/
structure HeldFlit where
  seq     : Nat
  kind    : Nat
  start   : Bool
  stop    : Bool
  payload : List Byte
  /-- Elapsed time at which it was last sent (R297). -/
  sentAt  : Nat
  deriving DecidableEq, Repr

/-- A message of one KIND on its way through a transmitter: what is left of it, and whether its first flit has left (R294). -/
structure TxMsg where
  kind    : Nat
  started : Bool
  rest    : List Byte
  deriving DecidableEq, Repr

/-- The retry state of one link end (R296 to R298): sequence numbers, acknowledgements and the replay in progress. -/
structure Retry where
  held        : List HeldFlit := []
  nextSeq     : Nat := 0
  expectSeq   : Nat := 0
  ackValid    : Bool := false
  nakDue      : Bool := false
  nakSent     : Bool := false
  /-- Held flits still to be sent again in the replay now running. -/
  replayLeft  : Nat := 0
  /-- Replays of the same oldest flit so far (R298). -/
  replays     : Nat := 0
  deriving DecidableEq, Repr

/-- Training and down-time state of one end (R304, R305). -/
structure Training where
  /-- Failed attempts in a row. -/
  failures  : Nat := 0
  /-- Elapsed time at which the attempt now running started. -/
  startedAt : Option Nat := none
  /-- Elapsed time until which the transmitter stays in electrical idle. -/
  idleUntil : Option Nat := none
  blockLock : Bool := false
  /-- 256 consecutive good IDLE flits have been seen (R304 step 2). -/
  idleGood  : Bool := false
  /-- Consecutive good flits received in this attempt. -/
  idleRun   : Nat := 0
  /-- Loopback round trips measured in this attempt (R301). -/
  loops     : Nat := 0
  /-- Smallest round trip measured in this attempt, ps. -/
  loopMin   : Nat := 0
  /-- ATU_CAPS, ATU_ID and ATU_DIE_ID wait to be sent (ATU, R304 step 3). -/
  identDue  : Bool := false
  deriving DecidableEq, Repr

/-- What an end's transmitter does (R304, R308). The training pattern and the form of the identity are the physical layer's own. -/
inductive LaneUse where
  /-- Electrical idle. -/
  | quiet
  | pattern
  | flit
  /-- ATU_CAPS, ATU_ID and ATU_DIE_ID. -/
  | identity (caps ident die : Word)
  /-- The reset sequence (R308). -/
  | reset
  deriving DecidableEq, Repr

/-- One end of a die port. -/
structure PortEnd where
  state     : PortState := .down
  /-- Messages waiting, oldest first, each with its KIND (R294). -/
  waiting   : List (Nat × List Byte) := []
  /-- Messages of which a part has left, at most one of each KIND. -/
  current   : List TxMsg := []
  retry     : Retry := {}
  /-- Messages partly received, one of each KIND. -/
  partRx    : List (Nat × List Byte) := []
  training  : Training := {}
  /-- Elapsed time of the last flit that passed its CRC (R305). -/
  lastGood  : Nat := 0
  /-- TIME payload waiting for a flit boundary: the beat's due HT (R299). -/
  timeDue   : Option Nat := none
  /-- Sequence number of the next plumb beat (aggregator, R56). -/
  beatSeq   : Nat := 0
  /-- A SAFETY flit waits for a flit boundary (R302). -/
  safetyDue : Bool := false
  /-- Sequence number of the next SAFETY flit (ATU, R302). -/
  safetySeq : Nat := 0
  /-- LOOPBACK payload to return (ATU, R301) or to send (aggregator). -/
  loopDue   : Option (List Byte) := none
  /-- The flit last driven on the lane; none in electrical idle. -/
  lastTx    : Option (List Byte) := none
  lane      : LaneUse := .quiet
  /-- The scrambler, and the blocks last driven on the lane (R291). -/
  scram     : BitVec 58 := 0
  line      : List LineBlock := []
  deriving DecidableEq, Repr

end Sys2Proof.Machine
end

