-- ==== Sys2Proof/Machine/AtuState.lean ====
section
/-!
DEFINITION. AtuState.lean: the state of the ATU of one host die, as chapters 02 to 08 and 18 of the spec give it. Registers that
software sees whole lie in one register file (spec/07_atu_boundary.md); what the machine computes with lies in named fields.
-/
namespace Sys2Proof.Machine

/-! ### Time (spec/02_hall_time.md) -/

/-- What the ATU keeps of the plumb beats on one of its ports (R60, R61, R744). -/
structure BeatTrack where
  /-- Sequence number of the last beat accepted since the port entered UP. -/
  lastSeq   : Option Nat := none
  /-- Elapsed time of the last good beat; where none has come since, of the entry to UP, or of the reset's release (R744). -/
  since     : Nat := 0
  /-- Beats counted missed since then (R744). -/
  counted   : Nat := 0
  /-- Consecutive missed beats, for R60. -/
  missedRun : Nat := 0
  /-- Consecutive good beats, for R60. -/
  goodRun   : Nat := 0
  /-- Beat HT minus local HT at the last good beat. -/
  offset    : Option Int := none
  /-- Beat HT minus the elapsed time at the last good beat, which no step and no slew of HT changes (R60). -/
  base      : Option Int := none
  deriving DecidableEq, Repr

/-- The ATU's time base, time state and stroke schedule. -/
structure AtuTime where
  state      : TimeState := .unset
  /-- HT in ns (R35). -/
  ht         : Nat := 0
  /-- Nanoseconds that have passed on the time base's clock, whatever HT does. -/
  elapsed    : Nat := 0
  /-- Nanoseconds on the time base as it is slewed: HT without its steps (R74). -/
  steered    : Nat := 0
  /-- Correction still to be slewed, signed ns. -/
  slew       : Int := 0
  /-- Elapsed ns since the last slewed nanosecond: at most one per 20,000 ns, which is 50 ppm. -/
  slewPhase  : Nat := 0
  /-- The port followed (R60). -/
  follow     : PortId := .a
  srcHoldover : Bool := false
  /-- Good beats in a row that count for LOCKED (R63). -/
  lockRun    : Nat := 0
  trackA     : BeatTrack := {}
  trackB     : BeatTrack := {}
  /-- Elapsed time of the last good beat on any port followed (R63, R745). -/
  lastGood   : Nat := 0
  sched      : Option Sched := none
  /-- The schedule in force before this one: strokes before the anchor lie on it (R70, R72). -/
  prev       : Option Sched := none
  /-- Pending change: change window and new period (R72). -/
  pending    : Option (Nat × Nat) := none
  /-- The last stroke fired. -/
  lastFired  : Option Nat := none
  /-- Elapsed time at which it fired. -/
  firedAt    : Nat := 0
  /-- No stroke whose HT is at or before this one fires any more (R67, R73, entry to LOCKED). -/
  floor      : Nat := 0
  /-- HT was stepped forward since the last stroke (R67). -/
  stepped    : Bool := false
  deriving DecidableEq, Repr

/-- One clock region: the levels of its two inputs and what the window has seen (R74 to R76). -/
structure Region where
  stretch   : Bool := false
  stop      : Bool := false
  /-- Steered time up to which stretched time has been accounted. -/
  since     : Nat := 0
  /-- HT stamps of the last edges of CLK_STRETCH_N and CLK_STOP_N (R77). -/
  stretchHt : Nat := 0
  stopHt    : Nat := 0
  deriving DecidableEq, Repr

/-! ### Sampling (spec/03_sampling.md) -/

/-- A snapshot bank of a tap block: free, or full with the capture of one stroke. -/
inductive Bank where
  | free
  | full (stroke : Nat) (vals : List (BitVec 48))
  /-- Full with a late capture, which is released unread (R97). -/
  | late
  deriving DecidableEq, Repr

/-- One tap block of 256 taps. -/
structure TapBlock where
  bankA      : Bank := .free
  bankB      : Bank := .free
  /-- The stroke whose capture edge the block awaits. -/
  awaiting   : Option Nat := none
  /-- An abandoned capture that may still fill a bank (R97). -/
  late       : Option Nat := none
  /-- A capture on the stop-capture path that waits for ATU_CLK: its stroke, and the values that the block holds (R99, R751). -/
  stopCap    : Option (Nat × List (BitVec 48)) := none
  /-- What stands on TAP_VAL since its region stopped (R89). -/
  tapVal     : List (BitVec 48) := []
  strokeToggle : Bool := false
  fillToggle : Bool := false
  /-- The 48-bit base of each counter (R91). -/
  bases      : SMap Nat := []
  /-- The values reported at the previous snapshot since the last main reset. -/
  last       : Option (List Nat) := none
  deriving DecidableEq, Repr

/-- What a window, or a run of covered windows, has seen (R74, R76, R124). -/
structure WinAcc where
  stretchNs  : Nat := 0
  stretchMap : Nat := 0
  stopMap    : Nat := 0
  safe       : Bool := false
  margin     : Bool := false
  deriving DecidableEq, Repr

/-- One configuration set of a channel: CFG, RATE and the TAPSEL words (R108). -/
structure ChSet where
  cfg  : Word := 0
  rate : Word := 0
  sel  : SMap Word := []
  deriving DecidableEq, Repr

/-- One sample channel. -/
structure Chan where
  act       : ChSet := {}
  suspended : Bool := false
  /-- A suspension planned for the pending period change (R117). -/
  planned   : Bool := false
  /-- To be suspended at the first stroke, by the check made when the schedule was learned (R747). -/
  atFirst   : Bool := false
  /-- A flush waits for the next coded frame (R133, R149). -/
  flush     : Bool := false
  /-- R112 requires the next frame to be a key frame. -/
  needKey   : Bool := false
  /-- Frames since the last key or raw frame (R133). -/
  sinceKey  : Nat := 0
  /-- The reference of the coder: WINDOW and values of the previous frame (R128). -/
  reference : Option (Nat × List Nat) := none
  cfgSerial : Nat := 0
  frames    : Nat := 0
  lost      : Nat := 0
  /-- Due strokes lost since the channel's previous frame (LOST of R121). -/
  lostSince : Nat := 0
  /-- The next frame follows a forward step (R67, R73, R103). -/
  stepPartial : Bool := false
  acc       : WinAcc := {}
  /-- The activation window at which the channel was last enabled: its first frame covers no window before it (R102). -/
  covers    : Nat := 0
  deriving DecidableEq, Repr

/-- One accepted commit that has not taken effect (R110, R111). -/
structure Commit where
  /-- The activation window; none: at the first stroke fired (R111, SCHED_KNOWN 0 and ACT_WIN 0). -/
  actWin : Option Nat
  /-- Made while SCHED_KNOWN was 0 (R111). -/
  early  : Bool
  sets   : List (Nat × ChSet)
  /-- Pool granules claimed by the commit (R287). -/
  grains : Nat
  deriving DecidableEq, Repr

/-- A frame to be coded from a snapshot: the header fields fixed at the stroke (R121, R124). -/
structure FrameJob where
  chan     : Nat
  window   : Nat
  strokeHt : Nat
  taps     : List Nat
  codec    : Bool
  keyEvery : Nat
  holdover : Bool
  stepPartial : Bool
  untested : Bool
  lost     : Nat
  acc      : WinAcc
  serial   : Nat
  /-- R112 requires a key frame. -/
  key      : Bool
  deriving DecidableEq, Repr

/-- A snapshot being taken: its stroke, the blocks it waits for and the frames it feeds. -/
structure Snap where
  stroke  : Nat
  /-- Elapsed time of the stroke, for the 2 microseconds of R96. -/
  atTime     : Nat
  /-- Blocks captured, blocks stalled and blocks powered off at the stroke, as masks. -/
  need    : Nat
  stalled : Nat
  off     : Nat
  jobs    : List FrameJob
  deriving DecidableEq, Repr

/-- The sampling unit. -/
structure Sampling where
  regions : Vector Region 16 := Vector.replicate 16 {}
  blocks  : Vector TapBlock 16 := Vector.replicate 16 {}
  chans   : Vector Chan 8 := Vector.replicate 8 {}
  commits : List Commit := []
  snaps   : List Snap := []
  /-- What the window now open has seen. -/
  win     : WinAcc := {}
  /-- What other windows have seen that no channel has taken yet: by window, those that ended while no stroke fired or that a step of HT left
  (R74, R76, R102). -/
  accts   : List (Nat × WinAcc) := []
  deriving DecidableEq, Repr

/-! ### The frame path (spec/04_frames.md) -/

/-- A resend in progress (R146). -/
structure Resend where
  code : Status
  deriving DecidableEq, Repr

/-- A frame that the spill ring has stored (R141): window, channel, byte position and length. -/
structure SpillEntry where
  win  : Nat
  chan : Nat
  pos  : Nat
  len  : Nat
  deriving DecidableEq, Repr

/-- The frame path behind the coder: spill ring positions, frames on their way to host DRAM, resend, check scan. -/
structure FramePath where
  /-- ATU_SPILL_WR and ATU_SPILL_IDX_WR, 64-bit counts (R141 to R143). -/
  spillWr  : Nat := 0
  spillIdx : Nat := 0
  /-- Frames taken by the DMA master and not yet visible, oldest first. -/
  spillQ   : List (List Byte) := []
  /-- The frames of the ring that a resend may still look for, oldest first (R146). -/
  stored   : List SpillEntry := []
  resend   : Option Resend := none
  /-- SIZE_LOG2 in force: the one of the last 0-to-1 change of ENABLE (R749). -/
  sizeLog2 : Nat := 26
  chkBusy  : Bool := false
  /-- The range of the scan that runs or ran last, taken at START (R154). -/
  chkAddr  : Nat := 0
  chkLen   : Nat := 0
  deriving DecidableEq, Repr

/-! ### Trace and the log matcher (spec/05_trace.md) -/

/-- One trace chunk waiting for its destinations (R172, R201). -/
structure Chunk where
  bytes : List Byte
  needA : Bool
  needB : Bool
  needBuf : Bool
  deriving DecidableEq, Repr

/-- One packet stream: a core's, or the log matcher's (R172 to R193). -/
structure TraceStream where
  /-- Data bytes of the chunk now open. -/
  dat      : List Byte := []
  /-- Offset in the chunk of the first packet that begins in it; 0 when none does. -/
  first    : Nat := 0
  /-- An OVERFLOW packet begins in the open chunk. -/
  ovf      : Bool := false
  /-- Elapsed time at which the open chunk's first packet byte was written (R174). -/
  openedAt : Option Nat := none
  seq      : Nat := 0
  chunks   : List Chunk := []
  /-- Bytes and marks discarded while the stream overflows (R192). -/
  dropping : Option (Nat × Nat) := none
  /-- SYNC is required before the next packet (R180). -/
  needSync : Bool := false
  /-- Bytes since the last SYNC. -/
  sinceSync : Nat := 0
  /-- Elapsed time of the last HT-bearing packet (R181). -/
  lastAt   : Nat := 0
  lostBytes : Nat := 0
  deriving DecidableEq, Repr

/-- The trace source of one core (R176 to R193). -/
structure TraceSrc where
  stream  : TraceStream := {}
  /-- Outcomes gathered for the next ATOMS byte, oldest first. -/
  atoms   : List Bool := []
  pc      : Nat := 0
  dataAddr : Nat := 0
  priv    : Nat := 0
  secure  : Bool := false
  /-- The core is in low power. -/
  powered : Bool := true
  /-- The reason of the EXCLUDED interval the stream is in. -/
  excluded : Option Nat := none
  /-- The PC lies outside the traced region: the last branch was filtered by a masking range (R188). -/
  filtered : Bool := false
  deriving DecidableEq, Repr

/-- The authorisation of R183 to R187. -/
structure TraceAuth where
  key      : Nat := 0
  keyLoSet : Bool := false
  keyHiSet : Bool := false
  failures : Nat := 0
  /-- The expiry window while authorised. -/
  expiry   : Option Nat := none
  deriving DecidableEq, Repr

/-- The trace unit. -/
structure TraceUnit where
  running  : Bool := false
  /-- HT at which the stop delay ends, while STOPPING (R197). -/
  stopAt   : Option Nat := none
  /-- The event that stops trace (its number goes into TRIGGER). -/
  stopEvt  : Nat := 0
  srcs     : Vector TraceSrc 16 := Vector.replicate 16 {}
  log      : TraceStream := {}
  auth     : TraceAuth := {}
  /-- ATU_TRC_BUF_WR (R204). -/
  bufWr    : Nat := 0
  /-- A one-shot buffer is full (R203). -/
  bufFull  : Bool := false
  /-- Elapsed time at which each TRIG_OUT pulse ends; 0 when the line is low (R200). -/
  pulse    : Vector Nat 4 := Vector.replicate 4 0
  /-- Thousandths of a byte that the rate limit still allows on each port, and the elapsed time it was last topped up (R202). -/
  tokensA  : Nat := 8192000
  tokensB  : Nat := 8192000
  tokensAt : Nat := 0
  deriving DecidableEq, Repr

/-- A submitted log buffer (R206). -/
structure LogBuf where
  addr : Nat
  len  : Nat
  last : Bool
  ht   : Nat
  seq  : Nat
  deriving DecidableEq, Repr

/-- A stream byte and where it came from (R209, R210). -/
structure LogByte where
  val : Byte
  seq : Nat
  off : Nat
  ht  : Nat
  /-- ENABLE_MASK as the byte was consumed (R213). -/
  en  : Nat
  deriving DecidableEq, Repr

/-- The log matcher (R206 to R214). -/
structure LogUnit where
  queue   : List LogBuf := []
  /-- Bytes of the front buffer already consumed. -/
  off     : Nat := 0
  nextSeq : Nat := 0
  /-- The last stream bytes, newest first; none where a byte belongs to an invalid sequence. -/
  hist    : List (Option Byte) := []
  /-- Bytes of a character not yet complete, oldest first (R211). -/
  partChar : List LogByte := []
  deriving DecidableEq, Repr

/-! ### Ageing, sanding and the event recorder (spec/06_die_health.md) -/

/-- One ageing site beyond its registers (R218 to R225). -/
structure AgeSite where
  /-- REMAINING_H has been at or above EOL_WARN_H since the last AGE_EOL record (R225). -/
  armed    : Bool := true
  /-- Recoat cycles in a row with VALUE above GUARD_HIGH (R227). -/
  highRun  : Nat := 0
  deriving DecidableEq, Repr

/-- The ageing unit. -/
structure AgeUnit where
  sites     : Vector AgeSite 32 := Vector.replicate 32 {}
  /-- Operating seconds of the last measurement, fit and recoat cycle; below 0 where LIFE_SECONDS was seeded lower since (R224). -/
  lastMeas  : Int := 0
  lastFit   : Int := 0
  lastRecoat : Int := 0
  /-- Elapsed time of the last advice to each domain (R228). -/
  lastAdvice : Vector (Option Nat) 16 := Vector.replicate 16 none
  /-- Advices that wait for MARGIN_ADVICE, oldest first (R226). -/
  adviceQ   : List Nat := []
  /-- Pulses given on MARGIN_STROBE, and elapsed time at which the last one began. -/
  strobes   : Nat := 0
  strobeAt  : Option Nat := none
  deriving DecidableEq, Repr

/-- One core's sanding state (R230 to R241). -/
structure SandCore where
  req       : Bool := false
  run       : Bool := false
  gnt       : Bool := false
  urgent    : Bool := false
  untested  : Bool := false
  failed    : Bool := false
  marginal  : Bool := false
  /-- A retest is awaited, and operating seconds at which it is asked for (R240). -/
  retestAt  : Option Int := none
  /-- The test now running is a retest. -/
  retest    : Bool := false
  /-- Elapsed time at which an aborted core is asked for again (R233). -/
  againAt   : Option Nat := none
  /-- Elapsed time at which SAND_RUN was asserted. -/
  runSince  : Nat := 0
  /-- Operating seconds at which the core falls due (R235); below 0 where LIFE_SECONDS was seeded lower since (R224). -/
  dueSec    : Int := 0
  /-- The soft deadline of this due time has been announced (R236). -/
  softSeen  : Bool := false
  lastPass  : Option Int := none
  /-- Operating seconds of the write that enabled the core (R235). -/
  enabledAt : Int := 0
  aborts    : Nat := 0
  passes    : Nat := 0
  deriving DecidableEq, Repr

/-- A record of the event recorder (R244) and its byte position in the ring. -/
structure EvrRec where
  pos     : Nat
  typ     : Nat
  sev     : Nat
  source  : Nat
  times   : Nat
  htFirst : Nat
  htLast  : Nat
  seconds : Nat
  detail  : List Byte
  deriving DecidableEq, Repr

/-- A flush in progress (R251 to R256): why, into which slot, and the record bytes as they stood at its start. -/
structure EvrFlush where
  reason : Nat
  slot   : Nat
  /-- Byte position of the oldest byte and the bytes themselves. -/
  start  : Nat
  body   : List Byte
  ht     : Nat
  /-- Elapsed time at which the flush started. -/
  atTime    : Nat
  deriving DecidableEq, Repr

/-- The event recorder: ring, records and the non-volatile store behind the flush interface. -/
structure EvrUnit where
  /-- ATU_EVR_WR, a 64-bit byte position. -/
  wr       : Nat := 0
  ring     : SMap Byte := []
  /-- Records still whole in the ring, oldest first. -/
  recs     : List EvrRec := []
  flush    : Option EvrFlush := none
  /-- A fault asks for a flush (R252). -/
  faultDue : Bool := false
  /-- Elapsed time at the end of the previous flush (R252). -/
  lastEnd  : Option Nat := none
  /-- The slot of the last completed image. -/
  slot     : Nat := 1
  nv       : SMap Byte := []
  /-- The load of R250 is complete. -/
  loaded   : Bool := false
  /-- Elapsed time of the last PWR_FAIL_N assertion. -/
  failAt   : Option Nat := none
  /-- LIFE_SECONDS was written since power-on (R224). -/
  lifeSet  : Bool := false
  deriving DecidableEq, Repr

/-! ### Boundary and safety (spec/07_atu_boundary.md, spec/18_safety.md) -/

/-- Registers that each side of the window holds on its own (R283). -/
structure SideRegs where
  actWinLo  : Word := 0
  actWinHi  : Word := 0
  authLo    : Word := 0
  authExpLo : Word := 0
  authExpHi : Word := 0
  evrRdPos  : Word := 0
  deriving DecidableEq, Repr

/-- A register access that waits because ATU_CLK is stopped (R751). -/
structure HeldAccess where
  side  : Side
  port  : PortId
  tag   : Nat
  wr    : Bool
  off   : Nat
  dat   : Word
  strb  : Nat
  deriving DecidableEq, Repr

/-- The answer on the register bus (R276). -/
structure RegAnswer where
  code : Status := .ok
  dat  : Word := 0
  deriving DecidableEq, Repr

/-- A refused access as ATU_ERR_ADDR, ATU_ERR_INFO and ATU_ERR_HADDR record it (R284, R285). -/
structure ErrEntry where
  off   : Nat
  code  : Status
  wr    : Bool
  side  : Side
  haddr : Option Nat
  deriving DecidableEq, Repr

/-- Clocks, resets, pins and the register bus. -/
structure Boundary where
  /-- The main reset is asserted. -/
  inReset   : Bool := true
  /-- Elapsed time at which the main reset was asserted, and at which it was released. -/
  resetAt   : Nat := 0
  releaseAt : Option Nat := none
  /-- The main domain accepts register accesses: ATU_RST_ACTIVE is 0 (R266, R273). -/
  ready     : Bool := false
  /-- Reset sources of the main reset in progress (R264), as cause bits. -/
  sources   : Nat := 1
  mainPwrOk : Bool := true
  /-- ATU_RST_N is asserted (R264). -/
  rstLow    : Bool := false
  clkRun    : Bool := true
  /-- Elapsed time at which ATU_CLK stopped (R751). -/
  clkStopAt : Nat := 0
  /-- RWO registers written since the last main reset (R13, R14). -/
  rwo       : List Nat := []
  hostSide  : SideRegs := {}
  aggSide   : SideRegs := {}
  held      : List HeldAccess := []
  /-- The last answer given to the host on the register bus. -/
  answer    : RegAnswer := {}
  /-- The last refused access, logged or not (R284). -/
  refusal   : Option ErrEntry := none
  deriving DecidableEq, Repr

/-- Safety forwarding in the ATU (R302, R673). -/
structure SafeFwd where
  /-- Recognised SAFE_IN[7:0]. -/
  now      : Nat := 0
  /-- Inputs asserted since the previous beat, per port. -/
  sinceA   : Nat := 0
  sinceB   : Nat := 0
  /-- HT-independent elapsed time at which each input was last asserted. -/
  riseAt   : Vector Nat 8 := Vector.replicate 8 0
  riseHt   : Vector Nat 8 := Vector.replicate 8 0
  /-- Elapsed time of the last beat sent on each port. -/
  beatA    : Nat := 0
  beatB    : Nat := 0
  deriving DecidableEq, Repr

/-- The ATU of one host die. -/
structure Atu where
  regs  : SMap Word
  time  : AtuTime := {}
  samp  : Sampling := {}
  path  : FramePath := {}
  trace : TraceUnit := {}
  log   : LogUnit := {}
  age   : AgeUnit := {}
  sand  : Vector SandCore 16 := Vector.replicate 16 {}
  evr   : EvrUnit := {}
  bound : Boundary := {}
  safe  : SafeFwd := {}
  portA : PortEnd := {}
  portB : PortEnd := {}
  /-- Host DRAM as the ATU's DMA master sees it. -/
  hostMem : SMap Byte := []
  deriving DecidableEq, Repr

end Sys2Proof.Machine
end

