-- ==== Sys2Proof/Machine/AggState.lean ====
section
/-!
DEFINITION. AggState.lean: the state of one aggregator, first part: Hall Time, die ports, skim links, mailbox rings, ATU accesses in
progress, job contexts and pastes, the analysis ports: spec/02, 08, 09, 14, 15 and 16 of the spec.
-/
namespace Sys2Proof.Machine

/-! ### Hall Time (spec/02_hall_time.md) -/

/-- What a child keeps of its exchanges with one parent (R46 to R52). -/
structure ParentEx where
  /-- Sequence number of the next exchange. -/
  seq     : Nat := 0
  /-- HT at which the last exchange was started; a step of HT moves it along. -/
  started : Option Int := none
  /-- An exchange is open; its t1, in quarters of a nanosecond, once its request has left. -/
  waiting : Bool := false
  t1      : Option Nat := none
  /-- The cable asymmetry that LINK_ASYM had set when the exchange began, ps (R82). -/
  asymPs  : Int := 0
  /-- Consecutive failed exchanges. -/
  fails   : Nat := 0
  /-- What the last reply said of the parent. -/
  state   : TimeState := .unset
  depth   : Nat := 0
  noRef   : Bool := false
  deriving DecidableEq, Repr

/-- The aggregator's time base. Source: 0 ROOT_INPUTS, 1 TREE, 2 FREE_RUN. -/
structure AggTime where
  source    : Nat := 1
  state     : TimeState := .unset
  ht        : Nat := 0
  /-- Nanoseconds since reset on the time base's clock. -/
  elapsed   : Nat := 0
  slew      : Int := 0
  slewPhase : Nat := 0
  /-- Time-of-day messages that wait for the edge they name: HT named and elapsed time of arrival (R39). -/
  tod       : List (Nat × Nat) := []
  /-- Elapsed time of the last accepted time-of-day message. -/
  todOk     : Option Nat := none
  /-- Elapsed time of the last HT_PPS edge taken. -/
  ppsAt     : Option Nat := none
  ppsLost   : Bool := true
  /-- HT_REF is lost (R43). No cycle of it has been seen at reset. -/
  refLost   : Bool := true
  /-- Consecutive HT_PPS edges within 4 ns (R41). -/
  edgeRun   : Nat := 0
  /-- The inputs were rejected under R45 and wait for FORCE_SLEW. -/
  rejected  : Bool := false
  /-- In this HOLDOVER the inputs have been let in under R45, or FORCE_SLEW has been given. -/
  letIn     : Bool := false
  /-- Elapsed time from which the allowance of R45 and the growth of the error are counted: the entry to HOLDOVER, or to FREE_RUN (R83). -/
  holdSince : Option Nat := none
  /-- Elapsed time of the entry to the HOLDOVER that holds now (R84). -/
  heldSince : Option Nat := none
  everLocked : Bool := false
  prim      : ParentEx := {}
  alt       : ParentEx := {}
  /-- Time is taken from the alternate parent (R52). -/
  useAlt    : Bool := false
  /-- Consecutive exchanges with |offset| at most 2 ns (R51). -/
  exRun     : Nat := 0
  depth     : Nat := 0
  noRef     : Bool := false
  /-- Last measured offset, ns. -/
  offset    : Int := 0
  /-- The last measured link delay, ps. -/
  delayPs   : Nat := 0
  sched     : Option Sched := none
  pending   : Option (Nat × Nat) := none
  /-- The schedule before the change that was taken last: windows that opened under it keep their instants (R70, R72). -/
  prev      : Option Sched := none
  lastFired : Option Nat := none
  /-- Timestamps taken so far: each names a free quarter of a nanosecond (R47). -/
  stamps    : Nat := 0
  /-- Last whole millisecond for which a plumb beat fell due (R56). -/
  lastBeat  : Option Nat := none
  deriving DecidableEq, Repr

/-! ### Die ports (spec/08_links.md) -/

/-- One die port of the aggregator beyond its link end. -/
structure DiePort where
  link    : PortEnd := {}
  /-- Backplane asymmetry set by DIEPORT_ASYM, ps (R58). -/
  asymPs  : Int := 0
  /-- Capabilities and identity received at training (R304), and whether an identity has ever been learned. -/
  caps    : Word := 0
  atuId   : Word := 0
  learned : Bool := false
  /-- The out-of-band reset sequence is being sent (R308). -/
  oob     : Bool := false
  /-- Elapsed time of the last accepted SAFETY flit or counted miss (R303). -/
  safeAt  : Nat := 0
  /-- Fields of the last SAFETY flit accepted: sequence, SAFE_IN now, since, state (R302). -/
  safeSeq : Nat := 0
  safeNow : Nat := 0
  safeSince : Nat := 0
  safeState : Nat := 0
  /-- Trace chunks stored, SEQ gaps seen, and the SEQ that each source's next chunk should have, 0 for none yet (R205, R216). -/
  chunks  : Nat := 0
  gaps    : Nat := 0
  lastChunk : SMap Nat := []
  deriving DecidableEq, Repr

/-! ### Skim links (spec/08_links.md, spec/09_traffic.md) -/

/-- Messages between modules whose contents the spec states and whose byte layout it does not. -/
inductive CtlKind where
  | join | joinAck | joinNak | leave | adopt | adoptAck | adoptNak | depth
  | htCompare | selfValues | rootExchange | rootResult | downDigest | downWhole
  | pairSummary | runLog | katResult | redigest | records | expel | commitOutcome
  | keepalive | safetyState | syncRequest | syncState | checkpoint | checkpointFetch | checkpointReply | history
  | imageReq | imageNone | image | traceCopy | pasteCtl
  deriving DecidableEq, Repr

/-- Such a message: its kind, its numbers in the order that the rule lists them, and the bytes it carries whole. -/
structure Ctl where
  kind  : CtlKind
  nums  : List Nat := []
  bytes : List Byte := []
  deriving DecidableEq, Repr

/-- A message in an egress queue (R327, R336). Where the spec gives no layout, `ctl` holds the contents and `bytes` stand for them on
the wire only by their number. -/
structure SkimMsg where
  bytes    : List Byte
  ctl      : Option Ctl := none
  deadline : Option Nat := none
  queuedAt : Nat
  /-- Number of the message in the partner bundle's order (R322). -/
  bundle   : Option Nat := none
  deriving DecidableEq, Repr

/-- The transmit side of one class of one skim link. -/
structure ClassTx where
  queue    : List SkimMsg := []
  /-- Bytes of the front message already sent. -/
  off      : Nat := 0
  /-- Elapsed time at which the front slot became the front. -/
  headAt   : Nat := 0
  delayMax : Nat := 0
  /-- Bytes sent, modulo 2^48. -/
  sent     : Nat := 0
  lost     : Nat := 0
  /-- Credit granted by the far end and slots sent, modulo 2^16 (R345). -/
  granted  : Nat := 0
  slots    : Nat := 0
  /-- Elapsed time since which a ready slot has had no credit, and whether its stall was reported (R357). -/
  stalled  : Option Nat := none
  reported : Bool := false
  /-- Meter buckets in bytes times 1000, and the elapsed time of their last update (R337, R338). -/
  tc       : Nat := 0
  tp       : Nat := 0
  deriving DecidableEq, Repr

/-- A receive slot in use: since when, whether it is one of the shared pool, whether it ends a message, and that whole message until the consumer
takes it (R346, R353). -/
structure HeldSlot where
  since  : Nat
  shared : Bool
  last   : Bool := false
  msg    : Option (List Byte) := none
  deriving DecidableEq, Repr

/-- The receive side of one class of one skim link. -/
structure ClassRx where
  /-- Credit granted to the far end, modulo 2^16 (R345), and slots received. -/
  granted  : Nat := 0
  received : Nat := 0
  part     : List Byte := []
  /-- Slots held, oldest first, with the whole messages that the consumer has still to take. -/
  held     : List HeldSlot := []
  /-- Whole messages from before the link last left UP, which the consumer takes first. -/
  left     : List (List Byte) := []
  /-- Lent slots whose credit the far end has not used yet. -/
  lent     : Nat := 0
  /-- The release bound of the oldest slot was exceeded and reported. -/
  late     : Bool := false
  /-- The consumer discards the rest of the message that arrives now, and the messages that it has discarded (R353). -/
  dropping : Bool := false
  discards : Nat := 0
  deriving DecidableEq, Repr

/-- A deficit round robin list (R341 to R343): active classes in order with their deficits; the pointer is at the front. The flag
says that the front class has taken its quantum in this turn. -/
structure Drr where
  active : List (Nat × Nat) := []
  turned : Bool := false
  deriving DecidableEq, Repr

/-- Where a lane of a skim link stands (R318 to R320). -/
inductive LaneState where
  | down
  | active
  | holdoff (endAt : Nat)
  | soak (since : Nat)
  | lockout (endAt : Nat)
  deriving DecidableEq, Repr

/-- One lane of a skim link. -/
structure Lane where
  state    : LaneState := .down
  /-- Elapsed time of the last admission, and removals in the present chain (R320). -/
  admitted : Option Nat := none
  chain    : Nat := 0
  /-- Elapsed times of the uncorrectable codewords of the last 1 ms (R318). -/
  uncAt    : List Nat := []
  /-- Codewords and corrected symbols of the millisecond that runs, when it began, and those of the one before (R318). -/
  words    : Nat := 0
  corr     : Nat := 0
  since    : Nat := 0
  lastWords : Nat := 0
  lastCorr : Nat := 0
  deriving DecidableEq, Repr

/-- A TIME flit that waits for a flit boundary (R314). -/
inductive TimeTx where
  | request (seq : Nat)
  | reply (seq t2 : Nat)
  deriving DecidableEq, Repr

/-- One skim link. -/
structure SkimLink where
  state    : PortState := .down
  retry    : Retry := {}
  training : Training := {}
  lastGood : Nat := 0
  lanes    : Vector Lane 2 := Vector.replicate 2 {}
  /-- The lanes that have trained so far, while the link is in CALIBRATE (R317). -/
  trained  : Nat := 0
  /-- A lane change agreed for a codeword: its count and the active lanes from there on (R318). -/
  laneChange : Option (Nat × Nat) := none
  /-- Codewords sent, modulo 2^16 (R311). -/
  codeword : Nat := 0
  rxCodeword : Nat := 0
  /-- Cable asymmetry set by LINK_ASYM, ps (R49). -/
  asymPs   : Int := 0
  tx       : Vector ClassTx 8 := Vector.replicate 8 {}
  rx       : Vector ClassRx 8 := Vector.replicate 8 {}
  green    : Drr := {}
  yellow   : Drr := {}
  /-- Elapsed time of the last bucket update. -/
  meterAt  : Nat := 0
  timeDue  : List TimeTx := []
  /-- Slots of a SAFETY flit that waits for a flit boundary (R316). -/
  safetyDue : Option (List Byte) := none
  safetySeq : Nat := 0
  /-- Elapsed time of the last SAFETY flit asked for. -/
  safetyAt : Nat := 0
  loopDue  : Option (List Byte) := none
  /-- A LANE_CHANGE waits to be sent: the codeword it names and the lanes active from there on. -/
  changeDue : Option (Nat × Nat) := none
  /-- Flits that arrived ahead of their codeword count, with the elapsed time of arrival (R311). -/
  deskew   : List (Nat × List Byte × Nat) := []
  /-- Elapsed time of the last accepted SAFETY flit or counted miss, and misses in a row (R685). -/
  safeAt   : Nat := 0
  safeMiss : Nat := 0
  peerCaps : Nat := 0
  /-- Skim messages dropped under R372. -/
  integrity : Nat := 0
  /-- TC6 messages that have left whole, oldest first, each with the SEQ of the flit that held its last slot, until that flit is acknowledged (R322). -/
  tc6Sent  : List (SkimMsg × Nat) := []
  /-- TC3 requests without an answer, and those that wait for one of the 16 (R355). -/
  reqs     : Nat := 0
  reqWait  : List SkimMsg := []
  lastTx   : Option (List Byte) := none
  /-- The scrambler, and the last codeword driven with its lane (R291, R311). -/
  scram    : BitVec 58 := 0
  lastWord : Option (Nat × List Nat) := none
  deriving DecidableEq, Repr

/-- One gate set: 16 entries of (DUR_PM, MASK), and 8 meter profiles as their three registers (R330, R337). -/
structure GateSet where
  entries : List (Nat × Nat) := []
  meters  : List (Word × Word × Word) := []
  deriving DecidableEq, Repr

/-- Gates and meters in force, and the pending set with the epoch from which it may take effect (R335). -/
structure GateUnit where
  pending : Option (GateSet × Nat) := none
  entry   : Nat := 0
  /-- HT of the round close that the entries are counted from. -/
  closeHt : Nat := 0
  deriving DecidableEq, Repr

/-! ### Mailbox rings (spec/14_mailboxes.md) -/

/-- A peer of a UDP ring (R529, R530). -/
structure Peer where
  addr    : Nat := 0
  port    : Nat := 0
  lastSeq : Nat := 0
  nextCseq : Nat := 1
  /-- Completions kept until they are acknowledged: CSEQ and slots. -/
  kept    : List (Nat × List Byte) := []
  deriving DecidableEq, Repr

/-- An admitted command that has not completed (R538, R539). -/
structure Inflight where
  ring    : Nat
  tag     : Nat
  opcode  : Nat
  ctx     : Nat
  sqPos   : Nat
  /-- CQ slots reserved for its largest completion. -/
  slots   : Nat
  /-- Its tag comes from the shared pool. -/
  shared  : Bool
  /-- Index of the peer that submitted it. -/
  peer    : Nat
  since   : Nat
  /-- Admission codes found before the command's own (R537); ABORTED by CHAIN (R542). -/
  codes   : List Status := []
  chained : Bool := false
  /-- It holds a tag. -/
  tagged  : Bool := true
  /-- It has passed its checks and runs (R537). -/
  begun   : Bool := false
  deriving DecidableEq, Repr

/-- One mailbox ring (R520 to R540). -/
structure Ring where
  bound     : Bool := false
  rdma      : Bool := false
  qpn       : Nat := 0
  cqAddr    : Nat := 0
  cqRkey    : Nat := 0
  key       : List Byte := []
  peers     : List Peer := []
  /-- The 16 KiB of the submission queue, by byte offset. -/
  sq        : SMap Byte := []
  /-- Which peer submitted the descriptor of a slot. -/
  sqPeer    : SMap Nat := []
  sqTail    : Nat := 0
  sqHead    : Nat := 0
  cqHead    : Nat := 0
  cqTail    : Nat := 0
  /-- Completion slots of an RDMA ring from CQ_HEAD to CQ_TAIL, oldest first, 32 bytes each (R619). -/
  cqKept    : List (List Byte) := []
  faulted   : Bool := false
  /-- Status of the descriptor that completed at each submission position from 256 before SQ_HEAD on, for CHAIN (R542). -/
  outcomes  : SMap Nat := []
  /-- Elapsed time since which the head descriptor waits, and whether its waits have been flagged. -/
  headSince : Nat := 0
  cqNoted   : Bool := false
  tagNoted  : Bool := false
  /-- Positions of ring 0 that were admitted ahead of the head (R563). -/
  ahead     : List Nat := []
  deriving DecidableEq, Repr

/-- A completion whose command ended while the Control Processor stalled (R519). -/
structure HeldDone where
  ring   : Nat
  tag    : Nat
  opcode : Nat
  status : Status
  res    : List Byte
  addr   : Nat
  deriving DecidableEq, Repr

/-- An entry of the violation log (R548). -/
structure VEntry where
  seq    : Nat
  ht     : Nat
  ring   : Nat
  ctx    : Nat
  opcode : Nat
  status : Nat
  tag    : Nat
  source : Nat
  addr   : Nat
  deriving DecidableEq, Repr

/-- The mailbox unit. -/
structure Mailbox where
  rings    : Vector Ring 17 := Vector.replicate 17 {}
  inflight : List Inflight := []
  sharedFree : Nat := 448
  session  : Nat := 0
  vlog     : List VEntry := []
  vnext    : Nat := 0
  /-- Completions that wait for the Control Processor to run again (R519), oldest first. -/
  heldDone : List HeldDone := []
  /-- The model's own field: commands that have passed their checks, so that admission tells them from refused ones (R537). -/
  begins   : Nat := 0
  deriving DecidableEq, Repr

/-! ### ATU accesses over the die ports (R543, R555 to R558) -/

/-- Who waits for a sequence of register accesses, and what it makes of the outcome. -/
inductive RegUse where
  /-- ATU_WRITE and ATU_READ (R555). -/
  | write | read
  | timeStatus
  /-- ATU_TRACE_CTL: what it writes once the destinations were checked (R216). -/
  | traceCtl (checkDest : Bool)
  /-- ATU_SANDING_PLAN: the cores to check as wired, the writes that follow the check, and whether a parameter is bad (R243). -/
  | sandPlan (mask : Nat) (writes : Option (List (Nat × Nat))) (bad : Bool)
  /-- EVENT_LOG_READ of SOURCE 2: destination, limit, FROM, and bytes asked for once known (R561). -/
  | evrRead (dst maxBytes fromPos len : Nat)
  /-- The write of ATU_RESET_CTL, and the read of ATU_RESET_CAUSE (R269). -/
  | resetWrite | resetRead
  | discovery
  /-- Writes of JOB_COMMIT, of a teardown and of a release; the ownership reads of JOB_ARM (R582, R584, R588). -/
  | commit (ctx : Nat) | ownerCheck (ctx : Nat)
  /-- The channels to disable, the window from which, and whether their configurations are still being read. -/
  | teardown (ctx mask act : Nat) (reads : Bool)
  /-- A resend request, or a flush after a frame without reference (R138, R692). -/
  | quiet
  deriving DecidableEq, Repr

/-- One register access: write flag, offset, data. -/
structure RegOp where
  wr  : Bool
  off : Nat
  dat : Nat := 0
  deriving DecidableEq, Repr

/-- A sequence of register accesses on one die port for one command or one function of the firmware. -/
structure RegJob where
  ident  : Nat
  port   : Nat
  ring   : Nat
  tag    : Nat
  opcode : Nat
  use    : RegUse
  todo   : List RegOp
  /-- The access now under way and the TAG of its request flit; its departure once known (R558). -/
  now    : Option (RegOp × Nat) := none
  leftAt : Option Nat := none
  got    : List Word := []
  deriving DecidableEq, Repr

/-- An ATU_RESET that waits for its port (R269). -/
structure ResetWait where
  ring  : Nat
  tag   : Nat
  port  : Nat
  since : Nat
  /-- The port has left UP since, or was not in UP. -/
  left  : Bool
  /-- The read of ATU_RESET_CAUSE is under way. -/
  reads : Bool := false
  deriving DecidableEq, Repr

/-- The access unit: jobs in admission order, the next request TAG, and the resets that wait. -/
structure RegUnit where
  jobs    : List RegJob := []
  nextTag : Nat := 0
  nextId  : Nat := 0
  resets  : List ResetWait := []
  deriving DecidableEq, Repr

/-! ### The analysis ports (spec/16_windows.md) -/

/-- A memory window (R606 to R616). -/
structure Window where
  opened   : Bool := false
  /-- Revoking: elapsed time of admission. -/
  draining : Option Nat := none
  /-- T_r has been reached: its elapsed time and HT (R612). -/
  instant  : Option (Nat × Nat) := none
  gen      : Nat := 0
  pd       : Nat := 0
  base     : Nat := 0
  len      : Nat := 0
  access   : Nat := 0
  qpn      : Option Nat := none
  notify   : Bool := false
  /-- Ring and tag of the revoke, and messages completed after T_r. -/
  revoker  : Option (Nat × Nat) := none
  drained  : Nat := 0
  deriving DecidableEq, Repr

/-- A WRITE message admitted at its first packet, of which packets are outstanding (R609): its window (none for a ring region), the bytes
already written, and whether it was cut at the drain bound (R613). -/
structure RdmaMsg where
  window : Option Nat
  va     : Nat
  len    : Nat
  done   : Nat
  cut    : Bool := false
  deriving DecidableEq, Repr

/-- A packet that the aggregator sent as requester and that is not acknowledged yet (R605). -/
structure ReqPkt where
  psn   : Nat
  va    : Nat
  rkey  : Nat
  bytes : List Byte
  send  : Bool
  deriving DecidableEq, Repr

/-- The parameters of QP_CREATE (R624). -/
structure QpArgs where
  port    : Nat
  pmtu    : Nat
  dest    : Nat
  sqPsn   : Nat
  rqPsn   : Nat
  timeout : Nat
  retry   : Nat
  mac     : Nat
  gid     : Nat
  deriving DecidableEq, Repr

/-- A QP_DESTROY or RECONNECT that waits for the queue pair's admitted messages (R624, R625): since when, its ring, tag and opcode, and the
parameters that RECONNECT sets. -/
structure QpDrain where
  since : Nat
  ring  : Nat
  tag   : Nat
  op    : Nat
  again : Option QpArgs := none
  deriving DecidableEq, Repr

/-- One queue pair (R620 to R625). -/
structure Qp where
  pd      : Nat
  port    : Nat
  pmtu    : Nat
  dest    : Nat
  sqPsn   : Nat
  rqPsn   : Nat
  timeout : Nat
  retry   : Nat
  mac     : Nat
  gid     : Nat
  error   : Bool := false
  cached  : Bool := true
  lastUse : Nat := 0
  msg     : Option RdmaMsg := none
  unacked : List ReqPkt := []
  sentAt  : Nat := 0
  tries   : Nat := 0
  gapNak  : Bool := false
  lastCnp : Option Nat := none
  drain   : Option QpDrain := none
  deriving DecidableEq, Repr

/-- An admitted READ whose responses have not all left (R613): its queue pair and port, the PSN of its first response, the responses and their
bytes, the address, the window (none for a ring region), and whether the window reached T_r before its last response had left. -/
structure ReadOut where
  qpn    : Nat
  port   : Nat
  psn    : Nat
  count  : Nat
  pmtu   : Nat
  va     : Nat
  window : Option Nat
  atTr   : Bool := false
  /-- Its responses were dropped when its queue pair entered ERROR (R619). -/
  lost   : Bool := false
  deriving DecidableEq, Repr

/-- A RoCEv2 packet that the aggregator sends (R604). -/
inductive Roce where
  /-- An RDMA WRITE of the aggregator as requester: queue pair, PSN, client address, key, bytes (TC3). -/
  | rdmaWrite (qpn psn va rkey : Nat) (bytes : List Byte)
  /-- A SEND of the aggregator (TC7). -/
  | rdmaSend (qpn psn : Nat) (bytes : List Byte)
  /-- One READ response packet (TC5). -/
  | readResponse (qpn psn : Nat) (bytes : List Byte)
  | ack (qpn psn : Nat)
  /-- A NAK with its AETH code: 0 PSN sequence, 1 invalid request, 2 remote access, 3 remote operational (R618). -/
  | nak (qpn psn code : Nat)
  | cnp (qpn : Nat)
  deriving DecidableEq, Repr

/-- The queue pair that sends a packet. -/
def Roce.qpn : Roce → Nat
  | .rdmaWrite q _ _ _ _ => q | .rdmaSend q _ _ => q | .readResponse q _ _ => q | .ack q _ => q | .nak q _ _ => q | .cnp q => q

/-- The data bytes of a packet, which the egress buffer and its registers count (notes/assumptions/122.md). -/
def Roce.size : Roce → Nat
  | .rdmaWrite _ _ _ _ b => b.length
  | .rdmaSend _ _ b => b.length
  | .readResponse _ _ b => b.length
  | _ => 0

/-- The egress queue of one class on an analysis port: the packets, the elapsed time at which the first became so, and the greatest such wait
since the last stroke (R351). -/
structure ApQueue where
  queue    : List Roce := []
  headAt   : Nat := 0
  delayMax : Nat := 0
  deriving DecidableEq, Repr

/-- The egress of an analysis port (R348, R349): its queues by class, the responses not generated while the buffer is full, each with its class,
the round robin of TC5 and TC7, and the instant at which the wire takes the next packet, in fiftieths of a nanosecond. -/
structure Egress where
  queues : Vector ApQueue 8 := Vector.replicate 8 {}
  held   : List (Nat × Roce) := []
  drr    : Drr := {}
  wireAt : Nat := 0
  deriving DecidableEq, Repr

/-- The analysis ports. -/
structure ApUnit where
  windows : SMap Window := []
  qps     : SMap (Option Qp) := []
  pds     : List Nat := [0]
  /-- Parked packets of each port, oldest first (R622). -/
  parked0 : List RocePkt := []
  parked1 : List RocePkt := []
  up0     : Bool := false
  up1     : Bool := false
  /-- What each port has still to send (R348). -/
  egress0 : Egress := {}
  egress1 : Egress := {}
  reads   : List ReadOut := []
  deriving DecidableEq, Repr

/-- What leaves the module outside the links: datagrams of the management port, and packets of the analysis ports with the port, the DSCP field
(R349) and the ECN field (R604). -/
inductive Out where
  /-- A UDP datagram: peer address, port, contents. -/
  | datagram (addr port : Nat) (bytes : List Byte)
  | packet (port dscp ecn : Nat) (p : Roce)
  deriving DecidableEq, Repr

/-! ### Jobs and pastes (spec/15_jobs.md) -/

/-- The states of a job context (R568). -/
inductive JobState where
  | free | created | armed | committed | active | draining
  deriving DecidableEq, Repr

/-- A die of a job: its Fleet Die ID, port, channel mask and position (R570, R574). -/
structure JobDie where
  die  : Nat
  port : Nat
  mask : Nat
  pos  : Option Nat := none
  deriving DecidableEq, Repr

/-- A compiled model of a job (R576). The parts are the sections' bytes as they passed their checks. -/
structure Model where
  digest  : Nat := 0
  program : List (List Byte) := []
  feature : List Byte := []
  level   : List Byte := []
  ensembles : List (Nat × List Byte) := []
  bases   : List Byte := []
  deferred : Bool := false
  deriving DecidableEq, Repr

/-- A window range of an area of memory. -/
structure Area where
  base : Nat
  len  : Nat
  deriving DecidableEq, Repr

/-- One job context (R568 to R590). -/
structure Job where
  state    : JobState := .free
  epoch    : Nat := 0
  tag      : Nat := 0
  hawk     : Area := ⟨0, 0⟩
  hbm      : Area := ⟨0, 0⟩
  dies     : List JobDie := []
  active   : Option Model := none
  pending  : Option Model := none
  /-- First window of the active model, and the models before it: first window, last window and one, the model (R585). -/
  since    : Nat := 0
  former   : List (Nat × Nat × Model) := []
  /-- The arm in force: ready window, elapsed time at which it lapses. -/
  armed    : Option (Nat × Nat) := none
  /-- Activation window of a committed model. -/
  commit   : Option Nat := none
  readyWin : Nat := 0
  actWin   : Nat := 0
  /-- Activation window of the first activation (R629). -/
  firstAct : Nat := 0
  lastWin  : Nat := 0
  /-- Ring and tag of the teardown that waits for the release. -/
  teardown : Option (Nat × Nat) := none
  /-- Ring and tag of the JOB_COMMIT that waits for the ATU writes, and the writes still open. -/
  committer : Option (Nat × Nat) := none
  openWrites : Nat := 0
  /-- The window being committed, the first code that was not OK, and the ports whose commit was accepted (R586). -/
  committing : Nat := 0
  failCode : Nat := 0
  accepted : List Nat := []
  /-- Ports whose write waits for another job's teardown, and ports that were not in UP (R586). -/
  delayed  : List Nat := []
  absent   : List Nat := []
  /-- The partner's outcome of a commit that this module has not been given yet (R587). -/
  farOutcome : Option Nat := none
  /-- A JOB_ARM that waits for the ownership reads: ring, tag, earliest window, hold in ms. -/
  armer    : Option (Nat × Nat × Nat × Nat) := none
  /-- The counters of R554, and their values at the last stroke (R553). -/
  counters : SMap Nat := []
  shown    : SMap Nat := []
  deriving DecidableEq, Repr

/-- A claim of a die port's channel (R575). -/
structure ChanClaim where
  port    : Nat
  chan    : Nat
  holder  : Nat
  /-- A second, pending claim. -/
  next    : Option Nat := none
  /-- LAST_WINDOW of the job that released the channel to its holder (R582). -/
  freed   : Option Nat := none
  deriving DecidableEq, Repr

/-- A queued JOB_CREATE (R572). -/
structure QueuedCreate where
  ring    : Nat
  tag     : Nat
  ctx     : Nat
  jobTag  : Nat
  hawkMib : Nat
  hbmGib  : Nat
  bind    : List Byte
  since   : Nat
  limitMs : Nat
  deriving DecidableEq, Repr

/-- A RECEIVE that waits for a paste (R601). -/
structure PasteWait where
  ring   : Nat
  tag    : Nat
  ctx    : Nat
  paste  : Nat
  digest : Nat
  deriving DecidableEq, Repr

/-- One paste staged or forwarded here (R591 to R600). -/
structure Paste where
  ident    : Nat
  chunks   : Nat
  len      : Nat
  digest   : Nat
  deadline : Nat
  /-- Where in the staging area the image stands: base and length of each part (R573, R594). -/
  place    : List (Nat × Nat) := []
  /-- Numbers of the chunks held, with their bytes. -/
  held     : SMap (List Byte) := []
  /-- Chunks of the contiguous part that starts at 0, and the running CRC-64 over it. -/
  run      : Nat := 0
  crc      : Nat := 0
  staged   : Bool := true
  failed   : Bool := false
  /-- Bitmap of trays that hold the image: own tray and children, as byte values. -/
  own      : Bool := false
  partner  : List Byte := []
  children : SMap (List Byte) := []
  members  : List Byte := []
  /-- The partner module holds the image (R595). -/
  partnerHas : Bool := false
  /-- Links of children that re-parented to this module (R598). -/
  rejoined : List Nat := []
  /-- This module decides or sends (R596): ring and tag of SEND. -/
  sender   : Option (Nat × Nat) := none
  outcome  : Option Bool := none
  /-- Elapsed time at which staging is freed (R600). -/
  freeAt   : Option Nat := none
  /-- Elapsed time of the last HAVE sent and the bitmap it carried. -/
  haveAt   : Option Nat := none
  haveMap  : List Byte := []
  probeAt  : Option Nat := none
  /-- The paste parent is the alternate link (R598). -/
  useAlt   : Bool := false
  /-- Chunks asked for by children: link and first and count. -/
  asked    : List (Nat × Nat × Nat) := []
  deriving DecidableEq, Repr

/-- Jobs and pastes of one aggregator. -/
structure JobUnit where
  jobs    : Vector Job 16 := Vector.replicate 16 {}
  epoch   : Nat := 0
  claims  : List ChanClaim := []
  queue   : List QueuedCreate := []
  /-- Areas being zeroed after a release, with the elapsed time of the release (R573). -/
  zeroing : List (Area × Nat) := []
  pastes  : List Paste := []
  waits   : List PasteWait := []
  deriving DecidableEq, Repr

end Sys2Proof.Machine
end

