-- ==== Sys2Proof/Config.lean ====
section
/-!
DEFINITION. Config.lean: what the spec leaves open. Each constant is opaque and has no body: nothing can evaluate it, so a
claim about a result that uses one holds whatever the value is. Each is applied to State's `fresh` counter, which the
step that uses it advances, so that two uses are two values.
-/
namespace Sys2Proof.Config

/-- Free value: a number the spec says exists and does not fix (a session number, a count of cycles actually taken). -/
opaque freeNat : Nat → Nat

/-- Free value: a byte the spec says is written and whose content it does not fix. -/
opaque freeByte : Nat → Byte

/-- Free value: where within its nanosecond of HT a time flit crosses the PCS boundary, in quarters (R47). -/
opaque freePhase : Nat → BitVec 2

/-- Free value: the element codes of an MX block that holds a NaN, whose scale is 0xFF (R430): by format, by the codes the elements would have
without a scale, and by place. -/
opaque nanElem : Nat → List Nat → Nat → Nat

/-- Free value: byte 7 of an ensemble record (R473), by the low word of the window and the byte's address. -/
opaque ensPad : Nat → Nat → Byte

/-- Free value: bytes 19, 26 and 27 of a violation-log entry, for which R548 names no contents, by the entry's SEQ and the byte. -/
opaque vlogPad : Nat → Nat → Byte

/-- Free value: the tile boundary at which a station yields a one-off run (R437, notes/assumptions/140.md), by the number of the run that yields. -/
opaque freeTile : Nat → Nat

/-- Free value: the bytes that an Ethernet frame takes on the wire beside its data: headers, CRCs, preamble and gap (R348). -/
opaque frameExtra : Nat

end Sys2Proof.Config
end

