-- ==== Sys2Proof/Machine/Bits.lean ====
section
/-!
DEFINITION. Bits.lean: bit fields, little-endian byte strings, sparse maps and check values: the helpers every family uses.
R10 and R11 of spec/00_scope.md, R151 to R153 of spec/04_frames.md.
-/
namespace Sys2Proof.Machine

/-- `n` little-endian bytes of `v` (R10). -/
def leBytes : Nat → Nat → List Byte
  | 0, _ => []
  | n + 1, v => BitVec.ofNat 8 v :: leBytes n (v / 256)

/-- The number that little-endian bytes spell (R10). -/
def leNat : List Byte → Nat
  | [] => 0
  | b :: bs => b.toNat + 256 * leNat bs

/-- Two's complement of an integer in `w` bits, as a number. -/
def twos (w : Nat) (i : Int) : Nat := (i % (2 ^ w : Nat)).toNat

/-- The integer that the low `w` bits of `v` spell in two's complement. -/
def signedOf (w v : Nat) : Int :=
  let u := v % 2 ^ w
  if u < 2 ^ (w - 1) then (u : Int) else (u : Int) - (2 ^ w : Nat)

/-- A signed value held to the range of `w`-bit two's complement. -/
def saturateSigned (w : Nat) (i : Int) : Int :=
  let hi : Int := (2 ^ (w - 1) : Nat) - 1
  let lo : Int := -((2 ^ (w - 1) : Nat) : Int)
  if i > hi then hi else if i < lo then lo else i

/-- Bits [hi:lo] of a number (R11). -/
def bitField (v hi lo : Nat) : Nat := (v / 2 ^ lo) % 2 ^ (hi + 1 - lo)

/-- Bit `k` of a number. -/
def bitAt (v k : Nat) : Bool := v.testBit k

/-- Field [hi:lo] of a register (R11). -/
def wfld (w : Word) (hi lo : Nat) : Nat := bitField w.toNat hi lo

/-- Bit `k` of a register. -/
def wbit (w : Word) (k : Nat) : Bool := w.toNat.testBit k

/-- A register with field [hi:lo] replaced. -/
def wsetFld (w : Word) (hi lo v : Nat) : Word :=
  let m : Word := BitVec.ofNat 32 ((2 ^ (hi + 1 - lo) - 1) * 2 ^ lo)
  (w &&& ~~~m) ||| (BitVec.ofNat 32 (v * 2 ^ lo) &&& m)

/-- 1 for true, 0 for false. -/
def b2n (b : Bool) : Nat := if b then 1 else 0

/-- Bytes `i` to `i + n - 1` of a byte string. -/
def bytesAt (bs : List Byte) (i n : Nat) : List Byte := (bs.drop i).take n

/-- The little-endian number in bytes `i` to `i + n - 1`. -/
def leAt (bs : List Byte) (i n : Nat) : Nat := leNat (bytesAt bs i n)

/-- A byte string brought to length `n`: cut, or padded with zero bytes. -/
def padTo (n : Nat) (bs : List Byte) : List Byte := bs.take n ++ List.replicate (n - bs.length) 0

/-- Zero bytes. -/
def zeros (n : Nat) : List Byte := List.replicate n 0

/-- Ceiling of a quotient. -/
def ceilDiv (a b : Nat) : Nat := (a + b - 1) / b

/-- Integer square root, rounded down, by bisection on `fuel` bits. -/
def isqrtGo : Nat → Nat → Nat → Nat
  | 0, _, r => r
  | k + 1, n, r =>
    let t := r + 2 ^ k
    isqrtGo k n (if t * t ≤ n then t else r)

/-- isqrt of R221: the largest r with r * r at most n (n below 2^128). -/
def isqrt (n : Nat) : Nat := isqrtGo 64 n 0

/-! ### Sparse maps -/

/-- What a sparse map with default `d` holds at a key. -/
def sget {α : Type} (d : α) (m : SMap α) (k : Nat) : α :=
  match m with
  | [] => d
  | (j, v) :: t => if j = k then v else sget d t k

/-- Take every entry with a key out of a sparse map. -/
def serase {α : Type} (m : SMap α) (k : Nat) : SMap α := m.filter fun e => decide (e.1 ≠ k)

/-- Put a value into a sparse map with default `d`, keeping the canonical form: a key has one entry, and the default removes it. -/
def sset {α : Type} [DecidableEq α] (d : α) (m : SMap α) (k : Nat) (v : α) : SMap α :=
  match m with
  | [] => if v = d then [] else [(k, v)]
  | (j, w) :: t =>
    if k < j then (if v = d then (j, w) :: serase t k else (k, v) :: (j, w) :: t)
    else if k = j then (if v = d then serase t k else (k, v) :: t)
    else (j, w) :: sset d t k v

/-- Every key of a sparse map lies above `lo`, keys rise, and no entry holds the default. -/
def swfFrom {α : Type} [DecidableEq α] (d : α) (lo : Nat) : SMap α → Bool
  | [] => true
  | (k, v) :: t => decide (lo ≤ k) && decide (v ≠ d) && swfFrom d (k + 1) t

/-- The canonical form of a sparse map. -/
def swf {α : Type} [DecidableEq α] (d : α) (m : SMap α) : Bool := swfFrom d 0 m

/-! ### Byte memories and register files -/

/-- One byte of a sparse byte memory; a byte nothing has written reads 0 (notes/assumptions/4.md). -/
def mget (m : SMap Byte) (a : Nat) : Byte := sget 0 m a

/-- `n` bytes from an address. -/
def mread (m : SMap Byte) (a : Nat) : Nat → List Byte
  | 0 => []
  | n + 1 => mget m a :: mread m (a + 1) n

/-- Write a byte string at an address. -/
def mwrite (m : SMap Byte) (a : Nat) : List Byte → SMap Byte
  | [] => m
  | b :: bs => mwrite (sset 0 m a b) (a + 1) bs

/-- The little-endian number of `n` bytes at an address. -/
def mreadNat (m : SMap Byte) (a n : Nat) : Nat := leNat (mread m a n)

/-- Write into a ring of `size` bytes at `base`: the byte position `p` lies at offset p mod size (R141). -/
def ringWrite (m : SMap Byte) (base size p : Nat) : List Byte → SMap Byte
  | [] => m
  | b :: bs => ringWrite (sset 0 m (base + p % size) b) base size (p + 1) bs

/-- Read `n` bytes of a ring from byte position `p`. -/
def ringRead (m : SMap Byte) (base size p : Nat) : Nat → List Byte
  | 0 => []
  | n + 1 => mget m (base + p % size) :: ringRead m base size (p + 1) n

/-- One register of a register file; 0 where nothing else is listed. -/
def rget (r : SMap Word) (off : Nat) : Word := sget 0 r off

/-- Write one register of a register file. -/
def rset (r : SMap Word) (off : Nat) (v : Word) : SMap Word := sset 0 r off v

/-- Write one register from a number, modulo 2^32. -/
def rsetN (r : SMap Word) (off v : Nat) : SMap Word := rset r off (BitVec.ofNat 32 v)

/-- A counter register, modulo 2^32. -/
def rinc (r : SMap Word) (off n : Nat) : SMap Word := rset r off (rget r off + BitVec.ofNat 32 n)

/-- A counter register that saturates at 0xFFFF_FFFF (R16). -/
def rincSat (r : SMap Word) (off : Nat) : SMap Word :=
  if rget r off = 0xFFFFFFFF then r else rset r off (rget r off + 1)

/-- Write a LO and HI register pair from a 64-bit number. -/
def rset64 (r : SMap Word) (off v : Nat) : SMap Word := rsetN (rsetN r off v) (off + 4) (v / 2 ^ 32)

/-- The 64-bit number of a LO and HI register pair. -/
def rget64 (r : SMap Word) (off : Nat) : Nat := (rget r off).toNat + 2 ^ 32 * (rget r (off + 4)).toNat

/-! ### Check values (R151 to R153) -/

/-- The parameters of a check value (R151, R167). -/
structure CrcParams where
  width  : Nat
  poly   : Nat
  init   : Nat
  refIn  : Bool
  refOut : Bool
  xorOut : Nat
  deriving DecidableEq, Repr

/-- Bit reversal in `w` bits. -/
def reverseBits : Nat → Nat → Nat
  | 0, _ => 0
  | w + 1, v => (v % 2) * 2 ^ w + reverseBits w (v / 2)

/-- `n` shift steps of R152 on a running value of width `w`. -/
def crcShift (w poly : Nat) : Nat → Nat → Nat
  | 0, crc => crc
  | n + 1, crc =>
    let s := (crc * 2) % 2 ^ w
    crcShift w poly n (if crc.testBit (w - 1) then s ^^^ poly else s)

/-- One byte of R152. -/
def crcByte (p : CrcParams) (crc : Nat) (b : Byte) : Nat :=
  let x := if p.refIn then reverseBits 8 b.toNat else b.toNat
  crcShift p.width p.poly 8 (crc ^^^ (x * 2 ^ (p.width - 8)))

/-- The running value after a byte string (R152). -/
def crcRun (p : CrcParams) (crc : Nat) (bs : List Byte) : Nat := bs.foldl (crcByte p) crc

/-- The result of a running value (R152). -/
def crcResult (p : CrcParams) (crc : Nat) : Nat :=
  (if p.refOut then reverseBits p.width crc else crc) ^^^ p.xorOut

/-- The check value of a whole byte string (R152). -/
def crcOf (p : CrcParams) (bs : List Byte) : Nat := crcResult p (crcRun p p.init bs)

/-- ALGO 0 of R151: CRC-32C. -/
def crc32c : CrcParams := ⟨32, 0x1EDC6F41, 0xFFFFFFFF, true, true, 0xFFFFFFFF⟩
/-- ALGO 1 of R151: CRC-32/IEEE 802.3. -/
def crc32ieee : CrcParams := ⟨32, 0x04C11DB7, 0xFFFFFFFF, true, true, 0xFFFFFFFF⟩
/-- ALGO 2 of R151: CRC-16/CCITT. -/
def crc16ccitt : CrcParams := ⟨16, 0x1021, 0xFFFF, false, false, 0⟩
/-- ALGO 3 of R151: CRC-64/ECMA-182. -/
def crc64ecma : CrcParams := ⟨64, 0x42F0E1EBA9EA3693, 0, false, false, 0⟩

/-- The algorithm that an ALGO field names (R151). -/
def crcAlgo (n : Nat) : CrcParams :=
  match n with
  | 0 => crc32c
  | 1 => crc32ieee
  | 2 => crc16ccitt
  | _ => crc64ecma

/-- A byte string followed by its check value, stored little-endian in ceil(w / 8) bytes (R153). -/
def withCrc (p : CrcParams) (bs : List Byte) : List Byte := bs ++ leBytes (ceilDiv p.width 8) (crcOf p bs)

/-- Whether the last bytes of a string are the check value of the bytes before them. -/
def crcGood (p : CrcParams) (bs : List Byte) : Bool :=
  let n := ceilDiv p.width 8
  let body := bs.take (bs.length - n)
  decide (n ≤ bs.length) && decide (leNat (bs.drop (bs.length - n)) = crcOf p body)

/-! ### Status codes -/

/-- The code of R18. -/
def statusCode (s : Status) : Nat :=
  match s with
  | .ok => 0x00 | .badOpcode => 0x02 | .badParam => 0x03 | .access => 0x04 | .privilege => 0x05
  | .noResource => 0x06 | .notPresent => 0x07 | .conflict => 0x08 | .staleEpoch => 0x09 | .aborted => 0x0A
  | .timeout => 0x0B | .integrity => 0x0C | .noShrink => 0x0D | .quorum => 0x0E | .busyRetry => 0x0F
  | .contested => 0x10

/-- The status that a code spells; software treats an unused code as INTEGRITY (R20). -/
def statusOfCode (n : Nat) : Status :=
  match n with
  | 0x00 => .ok | 0x02 => .badOpcode | 0x03 => .badParam | 0x04 => .access | 0x05 => .privilege
  | 0x06 => .noResource | 0x07 => .notPresent | 0x08 => .conflict | 0x09 => .staleEpoch | 0x0A => .aborted
  | 0x0B => .timeout | 0x0D => .noShrink | 0x0E => .quorum | 0x0F => .busyRetry
  | 0x10 => .contested | _ => .integrity

/-- The place of an admission code in the order of R21. -/
def admissionRank (s : Status) : Nat :=
  match s with
  | .badOpcode => 0 | .privilege => 1 | .notPresent => 2 | .badParam => 3 | .access => 4 | .staleEpoch => 5
  | .conflict => 6 | .noResource => 7 | .busyRetry => 8 | _ => 9

/-- The first applicable code of a list of failed checks, in the order of R21. -/
def firstCode : List Status → Option Status
  | [] => none
  | c :: cs =>
    match firstCode cs with
    | none => some c
    | some d => some (if admissionRank c ≤ admissionRank d then c else d)

/-- A check: the code that applies when `bad` holds. -/
def failIf (bad : Bool) (c : Status) : List Status := if bad then [c] else []

/-- The encoding of a time state in a STATE field. -/
def timeStateCode (t : TimeState) : Nat :=
  match t with
  | .unset => 0 | .acquiring => 1 | .locked => 2 | .holdover => 3

/-- The time state a STATE field spells. -/
def timeStateOf (n : Nat) : TimeState :=
  match n with
  | 1 => .acquiring | 2 => .locked | 3 => .holdover | _ => .unset

/-- The encoding of a port state in a STATE field (R304). -/
def portStateCode (t : PortState) : Nat :=
  match t with
  | .down => 0 | .train => 1 | .calibrate => 2 | .up => 3

/-- HT(n) of R69, for n at or after the anchor window. -/
def schedHt (s : Sched) (n : Nat) : Nat := s.anchorHt + (n - s.anchorWin) * s.periodUs * 1000

/-- HT(n) when a change (c, P') is pending (R72). -/
def schedHtPending (s : Sched) (p : Option (Nat × Nat)) (n : Nat) : Nat :=
  match p with
  | some (c, p') => if c ≤ n then schedHt s c + (n - c) * p' * 1000 else schedHt s n
  | none => schedHt s n

/-- The schedule that follows a change (c, P') (R72). -/
def schedAfter (s : Sched) (c p' : Nat) : Sched := ⟨c, schedHt s c, p'⟩

/-- HT(n) of a schedule, where a stroke before its anchor lies on the schedule before it (R69, R72). -/
def schedHtFrom (prev : Option Sched) (s : Sched) (p : Option (Nat × Nat)) (n : Nat) : Nat :=
  if n < s.anchorWin then (match prev with | some q => schedHt q n | none => s.anchorHt) else schedHtPending s p n

/-- The first stroke of a schedule whose HT lies after `floor`. -/
def firstAfter (s : Sched) (floor : Nat) : Nat :=
  if floor < s.anchorHt then s.anchorWin else s.anchorWin + (floor - s.anchorHt) / (s.periodUs * 1000) + 1

/-- The same when a change (c, P') is pending. -/
def firstAfterPending (s : Sched) (p : Option (Nat × Nat)) (floor : Nat) : Nat :=
  let n := firstAfter s floor
  match p with
  | some (c, p') => if c ≤ n then max c (firstAfter (schedAfter s c p') floor) else n
  | none => n

/-- The window of a schedule that an HT lies in: window n is the interval (HT(n), HT(n + 1)] (R70). At or before the anchor HT it is the window that
the anchor stroke closes, and window 0 before any. -/
def schedWindow (s : Sched) (ht : Nat) : Nat :=
  if ht ≤ s.anchorHt then s.anchorWin - 1 else s.anchorWin + (ht - 1 - s.anchorHt) / (s.periodUs * 1000)

/-- The window open at an HT, with the schedule before this one and a pending change (R70, R72). -/
def windowAt (prev s : Option Sched) (p : Option (Nat × Nat)) (ht : Nat) : Nat :=
  match s with
  | none => 0
  | some s =>
    if ht ≤ s.anchorHt then (match prev with | some q => min (s.anchorWin - 1) (schedWindow q ht) | none => s.anchorWin - 1)
    else match p with
      | some (c, p') => if schedHt s c < ht then schedWindow (schedAfter s c p') ht else schedWindow s ht
      | none => schedWindow s ht

end Sys2Proof.Machine
end

