-- ==== Sys2Proof/Machine/SoftFloat.lean ====
section
/-!
DEFINITION. SoftFloat.lean: exact values, rounding to nearest with ties to even, the element formats of R410 and the arithmetic of
R423 and R424 of spec/11_stations.md. A finite value is a sign, a natural mantissa and a power of two; every operation is
computed exactly, or as a floor with a sticky bit, and rounded once.
-/
namespace Sys2Proof.Machine

/-- A value: NaN, an infinity, or (-1)^neg * mant * 2^exp. Zero keeps its sign. -/
inductive FVal where
  | nan
  | inf (neg : Bool)
  | fin (neg : Bool) (mant : Nat) (exp : Int)
  deriving DecidableEq, Repr

/-- Nat.log2 with 0 for 0. -/
def ilog2 (n : Nat) : Nat := Nat.log2 n

/-- 2^e for a non-negative integer exponent. -/
def pow2i (e : Int) : Nat := 2 ^ e.toNat

/-- n * 2^s rounded to the nearest integer, ties to even; `sticky` says that the exact value lies strictly above n * 2^s and
below (n + 1) * 2^s. -/
def roundShift (n : Nat) (s : Int) (sticky : Bool) : Nat :=
  if 0 ≤ s then n * pow2i s
  else
    let d := pow2i (-s)
    let q := n / d
    let r := n % d
    if 2 * r > d ∨ (2 * r = d ∧ (sticky ∨ q % 2 = 1)) then q + 1 else q

/-- A binary format: precision in bits, least and greatest exponent of a normal number. -/
structure FFmt where
  prec : Nat
  emin : Int
  emax : Int
  deriving DecidableEq, Repr

def fmt32 : FFmt := ⟨24, -126, 127⟩
def fmtBf16 : FFmt := ⟨8, -126, 127⟩
def fmtE4M3 : FFmt := ⟨4, -6, 8⟩
def fmtE5M2 : FFmt := ⟨3, -14, 15⟩
def fmtE2M1 : FFmt := ⟨2, 0, 2⟩

/-- The exponent of the last place of a value in a format, subnormals included. -/
def FFmt.quantum (f : FFmt) (mant : Nat) (exp : Int) : Int :=
  max ((ilog2 mant : Int) + exp - ((f.prec : Int) - 1)) (f.emin - ((f.prec : Int) - 1))

/-- Round a non-zero magnitude to a format without an upper limit: mantissa and exponent of the last place. -/
def FFmt.round (f : FFmt) (mant : Nat) (exp : Int) (sticky : Bool) : Nat × Int :=
  let q := f.quantum mant exp
  (roundShift mant (exp - q) sticky, q)

/-- Round a value with a sticky bit; beyond the greatest finite value it overflows to an infinity. -/
def FFmt.roundVal (f : FFmt) (neg : Bool) (mant : Nat) (exp : Int) (sticky : Bool) : FVal :=
  if mant = 0 then .fin neg 0 0
  else
    let (m, q) := f.round mant exp sticky
    if m = 0 then .fin neg 0 0
    else if f.emax < (ilog2 m : Int) + q then .inf neg else .fin neg m q

/-- Round to binary32 (R423). -/
def round32 (v : FVal) : FVal :=
  match v with
  | .fin n m e => fmt32.roundVal n m e false
  | x => x

/-! ### Decoding -/

/-- A value with a sign bit, `eb` exponent bits and `mb` mantissa bits, without special encodings. -/
def decodeBits (eb mb : Nat) (bias : Int) (v : Nat) : FVal :=
  let s := v.testBit (eb + mb)
  let e := bitField v (eb + mb - 1) mb
  let m := v % 2 ^ mb
  if e = 0 then .fin s m (1 - bias - mb) else .fin s (m + 2 ^ mb) ((e : Int) - bias - mb)

/-- binary32 (FORMAT 0x08). -/
def dec32 (v : Nat) : FVal :=
  if bitField v 30 23 = 255 then (if bitField v 22 0 = 0 then .inf (v.testBit 31) else .nan) else decodeBits 8 23 127 v
/-- BF16 (FORMAT 0x06). -/
def decBf16 (v : Nat) : FVal := dec32 (v * 65536)
/-- FP8_E4M3: no infinities. -/
def decE4M3 (v : Nat) : FVal := if v % 128 = 127 then .nan else decodeBits 4 3 7 v
/-- FP8_E5M2. -/
def decE5M2 (v : Nat) : FVal :=
  if bitField v 6 2 = 31 then (if v % 4 = 0 then .inf (v.testBit 7) else .nan) else decodeBits 5 2 15 v
/-- E2M1 element of MXFP4. -/
def decE2M1 (v : Nat) : FVal := decodeBits 2 1 1 v

/-- A value times 2^k. -/
def FVal.scale (v : FVal) (k : Int) : FVal :=
  match v with | .fin n m e => .fin n m (e + k) | x => x

/-! ### Encoding -/

/-- The bits of a rounded finite value in a format with `mb` mantissa bits. -/
def packBits (eb mb : Nat) (emin : Int) (neg : Bool) (m : Nat) (q : Int) : Nat :=
  let s := if neg then 2 ^ (eb + mb) else 0
  -- bring the mantissa to prec bits; a rounded subnormal keeps the least quantum
  let q0 := max ((ilog2 m : Int) + q - mb) (emin - mb)
  let m' := if 0 ≤ q - q0 then m * pow2i (q - q0) else m / pow2i (q0 - q)
  if m = 0 then s
  else if m' < 2 ^ mb then s + m'
  else s + ((q0 - (emin - mb)).toNat + 1) * 2 ^ mb + (m' - 2 ^ mb)

/-- binary32 bits of a value, rounded; NaN is canonical (R424). -/
def enc32 (v : FVal) : Nat :=
  match round32 v with
  | .nan => 0x7FC00000
  | .inf n => if n then 0xFF800000 else 0x7F800000
  | .fin n m q => packBits 8 23 (-126) n m q

/-- The value that stays after rounding to binary32, read back. -/
def canon32 (v : FVal) : FVal := dec32 (enc32 v)

/-! ### Arithmetic (R423, R424) -/

/-- Signed mantissa. -/
def sgn (neg : Bool) (m : Nat) : Int := if neg then -(m : Int) else m

/-- The exact sum of two finite values; an exact zero is +0 unless both are -0. -/
def addFin (n1 : Bool) (m1 : Nat) (e1 : Int) (n2 : Bool) (m2 : Nat) (e2 : Int) : FVal :=
  let e := min e1 e2
  let s := sgn n1 (m1 * pow2i (e1 - e)) + sgn n2 (m2 * pow2i (e2 - e))
  if s = 0 then .fin (n1 && n2) 0 0 else .fin (decide (s < 0)) s.natAbs e

/-- Exact addition with the special values of IEEE 754. -/
def FVal.addX (a b : FVal) : FVal :=
  match a, b with
  | .nan, _ => .nan
  | _, .nan => .nan
  | .inf x, .inf y => if x = y then .inf x else .nan
  | .inf x, .fin _ _ _ => .inf x
  | .fin _ _ _, .inf y => .inf y
  | .fin n1 m1 e1, .fin n2 m2 e2 => addFin n1 m1 e1 n2 m2 e2

/-- Exact multiplication with the special values of IEEE 754. -/
def FVal.mulX (a b : FVal) : FVal :=
  match a, b with
  | .nan, _ => .nan
  | _, .nan => .nan
  | .inf x, .inf y => .inf (x != y)
  | .inf x, .fin n m _ => if m = 0 then .nan else .inf (x != n)
  | .fin n m _, .inf y => if m = 0 then .nan else .inf (n != y)
  | .fin n1 m1 e1, .fin n2 m2 e2 => .fin (n1 != n2) (m1 * m2) (e1 + e2)

def FVal.neg (a : FVal) : FVal :=
  match a with | .nan => .nan | .inf n => .inf (!n) | .fin n m e => .fin (!n) m e

/-- a * b + c, exact. -/
def FVal.fmaX (a b c : FVal) : FVal := (a.mulX b).addX c

/-- a / b rounded to a format in one step. -/
def FVal.divTo (f : FFmt) (a b : FVal) (k : Int) : FVal :=
  match a, b with
  | .nan, _ => .nan
  | _, .nan => .nan
  | .inf _, .inf _ => .nan
  | .inf x, .fin n _ _ => .inf (x != n)
  | .fin n _ _, .inf y => .fin (n != y) 0 0
  | .fin n1 m1 e1, .fin n2 m2 e2 =>
    if m2 = 0 then (if m1 = 0 then .nan else .inf (n1 != n2))
    else if m1 = 0 then .fin (n1 != n2) 0 0
    else
      let s := ilog2 m2 + 64
      let q := m1 * 2 ^ s / m2
      f.roundVal (n1 != n2) q (e1 - e2 - s + k) (decide (m1 * 2 ^ s % m2 ≠ 0))

/-- The order of two values, NaN aside: less than. -0 equals +0. -/
def FVal.lt (a b : FVal) : Bool :=
  match a, b with
  | .nan, _ => false
  | _, .nan => false
  | .inf x, .inf y => x && !y
  | .inf x, .fin _ _ _ => x
  | .fin _ _ _, .inf y => !y
  | .fin n1 m1 e1, .fin n2 m2 e2 =>
    let e := min e1 e2
    decide (sgn n1 (m1 * pow2i (e1 - e)) < sgn n2 (m2 * pow2i (e2 - e)))

/-- v at most w, NaN aside. -/
def FVal.le (a b : FVal) : Bool :=
  match a, b with
  | .nan, _ => false
  | _, .nan => false
  | _, _ => !(b.lt a)

def FVal.isNan (a : FVal) : Bool := match a with | .nan => true | _ => false
def FVal.isZero (a : FVal) : Bool := match a with | .fin _ 0 _ => true | _ => false
def FVal.isNeg (a : FVal) : Bool := match a with | .inf n => n | .fin n _ _ => n | .nan => false

/-- MIN of R424: NaN when either is NaN; -0 lies below +0. -/
def FVal.minF (a b : FVal) : FVal :=
  if a.isNan || b.isNan then .nan
  else if a.lt b then a else if b.lt a then b else if a.isNeg then a else b
/-- MAX of R424. -/
def FVal.maxF (a b : FVal) : FVal :=
  if a.isNan || b.isNan then .nan
  else if a.lt b then b else if b.lt a then a else if a.isNeg then b else a

/-! ### Correctly rounded functions (R423) -/

/-- Integer square root of numbers below 2^(2 * fuel), rounded down. -/
def isqrtBig (fuel n : Nat) : Nat := isqrtGo fuel n 0

/-- Square root, rounded to binary32. -/
def FVal.sqrt32 (a : FVal) : FVal :=
  match a with
  | .nan => .nan
  | .inf n => if n then .nan else .inf false
  | .fin n m e =>
    if m = 0 then .fin n 0 0
    else if n then .nan
    else
      let (m, e) := if e % 2 = 0 then (m, e) else (2 * m, e - 1)
      let w := m * 2 ^ 60
      let r := isqrtBig 128 w
      fmt32.roundVal false r (e / 2 - 30) (decide (r * r ≠ w))

/-- Reciprocal square root, rounded to binary32: of -0 it is -infinity, of a negative value NaN (R424). -/
def FVal.rsqrt32 (a : FVal) : FVal :=
  match a with
  | .nan => .nan
  | .inf n => if n then .nan else .fin false 0 0
  | .fin n m e =>
    if m = 0 then .inf n
    else if n then .nan
    else
      let (m, e) := if e % 2 = 0 then (m, e) else (2 * m, e - 1)
      let k := 40 + ilog2 m
      let r := isqrtBig 128 (2 ^ (2 * k) / m)
      fmt32.roundVal false r (-(e / 2) - k) (decide (r * r * m ≠ 2 ^ (2 * k)))

/-- Reciprocal, rounded to binary32; of -0 it is -infinity. -/
def FVal.rcp32 (a : FVal) : FVal := (FVal.fin false 1 0).divTo fmt32 a 0

/-- Working precision of EXP2 and LOG2 in bits. -/
def wp : Nat := 320

/-- 2^f * 2^wp, rounded down up to the working precision, for f = 0.b1 b2 ... in `fuel` bits of `frac` (b1 is the top bit); `c` is the
root of 2 for the next bit. -/
def exp2Go : Nat → Nat → Nat → Nat → Nat
  | 0, _, _, acc => acc
  | n + 1, frac, c, acc =>
    let c' := isqrtBig (wp + 4) (c * 2 ^ wp)
    exp2Go n frac c' (if frac.testBit n then acc * c' / 2 ^ wp else acc)

/-- 2^a, rounded to binary32. A power with a fractional part is irrational, so its floor is never exact. -/
def FVal.exp232 (a : FVal) : FVal :=
  match a with
  | .nan => .nan
  | .inf n => if n then .fin false 0 0 else .inf false
  | .fin n m e =>
    if m = 0 then .fin false 1 0
    else if 8 ≤ (ilog2 m : Int) + e then (if n then .fin false 0 0 else .inf false)
    else if 0 ≤ e then fmt32.roundVal false 1 (sgn n (m * pow2i e)) false
    else
      let k := (-e).toNat
      let v := sgn n m
      let i := v / (2 ^ k : Nat)
      let frac := (v % (2 ^ k : Nat)).toNat
      if frac = 0 then fmt32.roundVal false 1 i false
      else fmt32.roundVal false (exp2Go k frac (2 * 2 ^ wp) (2 ^ wp)) (i - wp) true

/-- Bits of log2 of x / 2^wp in [1, 2), `fuel` of them after the point. -/
def log2Go : Nat → Nat → Nat → Nat
  | 0, _, acc => acc
  | n + 1, x, acc =>
    let s := x * x / 2 ^ wp
    if 2 ^ (wp + 1) ≤ s then log2Go n (s / 2) (2 * acc + 1) else log2Go n s (2 * acc)

/-- log2(a), rounded to binary32 (R424): of +0 and -0 it is -infinity, of a negative value NaN. -/
def FVal.log232 (a : FVal) : FVal :=
  match a with
  | .nan => .nan
  | .inf n => if n then .nan else .inf false
  | .fin n m e =>
    if m = 0 then .inf true
    else if n then .nan
    else
      let l := ilog2 m
      let i : Int := (l : Int) + e
      if m = 2 ^ l then fmt32.roundVal (decide (i < 0)) i.natAbs 0 false
      else
        let x := m * 2 ^ wp / 2 ^ l
        let f := log2Go 120 x 0
        if 0 ≤ i then fmt32.roundVal false (i.toNat * 2 ^ 120 + f) (-120) true
        else fmt32.roundVal true (i.natAbs * 2 ^ 120 - f - 1) (-120) true

/-! ### binary32 operations, each with its own rounding -/

def add32 (a b : FVal) : FVal := round32 (a.addX b)
def sub32 (a b : FVal) : FVal := round32 (a.addX b.neg)
def mul32 (a b : FVal) : FVal := round32 (a.mulX b)
def fma32 (a b c : FVal) : FVal := round32 (a.fmaX b c)

/-- An integer as an exact value. -/
def ofInt (i : Int) : FVal := .fin (decide (i < 0)) i.natAbs 0
def ofNat (n : Nat) : FVal := .fin false n 0
def one32 : FVal := .fin false 1 0

/-- log2(e) as binary32 (R421). -/
def log2e : FVal := dec32 0x3FB8AA3B

/-- SIGMOID of R421, each step rounded. -/
def sigmoid32 (a : FVal) : FVal := (add32 one32 ((mul32 a log2e).neg.exp232)).rcp32
/-- TANH of R421. -/
def tanh32 (a : FVal) : FVal := fma32 (ofNat 2) (sigmoid32 (mul32 (ofNat 2) a)) (ofInt (-1))

/-- One level of the reduction tree of R422: lanes i and i + w. -/
def pairUp : List FVal → List FVal
  | a :: b :: t => add32 a b :: pairUp t
  | l => l

/-- reduce of R422: pad to 256 lanes with +0 and combine neighbours in eight levels. -/
def reduce256 (xs : List FVal) : FVal :=
  let l := xs ++ List.replicate (256 - xs.length) (.fin false 0 0)
  match pairUp (pairUp (pairUp (pairUp (pairUp (pairUp (pairUp (pairUp l))))))) with
  | a :: _ => a
  | [] => .fin false 0 0

/-! ### Output conversions (R430, R431) -/

/-- A conversion's bits, and whether it saturated or mapped NaN to 0 (OUT_SAT). -/
structure Conv where
  bits : Nat
  sat  : Bool := false
  deriving DecidableEq, Repr

/-- Round to a small format and saturate at its greatest finite value. -/
def satConv (f : FFmt) (eb mb maxMag : Nat) (neg : Bool) (m : Nat) (e : Int) : Conv :=
  if m = 0 then ⟨0, false⟩
  else
    let (r, q) := f.round m e false
    let b := packBits eb mb f.emin false r q
    let s := if neg then 2 ^ (eb + mb) else 0
    if r = 0 then ⟨0, false⟩ else if maxMag < b then ⟨s + maxMag, true⟩ else ⟨s + b, false⟩

def convE4M3 (v : FVal) : Conv :=
  match v with
  | .nan => ⟨0x7F, false⟩
  | .inf n => ⟨(if n then 0x80 else 0) + 0x7E, true⟩
  | .fin n m e => satConv fmtE4M3 4 3 0x7E n m e

def convE5M2 (v : FVal) : Conv :=
  match v with
  | .nan => ⟨0x7F, false⟩
  | .inf n => ⟨(if n then 0x80 else 0) + 0x7C, false⟩
  | .fin n m e => satConv fmtE5M2 5 2 0x7B n m e

/-- E2M1 elements saturate at 6. -/
def convE2M1 (v : FVal) : Conv :=
  match v with
  | .nan => ⟨0, false⟩
  | .inf n => ⟨(if n then 8 else 0) + 7, true⟩
  | .fin n m e => satConv fmtE2M1 2 1 7 n m e

/-- An element of an MX block: like the plain format, and an infinity saturates to the greatest finite value. -/
def convMxElem (fmt : Nat) (v : FVal) : Conv :=
  match fmt, v with
  | 4, .inf n => ⟨(if n then 0x80 else 0) + 0x7B, true⟩
  | 3, v => convE4M3 v
  | 4, v => convE5M2 v
  | _, v => convE2M1 v

/-- A zero result is +0 (R430). -/
def plusZero (v : FVal) : FVal := match v with | .fin _ 0 _ => .fin false 0 0 | x => x

def conv32 (v : FVal) : Conv := ⟨enc32 (plusZero (round32 v)), false⟩
def convBf16 (v : FVal) : Conv :=
  match plusZero v with
  | .nan => ⟨0x7FC0, false⟩
  | .inf n => ⟨if n then 0xFF80 else 0x7F80, false⟩
  | .fin n m e =>
    match fmtBf16.roundVal n m e false with
    | .inf n => ⟨if n then 0xFF80 else 0x7F80, false⟩
    | .fin n m q => ⟨packBits 8 7 (-126) (n && decide (m ≠ 0)) m q, false⟩
    | .nan => ⟨0x7FC0, false⟩

/-- Integers of `w` bits: value times 2^shift, rounded and saturated; NaN gives 0. -/
def convInt (w : Nat) (shift : Int) (v : FVal) : Conv :=
  let hi : Int := (2 ^ (w - 1) : Nat) - 1
  let lo : Int := -((2 ^ (w - 1) : Nat) : Int)
  match v with
  | .nan => ⟨0, true⟩
  | .inf n => ⟨twos w (if n then lo else hi), true⟩
  | .fin n m e =>
    let i := sgn n (roundShift m (e + shift) false)
    if hi < i then ⟨twos w hi, true⟩ else if i < lo then ⟨twos w lo, true⟩ else ⟨twos w i, false⟩

/-- floor(log2) of the greatest magnitude of a block; none when every element is zero. -/
def blockTop (vs : List FVal) : Option Int :=
  vs.foldl (fun acc v =>
    match v with
    | .fin _ m e =>
      if m = 0 then acc
      else match acc with
        | some t => some (max t ((ilog2 m : Int) + e))
        | none => some ((ilog2 m : Int) + e)
    | .inf _ => some 1000
    | .nan => acc) none

/-- An MX block of 32 values (R430): scale byte and element codes, and whether anything saturated. -/
def mxBlock (fmt : Nat) (vs : List FVal) : Nat × List Nat × Bool :=
  if vs.any FVal.isNan then
    let codes := vs.map fun v => (convMxElem fmt (if v.isNan then .fin false 0 0 else v)).bits
    (0xFF, (List.range vs.length).map fun i => Config.nanElem fmt codes i % (if fmt = 5 then 16 else 256), false)
  else
    let e : Int := if fmt = 3 then 8 else if fmt = 4 then 15 else 2
    let x : Int := match blockTop vs with
      | some t => max (-127) (min 127 (t - e))
      | none => -127
    let cs := vs.map fun v => convMxElem fmt (v.scale (-x))
    ((x + 127).toNat, cs.map (·.bits), cs.any (·.sat))

end Sys2Proof.Machine
end

