-- ==== Sys2Proof/Machine/LevelCore.lean ====
section
/-!
DEFINITION. LevelCore.lean: Level blocks, Level state images, health scores, anomaly classes and verdict records: R481 to R494 of
spec/13_verdicts.md, as functions of their inputs.
-/
namespace Sys2Proof.Machine

/-! ### The Level block (R481, R482) -/

/-- A rank term. -/
structure LTerm where
  metric  : Nat
  flags   : Nat
  baseSf  : Nat
  tail    : Nat
  w0      : Nat
  w1      : Nat
  deriving DecidableEq, Repr

def LTerm.high (t : LTerm) : Bool := t.flags.testBit 0
def LTerm.run (t : LTerm) : Bool := t.flags.testBit 1
def LTerm.sag (t : LTerm) : Bool := t.flags.testBit 2
def LTerm.blister (t : LTerm) : Bool := t.flags.testBit 3
def LTerm.craze (t : LTerm) : Bool := t.flags.testBit 4

/-- A field that takes a default when it holds 0. -/
def orElse (v d : Nat) : Nat := if v = 0 then d else v

/-- A Level block with its defaults filled in. -/
structure Level where
  terms     : List LTerm
  runN      : Nat
  quiet     : Nat
  sagShift  : Nat
  classes   : Nat
  sagDrop   : Nat
  crazePm   : Nat
  crazeMin  : Nat
  below     : Nat
  lapse     : Nat
  pens      : List Nat
  scoreMin  : FVal
  scoreMax  : FVal
  ensMin    : Int
  ensMax    : Int
  cutoffUs  : Nat
  ensW0     : Nat
  ensW1     : Nat
  scoreW0   : List Nat
  scoreW1   : List Nat
  groups    : List (Nat × Nat)
  deriving DecidableEq, Repr

def readTerm (bs : List Byte) : LTerm :=
  ⟨leAt bs 0 2 % 1024, leAt bs 2 1, leAt bs 3 1, leAt bs 4 2, leAt bs 6 2, leAt bs 8 2⟩

def readLevel (bs : List Byte) : Level :=
  let n := leAt bs 2 1
  let smin := leAt bs 28 4
  let smax := leAt bs 32 4
  let emin := signedOf 40 (leAt bs 36 5)
  let emax := signedOf 40 (leAt bs 41 5)
  { terms := (List.range n).map fun j => readTerm (bytesAt bs (128 + 16 * j) 16),
    runN := orElse (leAt bs 4 2) 200, quiet := orElse (leAt bs 6 2) 16, sagShift := orElse (leAt bs 8 1) 14, classes := orElse (leAt bs 9 1) 3,
    sagDrop := orElse (leAt bs 10 2) 3277, crazePm := orElse (leAt bs 12 2) 250, crazeMin := orElse (leAt bs 14 2) 8,
    below := orElse (leAt bs 16 2) 256, lapse := orElse (leAt bs 18 2) 1000,
    pens := [orElse (leAt bs 20 2) 64, orElse (leAt bs 22 2) 64, orElse (leAt bs 24 2) 16, orElse (leAt bs 26 2) 32],
    scoreMin := if smin = 0 ∧ smax = 0 then .fin false 0 0 else dec32 smin,
    scoreMax := if smin = 0 ∧ smax = 0 then one32 else dec32 smax,
    ensMin := if emin = 0 ∧ emax = 0 then -(1024 * 4096) else emin, ensMax := if emin = 0 ∧ emax = 0 then 1024 * 4096 else emax,
    cutoffUs := orElse (leAt bs 48 2) 60,
    ensW0 := leAt bs 64 2, ensW1 := leAt bs 96 2,
    scoreW0 := (List.range 8).map fun k => leAt bs (66 + 2 * k) 2, scoreW1 := (List.range 8).map fun k => leAt bs (98 + 2 * k) 2,
    groups := (List.range (leAt bs 46 2)).map fun i => let v := leAt bs (384 + 4 * i) 4; (v % 16384, v / 16384) }

def ascending : List Nat → Bool
  | [] => true
  | [_] => true
  | x :: y :: t => decide (x < y) && ascending (y :: t)

/-- R482. -/
def levelBad (bs : List Byte) : Bool :=
  let n := leAt bs 2 1
  let ts := (List.range n).map fun j => bytesAt bs (128 + 16 * j) 16
  let l := readLevel bs
  let smin := leAt bs 28 4
  let smax := leAt bs 32 4
  let emin := signedOf 40 (leAt bs 36 5)
  let emax := signedOf 40 (leAt bs 41 5)
  decide (leAt bs 0 1 ≠ 0xE5 ∨ leAt bs 1 1 ≠ 1 ∨ 16 < n) ||
  decide (4 < (l.terms.filter LTerm.sag).length) ||
  l.terms.any (fun t => decide (t.tail = 0 ∨ 32767 < t.tail ∨ 55 < t.baseSf)) ||
  decide (leAt bs 8 1 ≠ 0 ∧ (leAt bs 8 1 < 4 ∨ 24 < leAt bs 8 1)) ||
  decide (leAt bs 48 2 ≠ 0 ∧ (leAt bs 48 2 < 20 ∨ 5000 < leAt bs 48 2)) ||
  (!decide (smin = 0 ∧ smax = 0) && (dec32 smax).le (dec32 smin)) || (!decide (emin = 0 ∧ emax = 0) && decide (emax ≤ emin)) ||
  !ascending (l.groups.map (·.1)) || l.groups.any (fun g => decide (g.2 = 0)) ||
  decide (leAt bs 3 1 ≠ 0 ∨ 15 < leAt bs 9 1) || (bytesAt bs 50 14 ++ bytesAt bs 82 14 ++ bytesAt bs 114 14).any (· ≠ 0) ||
  ts.any (fun t => decide (1023 < leAt t 0 2 ∨ 31 < leAt t 2 1) || (bytesAt t 10 6).any (· ≠ 0))

/-! ### The Level state image (R489) -/

/-- The state image of one die of one job. ACTION: 0 none, 1 WATCH, 2 RECOMMEND, 3 EXPELLED. -/
structure LevelImg where
  runCount : Nat := 0
  quiet    : Nat := 0
  action   : Nat := 0
  raiseWin : Nat := 0
  healthy  : Nat := 0
  expelFrom : Nat := 0
  /-- F and N of the four Sag entries. -/
  sag      : List (Int × Nat) := [(0, 0), (0, 0), (0, 0), (0, 0)]
  deriving DecidableEq, Repr

def LevelImg.bytes (s : LevelImg) : List Byte :=
  leBytes 4 s.runCount ++ leBytes 2 s.quiet ++ leBytes 1 s.action ++ zeros 1 ++ leBytes 6 s.raiseWin ++ leBytes 2 s.healthy ++
  leBytes 6 s.expelFrom ++ zeros 2 ++ s.sag.flatMap fun e => leBytes 4 (twos 32 e.1) ++ leBytes 4 e.2 ++ zeros 2

def readLevelImg (bs : List Byte) : LevelImg :=
  { runCount := leAt bs 0 4, quiet := leAt bs 4 2, action := leAt bs 6 1, raiseWin := leAt bs 8 6, healthy := leAt bs 14 2, expelFrom := leAt bs 16 6,
    sag := (List.range 4).map fun k => (signedOf 32 (leAt bs (24 + 10 * k) 4), leAt bs (28 + 10 * k) 4) }

/-! ### Placing a die-window (R485 to R493) -/

/-- What the Level station knows of a die-window beside the Level block and the state image. -/
structure WindowIn where
  die       : Nat
  window    : Nat
  /-- Weight set: 1 while the job has fallen back. -/
  set       : Nat
  scores    : List Nat
  /-- SUM and FLAGS of the ensemble slot in use, when it is active. -/
  ens       : Option (Int × Nat)
  /-- Present rank of each term. -/
  ranks     : List (Option Nat)
  /-- Static features of the die's Entity Table entry, NaN when there is none. -/
  statics   : List Nat
  /-- Valid group keys of the die, and the tallies of the DOWN in use. -/
  groups    : List Nat
  tallies   : SMap Nat
  roundWindows : Nat
  loss      : Bool
  unranked  : Bool
  partRound : Bool
  untested  : Bool
  failed    : Bool
  holdover  : Bool
  unchecked : Bool
  deriving DecidableEq, Repr

/-- The tail distance of a present rank (R485). -/
def tailDist (t : LTerm) (r : Nat) : Nat := if t.high then 0xFFFE - r else r

/-- Each term with its present rank. -/
def termRanks (l : Level) (w : WindowIn) : List (LTerm × Option Nat) := l.terms.zip (w.ranks ++ List.replicate 16 none)

def inTail (x : LTerm × Option Nat) : Bool := match x.2 with | some r => decide (tailDist x.1 r < x.1.tail) | none => false

/-- Deviant for a class (R485). -/
def deviantFor (l : Level) (w : WindowIn) (cls : LTerm → Bool) : Bool := (termRanks l w).any fun x => cls x.1 && inTail x
def presentFor (l : Level) (w : WindowIn) (cls : LTerm → Bool) : Bool := (termRanks l w).any fun x => cls x.1 && x.2.isSome

/-- floor(min(max(score, 0), 1) * 1024), exact (R486). -/
def scoreQ (v : FVal) : Nat :=
  match v with
  | .nan => 0
  | .inf n => if n then 0 else 1024
  | .fin n m e => if n then 0 else if (one32).le v then 1024 else let x := e + 10; if 0 ≤ x then m * pow2i x else m / pow2i (-x)

def penModel (l : Level) (w : WindowIn) : Nat :=
  let ws := if w.set = 1 then l.scoreW1 else l.scoreW0
  ((w.scores.zip ws).map fun x => if (dec32 x.1).isNan then 0 else scoreQ (dec32 x.1) * x.2 / 256).sum

def penEns (l : Level) (w : WindowIn) : Nat :=
  match w.ens with
  | some (e, _) =>
    let p : Int := e * (if w.set = 1 then l.ensW1 else l.ensW0 : Nat) / 4096
    if p < 0 then 0 else min 1023 p.toNat
  | none => 0

def penRank (l : Level) (w : WindowIn) : Nat :=
  ((termRanks l w).map fun x =>
    match x.2 with
    | some r => if inTail x then (if w.set = 1 then x.1.w1 else x.1.w0) * (x.1.tail - tailDist x.1 r) / x.1.tail else 0
    | none => 0).sum

/-- RANGE (R487). -/
def rangeBad (l : Level) (w : WindowIn) : Bool :=
  (w.scores.any fun s => match dec32 s with
    | .fin n m e => (FVal.fin n m e).lt l.scoreMin || l.scoreMax.lt (.fin n m e)
    | _ => false) ||
  (match w.ens with | some (e, _) => decide (e < l.ensMin ∨ l.ensMax < e) | none => false)

/-- floor(clamp(b, 0, 65534)) of R492. -/
def baseRank (b : FVal) : Nat :=
  match b with
  | .nan => 0
  | .inf n => if n then 0 else 65534
  | .fin n m e => if n then 0 else min 65534 (if 0 ≤ e then m * pow2i e else m / pow2i (-e))

/-- One Sag entry (R492): its new value, and whether the term holds. -/
def sagStep (l : Level) (t : LTerm) (r : Nat) (b : Nat) (e : Int × Nat) : (Int × Nat) × Bool :=
  let f : Int := if e.2 = 0 then (r * 256 : Nat) else e.1 + (((r * 256 : Nat) : Int) - e.1) / (2 ^ l.sagShift : Nat)
  let n := min 0xFFFFFFFF (e.2 + 1)
  let base : Int := ((baseRank (dec32 b) * 256 : Nat) : Int)
  let diff := if t.high then f - base else base - f
  ((f, n), decide (2 ^ l.sagShift ≤ n) && !(dec32 b).isNan && decide (((l.sagDrop * 256 : Nat) : Int) ≤ diff))

/-- All SAG terms in term order (R492). -/
def sagAll (l : Level) (w : WindowIn) : List (LTerm × Option Nat) → List (Int × Nat) → List (Int × Nat) × Bool
  | x :: t, e :: es =>
    if x.1.sag then
      match x.2 with
      | some r =>
        let (e', s) := sagStep l x.1 r (w.statics.getD x.1.baseSf 0x7FC00000) e
        let (rest, b) := sagAll l w t es
        (e' :: rest, s || b)
      | none => let (rest, b) := sagAll l w t es; (e :: rest, b)
    else sagAll l w t (e :: es)
  | _, es => (es, false)

/-- Craze (R493): the window is Craze-deviant and some group of the die reaches both bounds. -/
def crazeNow (l : Level) (w : WindowIn) : Bool :=
  deviantFor l w LTerm.craze && w.groups.any fun g =>
    match l.groups.find? (·.1 = g) with
    | some p => let t := sget 0 w.tallies g; decide (l.crazePm * p.2 * w.roundWindows ≤ t * 1000 ∧ l.crazeMin ≤ t)
    | none => false

/-- A verdict before the Dust Sheet has set its ACTION (R494). -/
structure Verdict where
  die      : Nat
  window   : Nat
  health   : Nat
  classes  : Nat
  action   : Nat
  fallback : Bool
  vflags   : Nat
  runCount : Nat
  worstRank : Nat
  worstTerm : Nat
  pens     : List Nat
  deriving DecidableEq, Repr

/-- The verdict record (R494). -/
def verdictBytes (v : Verdict) : List Byte :=
  withCrc crc32c (leBytes 4 v.die ++ leBytes 6 v.window ++ leBytes 2 v.health ++ leBytes 1 v.classes ++ leBytes 1 (v.action + 4 * b2n v.fallback) ++
    leBytes 2 v.vflags ++ leBytes 4 v.runCount ++ leBytes 2 v.worstRank ++ leBytes 1 v.worstTerm ++ zeros 1 ++
    v.pens.flatMap (fun p => leBytes 2 (min 65535 p)) ++ zeros 4)

/-- The term with the smallest tail distance, the first on a tie. -/
def worstOf (xs : List (LTerm × Option Nat)) : Nat × Nat :=
  let go := (xs.zip (List.range xs.length)).foldl (fun (acc : Option (Nat × Nat × Nat)) x =>
    match x.1.2 with
    | none => acc
    | some r =>
      let u := tailDist x.1.1 r
      match acc with
      | some (u0, _, _) => if u < u0 then some (u, r, x.2) else acc
      | none => some (u, r, x.2)) none
  match go with | some (_, r, k) => (r, k) | none => (0xFFFF, 0xFF)

/-- Place a die-window: the verdict and the state image after it (R485 to R493). ACTION is the image's and may still change. -/
def placeWindow (l : Level) (w : WindowIn) (s : LevelImg) : Verdict × LevelImg :=
  let runDev := deviantFor l w LTerm.run
  let run := if presentFor l w LTerm.run then (if runDev then min 0xFFFFFFFF (s.runCount + 1) else 0) else s.runCount
  let blDev := deviantFor l w LTerm.blister
  let bl := blDev && decide (l.quiet ≤ s.quiet)
  let quiet := if blDev then 0 else if presentFor l w LTerm.blister then min 0xFFFF (s.quiet + 1) else s.quiet
  let (sag, sagBit) := sagAll l w (termRanks l w) s.sag
  let cr := crazeNow l w
  let runBit := decide (l.runN ≤ run)
  let dev := runDev || blDev || deviantFor l w LTerm.sag || deviantFor l w LTerm.craze
  let bits := [sagBit, runBit, bl, cr]
  let penClass := ((bits.zip l.pens).map fun x => if x.1 then x.2 else 0).sum
  let pm := penModel l w
  let pe := penEns l w
  let pr := penRank l w
  let range := rangeBad l w
  let ensBad := match w.ens with | some (_, f) => f.testBit 1 || f.testBit 2 | none => false
  let unver := range || w.untested || ensBad || w.failed
  let health := 1023 - min 1023 (pm + pe + pr + penClass)
  let (wr, wt) := worstOf (termRanks l w)
  ({ die := w.die, window := w.window, health := health,
     classes := b2n sagBit + 2 * b2n runBit + 4 * b2n bl + 8 * b2n cr + 16 * b2n dev,
     action := s.action, fallback := decide (w.set = 1),
     vflags := b2n w.loss + 2 * b2n w.unranked + 4 * b2n w.partRound + 8 * b2n unver + 16 * b2n range + 32 * b2n w.holdover + 64 * b2n w.unchecked,
     runCount := run, worstRank := wr, worstTerm := wt, pens := [pm, pe, pr, penClass] },
   { s with runCount := run, quiet := quiet, sag := sag,
            healthy := if l.below ≤ health then min 0xFFFF (s.healthy + 1) else 0 })

/-- A verdict qualifies for a recommendation, ACTION and UNCHECKED aside (R496). -/
def qualifies (l : Level) (v : Verdict) (mayUncheck : Bool) : Bool :=
  decide (v.health < l.below) && decide ((v.classes &&& l.classes) ≠ 0) && !v.classes.testBit 3 &&
  !(v.vflags.testBit 3 || v.vflags.testBit 1 || v.vflags.testBit 7 || v.vflags.testBit 8) && (!v.vflags.testBit 6 || mayUncheck)

end Sys2Proof.Machine
end

