-- ==== Sys2Proof/Machine/ScoreState.lean ====
section
/-!
DEFINITION. ScoreState.lean: the state of the aggregator's scoring path: ingest, codec engine and check-value unit, stations, Stencil,
verdicts: R136 to R170 of spec/04_frames.md, spec/11_stations.md, spec/12_stencil.md and spec/13_verdicts.md.
-/
namespace Sys2Proof.Machine

/-! ### Codec engine, check-value unit, ingest (spec/04_frames.md) -/

/-- A codec slot (R157, R165): who claimed it, its reference as a raw frame (none: empty), its tap-kind map. -/
structure CodecSlot where
  owner : Option Nat := none
  frame : List Byte := []
  kinds : List Byte := []
  deriving DecidableEq, Repr

/-- A context of the check-value unit (R167). -/
structure CvuCtx where
  owner  : Option Nat := none
  params : Option CrcParams := none
  run    : Nat := 0
  deriving DecidableEq, Repr

/-- A frame whose values are decoded: each with its tap number and whether the tap is a gauge. -/
structure InFrame where
  port   : Nat
  chan   : Nat
  window : Nat
  /-- It arrived after the ingest cut-off of its window (R25). -/
  late   : Bool
  flags  : Nat
  stretch : Nat
  vals   : List (Nat × Bool × Nat)
  deriving DecidableEq, Repr

/-- Ingest: the channel configurations that the aggregator holds, by 8 * port + channel, the references of R138 as raw frames, and the
frames decoded of late. -/
structure IngestUnit where
  cfgs   : SMap (Option ChanCfg) := []
  refs   : SMap (List Byte) := []
  frames : List InFrame := []
  /-- References of resent frames that rebuild a feature ring, by the same key (R692). -/
  backRefs : SMap (List Byte) := []
  /-- Malformed frames by port (R137). -/
  integrity : SMap Nat := []
  deriving DecidableEq, Repr

/-! ### Stations (spec/11_stations.md) -/

/-- A Trowel or Float station. STATE: 0 in service, 1 under test, 2 retest, 3 out of service (R447). -/
structure Station where
  state    : Nat := 0
  fails    : Nat := 0
  /-- Operating seconds at the last pass. -/
  lastPass : Nat := 0
  /-- It is due at once. -/
  due      : Bool := false
  /-- It is tested at its next tile boundary, whatever work waits for it (R440). -/
  must     : Bool := false
  /-- The test that it must take is a retest: the first one was step 2 of a disagreement (R513). -/
  again    : Bool := false
  deriving DecidableEq, Repr

/-- What a tile, or a run, has raised (R441). -/
structure RunFlags where
  rounded  : Bool := false
  clamped  : Bool := false
  outSat   : Bool := false
  idxRange : Bool := false
  /-- A term was clamped (R426). -/
  term     : Bool := false
  deriving DecidableEq, Repr

/-- How far a run has come: its flags, the running CRC-64 of its output and the tiles done (R435, R437, R443). -/
structure RunPart where
  flags : RunFlags := {}
  crc   : Nat := 0
  done  : Nat := 0
  deriving DecidableEq, Repr

/-- A chain of runs in progress: a job's window program, or a STATION_RUN command (R406, R442). -/
structure RunJob where
  who     : RunRef
  ctx     : Nat
  window  : Nat
  descs   : List (List Byte)
  idx     : Nat := 0
  /-- Station or mover of the present run, while it executes. -/
  station : Option Nat := none
  retried : Bool := false
  /-- The tiles that a one-off run had done when its station yielded (R437). -/
  part    : RunPart := {}
  /-- A program run waits for the last tile of the one-off run on its station (R437). -/
  held    : Bool := false
  /-- Results of the last run of a STATION_RUN that is complete (R443). -/
  last    : List (Nat × Nat) := []
  deriving DecidableEq, Repr

structure StnUnit where
  trowels : Vector Station 24 := Vector.replicate 24 {}
  floats  : Vector Station 24 := Vector.replicate 24 {}
  /-- Chains in admission order. -/
  runs    : List RunJob := []
  /-- Runs that have yielded so far: each names a free tile boundary (R437). The model's own field. -/
  yields  : Nat := 0
  deriving DecidableEq, Repr

/-! ### The Stencil (spec/12_stencil.md) -/

/-- A write of the Entity Table: from a window on, a die has this entry, or none (R457, R458). The list is in order of taking effect. -/
structure EntWrite where
  die   : Nat
  act   : Nat
  entry : Option (List Byte)
  /-- It has taken effect. -/
  taken : Bool := false
  deriving DecidableEq, Repr

/-- One copy of an ensemble: its image, its GEN bit, the bank of each tree. -/
structure EnsCopy where
  image : List Byte
  gen   : Nat
  banks : List Nat
  deriving DecidableEq, Repr

/-- An ensemble slot of a job context (R477, R478). -/
structure EnsSlot where
  active  : Option EnsCopy := none
  /-- First window of the active copy, and the copies for the windows before it, newest first, each with its own first window. -/
  since   : Nat := 0
  old     : List (Nat × Option EnsCopy) := []
  pending : Option EnsCopy := none
  /-- Changes that are due at a window, in that order; true: the slot empties. -/
  acts    : List (Nat × Bool) := []
  deriving DecidableEq, Repr

/-- A sample: one die-window in one ensemble (R470 to R473). -/
structure Sample where
  ctx     : Nat
  slot    : Nat
  /-- GEN bit of the copy (R466, R478). -/
  gen     : Nat := 0
  window  : Nat
  pos     : Nat
  image   : List Byte
  /-- The features as rank coding read them. -/
  feats   : List Nat
  /-- Trees still walked: number, and the entry node of the block looked up next. -/
  walks   : List (Nat × Nat)
  sum     : Int
  flags   : Nat := 0
  lookups : Nat := 0
  deriving DecidableEq, Repr

structure StencilUnit where
  entities : List EntWrite := []
  /-- Slots of the job contexts, by 4 * context + slot. -/
  slots    : SMap EnsSlot := []
  samples  : List Sample := []
  /-- Most samples in flight since the last read. -/
  inFlightMax : Nat := 0
  /-- Parity errors of each bank, and banks that the Control Processor has still to rewrite (R474). -/
  parity   : SMap Nat := []
  faulty   : List Nat := []
  deriving DecidableEq, Repr

/-! ### Scoring of a job (spec/11_stations.md, spec/13_verdicts.md) -/

/-- Where a window of a job stands (R406, R461, R470). -/
inductive WinStage where
  | built | running | programmed | coded | scored
  deriving DecidableEq, Repr

structure WinState where
  window : Nat
  stage  : WinStage
  /-- The window program stopped, or the scoring was skipped (R440, R640). -/
  failed : Bool := false
  deriving DecidableEq, Repr

/-- What the Level station keeps of a die-window until its round is final. -/
structure DieWin where
  window   : Nat
  pos      : Nat
  /-- The feature row as built. -/
  feats    : List Nat
  loss     : Bool := false
  untested : Bool := false
  holdover : Bool := false
  frames   : Nat := 0
  scores   : List Nat := []
  /-- Results of the four ensemble slots: SUM and FLAGS. -/
  ens      : List (Option (Int × Nat)) := []
  failed   : Bool := false
  /-- Values counted in the local sketches of its round, by metric (R362, R483). -/
  counted  : Option (List (Nat × Option Nat)) := none
  deriving DecidableEq, Repr

/-- A verdict of a placed round: its position, and HEALTHY after it. -/
structure PlacedV where
  pos     : Nat
  v       : Verdict
  healthy : Nat
  deriving DecidableEq, Repr

/-- What a die-window was placed from: whether the state image was reset as the window began, and the inputs. -/
structure SavedWin where
  pos   : Nat
  reset : Bool
  win   : WindowIn
  deriving DecidableEq, Repr

/-- A placed round of a job: its digests, and where its check stands (R508 to R515). -/
structure PlacedRound where
  round    : Nat
  first    : Nat
  count    : Nat
  closeHt  : Nat
  /-- Rank deadline, HT (R483). -/
  deadline : Nat
  /-- The verdicts, in die position order and then window order. -/
  verdicts : List PlacedV
  digest   : Nat
  global   : Nat
  inputs   : List Nat
  frames   : List Nat
  /-- What step 3 of a dispute computes from (R512): the state images at the round's start, the ensemble copies of each window, each
  die-window's inputs. -/
  before   : List LevelImg := []
  copies   : List (List (Option EnsCopy)) := []
  saved    : List SavedWin := []
  /-- The comparison was made. -/
  checked  : Bool := false
  unchecked : Bool := false
  /-- A dispute of this round is running. -/
  disputed : Bool := false
  /-- The records are in the history store, and they will not change again. -/
  written  : Bool := false
  final    : Bool := false
  deriving DecidableEq, Repr

/-- The scoring state of one job context. -/
structure JobScore where
  /-- The window whose ingest cut-off comes next. -/
  nextCut  : Nat := 0
  wins     : List WinState := []
  dieWins  : List DieWin := []
  /-- Feature values held from the last due stroke of their channels (R453), by position, with the first window of the model that they belong to. -/
  held     : SMap (Nat × List Nat) := []
  images   : SMap LevelImg := []
  placed   : List PlacedRound := []
  /-- Resets of a die's state image by position and window (R514, R585), and those whose ACTION part waits for the window's settlement. -/
  wipes    : List (Nat × Nat) := []
  clears   : List (Nat × Nat) := []
  /-- Those of the resets that an expulsion came after: its ACTION stands through them. -/
  late     : List (Nat × Nat) := []
  /-- Run-log entries of the last 64 windows (R441). -/
  runLog   : List (Nat × List (List Byte)) := []
  /-- Running CRC-64 of each position's 64 feature rows, as at a round's last window (R509). -/
  rowCrcs  : List (Nat × List Nat) := []
  vWritten : Option Nat := none
  vFinal   : Option Nat := none
  frameWr  : Nat := 0
  indexWr  : Nat := 0
  traceWr  : SMap Nat := []
  /-- Expulsions that end at a window: position and window (R507). -/
  restores : List (Nat × Nat) := []
  deriving DecidableEq, Repr

/-! ### Verdicts (spec/13_verdicts.md) -/

/-- An entry of the recommendation ring (R503). -/
structure RecEntry where
  seq   : Nat
  ctx   : Nat
  bytes : List Byte
  deriving DecidableEq, Repr

/-- Settings of the Dust Sheet (R502). -/
structure DustCfg where
  budget    : Nat := 4
  meanHours : Nat := 10
  minMean   : Nat := 1
  metric    : Option Nat := none
  allow     : Bool := false
  deriving DecidableEq, Repr

/-- A change of the Dust Sheet that waits for a round close (R502). -/
inductive DustChange where
  | configure (c : DustCfg)
  | clear
  | seed (totals : List Nat)
  deriving DecidableEq, Repr

/-- The Dust Sheet (R499 to R502). -/
structure DustUnit where
  cfg      : DustCfg := {}
  /-- Changes that wait for a round close, each with the HT from which a close may take it. -/
  waiting  : List (Nat × DustChange) := []
  /-- Hall counts of rounds, by HT of the close. -/
  rounds   : SMap Nat := []
  /-- Hourly totals by hour. -/
  hours    : SMap Nat := []
  h        : Nat := 0
  s        : Nat := 0
  suspect  : Bool := false
  /-- First window from which the jobs fall back, and from which they no longer do. -/
  fallFrom : Option Nat := none
  fallUntil : Option Nat := none
  deriving DecidableEq, Repr

/-- A dispute (R512 to R517). OUTCOME: 0 running, 1 resolved by inputs, 2 this side wrong, 3 partner wrong, 4 contested, 5 configuration
mismatch. -/
structure Dispute where
  round   : Nat
  ctx     : Nat
  first   : Nat
  outcome : Nat := 0
  step    : Nat := 1
  station : Nat := 0xFF
  runNo   : Nat := 0
  window  : Nat := 0
  /-- Positions disputed, those still open, and those for which this side was found wrong and waits for the partner's records. -/
  dies    : List Nat
  openDies : List Nat
  adopts  : List Nat := []
  localDigest : Nat
  partnerDigest : Nat
  late    : Bool
  /-- Failures of the partner's CRCs (R515). -/
  crcFails : Nat := 0
  deriving DecidableEq, Repr

structure VerdictUnit where
  recs     : List RecEntry := []
  nextRec  : Nat := 0
  dust     : DustUnit := {}
  disputes : List Dispute := []
  /-- Summaries of the partner by context and round, until they are compared (R510). -/
  summaries : List (Nat × Nat × List Byte) := []
  /-- Craze counts by round, of rounds that were ranked (R393). -/
  tallies  : List (Nat × SMap Nat) := []
  /-- Self-telemetry counters RECS_RAISED and VERDICT_DISPUTES. -/
  raisedTap  : Nat := 0
  disputeTap : Nat := 0
  deriving DecidableEq, Repr

end Sys2Proof.Machine
end

