-- ==== Sys2Proof/Machine/Sketch.lean ====
section
/-!
DEFINITION. Sketch.lean: sketches, their placement and quantiles, and the wire form of skim messages: R359 to R372 of
spec/10_skim.md. Everything here is a function of its arguments.
-/
namespace Sys2Proof.Machine

/-- The categories of R359. -/
inductive Cat where
  | neg | zero | under | bucket (k : Nat) | above | missing
  deriving DecidableEq, Repr

/-- One sketch: the five special counts and 512 bucket counts (R359). -/
structure Sketch where
  neg     : Nat := 0
  zero    : Nat := 0
  under   : Nat := 0
  above    : Nat := 0
  missing : Nat := 0
  buckets : SMap Nat := []
  deriving DecidableEq, Repr

/-- m is at or above M_j, the boundary (2^(j/16) - 1) * 2^23 rounded to the nearest integer (R360), in exact integers. -/
def aboveBoundary (m j : Nat) : Bool := decide (2 ^ (j + 384) < (2 * m + 1 + 2 ^ 24) ^ 16)

/-- The part of an octave that a mantissa field lies in (R360). -/
def subBucket (m : Nat) : Nat := ((List.range 15).filter fun j => aboveBoundary m (j + 1)).length

/-- The category of a binary32 value under a scale exponent; none is a value that is not available (R359, R360). -/
def catOf (v : Option Nat) (scale : Int) : Cat :=
  match v with
  | none => .missing
  | some v =>
    let s := v.testBit 31
    let e := bitField v 30 23
    let m := bitField v 22 0
    if e = 255 ∧ m ≠ 0 then .missing
    else if e = 0 ∧ m = 0 then .zero
    else if s then .neg
    else if e = 255 then .above
    else if e = 0 then .under
    else
      let x : Int := (e : Int) - 127 + scale
      if x < -8 then .under
      else if x > 23 then .above
      else .bucket (16 * (x + 8).toNat + subBucket m)

/-- An addition that holds at 0xFFFF_FFFF (R361). -/
def satAdd32 (a b : Nat) : Nat := min 0xFFFFFFFF (a + b)

/-- Count one value (R359). -/
def Sketch.count (s : Sketch) (c : Cat) : Sketch :=
  match c with
  | .neg => { s with neg := satAdd32 s.neg 1 }
  | .zero => { s with zero := satAdd32 s.zero 1 }
  | .under => { s with under := satAdd32 s.under 1 }
  | .above => { s with above := satAdd32 s.above 1 }
  | .missing => { s with missing := satAdd32 s.missing 1 }
  | .bucket k => { s with buckets := sset 0 s.buckets k (satAdd32 (sget 0 s.buckets k) 1) }

/-- The count of a category. -/
def Sketch.countOf (s : Sketch) (c : Cat) : Nat :=
  match c with
  | .neg => s.neg
  | .zero => s.zero
  | .under => s.under
  | .bucket k => sget 0 s.buckets k
  | .above => s.above
  | .missing => s.missing

/-- Merge two sparse count lists in ascending key. -/
def addCountsFuel : Nat → SMap Nat → SMap Nat → SMap Nat
  | 0, a, _ => a
  | _ + 1, [], b => b
  | _ + 1, a, [] => a
  | n + 1, (j, x) :: a, (k, y) :: b =>
    if j < k then (j, x) :: addCountsFuel n a ((k, y) :: b)
    else if k < j then (k, y) :: addCountsFuel n ((j, x) :: a) b
    else (j, satAdd32 x y) :: addCountsFuel n a b

def addCounts (a b : SMap Nat) : SMap Nat := addCountsFuel (a.length + b.length) a b

/-- Whether a count of such a merge would exceed 0xFFFF_FFFF (R361). -/
def countsSat (a b : SMap Nat) : Bool := a.any fun e => decide (0xFFFFFFFF < e.2 + sget 0 b e.1)

/-- Merge of two sketches, element by element (R364). -/
def Sketch.merge (a b : Sketch) : Sketch :=
  { neg := satAdd32 a.neg b.neg, zero := satAdd32 a.zero b.zero, under := satAdd32 a.under b.under,
    above := satAdd32 a.above b.above, missing := satAdd32 a.missing b.missing, buckets := addCounts a.buckets b.buckets }

/-- Whether any count of a merge would exceed 0xFFFF_FFFF (SAT of R361). -/
def Sketch.mergeSat (a b : Sketch) : Bool :=
  decide (0xFFFFFFFF < a.neg + b.neg) || decide (0xFFFFFFFF < a.zero + b.zero) || decide (0xFFFFFFFF < a.under + b.under) ||
  decide (0xFFFFFFFF < a.above + b.above) || decide (0xFFFFFFFF < a.missing + b.missing) ||
  countsSat a.buckets b.buckets

/-- The sum of the counts of all buckets below k. -/
def bucketsBelow (m : SMap Nat) (k : Nat) : Nat := ((m.filter fun e => e.1 < k).map (·.2)).sum

/-- n of R365: all counts except MISSING. -/
def Sketch.total (s : Sketch) : Nat := s.neg + s.zero + s.under + s.above + bucketsBelow s.buckets 512

/-- Counts below a category, and in it. -/
def Sketch.place (s : Sketch) (c : Cat) : Nat × Nat :=
  match c with
  | .neg => (0, s.neg)
  | .zero => (s.neg, s.zero)
  | .under => (s.neg + s.zero, s.under)
  | .bucket k => (s.neg + s.zero + s.under + bucketsBelow s.buckets k, sget 0 s.buckets k)
  | .above => (s.neg + s.zero + s.under + bucketsBelow s.buckets 512, s.above)
  | .missing => (0, 0)

/-- The rank of a value's category (R365). -/
def Sketch.rank (s : Sketch) (c : Cat) : Nat :=
  if c = .missing ∨ s.total = 0 then 0xFFFF
  else
    let (below, same) := s.place c
    min 0xFFFE ((2 * below + same) * 32768 / s.total)

/-- The category at which the cumulative count in rank order reaches `need` (R366). -/
def Sketch.reach (s : Sketch) (need : Nat) : Cat :=
  let rec go (acc : Nat) : SMap Nat → Cat
    | [] => .above
    | (k, c) :: t => if need ≤ acc + c then .bucket k else go (acc + c) t
  if need ≤ s.neg then .neg
  else if need ≤ s.neg + s.zero then .zero
  else if need ≤ s.neg + s.zero + s.under then .under
  else go (s.neg + s.zero + s.under) s.buckets

/-- The quantile category for q = num / den (R366). -/
def Sketch.quantile (s : Sketch) (num den : Nat) : Cat := s.reach (ceilDiv (num * s.total) den)

/-- A quantile estimate (R366), exactly: −∞, 0, or 2 to the power of n thirty-seconds. -/
inductive Estimate where
  | negInf | zero | power (n : Int)
  deriving DecidableEq, Repr

/-- The estimate that a category gives under a scale exponent (R366): 2^(−8 + (k + 0.5) / 16) × 2^(−SCALE) for bucket k. -/
def Cat.estimate (scale : Int) : Cat → Estimate
  | .neg => .negInf
  | .zero | .under => .zero
  | .bucket k => .power (2 * (k : Int) + 1 - 32 * (8 + scale))
  | .above | .missing => .power 768

/-- The q-quantile estimate for q = num / den (R366). -/
def Sketch.estimate (s : Sketch) (scale : Int) (num den : Nat) : Estimate := (s.quantile num den).estimate scale

/-! ### Varints and run lists (R369 to R371) -/

/-- A varint of at most 5 bytes. -/
def varintFuel : Nat → Nat → List Byte
  | 0, _ => []
  | n + 1, v => if v < 128 then [BitVec.ofNat 8 v] else BitVec.ofNat 8 (v % 128 + 128) :: varintFuel n (v / 128)

def varint (v : Nat) : List Byte := varintFuel 5 v

/-- Read a varint (R369): at most `fuel` bytes, and a last byte of 0x00 only when it stands alone. -/
def readVarintFuel : Nat → Bool → List Byte → Option (Nat × List Byte)
  | 0, _, _ => none
  | _ + 1, _, [] => none
  | n + 1, first, b :: bs =>
    if b.toNat < 128 then (if b = 0 && !first then none else some (b.toNat, bs))
    else match readVarintFuel n false bs with
      | some (v, rest) => some (b.toNat % 128 + 128 * v, rest)
      | none => none

def readVarint (bs : List Byte) : Option (Nat × List Byte) := readVarintFuel 5 true bs

/-- The maximal runs of a strictly ascending list, as start and items. -/
def runsOf {α : Type} : List (Nat × α) → List (Nat × List α)
  | [] => []
  | (k, v) :: t =>
    match runsOf t with
    | (s, vs) :: rs => if s = k + 1 then (k, v :: vs) :: rs else (k, [v]) :: (s, vs) :: rs
    | [] => [(k, [v])]

/-- Gaps of a list of runs (R370): the first from 0, each later one from the end of the run before, plus 1. -/
def runGaps {α : Type} (next : Nat) (first : Bool) : List (Nat × List α) → List (Nat × List α)
  | [] => []
  | (s, vs) :: rs => ((if first then s else s - next), vs) :: runGaps (s + vs.length) false rs

/-- The coded runs of a sparse list; `item` codes what follows each LEN. -/
def codeRuns {α : Type} (item : α → List Byte) (m : List (Nat × α)) : List Byte :=
  let rs := runGaps 0 true (runsOf m)
  varint rs.length ++ rs.flatMap fun r => varint r.1 ++ varint r.2.length ++ r.2.flatMap item

/-- Read `n` items at rising indices, each index at most `top`. -/
def readItems {α : Type} (item : List Byte → Option (α × List Byte)) (top : Nat) :
    Nat → Nat → List Byte → Option (List (Nat × α) × List Byte)
  | 0, _, bs => some ([], bs)
  | n + 1, k, bs =>
    if top < k then none
    else match item bs with
      | none => none
      | some (v, bs) =>
        match readItems item top n (k + 1) bs with
        | some (t, bs) => some ((k, v) :: t, bs)
        | none => none

/-- Read runs (R370): LEN is at least 1, and every GAP but the first is at least 1. -/
def readRuns {α : Type} (item : List Byte → Option (α × List Byte)) (top : Nat) :
    Nat → Nat → Bool → List Byte → Option (List (Nat × α) × List Byte)
  | 0, _, _, bs => some ([], bs)
  | n + 1, next, first, bs =>
    match readVarint bs with
    | none => none
    | some (gap, bs) =>
      match readVarint bs with
      | none => none
      | some (len, bs) =>
        if len = 0 ∨ 2048 < len ∨ (gap = 0 ∧ !first) then none
        else match readItems item top len (next + gap) bs with
          | none => none
          | some (a, bs) =>
            match readRuns item top n (next + gap + len) false bs with
            | some (t, bs) => some (a ++ t, bs)
            | none => none

def readRunList {α : Type} (item : List Byte → Option (α × List Byte)) (top : Nat) (bs : List Byte) :
    Option (List (Nat × α) × List Byte) :=
  match readVarint bs with
  | some (n, bs) => if 2048 < n then none else readRuns item top n 0 true bs
  | none => none

/-- A count of at least 1 (R371). -/
def readCount (bs : List Byte) : Option (Nat × List Byte) :=
  match readVarint bs with
  | some (v, bs) => if v = 0 ∨ 0xFFFFFFFF < v then none else some (v, bs)
  | none => none

/-! ### Skim messages (R367 to R372) -/

/-- What the body of a skim message holds (R368): the trays of the contributor bitmap in ascending order, one sketch for each
metric, and the tallies by key. -/
structure SkimBody where
  trays   : List Nat := []
  metrics : List (Nat × Sketch) := []
  tallies : SMap Nat := []
  deriving DecidableEq, Repr

/-- The FLAGS of a skim message that a merge carries on (R367, R368). -/
structure SkimFlags where
  part     : Bool := false
  dbl      : Bool := false
  mismatch : Bool := false
  sat      : Bool := false
  trunc    : Bool := false
  deriving DecidableEq, Repr

/-- A skim message. -/
structure SkimUpDown where
  kind     : Nat
  flags    : SkimFlags := {}
  plane    : Nat := 0
  round    : Nat
  depth    : Nat := 0
  sender   : Nat := 0
  expected : Nat := 0
  setId    : Nat
  setCrc   : Nat
  deadline : Nat := 0
  body     : SkimBody
  deriving DecidableEq, Repr

/-- The 256-byte contributor bitmap (R368). -/
def trayBitmap (trays : List Nat) : List Byte :=
  leBytes 256 ((trays.map fun t => 2 ^ t).sum)

/-- DIGEST of R367. -/
def trayDigest (trays : List Nat) : Nat := crcOf crc64ecma (trayBitmap trays)

/-- Members and digest of a result (R367). -/
def SkimUpDown.said (m : SkimUpDown) : Nat × Nat := (m.body.trays.length, trayDigest m.body.trays)

/-- The metric section of R370. -/
def metricBytes (m : Nat × Sketch) : List Byte :=
  let s := m.2
  let sp := [s.neg, s.zero, s.under, s.above, s.missing]
  let mask := b2n (s.neg ≠ 0) + 2 * b2n (s.zero ≠ 0) + 4 * b2n (s.under ≠ 0) + 8 * b2n (s.above ≠ 0) + 16 * b2n (s.missing ≠ 0)
  leBytes 2 m.1 ++ leBytes 1 mask ++ (sp.filter (· ≠ 0)).flatMap varint ++ codeRuns varint s.buckets

/-- The tally section: key differences and counts (R370). -/
def tallyBytes (last : Option Nat) : SMap Nat → List Byte
  | [] => []
  | (k, c) :: t => varint (match last with | some l => k - l | none => k) ++ varint c ++ tallyBytes (some k) t

/-- The body before padding (R368). -/
def bodyBytes (b : SkimBody) : List Byte :=
  codeRuns (fun (_ : Unit) => []) (b.trays.map fun t => (t, ())) ++ b.metrics.flatMap metricBytes ++ tallyBytes none b.tallies

def skimFlagBits (m : SkimUpDown) : Nat :=
  b2n m.flags.part + 2 * b2n m.flags.dbl + 4 * b2n m.flags.mismatch + 8 * b2n m.flags.sat + 16 * b2n m.flags.trunc + 32 * (m.plane % 2)

/-- A skim message as it goes on a link (R367, R368). -/
def skimBytes (m : SkimUpDown) : List Byte :=
  let body := bodyBytes m.body
  let pad := padTo (64 * ceilDiv body.length 64) body
  let hdr := leBytes 1 0xB1 ++ leBytes 1 1 ++ leBytes 1 m.kind ++ leBytes 1 (skimFlagBits m) ++ leBytes 5 m.round ++ leBytes 1 m.depth ++
    leBytes 2 m.sender ++ leBytes 2 m.body.trays.length ++ leBytes 2 m.expected ++ leBytes 8 (trayDigest m.body.trays) ++
    leBytes 4 m.setId ++ leBytes 4 m.setCrc ++ leBytes 2 m.body.metrics.length ++ leBytes 2 m.body.tallies.length ++
    leBytes 4 body.length ++ leBytes 8 m.deadline ++ zeros 8 ++ leBytes 4 (crcOf crc32c body)
  hdr ++ leBytes 4 (crcOf crc32c (hdr ++ pad)) ++ pad

/-- Read the counts that a MASK names, in bit order (R370, R371). -/
def readMasked (mask : Nat) (bs : List Byte) : Nat → Nat → Option (List Nat × List Byte)
  | 0, _ => some ([], bs)
  | n + 1, k =>
    if mask.testBit k then
      match readCount bs with
      | none => none
      | some (v, bs) =>
        match readMasked mask bs n (k + 1) with
        | some (t, bs) => some (v :: t, bs)
        | none => none
    else match readMasked mask bs n (k + 1) with
      | some (t, bs) => some (0 :: t, bs)
      | none => none

/-- Read the metric sections (R370), in strictly ascending METRIC_ID. -/
def readMetrics : Nat → Option Nat → List Byte → Option (List (Nat × Sketch) × List Byte)
  | 0, _, bs => some ([], bs)
  | n + 1, last, bs =>
    let ident := leAt bs 0 2
    let mask := leAt bs 2 1
    let rising := match last with | some l => decide (l < ident) | none => true
    if bs.length < 3 || decide (1023 < ident) || decide (31 < mask) || !rising then none
    else match readMasked mask (bs.drop 3) 5 0 with
      | some ([a, b, c, d, e], bs) =>
        match readRunList readCount 511 bs with
        | none => none
        | some (m, bs) =>
          match readMetrics n (some ident) bs with
          | some (t, bs) => some ((ident, { neg := a, zero := b, under := c, above := d, missing := e, buckets := m }) :: t, bs)
          | none => none
      | _ => none

/-- Read the tally section: strictly ascending keys (R370, R372). -/
def readTallies : Nat → Option Nat → List Byte → Option (SMap Nat × List Byte)
  | 0, _, bs => some ([], bs)
  | n + 1, last, bs =>
    match readVarint bs with
    | none => none
    | some (d, bs) =>
      match readCount bs with
      | none => none
      | some (c, bs) =>
        let key := match last with | some l => l + d | none => d
        if (last.isSome && decide (d = 0)) || decide (16383 < key) then none
        else match readTallies n (some key) bs with
          | some (t, bs) => some ((key, c) :: t, bs)
          | none => none

/-- Read a skim message; none where R372 drops it. -/
def readSkim (bs : List Byte) : Option SkimUpDown :=
  let bodyLen := leAt bs 36 4
  let padLen := 64 * ceilDiv bodyLen 64
  let body := bytesAt bs 64 bodyLen
  let pad := (bs.drop 64).drop bodyLen
  if decide (leAt bs 0 1 ≠ 0xB1) || decide (leAt bs 1 1 ≠ 1) || !([1, 2].contains (leAt bs 2 1)) ||
     decide (bs.length ≠ 64 + padLen) || pad.any (· ≠ 0) ||
     decide (leAt bs 60 4 ≠ crcOf crc32c (bs.take 60 ++ bs.drop 64)) || decide (leAt bs 56 4 ≠ crcOf crc32c body) then none
  else match readRunList (fun r => some ((), r)) 2047 body with
    | none => none
    | some (ts, r) =>
      match readMetrics (leAt bs 32 2) none r with
      | none => none
      | some (ms, r) =>
        match readTallies (leAt bs 34 2) none r with
        | none => none
        | some (ta, r) =>
          let trays := ts.map (·.1)
          if !r.isEmpty || decide (trays.length ≠ leAt bs 12 2) || decide (trayDigest trays ≠ leAt bs 16 8) then none
          else
            let f := leAt bs 3 1
            some { kind := leAt bs 2 1, flags := { part := f.testBit 0, dbl := f.testBit 1, mismatch := f.testBit 2, sat := f.testBit 3, trunc := f.testBit 4 },
                   plane := bitField f 5 5, round := leAt bs 4 5, depth := leAt bs 9 1 % 8, sender := leAt bs 10 2 % 4096, expected := leAt bs 14 2,
                   setId := leAt bs 24 4, setCrc := leAt bs 28 4, deadline := leAt bs 40 8,
                   body := { trays := trays, metrics := ms, tallies := ta } }

/-! ### Merging (R364, R378, R393, R394) -/

/-- The OR of two sets of merged flags (R368). -/
def SkimFlags.or (a b : SkimFlags) : SkimFlags :=
  { part := a.part || b.part, dbl := a.dbl || b.dbl, mismatch := a.mismatch || b.mismatch, sat := a.sat || b.sat, trunc := a.trunc || b.trunc }

/-- Merge metric by metric; both bodies hold the metrics of one set. -/
def mergeMetrics (a b : List (Nat × Sketch)) : List (Nat × Sketch) :=
  a.map fun m => match b.find? (·.1 = m.1) with | some x => (m.1, m.2.merge x.2) | none => m

def metricsSat (a b : List (Nat × Sketch)) : Bool :=
  a.any fun m => match b.find? (·.1 = m.1) with | some x => m.2.mergeSat x.2 | none => false

/-- Merge two bodies with disjoint trays; the flags say SAT and TALLY_TRUNC (R361, R394). -/
def mergeBodies (a b : SkimBody) : SkimBody × SkimFlags :=
  let ts := (addCounts (a.trays.map fun t => (t, 1)) (b.trays.map fun t => (t, 1))).map (·.1)
  let ta := addCounts a.tallies b.tallies
  ({ trays := ts, metrics := mergeMetrics a.metrics b.metrics, tallies := ta.take 4096 },
   { sat := metricsSat a.metrics b.metrics || countsSat a.tallies b.tallies, trunc := decide (4096 < ta.length) })

/-- No tray in common (R378). -/
def disjointTrays (a b : List Nat) : Bool := !(a.any b.contains)

end Sys2Proof.Machine
end

