-- ==== Sys2Proof/Machine/AggUnits.lean ====
section
/-!
DEFINITION. AggUnits.lean: the state of one aggregator, second part, and the whole of it: `Agg`.
-/
namespace Sys2Proof.Machine

/-- Straps and identity of the module (R551, R698, R702): what its carrier and its firmware image make it. -/
structure Ident where
  trayId   : Nat := 0
  /-- PAIR_ROLE: 0 module A, 1 module B. -/
  role     : Nat := 0
  /-- PAIR_PRESENT_N was low at module reset (AGG_CAPS.PAIR_CONFIG). -/
  paired   : Bool := false
  /-- SAFE_MODE strap (R679). -/
  safeMode : Bool := false
  fwVersion : Nat := 0
  fwDigest : Nat := 0
  deriving DecidableEq, Repr

/-- The aggregator's event log (R560, R697): the records held, oldest first, each with its SEQ in `pos`. -/
structure EventLog where
  recs : List EvrRec := []
  next : Nat := 0
  deriving DecidableEq, Repr

/-! ### Skim (spec/10_skim.md) -/

/-- One metric of a set (R395): `tag` is JOB_TAG for source 0 and TAP for source 1. -/
structure MetricDef where
  ident   : Nat
  source  : Nat
  feature : Nat
  tag     : Nat
  scale   : Int
  deriving DecidableEq, Repr

/-- A metric set and the round from which it applies (R395, R396). -/
structure MetricSet where
  setId : Nat := 0
  crc   : Nat := 0
  act   : Nat := 0
  defs  : List MetricDef := []
  deriving DecidableEq, Repr

/-- A configuration of this module's place in the tree (R397). -/
structure TreeCfg where
  act       : Nat
  root      : Bool
  depth     : Nat
  primary   : Option Nat
  alt       : Option Nat
  childMask : Nat
  hallNodes : Nat
  windows   : Nat
  sealUs    : Nat
  schedDepth : Nat
  stageUs   : Nat
  dstageUs  : Nat
  abortUs   : Nat
  quorumPm  : Nat
  deriving DecidableEq, Repr

/-- A child that this module counts (R375, R388, R390): its link, the height of its subtree, the first round it counts from. -/
structure Child where
  link   : Nat
  height : Nat
  since  : Nat
  adopted : Bool
  /-- The last round it counts in, after its LEAVE. -/
  until_ : Option Nat := none
  deriving DecidableEq, Repr

/-- A SKIM_STATUS that waits for its round to be used or discarded (R386, R399). -/
structure SkimAsk where
  round : Nat
  ring  : Nat
  tag   : Nat
  dst   : Nat
  deriving DecidableEq, Repr

/-- One skim round at this module (R376 to R386). -/
structure Round where
  num      : Nat
  closeHt  : Nat
  /-- Configuration, depth and parent link in force at the close (R376, R389). -/
  cfg      : TreeCfg
  depth    : Nat
  parent   : Option Nat
  setId    : Nat := 0
  setCrc   : Nat := 0
  /-- The metrics of the set in force for the round. -/
  defs     : List MetricDef := []
  /-- The Level station has placed the round. -/
  placed   : Bool := false
  /-- Sealed local sketches, by metric. -/
  sealed_  : List (Nat × Sketch) := []
  /-- A count of a sealed sketch would have exceeded 0xFFFF_FFFF (R361). -/
  sat      : Bool := false
  /-- The source-1 values of module A have been counted, or counted as MISSING (R363). -/
  selfDone : Bool := false
  /-- Accepted UPs by link, and whether any was missing, late, dropped or rejected. -/
  ups      : List (Nat × SkimUpDown) := []
  spoiled  : Bool := false
  mismatch : Bool := false
  /-- The node's merged result, whether it has been sent, and what the root adopted. -/
  merged   : Option SkimUpDown := none
  sent     : Bool := false
  rootSaid : Option (Nat × Nat) := none
  adopted  : Option SkimUpDown := none
  /-- The DOWN of this plane, whether it was forwarded, and the DOWN of the partner's plane where it came whole. -/
  down     : Option SkimUpDown := none
  forwarded : Bool := false
  other    : Option SkimUpDown := none
  /-- The partner's DIGEST and BODY_CRC (R382). -/
  otherSaid : Option (Nat × Nat) := none
  used     : Option SkimUpDown := none
  /-- T_down(d) + PAIR has passed. -/
  chosen   : Bool := false
  discarded : Bool := false
  /-- No DOWN was in use at the rank deadline (R484). -/
  unranked : Bool := false
  /-- The rank deadline has passed. -/
  deadlined : Bool := false
  deriving DecidableEq, Repr

/-- The skim unit. -/
structure SkimUnit where
  set      : MetricSet := {}
  pendSet  : Option MetricSet := none
  cfg      : Option TreeCfg := none
  pendCfg  : Option TreeCfg := none
  /-- The configuration of the rounds before the one in force. -/
  prevCfg  : Option TreeCfg := none
  /-- Round from which the module is out of the tree (R397). -/
  dissolve : Option Nat := none
  /-- 0 none, 1 joining, 2 in tree, 3 adopted by the alternate parent, 4 tree error (R399). -/
  state    : Nat := 0
  /-- JOIN has been sent for the configuration in force. -/
  joinSent : Bool := false
  children : List Child := []
  /-- Depth changes: from a round, a depth (R391). -/
  depthAt  : List (Nat × Nat) := []
  /-- The round from which the alternate parent is in force, and the round from which the primary parent is again (R389, R392). -/
  altFrom  : Option Nat := none
  primFrom : Option Nat := none
  /-- ADOPT is wanted: elapsed time of the last ADOPT, its round, and whether its answer was a NAK (R388). -/
  adopting : Option (Nat × Nat × Bool) := none
  /-- JOIN was sent for a return to the primary parent. -/
  returning : Bool := false
  /-- Elapsed time since which the primary link has been in UP. -/
  primUpAt : Option Nat := none
  rounds   : List Round := []
  /-- Closed rounds so far: the last. -/
  lastClosed : Option Nat := none
  /-- First round of the module in the tree, and the last round whose tallies were sent (R393). -/
  firstRound : Option Nat := none
  lastTally : Option Nat := none
  /-- Source-1 values by window and metric (R396). -/
  selfVals : List (Nat × List (Nat × Option Nat)) := []
  /-- Source-1 values received from module A, by round (R363). -/
  partnerVals : List (Nat × List (List (Option Nat))) := []
  lateUps  : Nat := 0
  doubleRejects : Nat := 0
  /-- Self-telemetry taps as sampled at the last stroke (R351, R352, R658). -/
  taps     : List (Nat × Nat) := []
  /-- Outcomes of the last 10 rounds used or discarded, with the DOWN where one was used (R386, R399). -/
  finished : List (Nat × Option SkimUpDown) := []
  asks     : List SkimAsk := []
  deriving DecidableEq, Repr

/-- The partner bundle (R322, R356): the member to use next and the next message number; messages that wait for one of the 64 unacknowledged; the
number due at the receiver, and the messages received ahead of it with their numbers. -/
structure Bundle where
  nextMember : Nat := 0
  nextSeq    : Nat := 0
  waiting    : List SkimMsg := []
  rxNext     : Nat := 0
  early      : List (Nat × List Byte) := []
  deriving DecidableEq, Repr

/-! ### Power (spec/17_power.md) -/

/-- One kind of step between adjacent power states (R642). -/
inductive PwrStep where
  | freqUp | freqDown | issueUp | issueDown
  deriving DecidableEq, Repr

/-- Ageing bookkeeping of one aggregator site (R225, R227). -/
structure AggSite where
  highRun : Nat := 0
  armed   : Bool := true
  /-- Faulty until ENABLE is written from 0 to 1 (R220). -/
  fault   : Bool := false
  deriving DecidableEq, Repr

/-- Power states, the governors, the clamp and the aggregator's own ageing. -/
structure PwrUnit where
  requested : Nat := 0
  capState  : Nat := 0
  thermal   : Nat := 0
  /-- A sensor above 110 °C has forced the thermal state to P7 (R646, R650). -/
  crit      : Bool := false
  /-- Recoat ceiling (R661). -/
  ceiling   : Nat := 0
  /-- The regulator alarm is in force, and the elapsed time since which VR_ALERT_N has been deasserted (R652, R653). -/
  forced    : Bool := false
  /-- State whose clock and issue rate are set now, and the doublings from 1/16 already made (R641, R642). -/
  cur       : Nat := 0
  half      : Bool := false
  step      : Option PwrStep := none
  /-- STEP_HELD was set for the step now held. -/
  heldSeen  : Bool := false
  /-- Elapsed time of the last trip while the clamp is on (R648). -/
  tripAt    : Option Nat := none
  /-- Elapsed time at which the hold after a release ends (R650). -/
  holdEnd   : Option Nat := none
  /-- The last ten 1 ms averages of the input, mW, newest first (R645). -/
  samples   : List Nat := []
  capMoved  : Option Nat := none
  lowSince  : Option Nat := none
  coolSince : Option Nat := none
  /-- AGG_ENERGY in mJ, and what is left over in microjoules (R657). -/
  energy    : Nat := 0
  energyRem : Nat := 0
  /-- Operating seconds at the last measurement, recoat and fit sample (R659, R660). -/
  lastMeas  : Nat := 0
  lastRecoat : Nat := 0
  lastFit   : Nat := 0
  sites     : Vector AggSite 24 := Vector.replicate 24 {}
  /-- Actions of each domain that are not undone, newest first: true RAISE_V, false LOWER_F (R661). -/
  acts0     : List Bool := []
  acts1     : List Bool := []
  deriving DecidableEq, Repr

/-! ### The Safety Island (spec/18_safety.md) -/

/-- What the Safety Island keeps of one die port (R674 to R680). -/
structure Watch where
  watched  : Bool := false
  /-- Sequence number of the last beat it accepted since the port's entry to UP. -/
  lastSeq  : Option Nat := none
  missed   : Nat := 0
  good     : Nat := 0
  unknown  : Bool := false
  /-- The last accepted beat carried the self-check fault, PWR_FAIL_N. -/
  fault    : Bool := false
  pwrFail  : Bool := false
  /-- Enabled SAFE_IN inputs of the last accepted beat, and those not yet evaluated. -/
  alarm    : Nat := 0
  fresh    : Nat := 0
  inputs   : Nat := 0
  /-- Elapsed time since which the die is unsafe-unknown for the tray. -/
  traySince : Option Nat := none
  /-- Its timeout was acted on (R679). -/
  timedOut : Bool := false
  deriving DecidableEq, Repr

/-- The Safety Island. -/
structure SafeUnit where
  energised : Bool := false
  tripped   : Bool := false
  cause     : Nat := 0
  ports     : Vector Watch 64 := Vector.replicate 64 {}
  /-- RAM copy of the safety block: SAFE_IN_ENABLE, UNKNOWN_MS, SI_TRIP_C (R666, R706). -/
  enables   : List Nat := []
  unknownMs : Nat := 10
  tripC     : Int := 125
  /-- The partner's view: UNKNOWN, ALARM and WATCH masks of the latest accepted slot 2 (R678). -/
  pUnknown  : Nat := 0
  pAlarm    : Nat := 0
  pWatch    : Nat := 0
  pSiOk     : Bool := false
  /-- COOLANT_FAIL_N was recognised and waits for the next evaluation (R681). -/
  coolSeen  : Bool := false
  deriving DecidableEq, Repr

/-! ### The pair (spec/18_safety.md) -/

/-- A checkpoint that this module keeps for a child tray (R688). -/
structure KeptCkpt where
  tray   : Nat
  role   : Nat
  window : Nat
  bytes  : List Byte
  deriving DecidableEq, Repr

/-- Partner watch, checkpoints and sync (R685 to R694). SYNC_STATE: 0 none, 1 receiving, 2 installing, 3 waiting for models, 4 joined,
5 serving the partner. -/
structure PairUnit where
  /-- Elapsed time of the last keepalive sent and received. -/
  sentAt  : Nat := 0
  keptAt  : Nat := 0
  lost    : Bool := false
  sync    : Nat := 0
  /-- Ring and tag of the PAIR_SYNC_START under way. -/
  starter : Option (Nat × Nat) := none
  /-- The links on which the keeper has been asked and has not answered (R355, R688). -/
  asked   : List Nat := []
  source  : Nat := 0
  fallback : Bool := false
  base    : Nat := 0
  join    : Nat := 0
  bytesDone : Nat := 0
  /-- Contexts that wait for their model, with its digest (R692). -/
  missing : List (Nat × Nat) := []
  /-- Contexts rebuilt that become ACTIVE at a window. -/
  joining : List (Nat × Nat) := []
  /-- Epoch window from which a partner is served (R690). -/
  serveAt : Option Nat := none
  /-- W_E of the last checkpoint written, whether the keeper has it whole, and failures (R687). -/
  ckpt    : Option Nat := none
  ckptOk  : Bool := false
  ckptFails : Nat := 0
  kept    : List KeptCkpt := []
  /-- Replacement models of rebuilt contexts, put back once the context is ACTIVE. -/
  later   : List (Nat × Model) := []
  deriving DecidableEq, Repr

/-- What a pair sync carries of one job context (R687, R690): its record, ring and scoring state, the digests of its models, and the bytes
of its feature ring. -/
structure PairJob where
  ctx     : Nat
  job     : Job
  ring    : Ring
  images  : SMap LevelImg
  active  : Nat
  pending : Nat
  rows    : List Byte
  deriving DecidableEq, Repr

/-- The state of a module as a pair sync or a checkpoint carries it (R687, R690, R692). The spec gives the parts and no byte layout. -/
structure PairContent where
  /-- W_S of the partner, or W_E of the checkpoint. -/
  window   : Nat
  bytes    : Nat
  jobs     : List PairJob
  /-- The configuration of the joiner's own plane, where one is known. -/
  tree     : Option TreeCfg
  set      : Option MetricSet
  gates    : GateSet
  dust     : DustUnit
  entities : List EntWrite
  recs     : List RecEntry
  codec    : List (Nat × CodecSlot)
  deriving DecidableEq, Repr

/-! ### Bring-up (spec/19_bringup.md) -/

/-- Where the core region stands. -/
inductive CoreState where
  /-- No power. -/
  | off
  /-- Held in reset: MODULE_RST_N, or after the second core reset (R683). -/
  | held
  /-- The Primer runs, or has stopped with an error. -/
  | primer
  /-- The firmware runs. -/
  | fw
  /-- The firmware stopped after failed HBM training (R717). -/
  | halted
  /-- Coolant stop (R654). -/
  | coolant
  /-- Power fail, held up from the bulk (R733). -/
  | holdUp
  deriving DecidableEq, Repr

/-- Bring-up of the module. -/
structure BootUnit where
  core     : CoreState := .off
  /-- The 44 V input is within its range. -/
  inputOn  : Bool := false
  /-- The link region is out of reset (R703 step 6, R705). -/
  linkOn   : Bool := false
  /-- MODULE_RST_N was asserted during a power fail (R737). -/
  rstSeen  : Bool := false
  bootSrc  : Nat := 0
  /-- The Primer stopped for good (R702, R707). -/
  stopped  : Bool := false
  /-- Sources tried in this pass, whether a fetch is open and when it last made progress (R711). -/
  tried    : Nat := 0
  fetching : Bool := false
  progressAt : Nat := 0
  passes   : Nat := 0
  waitEnd  : Option Nat := none
  lastSrc  : Nat := 0
  statusAt : Option Nat := none
  image    : List Byte := []
  /-- Elapsed time of the last heartbeat, of the first core reset of a pair, and the core resets so far (R683). -/
  heartbeat : Option Nat := none
  resetAt  : Option Nat := none
  /-- HBM training (R717), and what bring-up has completed (R716). -/
  hbmFails : Nat := 0
  hbmDone  : Bool := false
  ready    : Bool := false
  /-- Ports whose die was checked, and passed, at the present training (R719, R754). -/
  checked  : List Nat := []
  passed   : List Nat := []
  /-- Discovery attempts that timed out: port, number, elapsed time of the last. -/
  attempts : List (Nat × Nat × Nat) := []
  deriving DecidableEq, Repr

/-- One aggregator on its module. -/
structure Agg where
  /-- Registers that software sees whole, by address (spec chapters' register tables). -/
  regs  : SMap Word := []
  /-- Hawk SRAM and HBM (R2, R3). -/
  mem   : SMap Byte := []
  ident : Ident := {}
  time  : AggTime := {}
  ports : Vector DiePort 64 := Vector.replicate 64 {}
  links : Vector SkimLink 32 := Vector.replicate 32 {}
  gates : GateUnit := {}
  mbx   : Mailbox := {}
  acc   : RegUnit := {}
  ap    : ApUnit := {}
  jobs  : JobUnit := {}
  skim  : SkimUnit := {}
  bundle : Bundle := {}
  codec : Vector CodecSlot 16 := Vector.replicate 16 {}
  cvu   : Vector CvuCtx 16 := Vector.replicate 16 {}
  ingest : IngestUnit := {}
  stn   : StnUnit := {}
  stencil : StencilUnit := {}
  /-- Scoring of job contexts 1 to 16. -/
  scores : Vector JobScore 16 := Vector.replicate 16 {}
  verdicts : VerdictUnit := {}
  elog  : EventLog := {}
  pwr   : PwrUnit := {}
  si    : SafeUnit := {}
  pair  : PairUnit := {}
  boot  : BootUnit := {}
  /-- The module configuration EEPROM (R706). -/
  eeprom : SMap Byte := []
  /-- Chip counters 24 to 29 of block 0 (R554), and their values at the last stroke. -/
  chip  : SMap Nat := []
  chipShown : SMap Nat := []
  /-- What left the module, oldest first. -/
  outbox : List Out := []
  deriving DecidableEq, Repr

end Sys2Proof.Machine
end

