-- ==== Sys2Proof/Syntax.lean ====
section
/-!
DEFINITION. Syntax.lean: the commands of the machine: one constructor for each row of spec/opcode_table.json, with what the command carries.
What no command carries lies in the state. Each constructor names its row and the row's rule.
-/
namespace Sys2Proof

/-- The cycle of a register write: its byte strobes (R277), and the W1C bits that hardware sets in that very cycle (R15). -/
structure WriteCycle where
  strb : BitVec 4
  same : Word := 0
  deriving DecidableEq, Repr

/-- A register read: the address and the byte strobes (R277). -/
structure ReadCycle where
  off  : BitVec 32
  strb : BitVec 4
  deriving DecidableEq, Repr

/-- A read of the one register that a command names: who reads, and the byte strobes (R277). -/
structure ReadBy where
  src  : RegFrom
  strb : BitVec 4
  deriving DecidableEq, Repr

/-- The status inputs of a clock region. With CLK_STOP_N comes what stands on TAP_VAL, by block, which the host holds while the input is
asserted (R89). -/
inductive RegionPin where
  | stretch
  | stop (taps : List (List (BitVec 48)))
  deriving DecidableEq, Repr

/-- The lanes that a training brings up, and the LOOPBACK round trips that every one of them has completed (R317). -/
structure TrainedLanes where
  mask  : BitVec 2
  trips : BitVec 8
  deriving DecidableEq, Repr

/-- The oldest receive slot of a class, and whether the consumer discards its message (R353). -/
structure FreedSlot where
  cls     : Fin 8
  discard : Bool
  deriving DecidableEq, Repr

/-- The link that a DOWN comes on, and whether the partner sends it whole (R373). -/
structure DownFrom where
  link    : Fin 32
  partner : Bool
  deriving DecidableEq, Repr

/-- The commands of the ATU of one host die and of one aggregator (spec/opcode_table.json). -/
inductive Instr where
  /-- REGISTER_WRITE (R12): A write to an ATU or aggregator register field that has no behaviour row of its own, applied by its access type, ownership and refusal order. -/
  | registerWrite (t : RegTarget) (off : BitVec 32) (v : Word) (cycle : WriteCycle)
  /-- LATCHED_READ (R80): A read of a LO half of a wide counter or HT register latches the HI half for a coherent read. -/
  | latchedRead (t : RegTarget) (rd : ReadCycle)
  /-- TOD_MESSAGE (R39): The root receives a time-of-day datagram and accepts or discards it. -/
  | todMessage (m : List Byte)
  /-- HT_PPS_EDGE (R41): An HT_PPS edge at the root sets HT, steps or checks phase, and counts toward LOCKED. -/
  | htPpsEdge
  /-- HT_PPS_LOSS (R43): No HT_PPS edge arrives within 1,000,001,000 ns of the previous one, and the input counts as lost. -/
  | htPpsLoss
  /-- HT_REF_LOSS (R43): 8 consecutive missing HT_REF cycles mark HT_REF lost, and a LOCKED root enters HOLDOVER. -/
  | htRefLoss
  /-- ROOT_INPUTS_RETURN (R45): Lost root inputs return, and the root slews to them or rejects them. -/
  | rootInputsReturn (pps ref : Bool)
  /-- TIME_EXCHANGE_START (R46): Every 1 ms of its own HT a child sends a two-way time request to its time parent. -/
  | timeExchangeStart (alt : Bool)
  /-- TIME_EXCHANGE_REQUEST (R314): A parent receives a time request and sends its reply with t2, t3, state and schedule. -/
  | timeExchangeRequest (k : Fin 32) (m : List Byte)
  /-- TIME_EXCHANGE_REPLY (R48): A child receives a reply, computes offset and delay, slews or steps, and updates its time state. -/
  | timeExchangeReply (k : Fin 32) (m : List Byte)
  /-- TIME_EXCHANGE_FAIL (R315): An exchange fails, which may switch the time parent or enter HOLDOVER. -/
  | timeExchangeFail (alt : Bool)
  /-- PARTNER_HT_COMPARE (R53): Every 1 ms the pair modules compare HT and flag divergence over 24 ns. -/
  | partnerHtCompare (theirs : BitVec 64)
  /-- PLUMB_BEAT_DUE (R56): At each whole millisecond of HT the aggregator sends a time word on every die port in service. -/
  | plumbBeatDue
  /-- PLUMB_BEAT_RECEIVE (R61): An ATU receives a plumb beat, checks it, corrects phase, learns the schedule and advances its time state. -/
  | plumbBeatReceive (p : PortId) (w : List Byte)
  /-- BEAT_MISSED (R744): No good beat arrives 1.1 ms after the last one, or a further 1 ms passes, so a beat counts as missed. -/
  | beatMissed (p : PortId)
  /-- STROKE (R68): The ATU fires stroke n at HT(n), captures every tap and applies commits, suspensions and schedule changes. -/
  | stroke
  /-- CLK_REGION_EDGE (R77): An edge of CLK_STRETCH_N or CLK_STOP_N is stamped, and stretched time is accounted. `taps`: what stands on TAP_VAL, by block. -/
  | clkRegionEdge (r : Fin 16) (pin : RegionPin) (asserted : Bool)
  /-- SET_TIME_SOURCE_SELECT (R83): Selects ROOT_INPUTS, TREE or FREE_RUN as the time source, with FORCE_SLEW. -/
  | setTimeSourceSelect (c : Caller) (source : BitVec 8) (force : Bool)
  /-- SCHEDULE_INIT (R71): Creates the first stroke schedule at the root. -/
  | scheduleInit (c : Caller) (epoch : BitVec 64) (period : BitVec 20)
  /-- SCHEDULE_CHANGE (R72): Schedules a change of stroke period at window c. -/
  | scheduleChange (c : Caller) (win : BitVec 48) (period : BitVec 20)
  /-- LINK_ASYM (R49): Sets the cable asymmetry of a skim link. -/
  | linkAsym (c : Caller) (k : BitVec 5) (ps : BitVec 32)
  /-- DIEPORT_ASYM (R58): Sets the backplane asymmetry of a die port. -/
  | dieportAsym (c : Caller) (p : BitVec 6) (ps : BitVec 32)
  /-- GET_TIME_STATUS (R84): Returns the time state, bound and schedule of the aggregator or of a die. -/
  | getTimeStatus (c : Caller) (target : BitVec 8)
  /-- POWER_DOMAIN_CHANGE (R91): A PDOM_ON change powers a tap block on or off and resets the counter bases. -/
  | powerDomainChange (pdom : BitVec 16)
  /-- BLOCK_CAPTURE (R93): A tap block captures all its taps on one TAP_CLK edge into a free bank and flips its fill toggle. -/
  | blockCapture (b : Fin 16) (vals : List (BitVec 48))
  /-- SNAPSHOT_COMPLETE (R92): All banks of a stroke are read out, and due channels take their taps and start frame coding. -/
  | snapshotComplete
  /-- BLOCK_STALL (R96): No capture edge of a running block comes within 2 µs of the stroke, and the block is marked stalled. -/
  | blockStall (b : Fin 16)
  /-- LATE_CAPTURE_RELEASE (R97): A late capture of a stalled block fills a bank, and the core releases it unread. -/
  | lateCaptureRelease (b : Fin 16)
  /-- CH_COMMIT (R109): A write of ATU_CH_COMMIT copies shadow channel sets into pending sets after checks and a budget check. -/
  | chCommit (src : RegFrom) (mask : BitVec 8)
  /-- CH_COMMIT_CANCEL (R113): A write of ATU_CH_COMMIT with CANCEL discards the pending sets of the masked channels. -/
  | chCommitCancel (src : RegFrom) (mask : BitVec 8)
  /-- SPILL_WRITE_DONE (R143): A frame and its index entry are visible in host DRAM, and the spill positions advance. -/
  | spillWriteDone
  /-- SPILL_DMA_ERROR (R749): A spill or index write gets a host memory error, and the frame is dropped and spill disabled. -/
  | spillDmaError
  /-- SPILL_CFG_WRITE (R141): A host write of ATU_SPILL_CFG enables or disables the spill ring and claims its DMA channel. -/
  | spillCfgWrite (v : Word)
  /-- CH_FLUSH (R149): A write of ATU_CH_FLUSH makes the next frame of each masked channel a key frame. -/
  | chFlush (src : RegFrom) (mask : BitVec 8)
  /-- RESEND_START (R146): A write of ATU_RESEND_CTL START starts resending stored frames of a window range. -/
  | resendStart (src : RegFrom) (mask : BitVec 8)
  /-- RESEND_DONE (R148): A resend ends, and its outcome code is recorded. -/
  | resendDone
  /-- CHK_START (R154): A write of ATU_CHK_CTL START begins a check-value scan of host memory. -/
  | chkStart (src : RegFrom) (cont : Bool)
  /-- CHK_DONE (R154): A scan ends, and the running value and the result are stored. -/
  | chkDone
  /-- CHK_ERROR (R156): A scan meets a host memory error and stops. -/
  | chkError (good : Nat)
  /-- FRAME_RECEIVE (R136): The aggregator receives a whole frame on a die port, checks it, decodes it and stores it. -/
  | frameReceive (p : Fin 64) (resent : Bool) (f : List Byte) (cfg : Option ChanCfg)
  /-- INGEST_CUTOFF (R24): A window's ingest cut-off passes, after which frames are late. -/
  | ingestCutoff (n : Fin 17)
  /-- CODEC_RUN_ENCODE (R161): Codes raw frames against a codec slot's reference into an output chain. -/
  | codecRunEncode (c : Caller) (flush : Bool) (slot : BitVec 4) (src : BitVec 48) (len : BitVec 32) (kind dst : BitVec 48)
  /-- CODEC_RUN_DECODE (R161): Decodes frames against a codec slot's reference into raw frames. -/
  | codecRunDecode (c : Caller) (flush : Bool) (slot : BitVec 4) (src : BitVec 48) (len : BitVec 32) (kind dst : BitVec 48)
  /-- CODEC_SAVE (R165): Writes a codec slot's state to memory, and releases the slot if asked. -/
  | codecSave (c : Caller) (slot : BitVec 4) (dst : BitVec 48) (release : Bool)
  /-- CODEC_RESTORE (R165): Loads a saved codec record into a slot and claims it. -/
  | codecRestore (c : Caller) (slot : BitVec 4) (src : BitVec 48)
  /-- CVU_CONFIGURE (R167): Sets a CVU context's CRC parameters and claims the context. -/
  | cvuConfigure (c : Caller) (k : BitVec 4) (width : BitVec 7) (poly init : BitVec 64) (refIn refOut : Bool) (xorOut : BitVec 64)
  /-- CVU_SCAN (R167): Scans a memory range into a CVU context's running value. -/
  | cvuScan (c : Caller) (k : BitVec 4) (addr : BitVec 48) (len : BitVec 32) (cont : Bool)
  /-- CVU_READ (R167): Returns a CVU context's running value and result. -/
  | cvuRead (c : Caller) (k : BitVec 4)
  /-- CVU_WRITE (R167): Sets a CVU context's running value. -/
  | cvuWrite (c : Caller) (k : BitVec 4) (v : BitVec 64)
  /-- TRACE_RETIRE (R179): A core presents branch or data-access trace, and its source emits packets by mode and masking ranges. -/
  | traceRetire (n : Fin 16) (r : Retire)
  /-- EXCHANGE_MARK (R182): A core presents an exchange mark, and its source emits EXCH_SEND or EXCH_RECV. -/
  | exchangeMark (n : Fin 16) (recv : Bool) (xid : BitVec 32)
  /-- TRACE_CONTEXT_CHANGE (R184): A core enters or leaves a context, and the source emits EXCLUDED or SYNC. -/
  | traceContextChange (n : Fin 16) (priv : BitVec 2) (secure : Bool) (pc : BitVec 64)
  /-- CORE_POWER_DOWN (R190): A core signals low-power entry, and its source emits POWER_DOWN. -/
  | corePowerDown (n : Fin 16)
  /-- CORE_POWER_UP (R190): A core signals low-power exit, and its source emits POWER_UP and SYNC. -/
  | corePowerUp (n : Fin 16) (priv : BitVec 2) (secure : Bool) (pc : BitVec 64)
  /-- TRACE_OVERFLOW (R192): A source queue regains 256 free bytes after discarding packets, and emits OVERFLOW and SYNC. -/
  | traceOverflow (t : Fin 17)
  /-- CHUNK_CLOSE (R174): A chunk open for 10 µs is closed and padded. -/
  | chunkClose (t : Fin 17)
  /-- TRIG_IN_EDGE (R194): A rising edge on TRIG_IN fires a trigger event. `lines` are those that rise in one ATU_CLK cycle (R198). -/
  | trigInEdge (lines : BitVec 4)
  /-- TRACE_START (R196): A start event starts trace, and every source emits TRIGGER and SYNC. -/
  | traceStart (e : BitVec 6)
  /-- TRACE_STOP_EVENT (R197): A stop event puts trace in STOPPING for the stop delay. -/
  | traceStopEvent (e : BitVec 6)
  /-- TRACE_STOP_DELAY_END (R197): The stop delay expires, trace stops, and the sources close their chunks with LAST. -/
  | traceStopDelayEnd
  /-- TRC_CTL_START (R196): A write of ATU_TRC_CTL.START starts trace. -/
  | trcCtlStart (src : RegFrom)
  /-- TRC_CTL_STOP (R197): A write of ATU_TRC_CTL.STOP stops trace without delay. -/
  | trcCtlStop (src : RegFrom)
  /-- TRIG_OUT_PULSE_END (R200): A TRIG_OUT pulse of 16 ATU_CLK cycles ends. -/
  | trigOutPulseEnd (k : Fin 4)
  /-- TRACE_BUF_DMA_ERROR (R203): A trace buffer write gets a host memory error, and DEST bit 2 clears. -/
  | traceBufDmaError
  /-- TRC_AUTH (R185): A write of ATU_TRC_AUTH_HI compares the token with the key and authorises or refuses. -/
  | trcAuth (src : RegFrom) (v : Word)
  /-- AUTH_EXPIRE (R187): At the expiry stroke authorisation lapses, and newly excluded cores are excluded. -/
  | authExpire
  /-- LOG_SUBMIT (R206): A host write of ATU_LOG_DESC_LEN queues a log buffer, stamped with HT. -/
  | logSubmit (v : Word)
  /-- LOG_BYTE_CONSUME (R209): The log matcher consumes a stream byte, reports matches and checks UTF-8. -/
  | logByteConsume
  /-- LOG_DMA_ERROR (R214): A log buffer read meets a host memory error, and the rest of the buffer is skipped. -/
  | logDmaError
  /-- ATU_TRACE_CTL_START (R216): Starts trace on a die's ATU from the aggregator. -/
  | atuTraceCtlStart (c : Caller) (p : BitVec 6)
  /-- ATU_TRACE_CTL_STOP (R216): Stops trace on a die's ATU without delay. -/
  | atuTraceCtlStop (c : Caller) (p : BitVec 6)
  /-- ATU_TRACE_CTL_AUTHORISE (R216): Writes the expiry and the token to a die's ATU to authorise trace. -/
  | atuTraceCtlAuthorise (c : Caller) (p : BitVec 6) (token : BitVec 64) (expiry : BitVec 48)
  /-- ATU_TRACE_CTL_STATUS (R216): Reads a die's trace status and the aggregator's chunk counts. -/
  | atuTraceCtlStatus (c : Caller) (p : BitVec 6)
  /-- AGE_MEASURE (R219): Every PERIOD_S the ATU measures each enabled ageing site. -/
  | ageMeasure (vals : List (BitVec 16))
  /-- AGE_SITE_FAULT (R220): A site gives no edges or no slack reading within 100 µs and is marked faulty. -/
  | ageSiteFault (k : Fin 32)
  /-- FIT_SAMPLE (R221): Every FIT_PERIOD_H a fit sample updates each site's sums and projection. -/
  | fitSample
  /-- LIFE_SECONDS_WRITE (R224): The host seeds ATU_EVR_LIFE_SECONDS once after power-on, which shifts sanding times. -/
  | lifeSecondsWrite (v : Word)
  /-- LIFE_SECOND_TICK (R249): One operating second passes on ATU_REFCLK, and ATU_EVR_LIFE_SECONDS increments. -/
  | lifeSecondTick
  /-- RECOAT_CYCLE (R227): Every RECOAT_S the ATU checks each domain's sites and advises a margin step or RELAX. -/
  | recoatCycle
  /-- SAND_DUE (R235): A core reaches its due time, and SAND_REQ is asserted. -/
  | sandDue (n : Fin 16)
  /-- SAND_GRANT (R231): The host asserts SAND_GNT, and the ATU starts the test with SAND_RUN. -/
  | sandGrant (mask : BitVec 16)
  /-- SAND_DONE (R231): SAND_DONE arrives, and the ATU samples SAND_PASS and records a pass, failure or retest result. -/
  | sandDone (n : Fin 16) (pass : Bool)
  /-- SAND_GRANT_WITHDRAW (R233): The host deasserts SAND_GNT during a test, which aborts it. -/
  | sandGrantWithdraw (n : Fin 16)
  /-- SAND_REREQUEST (R233): 100 ms after an abort, SAND_REQ is asserted again if the core is still due. -/
  | sandRerequest (n : Fin 16)
  /-- SAND_TIMEOUT (R234): SAND_DONE has not arrived by TEST_MAX_US, and the test ends as a failure. -/
  | sandTimeout (n : Fin 16)
  /-- SAND_SOFT_DEADLINE (R236): A core passes its soft deadline, and TEST_URGENT is asserted. -/
  | sandSoftDeadline (n : Fin 16)
  /-- SAND_HARD_DEADLINE (R237): A core reaches its hard deadline and becomes UNTESTED. -/
  | sandHardDeadline (n : Fin 16)
  /-- SAND_RETEST (R240): RETEST_S after a failure, SAND_REQ is asserted for a retest. -/
  | sandRetest (n : Fin 16)
  /-- SAND_CFG_WRITE (R239): A write of ATU_SAND_CFG enables or disables cores for sanding. -/
  | sandCfgWrite (src : RegFrom) (v : Word)
  /-- SAND_TIMING_WRITE (R235): A write of INTERVAL_S, SOFT_S or HARD_S recomputes every core's due time and deadlines. -/
  | sandTimingWrite (src : RegFrom) (deadlines : Bool) (v : Word)
  /-- SAND_RUN_NOW (R230): ATU_SAND_CTL.RUN_NOW makes the named cores due at once. -/
  | sandRunNow (src : RegFrom) (mask : BitVec 16)
  /-- SAND_CLEAR_FAILED (R241): ATU_SAND_CTL.CLEAR_FAILED takes the named cores out of FAILED. -/
  | sandClearFailed (src : RegFrom) (mask : BitVec 16)
  /-- SANDING_PLAN_SET (R243): Writes the sanding timing and the enable mask of a die. -/
  | sandingPlanSet (c : Caller) (p : BitVec 6) (mask : BitVec 16) (interval : BitVec 32) (soft hard : BitVec 16)
  /-- SANDING_PLAN_RUN_NOW (R243): Writes RUN_NOW for the named cores of a die. -/
  | sandingPlanRunNow (c : Caller) (p : BitVec 6) (mask : BitVec 16)
  /-- SANDING_PLAN_CLEAR_FAILED (R243): Writes CLEAR_FAILED for the named cores of a die from ring 0. -/
  | sandingPlanClearFailed (c : Caller) (p : BitVec 6) (mask : BitVec 16)
  /-- SANDING_PLAN_STATUS (R243): Reads the sanding states of a die. -/
  | sandingPlanStatus (c : Caller) (p : BitVec 6)
  /-- EVR_HOST_COMMIT (R248): A host write of ATU_EVR_HOST_COMMIT makes a HOST record. -/
  | evrHostCommit (v : Word)
  /-- EVR_RD_DATA_READ (R247): A read of ATU_EVR_RD_DATA returns 4 ring bytes and advances RD_POS. -/
  | evrRdDataRead (rd : ReadBy)
  /-- EVR_FLUSH_CTL (R251): A write of ATU_EVR_FLUSH_CTL.FLUSH starts a command flush. -/
  | evrFlushCtl (src : RegFrom) (v : Word)
  /-- EVR_FAULT_FLUSH (R252): A fault flush starts once FLUSH_MIN_S has passed since the last flush. -/
  | evrFaultFlush
  /-- EVR_FLUSH_DONE (R253): A flush writes its image header and completes. -/
  | evrFlushDone
  /-- EVR_FLUSH_ERR (R257): A flush fails or is unfinished at the hold-up end, and FLUSH_ERR is set. -/
  | evrFlushErr
  /-- EVR_LOAD (R250): After power-on the ATU loads the life counters from the newest valid image. -/
  | evrLoad
  /-- PWR_FAIL (R255): PWR_FAIL_N asserts, which stops measurement and sanding and starts the power-fail flush. -/
  | pwrFail (asserted : Bool)
  /-- ATU_POR (R264): ATU_POR_N resets the always-on and main domains. -/
  | atuPor
  /-- ATU_RST (R264): ATU_RST_N asserts the main reset. -/
  | atuRst
  /-- MAIN_PWROK_LOW (R264): ATU_MAIN_PWROK falls while ATU_RST_N is deasserted, which resets the main domain. -/
  | mainPwrokLow
  /-- ATU_RESET_CTL_WRITE (R268): A write of the key to ATU_RESET_CTL asserts the main reset. -/
  | atuResetCtlWrite (src : RegFrom) (v : Word)
  /-- MAIN_RESET_RELEASE (R274): The main reset is released, and DIE_ID is sampled. -/
  | mainResetRelease (dieId : Word)
  /-- ATU_READY (R266): 2 µs after main reset release the ATU accepts register accesses. -/
  | atuReady
  /-- ATU_OWNER_WRITE (R282): A host write of ATU_OWNER hands units between host and aggregator. -/
  | atuOwnerWrite (v : Word)
  /-- REGISTER_REQUEST (R295): An ATU receives a register request flit and applies it at its serialisation point. -/
  | registerRequest (p : PortId) (m : List Byte)
  /-- REGISTER_RESPONSE (R556): The aggregator receives an ATU register response and completes the access. -/
  | registerResponse (p : Fin 64) (m : List Byte)
  /-- OOB_RESET (R309): An ATU receives 32 reset control blocks and asserts the main reset. -/
  | oobReset (p : PortId) (blocks : List LineBlock)
  /-- DIE_PORT_FLIT_SEND (R294): At each flit boundary a die-port end sends its highest-priority ready flit. -/
  | diePortFlitSend (e : DieEnd)
  /-- DIE_PORT_FLIT_RECEIVE (R296): A die-port end receives a flit, checks it, accepts DATA in order and processes ACK and NAK. -/
  | diePortFlitReceive (e : DieEnd) (f : List Byte) (cfg : Option ChanCfg)
  /-- RETRY_TIMEOUT (R297): An unacknowledged flit is held 2 µs, and the transmitter replays. -/
  | retryTimeout (e : LinkEnd)
  /-- LINK_IDLE_TIMEOUT (R305): 2 µs pass without a good flit, and the port goes DOWN. -/
  | linkIdleTimeout (e : LinkEnd)
  /-- BLOCK_LOCK_LOSS (R305): A receiver loses block lock, and the port goes DOWN. -/
  | blockLockLoss (e : LinkEnd)
  /-- TRAINING_START (R304): After electrical idle or a wait, a die port starts a training attempt. -/
  | trainingStart (e : LinkEnd)
  /-- BLOCK_LOCK (R304): Block lock and 256 good IDLE flits are achieved in training. -/
  | blockLock (e : LinkEnd)
  /-- PORT_IDENTITY (R307): The aggregator receives the ATU's capabilities and IDs and enters CALIBRATE. -/
  | portIdentity (p : Fin 64) (caps ident die : Word)
  /-- LOOPBACK_RETURN (R301): The ATU returns a loopback flit exactly 1,056 UI after its arrival. -/
  | loopbackReturn (p : PortId)
  /-- LOOPBACK_MEASURE (R301): The aggregator measures a loopback round trip, and the port enters UP after 64 of them. -/
  | loopbackMeasure (p : Fin 64) (rtt : BitVec 32)
  /-- TRAINING_FAIL (R305): An attempt has not reached UP within its bound, and the back-off wait starts. -/
  | trainingFail (e : LinkEnd)
  /-- TRAINING_WAIT_END (R305): A training back-off wait ends. -/
  | trainingWaitEnd (e : LinkEnd)
  /-- SAFETY_BEAT_SEND (R302): Every 100 µs the ATU sends a SAFETY flit on every die port in UP. -/
  | safetyBeatSend
  /-- SAFE_IN_CHANGE (R302): The recognised SAFE_IN state changes, and the ATU sends an extra SAFETY flit. -/
  | safeInChange (level : BitVec 8)
  /-- SAFETY_FLIT_RECEIVE (R303): The aggregator accepts a SAFETY flit and reports it to the Safety Island, which checks it. -/
  | safetyFlitReceive (p : Fin 64) (m : List Byte)
  /-- SAFETY_BEAT_MISS (R303): 110 µs pass without an accepted SAFETY flit on a die port. -/
  | safetyBeatMiss (p : Fin 64)
  /-- SKIM_CODEWORD_RECEIVE (R311): A skim-link receiver decodes an RS codeword and deskews the lanes. -/
  | skimCodewordReceive (k : Fin 32) (lane : Fin 2) (corrected : BitVec 16) (flit : Option (List Byte × Nat))
  /-- SKIM_FLIT_BUILD (R328): At each flit boundary a skim transmitter builds a SAFETY, TIME, replay, DATA or IDLE flit. -/
  | skimFlitBuild (k : Fin 32)
  /-- SKIM_FLIT_RECEIVE (R313): A skim-link end receives a flit and accepts slots, credit and ACK. -/
  | skimFlitReceive (k : Fin 32) (f : List Byte)
  /-- SKIM_LINK_TRAIN (R317): A skim link trains its lanes, exchanges peer identity and measures asymmetry. -/
  | skimLinkTrain (k : Fin 32) (lanes : TrainedLanes) (tray : BitVec 12) (role : Fin 2) (peer : Fin 32) (variant : BitVec 4) (asym0 asym1 : Word)
  /-- LANE_REMOVE (R318): A lane exceeds its error thresholds or loses lock, and the receiver removes it. -/
  | laneRemove (k : Fin 32) (lane : Fin 2) (unc corr symbols : BitVec 32) (lost : Bool) (at_ : BitVec 16)
  /-- LANE_CHANGE (R318): A LANE_CHANGE flit is received, and both ends change active lanes at the named codeword. -/
  | laneChange (k : Fin 32) (at_ : BitVec 16) (mask : BitVec 2)
  /-- LANE_HOLDOFF_END (R319): A removed lane's hold-off ends, and it retrains. -/
  | laneHoldoffEnd (k : Fin 32) (lane : Fin 2)
  /-- LANE_SOAK_END (R319): A lane's 1 s soak ends, and it is admitted or not. -/
  | laneSoakEnd (k : Fin 32) (lane : Fin 2) (unc corr symbols : BitVec 32) (at_ : BitVec 16)
  /-- LANE_LOCKOUT_END (R320): A lane's 1-hour lockout ends. -/
  | laneLockoutEnd (k : Fin 32) (lane : Fin 2)
  /-- SKIM_SAFETY_SEND (R316): Every 100 µs the aggregator sends a SAFETY flit on every skim link in UP. -/
  | skimSafetySend
  /-- SKIM_SAFETY_RECEIVE (R678): A partner SAFETY flit updates this module's view of the partner's watch, alarms and unknowns. -/
  | skimSafetyReceive (k : Fin 32) (m : List Byte)
  /-- GATE_ENTRY_START (R330): A gate entry begins at its offset within the round. -/
  | gateEntryStart
  /-- GATE_COMMIT (R335): A write of AGG_GATE_CTL.COMMIT checks the shadow gate list and meters and makes them pending. -/
  | gateCommit
  /-- GATE_CANCEL (R335): A write of AGG_GATE_CTL.CANCEL discards the pending set. -/
  | gateCancel
  /-- TC2_EXPIRE (R336): A TC2 message whose first slot has not left by its deadline is discarded. -/
  | tc2Expire (k : Fin 32)
  /-- CREDIT_STALL (R357): A class holds a ready slot without credit for 100 µs. -/
  | creditStall (k : Fin 32) (cls : Fin 8)
  /-- SLOT_RELEASE (R353): A consumer releases a receive slot, which returns credit. -/
  | slotRelease (k : Fin 32) (slot : FreedSlot)
  /-- RELEASE_LATE (R353): A consumer exceeds its release bound. -/
  | releaseLate (k : Fin 32) (cls : Fin 8)
  /-- AGG_STROKE (R352): At each stroke the aggregator samples its self-telemetry taps and applies window-timed changes. -/
  | aggStroke
  /-- ROUND_CLOSE (R376): At round close the aggregator seals its local sketches. -/
  | roundClose
  /-- PARTNER_SELF_VALUES (R363): Module B receives module A's source-1 values for the round. -/
  | partnerSelfValues (r : BitVec 40) (vals : List (List (Option Nat)))
  /-- SKIM_UP_SEND (R376): At T_up(d) a module sends its merged UP to its parent. -/
  | skimUpSend (r : BitVec 40)
  /-- SKIM_UP_RECEIVE (R377): A parent receives a child's UP and accepts or rejects it. -/
  | skimUpReceive (k : Fin 32) (m : List Byte)
  /-- SKIM_MERGE (R378): At T_up(d) − MERGE the node merges its accepted UPs. -/
  | skimMerge (r : BitVec 40)
  /-- ROOT_EXCHANGE (R380): At T_up(0) the root modules exchange results and adopt one plane. -/
  | rootExchange (r : BitVec 40) (x : RootMsg)
  /-- ROOT_DECIDE (R381): At T_root the root sends DOWN or ABORT. -/
  | rootDecide (r : BitVec 40)
  /-- DOWN_FORWARD (R382): At T_down(d) a module forwards the DOWN and sends its digest to the partner. -/
  | downForward (r : BitVec 40)
  /-- DOWN_RECEIVE (R383): A module receives a DOWN, forwarding it at once when late. -/
  | downReceive (src : DownFrom) (m : List Byte)
  /-- DOWN_USE (R382): At T_down(d) + PAIR the module chooses the DOWN in use. -/
  | downUse (r : BitVec 40) (said : Option (BitVec 64 × BitVec 32))
  /-- ABORT_RECEIVE (R384): A module receives ABORT, forwards it and discards the round. -/
  | abortReceive (m : List Byte)
  /-- ROUND_ABORT_TIMEOUT (R385): No usable DOWN at C + ABORT_US, so the module discards the round. -/
  | roundAbortTimeout (r : BitVec 40)
  /-- TREE_JOIN (R375): At the activation round a module sends JOIN to its primary parent. -/
  | treeJoin
  /-- JOIN_RECEIVE (R375): A parent receives JOIN and answers JOIN_ACK or JOIN_NAK. -/
  | joinReceive (k : Fin 32) (depth height : BitVec 8)
  /-- JOIN_REPLY (R375): A module receives JOIN_ACK or JOIN_NAK. -/
  | joinReply (k : Fin 32) (ack : Bool)
  /-- REROUTE (R387): The primary parent link leaves UP, and the module sends ADOPT to its alternate. -/
  | reroute
  /-- LEAVE_RECEIVE (R387): A module receives LEAVE from its primary parent and reroutes. -/
  | leaveReceive (k : Fin 32) (r : BitVec 40)
  /-- ADOPT_RECEIVE (R388): An alternate parent receives ADOPT and answers ACK or NAK. -/
  | adoptReceive (k : Fin 32) (r : BitVec 40) (height : BitVec 8)
  /-- ADOPT_REPLY (R391): A module receives ADOPT_ACK or ADOPT_NAK and, on ACK, sends DEPTH to its children. -/
  | adoptReply (k : Fin 32) (ack : Bool) (depth : BitVec 8)
  /-- ADOPT_RETRY (R388): A retry timer resends ADOPT after a NAK or 1 ms of silence. -/
  | adoptRetry
  /-- DEPTH_RECEIVE (R391): A descendant receives DEPTH and takes its new depth from R_a. -/
  | depthReceive (k : Fin 32) (r : BitVec 40) (depth : BitVec 8)
  /-- RETURN_PRIMARY_TIMER (R392): The primary link has been UP 10 s, so the module returns to its primary parent. -/
  | returnPrimaryTimer
  /-- SKIM_SET_METRICS (R395): Sets the skim metric set from ACT_ROUND. -/
  | skimSetMetrics (c : Caller) (setId : BitVec 32) (act : BitVec 40) (count : BitVec 11) (addr : BitVec 48)
  /-- SKIM_TREE_CONFIGURE (R398): Configures this module's position and timing in the skim tree. -/
  | skimTreeConfigure (c : Caller) (x : TreeArgs)
  /-- SKIM_TREE_RETURN_PRIMARY (R392): Starts a return to the primary parent at once. -/
  | skimTreeReturnPrimary (c : Caller)
  /-- SKIM_TREE_DISSOLVE (R397): The module leaves the tree from ACT_ROUND. -/
  | skimTreeDissolve (c : Caller) (act : BitVec 40)
  /-- SKIM_STATUS (R399): Returns tree state and a round's DOWN. -/
  | skimStatus (c : Caller) (r : BitVec 40) (dst : BitVec 48)
  /-- STATION_RUN (R442): Runs a chain of one-off station runs. -/
  | stationRun (c : Caller) (addr : BitVec 48) (count : BitVec 7)
  /-- STATION_KAT (R442): Runs a known-answer test on a named station. -/
  | stationKat (c : Caller) (kind : BitVec 3) (k : BitVec 8) (own : Bool) (run : BitVec 4) (pass : Bool) (cycles : BitVec 32)
  /-- STATION_SERVICE (R447): Takes a station out of service or returns it. -/
  | stationService (c : Caller) (kind : BitVec 3) (k : BitVec 8) (inService : Bool)
  /-- STATION_STATUS (R442): Copies the job's run log for a window. -/
  | stationStatus (c : Caller) (w dst : BitVec 48)
  /-- WINDOW_PROGRAM_START (R406): The feature build of a window is complete, and the window program starts. -/
  | windowProgramStart (n : Fin 17)
  /-- RUN_COMPLETE (R406): A run's output is complete, and the next run of the chain starts. -/
  | runComplete (who : RunRef) (cycles corrected : BitVec 32) (err : Option (BitVec 32 × BitVec 48))
  /-- SCORING_SKIP (R640): Scoring of window w has not started by window w + 31's feature build and is skipped. -/
  | scoringSkip (n : Fin 17)
  /-- STATION_SAND_DUE (R445): A due station is taken for test at an idle tile boundary. -/
  | stationSandDue (kind : BitVec 3) (k : BitVec 8)
  /-- STATION_SAND_FORCE (R446): A station untested at twice the interval is taken at its next tile boundary. -/
  | stationSandForce (kind : BitVec 3) (k : BitVec 8)
  /-- STATION_TEST_RESULT (R447): A station's test ends, with a retest, a return to service or removal. -/
  | stationTestResult (kind : BitVec 3) (k : BitVec 8) (pass : Bool)
  /-- RANK_CODE (R461): When the window program is complete, the Stencil rank-codes the window's features. -/
  | rankCode (n : Fin 17)
  /-- STENCIL_LOOKUP (R470): A TCAM lookup returns a result, and the tree walk continues or ends at a leaf. -/
  | stencilLookup (n : Fin 17) (e : Fin 4) (t tree : BitVec 16) (hits : Option (List (Nat × Bool)))
  /-- TCAM_BANK_REWRITE (R474): The Control Processor rewrites a faulty bank from its shadow copy. -/
  | tcamBankRewrite (b : BitVec 8)
  /-- ENTITY_PUT (R457): Schedules an Entity Table entry from ACT_WINDOW. -/
  | entityPut (c : Caller) (die : BitVec 32) (src act : BitVec 48)
  /-- ENTITY_DELETE (R457): Schedules the removal of an Entity Table entry. -/
  | entityDelete (c : Caller) (die : BitVec 32) (act : BitVec 48)
  /-- ENTITY_READ (R457): Copies the Entity Table entry in force. -/
  | entityRead (c : Caller) (die : BitVec 32) (dst : BitVec 48)
  /-- ENTITY_STATUS (R458): Returns the entry count and the table digest. -/
  | entityStatus (c : Caller)
  /-- STENCIL_LOAD (R477): Checks, compiles and places an ensemble image as a slot's pending copy. -/
  | stencilLoad (c : Caller) (e : BitVec 2) (addr : BitVec 48) (len : BitVec 32)
  /-- STENCIL_ACTIVATE (R478): The pending copy of a slot becomes active from ACT_WINDOW. -/
  | stencilActivate (c : Caller) (e : BitVec 2) (act : BitVec 48)
  /-- STENCIL_UNLOAD (R477): The slot has no ensemble from ACT_WINDOW. -/
  | stencilUnload (c : Caller) (e : BitVec 2) (act : BitVec 48)
  /-- STENCIL_STATUS (R477): Reads a slot's entries, load and digest. -/
  | stencilStatus (c : Caller) (e : BitVec 2)
  /-- ENSEMBLE_FREE (R478): Every sample before ACT_WINDOW is complete, and the old copy's entries are freed. -/
  | ensembleFree (n : Fin 17) (e : Fin 4)
  /-- RANK_DEADLINE (R484): A round's rank deadline passes, and a round with no DOWN in use is unranked. -/
  | rankDeadline (r : BitVec 40)
  /-- LEVEL_PLACE (R486): The Level station places a round's die-windows, computes verdicts and classes, and sends the pair summary. -/
  | levelPlace
  /-- DUSTSHEET_CONFIGURE (R502): Sets the Dust Sheet budget, mean, hall metric and unchecked policy. -/
  | dustsheetConfigure (c : Caller) (budget : BitVec 16) (mean : BitVec 5) (minMean : BitVec 16) (metric : Option (BitVec 10)) (allow : Bool)
  /-- DUSTSHEET_CLEAR_SUSPECT (R501): Ends the model-suspect fall-back. -/
  | dustsheetClearSuspect (c : Caller)
  /-- DUSTSHEET_SEED (R502): Loads hourly recommendation totals. -/
  | dustsheetSeed (c : Caller) (addr : BitVec 48)
  /-- DUSTSHEET_STATUS (R502): Returns H, S, the suspect state and the WATCH count. -/
  | dustsheetStatus (c : Caller)
  /-- EXPEL_APPLY (R507): Checks a quorum token and expels a die from FROM_WINDOW, forwarding to the partner. -/
  | expelApply (c : Caller) (die : BitVec 32) (raised from_ expiry tokens : BitVec 48) (count : BitVec 3)
  /-- EXPEL_RESTORE (R507): Clears a die's expulsion from ring 0. -/
  | expelRestore (c : Caller) (die : BitVec 32)
  /-- EXPEL_FORWARD_RECEIVE (R507): The partner receives a forwarded EXPEL_APPLY and applies it. -/
  | expelForwardReceive (n : Fin 17) (die : BitVec 32) (raised from_ expiry : BitVec 48) (token : List Byte)
  /-- PAIR_SUMMARY_RECEIVE (R510): A module receives the partner's round summary and compares digests. -/
  | pairSummaryReceive (m : List Byte)
  /-- PAIR_SUMMARY_LATE (R511): The partner's summary is missing at rank deadline + 150 µs, and the round is UNCHECKED. -/
  | pairSummaryLate (n : Fin 17) (r : BitVec 40)
  /-- DISAGREE_RUN_LOG_RECEIVE (R512): Step 2 receives the partner's run logs and starts a KAT on the named station. -/
  | disagreeRunLogReceive (n : Fin 17) (r : BitVec 40) (logs : Option (List Byte))
  /-- DISAGREE_KAT_RESULT (R512): The step-2 station tests end, which decides a wrong side or goes on to step 3. -/
  | disagreeKatResult (n : Fin 17) (r : BitVec 40) (mine theirs : Bool)
  /-- DISAGREE_REDIGEST_RECEIVE (R512): Step 3 receives the partner's recomputed verdict digest and decides or contests. -/
  | disagreeRedigestReceive (n : Fin 17) (r : BitVec 40) (fault : Option (BitVec 64)) (theirs : BitVec 64)
  /-- DISAGREE_ADOPT (R513): A wrong side receives the partner's records, state and rows and adopts them. -/
  | disagreeAdopt (n : Fin 17) (r : BitVec 40) (t : BitVec 40) (records image rows : List Byte)
  /-- DISAGREE_TIMEOUT (R515): The round's oldest window is 60 windows old, and open dies end CONTESTED. -/
  | disagreeTimeout (n : Fin 17) (r : BitVec 40)
  /-- VERDICT_READ_RECORDS (R516): Copies verdict records of a job. -/
  | verdictReadRecords (c : Caller) (die : BitVec 32) (first : BitVec 48) (windows : BitVec 16) (dst : BitVec 48)
  /-- VERDICT_READ_RECS (R516): Copies recommendation-ring entries. -/
  | verdictReadRecs (c : Caller) (from_ : BitVec 32) (max : BitVec 16) (dst : BitVec 48)
  /-- DISAGREE_STATUS (R517): Returns the state of a dispute. -/
  | disagreeStatus (c : Caller) (r : BitVec 40)
  /-- SQ_DOORBELL (R524): A write of AGG_MBXn_SQ_TAIL announces descriptors, or faults the ring if invalid. -/
  | sqDoorbell (n : Fin 17) (v : Word)
  /-- CQ_HEAD_WRITE (R525): A client reports consumed completions by writing AGG_MBXn_CQ_HEAD. -/
  | cqHeadWrite (n : Fin 17) (v : Word)
  /-- MBX_RESTART (R540): A write of AGG_MBXn_CTL.RESTART clears FAULTED and resumes reading. -/
  | mbxRestart (n : Fin 17)
  /-- UDP_SUBMIT (R529): A SUBMIT datagram is checked, appended in order and acknowledged. -/
  | udpSubmit (addr : BitVec 128) (port : BitVec 16) (m : List Byte)
  /-- UDP_ACK (R530): A client ACK releases kept completions. -/
  | udpAck (addr : BitVec 128) (port : BitVec 16) (m : List Byte)
  /-- UDP_RESEND (R530): A RESEND makes the aggregator resend kept completions. -/
  | udpResend (addr : BitVec 128) (port : BitVec 16) (m : List Byte)
  /-- DESCRIPTOR_ADMIT (R537): The head descriptor of a ring is checked and admitted or refused. -/
  | descriptorAdmit (n : Fin 17)
  /-- NOP (R550): Completes with OK. -/
  | nop (c : Caller)
  /-- GET_INFO (R551): Returns design, firmware and identity information. -/
  | getInfo (c : Caller)
  /-- GET_CAPS (R551): Returns AGG_CAPS and the links and stations in service. -/
  | getCaps (c : Caller)
  /-- READ_COUNTERS (R552): Writes the counter block of the context addressed. -/
  | readCounters (c : Caller) (dst : BitVec 48)
  /-- READ_GLOBAL_COUNTERS (R552): Writes the chip block and every context block. -/
  | readGlobalCounters (c : Caller) (dst : BitVec 48)
  /-- ATU_WRITE (R555): Writes one ATU register over a die port. -/
  | atuWrite (c : Caller) (p : BitVec 6) (off : BitVec 16) (v : Word)
  /-- ATU_READ (R555): Reads up to 16 ATU registers over a die port. -/
  | atuRead (c : Caller) (p : BitVec 6) (off : BitVec 16) (count : BitVec 5)
  /-- ATU_ACCESS_TIMEOUT (R558): An ATU access has no response within 100 µs and completes with TIMEOUT. -/
  | atuAccessTimeout (p : Fin 64) (tag : BitVec 16)
  /-- ATU_RESET (R269): Resets a die's ATU by register write or out-of-band sequence and waits for its return. -/
  | atuReset (c : Caller) (p : BitVec 6) (kind : Bool)
  /-- ATU_RESET_TIMEOUT (R269): An ATU_RESET has not seen the port back in service within 10 ms. -/
  | atuResetTimeout (p : Fin 64)
  /-- EVENT_LOG_READ (R560): Copies records from the event log, the violation log or an ATU event recorder. -/
  | eventLogRead (c : Caller) (source : BitVec 2) (port : BitVec 6) (from_ : BitVec 64) (max : BitVec 32) (dst : BitVec 48)
  /-- WAITFOR_GRAPH (R562): Takes and writes the wait-for graph. -/
  | waitforGraph (c : Caller) (chip : Bool) (dst : BitVec 48) (max : BitVec 32)
  /-- JOB_CREATE (R571): Creates a job context, or queues the create until resources fit. -/
  | jobCreate (c : Caller) (tag : BitVec 32) (hawk : BitVec 8) (hbm : BitVec 6) (bind : BitVec 48) (queueMs : BitVec 16)
  /-- JOB_CREATE_TIMEOUT (R571): A queued create is still waiting after QUEUE_MS. -/
  | jobCreateTimeout
  /-- JOB_ADD_DIES (R574): Adds dies and channel claims to a CREATED job. -/
  | jobAddDies (c : Caller) (list : BitVec 48) (count : BitVec 7)
  /-- JOB_LOAD_MODEL_LOCAL (R578): Loads a model image from memory as the pending model. -/
  | jobLoadModelLocal (c : Caller) (addr : BitVec 48) (len : BitVec 32)
  /-- JOB_LOAD_MODEL_RECEIVE (R601): Waits for a paste and loads its image on COMMIT. -/
  | jobLoadModelReceive (c : Caller) (pid : BitVec 32) (digest : BitVec 64)
  /-- JOB_LOAD_MODEL_SEND (R591): Starts a paste of a model image down this node's subtree. -/
  | jobLoadModelSend (c : Caller) (pid : BitVec 32) (addr : BitVec 48) (len : BitVec 32) (deadline : BitVec 64) (members : BitVec 48)
  /-- JOB_ARM (R582): Reserves resources and returns the first ready epoch window. -/
  | jobArm (c : Caller) (earliest : BitVec 48) (hold : BitVec 16)
  /-- ARM_EXPIRE (R583): An arm lapses after HOLD_MS without a commit. -/
  | armExpire
  /-- JOB_COMMIT (R584): Fixes the activation window and writes the ATU channel commits. -/
  | jobCommit (c : Caller) (act : BitVec 48)
  /-- JOB_DISARM (R583): Ends an arm at once. -/
  | jobDisarm (c : Caller)
  /-- COMMIT_OUTCOME_RECEIVE (R587): Module B receives module A's ATU-write outcome and completes its JOB_COMMIT. -/
  | commitOutcomeReceive (n : Fin 17) (code : BitVec 8)
  /-- JOB_TEARDOWN (R588): Puts a job in DRAINING through LAST_WINDOW, or releases it at once. -/
  | jobTeardown (c : Caller) (last : BitVec 48)
  /-- JOB_RELEASE (R589): All verdicts through LAST_WINDOW are final, and the context is released. -/
  | jobRelease (x : Fin 17)
  /-- AREA_ZEROED (R573): Zeroing of a released area ends, and the area is free. -/
  | areaZeroed
  /-- JOB_STATUS (R590): Returns the state of a job context. -/
  | jobStatus (c : Caller)
  /-- PASTE_CHUNK_RECEIVE (R594): A module accepts a paste chunk, stages it, forwards it and advances its digest. -/
  | pasteChunkReceive (m : List Byte)
  /-- PASTE_HAVE_SEND (R595): A module sends HAVE to its paste parent on growth or every 1 ms. -/
  | pasteHaveSend (pid : BitVec 32)
  /-- PASTE_HAVE_RECEIVE (R595): A module receives a child's HAVE, and the decider may commit. -/
  | pasteHaveReceive (src : Option (Fin 32)) (m : List Byte) (holds : Bool)
  /-- PASTE_DEADLINE (R596): At DEADLINE without full coverage the decider sends DECIDE FAIL. -/
  | pasteDeadline (pid : BitVec 32)
  /-- PASTE_DECIDE_RECEIVE (R596): A module acts on the first DECIDE and forwards it. -/
  | pasteDecideReceive (m : List Byte)
  /-- PASTE_FETCH_RECEIVE (R597): A module answers a FETCH with REFETCH chunks or passes it up. -/
  | pasteFetchReceive (src : Option (Fin 32)) (m : List Byte)
  /-- PASTE_REPARENT (R598): The paste parent link is lost, and the module sends REJOIN to its alternate. -/
  | pasteReparent (pid : BitVec 32) (left : Bool)
  /-- PASTE_REJOIN_RECEIVE (R598): A new parent receives REJOIN and sends chunks from NEXT_SEQ. -/
  | pasteRejoinReceive (k : Fin 32) (m : List Byte)
  /-- PASTE_DECIDE_PROBE (R600): No DECIDE by DEADLINE + 5 ms, so FETCH with COUNT 0 is sent every 1 ms. -/
  | pasteDecideProbe (pid : BitVec 32)
  /-- PASTE_ABANDON (R600): At DEADLINE + 50 ms without a decision the staging is discarded. -/
  | pasteAbandon (pid : BitVec 32)
  /-- PASTE_STAGING_FREE (R600): A paste's staging is freed 10 s after COMMIT. -/
  | pasteStagingFree
  /-- RDMA_WRITE (R609): An RDMA WRITE message is checked at its first packet and executed. -/
  | rdmaWrite (port : Fin 2) (pkt : RocePkt) (memError : Bool)
  /-- RDMA_READ (R609): An RDMA READ request is checked and answered with responses. -/
  | rdmaRead (port : Fin 2) (pkt : RocePkt) (memError : Bool)
  /-- RDMA_SEND (R627): An inbound SEND on a ring's queue pair acts as a doorbell. -/
  | rdmaSend (port : Fin 2) (pkt : RocePkt) (memError : Bool)
  /-- QP_CONTEXT_FETCHED (R622): A queue-pair context fetch completes, and its parked packets are processed. -/
  | qpContextFetched (qpn : BitVec 24) (ns : BitVec 32)
  /-- WINDOW_OPEN (R610): Opens a memory window in a PD. -/
  | windowOpen (c : Caller) (pd : BitVec 6) (base : BitVec 48) (len : BitVec 40) (access : BitVec 2) (qpn : Option (BitVec 24)) (notify : Bool)
  /-- WINDOW_REVOKE (R612): Starts revoking a window. -/
  | windowRevoke (c : Caller) (w : BitVec 10) (rkey : BitVec 32)
  /-- REVOKE_INSTANT (R612): T_r is reached, and later checks fail for the window. -/
  | revokeInstant (w : BitVec 10)
  /-- REVOKE_DRAINED (R613): Admitted messages of a revoked window have completed, and the revoke completes. -/
  | revokeDrained (w : BitVec 10)
  /-- REVOKE_DRAIN_BOUND (R613): At T_r + 20 µs unfinished messages are cut with NAKs. -/
  | revokeDrainBound (w : BitVec 10)
  /-- PD_CREATE (R626): Creates a protection domain. -/
  | pdCreate (c : Caller)
  /-- PD_DESTROY (R626): Destroys a protection domain. -/
  | pdDestroy (c : Caller) (pd : BitVec 6)
  /-- QP_CREATE (R624): Creates a queue pair. -/
  | qpCreate (c : Caller) (pd : BitVec 6) (x : QpParams)
  /-- QP_RECONNECT (R624): Drains and resets a queue pair with new parameters. -/
  | qpReconnect (c : Caller) (qpn : BitVec 24) (x : QpParams)
  /-- QP_DESTROY (R625): Drains and frees a queue pair. -/
  | qpDestroy (c : Caller) (qpn : BitVec 24)
  /-- POWER_SET_STATE (R664): Sets the requested power state. -/
  | powerSetState (c : Caller) (st : BitVec 3)
  /-- POWER_SET_CAP (R664): Sets the power cap. -/
  | powerSetCap (c : Caller) (w : BitVec 9)
  /-- POWER_SET_MARGIN (R664): Lowers a margin domain's level by undoing actions. -/
  | powerSetMargin (c : Caller) (d : BitVec 1) (lv : BitVec 3)
  /-- POWER_STATUS (R664): Returns the power, state and energy figures. -/
  | powerStatus (c : Caller)
  /-- POWER_STEP_DONE (R642): A power transition step ends, and the next step starts. -/
  | powerStepDone
  /-- CAP_EVALUATE (R645): The 1 ms input power average updates the cap state. -/
  | capEvaluate (mw : BitVec 20)
  /-- THERMAL_EVALUATE (R646): Every 1 ms the temperature sensors update the thermal state. -/
  | thermalEvaluate (temps : Vector Int 12)
  /-- DROOP_TRIP (R648): A droop detector trips, and the clamp halves the Trowel issue rate. -/
  | droopTrip
  /-- DROOP_RELEASE (R649): DROOP_HOLD_US after the last trip the clamp releases. -/
  | droopRelease
  /-- STEP_HOLD_END (R650): STEP_HOLD_US after release the paused steps resume. -/
  | stepHoldEnd
  /-- VR_ALERT (R652): VR_ALERT_N asserted 1 µs forces P7 settings. -/
  | vrAlert
  /-- VR_ALERT_CLEAR (R653): VR_ALERT_N deasserted 100 ms ends the regulator alarm. -/
  | vrAlertClear
  /-- COOLANT_STOP (R654): COOLANT_FAIL_N asserted 50 µs stops the core region irrevocably. -/
  | coolantStop
  /-- AGG_AGE_MEASURE (R659): The aggregator measures its ageing sites. -/
  | aggAgeMeasure (vals : List (BitVec 16)) (faults : BitVec 24)
  /-- AGG_RECOAT_CYCLE (R661): The aggregator recoat cycle adjusts its own regulators and ceiling. -/
  | aggRecoatCycle
  /-- AGG_FIT_SAVE (R660): Once per fit period the life count and fit sums are written to the EEPROM. -/
  | aggFitSave (ok : Bool)
  /-- SAFE_IN_PATH_TEST (R673): Every 1 ms the ATU tests each SAFE_IN capture path. -/
  | safeInPathTest (fails : BitVec 8)
  /-- SI_EVALUATE (R680): The Safety Island's 20 µs evaluation cycle checks alarms and releases the loop if needed. -/
  | siEvaluate (t0 t1 : Int) (switches : Bool)
  /-- UNKNOWN_TIMEOUT (R679): A die unsafe-unknown for the tray for UNKNOWN_MS releases the loop or only reports. -/
  | unknownTimeout (p : Fin 64)
  /-- SAFE_RETIRE (R677): A write of AGG_SAFE_RETIRE removes a DOWN port from the watch set. -/
  | safeRetire (p : BitVec 6)
  /-- SI_SELF_TEST (R682): The Safety Island's periodic scrub, CRC, watchdog and sensor checks run. -/
  | siSelfTest (memory config clock corrected : Bool) (t0 t1 : Int)
  /-- LOCKSTEP_MISMATCH (R682): A lockstep mismatch opens both switches in hardware. -/
  | lockstepMismatch
  /-- SI_RAIL_FAULT (R682): The Safety Island rail leaves ±5 %, and the loop is released. -/
  | siRailFault
  /-- CP_HEARTBEAT (R683): The Control Processor writes its heartbeat to the Safety Island. -/
  | cpHeartbeat
  /-- CORE_RESET (R683): 10 ms without a heartbeat, so the Safety Island resets the core region. -/
  | coreReset
  /-- PAIR_KEEPALIVE_SEND (R685): Every 1 ms a module sends a TC6 keepalive to its partner. -/
  | pairKeepaliveSend
  /-- PARTNER_CORE_LOST (R685): No partner keepalive for 3 ms, and the survivor takes over pair duties. -/
  | partnerCoreLost
  /-- PARTNER_SI_LOST (R685): 30 missed partner SAFETY flits or a released partner loop marks the partner Safety Island lost. -/
  | partnerSiLost
  /-- CHECKPOINT_WRITE (R687): At each epoch a module writes its checkpoint and sends it to its keeper. -/
  | checkpointWrite
  /-- CHECKPOINT_RECEIVE (R688): A keeper receives a child's checkpoint and keeps the newest valid one. -/
  | checkpointReceive (m : List Byte)
  /-- CHECKPOINT_FAIL (R687): A checkpoint is not complete at the keeper by the next epoch. -/
  | checkpointFail
  /-- CHECKPOINT_FETCH (R688): A keeper answers a fetch with the newest checkpoint of a tray. -/
  | checkpointFetch (k : Fin 32) (tray : BitVec 12) (partners : Option (List Byte))
  /-- PAIR_SYNC_START (R689): A joining module rebuilds state from its partner or from the keeper. -/
  | pairSyncStart (c : Caller) (source : BitVec 1) (fallback : Bool) (theirs : Option (List Byte))
  /-- PAIR_SYNC_STATE_RECEIVE (R690): The joiner receives and installs the partner's state and models. -/
  | pairSyncStateReceive (x : Option Machine.PairContent)
  /-- PAIR_STATUS (R694): Returns partner and sync state. -/
  | pairStatus (c : Caller)
  /-- MODULE_POWER_ON (R703): The 44 V input reaches 40.0 V, and the power-on sequence runs. -/
  | modulePowerOn (x : Straps) (coolant rom switches rails : Bool) (prog : List (Nat × List Byte))
  /-- MODULE_RESET (R700): MODULE_RST_N for 10 µs resets the core and link regions and starts the Primer. -/
  | moduleReset (x : Straps) (coolant : Bool) (prog : List (Nat × List Byte))
  /-- PRIMER_FETCH (R710): The Primer fetches the image from the next source. -/
  | primerFetch
  /-- PRIMER_IMAGE_CHECK (R713): A fetched image is verified and started or rejected. -/
  | primerImageCheck (m : Option (List Byte))
  /-- PRIMER_SOURCE_TIMEOUT (R711): 100 ms without progress fails the image source. -/
  | primerSourceTimeout
  /-- PRIMER_PASS_WAIT_END (R711): The wait between Primer passes ends. -/
  | primerPassWaitEnd
  /-- IMAGE_REQ_RECEIVE (R710): A partner answers IMAGE_REQ with its image or NONE. -/
  | imageReqReceive
  /-- BOOT_STATUS_SEND (R715): Every 1 s the Primer sends a boot-status datagram. -/
  | bootStatusSend
  /-- HBM_TRAINING_DONE (R717): An HBM training attempt ends, with retry or BOOT_ERR 8 after 3 failures. -/
  | hbmTrainingDone (ok : Bool)
  /-- ATU_DISCOVERY (R719): On port UP the firmware reads and checks the ATU's identity. -/
  | atuDiscovery (p : Fin 64)
  /-- DISCOVERY_RETRY (R754): A timed-out discovery read is repeated after 1 ms. -/
  | discoveryRetry (p : Fin 64)
  /-- POWER_FAIL (R733): The bulk falls below 38.0 V, the core stops and the link region holds on. -/
  | powerFail
  /-- POWER_RETURN (R735): The input returns during hold-up, and the core restarts as a core reset. -/
  | powerReturn (x : Straps) (coolant : Bool)
  /-- HOLDUP_EXHAUSTED (R736): The hold-up runs out, every rail falls and the loop releases. -/
  | holdupExhausted
  /-- INPUT_OVERCURRENT (R732): Above 9 A for 1 ms the hot-swap stage latches off. -/
  | inputOvercurrent
  /-- ATU_CLK_STOP (R751): ATU_CLK stops while the ATU is out of reset, and every function clocked by it freezes where it stands while the time base, tap capture, safety path and ports run on. -/
  | atuClkStop
  /-- ATU_CLK_RESTART (R751): ATU_CLK returns, and every frozen register access, bank readout, coding, trace, DMA, sanding and ageing function resumes. -/
  | atuClkRestart
  /-- LOG_MATCHER_ENABLE (R206): A write of ATU_LOG_CFG.ENABLE claims a DMA channel, restarts buffer numbering and clears the queue, or releases the claim when cleared. -/
  | logMatcherEnable (src : RegFrom) (v : Word)
  /-- ANALYSIS_PORT_LINK_CHANGE (R603): An analysis port loses or regains link, which sets LINK_DOWN0 or LINK_DOWN1 and changes UP0 or UP1. -/
  | analysisPortLinkChange (port : Fin 2) (up : Bool)
  /-- LOCAL_ACK_TIMEOUT (R605): The local ACK timeout of a queue pair expires on a CQ write or notice the aggregator sent as requester, and it retries or moves the queue pair to ERROR after RETRY attempts. -/
  | localAckTimeout (qpn : BitVec 24)
  /-- REQUESTER_ACK_RECEIVE (R605): An ACK or NAK arrives for a CQ write, CQ tail write or revocation notice that the aggregator sent as requester. -/
  | requesterAckReceive (qpn psn : BitVec 24) (nak : Option (BitVec 8))
  /-- CNP_RECEIVE (R604): A congestion notification packet arrives on an analysis port and is counted in CNP_RX without changing the sending rate. -/
  | cnpReceive (port : Fin 2)
  /-- PAIR_KEEPALIVE_RECEIVE (R685): A module receives its partner's 1 ms TC6 keepalive, which restarts the 3 ms partner-core watch and ends partner core lost. -/
  | pairKeepaliveReceive
  /-- SKIM_SAFETY_MISS (R685): 110 µs pass without an accepted SAFETY flit on a skim link, which sets SAFETY_MISS for the link and counts towards partner Safety Island lost. -/
  | skimSafetyMiss (k : Fin 32)
  /-- PAIR_SYNC_REQUEST_RECEIVE (R690): A running module receives its joining partner's sync request and starts serving its state, models and feature rings from the next epoch window. -/
  | pairSyncRequestReceive
  deriving DecidableEq, Repr

end Sys2Proof
end

