-- ==== Sys2Proof/Decode.lean ====
section
/-!
DEFINITION. Decode.lean: the command that a word spells. spec/opcode_table.json gives no row any bits: the commands are events, messages and
register accesses, not words of a program. So no word spells a command.
-/
namespace Sys2Proof

/-- The command that a word spells: none, for the table gives no row bits. -/
def decodeTableWord (_nbits _w : Nat) : Option Instr := none

end Sys2Proof
end

