-- ==== Sys2Proof/Machine/AtuRegs.lean ====
section
/-!
DEFINITION. AtuRegs.lean: the ATU register map (R280), field types (R12), ownership (R281), status flags with their event
counters (R15, R16), resource claims (R286) and the SRAM pool (R287) of spec/07_atu_boundary.md.
-/
namespace Sys2Proof.Machine

/-! ### The register map -/

/-- Who may write a register's RW, RWO and WO fields (R281): a unit by its ATU_OWNER bit, the host alone, or either side. -/
inductive Owner where
  | bit (k : Nat)
  | hostOnly
  | anySide
  deriving DecidableEq, Repr

/-- The unit a register belongs to, for NOT_PRESENT (R7). -/
inductive Presence where
  | always | trace | log | evrec
  deriving DecidableEq, Repr

/-- One row of the register map: `count` registers from `base`, `stride` apart, with their field masks by type (R12). -/
structure RegRow where
  base   : Nat
  count  : Nat := 1
  stride : Nat := 4
  rw     : Nat := 0
  w1c    : Nat := 0
  wo     : Nat := 0
  rwo    : Nat := 0
  owner  : Owner := .anySide
  unit   : Presence := .always
  deriving DecidableEq, Repr

/-- Whether a row holds a register at an offset. -/
def RegRow.holds (r : RegRow) (off : Nat) : Bool :=
  decide (r.base ≤ off) && decide ((off - r.base) % r.stride = 0) && decide ((off - r.base) / r.stride < r.count)

def allBits : Nat := 0xFFFFFFFF

/-- Offsets 0x0000 to 0x0154: identity, ownership, reset, error log, boundary, stroke output, time. -/
def atuRowsA : List RegRow :=
  [{ base := 0x0000, count := 3 }, { base := 0x000C, rw := 0xFFFF, owner := .hostOnly },
   { base := 0x0010, wo := 0xFFFF }, { base := 0x0014, count := 2 }, { base := 0x0020, count := 4 },
   { base := 0x0030, w1c := 0xF }, { base := 0x0040, count := 4 },
   { base := 0x0050, rw := 0xFFFF0007, owner := .bit 15 },
   { base := 0x0100, count := 2 }, { base := 0x0108, w1c := 0x3F00 }, { base := 0x010C, count := 4 },
   { base := 0x0120, count := 5 }, { base := 0x0138, count := 2 }, { base := 0x0140, count := 6 }]

/-- The shadow registers and copies of channel n (R108). -/
def atuRowsChan (n : Nat) : List RegRow :=
  [{ base := 0x0500 + 0x20 * n, rw := 0x000FFF1F, owner := .bit n },
   { base := 0x0504 + 0x20 * n, rw := allBits, owner := .bit n },
   { base := 0x0508 + 0x20 * n, count := 6 },
   { base := 0x1000 + 0x200 * n, count := 128, rw := allBits, owner := .bit n }]

/-- Offsets 0x0400 to 0x0880 and 0x2000 to 0x21FC: snapshots, commits, frames, spill, resend, check scan, claims. -/
def atuRowsB : List RegRow :=
  [{ base := 0x0400, w1c := 0x1F }, { base := 0x0404 }, { base := 0x0440, count := 5 }, { base := 0x0480, count := 16 },
   { base := 0x0600, rw := allBits }, { base := 0x0604, rw := 0xFFFF }, { base := 0x0608, wo := 0x1FF },
   { base := 0x060C, count := 3 }, { base := 0x0700, wo := 0xFF }, { base := 0x0704, w1c := 0x1F },
   { base := 0x0708, count := 4, rw := allBits, owner := .hostOnly }, { base := 0x0718, rw := 0x11F, owner := .hostOnly },
   { base := 0x0720, count := 4 }, { base := 0x0740, count := 5 },
   { base := 0x0760, count := 2, stride := 8, rw := allBits, owner := .bit 14 },
   { base := 0x0764, count := 2, stride := 8, rw := 0xFFFF, owner := .bit 14 },
   { base := 0x0770, wo := 0x1FF, owner := .bit 14 }, { base := 0x0774 },
   { base := 0x0780, rw := 0x3, owner := .bit 13 }, { base := 0x0784, count := 3, rw := allBits, owner := .bit 13 },
   { base := 0x0790, wo := 0x3, owner := .bit 13 }, { base := 0x0794, count := 2, rw := allBits, owner := .bit 13 },
   { base := 0x079C, count := 3 }, { base := 0x0800, count := 8 }, { base := 0x0880 }, { base := 0x2000, count := 128 }]

/-- One masking range (offset 0x3200 + 0x40 m). -/
def atuRowsRange (m : Nat) : List RegRow :=
  [{ base := 0x3200 + 0x40 * m, count := 4, rw := allBits, owner := .bit 8, unit := .trace },
   { base := 0x3210 + 0x40 * m, rw := 0xFFFF0007, owner := .bit 8, unit := .trace },
   { base := 0x3214 + 0x40 * m, count := 4, rw := allBits, owner := .bit 8, unit := .trace }]

/-- One log pattern (offset 0x4000 + 0x80 k). -/
def atuRowsPattern (k : Nat) : List RegRow :=
  [{ base := 0x4000 + 0x80 * k, count := 16, rw := allBits, owner := .bit 9, unit := .log },
   { base := 0x4040 + 0x80 * k, rw := 0x7F, owner := .bit 9, unit := .log }, { base := 0x4044 + 0x80 * k, unit := .log }]

/-- Trace and log-matcher control (offsets 0x3000 to 0x384C). -/
def atuRowsC : List RegRow :=
  [{ base := 0x3000, rw := allBits, owner := .bit 8, unit := .trace }, { base := 0x3004, wo := 0x3, owner := .bit 8, unit := .trace },
   { base := 0x3008, w1c := 0x7F00, unit := .trace }, { base := 0x3010, rw := 0xFFFF0FFF, owner := .bit 8, unit := .trace },
   { base := 0x3014, rw := 0xFFFFFF, owner := .bit 8, unit := .trace },
   { base := 0x3018, rw := allBits, owner := .bit 8, unit := .trace }, { base := 0x301C, rw := 0xFFFF, owner := .bit 8, unit := .trace },
   { base := 0x3020, count := 2, rwo := allBits, owner := .hostOnly, unit := .trace },
   { base := 0x3028, count := 2, wo := allBits, unit := .trace }, { base := 0x3030, rw := allBits, unit := .trace },
   { base := 0x3034, rw := 0xFFFF, unit := .trace }, { base := 0x3040, count := 7, unit := .trace },
   { base := 0x3060, count := 2, rw := allBits, owner := .hostOnly, unit := .trace },
   { base := 0x3068, rw := 0x1F, owner := .hostOnly, unit := .trace }, { base := 0x3070, count := 2, unit := .trace },
   { base := 0x3100, count := 16, stride := 8, rw := 0x3F, owner := .bit 8, unit := .trace },
   { base := 0x3104, count := 16, stride := 8, unit := .trace },
   { base := 0x3800, rw := 0x3FFFF, owner := .bit 9, unit := .log },
   { base := 0x3804, count := 2, rw := allBits, owner := .hostOnly, unit := .log },
   { base := 0x380C, wo := 0x1FFFFFF, owner := .hostOnly, unit := .log }, { base := 0x3810, w1c := 0xF00, unit := .log },
   { base := 0x3814, unit := .log }, { base := 0x3840, count := 4, unit := .log }]

/-- One ageing site (offset 0x5100 + 0x40 k). -/
def atuRowsSite (k : Nat) : List RegRow :=
  [{ base := 0x5100 + 0x40 * k, rw := 0xC, owner := .bit 11 }, { base := 0x5104 + 0x40 * k, rw := 0xFFFF, owner := .bit 11 },
   { base := 0x5108 + 0x40 * k, rw := allBits, owner := .bit 11 }, { base := 0x510C + 0x40 * k, count := 2 },
   { base := 0x5114 + 0x40 * k, rw := 0xFFFFF, owner := .bit 11 },
   { base := 0x5118 + 0x40 * k, count := 8, rw := allBits, owner := .bit 11 }, { base := 0x5138 + 0x40 * k }]

/-- Ageing, sanding, event recorder, safety and die-port registers (offsets 0x5000 to 0x70FC). -/
def atuRowsD : List RegRow :=
  [{ base := 0x5000, rw := 0xFFFFFF01, owner := .bit 11 }, { base := 0x5004, rw := allBits, owner := .bit 11 },
   { base := 0x5008, w1c := 0x1F }, { base := 0x500C, count := 4 }, { base := 0x5040, count := 5 },
   { base := 0x5A00, rw := 0xFFFF, owner := .bit 10 }, { base := 0x5A04, count := 3, rw := allBits, owner := .bit 10 },
   { base := 0x5A10, w1c := 0x3F }, { base := 0x5A14, wo := allBits, owner := .bit 10 }, { base := 0x5A18 },
   { base := 0x5A40, count := 6 }, { base := 0x5A80, count := 64 },
   { base := 0x6000, rw := 0xFFFFFF0F, owner := .bit 12, unit := .evrec }, { base := 0x6004, w1c := 0xF00, unit := .evrec },
   { base := 0x6008, count := 2 }, { base := 0x6010, count := 2, unit := .evrec },
   { base := 0x6018, rw := 0xFFFF, unit := .evrec }, { base := 0x601C, unit := .evrec },
   { base := 0x6020, wo := 0x1, owner := .bit 12, unit := .evrec }, { base := 0x6024, count := 2, unit := .evrec },
   { base := 0x6040, count := 4, unit := .evrec },
   { base := 0x6080, count := 32, rw := allBits, owner := .hostOnly, unit := .evrec },
   { base := 0x6100, wo := 0x1FFF07, owner := .hostOnly, unit := .evrec },
   { base := 0x6800, w1c := 0x1FF0000 }, { base := 0x6804, count := 2 }, { base := 0x6840, count := 9 },
   { base := 0x7000, w1c := 0x1F00 }, { base := 0x7004, count := 7 }, { base := 0x7040, count := 5 },
   { base := 0x7080, w1c := 0x1F00 }, { base := 0x7084, count := 7 }, { base := 0x70C0, count := 5 }]

/-- The whole register map (R280). -/
def atuRows : List RegRow :=
  atuRowsA ++ atuRowsB ++ atuRowsC ++ atuRowsD ++ (List.range 8).flatMap atuRowsChan ++ (List.range 8).flatMap atuRowsRange ++
    (List.range 16).flatMap atuRowsPattern ++ (List.range 32).flatMap atuRowsSite

/-- The row that holds an offset; none where the offset is unmapped. -/
def atuRow (off : Nat) : Option RegRow := atuRows.find? (·.holds off)

/-! ### Reading and writing the register file -/

/-- The stored word of an ATU register. -/
def Atu.reg (a : Atu) (off : Nat) : Word := rget a.regs off

/-- Field [hi:lo] of an ATU register. -/
def Atu.fld (a : Atu) (off hi lo : Nat) : Nat := wfld (a.reg off) hi lo

/-- Bit `k` of an ATU register. -/
def Atu.bit (a : Atu) (off k : Nat) : Bool := wbit (a.reg off) k

/-- Store a word in an ATU register. -/
def Atu.setReg (a : Atu) (off : Nat) (v : Word) : Atu := { a with regs := rset a.regs off v }

/-- Store a number, modulo 2^32, in an ATU register. -/
def Atu.setRegN (a : Atu) (off v : Nat) : Atu := { a with regs := rsetN a.regs off v }

/-- Replace a field of an ATU register. -/
def Atu.setFld (a : Atu) (off hi lo v : Nat) : Atu := a.setReg off (wsetFld (a.reg off) hi lo v)

/-- Advance a counter register modulo 2^32. -/
def Atu.inc (a : Atu) (off n : Nat) : Atu := { a with regs := rinc a.regs off n }

/-- A field that saturates at its width. -/
def Atu.incFldSat (a : Atu) (off hi lo : Nat) : Atu :=
  let v := a.fld off hi lo
  if v + 1 < 2 ^ (hi + 1 - lo) then a.setFld off hi lo (v + 1) else a

/-! ### Status flags (R15, R16) -/

/-- A W1C status flag: its register, its bit and the offset of its event counter. -/
structure Flag where
  stat : Nat
  bit  : Nat
  ctr  : Nat
  deriving DecidableEq, Repr

/-- Hardware sets a flag: the bit is 1 and the event counter counts the event, saturating (R16). -/
def raiseFlag (f : Flag) (r : SMap Word) : SMap Word :=
  rincSat (rset r f.stat (rget r f.stat ||| BitVec.ofNat 32 (2 ^ f.bit))) f.ctr

def Atu.flag (a : Atu) (f : Flag) : Atu := { a with regs := raiseFlag f a.regs }

/-- ATU_BND_STATUS bits 0 to 3 (R289). -/
def bndFlag (k : Nat) : Flag := ⟨0x0030, k, 0x0040 + 4 * k⟩
/-- ATU_TIME_STATUS bits 8 to 13 (R79). -/
def timeFlag (k : Nat) : Flag := ⟨0x0108, k, 0x0140 + 4 * (k - 8)⟩
/-- ATU_SNAP_STATUS bits 0 to 4 (R120). -/
def snapFlag (k : Nat) : Flag := ⟨0x0400, k, 0x0440 + 4 * k⟩
/-- ATU_FRAME_STATUS bits 0 to 4 (R150). -/
def frameFlag (k : Nat) : Flag := ⟨0x0704, k, 0x0740 + 4 * k⟩
/-- ATU_TRC_STATUS bits 8 to 14 (R215). -/
def trcFlag (k : Nat) : Flag := ⟨0x3008, k, 0x3040 + 4 * (k - 8)⟩
/-- ATU_LOG_STATUS bits 8 to 11 (R215). -/
def logFlag (k : Nat) : Flag := ⟨0x3810, k, 0x3840 + 4 * (k - 8)⟩
/-- ATU_SAND_STATUS bits 0 to 5 (R242). -/
def sandFlag (k : Nat) : Flag := ⟨0x5A10, k, 0x5A40 + 4 * k⟩
/-- ATU_AGE_STATUS bits 0 to 4 (R259). -/
def ageFlag (k : Nat) : Flag := ⟨0x5008, k, 0x5040 + 4 * k⟩
/-- ATU_EVR_STATUS bits 8 to 11 (R258). -/
def evrFlag (k : Nat) : Flag := ⟨0x6004, k, 0x6040 + 4 * (k - 8)⟩
/-- ATU_SAFE_STATUS bits 16 to 24 (R698). -/
def safeFlag (k : Nat) : Flag := ⟨0x6800, k, 0x6840 + 4 * (k - 16)⟩

/-- Register base of a port: A at 0x7000, B at 0x7080. -/
def portBase (p : PortId) : Nat := match p with | .a => 0x7000 | .b => 0x7080
/-- ATU_DPx_STATUS bits 8 to 12 (R324). -/
def dpFlag (p : PortId) (k : Nat) : Flag := ⟨portBase p, k, portBase p + 0x40 + 4 * (k - 8)⟩

/-! ### Capabilities and identity -/

/-- ATU_CAPS fields (R8). -/
def Atu.traceSources (a : Atu) : Nat := a.fld 0x0004 24 20
def Atu.clkRegions (a : Atu) : Nat := a.fld 0x0004 19 15
def Atu.tapBlocks (a : Atu) : Nat := a.fld 0x0004 14 10
def Atu.hasPortB (a : Atu) : Bool := a.bit 0x0004 9
def Atu.hasEvr (a : Atu) : Bool := a.bit 0x0004 7
def Atu.hasCodec (a : Atu) : Bool := a.bit 0x0004 6
def Atu.hasLog (a : Atu) : Bool := a.bit 0x0004 5
def Atu.hasTrace (a : Atu) : Bool := a.bit 0x0004 4

/-- Whether the unit of a register is present (R7). -/
def Atu.present (a : Atu) (u : Presence) : Bool :=
  match u with
  | .always => true
  | .trace => a.hasTrace
  | .log => a.hasLog
  | .evrec => a.hasEvr

/-- Whether a side may write a register's owned fields (R281). -/
def Atu.mayWrite (a : Atu) (o : Owner) (s : Side) : Bool :=
  match o, s with
  | .anySide, _ => true
  | .hostOnly, .host => true
  | .hostOnly, .agg => false
  | .bit k, .host => !a.bit 0x000C k
  | .bit k, .agg => a.bit 0x000C k

/-- ATU_BND_STATUS.ID_INVALID: DIE_ID[5:0] is not 0 (R275). -/
def Atu.idInvalid (a : Atu) : Bool := a.bit 0x0030 8

/-! ### Resource claims and the SRAM pool (R286, R287) -/

/-- ATU_CLAIMk.HOLDER. -/
def Atu.claimHolder (a : Atu) (k : Nat) : Nat := a.fld (0x0800 + 4 * k) 7 0

def sideNat (s : Side) : Nat := match s with | .host => 0 | .agg => 1

/-- Write claim entry k. -/
def Atu.setClaim (a : Atu) (k holder index : Nat) (s : Side) : Atu :=
  a.setRegN (0x0800 + 4 * (k % 8)) (holder + 256 * index + 65536 * sideNat s)

/-- Free claim entry k. -/
def Atu.freeClaim (a : Atu) (k : Nat) : Atu := a.setRegN (0x0800 + 4 * (k % 8)) 0

/-- The lowest free DMA channel, as a claim entry 4 to 6. -/
def Atu.freeDma (a : Atu) : Option Nat := [4, 5, 6].find? fun k => a.claimHolder k = 0

/-- Free every DMA entry that a holder has. -/
def Atu.releaseDma (a : Atu) (holder : Nat) : Atu :=
  [4, 5, 6].foldl (fun a k => if a.claimHolder k = holder then a.freeClaim k else a) a

/-- Granules held by trace sources not OFF and by the log matcher (R287). -/
def Atu.poolTrace (a : Atu) : Nat :=
  ((List.range 16).filter fun n => a.fld (0x3100 + 8 * n) 2 0 ≠ 0).length + b2n (a.bit 0x3800 17)

/-- ATU_POOL.TOTAL (R287). -/
def Atu.poolTotal (a : Atu) : Nat := a.fld 0x0880 15 8

end Sys2Proof.Machine
end

