-- ==== Sys2Proof/Machine/Evr.lean ====
section
/-!
DEFINITION. Evr.lean: the event recorder of an ATU (R244 to R258 of spec/06_die_health.md): records, merging, the ring, flushes and
the load of the life counters.
-/
namespace Sys2Proof.Machine

/-- HT as records carry it: 0 while the time state is UNSET (R244). -/
def Atu.stampHt (a : Atu) : Nat := if a.time.state = .unset then 0 else a.time.ht

/-- ATU_EVR_LIFE_SECONDS (R249). -/
def Atu.life (a : Atu) : Nat := (a.reg 0x6008).toNat

/-- The bytes of a record (R244): header, DETAIL, zero padding to a multiple of 8, CRC-16 with its own bytes taken as 0. -/
def evrBytes (r : EvrRec) : List Byte :=
  let len := 4 + ceilDiv r.detail.length 8
  let head := leBytes 1 len ++ leBytes 1 r.typ ++ leBytes 1 r.sev ++ leBytes 1 r.source ++ leBytes 4 r.times ++
    leBytes 8 r.htFirst ++ leBytes 8 r.htLast ++ leBytes 4 r.seconds ++ zeros 2
  let body := padTo (8 * (len - 4)) r.detail
  head ++ leBytes 2 (crcOf crc16ccitt (head ++ zeros 2 ++ body)) ++ body

/-- Length of a record in bytes. -/
def evrLen (r : EvrRec) : Nat := 32 + 8 * ceilDiv r.detail.length 8

/-- Whether an event may be merged into record `r` (R246). -/
def evrMergeable (r : EvrRec) (typ sev source : Nat) (detail : List Byte) (ht repeatMs : Nat) : Bool :=
  decide (r.typ = typ ∧ r.sev = sev ∧ r.source = source ∧ r.detail = detail ∧ ht ≤ r.htLast + repeatMs * 1000000)

/-- Types whose events are never merged: POWER_ON, PWR_FAIL, FIT and HOST (R246). -/
def evrNeverMerged (typ : Nat) : Bool := decide (typ = 0x01 ∨ typ = 0x02 ∨ typ = 0x0B ∨ typ = 0x0D)

/-- Merge an event into the first mergeable record of a list whose newest record comes first. -/
def evrMerge (typ sev source : Nat) (detail : List Byte) (ht repeatMs : Nat) : Nat → List EvrRec → Option (EvrRec × List EvrRec)
  | 0, _ => none
  | _, [] => none
  | n + 1, r :: rs =>
    if evrMergeable r typ sev source detail ht repeatMs then
      let r' := { r with times := min 0xFFFFFFFF (r.times + 1), htLast := ht }
      some (r', r' :: rs)
    else
      match evrMerge typ sev source detail ht repeatMs n rs with
      | some (r', rs') => some (r', r :: rs')
      | none => none

/-- Drop oldest whole records until a record of `len` bytes at `wr` fits in the 65,536-byte ring; the count of those dropped. -/
def evrMakeRoom (wr len : Nat) : List EvrRec → Nat × List EvrRec
  | [] => (0, [])
  | r :: rs =>
    if r.pos + 65536 < wr + len then
      let (n, rest) := evrMakeRoom wr len rs
      (n + 1, rest)
    else (0, r :: rs)

/-- Raise a flag once per occurrence. -/
def Atu.flagTimes (a : Atu) (f : Flag) : Nat → Atu
  | 0 => a
  | n + 1 => (a.flag f).flagTimes f n

/-- ATU_EVR_OVERWRITTEN, saturating (R247). -/
def Atu.addOverwritten (a : Atu) (n : Nat) : Atu :=
  a.setRegN 0x6024 (min 0xFFFFFFFF ((a.reg 0x6024).toNat + n))

/-- Append a record to the ring (R247), or drop it when it needs bytes that the flush in progress still holds (R254). -/
def Atu.evrAppend (a : Atu) (r : EvrRec) : Atu :=
  let len := evrLen r
  let blocked := match a.evr.flush with
    | some f => decide (f.start + 65536 < a.evr.wr + len)
    | none => false
  if blocked then a.flag (evrFlag 11)
  else
    let (n, kept) := evrMakeRoom a.evr.wr len a.evr.recs
    let e := { a.evr with
      ring := ringWrite a.evr.ring 0 65536 a.evr.wr (evrBytes r)
      recs := kept ++ [r]
      wr := a.evr.wr + len
      faultDue := a.evr.faultDue || decide (a.fld 0x6000 3 1 ≤ r.sev ∧ a.fld 0x6000 3 1 < 5) }
    ((({ a with evr := e }).addOverwritten n).flagTimes (evrFlag 10) n)

/-- An event that the event recorder records (R245), merged by R246 where it may be. It makes nothing while the recorder is
absent, disabled or frozen. -/
def Atu.event (a : Atu) (typ sev source : Nat) (detail : List Byte) : Atu :=
  if !a.hasEvr || !a.bit 0x6000 0 || a.bit 0x6004 0 then a
  else
    let ht := a.stampHt
    let merged := if evrNeverMerged typ then none
      else evrMerge typ sev source detail ht (a.fld 0x6000 31 16) 8 a.evr.recs.reverse
    match merged with
    | some (r, rs) =>
      { a with evr := { a.evr with recs := rs.reverse, ring := ringWrite a.evr.ring 0 65536 r.pos (evrBytes r) } }
    | none => a.evrAppend ⟨a.evr.wr, typ, sev, source, 1, ht, ht, a.life, detail⟩

/-- The TIME_STATE record of a new time state, with the offset of the last beat (R245). -/
def Atu.timeStateEvent (a : Atu) (t : TimeState) (off : Int) : Atu :=
  a.event 0x04 1 0 (leBytes 1 (timeStateCode t) ++ zeros 3 ++ leBytes 4 (twos 32 (saturateSigned 32 off)))

/-- The SNAP_FAULT record (R245). -/
def Atu.snapFaultEvent (a : Atu) : Atu :=
  a.event 0x05 2 0 (leBytes 1 (a.fld 0x0400 1 0) ++ zeros 1 ++ leBytes 2 (a.fld 0x0404 15 0) ++ zeros 4)

/-! ### Flushes (R251 to R257) -/

/-- Enabled ageing sites: ENABLE of a built site. -/
def Atu.siteEnabled (a : Atu) (k : Nat) : Bool := a.bit (0x5100 + 0x40 * k) 3 && decide (a.fld (0x5100 + 0x40 * k) 1 0 ≠ 0)

/-- The FIT record of a site (R245). -/
def Atu.fitEvent (a : Atu) (k : Nat) : Atu :=
  let b := 0x5100 + 0x40 * k
  a.event 0x0B 0 k (leBytes 4 (a.fld (b + 0x14) 19 0) ++ zeros 4 ++
    leBytes 8 (rget64 a.regs (b + 0x18)) ++ leBytes 8 (rget64 a.regs (b + 0x20)) ++
    leBytes 8 (rget64 a.regs (b + 0x28)) ++ leBytes 8 (rget64 a.regs (b + 0x30)))

/-- One FIT record for each enabled site (R253). -/
def Atu.fitEvents (a : Atu) : Atu :=
  (List.range 32).foldl (fun a k => if a.siteEnabled k then a.fitEvent k else a) a

/-- Offset of an image slot in the non-volatile store (R256). -/
def nvSlot (k : Nat) : Nat := if k = 0 then 0 else 0x11000

/-- Whether a slot holds a valid image: magic, length and CRC-32C (R250, R256). -/
def nvValid (nv : SMap Byte) (k : Nat) : Bool :=
  let base := nvSlot k
  let h := mread nv base 64
  let n := leAt h 28 4
  decide (h.getD 0 0 = 0xA7) && decide (n ≤ 65536) &&
    decide (leAt h 60 4 = crcOf crc32c (h.take 60 ++ mread nv (base + 64) n))

/-- The slot with the valid image of the higher IMAGE_SEQ (R250). -/
def nvNewest (nv : SMap Byte) : Option Nat :=
  let seq k := mreadNat nv (nvSlot k + 4) 4
  match nvValid nv 0, nvValid nv 1 with
  | true, true => some (if seq 1 > seq 0 then 1 else 0)
  | true, false => some 0
  | false, true => some 1
  | false, false => none

/-- LIFE_SECONDS takes another value: every sanding time keeps the time it had left, and every interval of operating time what has passed of
it (R224). -/
def Atu.lifeMove (a : Atu) (v : Nat) : Atu :=
  let d : Int := (v : Int) - (a.life : Int)
  let mv (t : Int) : Int := t + d
  let core (c : SandCore) : SandCore :=
    { c with dueSec := mv c.dueSec, lastPass := c.lastPass.map mv, enabledAt := mv c.enabledAt, retestAt := c.retestAt.map mv }
  { a with age := { a.age with lastMeas := mv a.age.lastMeas, lastFit := mv a.age.lastFit, lastRecoat := mv a.age.lastRecoat },
           sand := Vector.ofFn fun (n : Fin 16) => core a.sand[n], regs := rsetN a.regs 0x6008 v }

/-- The load of the life counters after a power-on reset (R250). -/
def Atu.evrLoad (a : Atu) : Atu :=
  if !a.hasEvr || a.evr.loaded then a
  else
    let a := match nvNewest a.evr.nv with
      | some k =>
        let b := nvSlot k
        let a := a.lifeMove (mreadNat a.evr.nv (b + 8) 4)
        let a := a.setRegN 0x600C (min 0xFFFFFFFF (mreadNat a.evr.nv (b + 12) 4 + 1))
        let a := a.setRegN 0x6028 (mreadNat a.evr.nv (b + 4) 4)
        { a with evr := { a.evr with slot := k, loaded := true } }
      | none =>
        let a := ((a.lifeMove 0).setRegN 0x600C 1).setFld 0x6004 2 2 1
        { a with evr := { a.evr with loaded := true } }
    a.event 0x01 0 0 (leBytes 4 a.life ++ leBytes 4 (a.reg 0x600C).toNat ++ leBytes 1 (a.fld 0x6004 2 2) ++ zeros 7)

/-- Start a flush of the ring as it stands, after the FIT records of R253. A flush that starts before the load of R250 is complete waits for it, since
only the load tells which slot the last completed image occupies (DESIGN CHOICE, notes/assumptions/120.md). -/
def Atu.startFlush (a : Atu) (reason : Nat) : Atu :=
  let a := { a.evrLoad with evr := { a.evrLoad.evr with flush := none } }.fitEvents
  let start := match a.evr.recs with | r :: _ => r.pos | [] => a.evr.wr
  let f : EvrFlush := ⟨reason, 1 - a.evr.slot, start, ringRead a.evr.ring 0 65536 start (a.evr.wr - start), a.stampHt, a.time.elapsed⟩
  ({ a with evr := { a.evr with flush := some f, faultDue := false } }).setFld 0x6004 1 1 1

/-- The 64-byte image header (R256). -/
def Atu.flushHeader (a : Atu) (f : EvrFlush) : List Byte :=
  let h := leBytes 1 0xA7 ++ leBytes 1 1 ++ leBytes 1 f.reason ++ zeros 1 ++ leBytes 4 ((a.reg 0x6028).toNat + 1) ++
    leBytes 4 a.life ++ leBytes 4 (a.reg 0x600C).toNat ++ leBytes 8 f.ht ++ leBytes 4 (a.reg 0x0008).toNat ++
    leBytes 4 f.body.length ++ leBytes 4 (a.reg 0x6024).toNat ++ zeros 24
  h ++ leBytes 4 (crcOf crc32c (h ++ f.body))

/-- A flush fails, or is unfinished when the hold-up ends: its slot keeps no valid image (R257). -/
def Atu.flushErr (a : Atu) : Atu :=
  match a.evr.flush with
  | none => a
  | some f =>
    let a := { a with evr := { a.evr with nv := mwrite a.evr.nv (nvSlot f.slot) (zeros 64), flush := none, lastEnd := some a.time.elapsed } }
    (a.setFld 0x6004 1 1 0).flag (evrFlag 9)

/-- The hold-up of 2 ms has ended for a power-fail flush (R257 step 6). -/
def Atu.holdUpOver (a : Atu) (f : EvrFlush) : Bool :=
  decide (f.reason = 1) && (match a.evr.failAt with | some t => decide (t + 2000000 ≤ a.time.elapsed) | none => false)

/-- A flush completes: its records, and last its header, are in the store (R253, R257). A power-fail flush that is unfinished when the hold-up ends
fails. -/
def Atu.flushDone (a : Atu) : Atu :=
  match a.evr.flush with
  | none => a
  | some f =>
    if a.holdUpOver f then a.flushErr
    else
      let base := nvSlot f.slot
      let nv := mwrite (mwrite a.evr.nv (base + 64) f.body) base (a.flushHeader f)
      let a := { a with evr := { a.evr with nv := nv, flush := none, slot := f.slot, lastEnd := some a.time.elapsed } }
      ((a.setRegN 0x6028 ((a.reg 0x6028).toNat + 1)).setFld 0x6004 1 1 0).flag (evrFlag 8)

/-- A fault flush may start: asked for, none running, and FLUSH_MIN_S passed since the end of the previous one (R252). -/
def Atu.faultFlushReady (a : Atu) : Bool :=
  a.evr.faultDue && a.evr.flush.isNone && !a.bit 0x6004 0 &&
    (match a.evr.lastEnd with | none => true | some t => decide (t + 1000000000 * a.fld 0x6000 15 8 ≤ a.time.elapsed))

/-- One operating second (R249). -/
def Atu.lifeTick (a : Atu) : Atu := { a with regs := rincSat a.regs 0x6008 }

/-- PWR_FAIL_N asserts (R255): the PWR_FAIL and FIT records, the freeze, and the power-fail flush at once. Where the recorder
is disabled or absent no record is made. -/
def Atu.evrPowerFail (a : Atu) : Atu :=
  if !a.hasEvr then a
  else
    let a := { a with evr := { a.evr with flush := none, failAt := some a.time.elapsed } }
    ((a.event 0x02 1 0 []).startFlush 1).setFld 0x6004 0 0 1

/-- A read of ATU_EVR_RD_DATA: the 4 ring bytes at the reader's own RD_POS (R247, R283). -/
def Atu.evrRdData (a : Atu) (pos : Nat) : Word := BitVec.ofNat 32 (leNat (ringRead a.evr.ring 0 65536 pos 4))

/-- HOST record (R248). -/
def Atu.hostRecord (a : Atu) (v : Word) : Atu :=
  let len := wfld v 20 16
  a.event 0x0D (wfld v 2 0) (wfld v 15 8)
    ((List.range (8 * (len - 4))).map fun i => BitVec.ofNat 8 (wfld (a.reg (0x6080 + 4 * (i / 4))) (8 * (i % 4) + 7) (8 * (i % 4))))

end Sys2Proof.Machine
end

