-- ==== Sys2Proof/Machine/AggRegs.lean ====
section
/-!
DEFINITION. AggRegs.lean: registers, flags, memory and logs of the aggregator: the named operations every aggregator unit uses.
-/
namespace Sys2Proof.Machine

/-! ### Registers and flags -/

def Agg.reg (g : Agg) (off : Nat) : Word := rget g.regs off
def Agg.fld (g : Agg) (off hi lo : Nat) : Nat := wfld (g.reg off) hi lo
def Agg.bit (g : Agg) (off k : Nat) : Bool := wbit (g.reg off) k
def Agg.setReg (g : Agg) (off : Nat) (v : Word) : Agg := { g with regs := rset g.regs off v }
def Agg.setRegN (g : Agg) (off v : Nat) : Agg := { g with regs := rsetN g.regs off v }
def Agg.setReg64 (g : Agg) (off v : Nat) : Agg := { g with regs := rset64 g.regs off v }
def Agg.setFld (g : Agg) (off hi lo v : Nat) : Agg := g.setReg off (wsetFld (g.reg off) hi lo v)
def Agg.setBit (g : Agg) (off k : Nat) (b : Bool) : Agg := g.setFld off k k (b2n b)
/-- A counter register modulo 2^32. -/
def Agg.inc (g : Agg) (off n : Nat) : Agg := { g with regs := rinc g.regs off n }
/-- A counter field that saturates. -/
def Agg.incFldSat (g : Agg) (off hi lo : Nat) : Agg :=
  if g.fld off hi lo = 2 ^ (hi + 1 - lo) - 1 then g else g.setFld off hi lo (g.fld off hi lo + 1)

/-- A W1C flag is set by hardware and its event counter advances (R16). -/
def Agg.flag (g : Agg) (f : Flag) : Agg := { g with regs := raiseFlag f g.regs }

/-- AGG_TIME_STATUS bits 16 to 21 (R81). -/
def tmFlag (k : Nat) : Flag := ⟨0x1000, k, 0x1040 + 4 * (k - 16)⟩
/-- Base of the registers of a die port and of a skim link (ports 0 to 63, links 0 to 31). -/
def dportBase (p : Nat) : Nat := 0x20000 + 0x100 * (p % 64)
def sklinkBase (k : Nat) : Nat := 0x30000 + 0x100 * (k % 32)
/-- AGG_DPORTp_STATUS and AGG_SKLINKk_STATUS bits 8 to 13 (R325). -/
def dportFlag (p k : Nat) : Flag := ⟨dportBase p, k, dportBase p + 0x40 + 4 * (k - 8)⟩
def sklinkFlag (l k : Nat) : Flag := ⟨sklinkBase l, k, sklinkBase l + 0x40 + 4 * (k - 8)⟩
/-- AGG_TC_STATUS (R358). -/
def tcFlag (k : Nat) : Flag := ⟨0x40088, k, 0x400C0 + 4 * k⟩
/-- AGG_SKIM_STATUS (R400), AGG_STN_STATUS (R449), AGG_STENCIL_STATUS (R480), AGG_LEVEL_STATUS (R518), AGG_MBX_STATUS (R567),
AGG_JOB_STATUS (R602), AGG_AP_STATUS (R635), AGG_PWR_STATUS (R665). -/
def skimFlag (k : Nat) : Flag := ⟨0x50000, k, 0x50040 + 4 * k⟩
def stnFlag (k : Nat) : Flag := ⟨0x60010, k, 0x60040 + 4 * k⟩
def stencilFlag (k : Nat) : Flag := ⟨0x70000, k, 0x70040 + 4 * k⟩
def levelFlag (k : Nat) : Flag := ⟨0x80000, k, 0x80040 + 4 * k⟩
def mbxFlag (k : Nat) : Flag := ⟨0x90000, k, 0x90040 + 4 * k⟩
def jobFlag (k : Nat) : Flag := ⟨0xA0000, k, 0xA0040 + 4 * k⟩
def apFlag (k : Nat) : Flag := ⟨0xB0000, k, 0xB0040 + 4 * k⟩
def pwrFlag (k : Nat) : Flag := ⟨0xC0000, k, 0xC0040 + 4 * k⟩
/-- AGG_SAFE_STATUS (R699). -/
def asafeFlag (k : Nat) : Flag := ⟨0xD0004, k, 0xD0040 + 4 * k⟩
/-- AGG_BOOT_STATUS bits 16 to 21 (R722). -/
def bootFlag (k : Nat) : Flag := ⟨0xE0000, k, 0xE0040 + 4 * (k - 16)⟩
/-- AGG_MBXn_STATUS bits 0 to 2 (R567). -/
def ringRegion (n : Nat) : Nat := 0x20000000 + 0x10000 * (n % 17)
def ringFlag (n k : Nat) : Flag := ⟨ringRegion n + 0x4014, k, ringRegion n + 0x4040 + 4 * k⟩

/-! ### Indexed parts -/

def Agg.modPort (g : Agg) (p : Nat) (f : DiePort → DiePort) : Agg :=
  if h : p < 64 then { g with ports := g.ports.set p (f g.ports[p]) } else g
def Agg.port (g : Agg) (p : Nat) : DiePort := if h : p < 64 then g.ports[p] else {}
def Agg.modLink (g : Agg) (k : Nat) (f : SkimLink → SkimLink) : Agg :=
  if h : k < 32 then { g with links := g.links.set k (f g.links[k]) } else g
def Agg.link (g : Agg) (k : Nat) : SkimLink := if h : k < 32 then g.links[k] else {}
def Agg.ring (g : Agg) (n : Nat) : Ring := if h : n < 17 then g.mbx.rings[n] else {}
def Agg.modRing (g : Agg) (n : Nat) (f : Ring → Ring) : Agg :=
  if h : n < 17 then { g with mbx := { g.mbx with rings := g.mbx.rings.set n (f g.mbx.rings[n]) } } else g
/-- Job context n, 1 to 16. -/
def Agg.job (g : Agg) (n : Nat) : Job := if h : n - 1 < 16 then g.jobs.jobs[n - 1] else {}
def Agg.modJob (g : Agg) (n : Nat) (f : Job → Job) : Agg :=
  if n = 0 then g
  else if h : n - 1 < 16 then { g with jobs := { g.jobs with jobs := g.jobs.jobs.set (n - 1) (f g.jobs.jobs[n - 1]) } } else g

/-- HT and the time that has passed since reset. -/
def Agg.ht (g : Agg) : Nat := g.time.ht
def Agg.now (g : Agg) : Nat := g.time.elapsed

/-- AGG_CAPS fields (R9). -/
def Agg.isT (g : Agg) : Bool := decide (g.fld 0x10 31 28 = 2)
def Agg.trowels (g : Agg) : Nat := g.fld 0x10 27 23
def Agg.floats (g : Agg) : Nat := g.fld 0x10 22 18
def Agg.hasHbm (g : Agg) : Bool := g.bit 0x10 17
def Agg.skimLinks (g : Agg) : Nat := g.fld 0x10 15 10

/-- A die port is in service: only in UP (R304). -/
def Agg.portUp (g : Agg) (p : Nat) : Bool := decide ((g.port p).link.state = .up)

/-- The module has power. -/
def Agg.powered (g : Agg) : Bool := decide (g.boot.core ≠ .off)

/-! ### Counters (R553, R554) -/

/-- Add to counter k of a job context's block. -/
def Agg.count (g : Agg) (ctx k n : Nat) : Agg :=
  g.modJob ctx fun j => { j with counters := sset 0 j.counters k ((sget 0 j.counters k + n) % 2 ^ 64) }

/-- Add to chip counter k. -/
def Agg.countChip (g : Agg) (k n : Nat) : Agg := { g with chip := sset 0 g.chip k ((sget 0 g.chip k + n) % 2 ^ 64) }

/-! ### Event log (R560, R697) -/

/-- Keep the newest records that fit in 256 KiB. -/
def trimLog (limit : Nat) (rs : List EvrRec) : List EvrRec :=
  let used := (rs.map evrLen).foldl (· + ·) 0
  match rs with
  | [] => []
  | _ :: t => if used ≤ limit then rs else trimLog limit t

/-- The core region runs (R683). -/
def Agg.coreRuns (g : Agg) : Bool := decide (g.boot.core = .primer ∨ g.boot.core = .fw ∨ g.boot.core = .halted)

/-- The firmware runs and the Control Processor admits commands (R519, R752). -/
def Agg.fwRuns (g : Agg) : Bool := decide (g.boot.core = .fw)

/-- The Control Processor stalls: it writes a heartbeat every 1 ms, and the next one is overdue (R519, R683). -/
def Agg.cpStalled (g : Agg) : Bool :=
  g.fwRuns && (match g.boot.heartbeat with | some t => decide (t + 1000000 < g.now) | none => false)

/-- The Control Processor admits, executes and completes commands (R519, R752). -/
def Agg.admits (g : Agg) : Bool := g.fwRuns && !g.cpStalled

/-- The firmware has sent its first heartbeat, so that the links carry more than SAFETY flits (R705). -/
def Agg.linksLive (g : Agg) : Bool := g.fwRuns && g.boot.heartbeat.isSome

/-- Make a record in the event log, while the core region runs (R697). -/
def Agg.event (g : Agg) (typ sev source : Nat) (detail : List Byte) : Agg :=
  if !g.coreRuns then g else
  let r : EvrRec := ⟨g.elog.next, typ, sev, source, 1, g.ht, g.ht, (g.reg 0xC0024).toNat, detail⟩
  { g with elog := { recs := trimLog 262144 (g.elog.recs ++ [r]), next := g.elog.next + 1 } }

/-! ### Memory areas (R2, R3, R608) -/

/-- Hawk SRAM and HBM that the variant builds, as (base, end). -/
def Agg.builtMem (g : Agg) : List (Nat × Nat) :=
  (0x40000000, 0x4A000000) :: (if g.hasHbm then [(0x1000000000, 0x1900000000)] else [])

/-- Bytes that the verdict records of one window of a job take (R630). -/
def Job.recordBytes (j : Job) : Nat := 64 * ceilDiv (40 * j.dies.length) 64

/-- The ranges of a job context. Without an HBM area, the top of its Hawk area holds its verdict records, and no command of the job
touches them (R634). -/
def Agg.jobAreas (g : Agg) (n : Nat) : List (Nat × Nat) :=
  let j := g.job n
  let keep := if j.hbm.len = 0 then 64 * j.recordBytes else 0
  (if j.hawk.len = 0 then [] else [(j.hawk.base, j.hawk.base + j.hawk.len - keep)]) ++
  (if j.hbm.len = 0 then [] else [(j.hbm.base, j.hbm.base + j.hbm.len)])

/-- The caller's windows of a command (R608). -/
def Agg.windowsOf (g : Agg) (ring : Nat) : List (Nat × Nat) :=
  if ring = 0 then
    (0x40000000, if g.isT then 0x48400000 else 0x48800000) :: (if g.hasHbm then [(0x1000000000, 0x18C0000000)] else [])
  else g.jobAreas ring

/-- The lowest address of [a, e) that lies in none of the areas. -/
def firstGap (areas : List (Nat × Nat)) (e : Nat) : Nat → Nat → Option Nat
  | 0, a => if a < e then some a else none
  | k + 1, a =>
    if e ≤ a then none
    else match areas.find? fun r => decide (r.1 ≤ a ∧ a < r.2) with
      | some r => firstGap areas e k r.2
      | none => some a

/-- The lowest address of a range that lies outside the caller's windows (R535, R608). -/
def Agg.outside (g : Agg) (ring base len : Nat) : Option Nat :=
  let w := g.windowsOf ring
  firstGap w (base + len) (w.length + 1) base

/-- The first failing address of several ranges: the lowest of the first range that fails. -/
def Agg.outsideAll (g : Agg) (ring : Nat) : List (Nat × Nat) → Option Nat
  | [] => none
  | (b, n) :: t => match g.outside ring b n with | some a => some a | none => g.outsideAll ring t

def Agg.read (g : Agg) (a n : Nat) : List Byte := mread g.mem a n
def Agg.readNat (g : Agg) (a n : Nat) : Nat := mreadNat g.mem a n
def Agg.write (g : Agg) (a : Nat) (bs : List Byte) : Agg := { g with mem := mwrite g.mem a bs }

/-- Something leaves the module. -/
def Agg.send (g : Agg) (o : Out) : Agg := { g with outbox := g.outbox ++ [o] }

end Sys2Proof.Machine
end

