-- ==== Sys2Proof/Machine/Sha256.lean ====
section
/-!
DEFINITION. Sha256.lean: SHA-256 and HMAC-SHA-256, which mailbox datagrams (R527), quorum tokens (R504), firmware images (R713) and KEY_DIGEST
(R709) use. The spec names the functions; their definitions are the published standards' (FIPS 180-4 and RFC 2104;
notes/assumptions/40.md).
-/
namespace Sys2Proof.Machine

/-! ### The constants, computed from the primes that define them -/

/-- The largest r below r0 + 2^bits with r^k at most n, r0 being one such. -/
def rootBits (k n : Nat) : Nat → Nat → Nat
  | 0, r => r
  | bits + 1, r => rootBits k n bits (if (r + 2 ^ bits) ^ k ≤ n then r + 2 ^ bits else r)

/-- The first 32 bits of the fractional part of the k-th root of p. -/
def rootFraction (k p : Nat) : Word := BitVec.ofNat 32 (rootBits k (p * 2 ^ (32 * k)) 37 0)

/-- The primes below 312: there are 64. -/
def shaPrimes : List Nat := ((List.range 312).drop 2).filter fun p => ((List.range 18).drop 2).all fun d => decide (p ≤ d ∨ p % d ≠ 0)

/-- One constant per round: from cube roots. -/
def shaRoundConsts : List Word := shaPrimes.map (rootFraction 3)
/-- The chaining value at the start: from square roots of the first eight primes. -/
def shaStart : List Word := (shaPrimes.take 8).map (rootFraction 2)

/-! ### Compression -/

/-- Exclusive or of three rotations. -/
def rot3 (i j k : Nat) (x : Word) : Word := x.rotateRight i ^^^ x.rotateRight j ^^^ x.rotateRight k
/-- Exclusive or of two rotations and a shift. -/
def rot2 (i j s : Nat) (x : Word) : Word := x.rotateRight i ^^^ x.rotateRight j ^^^ (x >>> s)

/-- One round: the eight working words, and the sixteen schedule words that come next. The schedule slides along by one word. -/
def shaTurn (x : List Word × List Word) (k : Word) : List Word × List Word :=
  match x.1, x.2 with
  | [p, q, r, s, t, u, v, y], m :: ms =>
    let sum := y + rot3 6 11 25 t + ((t &&& u) ||| (~~~t &&& v)) + k + m
    let major := (p &&& q) ||| (r &&& (p ||| q))
    let next := m + rot2 7 18 3 (ms.getD 0 0) + ms.getD 8 0 + rot2 17 19 10 (ms.getD 13 0)
    ([sum + rot3 2 13 22 p + major, p, q, r, s + sum, t, u, v], ms ++ [next])
  | _, _ => x

/-- `n` big-endian bytes. -/
def beBytes (n v : Nat) : List Byte := (leBytes n v).reverse

/-- The sixteen big-endian words of a block. -/
def blockWords (blk : List Byte) : List Word := (List.range 16).map fun i => BitVec.ofNat 32 (leNat (bytesAt blk (4 * i) 4).reverse)

/-- The chaining value after a block. -/
def shaAbsorb (chain : List Word) (blk : List Byte) : List Word :=
  List.zipWith (· + ·) chain (shaRoundConsts.foldl shaTurn (chain, blockWords blk)).1

/-- SHA-256 of a byte string: it is padded with 0x80, zeros and its length in bits to whole blocks of 64 bytes. -/
def sha256 (bs : List Byte) : List Byte :=
  let m := bs ++ (0x80 : Byte) :: zeros ((119 - bs.length % 64) % 64) ++ beBytes 8 (8 * bs.length)
  ((List.range (m.length / 64)).foldl (fun chain i => shaAbsorb chain (bytesAt m (64 * i) 64)) shaStart).flatMap fun w => beBytes 4 w.toNat

/-- HMAC-SHA-256 with a key of at most 64 bytes. -/
def hmacSha256 (key msg : List Byte) : List Byte :=
  let pad (b : Byte) : List Byte := (padTo 64 key).map (· ^^^ b)
  sha256 (pad 0x5c ++ sha256 (pad 0x36 ++ msg))

end Sys2Proof.Machine
end

