-- ==== Sys2Proof/Machine/MbxCore.lean ====
section
/-!
DEFINITION. MbxCore.lean: completions, refusals and the violation log: R519 to R548 of spec/14_mailboxes.md. Every command of a ring
ends through `Agg.complete` or `Agg.refuse`.
-/
namespace Sys2Proof.Machine

/-! ### Packing (R533, R534) -/

/-- Bytes that a parameter or result of a width takes (R533). -/
def fieldBytes (w : Nat) : Nat := if w ≤ 8 then 1 else if w ≤ 16 then 2 else if w ≤ 32 then 4 else if w ≤ 48 then 6 else if w ≤ 64 then 8 else 16

/-- Results packed in the order of their table: width and value (R533). -/
def packFields (l : List (Nat × Nat)) : List Byte := l.flatMap fun f => leBytes (fieldBytes f.1) f.2

/-- Further slots of a completion with this many result bytes (R534). -/
def furtherSlots (n : Nat) : Nat := min 3 (ceilDiv (n - 20) 28)

/-- The first slot of a completion (R534). -/
def firstSlot (tag status op sq cflags ring : Nat) (res : List Byte) : List Byte :=
  withCrc crc32c (leBytes 2 tag ++ leBytes 1 status ++ leBytes 1 op ++ leBytes 2 sq ++ leBytes 1 cflags ++ leBytes 1 ring ++ padTo 20 res)

/-- The slots of a completion (R534). -/
def complSlots (tag status op sq ring : Nat) (res : List Byte) : List (List Byte) :=
  let k := furtherSlots res.length
  firstSlot tag status op sq k ring res ::
    (List.range k).map fun i => withCrc crc32c (padTo 28 (bytesAt res (20 + 28 * i) 28))

/-! ### Queue pairs as requester (R525, R605) -/

def Agg.qp (g : Agg) (qpn : Nat) : Option Qp := sget none g.ap.qps qpn
def Agg.setQp (g : Agg) (qpn : Nat) (q : Qp) : Agg := { g with ap := { g.ap with qps := sset none g.ap.qps qpn (some q) } }

/-- Registers of an analysis port (R635), and SENT of one of its egress queues (R351, R358). -/
def apBase (port : Nat) : Nat := 0xB0100 + 0x80 * (port % 2)
def apSent (port cls : Nat) : Nat := 0x43008 + 0x100 * (port % 2) + 0x20 * (cls % 8)

/-- Bytes queued. -/
def ApQueue.depth (q : ApQueue) : Nat := (q.queue.map Roce.size).sum

/-- A packet joins its queue. -/
def ApQueue.join (now : Nat) (x : Roce) (q : ApQueue) : ApQueue :=
  { q with queue := q.queue ++ [x], headAt := if q.queue.isEmpty then now else q.headAt }

/-- One of the eight queues. -/
def Egress.of (e : Egress) (c : Nat) : ApQueue := if h : c < 8 then e.queues[c] else {}
def Egress.modQueue (e : Egress) (c : Nat) (f : ApQueue → ApQueue) : Egress := if h : c < 8 then { e with queues := e.queues.set c (f e.queues[c]) } else e

/-- Bytes in the port's egress buffer. -/
def Egress.depth (e : Egress) : Nat := ((List.range 8).map fun c => (e.of c).depth).sum

/-- There is room in the 2 MiB buffer (R348). -/
def Egress.fits (e : Egress) (x : Roce) : Bool := decide (e.depth + x.size ≤ 2 ^ 21)

/-- A packet of a class is queued, or held back while the buffer is full or earlier packets of its class are held back (R349). -/
def Egress.put (now c : Nat) (x : Roce) (e : Egress) : Egress :=
  if (e.held.any fun h => decide (h.1 = c)) || !e.fits x then { e with held := e.held ++ [(c, x)] } else e.modQueue c (·.join now x)

def Agg.egress (g : Agg) (port : Nat) : Egress := if port % 2 = 0 then g.ap.egress0 else g.ap.egress1
def Agg.modEgress (g : Agg) (port : Nat) (f : Egress → Egress) : Agg :=
  { g with ap := if port % 2 = 0 then { g.ap with egress0 := f g.ap.egress0 } else { g.ap with egress1 := f g.ap.egress1 } }

/-- A packet of a class is to leave on an analysis port (R348). -/
def Agg.sendAp (g : Agg) (port cls : Nat) (x : Roce) : Agg := g.modEgress port (·.put g.now cls x)

def Agg.parked (g : Agg) (port : Nat) : List RocePkt := if port = 0 then g.ap.parked0 else g.ap.parked1
def Agg.setParked (g : Agg) (port : Nat) (l : List RocePkt) : Agg :=
  { g with ap := if port = 0 then { g.ap with parked0 := l } else { g.ap with parked1 := l } }

/-- Packets parked for a queue pair are lost (R623). -/
def Agg.loseParked (g : Agg) (qpn : Nat) : Agg :=
  let lose (g : Agg) (port : Nat) : Agg :=
    let l := (g.parked port).filter fun p => decide (p.qpn = qpn)
    if l.isEmpty then g else (((g.setParked port ((g.parked port).filter fun p => decide (p.qpn ≠ qpn))).inc (apBase port + 0x10) l.length).flag (apFlag 2))
  lose (lose g 0) 1

/-- The aggregator sends an RDMA WRITE or a SEND on a queue pair and waits for its ACK (R605). On a queue pair that is missing or in
ERROR nothing is sent (R619). -/
def Agg.push (g : Agg) (qpn va rkey : Nat) (bytes : List Byte) (send : Bool) : Agg :=
  match g.qp qpn with
  | none => g
  | some q =>
    if q.error then g
    else
      let q' := { q with sqPsn := (q.sqPsn + 1) % 2 ^ 24, unacked := q.unacked ++ [⟨q.sqPsn, va, rkey, bytes, send⟩],
                         sentAt := if q.unacked.isEmpty then g.now else q.sentAt,
                         tries := if q.unacked.isEmpty then 0 else q.tries }
      (g.setQp qpn q').sendAp q.port (if send then 7 else 3)
        (if send then .rdmaSend qpn q.sqPsn bytes else .rdmaWrite qpn q.sqPsn va rkey bytes)

/-! ### Datagrams (R527) -/

/-- A mailbox datagram with its MAC (R527). -/
def mbxDatagram (key : List Byte) (kind ring session seq count : Nat) (body : List Byte) : List Byte :=
  let head := [0x3C, 1] ++ leBytes 1 kind ++ leBytes 1 ring ++ leBytes 4 session ++ leBytes 4 seq ++ leBytes 2 count ++ zeros 2
  let mac := (hmacSha256 key (head ++ zeros 16 ++ body)).take 16
  head ++ mac ++ body

/-- Send a datagram of a ring to one of its peers. -/
def Agg.toPeer (g : Agg) (n : Nat) (p : Peer) (kind seq count : Nat) (body : List Byte) : Agg :=
  g.send (.datagram p.addr p.port (mbxDatagram (g.ring n).key kind n g.mbx.session seq count body))

/-! ### Delivery (R525, R530) -/

/-- The queue pair that a ring's binding names exists in the protection domain of its context (R531, R573). -/
def Agg.ringQp (g : Agg) (n : Nat) : Bool := match g.qp (g.ring n).qpn with | some q => decide (q.pd = n) | none => false

/-- Send one CQ slot of an RDMA ring (R525). -/
def Agg.writeSlot (g : Agg) (n : Nat) (s : List Byte) : Agg :=
  let r := g.ring n
  (if g.ringQp n then g.push r.qpn (r.cqAddr + 32 * (r.cqTail % 256)) r.cqRkey s false else g).modRing n
    fun r => { r with cqTail := (r.cqTail + 1) % 2 ^ 32, cqKept := r.cqKept ++ [s] }

/-- Replace one peer of a ring. -/
def Agg.setPeer (g : Agg) (n i : Nat) (p : Peer) : Agg := g.modRing n fun r => { r with peers := r.peers.set i p }

/-- Write the slots of one completion (R525, R530): to the client's CQ and its tail, or to the peer in a COMPLETE datagram. -/
def Agg.deliver (g : Agg) (n peer : Nat) (ss : List (List Byte)) : Agg :=
  let r := g.ring n
  if r.rdma then
    let g := ss.foldl (fun g s => g.writeSlot n s) g
    if g.ringQp n then g.push r.qpn (r.cqAddr + 8192) r.cqRkey (leBytes 4 (g.ring n).cqTail) false else g
  else
    let g := g.modRing n fun r => { r with cqTail := (r.cqTail + ss.length) % 2 ^ 32 }
    match r.peers[peer]? with
    | none => g
    | some p =>
      let g := g.setPeer n peer { p with nextCseq := (p.nextCseq + 1) % 2 ^ 32, kept := p.kept ++ [(p.nextCseq, ss.flatten)] }
      g.toPeer n p 2 p.nextCseq ss.length ss.flatten

/-! ### The violation log (R548) -/

/-- The 32 bytes of an entry; bytes 19 and 26 to 27 are free. -/
def vlogBytes (e : VEntry) : List Byte :=
  withCrc crc32c (leBytes 4 e.seq ++ leBytes 8 e.ht ++ leBytes 1 e.ring ++ leBytes 1 e.ctx ++ leBytes 1 e.opcode ++ leBytes 1 e.status ++
    leBytes 2 e.tag ++ leBytes 1 e.source ++ [Config.vlogPad e.seq 19] ++ leBytes 6 e.addr ++ [Config.vlogPad e.seq 26, Config.vlogPad e.seq 27])

/-- Append an entry; the log keeps the last 1,024, and the ring's context counts it (R548, R554). -/
def Agg.violation (g : Agg) (ring op status tag source addr : Nat) : Agg :=
  let ctx := if 1 ≤ ring ∧ ring ≤ 16 then ring else 0
  let e : VEntry := ⟨g.mbx.vnext, g.ht, ring, ctx, op, status, tag, source, addr⟩
  let l := g.mbx.vlog ++ [e]
  let g := { g with mbx := { g.mbx with vlog := l.drop (l.length - 1024), vnext := (g.mbx.vnext + 1) % 2 ^ 32 } }
  (g.count ctx 22 1).flag (mbxFlag 0)

/-! ### Completion (R538, R541, R542) -/

/-- The ring and tag of a caller. -/
def who (c : Caller) : Nat × Nat := (c.ring.val, c.tag.toNat)

/-- The context that a command addresses (R546). -/
def ctxOf (c : Caller) : Nat := if c.ring.val = 0 then c.ctx.val else c.ring.val

/-- The entries under a ring and tag. A second one under a tag in use waits for its refusal (R537). -/
def Agg.entriesOf (g : Agg) (w : Nat × Nat) : List Inflight := g.mbx.inflight.filter fun i => decide (i.ring = w.1 ∧ i.tag = w.2)

/-- The command under a ring and tag whose checks come next, or else the one that runs. -/
def Agg.inflightOf (g : Agg) (w : Nat × Nat) : Option Inflight :=
  match ((g.entriesOf w).filter fun i => !i.begun).getLast? with
  | some i => some i
  | none => (g.entriesOf w).head?

/-- The command under a ring and tag that runs. -/
def Agg.runningOf (g : Agg) (w : Nat × Nat) : Option Inflight :=
  match (g.entriesOf w).find? (·.begun) with
  | some i => some i
  | none => (g.entriesOf w).head?

/-- A command has passed its checks. -/
def Agg.begin (g : Agg) (w : Nat × Nat) : Agg :=
  match g.inflightOf w with
  | some i => { g with mbx := { g.mbx with begins := g.mbx.begins + 1, inflight := g.mbx.inflight.map fun (j : Inflight) => if j = i then { j with begun := true } else j } }
  | none => { g with mbx := { g.mbx with begins := g.mbx.begins + 1 } }

/-- The outcomes that a CHAIN may still ask for, from 256 positions before SQ_HEAD on (R542). -/
def Ring.keepOutcome (r : Ring) (pos code : Nat) : Ring :=
  { r with outcomes := (sset 0 r.outcomes pos code).filter fun (e : Nat × Nat) => decide ((e.1 + 2 ^ 32 + 256 - r.sqHead) % 2 ^ 32 < 2 ^ 31) }

/-- A command leaves flight: its tag is free, and its outcome is kept for CHAIN (R538, R542). -/
def Agg.release (g : Agg) (w : Nat × Nat) (i : Inflight) (st : Status) : Agg :=
  let l := g.mbx.inflight.filter fun j => !(decide (j.ring = w.1 ∧ j.tag = w.2 ∧ j.sqPos = i.sqPos))
  let g := { g with mbx := { g.mbx with inflight := l, sharedFree := g.mbx.sharedFree + b2n i.shared } }
  g.modRing w.1 (·.keepOutcome i.sqPos (statusCode st))

/-- Write the completion of a command (R534, R541). -/
def Agg.settleAs (g : Agg) (entry : Option Inflight) (w : Nat × Nat) (op : Nat) (st : Status) (res : List Byte) : Agg :=
  match entry with
  | some i => (g.release w i st).deliver w.1 i.peer (complSlots w.2 (statusCode st) op (i.sqPos % 65536) w.1 res)
  | none => g.deliver w.1 0 (complSlots w.2 (statusCode st) op 0 w.1 res)

/-- The completion of a command that runs. -/
def Agg.settle (g : Agg) (w : Nat × Nat) (op : Nat) (st : Status) (res : List Byte) : Agg := g.settleAs (g.runningOf w) w op st res

/-- Whether a status is logged as a violation (R548). -/
def isViolation (st : Status) : Bool := decide (st = .privilege ∨ st = .access)

/-- The completion of an admitted command is written, with the counts and logs of its status (R541, R548). -/
def Agg.completeNow (g : Agg) (w : Nat × Nat) (op : Nat) (st : Status) (res : List Byte) (addr : Nat) : Agg :=
  let g := if st = .aborted then g.count w.1 14 1 else g
  let g := if isViolation st then g.violation w.1 op (statusCode st) w.2 0 addr else g
  g.settle w op st res

/-- An admitted command completes, or waits for a stalled Control Processor to write its completion (R519). -/
def Agg.completeAt (g : Agg) (w : Nat × Nat) (op : Nat) (st : Status) (res : List Byte) (addr : Nat) : Agg :=
  if g.cpStalled then { g with mbx := { g.mbx with heldDone := g.mbx.heldDone ++ [⟨w.1, w.2, op, st, res, addr⟩] } }
  else g.completeNow w op st res addr

/-- The completions that waited for the Control Processor (R519). -/
def Agg.writeHeld (g : Agg) : Agg :=
  g.mbx.heldDone.foldl (fun g d => g.completeNow (d.ring, d.tag) d.opcode d.status d.res d.addr) { g with mbx := { g.mbx with heldDone := [] } }

/-- An admitted command completes, with packed results. -/
def Agg.complete (g : Agg) (w : Nat × Nat) (op : Nat) (st : Status) (res : List (Nat × Nat)) : Agg :=
  g.completeAt w op st (packFields res) 0

/-- A command is refused: no effect but its completion and the logging its code names (R22, R535, R548). -/
def Agg.refuse (g : Agg) (w : Nat × Nat) (op : Nat) (st : Status) (addr : Nat) : Agg :=
  let g := g.count w.1 13 1
  let g := if isViolation st then g.violation w.1 op (statusCode st) w.2 0 (if st = .access then addr else 0) else g
  g.settleAs (g.inflightOf w) w op st (if st = .access then leBytes 6 addr else [])

/-- Commands that need HBM, a station, the skim tree or an ATU wait for READY (R718). -/
def Agg.notReady (g : Agg) : List Status := failIf (!g.boot.ready) .busyRetry

/-- The codes of admission: those found on the descriptor, the command's own, and a range check (R21, R537). -/
def Agg.admitCode (g : Agg) (c : Caller) (codes : List Status) (bad : Option Nat) : Option Status :=
  firstCode (((g.inflightOf (who c)).map (·.codes)).getD [] ++ codes ++ failIf bad.isSome .access)

/-- A command behind CHAIN whose predecessor did not complete with OK (R542). -/
def Agg.isChained (g : Agg) (c : Caller) : Bool := ((g.inflightOf (who c)).map (·.chained)).getD false

/-- A command with its checks, while the Control Processor runs (R519): refused with the first applicable code of R21, ended with ABORTED by
CHAIN (R542), or run. `bad` is the lowest address that fails a range check. -/
def Agg.checked (g : Agg) (c : Caller) (op : Nat) (codes : List Status) (bad : Option Nat) (f : Agg → Agg) : Agg :=
  if !g.admits then g
  else match g.admitCode c codes bad with
    | some st => g.refuse (who c) op st (bad.getD 0)
    | none =>
      if g.isChained c then (g.count c.ring.val 14 1).settleAs (g.inflightOf (who c)) (who c) op .aborted []
      else f ((g.begin (who c)).count c.ring.val 12 1)

/-- The checks on CTX (R537): another context from a job ring, a context not in use. -/
def Agg.ctxCodes (g : Agg) (c : Caller) : List Status :=
  failIf (decide (c.ring.val ≠ 0 ∧ c.ctx.val ≠ 0 ∧ c.ctx.val ≠ c.ring.val)) .privilege ++
  failIf (decide (c.ctx.val ≠ 0) && decide ((g.job c.ctx.val).state = .free)) .badParam

/-- A command with the checks on its CTX and its own. -/
def Agg.command (g : Agg) (c : Caller) (op : Nat) (codes : List Status) (bad : Option Nat) (f : Agg → Agg) : Agg :=
  g.checked c op (g.ctxCodes c ++ codes) bad f

/-- PRIVILEGE unless the command comes from ring 0. -/
def ring0Only (c : Caller) : List Status := failIf (decide (c.ring.val ≠ 0)) .privilege

/-- A command that completes at once. -/
def Agg.done (g : Agg) (c : Caller) (op : Nat) (res : List (Nat × Nat)) : Agg := g.complete (who c) op .ok res

end Sys2Proof.Machine
end

