-- ==== Sys2Proof/Machine/MbxRings.lean ====
section
/-!
DEFINITION. MbxRings.lean: rings, doorbells, datagrams and admission: R520 to R545, R563 and R752 of spec/14_mailboxes.md.
-/
namespace Sys2Proof.Machine

/-! ### The opcode table (R549) -/

/-- What admission knows of an opcode: functions (1 for a command without one), functions that are ring 0 only, CQ slots of the largest
completion. -/
structure OpInfo where
  funcs : Nat
  ring0 : List Nat
  slots : Nat
  deriving DecidableEq, Repr

/-- The opcodes of R549 with the functions and results that their chapters give them. -/
def opInfo (op : Nat) : Option OpInfo :=
  match op with
  | 0x00 => some ⟨1, [], 1⟩ | 0x01 => some ⟨1, [], 2⟩ | 0x02 => some ⟨1, [], 2⟩ | 0x03 => some ⟨1, [], 1⟩
  | 0x04 => some ⟨1, [0], 1⟩ | 0x05 => some ⟨5, [0, 1, 2, 3, 4], 1⟩ | 0x06 => some ⟨1, [], 3⟩
  | 0x10 => some ⟨1, [0], 2⟩ | 0x11 => some ⟨1, [0], 1⟩ | 0x12 => some ⟨3, [2], 1⟩ | 0x13 => some ⟨1, [], 1⟩
  | 0x14 => some ⟨2, [], 1⟩ | 0x15 => some ⟨1, [], 1⟩ | 0x16 => some ⟨1, [], 2⟩
  | 0x20 => some ⟨1, [], 1⟩ | 0x21 => some ⟨1, [], 3⟩ | 0x22 => some ⟨1, [0], 1⟩ | 0x23 => some ⟨4, [2], 1⟩ | 0x24 => some ⟨4, [2], 1⟩
  | 0x30 => some ⟨1, [0], 1⟩ | 0x31 => some ⟨3, [0, 1, 2], 1⟩ | 0x32 => some ⟨1, [], 2⟩
  | 0x40 => some ⟨4, [2], 1⟩ | 0x41 => some ⟨4, [], 1⟩ | 0x42 => some ⟨4, [0, 1, 2, 3], 1⟩
  | 0x50 => some ⟨2, [], 1⟩ | 0x51 => some ⟨4, [0, 1, 2, 3], 1⟩ | 0x52 => some ⟨2, [1], 1⟩ | 0x53 => some ⟨1, [], 2⟩
  | 0x60 => some ⟨1, [], 1⟩ | 0x61 => some ⟨1, [], 1⟩ | 0x62 => some ⟨2, [0, 1], 1⟩ | 0x63 => some ⟨2, [0, 1], 1⟩ | 0x64 => some ⟨1, [0], 1⟩
  | 0x70 => some ⟨4, [], 1⟩ | 0x71 => some ⟨2, [], 1⟩ | 0x72 => some ⟨1, [], 1⟩ | 0x73 => some ⟨1, [], 1⟩
  | 0x78 => some ⟨1, [], 1⟩ | 0x7A => some ⟨1, [], 1⟩ | 0x7C => some ⟨4, [0, 1, 2, 3], 2⟩ | 0x7E => some ⟨1, [0], 1⟩ | 0x7F => some ⟨1, [], 2⟩
  | _ => none

/-- The widths of a command's parameters in the order of its chapter's table, without FUNCTION and CTX (R533). -/
def paramWidths (op fn : Nat) : List Nat :=
  match op, fn with
  | 0x03, _ => [48] | 0x04, _ => [48] | 0x06, _ => [8]
  | 0x05, 0 => [2, 1] | 0x05, 1 => [64, 20] | 0x05, 2 => [48, 20] | 0x05, 3 => [5, 32] | 0x05, 4 => [6, 32]
  | 0x10, _ => [32, 8, 6, 48, 16] | 0x11, _ => [48, 7]
  | 0x12, 0 => [48, 32] | 0x12, 1 => [32, 64] | 0x12, 2 => [32, 48, 32, 64, 48]
  | 0x13, _ => [48, 16] | 0x14, 0 => [48] | 0x15, _ => [48]
  | 0x20, _ => [6, 16, 32] | 0x21, _ => [6, 16, 5] | 0x22, _ => [6, 1]
  | 0x23, 2 => [6, 64, 48] | 0x23, _ => [6]
  | 0x24, 0 => [6, 16, 32, 16, 16] | 0x24, 1 => [6, 16] | 0x24, 2 => [6, 16] | 0x24, _ => [6]
  | 0x30, _ => [32, 40, 11, 48] | 0x31, 0 => [40, 1, 3, 5, 1, 5, 1, 32, 12, 15, 10, 3, 10, 10, 12, 10] | 0x31, 2 => [40]
  | 0x32, _ => [40, 48]
  | 0x40, 0 => [48, 7] | 0x40, 1 => [3, 8, 1, 4] | 0x40, 2 => [3, 8, 1] | 0x40, 3 => [48, 48]
  | 0x41, 0 => [2, 48, 32] | 0x41, 1 => [2, 48] | 0x41, 2 => [2, 48] | 0x41, 3 => [2]
  | 0x42, 0 => [32, 48, 48] | 0x42, 1 => [32, 48] | 0x42, 2 => [32, 48]
  | 0x50, 0 => [32, 48, 16, 48] | 0x50, 1 => [32, 16, 48]
  | 0x51, 0 => [16, 5, 16, 10, 1, 1] | 0x51, 2 => [48]
  | 0x52, _ => [32, 48, 48, 48, 48, 3] | 0x53, _ => [40]
  | 0x60, _ => [6, 48, 40, 2, 24, 1, 1] | 0x61, _ => [10, 32] | 0x62, 1 => [6]
  | 0x63, _ => [24, 6, 1, 2, 24, 24, 24, 5, 3, 48, 128] | 0x64, _ => [24]
  | 0x70, 0 => [4, 7, 64, 64, 1, 1, 64] | 0x70, 1 => [4, 48, 32, 1] | 0x70, 2 => [4] | 0x70, 3 => [4, 64]
  | 0x71, _ => [4, 1, 48, 32, 48, 48] | 0x72, _ => [4, 48, 1] | 0x73, _ => [4, 48]
  | 0x78, _ => [2, 6, 64, 32, 48] | 0x7A, _ => [1, 48, 32]
  | 0x7C, 0 => [3] | 0x7C, 1 => [9] | 0x7C, 2 => [1, 3] | 0x7E, _ => [1, 1]
  | _, _ => []

/-- Whether the parameters of these widths leave a byte that is not 0 where R533 puts 0: in a parameter's unused upper bits, or after
the last one. -/
def paramsDirty : List Nat → List Byte → Bool
  | [], l => l.any (· ≠ 0)
  | w :: ws, l => decide (2 ^ w ≤ leAt l 0 (fieldBytes w)) || paramsDirty ws (l.drop (fieldBytes w))

/-! ### CQ space and tags (R536 to R539) -/

/-- CQ slots that hold a completion: on RDMA from CQ_HEAD to CQ_TAIL, on UDP until the peer's ACK covers it (R525, R530). -/
def Ring.cqHeld (r : Ring) : Nat :=
  if r.rdma then (r.cqTail + 2 ^ 32 - r.cqHead) % 2 ^ 32 else (r.peers.map fun p => (p.kept.map fun k => k.2.length / 32).sum).sum

/-- CQ slots reserved by commands in flight (R539). -/
def Agg.cqReserved (g : Agg) (n : Nat) : Nat := ((g.mbx.inflight.filter (·.ring = n)).map (·.slots)).sum

/-- CQ slots in use or reserved, without the held slot. -/
def Agg.cqUsed (g : Agg) (n : Nat) : Nat := (g.ring n).cqHeld + g.cqReserved n

/-- Tags of a ring in flight out of its reservation. -/
def Agg.ownTags (g : Agg) (n : Nat) : Nat := (g.mbx.inflight.filter fun i => decide (i.ring = n) && i.tagged && !i.shared).length

/-- Tags reserved for a ring (R520); four of ring 0's are held for WAITFOR_GRAPH (R563). -/
def tagReserve (n op : Nat) : Nat := if n = 0 then (if op = 0x7A then 64 else 60) else 32

/-- A ring's own tags are used first, then the shared pool; true when the tag is shared (R538). -/
def Agg.freeTag (g : Agg) (n op : Nat) : Option Bool :=
  if g.ownTags n < tagReserve n op then some false else if 0 < g.mbx.sharedFree then some true else none

/-! ### The descriptor at the head (R532 to R537) -/

/-- A descriptor at a submission position. -/
def Ring.descriptor (r : Ring) (pos : Nat) : List Byte := mread r.sq (64 * (pos % 256)) 64

/-- Codes that the descriptor alone shows (R537), beyond INTEGRITY and the opcode: CTX, TAG, reserved fields, EPOCH,
FUNCTION, the bits of PARAMS that R533 sets to 0, and the QPN of a QP_CREATE CREATE (R624). -/
def Agg.descrCodes (g : Agg) (n : Nat) (d : List Byte) (i : OpInfo) : List Status :=
  let ctx := leAt d 6 1
  let tag := leAt d 2 2
  let epoch := leAt d 8 4
  let own := if n = 0 then ctx else n
  let fn := leAt d 5 1
  failIf (decide (n ≠ 0) && (i.ring0.contains fn || decide (i.ring0.length = i.funcs) || decide (ctx ≠ 0 ∧ ctx ≠ n))) .privilege ++
  failIf (decide (tag = 0xFFFF) || decide (leAt d 4 1 / 4 ≠ 0) || decide (leAt d 7 1 ≠ 0) || decide (16 < ctx) || decide (i.funcs ≤ fn) ||
    (decide (ctx ≠ 0) && decide (leAt d 0 1 ≠ 0x10) && decide ((g.job ctx).state = .free)) ||
    decide (epoch ≠ 0 ∧ own = 0) || decide (leAt d 0 1 = 0x63 ∧ fn = 0 ∧ leAt d 12 4 ≠ 0) || paramsDirty (paramWidths (leAt d 0 1) fn) (bytesAt d 12 48)) .badParam ++
  failIf (decide (epoch ≠ 0 ∧ own ≠ 0 ∧ epoch ≠ (g.job own).epoch)) .staleEpoch ++
  failIf (g.mbx.inflight.any fun j => decide (j.ring = n ∧ j.tag = tag) && j.tagged) .conflict

/-- The code with which a descriptor completes whatever its parameters are (R21, R537): INTEGRITY, BAD_OPCODE, or a PRIVILEGE. -/
def Agg.earlyCode (g : Agg) (n : Nat) (d : List Byte) : Option Status :=
  if !crcGood crc32c d then some .integrity
  else match if leAt d 1 1 = 1 then opInfo (leAt d 0 1) else none with
    | none => some .badOpcode
    | some i => if (g.descrCodes n d i).contains .privilege then some .privilege else none

/-- Note a wait of the head descriptor once (R536, R554). -/
def Agg.noteWait (g : Agg) (n : Nat) (tag : Bool) : Agg :=
  let r := g.ring n
  if tag then
    let g := if g.mbx.sharedFree = 0 then g.flag (mbxFlag 3) else g
    if r.tagNoted then g else ((g.modRing n fun r => { r with tagNoted := true }).flag (ringFlag n 2)).countChip 29 1
  else if r.cqNoted then g else (g.modRing n fun r => { r with cqNoted := true }).flag (ringFlag n 1)

/-- SQ_HEAD moves past the head and past what was admitted ahead of it (R523, R563). -/
def skipAhead : Nat → Nat → List Nat → Nat × List Nat
  | 0, h, l => (h, l)
  | k + 1, h, l => if l.contains h then skipAhead k ((h + 1) % 2 ^ 32) (l.erase h) else (h, l)

def Agg.advanceHead (g : Agg) (n : Nat) : Agg :=
  g.modRing n fun r =>
    let (h, l) := skipAhead 256 ((r.sqHead + 1) % 2 ^ 32) r.ahead
    { r with sqHead := h, ahead := l, cqNoted := false, tagNoted := false, headSince := g.now }

/-- A descriptor enters flight (R538, R539). -/
def Agg.enter (g : Agg) (n pos : Nat) (d : List Byte) (slots : Nat) (shared tagged : Bool) (codes : List Status) (chained : Bool) : Agg :=
  let i : Inflight := { ring := n, tag := leAt d 2 2, opcode := leAt d 0 1, ctx := leAt d 6 1, sqPos := pos, slots := slots, shared := shared,
                        peer := sget 0 (g.ring n).sqPeer (pos % 256), since := g.now, codes := codes, chained := chained, tagged := tagged }
  let left := g.mbx.sharedFree - b2n shared
  let g := { g with mbx := { g.mbx with inflight := g.mbx.inflight ++ [i], sharedFree := left } }
  if shared && decide (left = 0) then g.flag (mbxFlag 3) else g

/-- A descriptor that its own bytes refuse: its completion takes one slot and no tag (R536, R538). -/
def Agg.refuseDescr (g : Agg) (n pos : Nat) (d : List Byte) (st : Status) : Agg :=
  let w := (n, leAt d 2 2)
  let g := g.count n 13 1
  let g := if isViolation st then g.violation n (leAt d 0 1) (statusCode st) w.2 0 0 else g
  let g := g.modRing n (·.keepOutcome pos (statusCode st))
  g.deliver n (sget 0 (g.ring n).sqPeer (pos % 256)) (complSlots w.2 (statusCode st) (leAt d 0 1) (pos % 65536) n [])

/-- A command in flight that was submitted before a position of its ring. -/
def Inflight.before (i : Inflight) (n pos : Nat) : Bool := decide (i.ring = n ∧ i.sqPos ≠ pos ∧ (pos + 2 ^ 32 - i.sqPos) % 2 ^ 32 < 2 ^ 31)

/-- Whether an earlier descriptor of the ring has not completed (R536). -/
def Agg.earlierOpen (g : Agg) (n pos : Nat) : Bool := g.mbx.inflight.any (·.before n pos)

/-- CQ slots free for an admission, without the held slot's neighbours in use. -/
def Agg.cqFree (g : Agg) (n : Nat) : Nat := 256 - g.cqUsed n

/-- The descriptor at a position waits behind FENCE or CHAIN (R536, R542). -/
def Agg.fenced (g : Agg) (n pos : Nat) : Bool := decide (leAt ((g.ring n).descriptor pos) 4 1 % 4 ≠ 0) && g.earlierOpen n pos

/-- The descriptor at a position, admitted, would lack CQ space or a tag (R536). -/
def Agg.lacksRoom (g : Agg) (n pos : Nat) : Bool :=
  let op := leAt ((g.ring n).descriptor pos) 0 1
  let slots := match opInfo op with | some i => i.slots | none => 1
  decide (g.cqFree n < slots + 1) || (g.freeTag n op).isNone

/-- Positions of ring 0 behind the head that hold a WAITFOR_GRAPH without FENCE or CHAIN (R563). -/
def Agg.graphAhead (g : Agg) : Option Nat :=
  let r := g.ring 0
  ((List.range 256).map fun k => (r.sqHead + 1 + k) % 2 ^ 32).find? fun p =>
    !r.ahead.contains p && decide (1 ≤ (r.sqTail + 2 ^ 32 - p) % 2 ^ 32) && decide ((r.sqTail + 2 ^ 32 - p) % 2 ^ 32 ≤ 256) &&
      decide (leAt (r.descriptor p) 0 1 = 0x7A) && decide (leAt (r.descriptor p) 4 1 % 4 = 0)

/-! ### RDMA transport (R522 to R525, R540) -/

/-- A ring faults (R540): its held slot takes the ring-fault completion, and reading stops. -/
def Agg.ringFault (g : Agg) (n : Nat) : Agg :=
  let r := g.ring n
  if r.faulted then g
  else
    let g := g.modRing n fun r => { r with faulted := true }
    let g := ((g.flag (ringFlag n 0)).flag (mbxFlag 2)).countChip 28 1
    if 256 ≤ g.cqUsed n then g
    else g.deliver n 0 [firstSlot 0xFFFF (statusCode .badParam) 0 (r.sqHead % 65536) 4 n []]

/-- The doorbell page of ring 0, or of a ring bound to UDP, ignores writes (R530). -/
def Agg.pageShut (g : Agg) (n : Nat) : Bool := decide (n = 0) || ((g.ring n).bound && !(g.ring n).rdma)

/-- SQ_DOORBELL: a write of AGG_MBXn_SQ_TAIL (R522, R524). A ring without its queue pair takes none (R573). -/
def Agg.sqDoorbell (g : Agg) (n v : Nat) : Agg :=
  let r := g.ring n
  if g.pageShut n ∨ !r.bound ∨ !g.ringQp n then g
  else
    let d := (v + 2 ^ 32 - r.sqHead) % 2 ^ 32
    if 256 < d ∨ d < (r.sqTail + 2 ^ 32 - r.sqHead) % 2 ^ 32 then g.ringFault n
    else g.modRing n fun r => { r with sqTail := v, headSince := if r.sqHead = r.sqTail then g.now else r.headSince }

/-- CQ_HEAD_WRITE (R12, R525): the field takes the position, and the completions before it are consumed. -/
def Agg.cqHeadWrite (g : Agg) (n v : Nat) : Agg :=
  if g.pageShut n then g else g.modRing n fun r => { r with cqHead := v, cqKept := r.cqKept.drop ((v + 2 ^ 32 - r.cqHead) % 2 ^ 32) }

/-- MBX_RESTART (R540). -/
def Agg.mbxRestart (g : Agg) (n : Nat) : Agg := if g.pageShut n then g else g.modRing n fun r => { r with faulted := false }

/-! ### UDP transport (R527 to R530, R752) -/

/-- The peer of a ring that a datagram comes from. -/
def Ring.peerIndex (r : Ring) (addr port : Nat) : Option Nat :=
  (List.range r.peers.length).find? fun i => match r.peers[i]? with | some p => decide (p.addr = addr ∧ p.port = port) | none => false

/-- The checks of R528 beyond the peer: MAC, magic, version, kind, count and length. -/
def datagramGood (key : List Byte) (m : List Byte) : Bool :=
  let kind := leAt m 2 1
  let count := leAt m 12 2
  decide (32 ≤ m.length) && decide (leAt m 0 2 = 0x013C) && decide (kind = 1 ∨ kind = 3 ∨ kind = 4) &&
    (if kind = 1 then decide (count ≤ 16) && decide (m.length = 32 + 64 * count) else decide (count = 0) && decide (m.length = 32)) &&
    decide ((hmacSha256 key (m.take 16 ++ zeros 16 ++ m.drop 32)).take 16 = bytesAt m 16 16)

/-- UDP_DROP (R528). -/
def Agg.udpDrop (g : Agg) (ring : Nat) : Agg :=
  ((g.countChip 27 1).flag (mbxFlag 1)).violation ring 0 (statusCode .integrity) 0 1 0

/-- Append descriptors to a submission queue, noting their peer. -/
def appendSq (peer : Nat) : List (List Byte) → Ring → Ring
  | [], r => r
  | d :: ds, r =>
    appendSq peer ds { r with sq := mwrite r.sq (64 * (r.sqTail % 256)) d, sqPeer := sset 0 r.sqPeer (r.sqTail % 256) peer,
                              sqTail := (r.sqTail + 1) % 2 ^ 32 }

/-- A SUBMIT that passed R528 (R529): appended when its session, sequence and room are right; answered with an ACK in any case. -/
def Agg.submit (g : Agg) (n i : Nat) (p : Peer) (m : List Byte) : Agg :=
  let r := g.ring n
  let count := leAt m 12 2
  let ok := decide (leAt m 4 4 = g.mbx.session) && decide (leAt m 8 4 = (p.lastSeq + 1) % 2 ^ 32) &&
    decide ((r.sqTail + 2 ^ 32 - r.sqHead) % 2 ^ 32 + count ≤ 256)
  let p' := if ok then { p with lastSeq := leAt m 8 4 } else p
  let g := if ok then
      (g.modRing n fun r => { appendSq i ((List.range count).map fun k => bytesAt m (32 + 64 * k) 64) r with
                                headSince := if r.sqHead = r.sqTail then g.now else r.headSince }).setPeer n i p'
    else g
  g.toPeer n p' 3 p'.lastSeq 0 []

/-- A client's ACK (R530): completions through its CSEQ are released. -/
def Agg.udpAck (g : Agg) (n i : Nat) (p : Peer) (m : List Byte) : Agg :=
  if leAt m 4 4 ≠ g.mbx.session then g
  else g.setPeer n i { p with kept := p.kept.filter fun k => decide (leAt m 8 4 < k.1) }

/-- RESEND (R530): every kept completion from the named CSEQ onwards, whole, each in its datagram. -/
def Agg.udpResend (g : Agg) (n : Nat) (p : Peer) (m : List Byte) : Agg :=
  if leAt m 4 4 ≠ g.mbx.session then g
  else (p.kept.filter fun k => decide (leAt m 8 4 ≤ k.1)).foldl (fun g k => g.toPeer n p 2 k.1 (k.2.length / 32) k.2) g

/-- The ring that a datagram names, where its header goes so far. -/
def datagramRing (m : List Byte) : Option Nat := if 4 ≤ m.length ∧ leAt m 3 1 ≤ 16 then some (leAt m 3 1) else none

/-- A mailbox datagram arrives (R527 to R530), while the Control Processor admits commands (R752). -/
def Agg.datagramIn (g : Agg) (addr port : Nat) (m : List Byte) : Agg :=
  if !g.admits then g
  else
    let n := (datagramRing m).getD 0
    match (datagramRing m).bind fun n => (g.ring n).peerIndex addr port with
    | none => g.udpDrop 0xFF
    | some i =>
      match (g.ring n).peers[i]? with
      | none => g
      | some p =>
        if !datagramGood (g.ring n).key m then g.udpDrop n
        else if leAt m 2 1 = 1 then g.submit n i p m
        else if leAt m 2 1 = 3 then g.udpAck n i p m
        else g.udpResend n p m

end Sys2Proof.Machine
end

