-- ==== Sys2Proof/Machine/AggTime.lean ====
section
/-!
DEFINITION. AggTime.lean: Hall Time at the aggregator: R35 to R58 and R69 to R84 of spec/02_hall_time.md, R314 and R315 of
spec/08_links.md.
-/
namespace Sys2Proof.Machine

def Agg.withTime (g : Agg) (f : AggTime → AggTime) : Agg := { g with time := f g.time }

/-- One nanosecond on the module's clock. HT runs on; a pending correction moves it by 1 ns in every 20,000 ns (R37). -/
def AggTime.tick (t : AggTime) : AggTime :=
  let t := { t with elapsed := t.elapsed + 1, slewPhase := min 20000 (t.slewPhase + 1) }
  if t.slew ≠ 0 ∧ t.slewPhase = 20000 then
    let d : Int := if t.slew > 0 then 1 else -1
    { t with ht := ((t.ht : Int) + 1 + d).toNat % 2 ^ 64, slew := t.slew - d, slewPhase := 0 }
  else { t with ht := (t.ht + 1) % 2 ^ 64 }

/-- The module is a root: its source is ROOT_INPUTS or FREE_RUN (R37, R83). -/
def Agg.isRoot (g : Agg) : Bool := decide (g.time.source ≠ 1)
/-- The source is ROOT_INPUTS, and the firmware that follows it runs (R655). -/
def Agg.onInputs (g : Agg) : Bool := decide (g.time.source = 0) && g.fwRuns

/-- A second, in nanoseconds. -/
def second : Nat := 1000000000

/-- The whole second nearest to an HT. -/
def nearestSecond (ht : Nat) : Nat := (ht + second / 2) / second * second

/-- The HT of an edge minus the HT kept. -/
def edgeOffset (ht : Nat) : Int := (nearestSecond ht : Int) - (ht : Int)

/-- Enter HOLDOVER (R44, R51). A rejection belongs to the HOLDOVER in which it was made (R45). -/
def Agg.enterHoldover (g : Agg) : Agg :=
  (g.withTime fun t => { t with state := .holdover, holdSince := if t.source = 2 then t.holdSince else some t.elapsed, heldSince := some t.elapsed, letIn := false, edgeRun := 0, exRun := 0 }).flag (tmFlag 18)

/-- FREE_RUN is LOCKED whenever the firmware runs (R83, R655). -/
def Agg.relockFreeRun (g : Agg) : Agg := if g.time.source = 2 then g.withTime fun t => { t with state := .locked } else g

/-- LOCKED ends in HOLDOVER; every other state stays (R44). -/
def Agg.loseReference (g : Agg) : Agg :=
  if g.time.state = .locked then g.enterHoldover else g.withTime fun t => { t with edgeRun := 0, letIn := false }

def Agg.enterLocked (g : Agg) : Agg :=
  g.withTime fun t => { t with state := .locked, everLocked := true, holdSince := none, rejected := false, letIn := false }

/-! ### The root (R38 to R45) -/

/-- A time-of-day datagram (R38): length, magic, CRC-32C, and an HT that is a multiple of a second (R39). -/
def todGood (m : List Byte) : Bool :=
  decide (m.length = 32) && decide (leAt m 0 1 = 0x7D) && decide (leAt m 28 4 = crcOf crc32c (m.take 28)) &&
    decide (leAt m 8 8 % second = 0)

/-- TOD_MESSAGE: a good message waits for the edge that it names; any other is discarded and counted (R39). -/
def Agg.todMessage (g : Agg) (m : List Byte) : Agg :=
  if !g.onInputs then g
  else if todGood m then g.withTime fun t => { t with tod := t.tod ++ [(leAt m 8 8, t.elapsed)] }
  else g.flag (tmFlag 17)

/-- A message came 100 to 900 ms before an edge (R39). -/
def todTimely (now atTime : Nat) : Bool := decide (atTime + 100000000 ≤ now) && decide (now ≤ atTime + 900000000)

/-- Judge the waiting messages at an edge: the HTs that the accepted ones name, in order of arrival; every other message is discarded and
counted (R39). -/
def Agg.judgeTod (g : Agg) : List Nat × Agg :=
  let ok := g.time.tod.filter fun m => todTimely g.now m.2
  let bad := g.time.tod.length - ok.length
  let g := (List.range bad).foldl (fun g _ => g.flag (tmFlag 17)) g
  let g := g.withTime fun t => { t with tod := [], todOk := if ok.isEmpty then t.todOk else some t.elapsed }
  (ok.map (·.1), g)

def ParentEx.shift (p : ParentEx) (d : Int) : ParentEx := { p with started := p.started.map (· + d) }

/-- Step HT (R41, R48). The interval of R46 runs on: what has passed of it since the last exchange stays passed. -/
def Agg.stepHt (g : Agg) (ht : Nat) : Agg :=
  g.withTime fun t =>
    let d : Int := (ht % 2 ^ 64 : Nat) - (t.ht : Int)
    { t with ht := ht % 2 ^ 64, slew := 0, slewPhase := 0, prim := t.prim.shift d, alt := t.alt.shift d }
/-- Slew towards an offset (R37). -/
def Agg.slewBy (g : Agg) (off : Int) : Agg := g.withTime fun t => { t with slew := off }

/-- An edge counts towards the three of R41; the third, with HT_REF locked, gives LOCKED. -/
def Agg.countEdge (g : Agg) : Agg :=
  let g := g.withTime fun t => { t with edgeRun := if t.refLost then 0 else t.edgeRun + 1 }
  if 3 ≤ g.time.edgeRun then g.enterLocked else g

/-- The allowance of R45: 1 microsecond plus 200 ns for each second in HOLDOVER. DESIGN CHOICE (notes/assumptions/113.md): only whole seconds
count. -/
def Agg.allowance (g : Agg) : Nat :=
  1000 + 200 * (match g.time.holdSince with | some h => (g.now - h) / second | none => 0)

/-- An edge that the root slews to while it is in HOLDOVER: it counts towards the three of R41 (R45). -/
def Agg.slewEdge (g : Agg) (off : Int) : Agg :=
  if off.natAbs ≤ 4 then (g.slewBy off).countEdge else (g.slewBy off).withTime fun t => { t with edgeRun := 0 }

/-- An edge in HOLDOVER (R44, R45). While HT_REF is lost the phase is re-centred within the allowance. With both inputs back, the first edge
decides whether the root slews to them or waits for FORCE_SLEW. -/
def Agg.holdoverEdge (g : Agg) (off : Int) : Agg :=
  let inRange := decide (off.natAbs ≤ g.allowance)
  if g.time.rejected then g
  else if g.time.refLost then (if inRange then g.slewBy off else g)
  else if g.time.letIn || inRange then (g.withTime fun t => { t with letIn := true }).slewEdge off
  else (g.withTime fun t => { t with rejected := true }).flag (tmFlag 16)

/-- What an accepted edge does to the phase in each state (R40, R41, R44, R45). -/
def Agg.edgePhase (g : Agg) (named : Option Nat) : Agg :=
  let off := edgeOffset g.ht
  match g.time.state with
  | .unset =>
    match named with
    | some ht => (g.stepHt ht).withTime fun t => { t with state := .acquiring, edgeRun := 0 }
    | none => g
  | .acquiring =>
    if off.natAbs ≤ 4 then g.countEdge else (g.stepHt (nearestSecond g.ht)).withTime fun t => { t with edgeRun := 0 }
  | .locked => g.slewBy off
  | .holdover => g.holdoverEdge off

/-- HT_PPS_EDGE at the root (R40 to R43). An edge more than 1 microsecond from its expected instant is a glitch. Every accepted message that
names another value than the root's own count is a TOD_MISMATCH (R42). DESIGN CHOICE (notes/assumptions/114.md): of several accepted messages
the last sets HT. -/
def Agg.ppsEdge (g : Agg) : Agg :=
  if !g.onInputs then g
  else
    let glitch := match g.time.ppsAt with
      | some p => !g.time.ppsLost && (decide (g.now + 1000 < p + second) || decide (p + second + 1000 < g.now))
      | none => false
    if glitch then g.flag (tmFlag 16)
    else
      let (named, g) := g.judgeTod
      let wrong := if g.time.state = TimeState.unset then 0 else (named.filter fun ht => decide (ht ≠ nearestSecond g.ht)).length
      let g := (List.range wrong).foldl (fun g _ => g.flag (tmFlag 17)) g
      let off := edgeOffset g.ht
      (g.withTime fun t => { t with ppsAt := some t.elapsed, ppsLost := false, offset := off }).edgePhase named.getLast?

/-- HT_PPS_LOSS (R43). -/
def Agg.ppsLoss (g : Agg) : Agg :=
  match g.time.ppsAt with
  | some p =>
    if g.onInputs && !g.time.ppsLost && decide (p + 1000001000 ≤ g.now) then
      (g.withTime fun t => { t with ppsLost := true }).loseReference
    else g
  | none => g

/-- HT_REF_LOSS: 8 consecutive cycles are missing (R43). -/
def Agg.refLoss (g : Agg) : Agg :=
  if g.time.refLost then g
  else
    let g := g.withTime fun t => { t with refLost := true }
    if g.onInputs then g.loseReference else g

/-- ROOT_INPUTS_RETURN (R44, R45): `ref` is the return of HT_REF, `pps` an HT_PPS edge that ends a loss. The count of three starts again. -/
def Agg.inputsReturn (g : Agg) (pps ref : Bool) : Agg :=
  let g := g.withTime fun t => { t with refLost := t.refLost && !ref, edgeRun := if g.onInputs then 0 else t.edgeRun }
  if pps then g.ppsEdge else g

/-! ### The tree (R46 to R53, R314, R315) -/

/-- The link to a time parent: the skim tree's primary or alternate parent. -/
def Agg.parentLink (g : Agg) (alt : Bool) : Option Nat :=
  match g.skim.cfg with
  | some c => if alt then c.alt else c.primary
  | none => none

def AggTime.parent (t : AggTime) (alt : Bool) : ParentEx := if alt then t.alt else t.prim
def AggTime.setParent (t : AggTime) (alt : Bool) (p : ParentEx) : AggTime := if alt then { t with alt := p } else { t with prim := p }

/-- The schedule part of a TIME flit and of a plumb beat: anchor window, anchor HT, period, pending change. -/
def schedFields (s : Option Sched) (p : Option (Nat × Nat)) : Nat × Nat × Nat × Nat × Nat :=
  match s with
  | none => (0, 0, 0, 0, 0)
  | some s => (s.anchorWin, s.anchorHt, s.periodUs, (p.map (·.1)).getD 0, (p.map (·.2)).getD 0)

/-- NO_REF as this module passes it on (R83). -/
def Agg.noRefNow (g : Agg) : Bool := if g.time.source = 2 then true else if g.time.source = 0 then false else g.time.noRef

/-- Depth in the time tree: 0 at a root. -/
def Agg.timeDepth (g : Agg) : Nat := if g.isRoot then 0 else g.time.depth

/-- Slot 1 of a TIME flit (R314). -/
def Agg.timeSlot (g : Agg) (reply : Bool) (seq t2 t3 : Nat) : List Byte :=
  let f := schedFields g.time.sched g.time.pending
  withCrc crc32c ([0x7E] ++ leBytes 1 (b2n reply) ++ leBytes 2 seq ++
    leBytes 1 (timeStateCode g.time.state + 8 * (min 7 g.timeDepth) + 64 * b2n g.noRefNow) ++ zeros 3 ++ leBytes 8 t2 ++ leBytes 8 t3 ++
    leBytes 6 f.1 ++ zeros 2 ++ leBytes 8 f.2.1 ++ leBytes 4 f.2.2.1 ++ leBytes 6 f.2.2.2.1 ++ leBytes 4 f.2.2.2.2 ++ zeros 6)

/-- A TIME slot's own checks (R314, R315). -/
def timeSlotGood (m : List Byte) : Bool :=
  decide (m.length = 64) && decide (leAt m 0 1 = 0x7E) && decide (leAt m 60 4 = crcOf crc32c (m.take 60))

/-- An exchange fails (R51, R52, R315): the third in a row on the parent in use switches to the other, or ends in HOLDOVER when the
exchanges with both parents fail. DEDUCED (notes/assumptions/115.md): no switch to a parent whose last three exchanges failed too. -/
def Agg.exchangeFail (g : Agg) (alt : Bool) : Agg :=
  let p := g.time.parent alt
  if g.isRoot || !p.waiting then g
  else
    let g := g.withTime fun t => { t.setParent alt { p with waiting := false, t1 := none, fails := p.fails + 1 } with
                                   exRun := if t.useAlt = alt then 0 else t.exRun }
    let other := g.time.parent (!g.time.useAlt)
    let mine := g.time.parent g.time.useAlt
    if mine.fails < 3 then g
    else if (g.parentLink (!g.time.useAlt)).isSome && decide (other.fails < 3) then
      (g.withTime fun t => { t with useAlt := !t.useAlt }).flag (tmFlag 19)
    else if ((g.parentLink (!g.time.useAlt)).isNone || decide (3 ≤ other.fails)) && decide (g.time.state = .locked) then g.enterHoldover
    else g

/-- TIME_EXCHANGE_START with a parent, once in every 1 ms of HT (R46). An exchange still open counts as failed. On a link that is not in UP
the exchange starts and its request is lost, so that it fails (R315, R323). The cable asymmetry set by now holds for it (R82). -/
def Agg.exchangeStart (g : Agg) (alt : Bool) : Agg :=
  match g.parentLink alt with
  | none => g
  | some k =>
    let p := g.time.parent alt
    let due := match p.started with | some s => decide (s + 1000000 ≤ g.ht) | none => true
    if g.isRoot || !due then g
    else
      let g := g.exchangeFail alt
      let p := g.time.parent alt
      let seq := p.seq
      let p := { p with seq := (seq + 1) % 65536, started := some (g.ht : Int), waiting := true, t1 := none, asymPs := (g.link k).asymPs }
      let g := g.withTime fun t => t.setParent alt p
      if (g.link k).state = .up then g.modLink k fun l => { l with timeDue := l.timeDue ++ [.request seq] } else g

/-- A request arrives at a parent (R46): its reply leaves with the instant of arrival. -/
def Agg.exchangeRequest (g : Agg) (k : Nat) (m : List Byte) : Agg :=
  if !timeSlotGood m || leAt m 1 1 % 2 ≠ 0 then g
  else g.modLink k fun l => { l with timeDue := l.timeDue ++ [.reply (leAt m 2 2) g.ht] }

/-- The internal asymmetry of the lane in use, ps (R49, R321): that of the lowest-numbered active lane. -/
def Agg.laneAsym (g : Agg) (k : Nat) : Int :=
  let lane := if ((g.link k).lanes[0]).state = .active then 0 else 1
  signedOf 32 (g.reg (sklinkBase k + 0x08 + 4 * lane)).toNat

/-- The schedule `s` is not the one that is held (R72). -/
def Agg.schedChanges (g : Agg) (s : Sched) : Bool := match g.time.sched with | some o => decide (o ≠ s) | none => false

/-- The parent still sends the schedule and the pending change from which the one in force here came: its reply left before that stroke (R72). -/
def Agg.schedBehind (g : Agg) (s : Sched) (p : Option (Nat × Nat)) : Bool :=
  match p with | some (c, p') => decide (g.time.sched = some (schedAfter s c p')) | none => false

/-- Take the schedule that a parent sends (R52, R72). SCHED_CHANGED when a change has taken effect. -/
def Agg.learnSched (g : Agg) (s : Sched) (p : Option (Nat × Nat)) : Agg :=
  if g.schedBehind s p then g
  else if g.schedChanges s then (g.withTime fun t => { t with sched := some s, pending := p, prev := t.sched }).flag (tmFlag 21)
  else g.withTime fun t => { t with sched := some s, pending := p }

/-- Where in its nanosecond a timestamp falls, in quarters: a free value (R47, notes/assumptions/116.md). -/
def Agg.phase (g : Agg) : Nat := (Config.freePhase g.time.stamps).toNat
/-- HT in quarters of a nanosecond at a timestamp taken now (R47). -/
def Agg.stampHt (g : Agg) : Nat := 4 * g.ht + g.phase
/-- A timestamp has been taken. -/
def Agg.stamped (g : Agg) : Agg := g.withTime fun t => { t with stamps := t.stamps + 1 }

/-- The offset acts on the time base (R48, R51): stepped in UNSET and beyond 1 microsecond in ACQUIRING, slewed otherwise. DESIGN CHOICE
(notes/assumptions/117.md): the first reply that is accepted in UNSET steps HT by its offset, whatever its size, and enters ACQUIRING. DESIGN CHOICE
(notes/assumptions/136.md): the step and the slew take the offset to the nearest whole nanosecond. -/
def Agg.applyOffset (g : Agg) (ps : Int) : Agg :=
  let ns : Int := (ps + 500) / 1000
  let small := decide (ps.natAbs ≤ 2000)
  let g := g.withTime fun t => { t with offset := ns }
  match g.time.state with
  | .unset => (g.stepHt (((g.ht : Int) + ns).toNat)).withTime fun t => { t with state := .acquiring, exRun := 0 }
  | .acquiring =>
    if 1000000 < ps.natAbs then (g.stepHt (((g.ht : Int) + ns).toNat)).withTime fun t => { t with exRun := 0 }
    else
      let g := (g.slewBy ns).withTime fun t => { t with exRun := if small then t.exRun + 1 else 0 }
      if 16 ≤ g.time.exRun then g.enterLocked else g
  | .locked => (g.slewBy ns).withTime fun t => { t with exRun := if small then t.exRun + 1 else 0 }
  | .holdover =>
    let g := (g.slewBy ns).withTime fun t => { t with exRun := if small then t.exRun + 1 else 0 }
    if 16 ≤ g.time.exRun then g.enterLocked else g

/-- The parent in use reports HOLDOVER while the other reports LOCKED (R52). -/
def Agg.preferOther (g : Agg) : Agg :=
  let mine := g.time.parent g.time.useAlt
  let other := g.time.parent (!g.time.useAlt)
  if decide (mine.state = .holdover) && decide (other.state = .locked) && decide (other.fails < 3) &&
      (g.parentLink (!g.time.useAlt)).isSome then
    (g.withTime fun t => { t with useAlt := !t.useAlt, exRun := 0 }).flag (tmFlag 19)
  else g

/-- A reply arrives (R46 to R52): offset and delay, then the time base, the schedule and the choice of parent. A reply that fits no open
exchange is ignored. DESIGN CHOICE (notes/assumptions/118.md): one from a parent in UNSET counts as a failed exchange. -/
def Agg.exchangeReply (g : Agg) (k : Nat) (m : List Byte) : Agg :=
  let alt := decide (g.parentLink false ≠ some k)
  let p := g.time.parent alt
  match p.t1 with
  | none => g
  | some t1 =>
    if g.isRoot || !timeSlotGood m || !p.waiting || decide (g.parentLink alt ≠ some k) || decide (leAt m 1 1 % 2 ≠ 1) ||
        decide ((leAt m 2 2 + 1) % 65536 ≠ p.seq) then g
    else if leAt m 4 1 % 8 = 0 then g.exchangeFail alt
    else
      let t2 : Int := 4 * leAt m 8 8
      let t3 : Int := 4 * leAt m 16 8
      let t4 : Int := g.stampHt
      let t1 : Int := t1
      let g := g.stamped
      let delay : Int := ((t4 - t1) - (t3 - t2)) * 125
      let off : Int := ((t2 - t1) - (t4 - t3)) * 125 - (g.laneAsym k + p.asymPs)
      let st := timeStateOf (leAt m 4 1 % 8)
      let p' := { p with waiting := false, t1 := none, fails := 0, state := st, depth := bitField (leAt m 4 1) 5 3,
                         noRef := bitAt (leAt m 4 1) 6 }
      let g := g.withTime fun t => t.setParent alt p'
      let g :=
        if g.time.useAlt ≠ alt then g
        else
          let g := g.withTime fun t => { t with delayPs := delay.toNat, depth := min 7 (p'.depth + 1), noRef := p'.noRef }
          let g := if leAt m 40 4 = 0 then g
            else g.learnSched ⟨leAt m 24 6, leAt m 32 8, leAt m 40 4⟩ (if leAt m 50 4 = 0 then none else some (leAt m 44 6, leAt m 50 4))
          g.applyOffset off
      g.preferOther

/-- HT of the partner differs by more than 24 ns (R53). -/
def Agg.partnerHt (g : Agg) (theirs : Nat) : Agg :=
  if 24 < ((theirs : Int) - (g.ht : Int)).natAbs then g.flag (tmFlag 20) else g

/-! ### Plumb beats (R56, R57, R299) -/

/-- PLUMB_BEAT_DUE: at each whole millisecond of HT a time word waits on every die port in UP. -/
def Agg.beatDue (g : Agg) : Agg :=
  let ms := g.ht / 1000000
  let fresh := match g.time.lastBeat with | some m => decide (m < ms) | none => true
  if !g.linksLive || !fresh || decide (g.time.state ≠ .locked ∧ g.time.state ≠ .holdover) then g
  else
    let g := g.withTime fun t => { t with lastBeat := some ms }
    { g with ports := g.ports.map fun p => if p.link.state = .up then { p with link := { p.link with timeDue := some (1000000 * ms) } } else p }

/-- One-way delay of a port in ps (R57, R58): half of the round trip measured less the turnaround, plus the backplane asymmetry. -/
def Agg.portDelay (g : Agg) (p : Nat) : Int := ((g.reg (dportBase p + 0x08)).toNat : Int) + (g.port p).asymPs

/-- The 48-byte time word of a beat that leaves now (R56, R57, R62). DESIGN CHOICE (notes/assumptions/136.md): of the one-way delay whole nanoseconds
are added. -/
def Agg.beatWord (g : Agg) (p seq : Nat) : List Byte :=
  let t := g.time
  let f := schedFields t.sched t.pending
  let flags := b2n (decide (t.state = .locked)) + 2 * b2n (decide (t.state = .holdover)) +
    4 * b2n (t.sched.isSome && t.pending.isSome) + 8 * b2n t.sched.isSome
  let body := [0x5B, 1] ++ leBytes 1 flags ++ zeros 1 ++ leBytes 2 seq ++ zeros 2 ++ leBytes 8 (((g.ht : Int) + g.portDelay p / 1000).toNat) ++ leBytes 8 f.2.1 ++
    leBytes 6 f.1 ++ zeros 2 ++ leBytes 4 f.2.2.1 ++ leBytes 6 f.2.2.2.1 ++ leBytes 4 f.2.2.2.2
  body ++ leBytes 2 (crcOf crc16ccitt body)

/-! ### Commands (R71, R72, R82 to R84) -/

/-- SET_TIME_SOURCE SELECT (R82, R83). -/
def Agg.selectSource (g : Agg) (c : Caller) (source : Nat) (force : Bool) : Agg :=
  g.command c 0x05 (ring0Only c ++ failIf (decide (2 < source)) .badParam ++
      failIf (decide (source = 2) && g.time.sched.isSome) .conflict) none fun g =>
    let t := g.time
    let same := decide (source = t.source) && (decide (source ≠ 2) || decide (t.state = .locked))
    let t := if same then t
      else { t with rejected := false, prim := { seq := t.prim.seq }, alt := { seq := t.alt.seq } }
    let t := if same then t
      else if source = 2 then
        { t with source := 2, ht := if t.state = .unset then 0 else t.ht, state := .locked, everLocked := true, holdSince := some t.elapsed,
                 slew := 0, tod := [], todOk := none }
      else if source = 0 then
        { t with source := 0, ppsLost := true, edgeRun := 0, state := if t.state = .locked then .holdover else t.state, letIn := false,
                 holdSince := if t.state = .locked ∧ t.source ≠ 2 then some t.elapsed else t.holdSince,
                 heldSince := if t.state = .locked then some t.elapsed else t.heldSince }
      else { t with source := 1, exRun := 0, useAlt := false }
    let t := if force && decide (t.state = .holdover) then
        { t with rejected := false, letIn := true, slew := if t.rejected then t.offset else t.slew, edgeRun := 0 } else t
    let entered := decide (g.time.state = .locked) && decide (t.state = .holdover)
    let g := if entered then ({ g with time := t }).flag (tmFlag 18) else { g with time := t }
    g.done c 0x05 []

/-- The length of a round in windows while a tree is in force. -/
def Agg.roundWindows (g : Agg) : Option Nat := g.skim.cfg.map (·.windows)

/-- SET_TIME_SOURCE SCHEDULE_INIT (R71, R82). -/
def Agg.scheduleInit (g : Agg) (c : Caller) (epoch period : Nat) : Agg :=
  g.command c 0x05 (ring0Only c ++ failIf (!g.isRoot) .conflict ++ failIf (decide (g.time.state ≠ .locked)) .busyRetry ++
      failIf g.time.sched.isSome .conflict ++
      failIf (decide (epoch % 1000 ≠ 0) || decide (epoch < g.ht + 20000000) || decide (period < 50) || decide (1000000 < period)) .badParam) none
    fun g => (g.withTime fun t => { t with sched := some ⟨0, epoch, period⟩ }).done c 0x05 []

/-- SET_TIME_SOURCE SCHEDULE_CHANGE (R72, R82). -/
def Agg.scheduleChange (g : Agg) (c : Caller) (win period : Nat) : Agg :=
  let stale := match g.time.sched with
    | some s => decide (win < s.anchorWin) || decide (schedHt s win < g.ht + 20000000)
    | none => false
  let roundBad := match g.roundWindows with
    | some w => decide (win % w ≠ 0) || decide (w * period < 250)
    | none => false
  g.command c 0x05 (ring0Only c ++ failIf (!g.isRoot || g.time.sched.isNone || g.time.pending.isSome) .conflict ++
      failIf stale .staleEpoch ++ failIf (roundBad || decide (period < 50) || decide (1000000 < period)) .badParam) none
    fun g => (g.withTime fun t => { t with pending := some (win, period) }).done c 0x05 []

/-- SET_TIME_SOURCE LINK_ASYM (R49, R82). -/
def Agg.linkAsym (g : Agg) (c : Caller) (k : Nat) (ps : Int) : Agg :=
  g.command c 0x05 (ring0Only c ++ failIf (decide (g.skimLinks ≤ k)) .notPresent) none
    fun g => (g.modLink k fun l => { l with asymPs := ps }).done c 0x05 []

/-- SET_TIME_SOURCE DIEPORT_ASYM (R58, R82). -/
def Agg.dieportAsym (g : Agg) (c : Caller) (p : Nat) (ps : Int) : Agg :=
  g.command c 0x05 (ring0Only c) none fun g => (g.modPort p fun d => { d with asymPs := ps }).done c 0x05 []

/-- How far HT may have drifted in HOLDOVER, ns: 200 for each second (R44, R51), and at most 200 while HT_PPS alone re-centres the phase. -/
def Agg.holdoverGrowth (g : Agg) : Nat :=
  let t := g.time
  let grown := match t.holdSince with | some h => ceilDiv ((g.now - h) * 200) second | none => 0
  if t.source = 2 then 0
  else if decide (t.source = 0) && !t.ppsLost && t.refLost && decide (t.offset.natAbs ≤ 200) then min 200 grown else grown

/-- The bound of a LOCKED aggregator, ns (R54, R83). -/
def Agg.boundBase (g : Agg) : Nat := (if g.noRefNow then 0 else 4) + 2 * g.timeDepth

/-- The error bound of the aggregator against its reference, ns (R54, R83, R84). -/
def Agg.boundNs (g : Agg) : Nat :=
  let base := g.boundBase
  match g.time.state with
  | .unset => 0xFFFFFFFF
  | .acquiring => 0xFFFFFFFF
  | .locked => base
  | .holdover => min 0xFFFFFFFE (base + g.holdoverGrowth)

/-- The window now open (R70). -/
def AggTime.window (t : AggTime) : Nat := windowAt t.prev t.sched t.pending t.ht

/-- Results of GET_TIME_STATUS for the aggregator itself (R84). -/
def Agg.timeResults (g : Agg) : List (Nat × Nat) :=
  let t := g.time
  let hold := match t.state, t.heldSince with | .holdover, some h => g.now - h | _, _ => 0
  let f := schedFields t.sched t.pending
  [(3, timeStateCode t.state), (3, min 7 g.timeDepth), (64, g.ht), (32, twos 32 t.offset), (32, g.boundNs), (64, hold),
   (64, f.2.1), (48, f.1), (20, f.2.2.1), (48, f.2.2.2.1), (20, f.2.2.2.2), (48, t.window)]

end Sys2Proof.Machine
end

