-- ==== Sys2Proof/Machine/LineCode.lean ====
section
/-!
DEFINITION. LineCode.lean: what a lane carries: scrambled 64b/66b blocks on a die port, RS(544,514) codewords on a skim link: R291, R308 and
R311 of spec/08_links.md.
-/
namespace Sys2Proof.Machine

/-! ### The scrambler x^58 + x^39 + 1 (R291) -/

/-- One bit through the scrambler. Its state is the last 58 bits sent, the newest in bit 0. -/
def scrambleBit (s : BitVec 58) (b : Bool) : Bool × BitVec 58 :=
  let o := b ^^ s.getLsbD 38 ^^ s.getLsbD 57
  (o, s.shiftConcat o)

/-- The receiver's inverse: it needs nothing but the bits that arrived. -/
def descrambleBit (s : BitVec 58) (o : Bool) : Bool × BitVec 58 := (o ^^ s.getLsbD 38 ^^ s.getLsbD 57, s.shiftConcat o)

/-- A byte, its least significant bit first. -/
def scrambleByte (step : BitVec 58 → Bool → Bool × BitVec 58) (s : BitVec 58) (b : Byte) : Byte × BitVec 58 :=
  (List.range 8).foldl (fun (x : Byte × BitVec 58) i =>
    let r := step x.2 (b.getLsbD i)
    (if r.1 then x.1 ||| BitVec.ofNat 8 (2 ^ i) else x.1, r.2)) (0, s)

def scrambleWith (step : BitVec 58 → Bool → Bool × BitVec 58) : BitVec 58 → List Byte → List Byte × BitVec 58
  | s, [] => ([], s)
  | s, b :: bs =>
    let r := scrambleByte step s b
    let t := scrambleWith step r.2 bs
    (r.1 :: t.1, t.2)

def scramble (s : BitVec 58) (bs : List Byte) : List Byte × BitVec 58 := scrambleWith scrambleBit s bs
def descramble (s : BitVec 58) (bs : List Byte) : List Byte × BitVec 58 := scrambleWith descrambleBit s bs

/-- `n` 66-bit blocks of 8 bytes each. -/
def lineBlocks (sync : BitVec 2) : Nat → List Byte → List LineBlock
  | 0, _ => []
  | n + 1, bs => ⟨sync, bs.take 8⟩ :: lineBlocks sync n (bs.drop 8)

/-- The sync header of a data block, as in IEEE 802.3 (PRESUMED, notes/assumptions/111.md). -/
def dataSync : BitVec 2 := 0b01

/-- A die-port flit is 16 blocks of 66 bits (R291). -/
def flitBlocks (scrambled : List Byte) : List LineBlock := lineBlocks dataSync 16 scrambled

/-! ### RS(544,514) over GF(2^10) (R291, R311) -/

/-- Multiply in GF(2^10), whose polynomial is x^10 + x^3 + 1 in Clause 91 of IEEE 802.3 (PRESUMED, notes/assumptions/111.md). -/
def gfMul (a b : Nat) : Nat :=
  ((List.range 10).foldl (fun (x : Nat × Nat) i =>
    let d := 2 * x.2
    (if b.testBit i then x.1 ^^^ x.2 else x.1, if d.testBit 10 then d ^^^ 0x409 else d)) (0, a)).1

/-- Multiply a polynomial, its highest coefficient first, by x + r. -/
def polyTimes (p : List Nat) (r : Nat) : List Nat := (p ++ [0]).zipWith (fun a b => a ^^^ b) (0 :: p.map (gfMul r))

/-- The generator: the product of x + 2^j for j from 0 to 29. -/
def rsGenerator : List Nat := ((List.range 30).foldl (fun (x : List Nat × Nat) _ => (polyTimes x.1 x.2, gfMul x.2 2)) ([1], 1)).1

/-- The 30 parity symbols of a message: the remainder of message × x^30. -/
def rsParity (m : List Nat) : List Nat :=
  let g := rsGenerator.drop 1
  m.foldl (fun r x =>
    let f := x ^^^ r.headD 0
    (r.drop 1 ++ [0]).zipWith (fun a b => a ^^^ gfMul f b) g) (List.replicate 30 0)

def rsEncode (m : List Nat) : List Nat := m ++ rsParity m

/-- `n` symbols of 10 bits, the lowest first. -/
def symbolsOf (n v : Nat) : List Nat := (List.range n).map fun i => v / 2 ^ (10 * i) % 1024

/-- The 5,140 message bits of a codeword: the scrambled flit, then 20 framing bits with the codeword count (R311). -/
def codewordMessage (scrambled : List Byte) (count : Nat) : List Nat := symbolsOf 514 (leAt scrambled 0 640 + 2 ^ 5120 * (count % 65536))

/-- The 544 symbols of a codeword. -/
def codewordOf (scrambled : List Byte) (count : Nat) : List Nat := rsEncode (codewordMessage scrambled count)

end Sys2Proof.Machine
end

