-- ==== Sys2Proof/Machine/Links.lean ====
section
/-!
DEFINITION. Links.lean: one end of a die port: flits, send order, retry and training: R293 to R309 of spec/08_links.md. The retry rules
(R296 to R298) also serve the skim links (R313).
-/
namespace Sys2Proof.Machine

/-! ### Retry (R296 to R298) -/

/-- Sequence numbers are 12 bits wide. -/
def seqMod : Nat := 4096

/-- ACK field (R293, R297): last SEQ received in order, ACK_VALID, NAK. -/
def Retry.ackField (r : Retry) : Nat :=
  (if r.ackValid then (r.expectSeq + seqMod - 1) % seqMod + 4096 else 0) + 8192 * b2n r.nakDue

/-- A flit has left with this ACK field: NAK is sent once per missing SEQ (R297). -/
def Retry.acked (r : Retry) : Retry := if r.nakDue then { r with nakDue := false, nakSent := true } else r

/-- Drop held flits up to and including a SEQ (cumulative, R297). -/
def dropThrough (seq : Nat) : List HeldFlit → Option (List HeldFlit)
  | [] => none
  | f :: fs => if f.seq = seq then some fs else dropThrough seq fs

/-- Start a replay of every held flit from the oldest (R297); none when the oldest has been replayed 8 times already (R298). A replay that runs
starts again. -/
def Retry.startReplay (r : Retry) (now : Nat) : Option Retry :=
  match r.held with
  | [] => some r
  | h :: hs =>
    if r.replays ≥ 8 then none
    else some { r with replayLeft := r.held.length, replays := r.replays + 1, held := { h with sentAt := now } :: hs }

/-- A NAK starts a replay: its ACK field carries one, and something is held. -/
def Retry.nakReplays (r : Retry) (ack : Nat) : Bool := ack.testBit 13 && !r.held.isEmpty

/-- The far end's ACK field arrives (R297): held flits are released, and a NAK starts a replay. -/
def Retry.onAck (r : Retry) (ack now : Nat) : Option Retry :=
  let r1 := if ack.testBit 12 then
      match dropThrough (ack % seqMod) r.held with
      | some fs => { r with held := fs, replays := 0, replayLeft := min r.replayLeft fs.length }
      | none => r
    else r
  if ack.testBit 13 then r1.startReplay now else some r1

/-- A DATA flit of a SEQ arrives whole: accepted only in order (R296). -/
def Retry.accepts (r : Retry) (seq : Nat) : Bool := decide (seq = r.expectSeq)
def Retry.accept (r : Retry) : Retry :=
  { r with expectSeq := (r.expectSeq + 1) % seqMod, ackValid := true, nakDue := false, nakSent := false }

/-- A DATA flit is discarded: NAK in the next flit, once per missing SEQ (R297). -/
def Retry.discard (r : Retry) : Retry := if r.nakSent then r else { r with nakDue := true }

/-- An unacknowledged flit has been held for 2 microseconds (R297). -/
def Retry.timedOut (r : Retry) (now : Nat) : Bool := match r.held with | [] => false | h :: _ => decide (h.sentAt + 2000 ≤ now)

/-- Keep a DATA flit that has just been sent (R296). -/
def Retry.keep (r : Retry) (h : HeldFlit) : Retry := { r with held := r.held ++ [h], nextSeq := (r.nextSeq + 1) % seqMod }

/-- The next flit of a replay, and the retry state once it has been sent (R297). -/
def Retry.nextReplay (r : Retry) (now : Nat) : Option (HeldFlit × Retry) :=
  let i := r.held.length - r.replayLeft
  match r.held[i]? with
  | none => none
  | some h => some (h, { r with held := r.held.set i { h with sentAt := now }, replayLeft := r.replayLeft - 1 })

/-! ### Die-port flits (R293) -/

/-- A 128-byte die-port flit. `typ` is the TYPE byte, `flags` the FLAGS byte. -/
def dieFlit (typ flags seq ack len : Nat) (payload : List Byte) : List Byte :=
  withCrc crc32ieee (leBytes 1 typ ++ leBytes 1 flags ++ leBytes 2 seq ++ leBytes 2 ack ++ leBytes 1 len ++ zeros 1 ++ padTo 116 payload)

def flitType (f : List Byte) : Nat := leAt f 0 1 % 16
def flitKind (f : List Byte) : Nat := leAt f 0 1 / 16
def flitGood (f : List Byte) : Bool := decide (f.length = 128) && crcGood crc32ieee f

/-- A held DATA flit as it goes on the lane. -/
def dataFlit (r : Retry) (replay : Bool) (h : HeldFlit) : List Byte :=
  dieFlit (1 + 16 * h.kind) (b2n h.start + 2 * b2n h.stop + 4 * b2n replay) h.seq r.ackField h.payload.length h.payload

/-- A flit is driven on the lane as 16 scrambled blocks (R291). -/
def PortEnd.drive (p : PortEnd) (f : List Byte) : PortEnd :=
  let x := scramble p.scram f
  { p with lastTx := some f, lane := .flit, line := flitBlocks x.1, scram := x.2, retry := p.retry.acked }

/-- The next message of a KIND: the one in progress, or the oldest waiting (R294). -/
def PortEnd.nextOf (p : PortEnd) (k : Nat) : Option TxMsg :=
  match p.current.find? (·.kind = k) with
  | some m => some m
  | none => (p.waiting.find? (·.1 = k)).map fun w => ⟨k, false, w.2⟩

/-- Remove the oldest waiting message of a KIND. -/
def dropKind (k : Nat) : List (Nat × List Byte) → List (Nat × List Byte)
  | [] => []
  | w :: ws => if w.1 = k then ws else w :: dropKind k ws

/-- Send the next flit of a message (R294, R296): it is kept until it is acknowledged. -/
def PortEnd.sendData (p : PortEnd) (now : Nat) (m : TxMsg) : PortEnd :=
  let part := m.rest.take 116
  let rest := m.rest.drop 116
  let h : HeldFlit := ⟨p.retry.nextSeq, m.kind, !m.started, rest.isEmpty, part, now⟩
  let waiting := if m.started then p.waiting else dropKind m.kind p.waiting
  let current := p.current.filter (·.kind ≠ m.kind)
  let q := { p with waiting := waiting, current := if rest.isEmpty then current else ⟨m.kind, true, rest⟩ :: current, retry := p.retry.keep h }
  q.drive (dataFlit p.retry false h)

/-- Send the next flit of the replay now running (R297). -/
def PortEnd.sendReplay (p : PortEnd) (now : Nat) : PortEnd :=
  match p.retry.nextReplay now with
  | none => { p with retry := { p.retry with replayLeft := 0 } }
  | some (h, r) => { p with retry := r }.drive (dataFlit p.retry true h)

/-- IDLE. -/
def PortEnd.sendIdle (p : PortEnd) : PortEnd := p.drive (dieFlit 0 0 0 p.retry.ackField 0 [])

/-- What a flit boundary sends once no SAFETY or TIME flit is ready (R294): a replay as a unit, then DATA of the first KIND in
`kinds` that is ready, then IDLE. The retry buffer holds 128 flits. Answers how the counters move: DATA sent, DATA replayed. -/
def PortEnd.sendNext (p : PortEnd) (now : Nat) (kinds : List Nat) : PortEnd × Nat × Nat :=
  if p.retry.replayLeft ≠ 0 then (p.sendReplay now, 0, 1)
  else if 128 ≤ p.retry.held.length then (p.sendIdle, 0, 0)
  else match kinds.findSome? p.nextOf with
    | some m => (p.sendData now m, 1, 0)
    | none => (p.sendIdle, 0, 0)

/-- A message part arrives (R294): START begins a message, END delivers it. -/
def PortEnd.takePart (p : PortEnd) (kind : Nat) (start stop : Bool) (part : List Byte) : PortEnd × Option (Nat × List Byte) :=
  let old := if start then [] else ((p.partRx.find? (·.1 = kind)).map (·.2)).getD []
  let rest := p.partRx.filter (·.1 ≠ kind)
  if stop then ({ p with partRx := rest }, some (kind, old ++ part))
  else ({ p with partRx := (kind, old ++ part) :: rest }, none)

/-- What a receiver makes of a flit. -/
structure RxResult where
  port    : PortEnd
  /-- The link goes DOWN with REPLAY_LIMIT (R298). -/
  limit   : Bool := false
  crcErr  : Bool := false
  /-- A NAK has started a replay. -/
  replay  : Bool := false
  /-- A DATA flit was accepted. -/
  taken   : Bool := false
  /-- A whole message, with its KIND. -/
  msg     : Option (Nat × List Byte) := none
  /-- A TIME, SAFETY or LOOPBACK flit's type and payload. -/
  side    : Option (Nat × List Byte) := none
  deriving DecidableEq, Repr

/-- A flit in training (R304 step 2): one that passes its CRC shows block lock, and 256 of them in a row end the exchange of IDLE flits. -/
def PortEnd.countIdle (p : PortEnd) (good : Bool) : PortEnd :=
  if p.state ≠ .train then p
  else
    let n := if good then p.training.idleRun + 1 else 0
    { p with training := { p.training with idleRun := n, blockLock := p.training.blockLock || good, idleGood := p.training.idleGood || decide (256 ≤ n) } }

/-- A flit arrives at an end (R293 to R298, R304). -/
def PortEnd.receive (p : PortEnd) (now : Nat) (f : List Byte) : RxResult :=
  let p := p.countIdle (flitGood f)
  if !flitGood f then
    { port := if flitType f = 1 then { p with retry := p.retry.discard } else p, crcErr := true }
  else
    let p := { p with lastGood := now }
    match p.retry.onAck (leAt f 4 2) now with
    | none => { port := p, limit := true }
    | some r =>
      let p := { p with retry := r }
      let again := r.nakReplays (leAt f 4 2)
      let len := leAt f 6 1
      if flitType f = 1 then
        if p.retry.accepts (leAt f 2 2 % seqMod) then
          let q := { p with retry := p.retry.accept }
          let (q, msg) := q.takePart (flitKind f) (bitAt (leAt f 1 1) 0) (bitAt (leAt f 1 1) 1) (bytesAt f 8 (min len 116))
          { port := q, replay := again, taken := true, msg := msg }
        else { port := { p with retry := p.retry.discard }, replay := again }
      else if flitType f = 0 then { port := p, replay := again }
      else { port := p, replay := again, side := some (flitType f, bytesAt f 8 116) }

/-! ### Training (R304 to R306) -/

/-- Leave UP, or fail: retry buffers, partly received messages and queued messages are discarded (R306), and electrical idle begins. -/
def PortEnd.goDown (p : PortEnd) (now : Nat) : PortEnd :=
  { state := .down, training := { failures := p.training.failures, idleUntil := some (now + 10000) }, lastGood := p.lastGood, scram := p.scram }

/-- A training attempt starts (R304) once electrical idle, or the wait after failures, is over: the end sends the training pattern. -/
def PortEnd.trainStart (p : PortEnd) (now : Nat) : PortEnd :=
  let past := match p.training.idleUntil with | some t => decide (t ≤ now) | none => true
  if decide (p.state = .down) && past then
    { p with state := .train, lane := .pattern, training := { failures := p.training.failures, startedAt := some now } }
  else p

/-- Block lock, and 256 consecutive good IDLE flits (R304 step 2). -/
def PortEnd.lock (p : PortEnd) : PortEnd :=
  if p.state = .train then { p with training := { p.training with blockLock := true, idleGood := true } } else p

/-- Electrical idle after failed attempts in a row (R305): 10 µs after the first and the second, 1 ms after the third, doubling to 1 s. -/
def failWait (failures : Nat) : Nat := if failures < 3 then 10000 else min 1000000000 (1000000 * 2 ^ min 20 (failures - 3))

/-- An attempt has not reached UP within its bound (R305). -/
def PortEnd.trainFail (p : PortEnd) (now bound : Nat) : PortEnd :=
  match p.training.startedAt with
  | some t =>
    if (p.state = .train ∨ p.state = .calibrate) ∧ t + bound ≤ now then
      { p with state := .down, training := { failures := p.training.failures + 1, idleUntil := some (now + failWait (p.training.failures + 1)) },
               lastTx := none, lane := .quiet, line := [] }
    else p
  | none => p

/-- A back-off wait ends (R305). -/
def PortEnd.waitEnd (p : PortEnd) (now : Nat) : PortEnd :=
  match p.training.idleUntil with
  | some t => if p.state = .down ∧ t ≤ now then { p with training := { p.training with idleUntil := none } } else p
  | none => p

/-- Enter UP (R304 step 5): SEQ 0, empty retry buffer, numbering of beats from 0, failures forgotten. -/
def PortEnd.goUp (p : PortEnd) (now : Nat) : PortEnd :=
  { state := .up, training := { blockLock := p.training.blockLock, idleGood := p.training.idleGood, loops := p.training.loops, loopMin := p.training.loopMin },
    lastGood := now, lane := .flit, scram := p.scram }

end Sys2Proof.Machine
end

