-- ==== Sys2Proof/Machine/SkimLinks.lean ====
section
/-!
DEFINITION. SkimLinks.lean: skim-link flits, egress queues, meters, deficit round robin, credits, lanes and training: R311 to R322 of
spec/08_links.md and R326 to R357 of spec/09_traffic.md.
-/
namespace Sys2Proof.Machine

/-! ### Classes and slots -/

def SkimLink.txOf (l : SkimLink) (c : Nat) : ClassTx := if h : c < 8 then l.tx[c] else {}
def SkimLink.modTx (l : SkimLink) (c : Nat) (f : ClassTx → ClassTx) : SkimLink :=
  if h : c < 8 then { l with tx := l.tx.set c (f l.tx[c]) } else l
def SkimLink.rxOf (l : SkimLink) (c : Nat) : ClassRx := if h : c < 8 then l.rx[c] else {}
def SkimLink.modRx (l : SkimLink) (c : Nat) (f : ClassRx → ClassRx) : SkimLink :=
  if h : c < 8 then { l with rx := l.rx.set c (f l.rx[c]) } else l

/-- Reserved slots and shared cap of each class, and the shared pool (R344). -/
def reservedSlots : List Nat := [256, 128, 1024, 512, 512, 512, 512, 256]
def sharedCaps : List Nat := [0, 0, 1024, 1024, 2048, 2048, 2048, 1024]
def sharedPool : Nat := 4480

/-- Bytes that a message with no stated layout takes: one slot, and its whole bytes. -/
def Ctl.wire (m : Ctl) : List Byte := zeros 64 ++ m.bytes

/-- Queue a message on a class of a link. -/
def Agg.queueOn (g : Agg) (k c : Nat) (m : SkimMsg) : Agg :=
  g.modLink k fun l => l.modTx c fun t => { t with queue := t.queue ++ [m], headAt := if t.queue.isEmpty then g.now else t.headAt }

/-- Queue a message whose bytes the spec lays out. -/
def Agg.queueBytes (g : Agg) (k c : Nat) (bytes : List Byte) (deadline : Option Nat) : Agg :=
  g.queueOn k c { bytes := bytes, deadline := deadline, queuedAt := g.now }

/-- Queue a message whose layout the spec leaves open. -/
def Agg.queueCtl (g : Agg) (k c : Nat) (m : Ctl) : Agg :=
  g.queueOn k c { bytes := m.wire, ctl := some m, queuedAt := g.now }

/-! ### TC3 requests (R355) -/

/-- The links to the peer that a link leads to: those that trained with the same TRAY_ID and PAIR_ROLE (R317). -/
def Agg.peerLinks (g : Agg) (k : Nat) : List Nat := (List.range 32).filter fun j => decide (g.fld (sklinkBase j + 4) 12 0 = g.fld (sklinkBase k + 4) 12 0)

/-- Requests outstanding to the peer of a link. -/
def Agg.peerReqs (g : Agg) (k : Nat) : Nat := ((g.peerLinks k).map fun j => (g.link j).reqs).sum

/-- Requests that wait leave while fewer than 16 are outstanding to their peer. -/
def Agg.pumpReqs (k : Nat) : Nat → Agg → Agg
  | 0, g => g
  | n + 1, g =>
    if 16 ≤ g.peerReqs k then g
    else match (g.peerLinks k).find? fun j => !(g.link j).reqWait.isEmpty with
      | none => g
      | some j =>
        match (g.link j).reqWait with
        | [] => g
        | m :: rest => Agg.pumpReqs k n ((g.queueOn j 3 m).modLink j fun l => { l with reqs := l.reqs + 1, reqWait := rest })

/-- A TC3 request to a peer. At most 16 are outstanding to a peer; a further one waits for an answer. Each is one structured message, shorter than
1 KiB. -/
def Agg.request (g : Agg) (k : Nat) (m : Ctl) : Agg :=
  Agg.pumpReqs k 16 (g.modLink k fun l => { l with reqWait := l.reqWait ++ [{ bytes := m.wire, ctl := some m, queuedAt := g.now }] })

/-- A request has its answer, or is given up: the next one that waits leaves. -/
def Agg.answered (g : Agg) (k : Nat) : Agg := Agg.pumpReqs k 16 (g.modLink k fun l => { l with reqs := l.reqs - 1 })

/-! ### The partner bundle (R3, R322, R356) -/

/-- The far end of a link is the partner module (R317). -/
def Agg.isPartner (g : Agg) (k : Nat) : Bool :=
  decide (g.fld (sklinkBase k + 4) 11 0 = g.ident.trayId) && decide (g.fld (sklinkBase k + 4) 12 12 ≠ g.ident.role)

/-- The partner has reported another AGG_CAPS.VARIANT in training (R3, R317): this module runs as a single. -/
def Agg.otherVariant (g : Agg) : Bool :=
  (List.range 32).any fun k => g.isPartner k && decide ((g.link k).peerCaps ≠ 0) && decide ((g.link k).peerCaps ≠ g.fld 0x10 31 28)

/-- The module is one of a pair (R2, R3, R31). -/
def Agg.paired (g : Agg) : Bool := g.ident.paired && !g.otherVariant

/-- Links in UP whose far end is the partner module (R317, R322). -/
def Agg.partnerLinks (g : Agg) : List Nat :=
  if g.otherVariant then [] else (List.range 32).filter fun k => decide ((g.link k).state = .up) && g.isPartner k

/-- The partner bundle is up. -/
def Agg.partnerUp (g : Agg) : Bool := !g.partnerLinks.isEmpty

/-- TC6 messages of a link that are not acknowledged (R356). -/
def SkimLink.unackedTc6 (l : SkimLink) : Nat := (l.txOf 6).queue.length + l.tc6Sent.length
def Agg.unackedTc6 (g : Agg) : Nat := (g.partnerLinks.map fun k => (g.link k).unackedTc6).sum

/-- A message whole on the next member in rotation (R322). Its number goes before it, in 4 bytes (DESIGN CHOICE, notes/assumptions/112.md). -/
def Agg.placeTc6 (g : Agg) (m : SkimMsg) : Agg :=
  let ks := g.partnerLinks
  match ks[g.bundle.nextMember % (max 1 ks.length)]? with
  | none => g
  | some k =>
    let n := g.bundle.nextSeq
    let g' := g.queueOn k 6 { m with bytes := leBytes 4 n ++ m.bytes, bundle := some n }
    { g' with bundle := { g'.bundle with nextMember := g.bundle.nextMember + 1, nextSeq := (n + 1) % 2 ^ 32 } }

/-- One TC6 message: it leaves now, or waits while 64 are unacknowledged (R356). Nothing is sent while the bundle is down. -/
def Agg.sendTc6 (g : Agg) (m : SkimMsg) : Agg :=
  if !g.partnerUp then g
  else if g.unackedTc6 < 64 && g.bundle.waiting.isEmpty then g.placeTc6 m
  else { g with bundle := { g.bundle with waiting := g.bundle.waiting ++ [m] } }

/-- The parts in which a longer message travels: with its number before it, each is at most 64 KiB (R356). -/
def tc6Parts (m : SkimMsg) : Nat → List Byte → List SkimMsg
  | 0, bs => [{ m with bytes := bs }]
  | n + 1, bs => if bs.length ≤ 65532 then [{ m with bytes := bs }] else { m with bytes := bs.take 65532 } :: tc6Parts m n (bs.drop 65532)

/-- Send to the partner in TC6. -/
def Agg.toPartnerMsg (g : Agg) (m : SkimMsg) : Agg := (tc6Parts m m.bytes.length m.bytes).foldl Agg.sendTc6 g

/-- Messages that wait leave as others are acknowledged (R356). -/
def Agg.pumpTc6 : Nat → Agg → Agg
  | 0, g => g
  | n + 1, g =>
    match g.bundle.waiting with
    | [] => g
    | m :: rest =>
      if g.partnerUp && decide (g.unackedTc6 < 64) then Agg.pumpTc6 n ({ g with bundle := { g.bundle with waiting := rest } }.placeTc6 m) else g

/-- Send to the partner in another class than TC6, on the first member in UP. -/
def Agg.toPartnerIn (g : Agg) (c : Nat) (bytes : List Byte) : Agg :=
  match g.partnerLinks with
  | [] => g
  | k :: _ => g.queueBytes k c bytes none

def Agg.toPartner (g : Agg) (m : Ctl) : Agg := g.toPartnerMsg { bytes := m.wire, ctl := some m, queuedAt := g.now }

/-- A TC6 message whose bytes the spec lays out. -/
def Agg.toPartnerRaw (g : Agg) (bytes : List Byte) : Agg := g.toPartnerMsg { bytes := bytes, queuedAt := g.now }

/-- PARTNER_HT_COMPARE (R53, R326): this module's HT goes to the partner in TC1, and the partner's is compared. -/
def Agg.compareHt (g : Agg) (theirs : Nat) : Agg :=
  match g.partnerLinks with
  | [] => g.partnerHt theirs
  | k :: _ => (g.queueCtl k 1 { kind := .htCompare, nums := [g.ht] }).partnerHt theirs

/-! ### Flits (R312) -/

/-- A 640-byte flit. -/
def skimFlit (typ flags seq ack : Nat) (credit : List Nat) (tags slots : List Byte) : List Byte :=
  let head := leBytes 1 typ ++ leBytes 1 flags ++ leBytes 2 seq ++ leBytes 2 ack ++ zeros 2 ++ credit.flatMap (leBytes 2) ++
    padTo 18 tags ++ zeros 14
  let body := padTo 576 slots
  head ++ leBytes 8 (crcOf crc64ecma (head ++ body)) ++ body

def skimFlitGood (f : List Byte) : Bool :=
  decide (f.length = 640) && decide (leAt f 56 8 = crcOf crc64ecma (f.take 56 ++ f.drop 64))

/-- The CREDIT field: granted counts, TC0 first (R345). -/
def SkimLink.creditField (l : SkimLink) : List Nat := l.rx.toList.map (·.granted)

/-- SLOT_TAG of a slot (R312). -/
def slotTag (c : Nat) (start stop : Bool) (valid : Nat) : Nat := c + 8 * b2n start + 16 * b2n stop + 32 * valid

/-! ### Lanes (R311, R318 to R321) -/

def LaneState.isActive (s : LaneState) : Bool := match s with | .active => true | _ => false

/-- Active lanes as a mask. -/
def SkimLink.laneMask (l : SkimLink) : Nat := b2n (l.lanes[0]).state.isActive + 2 * b2n (l.lanes[1]).state.isActive

def SkimLink.activeLanes (l : SkimLink) : Nat := b2n (l.lanes[0]).state.isActive + b2n (l.lanes[1]).state.isActive

/-- The lanes that carry codewords: the active ones, and in CALIBRATE those that have trained (R317). -/
def SkimLink.driven (l : SkimLink) : Nat := if l.state = .calibrate then l.trained else l.laneMask

/-- The lane of codeword c: those lanes in turn, in ascending number (R311). -/
def SkimLink.laneAt (l : SkimLink) (c : Nat) : Nat := if l.driven % 4 = 3 then c % 2 else if l.driven % 4 = 2 then 1 else 0

/-- The next codeword goes out on the lowest-numbered active lane (R311). -/
def SkimLink.onLowest (l : SkimLink) : Bool := decide (l.codeword % (max 1 l.activeLanes) = 0)

/-- The flit goes out in the next codeword, on its lane (R311): the count of codewords advances, and NAK is taken as sent. -/
def SkimLink.drive (l : SkimLink) (f : List Byte) : SkimLink :=
  let x := scramble l.scram f
  { l with lastTx := some f, lastWord := some (l.laneAt l.codeword, codewordOf x.1 l.codeword), scram := x.2, retry := l.retry.acked,
           codeword := (l.codeword + 1) % 65536 }

/-! ### Gates and meters (R330 to R339) -/

/-- Classes open now (R330, R332): the entry in force, with TC0 and TC1 always open. -/
def Agg.gateMask (g : Agg) : Nat := (g.fld (0x40040 + 4 * g.gates.entry) 23 16) ||| 3

/-- One profile in force: CIR, PIR in MB/s, CBS, PBS in KiB, QUANTUM in bytes. -/
structure Meter where
  cir : Nat
  pir : Nat
  cbs : Nat
  pbs : Nat
  quantum : Nat
  deriving DecidableEq, Repr

def Agg.meterAt (g : Agg) (base c : Nat) : Meter :=
  let b := base + 0x10 * c
  ⟨g.fld b 15 0, g.fld b 31 16, g.fld (b + 4) 15 0, g.fld (b + 4) 31 16, g.fld (b + 8) 19 0⟩

/-- The profile of a class in force. -/
def Agg.meter (g : Agg) (c : Nat) : Meter := g.meterAt 0x40180 c

/-- Buckets grow while the gate of their class is open (R337, R338). A MB/s is one byte per microsecond. -/
def Agg.fillBuckets (g : Agg) (k : Nat) : Agg :=
  let mask := g.gateMask
  g.modLink k fun l =>
    let dt := g.now - l.meterAt
    let one (l : SkimLink) (c : Nat) : SkimLink :=
      let m := g.meter c
      if mask.testBit c then l.modTx c fun t =>
        { t with tc := min (m.cbs * 1024000) (t.tc + m.cir * dt), tp := min (m.pbs * 1024000) (t.tp + m.pir * dt) }
      else l
    { ([3, 4, 5, 6, 7].foldl one l) with meterAt := g.now }

/-- Buckets of every link, before the gates change. -/
def Agg.fillAll (g : Agg) : Agg := (List.range 32).foldl Agg.fillBuckets g

/-- Full buckets (R338). -/
def Agg.fullBuckets (g : Agg) (l : SkimLink) : SkimLink :=
  [3, 4, 5, 6, 7].foldl (fun l c => l.modTx c fun t => { t with tc := (g.meter c).cbs * 1024000, tp := (g.meter c).pbs * 1024000 })
    { l with meterAt := g.now }

/-- Colours of the meter. -/
inductive Colour where
  | red | yellow | green
  deriving DecidableEq, Repr

def ClassTx.colour (t : ClassTx) : Colour := if t.tp < 64000 then .red else if t.tc < 64000 then .yellow else .green

/-- A slot of the class waits, and the far end has granted a slot for it (R345). -/
def ClassTx.waiting (t : ClassTx) : Bool := !t.queue.isEmpty
def ClassTx.hasCredit (t : ClassTx) : Bool :=
  let d := (t.granted + 65536 - t.slots) % 65536
  decide (1 ≤ d) && decide (d ≤ 32767)

/-! ### Deficit round robin (R341 to R343) -/

/-- A turn ends when the deficit is used up: the class goes to the tail, or leaves where it has no ready slot. A turn that ends for want of a ready
slot ends where the list would next serve the class (`Drr.pick`). -/
def Drr.endTurn (d : Drr) (ready : Nat → Bool) : Drr :=
  match d.turned, d.active with
  | true, (c, x) :: rest => if 64 ≤ x then d else ⟨if ready c then rest ++ [(c, x)] else rest, false⟩
  | _, _ => d

/-- Classes that have become ready join the tail in ascending number with deficit 0. -/
def Drr.join (d : Drr) (classes : List Nat) (ready : Nat → Bool) : Drr :=
  { d with active := d.active ++ ((classes.filter fun c => ready c && !d.active.any (·.1 = c)).map fun c => (c, 0)) }

/-- What every flit build, and every slot of one, does first: a turn that is over ends, and classes that are ready join. -/
def Drr.sync (d : Drr) (classes : List Nat) (ready : Nat → Bool) : Drr := (d.endTurn ready).join classes ready

/-- The class that sends next, at a cost in bytes, and the list after it. -/
def Drr.pick (ready : Nat → Bool) (quantum cost : Nat → Nat) : Nat → Drr → Option Nat × Drr
  | 0, d => (none, d)
  | k + 1, d =>
    match d.active with
    | [] => (none, { d with turned := false })
    | (c, x) :: rest =>
      let y := if d.turned then x else x + quantum c
      if cost c ≤ y && ready c then (some c, ⟨(c, y - cost c) :: rest, true⟩)
      else Drr.pick ready quantum cost k ⟨if ready c then rest ++ [(c, y)] else rest, false⟩

/-! ### Building a flit (R327 to R329) -/

/-- TC2 messages whose first slot has not left by their deadline, at the front of the queue or behind it (R336). -/
def expiredMsgs (ht : Nat) (t : ClassTx) : List SkimMsg :=
  (if t.off = 0 then t.queue else t.queue.drop 1).filter fun m => match m.deadline with | some d => decide (d < ht) | none => false

/-- Discard them, and count them in LOST. -/
def ClassTx.expire (ht now : Nat) (t : ClassTx) : ClassTx :=
  let keep (m : SkimMsg) : Bool := match m.deadline with | some d => decide (ht ≤ d) | none => true
  let q := if t.off = 0 then t.queue.filter keep else t.queue.take 1 ++ (t.queue.drop 1).filter keep
  let head := decide (t.off = 0) && (match t.queue.head? with | some m => !keep m | none => false)
  { t with queue := q, lost := t.lost + (t.queue.length - q.length), headAt := if head then now else t.headAt,
           delayMax := if head then max t.delayMax (now - t.headAt) else t.delayMax }

/-- TC2_EXPIRE on a link (R336). -/
def Agg.tc2Expire (g : Agg) (k : Nat) : Agg :=
  let t := (g.link k).txOf 2
  if (expiredMsgs g.ht t).isEmpty then g
  else ((g.modLink k fun l => l.modTx 2 (ClassTx.expire g.ht g.now)).flag (tcFlag 2))

/-- Take the next slot of a class: its tag, its 64 bytes, and the link after it. `free` gives the bytes of a message whose layout the spec
leaves open; the number of a TC6 message goes before them. A TC6 message that has left whole is kept with the SEQ of its last slot's flit (R322). -/
def SkimLink.takeSlot (l : SkimLink) (c now : Nat) (free : Nat → Byte) (fromTc fromTp : Bool) : Nat × List Byte × SkimLink :=
  let t := l.txOf c
  match t.queue with
  | [] => (0, [], l)
  | m :: rest =>
    let part := bytesAt m.bytes t.off 64
    let n := part.length
    let stop := decide (m.bytes.length ≤ t.off + 64)
    let known := if c = 6 ∧ t.off = 0 then 4 else 0
    let bytes := if m.ctl.isSome then part.take known ++ (List.range (n - known)).map free else part
    let t' := { t with queue := if stop then rest else t.queue, off := if stop then 0 else t.off + 64, headAt := now,
                       delayMax := max t.delayMax (now - t.headAt), sent := (t.sent + n) % 2 ^ 48, slots := (t.slots + 1) % 65536,
                       tc := if fromTc then t.tc - 64000 else t.tc, tp := if fromTp then t.tp - 64000 else t.tp }
    let l' := l.modTx c fun _ => t'
    (slotTag c (decide (t.off = 0)) stop n, padTo 64 bytes,
      if c = 6 && stop then { l' with tc6Sent := l'.tc6Sent ++ [(m, l.retry.nextSeq)] } else l')

/-- A class may send a slot at this flit build. -/
def SkimLink.eligible (l : SkimLink) (mask c : Nat) : Bool :=
  let t := l.txOf c
  t.waiting && mask.testBit c && t.hasCredit

/-- The classes that the meters and the round robins serve. -/
def metered : List Nat := [3, 4, 5, 6, 7]

def SkimLink.isColour (l : SkimLink) (mask : Nat) (k : Colour) (c : Nat) : Bool := l.eligible mask c && decide ((l.txOf c).colour = k)

/-- Both lists follow what is ready now (R342, R343). -/
def SkimLink.syncDrr (l : SkimLink) (mask : Nat) : SkimLink :=
  { l with green := l.green.sync metered (l.isColour mask .green), yellow := l.yellow.sync metered (l.isColour mask .yellow) }

/-- Fill one slot (R328): the strict classes, then the green and the yellow round robin. -/
def SkimLink.fillOne (l : SkimLink) (mask now : Nat) (quantum : Nat → Nat) (free : Nat → Byte) : Option (Nat × List Byte) × SkimLink :=
  let l := l.syncDrr mask
  match [0, 1, 2].find? (l.eligible mask) with
  | some c => let (tag, bytes, l) := l.takeSlot c now free false false; (some (tag, bytes), l)
  | none =>
    match l.green.pick (l.isColour mask .green) quantum (fun _ => 64) 12 with
    | (some c, d) => let (tag, bytes, l) := { l with green := d }.takeSlot c now free true true; (some (tag, bytes), l)
    | (none, d) =>
      match l.yellow.pick (l.isColour mask .yellow) quantum (fun _ => 64) 12 with
      | (some c, e) => let (tag, bytes, l) := { l with green := d, yellow := e }.takeSlot c now free false true; (some (tag, bytes), l)
      | (none, e) => (none, { l with green := d, yellow := e })

/-- Fill up to nine slots: tags, bytes, link. -/
def SkimLink.fill (mask now : Nat) (quantum : Nat → Nat) (free : Nat → Byte) : Nat → SkimLink → List Byte × List Byte × SkimLink
  | 0, l => ([], [], l.syncDrr mask)
  | n + 1, l =>
    match l.fillOne mask now quantum (fun i => free (64 * n + i)) with
    | (none, l) => ([], [], l)
    | (some (tag, bytes), l) =>
      let (ts, bs, l) := SkimLink.fill mask now quantum free n l
      (leBytes 2 tag ++ ts, bytes ++ bs, l)

/-- Note which classes hold a ready slot without credit (R357). -/
def SkimLink.noteStalls (l : SkimLink) (mask now : Nat) : SkimLink :=
  (List.range 8).foldl (fun l c => l.modTx c fun t =>
    if t.waiting && mask.testBit c && !t.hasCredit && decide (c < 3 ∨ t.colour ≠ .red) then { t with stalled := some (t.stalled.getD now) }
    else { t with stalled := none, reported := false }) l

/-- A DATA flit of held content (R296, R312). -/
def SkimLink.dataFlit (l : SkimLink) (rep : Bool) (h : HeldFlit) : List Byte :=
  skimFlit 1 (b2n rep) h.seq l.retry.ackField l.creditField (h.payload.take 18) (h.payload.drop 18)

/-- The request or reply that leaves now, with its instants (R46, R314). -/
def Agg.timeOut (g : Agg) (t : TimeTx) : List Byte :=
  match t with
  | .request seq => g.timeSlot false seq 0 0
  | .reply seq t2 => g.timeSlot true seq t2 g.ht

/-- t1 of the exchange whose request leaves now (R46). -/
def Agg.stampRequest (g : Agg) (k : Nat) (t : TimeTx) : Agg :=
  match t with
  | .reply _ _ => g
  | .request seq =>
    let alt := decide (g.parentLink false ≠ some k)
    let p := g.time.parent alt
    if p.waiting && decide ((seq + 1) % 65536 = p.seq) then (g.withTime fun x => x.setParent alt { p with t1 := some g.stampHt }).stamped else g

def SkimLink.sendIdle (l : SkimLink) : SkimLink := l.drive (skimFlit 0 0 0 l.retry.ackField l.creditField [] [])

/-- The DATA or IDLE flit of a flit boundary (R328). -/
def Agg.buildData (g : Agg) (k : Nat) (free : Nat → Byte) : Agg :=
  let g := (g.fillBuckets k).tc2Expire k
  let mask := g.gateMask
  g.modLink k fun l =>
    if 512 ≤ l.retry.held.length then l.sendIdle
    else
      let (ts, bs, l) := SkimLink.fill mask g.now (fun c => (g.meter c).quantum) free 9 (l.noteStalls mask g.now)
      if ts.isEmpty then l.sendIdle
      else
        let h : HeldFlit := ⟨l.retry.nextSeq, 0, false, false, padTo 18 ts ++ padTo 576 bs, g.now⟩
        let f := l.dataFlit false h
        { l with retry := l.retry.keep h }.drive f

/-- The next flit of the replay in progress (R329). -/
def SkimLink.sendReplay (now : Nat) (l : SkimLink) : SkimLink :=
  match l.retry.nextReplay now with
  | none => { l with retry := { l.retry with replayLeft := 0 } }
  | some (h, r) => { l with retry := r }.drive (l.dataFlit true h)

/-- A LOOPBACK flit (R317): one of the far end goes back as it came, or one of this end's own. The lanes that trained take turns, so that each makes
its round trips. -/
def SkimLink.sendLoop (free : Nat → Byte) (l : SkimLink) : SkimLink :=
  let s := match l.loopDue with | some s => s | none => (List.range 576).map free
  { l with loopDue := none }.drive (skimFlit 4 0 0 l.retry.ackField l.creditField [] s)

/-- The LANE_CHANGE that may leave in the next codeword: it goes on a lane that stays (R318). -/
def SkimLink.changeNow (l : SkimLink) : Bool := match l.changeDue with | some (_, mask) => mask.testBit (l.laneAt l.codeword) | none => false

/-- SKIM_FLIT_BUILD (R327). On a link in UP: SAFETY, TIME on the lowest lane, replay, LANE_CHANGE, DATA, IDLE. In CALIBRATE: LOOPBACK flits (R317). -/
def Agg.flitBuild (g : Agg) (k : Nat) (free : Nat → Byte) : Agg :=
  let l := g.link k
  if l.state = .calibrate then g.modLink k (SkimLink.sendLoop free)
  else if l.state ≠ .up then g
  else match l.safetyDue with
    | some s => g.modLink k fun l => { l with safetyDue := none }.drive (skimFlit 3 0 0 l.retry.ackField l.creditField [] s)
    | none =>
      match l.timeDue, l.onLowest with
      | t :: rest, true =>
        let s := g.timeOut t
        (g.stampRequest k t).modLink k fun l => { l with timeDue := rest }.drive (skimFlit 2 0 0 l.retry.ackField l.creditField [] s)
      | _, _ =>
        if l.retry.replayLeft ≠ 0 then (g.modLink k (SkimLink.sendReplay g.now)).inc (sklinkBase k + 0x24) 1
        else if l.changeNow then
          g.modLink k fun l => { l with changeDue := none }.drive
            (skimFlit 5 0 0 l.retry.ackField l.creditField [] ((List.range 64).map free))
        else g.buildData k free

/-- Every TC message of the queues that the link can still send goes with the link: what DOWN leaves of them (R347). TC2 messages that had
begun are lost; the others begin again. -/
def ClassTx.afterDown (now : Nat) (tc2 : Bool) (t : ClassTx) : ClassTx :=
  let cut := tc2 && decide (t.off ≠ 0)
  let moved := decide (t.off ≠ 0)
  { t with queue := if cut then t.queue.drop 1 else t.queue, lost := if cut then t.lost + 1 else t.lost, off := 0,
           headAt := if moved then now else t.headAt, delayMax := if moved then max t.delayMax (now - t.headAt) else t.delayMax, granted := 0, slots := 0, stalled := none, reported := false }

/-! ### Training and DOWN (R305, R317) -/

/-- The link as an end in the sense of R305, and back. -/
def SkimLink.asEnd (l : SkimLink) : PortEnd := { state := l.state, retry := l.retry, training := l.training, lastGood := l.lastGood }
def SkimLink.withEnd (l : SkimLink) (p : PortEnd) : SkimLink :=
  { l with state := p.state, retry := p.retry, training := p.training, lastGood := p.lastGood }

/-- The TC6 messages of a link that the far end may not have: those not acknowledged, and those that wait (R322). -/
def SkimLink.openTc6 (l : SkimLink) : List SkimMsg := l.tc6Sent.map (·.1) ++ (l.txOf 6).queue

/-- Messages of the partner bundle move to another member (R322). With no other member the bundle is down: its messages are lost and its numbers end
(DESIGN CHOICE, notes/assumptions/112.md). -/
def Agg.moveBundle (g : Agg) (k : Nat) : Agg :=
  let ms := (g.link k).openTc6
  let other := g.partnerLinks.find? (· ≠ k)
  let empty (t : ClassTx) : ClassTx :=
    { t with queue := [], off := 0, lost := if other.isNone then t.lost + ms.length else t.lost,
             delayMax := if t.queue.isEmpty then t.delayMax else max t.delayMax (g.now - t.headAt) }
  let g := g.modLink k fun l => { l.modTx 6 empty with tc6Sent := [] }
  match other with
  | none => { g with bundle := {} }
  | some j => ms.foldl (fun g m => g.queueOn j 6 m) g

/-- A link leaves UP (R305, R317, R347): counts, partly received messages and lockouts end, and the primary link's time in UP with them. -/
def Agg.linkDown (g : Agg) (k : Nat) : Agg :=
  let l := g.link k
  if l.state ≠ .up then g.modLink k fun l => l.withEnd (l.asEnd.goDown g.now)
  else
    let g := if g.partnerLinks.contains k then g.moveBundle k else g
    let g := g.modLink k fun l =>
      let l := l.withEnd (l.asEnd.goDown g.now)
      { l with lanes := Vector.replicate 2 {}, laneChange := none, changeDue := none, deskew := [], timeDue := [], safetyDue := none,
               loopDue := none, lastTx := none, lastWord := none, green := {}, yellow := {}, tc6Sent := [], reqs := 0, reqWait := [],
               rx := l.rx.map fun (r : ClassRx) => { discards := r.discards, left := r.left ++ r.held.filterMap (·.msg) },
               tx := Vector.ofFn fun (c : Fin 8) => ClassTx.afterDown g.now (decide (c.val = 2)) l.tx[c] }
    let g := if g.parentLink false = some k then { g with skim := { g.skim with primUpAt := none, returning := false } } else g
    g.flag (sklinkFlag k 8)

/-- SKIM_LINK_TRAIN (R317): the lanes that trained, who the far end is, the LOOPBACK round trips that every one of those lanes has completed, and
the asymmetry they gave. With 64 of them the link enters UP; with fewer it stands in CALIBRATE. -/
def Agg.linkTrain (g : Agg) (k lanes tray role peerLink variant trips asym0 asym1 : Nat) : Agg :=
  let l := g.link k
  if g.skimLinks ≤ k ∨ (l.state ≠ .train ∧ l.state ≠ .calibrate) ∨ lanes % 4 = 0 then g
  else
    let b := sklinkBase k
    let g := g.setRegN (b + 0x04) (tray + 0x1000 * role + 0x2000 * peerLink)
    let g := g.modLink k fun l => { l with peerCaps := variant }
    if trips < 64 then g.modLink k fun l => { l with state := .calibrate, trained := lanes % 4, training := { l.training with loops := trips } }
    else
      let g := ((g.setRegN (b + 0x08) asym0).setRegN (b + 0x0C) asym1).setRegN (b + 0x30) 0
      let g := g.modLink k fun l =>
        let l := l.withEnd (l.asEnd.goUp g.now)
        let lane (j : Nat) : Lane := if lanes.testBit j then { state := .active, admitted := some g.now, since := g.now } else { state := .down }
        g.fullBuckets { l with lanes := ⟨#[lane 0, lane 1], rfl⟩, retry := {}, codeword := 0, rxCodeword := 0, deskew := [],
                               safetySeq := 0, safetyAt := g.now, safeAt := g.now, safeMiss := 0, loopDue := none,
                               rx := Vector.ofFn fun (c : Fin 8) => { granted := reservedSlots.getD c.val 0, discards := l.rx[c].discards, left := l.rx[c].left },
                               tx := l.tx.map fun t => { t with granted := 0, slots := 0 } }
      let g := if g.parentLink false = some k then { g with skim := { g.skim with primUpAt := some g.now } } else g
      g.inc (b + 0x28) 1

/-! ### Lane changes (R318 to R321) -/

/-- Hold-off of the nth removal of a chain, in ns (R320). -/
def holdOff (n : Nat) : Nat := 2 ^ (n - 1) * second

/-- A lane is taken out (R318, R320). -/
def removedLane (now : Nat) (x : Lane) : Lane :=
  let recent := match x.admitted with | some a => decide (now ≤ a + 600 * second) | none => false
  let n := if recent then x.chain + 1 else 1
  { x with chain := n, state := if 4 ≤ n then .lockout (now + 3600 * second) else .holdoff (now + holdOff n) }

/-- HOLDOFF of AGG_SKLINKk: the hold-off or lockout of a removed lane, in seconds. -/
def laneHold (x : Lane) : Nat :=
  match x.state with
  | .holdoff _ => holdOff x.chain / second
  | .lockout _ => 3600
  | _ => 0

/-- HOLDOFF of AGG_SKLINKk follows the lanes that are held out; 0 when both are active (R320). -/
def Agg.noteHold (g : Agg) (k : Nat) : Agg :=
  g.setRegN (sklinkBase k + 0x30) (max (laneHold (g.link k).lanes[0]) (laneHold (g.link k).lanes[1]))

/-- Everything held is sent again from the oldest (R297, R318), within the limit of R298. -/
def Agg.replayLink (g : Agg) (k : Nat) : Agg :=
  match (g.link k).retry.startReplay g.now with
  | some r => g.modLink k fun l => { l with retry := r }
  | none => (g.flag (sklinkFlag k 12)).linkDown k

/-- The active lanes become `mask` (R318, R319): flags, a failed exchange where the lowest lane changes (R315), and replays on what remains. -/
def Agg.setLanes (g : Agg) (k mask : Nat) : Agg :=
  let l := g.link k
  if l.state ≠ .up then g
  else if mask % 4 = 0 then g.linkDown k
  else
    let old := l.laneMask
    let next (j : Nat) (x : Lane) : Lane :=
      if x.state.isActive && !mask.testBit j then removedLane g.now x
      else if !x.state.isActive && mask.testBit j then { x with state := .active, admitted := some g.now, since := g.now, words := 0, corr := 0, lastWords := 0, lastCorr := 0, uncAt := [] } else x
    let n0 := next 0 l.lanes[0]
    let n1 := next 1 l.lanes[1]
    let lost := decide (old &&& (3 - mask % 4) ≠ 0)
    let locked := (match n0.state with | .lockout _ => (l.lanes[0]).state.isActive | _ => false) ||
      (match n1.state with | .lockout _ => (l.lanes[1]).state.isActive | _ => false)
    let g := (g.modLink k fun l => { l with lanes := ⟨#[n0, n1], rfl⟩, laneChange := none }).noteHold k
    let g := if lost then (g.flag (sklinkFlag k 9)).inc (sklinkBase k + 0x2C) 1 else g
    let g := if locked then g.flag (sklinkFlag k 10) else g
    let g := if old % 2 ≠ mask % 2 then
        (if g.parentLink false = some k then g.exchangeFail false else if g.parentLink true = some k then g.exchangeFail true else g)
      else g
    g.replayLink k

/-- The thresholds of R318 over 1 ms: uncorrectable codewords, corrected symbols of `symbols`, loss of lock. -/
def laneBad (unc corr symbols : Nat) (lost : Bool) : Bool := decide (4 ≤ unc) || decide (symbols < 100 * corr) || lost

/-- A codeword of a lane is counted: its corrected symbols, or that it could not be corrected. Each further millisecond begins the average anew. -/
def Lane.count (now corrected : Nat) (bad : Bool) (x : Lane) : Lane :=
  let x := if x.since + 1000000 ≤ now then { x with lastWords := x.words, lastCorr := x.corr, words := 0, corr := 0, since := now } else x
  { x with words := x.words + 1, corr := x.corr + corrected,
           uncAt := (x.uncAt.filter fun t => decide (now < t + 1000000)) ++ (if bad then [now] else []) }

/-- What the codewords received say of a lane (R318): a codeword has 544 symbols. -/
def Lane.overErrors (now : Nat) (x : Lane) : Bool :=
  laneBad ((x.uncAt.filter fun t => decide (now < t + 1000000)).length) x.lastCorr (544 * x.lastWords) false

/-- LANE_REMOVE (R318): the receiver removes a lane and says so on the other, naming the codeword from which both ends change. The counts come
with the command, or from the codewords received. -/
def Agg.laneRemove (g : Agg) (k lane : Nat) (unc corr symbols : Nat) (lost : Bool) (at_ : Nat) : Agg :=
  let l := g.link k
  let x := if lane = 0 then l.lanes[0] else l.lanes[1]
  if l.state ≠ .up ∨ !(laneBad unc corr symbols lost || x.overErrors g.now) ∨ !l.laneMask.testBit lane then g
  else
    let mask := l.laneMask - 2 ^ lane
    if mask = 0 then g.linkDown k
    else g.modLink k fun l => { l with changeDue := some (at_, mask), laneChange := some (at_, mask) }

/-- A lane change agreed for a codeword takes effect when it is reached. -/
def Agg.reachChange (g : Agg) (k : Nat) : Agg :=
  match (g.link k).laneChange with
  | some (at_, mask) => if (g.link k).codeword = at_ % 65536 then g.setLanes k mask else g
  | none => g

/-- LANE_CHANGE is received (R318, R319): it names a codeword and the lanes active from there on. -/
def Agg.laneChange (g : Agg) (k at_ mask : Nat) : Agg :=
  if (g.link k).state ≠ .up then g
  else (g.modLink k fun l => { l with laneChange := some (at_, mask % 4) }).reachChange k

def Agg.modLane (g : Agg) (k lane : Nat) (f : Lane → Lane) : Agg :=
  g.modLink k fun l => if h : lane < 2 then { l with lanes := l.lanes.set lane (f l.lanes[lane]) } else l

def Agg.laneOf (g : Agg) (k lane : Nat) : Lane := if h : lane < 2 then (g.link k).lanes[lane] else {}

/-- LANE_HOLDOFF_END and LANE_LOCKOUT_END (R319, R320): the lane retrains on its own, and its soak begins. -/
def Agg.laneRetrain (g : Agg) (k lane : Nat) (lockout : Bool) : Agg :=
  match (g.laneOf k lane).state with
  | .holdoff e => if !lockout && decide (e ≤ g.now) then g.modLane k lane fun x => { x with state := .soak g.now } else g
  | .lockout e => if lockout && decide (e ≤ g.now) then g.modLane k lane fun x => { x with state := .soak g.now, chain := 0 } else g
  | _ => g

/-- LANE_SOAK_END (R319): admitted by LANE_CHANGE when the soak was clean; otherwise held out once more. -/
def Agg.laneSoakEnd (g : Agg) (k lane unc corr symbols at_ : Nat) : Agg :=
  match (g.laneOf k lane).state with
  | .soak s =>
    if g.now < s + second then g
    else if unc = 0 ∧ 300 * corr ≤ symbols then
      let mask := (g.link k).laneMask ||| 2 ^ lane
      g.modLink k fun l => { l with changeDue := some (at_, mask), laneChange := some (at_, mask) }
    else (g.modLane k lane fun x => { x with state := .holdoff (g.now + holdOff x.chain) }).noteHold k
  | _ => g

/-! ### Receiving (R313, R344 to R347) -/

/-- Shared slots in use or lent on a link. -/
def SkimLink.sharedUsed (l : SkimLink) : Nat :=
  (l.rx.toList.map fun r => r.lent + (r.held.filter (·.shared)).length).sum

/-- Lend one shared slot to a class when R346 allows. -/
def SkimLink.lend (l : SkimLink) (c : Nat) : SkimLink :=
  let r := l.rxOf c
  if r.granted = r.received && decide ((r.held.filter (·.shared)).length + r.lent < sharedCaps.getD c 0) && decide (l.sharedUsed < sharedPool) then
    l.modRx c fun r => { r with granted := (r.granted + 1) % 65536, lent := r.lent + 1 }
  else l

/-- A slot is placed in the buffer (R344 to R347): reserved while any is free, else one of the lent ones. The last slot of a message holds it
whole for the consumer. -/
def SkimLink.takeIn (l : SkimLink) (now tag : Nat) (bytes : List Byte) : SkimLink :=
  let c := tag % 8
  let r := l.rxOf c
  let shared := decide (reservedSlots.getD c 0 ≤ (r.held.filter (!·.shared)).length)
  let part := (if tag.testBit 3 then [] else r.part) ++ bytes.take (tag / 32 % 128)
  let stop := tag.testBit 4
  let drop := r.dropping && !tag.testBit 3
  let r' := { r with received := (r.received + 1) % 65536, held := r.held ++ [⟨now, shared, stop, if stop && !drop then some part else none⟩],
                     dropping := drop && !stop, lent := if shared then r.lent - 1 else r.lent, part := if stop || drop then [] else part }
  (l.modRx c fun _ => r').lend c

/-- Every tagged slot of a DATA flit. -/
def SkimLink.takeSlots (now : Nat) (f : List Byte) : List Nat → SkimLink → SkimLink
  | [], l => l
  | s :: ss, l =>
    let tag := leAt f (24 + 2 * s) 2
    SkimLink.takeSlots now f ss (if tag / 32 % 128 = 0 then l else l.takeIn now tag (bytesAt f (64 + 64 * s) 64))

/-- What a receiver makes of a skim flit. -/
structure SkimRx where
  link   : SkimLink
  limit  : Bool := false
  crcErr : Bool := false
  /-- Slots 1 and 2 of a TIME or SAFETY flit, with the flit's type. -/
  side   : Option (Nat × List Byte) := none
  deriving DecidableEq, Repr

/-- A flit arrives (R312, R313). TC6 messages whose last flit is acknowledged are done (R322). -/
def SkimLink.receive (l : SkimLink) (now : Nat) (f : List Byte) : SkimRx :=
  if !skimFlitGood f then { link := if leAt f 0 1 % 16 = 1 then { l with retry := l.retry.discard } else l, crcErr := true }
  else
    let l := { l with lastGood := now, tx := Vector.ofFn fun (c : Fin 8) => { l.tx[c] with granted := leAt f (8 + 2 * c.val) 2 } }
    match l.retry.onAck (leAt f 4 2) now with
    | none => { link := l, limit := true }
    | some r =>
      let l := { l with retry := r, tc6Sent := l.tc6Sent.filter fun x => r.held.any fun h => decide (h.seq = x.2) }
      let typ := leAt f 0 1 % 16
      if typ = 1 then
        if l.retry.accepts (leAt f 2 2 % seqMod) then
          { link := SkimLink.takeSlots now f (List.range 9) { l with retry := l.retry.accept } }
        else { link := { l with retry := l.retry.discard } }
      else if typ = 2 ∨ typ = 3 then { link := l, side := some (typ, bytesAt f 64 128) }
      else { link := l }

/-- The first message that ends in a held slot is gone: the slots after it, and whether there was one. -/
def dropFirst : List HeldSlot → Option (List HeldSlot × Bool)
  | [] => none
  | x :: l => if x.last then some ({ x with msg := none } :: l, x.msg.isSome) else (dropFirst l).map fun y => (x :: y.1, y.2)

/-- The message that the consumer has before it: the oldest whole one, or the part that has arrived. -/
def ClassRx.front (r : ClassRx) : List Byte := match r.held.find? (·.last) with | some x => x.msg.getD [] | none => r.part

/-- The consumer discards that message (R353): TC2 to its loss, TC4 for an ancestor to send again, TC5 and TC7 counted. The consumers of the other
classes never do. -/
def ClassRx.discard (c : Nat) (r : ClassRx) : ClassRx :=
  let count (was : Bool) : Nat := r.discards + b2n (was && decide (c = 5 ∨ c = 7))
  if !([2, 4, 5, 7].contains c) then r
  else match dropFirst r.held with
    | some (h, was) => { r with held := h, discards := count was }
    | none => if r.part.isEmpty then r else { r with part := [], dropping := true, discards := count true }

/-- The oldest slot of a class is released (R345, R346): its credit goes back, and the link after it. -/
def SkimLink.freeSlot (l : SkimLink) (c : Nat) : SkimLink :=
  match (l.rxOf c).held with
  | [] => l
  | x :: rest =>
    let l := l.modRx c fun r => { r with held := rest, late := false, granted := if x.shared then r.granted else (r.granted + 1) % 65536 }
    (List.range 8).foldl SkimLink.lend l

/-- Release bounds of R353, ns. -/
def releaseBounds : List Nat := [1000, 1000, 5000, 20000, 20000, 20000, 20000, 20000]

/-- RELEASE_LATE (R353). -/
def Agg.releaseLate (g : Agg) (k c : Nat) : Agg :=
  let r := (g.link k).rxOf c
  match r.held with
  | x :: _ =>
    if !r.late && decide (x.since + releaseBounds.getD c 0 < g.now) then
      (g.modLink k fun l => l.modRx c fun r => { r with late := true }).flag (tcFlag 4)
    else g
  | [] => g

/-- CREDIT_STALL (R357). -/
def Agg.creditStall (g : Agg) (k c : Nat) : Agg :=
  let t := (g.link k).txOf c
  match t.stalled with
  | some s =>
    if !t.reported && decide (s + 100000 ≤ g.now) then
      ((g.modLink k fun l => l.modTx c fun t => { t with reported := true }).setRegN 0x4008C (k + 32 * c)).flag (tcFlag 3)
    else g
  | none => g

end Sys2Proof.Machine
end

