-- ==== Sys2Proof/Machine/Codec.lean ====
section
/-!
DEFINITION. Codec.lean: the frame header, the raw and coded payloads and their decoding: R121 to R137 of spec/04_frames.md. The ATU's
coder, the aggregator's ingest decoders and its codec engine all use it.
-/
namespace Sys2Proof.Machine

/-! ### The header (R121, R124) -/

/-- The fields of a frame header. -/
structure FrameHdr where
  chan       : Nat
  codec      : Nat
  dieId      : Nat
  window     : Nat
  flags      : Nat
  strokeHt   : Nat
  tapCount   : Nat
  payloadLen : Nat
  stretchNs  : Nat
  lost       : Nat
  stopMap    : Nat
  stretchMap : Nat
  refWindow  : Nat
  seq        : Nat
  cfgSerial  : Nat
  deriving DecidableEq, Repr

/-- REF_WINDOW of raw and key frames. -/
def noRef : Nat := 0xFFFFFFFFFFFF

/-- Header bytes 0 to 59. -/
def hdrBytes (h : FrameHdr) : List Byte :=
  leBytes 1 0xA1 ++ leBytes 1 1 ++ leBytes 1 h.chan ++ leBytes 1 h.codec ++ leBytes 4 h.dieId ++ leBytes 6 h.window ++
    leBytes 2 h.flags ++ leBytes 8 h.strokeHt ++ leBytes 2 h.tapCount ++ leBytes 2 h.payloadLen ++ leBytes 4 h.stretchNs ++
    leBytes 4 h.lost ++ leBytes 2 h.stopMap ++ leBytes 2 h.stretchMap ++ leBytes 6 h.refWindow ++ leBytes 2 h.seq ++
    leBytes 2 h.cfgSerial ++ zeros 10

/-- A whole frame: header, CRC-32C over bytes 0 to 59 and the payload, payload. -/
def frameBytes (h : FrameHdr) (payload : List Byte) : List Byte :=
  hdrBytes h ++ leBytes 4 (crcOf crc32c (hdrBytes h ++ payload)) ++ payload

/-- The header fields that a frame spells; reserved bits are ignored (R122). -/
def parseHdr (f : List Byte) : FrameHdr :=
  { chan := leAt f 2 1 % 8, codec := leAt f 3 1, dieId := leAt f 4 4, window := leAt f 8 6, flags := leAt f 14 1,
    strokeHt := leAt f 16 8, tapCount := leAt f 24 2, payloadLen := leAt f 26 2, stretchNs := leAt f 28 4, lost := leAt f 32 4,
    stopMap := leAt f 36 2, stretchMap := leAt f 38 2, refWindow := leAt f 40 6, seq := leAt f 46 2, cfgSerial := leAt f 48 2 }

/-- The payload of a frame. -/
def framePayload (f : List Byte) : List Byte := f.drop 64

/-- The drop conditions of R136: MAGIC, VERSION, CODEC, length as delivered, CRC-32C. -/
def frameGood (f : List Byte) : Bool :=
  decide (64 ≤ f.length) && decide (leAt f 0 1 = 0xA1) && decide (leAt f 1 1 = 1) && decide (leAt f 3 1 ≤ 2) &&
    decide (f.length = 64 + 8 * leAt f 26 2) && decide (leAt f 60 4 = crcOf crc32c (f.take 60 ++ f.drop 64))

/-! ### Values (R126 to R132) -/

/-- Width of a value: 48 bits for a counter, 32 for a gauge. -/
def tapBits (gauge : Bool) : Nat := if gauge then 32 else 48

/-- The zigzag value of v against r in n bits (R127). -/
def zigzag (n v r : Nat) : Nat :=
  let d := (v + 2 ^ n - r % 2 ^ n) % 2 ^ n
  if d.testBit (n - 1) then (2 * d) % 2 ^ n ^^^ (2 ^ n - 1) else (2 * d) % 2 ^ n

/-- The value that z codes against r in n bits (R132). DESIGN CHOICE (notes/assumptions/137.md): a z that its field of 40 or 48 bits carries beyond n
bits is shifted whole, and the sum alone is cut to n bits. -/
def unzigzag (n z r : Nat) : Nat :=
  let d := if z.testBit 0 then (z / 2) ^^^ (2 ^ n - 1) else z / 2
  (r + d) % 2 ^ n

/-- Bytes of a raw payload before padding. -/
def rawBody : List (Bool × Nat) → List Byte
  | [] => []
  | (g, v) :: t => leBytes (if g then 4 else 6) v ++ rawBody t

/-- PAYLOAD_LEN of a raw frame, in 8-byte units (R126). -/
def rawUnits (kinds : List Bool) : Nat :=
  ceilDiv (kinds.foldl (fun n g => n + (if g then 4 else 6)) 0) 8

/-- Raw payload (R126). -/
def rawPayload (kinds : List Bool) (vals : List Nat) : List Byte := padTo (8 * rawUnits kinds) (rawBody (kinds.zip vals))

/-- Values of a raw payload. -/
def rawValues : List Bool → List Byte → List Nat
  | [], _ => []
  | g :: gs, bs =>
    let n := if g then 4 else 6
    leNat (bs.take n) :: rawValues gs (bs.drop n)

/-- The widths of R130, by code. -/
def codeWidths : List Nat := [0, 1, 2, 3, 4, 5, 6, 8, 10, 12, 16, 20, 24, 32, 40, 48]

def widthOf (code : Nat) : Nat := codeWidths.getD code 0

/-- The code of the smallest width that holds every value (R131). -/
def widthCode (zs : List Nat) : Nat :=
  (List.range 16).find? (fun c => zs.all fun z => decide (z < 2 ^ widthOf c)) |>.getD 15

/-- `n` bits of a number, least significant first. -/
def numBits : Nat → Nat → List Bool
  | 0, _ => []
  | n + 1, v => (v % 2 = 1) :: numBits n (v / 2)

/-- The number that bits spell, least significant first. -/
def bitsNum : List Bool → Nat
  | [] => 0
  | b :: bs => b2n b + 2 * bitsNum bs

/-- Bits of one group: width code, then each value (R129). -/
def groupBits (zs : List Nat) : List Bool :=
  let c := widthCode zs
  numBits 4 c ++ zs.flatMap (numBits (widthOf c))

/-- Cut a list into groups of 16 (R129), on fuel. -/
def groups16 {α : Type} : Nat → List α → List (List α)
  | 0, _ => []
  | n + 1, l => if l.isEmpty then [] else l.take 16 :: groups16 n (l.drop 16)

/-- Bytes of a bit stream, padded with zero bits to `units` times 64. -/
def bitsBytes (units : Nat) (bits : List Bool) : List Byte :=
  (List.range (8 * units)).map fun i => BitVec.ofNat 8 (bitsNum ((bits.drop (8 * i)).take 8))

/-- The z values of a frame against a reference. -/
def zValues : List Bool → List Nat → List Nat → List Nat
  | [], _, _ => []
  | g :: gs, vs, rs => zigzag (tapBits g) (vs.headD 0) (rs.headD 0) :: zValues gs vs.tail rs.tail

/-- The fields of a key frame (R128): each counter unchanged, each gauge in zigzag form. -/
def keyValues : List Bool → List Nat → List Nat
  | [], _ => []
  | g :: gs, vs => (if g then zigzag 32 (vs.headD 0) 0 else vs.headD 0 % 2 ^ 48) :: keyValues gs vs.tail

/-- The coded payload of a key frame, or of a delta frame against a reference (R127 to R131). -/
def codedPayload (kinds : List Bool) (vals : List Nat) (refs : Option (List Nat)) : List Byte :=
  let zs := match refs with | some rs => zValues kinds vals rs | none => keyValues kinds vals
  let bits := (groups16 zs.length zs).flatMap groupBits
  bitsBytes (ceilDiv bits.length 64) bits

/-- Bits of a payload. -/
def payloadBits (bs : List Byte) : List Bool := bs.flatMap fun b => numBits 8 b.toNat

/-- Take `n` fields of width `w` from a bit stream; none where it runs out. -/
def takeFields (w : Nat) : Nat → List Bool → Option (List Nat × List Bool)
  | 0, bits => some ([], bits)
  | n + 1, bits =>
    if bits.length < w then none
    else match takeFields w n (bits.drop w) with
      | some (zs, rest) => some (bitsNum (bits.take w) :: zs, rest)
      | none => none

/-- Decode groups of up to 16 values, on fuel: the z values and the bits left over. -/
def takeGroups : Nat → Nat → List Bool → Option (List Nat × List Bool)
  | 0, _, bits => some ([], bits)
  | fuel + 1, left, bits =>
    if left = 0 then some ([], bits)
    else if bits.length < 4 then none
    else match takeFields (widthOf (bitsNum (bits.take 4))) (min 16 left) (bits.drop 4) with
      | none => none
      | some (zs, rest) =>
        match takeGroups fuel (left - min 16 left) rest with
        | some (zs', rest') => some (zs ++ zs', rest')
        | none => none

/-- Values from z values and a reference (R132). -/
def unzValues : List Bool → List Nat → List Nat → List Nat
  | [], _, _ => []
  | g :: gs, zs, rs => unzigzag (tapBits g) (zs.headD 0) (rs.headD 0) :: unzValues gs zs.tail rs.tail

/-- Values of a key frame from its fields (R128). -/
def unkeyValues : List Bool → List Nat → List Nat
  | [], _ => []
  | g :: gs, zs => (if g then unzigzag 32 (zs.headD 0) 0 else zs.headD 0) :: unkeyValues gs zs.tail

/-- Decode a coded payload, of a key frame or against a reference; none when it is malformed: it runs past its end, or its padding is not zero (R137). -/
def decodePayload (kinds : List Bool) (refs : Option (List Nat)) (payload : List Byte) : Option (List Nat) :=
  match takeGroups (kinds.length + 1) kinds.length (payloadBits payload) with
  | none => none
  | some (zs, rest) => 
    if rest.all (!·) then some (match refs with | some rs => unzValues kinds zs rs | none => unkeyValues kinds zs) else none

/-- What a coder writes for one frame: CODEC, REF_WINDOW and the payload (R128, R133, R134). `key` asks for a key frame. -/
def codeFrame (kinds : List Bool) (vals : List Nat) (reference : Option (Nat × List Nat)) (coded key : Bool) : Nat × Nat × List Byte :=
  let raw := rawPayload kinds vals
  if !coded then (0, noRef, raw)
  else
    let c := match reference with
      | some (w, rs) => if key then (2, noRef, codedPayload kinds vals none) else (1, w, codedPayload kinds vals (some rs))
      | none => (2, noRef, codedPayload kinds vals none)
    if c.2.2.length < raw.length then c else (0, noRef, raw)

end Sys2Proof.Machine
end

