-- ==== Sys2Proof/Machine/CodecEngine.lean ====
section
/-!
DEFINITION. CodecEngine.lean: the codec engine and the check-value unit: R157 to R170 of spec/04_frames.md.
-/
namespace Sys2Proof.Machine

def Agg.slotOf (g : Agg) (s : Nat) : CodecSlot := if h : s < 16 then g.codec[s] else {}
def Agg.setSlot (g : Agg) (s : Nat) (x : CodecSlot) : Agg := if h : s < 16 then { g with codec := g.codec.set s x } else g
def Agg.cvuOf (g : Agg) (k : Nat) : CvuCtx := if h : k < 16 then g.cvu[k] else {}
def Agg.setCvu (g : Agg) (k : Nat) (x : CvuCtx) : Agg := if h : k < 16 then { g with cvu := g.cvu.set k x } else g

/-! ### Frames against a reference (R136, R137, R161) -/

/-- Kinds of the first `n` value positions of a 512-byte map: true for a gauge. -/
def mapKinds (m : List Byte) (n : Nat) : List Bool := (List.range n).map fun i => ((m[i / 8]?).getD 0).toNat.testBit (i % 8)

/-- A whole frame at the front of a byte string, by its own length. -/
def frontFrame (bs : List Byte) : List Byte := bs.take (64 + 8 * leAt bs 26 2)

/-- Values of a raw frame. -/
def frameValues (kinds : List Bool) (f : List Byte) : List Nat := rawValues kinds (framePayload f)

/-- A frame with CODEC, PAYLOAD_LEN, REF_WINDOW, payload and CRC rewritten; every other header byte stays (R161). -/
def recode (f : List Byte) (codec ref : Nat) (payload : List Byte) : List Byte :=
  let h := f.take 3 ++ leBytes 1 codec ++ bytesAt f 4 22 ++ leBytes 2 (payload.length / 8) ++ bytesAt f 28 12 ++ leBytes 6 ref ++ bytesAt f 46 14
  h ++ leBytes 4 (crcOf crc32c (h ++ payload)) ++ payload

/-- A delta frame may be decoded against a reference (R137). -/
def refFits (h r : FrameHdr) : Bool :=
  decide (h.dieId = r.dieId ∧ h.chan = r.chan ∧ r.window = h.refWindow ∧ (r.seq + 1) % 65536 = h.seq ∧ r.tapCount = h.tapCount ∧
    r.cfgSerial = h.cfgSerial)

/-- Why a frame is not decoded: REASON 2 and 5 of R164. -/
inductive FrameFail where
  | noReference | malformed
  deriving DecidableEq, Repr

/-- The values of a good frame of any codec against a reference, which is a raw frame or empty (R132, R136, R137). -/
def decodeFrame (kinds : List Bool) (reference f : List Byte) : Except FrameFail (List Nat) :=
  let h := parseHdr f
  if h.codec = 0 then
    if h.payloadLen = rawUnits kinds && ((framePayload f).drop (rawBody (kinds.map fun k => (k, 0))).length).all (· = 0) then
      .ok (frameValues kinds f)
    else .error .malformed
  else if h.codec = 1 && (reference.isEmpty || !refFits h (parseHdr reference)) then .error .noReference
  else match decodePayload kinds (if h.codec = 1 then some (frameValues kinds reference) else none) (framePayload f) with
    | some vs => .ok vs
    | none => .error .malformed

/-- The raw frame that stands for a decoded frame. -/
def rawOf (kinds : List Bool) (f : List Byte) (vs : List Nat) : List Byte := recode f 0 noRef (rawPayload kinds vs)

/-! ### CODEC_RUN (R159 to R164) -/

/-- What a CODEC_RUN has done so far. -/
structure CodecRun where
  slot    : CodecSlot
  /-- Output bytes of frames written in full. -/
  out     : List Byte := []
  done    : Nat := 0
  fell    : Nat := 0
  status  : Status := .ok
  reason  : Nat := 0
  deriving DecidableEq, Repr

/-- REASON of the checks before a frame is coded or decoded (R164): header or CRC, another stream, not raw. DESIGN CHOICE (notes/assumptions/137.md): a
TAP_COUNT above 4,096 is a fault of the header. -/
def frameReason (encode : Bool) (reference f : List Byte) : Nat :=
  let h := parseHdr f
  let r := parseHdr reference
  if !frameGood f || decide (4096 < h.tapCount) then 1
  else if !reference.isEmpty && decide (h.dieId ≠ r.dieId ∨ h.chan ≠ r.chan ∨ h.tapCount ≠ r.tapCount) then 4
  else if encode && decide (h.codec ≠ 0) then 3 else 0

/-- Code or decode one frame: what it becomes, the new reference, and whether it fell back to raw. A change of CFG_SERIAL asks for a key frame (R112,
R133). -/
def codeOne (encode key : Bool) (s : CodecSlot) (f : List Byte) : Except Nat (List Byte × List Byte × Bool) :=
  let kinds := mapKinds s.kinds (parseHdr f).tapCount
  match decodeFrame kinds s.frame f with
  | .error .noReference => .error 2
  | .error .malformed => .error 5
  | .ok vs =>
    let raw := rawOf kinds f vs
    if encode then
      let reference := if s.frame.isEmpty then none else some ((parseHdr s.frame).window, frameValues kinds s.frame)
      let changed := decide ((parseHdr s.frame).cfgSerial ≠ (parseHdr f).cfgSerial)
      let (codec, ref, payload) := codeFrame kinds vs reference true (key || changed)
      .ok (recode f codec ref payload, raw, decide (codec = 0))
    else .ok (raw, raw, false)

/-- Run over the input, a frame at a time (R161 to R164). `room` is the size of the output chain. DESIGN CHOICE (notes/assumptions/137.md): of a frame
that no longer fits, nothing is written or counted. -/
def codecLoop (encode : Bool) (room : Nat) : Nat → Bool → List Byte → CodecRun → CodecRun
  | 0, _, _, r => r
  | n + 1, key, bs, r =>
    if bs.isEmpty then r
    else
      let f := frontFrame bs
      let why := frameReason encode r.slot.frame f
      if why ≠ 0 then { r with status := .integrity, reason := why }
      else match codeOne encode key r.slot f with
        | .error w => { r with status := .integrity, reason := w }
        | .ok (out, raw, fell) =>
          if room < r.out.length + out.length then { r with status := .noResource }
          else codecLoop encode room n false (bs.drop f.length)
            { r with slot := { r.slot with frame := raw }, out := r.out ++ out, done := r.done + 1, fell := r.fell + b2n fell }

/-- The buffers of an output chain up to its LAST (R160): address and length. None: no LAST among 256, or a length that is no multiple
of 8. -/
def readChain (m : SMap Byte) : Nat → Nat → Option (List (Nat × Nat))
  | 0, _ => none
  | n + 1, a =>
    let len := mreadNat m (a + 8) 4
    if len % 8 ≠ 0 then none
    else if (mreadNat m (a + 12) 1).testBit 0 then some [(mreadNat m a 6, len)]
    else match readChain m n (a + 16) with
      | some t => some ((mreadNat m a 6, len) :: t)
      | none => none

/-- Write one byte stream over the buffers of a chain. -/
def writeChain (m : SMap Byte) : List (Nat × Nat) → List Byte → SMap Byte
  | [], _ => m
  | (a, n) :: t, bs => writeChain (mwrite m a (bs.take n)) t (bs.drop n)

/-- Buffers of a chain that `n` bytes are written to; an empty buffer takes none. -/
def buffersUsed : List (Nat × Nat) → Nat → Nat
  | [], _ => 0
  | (_, k) :: t, n => if n = 0 then 0 else (if k = 0 then 0 else 1) + buffersUsed t (n - k)

/-- A command names a slot that another context has claimed (R157). -/
def claimedByOther (owner : Option Nat) (ctx : Nat) : Bool := match owner with | some o => decide (o ≠ ctx) | none => false

/-- ENCODE whose every frame falls back to raw (R163), whatever room the chain has. -/
def CodecRun.noShrink (r : CodecRun) : Bool := decide (r.status = .ok ∧ r.fell = r.done ∧ 0 < r.done)

/-- CODEC_RUN (R159 to R164). The slot changes only once a frame is done, but for its claim. DESIGN CHOICE (notes/assumptions/137.md): the bytes at
DST_LIST are judged whether or not the list lies in the caller's windows (R160). -/
def Agg.codecRun (g : Agg) (c : Caller) (encode flush : Bool) (slot src len kind dst : Nat) : Agg :=
  let s := g.slotOf slot
  let readsMap := s.frame.isEmpty || flush
  let chain := readChain g.mem 256 dst
  let bufs := chain.getD []
  let bad := g.outsideAll c.ring.val ((src, len) :: (if readsMap then [(kind, 512)] else []) ++ (dst, 16 * max 1 bufs.length) :: bufs)
  g.command c 0x71 (failIf (claimedByOther s.owner (ctxOf c)) .conflict ++ failIf chain.isNone .badParam) bad fun g =>
    let s := if readsMap then { s with frame := if flush then [] else s.frame, kinds := g.read kind 512 } else s
    let room := (bufs.map (·.2)).sum
    let bs := g.read src len
    let run room := codecLoop encode room (len + 1) flush bs { slot := { s with owner := some (ctxOf c) } }
    let whole := run (2 ^ 64)
    let noShrink := encode && whole.noShrink
    let r := if noShrink then { whole with out := [] } else run room
    let out := r.out
    let slot' := if r.done = 0 then { g.slotOf slot with owner := some (ctxOf c) } else r.slot
    let g := ({ g with mem := writeChain g.mem bufs out }).setSlot slot slot'
    g.complete (who c) 0x71 (if noShrink then .noShrink else r.status)
      [(32, r.done), (32, out.length), (16, buffersUsed bufs out.length), (32, r.fell), (8, r.reason)]

/-! ### Saving and restoring (R165) -/

/-- The record of a slot. -/
def slotRecord (s : CodecSlot) : List Byte :=
  let head := [0xA3, 1] ++ leBytes 1 (b2n (!s.frame.isEmpty)) ++ zeros 1 ++ leBytes 4 (576 + s.frame.length) ++ zeros 52
  let body := padTo 512 s.kinds ++ s.frame
  head ++ leBytes 4 (crcOf crc32c (head ++ body)) ++ body

/-- CODEC_SAVE (R157, R165). DESIGN CHOICE (notes/assumptions/137.md): with RELEASE the slot is emptied too. -/
def Agg.codecSave (g : Agg) (c : Caller) (slot dst : Nat) (release : Bool) : Agg :=
  let s := g.slotOf slot
  let rec_ := slotRecord s
  g.command c 0x72 (failIf (decide (c.ring.val ≠ 0) && claimedByOther s.owner (ctxOf c)) .conflict)
    (g.outside c.ring.val dst rec_.length) fun g =>
      ((g.write dst rec_).setSlot slot (if release then {} else s)).done c 0x72 []

/-- CODEC_RESTORE (R165). DESIGN CHOICE (notes/assumptions/137.md): a record with a length that no record has is refused with INTEGRITY. -/
def Agg.codecRestore (g : Agg) (c : Caller) (slot src : Nat) : Agg :=
  let s := g.slotOf slot
  let len := g.readNat (src + 4) 4
  let rec_ := g.read src (min len 131072)
  let bad := match g.outside c.ring.val src 576 with
    | some a => some a
    | none => g.outside c.ring.val src (max 576 (min len 131072))
  let good := decide (leAt rec_ 0 1 = 0xA3 ∧ 576 ≤ len ∧ len ≤ 131072) &&
    decide (leAt rec_ 60 4 = crcOf crc32c (rec_.take 60 ++ rec_.drop 64))
  g.command c 0x73 (failIf (decide (c.ring.val ≠ 0) && claimedByOther s.owner (ctxOf c)) .conflict) bad fun g =>
    if good then
      (g.setSlot slot { owner := some (ctxOf c), kinds := bytesAt rec_ 64 512,
                        frame := if leAt rec_ 2 1 % 2 = 1 then rec_.drop 576 else [] }).done c 0x73 []
    else g.complete (who c) 0x73 .integrity []

/-! ### The check-value unit (R167 to R170) -/

def Agg.cvuDone (g : Agg) (c : Caller) (k : Nat) : Agg :=
  let x := g.cvuOf k
  g.done c 0x70 [(64, x.run), (64, match x.params with | some p => crcResult p x.run | none => 0)]

/-- CVU_RUN CONFIGURE (R167, R168). -/
def Agg.cvuConfigure (g : Agg) (c : Caller) (k width poly init : Nat) (refIn refOut : Bool) (xorOut : Nat) : Agg :=
  let wide (v : Nat) : Bool := decide (2 ^ width ≤ v)
  g.command c 0x70 (failIf (claimedByOther (g.cvuOf k).owner (ctxOf c)) .conflict ++
      failIf (decide (width < 8 ∨ 64 < width) || wide poly || wide init || wide xorOut) .badParam) none fun g =>
    (g.setCvu k { owner := some (ctxOf c), params := some ⟨width, poly, init, refIn, refOut, xorOut⟩, run := init }).done c 0x70 []

/-- The checks of the other functions. -/
def Agg.cvuCodes (g : Agg) (c : Caller) (k : Nat) (configured : Bool) : List Status :=
  failIf (claimedByOther (g.cvuOf k).owner (ctxOf c)) .conflict ++ failIf (configured && (g.cvuOf k).params.isNone) .badParam

/-- CVU_RUN SCAN (R167 to R169). -/
def Agg.cvuScan (g : Agg) (c : Caller) (k a n : Nat) (cont : Bool) : Agg :=
  g.command c 0x70 (g.cvuCodes c k true) (g.outside c.ring.val a n) fun g =>
    let x := g.cvuOf k
    match x.params with
    | none => g
    | some p => (g.setCvu k { x with run := crcRun p (if cont then x.run else p.init) (g.read a n) }).cvuDone c k

/-- CVU_RUN READ. -/
def Agg.cvuRead (g : Agg) (c : Caller) (k : Nat) : Agg := g.command c 0x70 (g.cvuCodes c k true) none fun g => g.cvuDone c k

/-- CVU_RUN WRITE (R168): bits at and above WIDTH are 0. DESIGN CHOICE (notes/assumptions/137.md): on a context that was never configured the value is
kept whole, no claim is made and RESULT is 0. -/
def Agg.cvuWrite (g : Agg) (c : Caller) (k v : Nat) : Agg :=
  g.command c 0x70 (g.cvuCodes c k false) none fun g =>
    let x := g.cvuOf k
    (g.setCvu k { x with run := match x.params with | some p => v % 2 ^ p.width | none => v }).cvuDone c k

end Sys2Proof.Machine
end

