-- ==== Sys2Proof/Machine/Trace.lean ====
section
/-!
DEFINITION. Trace.lean: trace chunks, packets, sources, triggers and authorisation of spec/05_trace.md (R171 to R205).
-/
namespace Sys2Proof.Machine

/-! ### Chunks (R172 to R175) -/

/-- Where a stream's chunks go, its STREAM byte (R172, R201), and the elapsed time at which packets are put now. -/
structure ChunkDest where
  id    : Nat
  now   : Nat
  toA   : Bool
  toB   : Bool
  toBuf : Bool
  deriving DecidableEq, Repr

/-- The 64 bytes of a chunk (R172), the unused part filled with PAD packets (R174). -/
def chunkBytes (id seq first cflags : Nat) (dat : List Byte) : List Byte :=
  let head := leBytes 1 0xA5 ++ leBytes 1 id ++ leBytes 2 seq ++ leBytes 1 first ++ leBytes 1 cflags
  let body := padTo 56 dat
  head ++ leBytes 2 (crcOf crc16ccitt (head ++ body)) ++ body

/-- Close the open chunk of a stream, if it has one (R174). Where no other packet begins in it, FIRST names its first PAD packet (R172). -/
def closeChunk (d : ChunkDest) (last : Bool) (t : TraceStream) : TraceStream :=
  if t.dat.isEmpty then t
  else
    let first := if t.first = 0 ∧ t.dat.length < 56 then 8 + t.dat.length else t.first
    let c : Chunk := ⟨chunkBytes d.id t.seq first (b2n t.ovf + 2 * b2n last) t.dat, d.toA, d.toB, d.toBuf⟩
    { t with dat := [], first := 0, ovf := false, openedAt := none, seq := (t.seq + 1) % 65536, chunks := t.chunks ++ [c] }

/-- A chunk with LAST set. -/
def Chunk.withLast (c : Chunk) : Chunk :=
  { c with bytes := chunkBytes (leAt c.bytes 1 1) (leAt c.bytes 2 2) (leAt c.bytes 4 1) (leAt c.bytes 5 1 ||| 2) (c.bytes.drop 8) }

/-- Close a stream at a stop (R197): LAST is set in the open chunk, or in the newest one where the stop's packet has filled it. `seq` is the stream's
chunk count before that packet. -/
def closeLast (d : ChunkDest) (seq : Nat) (t : TraceStream) : TraceStream :=
  if t.dat.isEmpty && decide (t.seq ≠ seq) then
    { t with chunks := t.chunks.dropLast ++ (t.chunks.getLast?.toList.map Chunk.withLast) }
  else closeChunk d true t

/-- Append packet bytes, closing each chunk as it fills (R173, R174). -/
def putBytes (d : ChunkDest) (t : TraceStream) : List Byte → TraceStream
  | [] => t
  | b :: bs =>
    let t := { t with dat := t.dat ++ [b], openedAt := some (t.openedAt.getD d.now) }
    putBytes d (if t.dat.length = 56 then closeChunk d false t else t) bs

/-- Bytes of the 2 KiB packet queue in use. -/
def streamUsed (t : TraceStream) : Nat := t.dat.length + 56 * t.chunks.length

/-- Whether a packet carries an HT, by its header byte (R176). -/
def htBearing (h : Nat) : Bool := [1, 2, 5, 6, 7, 8, 9, 10, 11, 16, 17].contains h

/-- Put one packet into a stream without any check of room. -/
def putRaw (d : ChunkDest) (t : TraceStream) (pkt : List Byte) : TraceStream :=
  let h := (pkt.headD 0).toNat
  let t := if t.first = 0 then { t with first := 8 + t.dat.length } else t
  let t := if h = 8 then { t with ovf := true } else t
  let t := if htBearing h then { t with lastAt := d.now } else t
  let t := { t with sinceSync := if h = 1 then pkt.length else t.sinceSync + pkt.length }
  putBytes d t pkt

/-- Put one packet into a stream, or count it as lost (R192, R193). `marks` counts the exchange marks or log packets it is. -/
def putChecked (d : ChunkDest) (marks : Nat) (t : TraceStream) (pkt : List Byte) : TraceStream :=
  match t.dropping with
  | some (b, m) => { t with dropping := some (b + pkt.length, m + marks) }
  | none =>
    if streamUsed t + pkt.length > 2016 then { t with dropping := some (pkt.length, marks) }
    else putRaw d t pkt

/-- A TIMESTAMP packet before a packet that follows TS_US microseconds without an HT (R181). -/
def putStamp (d : ChunkDest) (ht tsUs : Nat) (t : TraceStream) : TraceStream :=
  if tsUs ≠ 0 ∧ t.lastAt + tsUs * 1000 ≤ d.now then putChecked d 0 t (leBytes 1 2 ++ leBytes 8 ht) else t

/-- SYNC (R176). -/
def syncPacket (ht pc ctx : Nat) : List Byte := leBytes 1 1 ++ leBytes 8 ht ++ leBytes 8 pc ++ leBytes 1 ctx

/-! ### Streams in the ATU -/

/-- Where chunks of a stream go now: DEST of ATU_TRC_CFG, and no port while ID_INVALID is set (R201, R275). -/
def Atu.dest (a : Atu) (id : Nat) : ChunkDest :=
  let okA := a.bit 0x3000 0 && !a.idInvalid
  let okB := a.bit 0x3000 1 && !a.idInvalid && a.hasPortB
  ⟨id, a.time.elapsed, okA, okB, a.bit 0x3000 2⟩

/-- Size and base of the trace buffer (R203). -/
def Atu.bufSize (a : Atu) : Nat := 2 ^ a.fld 0x3068 4 0
def Atu.bufBase (a : Atu) : Nat := rget64 a.regs 0x3060

/-- Write the chunks of a list that the trace buffer still needs (R203): memory, write count, and whether one-shot mode filled. -/
def bufDrain (base size : Nat) (oneShot : Bool) : SMap Byte × Nat × Bool → List Chunk → SMap Byte × Nat × Bool
  | x, [] => x
  | (m, wr, full), c :: cs =>
    if !c.needBuf then bufDrain base size oneShot (m, wr, full) cs
    else if oneShot && (full || decide (wr + 64 > size)) then bufDrain base size oneShot (m, wr, true) cs
    else bufDrain base size oneShot (ringWrite m base size wr c.bytes, wr + 64, full) cs

/-- Chunks once the buffer has them: those that no port needs any more leave the queue. -/
def afterBuf (cs : List Chunk) : List Chunk :=
  (cs.map fun c => { c with needBuf := false }).filter fun c => c.needA || c.needB

/-- Bring a changed stream's chunks to the trace buffer. -/
def Atu.settle (a : Atu) (t : TraceStream) : Atu × TraceStream :=
  let (m, wr, full) := bufDrain a.bufBase a.bufSize (a.bit 0x3000 3) (a.hostMem, a.trace.bufWr, a.trace.bufFull) t.chunks
  let a := if full && !a.trace.bufFull then a.flag (trcFlag 9) else a
  ({ a with hostMem := m, trace := { a.trace with bufWr := wr, bufFull := full } }, { t with chunks := afterBuf t.chunks })

/-- The source of core `n`. -/
def Atu.src (a : Atu) (n : Fin 16) : TraceSrc := a.trace.srcs[n]

/-- Store a source, settling its stream. -/
def Atu.setSrc (a : Atu) (n : Fin 16) (x : TraceSrc) : Atu :=
  let (a, t) := a.settle x.stream
  { a with trace := { a.trace with srcs := a.trace.srcs.set n { x with stream := t } } }

/-- Store the log stream, settling it. -/
def Atu.setLogStream (a : Atu) (t : TraceStream) : Atu :=
  let (a, t) := a.settle t
  { a with trace := { a.trace with log := t } }

/-- MODE, PRIV_MAX and SECURE of a source (R179, R183). -/
def Atu.srcMode (a : Atu) (n : Fin 16) : Nat := a.fld (0x3100 + 8 * n.val) 2 0
def modeBranch (m : Nat) : Bool := decide (m = 2 ∨ m = 4)
def modeData (m : Nat) : Bool := decide (m = 3 ∨ m = 4)

/-- CONTEXT byte (R176). -/
def ctxByte (x : TraceSrc) : Nat := x.priv + 4 * b2n x.secure

/-- Authorisation is in force (R185). -/
def Atu.authorised (a : Atu) : Bool := a.trace.auth.expiry.isSome

/-- The core's trace is out of bounds now, and why (R183, R184): 0 privilege, 1 secure, 2 sanding. -/
def Atu.exclusion (a : Atu) (n : Fin 16) : Option Nat :=
  let x := a.src n
  let cfg := 0x3100 + 8 * n.val
  let lim := if a.authorised then a.fld cfg 4 3 else 1
  let sec := a.authorised && a.bit cfg 5
  if (a.sand[n]).run then some 2
  else if x.priv > lim then some 0
  else if x.secure && !sec then some 1
  else none

/-- ATOMS byte for 1 to 6 outcomes (R177). -/
def atomsByte (os : List Bool) : Byte :=
  let bits := os.foldr (fun b acc => b2n b + 2 * acc) 0
  BitVec.ofNat 8 (0x80 + bits + 2 ^ os.length)

/-- A source owes SYNC before its next packet: after an event of R180, or SYNC_KIB KiB on. -/
def Atu.syncDue (a : Atu) (x : TraceSrc) : Bool :=
  x.stream.needSync || decide (a.fld 0x3000 23 16 * 1024 ≤ x.stream.sinceSync)

/-- Put a packet of a source behind any SYNC and TIMESTAMP it needs (R180, R181). `marks` is 1 for an exchange mark. -/
def Atu.srcPut (a : Atu) (n : Fin 16) (x : TraceSrc) (marks : Nat) (pkt : List Byte) : TraceSrc :=
  let d := a.dest n.val
  let ht := a.time.ht
  let due := a.syncDue x
  let t := x.stream
  let (t, da) := if due && (pkt.headD 0) ≠ 1 then
      (putChecked d 0 (putStamp d ht (a.fld 0x3000 31 24) { t with needSync := false }) (syncPacket ht x.pc (ctxByte x)), 0)
    else (t, x.dataAddr)
  let t := putChecked d marks (putStamp d ht (a.fld 0x3000 31 24) t) pkt
  { x with stream := t, dataAddr := da }

/-- Put a packet that the 32 reserved bytes keep from loss (R192), behind any TIMESTAMP it needs (R181). -/
def Atu.srcPutKept (a : Atu) (n : Fin 16) (x : TraceSrc) (pkt : List Byte) : TraceSrc :=
  let d := a.dest n.val
  { x with stream := putRaw d (putStamp d a.time.ht (a.fld 0x3000 31 24) x.stream) pkt }

/-- Put a packet of a source that no SYNC goes before, since the interval in which the source is silent still lasts (R184, R190). -/
def Atu.srcPutBare (a : Atu) (n : Fin 16) (x : TraceSrc) (pkt : List Byte) : TraceSrc :=
  let d := a.dest n.val
  { x with stream := putChecked d 0 (putStamp d a.time.ht (a.fld 0x3000 31 24) x.stream) pkt }

/-- EXCLUDED (R184, R191): no SYNC goes before it, since the one that follows the interval is still to come. -/
def Atu.srcExclude (a : Atu) (n : Fin 16) (x : TraceSrc) (r : Nat) : TraceSrc :=
  let d := a.dest n.val
  let ht := a.time.ht
  let t := putStamp d ht (a.fld 0x3000 31 24) { x.stream with needSync := false }
  { x with stream := putChecked d 0 t (leBytes 1 5 ++ leBytes 1 r ++ leBytes 8 ht), excluded := some r }

/-- Emit the outcomes gathered so far as an ATOMS byte. -/
def Atu.srcFlushAtoms (a : Atu) (n : Fin 16) (x : TraceSrc) : TraceSrc :=
  if x.atoms.isEmpty then x else { a.srcPut n x 0 [atomsByte x.atoms] with atoms := [] }

/-- SYNC now: PC and last data address are set (R178). -/
def Atu.srcSync (a : Atu) (n : Fin 16) (x : TraceSrc) : TraceSrc :=
  let x := { a.srcPut n x 0 (syncPacket a.time.ht x.pc (ctxByte x)) with dataAddr := 0 }
  { x with stream := { x.stream with needSync := false } }

/-- Gather branch outcomes; a full ATOMS byte leaves at 6 (R177). A SYNC that is due goes out before the first outcome is gathered, so that it carries
the PC that the outcomes follow (R180). -/
def Atu.srcAtoms (a : Atu) (n : Fin 16) (x : TraceSrc) : List Bool → TraceSrc
  | [] => x
  | b :: bs =>
    let x := if x.atoms.isEmpty && a.syncDue x then a.srcSync n x else x
    let x := { x with atoms := x.atoms ++ [b] }
    a.srcAtoms n (if x.atoms.length = 6 then a.srcFlushAtoms n x else x) bs

/-- The smallest number of low bytes that turns `old` into `new` (R178). -/
def lowBytes (old new : Nat) : Nat :=
  ((List.range 9).find? fun l => old / 2 ^ (8 * l) = new / 2 ^ (8 * l)).getD 8

/-! ### Triggers (R194 to R200) -/

/-- Event numbers selected for the four TRIG_OUT lines. -/
def Atu.outEvt (a : Atu) (k : Nat) : Nat := a.fld 0x3014 (6 * k + 5) (6 * k)

/-- An event drives every TRIG_OUT line that selects it high for 16 cycles from now (R200); 16 cycles are taken as 20 ns,
the time at 800 MHz. -/
def Atu.pulse (a : Atu) (e : Nat) : Atu :=
  let p := Vector.ofFn fun (k : Fin 4) => if e ≠ 0 ∧ a.outEvt k.val = e then a.time.elapsed + 20 else a.trace.pulse[k]
  { a with trace := { a.trace with pulse := p } }

/-- TRIGGER packet (R176). -/
def triggerPacket (ht e : Nat) (start : Bool) : List Byte := leBytes 1 11 ++ leBytes 1 (e + 128 * b2n start) ++ leBytes 8 ht

/-- Trace runs, or runs on through the stop delay. -/
def Atu.traceOn (a : Atu) : Bool := a.trace.running || a.trace.stopAt.isSome

/-- What one source emits at a start (R180, R184, R190, R196): TRIGGER when an event started trace, then SYNC, or EXCLUDED in an
excluded context; a core in low power owes its SYNC. -/
def Atu.srcStart (a : Atu) (e : Nat) (n : Fin 16) : Atu :=
  if a.srcMode n = 0 then a
  else
    let x := a.src n
    let t := { x.stream with dat := [], first := 0, ovf := false, openedAt := none, seq := 0, dropping := none, needSync := false,
                             sinceSync := 0, lastAt := a.time.elapsed, lostBytes := 0 }
    let x := { x with stream := t, atoms := [], excluded := none, filtered := false }
    let x := if e ≠ 0 then a.srcPut n x 0 (triggerPacket a.time.ht e true) else x
    let x := if !x.powered then { x with stream := { x.stream with needSync := true } }
      else match a.exclusion n with
        | some r => a.srcExclude n x r
        | none => a.srcSync n x
    (a.setSrc n x).setFld (0x3104 + 8 * n.val) 31 16 0

/-- All sixteen sources in turn. -/
def Atu.eachSrc (a : Atu) (f : Atu → Fin 16 → Atu) : Atu := (List.finRange 16).foldl f a

/-- Trace starts (R196); `e` is the starting event, 0 for a command. A start while trace runs or stops has no effect. -/
def Atu.traceStart (a : Atu) (e : Nat) : Atu :=
  if a.traceOn || !a.hasTrace then a
  else
    let a := ({ a with trace := { a.trace with running := true } }).eachSrc fun a n => a.srcStart e n
    (a.flag (trcFlag 12)).pulse 32

/-- What one source emits at a stop (R197): TRIGGER with bit 7 clear, and its chunk closed with LAST. In an excluded context and in low power no SYNC
goes before it (R184, R190). -/
def Atu.srcStop (a : Atu) (e : Nat) (n : Fin 16) : Atu :=
  if a.srcMode n = 0 then a
  else
    let x := a.srcFlushAtoms n (a.src n)
    let seq := x.stream.seq
    let pkt := triggerPacket a.time.ht e false
    let x := if x.powered && x.excluded.isNone then a.srcPut n x 0 pkt else a.srcPutBare n x pkt
    a.setSrc n { x with stream := closeLast (a.dest n.val) seq x.stream }

/-- Trace stops now (R197). -/
def Atu.traceStop (a : Atu) (e : Nat) : Atu :=
  if !a.traceOn then a
  else
    let a := a.eachSrc fun a n => a.srcStop e n
    let a := { a with trace := { a.trace with running := false, stopAt := none, stopEvt := 0 } }
    (a.flag (trcFlag 13)).pulse 33

/-- Stop trace when the one-shot buffer has just filled (R203). -/
def Atu.checkBufFull (a : Atu) (was : Bool) : Atu :=
  if a.trace.bufFull && !was then a.traceStop 0 else a

/-- A stop event: STOPPING for STOP_DELAY_US, or stop at once when the delay is 0 (R197). -/
def Atu.stopEvent (a : Atu) (e : Nat) : Atu :=
  if !a.trace.running || a.trace.stopAt.isSome then a
  else
    let d := a.fld 0x3010 31 16
    if d = 0 then a.traceStop e
    else { a with trace := { a.trace with running := false, stopAt := some (a.time.ht + 1000 * d), stopEvt := e } }

/-- Trigger events that fall together (R194, R198): they drive TRIG_OUT, and the stop wins over the start. -/
def Atu.fire (a : Atu) (es : List Nat) : Atu :=
  let a := es.foldl Atu.pulse a
  let stopE := a.fld 0x3010 11 6
  let startE := a.fld 0x3010 5 0
  if stopE ≠ 0 ∧ es.contains stopE then a.stopEvent stopE
  else if startE ≠ 0 ∧ es.contains startE then a.traceStart startE
  else a

/-! ### What cores present (R179 to R191) -/

/-- Base of masking range m, and whether an address of source n lies in it. -/
def rangeBase (m : Nat) : Nat := 0x3200 + 0x40 * m
def Atu.rangeKind (a : Atu) (m : Nat) : Nat := a.fld (rangeBase m + 0x10) 1 0
def Atu.inRange (a : Atu) (m n addr : Nat) : Bool :=
  decide (a.rangeKind m ≠ 0) && a.bit (rangeBase m + 0x10) (16 + n) &&
    decide (rget64 a.regs (rangeBase m) ≤ addr) && decide (addr ≤ rget64 a.regs (rangeBase m + 8))

/-- Ranges that an address of source n falls in: events 21 to 28 (R194). -/
def Atu.rangeEvents (a : Atu) (n addr : Nat) : List Nat :=
  ((List.range 8).filter fun m => a.inRange m n addr).map (· + 21)

/-- Whether a branch at an address passes the PC ranges (R188). -/
def Atu.branchTraced (a : Atu) (n pc : Nat) : Bool :=
  let has k := (List.range 8).any fun m => a.rangeKind m = k && a.bit (rangeBase m + 0x10) (16 + n)
  let hit k := (List.range 8).any fun m => a.rangeKind m = k && a.inRange m n pc
  (!has 1 || hit 1) && !hit 2

/-- The lowest data range that selects an access (R189). -/
def Atu.dataRange (a : Atu) (n addr value : Nat) : Option Nat :=
  (List.range 8).find? fun m =>
    let b := rangeBase m
    decide (a.rangeKind m = 3) && a.inRange m n addr &&
      decide (value &&& rget64 a.regs (b + 0x1C) = rget64 a.regs (b + 0x14) &&& rget64 a.regs (b + 0x1C))

/-- A branch of a source: traced, or filtered by the ranges (R188). The first one traced after filtered code owes a SYNC (R180). -/
def Atu.srcBranch (a : Atu) (n : Fin 16) (x : TraceSrc) (pc : Nat) (k : TraceSrc → TraceSrc) : TraceSrc :=
  if a.branchTraced n.val pc then
    k { x with pc := pc, filtered := false, stream := { x.stream with needSync := x.stream.needSync || x.filtered } }
  else { a.srcFlushAtoms n x with filtered := true, pc := pc }

/-- What a source emits for a retirement, by its mode. -/
def Atu.srcRetire (a : Atu) (n : Fin 16) (x : TraceSrc) (r : Retire) : TraceSrc :=
  let mode := a.srcMode n
  match r with
  | .cond pc os => if modeBranch mode then a.srcBranch n x pc.toNat fun x => a.srcAtoms n x os else { x with pc := pc.toNat }
  | .indirect pc t =>
    if modeBranch mode then a.srcBranch n x pc.toNat fun x =>
      let x := a.srcFlushAtoms n x
      let l := max 1 (lowBytes x.pc t.toNat)
      { a.srcPut n x 0 (leBytes 1 3 ++ leBytes 1 l ++ leBytes l t.toNat) with pc := t.toNat }
    else { x with pc := t.toNat }
  | .exception pc cause priv sec ret =>
    if modeBranch mode then a.srcBranch n x pc.toNat fun x =>
      let x := a.srcFlushAtoms n x
      { a.srcPut n x 0 (leBytes 1 4 ++ leBytes 2 cause.toNat ++ leBytes 1 (priv.toNat + 4 * b2n sec) ++ leBytes 8 ret.toNat) with
        pc := ret.toNat }
    else { x with pc := ret.toNat }
  | .access addr value sz wr =>
    if !modeData mode then x
    else match a.dataRange n.val addr.toNat value.toNat with
      | none => x
      | some m =>
        let x := a.srcFlushAtoms n x
        -- SYNC sets the last data address to 0 (R178): it goes out first where it is due
        let x := if a.syncDue x then a.srcSync n x else x
        let out := a.bit (rangeBase m + 0x10) 2
        let l := lowBytes x.dataAddr addr.toNat
        let info := sz.val + 4 * b2n wr + 8 * m + 64 * b2n out
        let s := if out then 2 ^ sz.val else 0
        { a.srcPut n x 0 (leBytes 1 12 ++ leBytes 1 info ++ leBytes 1 l ++ leBytes l addr.toNat ++ leBytes s value.toNat) with
          dataAddr := addr.toNat }

/-- The source of a core is emitting: trace on, mode not OFF, core powered and not excluded. -/
def Atu.srcLive (a : Atu) (n : Fin 16) : Bool :=
  a.traceOn && decide (a.srcMode n ≠ 0) && (a.src n).powered && (a.src n).excluded.isNone

/-- Addresses that a retirement shows to the masking ranges. -/
def retireAddr (r : Retire) : Nat :=
  match r with
  | .cond pc _ => pc.toNat
  | .indirect pc _ => pc.toNat
  | .exception pc _ _ _ _ => pc.toNat
  | .access addr _ _ _ => addr.toNat

/-- A core presents a retirement (R179, R188, R189): its packets, then the range events of R194. -/
def Atu.retire (a : Atu) (n : Fin 16) (r : Retire) : Atu :=
  if !a.hasTrace || !a.bound.clkRun then a
  else
    let full := a.trace.bufFull
    let a1 := if a.srcLive n then a.setSrc n (a.srcRetire n (a.src n) r) else a
    let a1 := a1.checkBufFull full
    if (a.exclusion n).isSome then a1 else a1.fire (a.rangeEvents n.val (retireAddr r))

/-- A core presents an exchange mark (R182). -/
def Atu.mark (a : Atu) (n : Fin 16) (recv : Bool) (xid : BitVec 32) : Atu :=
  if !a.srcLive n || !a.bound.clkRun then a
  else
    let full := a.trace.bufFull
    let x := a.srcFlushAtoms n (a.src n)
    let x := a.srcPut n x 1 (leBytes 1 (6 + b2n recv) ++ leBytes 4 xid.toNat ++ leBytes 8 a.time.ht)
    (a.setSrc n x).checkBufFull full

/-- SRCn_STATUS.EXCLUDED and POWERED_DOWN. -/
def Atu.srcStatus (a : Atu) (n : Fin 16) : Atu :=
  let o := 0x3104 + 8 * n.val
  (a.setFld o 2 2 (b2n (!(a.src n).powered))).setFld o 3 3 (b2n (a.exclusion n).isSome)

/-- Bring a source in line with what its core's context now is (R184): EXCLUDED on entry, SYNC on leaving. -/
def Atu.srcContext (a : Atu) (n : Fin 16) : Atu :=
  let a := a.srcStatus n
  if !a.traceOn || decide (a.srcMode n = 0) || !(a.src n).powered then a
  else
    let full := a.trace.bufFull
    let x := a.src n
    match a.exclusion n, x.excluded with
    | some r, none =>
      let x := a.srcFlushAtoms n x
      (a.setSrc n (a.srcExclude n x r)).checkBufFull full
    | none, some _ => (a.setSrc n (a.srcSync n { x with excluded := none })).checkBufFull full
    | _, _ => a

/-- The trace unit sees what cores signal: it is built, ATU_CLK runs (R751) and the ATU is out of reset (R273). -/
def Atu.coreSeen (a : Atu) : Bool := a.hasTrace && a.bound.clkRun && !a.bound.inReset

/-- A core's context changes with the first retirement in the new context (R184). -/
def Atu.contextChange (a : Atu) (n : Fin 16) (priv : BitVec 2) (secure : Bool) (pc : BitVec 64) : Atu :=
  if !a.coreSeen then a
  else
    let full := a.trace.bufFull
    let x := if a.srcLive n then a.srcFlushAtoms n (a.src n) else a.src n
    ((a.setSrc n { x with priv := priv.toNat, secure := secure, pc := pc.toNat }).checkBufFull full).srcContext n

/-- Low-power entry (R190, R191). A SYNC that is due goes out before POWER_DOWN (R180), but not in an excluded context (R184). -/
def Atu.corePowerDown (a : Atu) (n : Fin 16) : Atu :=
  if !a.coreSeen || !(a.src n).powered then a
  else
    let full := a.trace.bufFull
    let x := a.src n
    let live := a.traceOn && decide (a.srcMode n ≠ 0)
    let x := if live then
        let x := a.srcFlushAtoms n x
        let x := if x.excluded.isNone && a.syncDue x then a.srcSync n x else x
        a.srcPutKept n x (leBytes 1 9 ++ leBytes 8 a.time.ht)
      else x
    ((a.setSrc n { x with powered := false }).checkBufFull full).srcStatus n

/-- Low-power exit (R190, R191): POWER_UP, then SYNC of the first instruction, or EXCLUDED in an excluded context. -/
def Atu.corePowerUp (a : Atu) (n : Fin 16) (priv : BitVec 2) (secure : Bool) (pc : BitVec 64) : Atu :=
  if !a.coreSeen || (a.src n).powered then a
  else
    let full := a.trace.bufFull
    let x := { a.src n with powered := true, priv := priv.toNat, secure := secure, pc := pc.toNat, excluded := none }
    let live := a.traceOn && decide (a.srcMode n ≠ 0)
    let a := { a with trace := { a.trace with srcs := a.trace.srcs.set n x } }
    let a := if live then
        let x := a.srcPutKept n x (leBytes 1 10 ++ leBytes 8 a.time.ht)
        match a.exclusion n with
        | some r => a.setSrc n (a.srcExclude n x r)
        | none => a.setSrc n (a.srcSync n x)
      else a
    (a.checkBufFull full).srcStatus n

/-- A stream that was discarding packets has 256 bytes free again (R192): the OVERFLOW packet and its SYNC. -/
def overflowResume (d : ChunkDest) (ht tsUs pc ctx : Nat) (t : TraceStream) : Option TraceStream :=
  match t.dropping with
  | none => none
  | some (b, m) =>
    if streamUsed t + 256 > 2048 then none
    else
      let pkt := leBytes 1 8 ++ leBytes 4 (min 0xFFFFFFFF b) ++ leBytes 2 (min 0xFFFF m) ++ leBytes 8 ht
      let t := putRaw d (putStamp d ht tsUs { t with dropping := none, lostBytes := t.lostBytes + b }) pkt
      some { putChecked d 0 t (syncPacket ht pc ctx) with needSync := false }

/-- TRACE_OVERFLOW of a source (R192). Outcomes gathered meanwhile are lost with the rest. In an excluded context (R184), in low power (R190), while
trace is stopped (R197) and in MODE OFF (R179) the source emits nothing, so the OVERFLOW waits. -/
def Atu.srcOverflow (a : Atu) (n : Fin 16) : Atu :=
  if !a.srcLive n then a
  else
  let x := if (a.src n).stream.dropping.isSome then a.srcFlushAtoms n (a.src n) else a.src n
  match overflowResume (a.dest n.val) a.time.ht (a.fld 0x3000 31 24) x.pc (ctxByte x) x.stream with
  | none => a
  | some t =>
    let a := (a.setSrc n { x with stream := t, dataAddr := 0 }).checkBufFull a.trace.bufFull
    let a := a.setFld (0x3104 + 8 * n.val) 31 16 (min 0xFFFF (t.lostBytes / 1024))
    (a.flag (trcFlag 8)).pulse 31

/-- TRACE_OVERFLOW of the log stream (R193). -/
def Atu.logOverflow (a : Atu) : Atu :=
  match overflowResume (a.dest 0x10) a.time.ht (a.fld 0x3000 31 24) 0 0 a.trace.log with
  | none => a
  | some t => (((a.setLogStream t).checkBufFull a.trace.bufFull).flag (trcFlag 8)).pulse 31

/-- A chunk of a source open for 10 microseconds is closed and padded (R174). -/
def Atu.srcChunkClose (a : Atu) (n : Fin 16) : Atu :=
  let x := a.src n
  match x.stream.openedAt with
  | some t => if t + 10000 ≤ a.time.elapsed then
      (a.setSrc n { x with stream := closeChunk (a.dest n.val) false x.stream }).checkBufFull a.trace.bufFull else a
  | none => a

/-- The same of the log stream. -/
def Atu.logChunkClose (a : Atu) : Atu :=
  match a.trace.log.openedAt with
  | some t => if t + 10000 ≤ a.time.elapsed then
      (a.setLogStream (closeChunk (a.dest 0x10) false a.trace.log)).checkBufFull a.trace.bufFull else a
  | none => a

/-- The stop delay ends (R197). -/
def Atu.stopDelayEnd (a : Atu) : Atu :=
  match a.trace.stopAt with
  | some t => if t ≤ a.time.ht && a.bound.clkRun then a.traceStop a.trace.stopEvt else a
  | none => a

/-- A TRIG_OUT pulse ends (R200). -/
def Atu.pulseEnd (a : Atu) (k : Fin 4) : Atu :=
  if a.trace.pulse[k] ≤ a.time.elapsed && a.bound.clkRun then { a with trace := { a.trace with pulse := a.trace.pulse.set k 0 } } else a

/-- A trace buffer write meets a host memory error: DEST bit 2 clears and its DMA channel is free (R203, R286). -/
def Atu.bufDmaError (a : Atu) : Atu :=
  if !a.bit 0x3000 2 || !a.bound.clkRun then a
  else ((a.setFld 0x3000 2 2 0).releaseDma 4).flag (trcFlag 10)

/-- A stream's queue regains room (R192, R193): source 0 to 15, or the log stream. -/
def Atu.streamOverflow (a : Atu) (t : Fin 17) : Atu :=
  if !a.bound.clkRun then a else if h : t.val < 16 then a.srcOverflow ⟨t.val, h⟩ else a.logOverflow

/-- A stream's chunk has been open for 10 microseconds (R174). -/
def Atu.streamChunkClose (a : Atu) (t : Fin 17) : Atu :=
  if !a.bound.clkRun then a else if h : t.val < 16 then a.srcChunkClose ⟨t.val, h⟩ else a.logChunkClose

/-- Lines of TRIG_IN rise in one ATU_CLK cycle: line k fires event k + 1, and the events fall together (R194, R198). -/
def Atu.trigInEdge (a : Atu) (lines : BitVec 4) : Atu :=
  if a.hasTrace && a.bound.clkRun then a.fire (((List.range 4).filter fun k => lines.toNat.testBit k).map (· + 1)) else a

/-- The event that START_EVT names falls (R196). -/
def Atu.startTrace (a : Atu) (e : BitVec 6) : Atu :=
  if a.hasTrace && a.bound.clkRun && decide (e ≠ 0) && decide (a.fld 0x3010 5 0 = e.toNat) then a.fire [e.toNat] else a

/-- The event that STOP_EVT names falls (R197). -/
def Atu.stopTrace (a : Atu) (e : BitVec 6) : Atu :=
  if a.hasTrace && a.bound.clkRun && decide (e ≠ 0) && decide (a.fld 0x3010 11 6 = e.toNat) then a.fire [e.toNat] else a

/-! ### Authorisation (R185 to R187) -/

/-- Every source follows a change of what is authorised. -/
def Atu.recheckContexts (a : Atu) : Atu := a.eachSrc fun a n => a.srcContext n

/-- A token from one side (R185, R186): the status, and the ATU after it. -/
def Atu.authToken (a : Atu) (s : SideRegs) (hi : Word) : Status × Atu :=
  let au := a.trace.auth
  let token := s.authLo.toNat + 2 ^ 32 * hi.toNat
  if !(au.keyLoSet && au.keyHiSet) then (.privilege, a)
  else if a.bit 0x3008 3 then (.privilege, a)
  else if token = au.key then
    let e := s.authExpLo.toNat + 2 ^ 32 * s.authExpHi.toNat
    let a := { a with trace := { a.trace with auth := { au with expiry := some e } } }
    (.ok, (a.setFld 0x3008 2 2 1).recheckContexts)
  else
    let f := au.failures + 1
    let a := ({ a with trace := { a.trace with auth := { au with failures := f } } }).flag (trcFlag 11)
    (.privilege, if f ≥ 3 then a.setFld 0x3008 3 3 1 else a)

/-- The expiry stroke has fired: authorisation drops (R187), once ATU_CLK runs (R751). -/
def Atu.authExpire (a : Atu) : Atu :=
  match a.trace.auth.expiry, a.time.lastFired with
  | some e, some n =>
    if e ≤ n && a.bound.clkRun then
      let a := { a with trace := { a.trace with auth := { a.trace.auth with expiry := none } } }
      ((a.setFld 0x3008 2 2 0).flag (trcFlag 14)).recheckContexts
    else a
  | _, _ => a

end Sys2Proof.Machine
end

