-- ==== Sys2Proof/Machine/LogMatcher.lean ====
section
/-!
DEFINITION. LogMatcher.lean: the log matcher of spec/05_trace.md (R206 to R214): the buffer queue, UTF-8 checking and the patterns.
-/
namespace Sys2Proof.Machine

/-- Base of pattern k's registers. -/
def patBase (k : Nat) : Nat := 0x4000 + 0x80 * (k % 32)

/-- Byte i of P or M of a pattern (`off` 0 or 0x20). -/
def Atu.patByte (a : Atu) (k off i : Nat) : Nat :=
  wfld (a.reg (patBase k + off + 4 * (i / 4))) (8 * (i % 4) + 7) (8 * (i % 4))

/-- Upper case to lower case (R209). -/
def lowerByte (n : Nat) : Nat := if 0x41 ≤ n ∧ n ≤ 0x5A then n + 0x20 else n

/-- Pattern k matches at the newest byte of a stream history, newest first (R209, R212). -/
def Atu.patMatches (a : Atu) (k : Nat) (hist : List (Option Byte)) : Bool :=
  let len := a.fld (patBase k + 0x40) 5 0
  let fold n := if a.bit (patBase k + 0x40) 6 then lowerByte n else n
  decide (1 ≤ len) && (List.range len).all fun i =>
    match hist.getD (len - 1 - i) none with
    | none => false
    | some b => decide ((fold b.toNat ^^^ fold (a.patByte k 0 i)) &&& a.patByte k 0x20 i = 0)

/-- A packet of the log stream, behind any SYNC and TIMESTAMP due (R180, R181, R193). -/
def Atu.logPut (a : Atu) (marks : Nat) (pkt : List Byte) : Atu :=
  let d := a.dest 0x10
  let ht := a.time.ht
  let ts := a.fld 0x3000 31 24
  let t := a.trace.log
  let t := if t.needSync || decide (a.fld 0x3000 23 16 * 1024 ≤ t.sinceSync) then
      putChecked d 0 (putStamp d ht ts { t with needSync := false }) (syncPacket ht 0 0) else t
  (a.setLogStream (putChecked d marks (putStamp d ht ts t) pkt)).checkBufFull a.trace.bufFull

/-- Pattern k's match at a byte (R210): LOG_MATCH, the count, the flag. -/
def Atu.logMatch (a : Atu) (k : Nat) (b : LogByte) : Atu :=
  let a := a.logPut 1 (leBytes 1 0x10 ++ leBytes 1 k ++ leBytes 4 b.seq ++ leBytes 4 b.off ++ leBytes 8 b.ht)
  (a.inc (patBase k + 0x44) 1).flag (logFlag 8)

/-- A stream byte known to be whole: it joins the history, every pattern enabled since before it was consumed is tried (R213), and the events fire
together. -/
def Atu.logFeed (a : Atu) (b : LogByte) : Atu :=
  let hist := (some b.val :: a.log.hist).take 32
  let a := { a with log := { a.log with hist := hist } }
  let hits := (List.range 16).filter fun k => a.bit 0x3800 k && b.en.testBit k && a.patMatches k hist
  let a := hits.foldl (fun a k => a.logMatch k b) a
  a.fire (hits.map (· + 5))

/-- An invalid sequence (R212): LOG_INVALID with its first byte's place, and none of its bytes takes part in a match. -/
def Atu.logInvalid (a : Atu) (bs : List LogByte) : Atu :=
  match bs with
  | [] => a
  | b :: _ =>
    let a := a.logPut 1 (leBytes 1 0x11 ++ leBytes 4 b.seq ++ leBytes 4 b.off ++ leBytes 8 b.ht)
    let a := a.flag (logFlag 9)
    { a with log := { a.log with hist := (bs.map (fun _ => none) ++ a.log.hist).take 32 } }

/-- Length of the UTF-8 character that a lead byte begins (RFC 3629); 0 where no character begins so. -/
def utf8Len (n : Nat) : Nat :=
  if n < 0x80 then 1 else if 0xC2 ≤ n ∧ n ≤ 0xDF then 2 else if 0xE0 ≤ n ∧ n ≤ 0xEF then 3 else if 0xF0 ≤ n ∧ n ≤ 0xF4 then 4 else 0

/-- Whether byte `n` may follow the bytes `pre` of a character (RFC 3629). -/
def utf8Cont (pre : List Nat) (n : Nat) : Bool :=
  match pre with
  | [l] =>
    if l = 0xE0 then decide (0xA0 ≤ n ∧ n ≤ 0xBF) else if l = 0xED then decide (0x80 ≤ n ∧ n ≤ 0x9F)
    else if l = 0xF0 then decide (0x90 ≤ n ∧ n ≤ 0xBF) else if l = 0xF4 then decide (0x80 ≤ n ∧ n ≤ 0x8F)
    else decide (0x80 ≤ n ∧ n ≤ 0xBF)
  | _ => decide (0x80 ≤ n ∧ n ≤ 0xBF)

def Atu.setPartChar (a : Atu) (bs : List LogByte) : Atu := { a with log := { a.log with partChar := bs } }

/-- A byte that begins a character. -/
def Atu.logLead (a : Atu) (b : LogByte) : Atu :=
  match utf8Len b.val.toNat with
  | 0 => a.logInvalid [b]
  | 1 => a.logFeed b
  | _ => a.setPartChar [b]

/-- One stream byte under the UTF-8 check (R211): a character is fed when it is complete; bytes that cannot go on make the
sequence before them invalid, and are looked at anew. -/
def Atu.logUtf8 (a : Atu) (b : LogByte) : Atu :=
  match a.log.partChar with
  | [] => a.logLead b
  | l :: rest =>
    let pre := l :: rest
    if utf8Cont (pre.map (·.val.toNat)) b.val.toNat then
      if pre.length + 1 = utf8Len l.val.toNat then (pre ++ [b]).foldl Atu.logFeed (a.setPartChar [])
      else a.setPartChar (pre ++ [b])
    else ((a.logInvalid pre).setPartChar []).logLead b

/-- UTF8 was cleared while a character was incomplete: its bytes are stream bytes like any others. -/
def Atu.logUnheld (a : Atu) : Atu := a.log.partChar.foldl Atu.logFeed (a.setPartChar [])

/-- The end of a stream (R208, R211): a character still incomplete is invalid under the UTF-8 check, and no match spans the end. -/
def Atu.logEnd (a : Atu) : Atu :=
  let a := if a.bit 0x3800 16 then (a.logInvalid a.log.partChar).setPartChar [] else a.logUnheld
  { a with log := { a.log with hist := [] } }

/-- The front buffer is finished: the next one comes, and ATU_LOG_BUF_SEQ counts (R207). -/
def Atu.logBufDone (a : Atu) (b : LogBuf) : Atu :=
  let a := if b.last then a.logEnd else a
  { a with log := { a.log with queue := a.log.queue.tail, off := 0 } }.inc 0x3814 1

/-- The matcher consumes the next byte of the front buffer, read from host memory (R209 to R212). -/
def Atu.logConsume (a : Atu) : Atu :=
  if !a.bit 0x3800 17 || !a.bound.clkRun then a
  else match a.log.queue with
    | [] => a
    | b :: _ =>
      let x : LogByte := ⟨mget a.hostMem (b.addr + a.log.off), b.seq, a.log.off, b.ht, a.fld 0x3800 15 0⟩
      let a1 := { a with log := { a.log with off := a.log.off + 1 } }
      let a1 := if a.bit 0x3800 16 then a1.logUtf8 x else a1.logUnheld.logFeed x
      if a.log.off + 1 = b.len then a1.logBufDone b else a1

/-- A buffer read meets a host memory error (R214): the rest of the buffer is skipped, as if it had END set. -/
def Atu.logDmaError (a : Atu) : Atu :=
  if !a.bit 0x3800 17 || !a.bound.clkRun then a
  else match a.log.queue with
    | [] => a
    | b :: _ => (a.logBufDone { b with last := true }).flag (logFlag 10)

/-- A buffer is submitted (R206): its number, its HT, its length and END. The queue holds fewer than 16. -/
def Atu.logSubmit (a : Atu) (v : Word) : Atu :=
  let b : LogBuf := ⟨rget64 a.regs 0x3804, wfld v 23 0, wbit v 24, a.time.ht, a.log.nextSeq⟩
  { a with log := { a.log with queue := a.log.queue ++ [b], nextSeq := (a.log.nextSeq + 1) % 2 ^ 32 } }

/-- Patterns are enabled: held bytes were consumed before that, and complete no match of theirs (R213). -/
def Atu.logEnable (a : Atu) (fresh : Nat) : Atu :=
  a.setPartChar (a.log.partChar.map fun b => { b with en := (List.range 16).foldl (fun m k => if fresh.testBit k && m.testBit k then m - 2 ^ k else m) b.en })

/-- ENABLE from 0 to 1 restarts the numbering and clears the queue (ATU_LOG_CFG). -/
def Atu.logRestart (a : Atu) : Atu :=
  { a with log := {}, trace := { a.trace with log := { a.trace.log with seq := 0, lastAt := a.time.elapsed } } }.setRegN 0x3814 0

end Sys2Proof.Machine
end

