-- ==== Sys2Proof/Machine/Sampling.lean ====
section
/-!
DEFINITION. Sampling.lean: counter taps, snapshots, sample channels, commits and the frame budget: spec/03_sampling.md (R86 to R120,
R746 to R748), and the frames they build (R121 to R140 of spec/04_frames.md).
-/
namespace Sys2Proof.Machine

/-- Change the time part of an ATU. -/
def Atu.withTime (a : Atu) (f : AtuTime → AtuTime) : Atu := { a with time := f a.time }

/-! ### Channel configurations -/

/-- Fields of a channel's set (ATU_CHn_CFG, ATU_CHn_RATE). -/
def ChSet.enabled (c : ChSet) : Bool := wbit c.cfg 0
def ChSet.group (c : ChSet) : Nat := wfld c.cfg 3 1
def ChSet.codec (c : ChSet) : Bool := wbit c.cfg 4
def ChSet.keyEvery (c : ChSet) : Nat := wfld c.cfg 19 8
def ChSet.divisor (c : ChSet) : Nat := wfld c.rate 15 0 + 1
def ChSet.phase (c : ChSet) : Nat := wfld c.rate 31 16

/-- Set of channel n in a list of eight. -/
def setOf (cs : List ChSet) (n : Nat) : ChSet := cs.getD n {}

/-- A leader or a lone channel: enabled and naming itself (R104). -/
def isSender (cs : List ChSet) (n : Nat) : Bool := (setOf cs n).enabled && decide ((setOf cs n).group = n)

/-- A non-leader member of a group. -/
def isMember (cs : List ChSet) (n : Nat) : Bool := (setOf cs n).enabled && decide ((setOf cs n).group ≠ n)

/-- Channels whose taps the frame of leader n carries (R104, R107). -/
def groupOf (cs : List ChSet) (n : Nat) : List Nat :=
  (List.range 8).filter fun m => (setOf cs m).enabled && decide ((setOf cs m).group = n)

/-- Every enabled channel names a valid leader (R105). -/
def groupsValid (cs : List ChSet) : Bool :=
  (List.range 8).all fun n => !(setOf cs n).enabled ||
    (isSender cs (setOf cs n).group && decide ((setOf cs n).group ≤ n))

/-- Word k of the union of a group's tap selections. -/
def unionWord (cs : List ChSet) (n k : Nat) : Word :=
  (groupOf cs n).foldl (fun w m => w ||| sget 0 (setOf cs m).sel k) 0

/-- Taps of the frame of leader n, ascending, each once (R107). -/
def groupTaps (cs : List ChSet) (n words : Nat) : List Nat :=
  (List.range words).flatMap fun k => ((List.range 32).filter fun i => wbit (unionWord cs n k) i).map (· + 32 * k)

/-- Whether a set selects any tap. -/
def selectsTap (c : ChSet) (words : Nat) : Bool := (List.range words).any fun k => decide (sget 0 c.sel k ≠ 0)

/-- Words of a tap selection on this die: 8 per block of 256 taps. -/
def Atu.tapWords (a : Atu) : Nat := 8 * a.tapBlocks

/-- ATU_TAP_KIND: tap i is a gauge (R86). -/
def Atu.isGauge (a : Atu) (i : Nat) : Bool := a.bit (0x2000 + 4 * (i / 32)) (i % 32)

/-- raw_len of R115 for a list of taps. -/
def Atu.rawLen (a : Atu) (taps : List Nat) : Nat := 64 + 8 * rawUnits (taps.map a.isGauge)

/-- Granules of a sender's reference frame (R287). -/
def Atu.grainsOf (a : Atu) (cs : List ChSet) (n : Nat) : Nat :=
  if isSender cs n && (setOf cs n).codec then ceilDiv (a.rawLen (groupTaps cs n a.tapWords) - 64) 2048 else 0

/-- The sets in force. -/
def Atu.actSets (a : Atu) : List ChSet := a.samp.chans.toList.map (·.act)

/-- Put a commit's sets into a configuration. -/
def applySets (cs : List ChSet) (sets : List (Nat × ChSet)) : List ChSet :=
  sets.foldl (fun cs p => cs.set p.1 p.2) cs

/-- The configuration once every pending commit has taken effect (R116). -/
def Atu.pendingSets (a : Atu) : List ChSet := a.samp.commits.foldl (fun cs c => applySets cs c.sets) a.actSets

/-! ### Charges (R115 to R119) -/

/-- Charge of one sender in bytes per microsecond, as a fraction. -/
def Atu.chargeOf (a : Atu) (cs : List ChSet) (period n : Nat) : Nat × Nat :=
  (a.rawLen (groupTaps cs n a.tapWords), period * (setOf cs n).divisor)

/-- Sum of fractions. -/
def sumFrac (l : List (Nat × Nat)) : Nat × Nat := l.foldl (fun x y => (x.1 * y.2 + y.1 * x.2, x.2 * y.2)) (0, 1)

/-- Charge of the senders that are not left out. -/
def Atu.charge (a : Atu) (cs : List ChSet) (period : Nat) (out : Nat → Bool) : Nat × Nat :=
  sumFrac (((List.range 8).filter fun n => isSender cs n && !out n).map (a.chargeOf cs period))

/-- Within 256 bytes per microsecond, without rounding (R115). -/
def withinBudget (c : Nat × Nat) : Bool := decide (c.1 ≤ 256 * c.2)

/-- A charge in kB/s, rounded down. -/
def kbPerS (c : Nat × Nat) : Nat := if c.2 = 0 then 0 else 1000 * c.1 / c.2

def Atu.suspended (a : Atu) (n : Nat) : Bool := if h : n < 8 then (a.samp.chans[n]).suspended else false
def Atu.planned (a : Atu) (n : Nat) : Bool := if h : n < 8 then (a.samp.chans[n]).planned else false

/-- Suspended, or to be suspended at the first stroke (R117, R747). -/
def Atu.heldBack (a : Atu) (n : Nat) : Bool := if h : n < 8 then (a.samp.chans[n]).suspended || (a.samp.chans[n]).atFirst else false

/-- Leaders to suspend, highest first, until the charge fits (R117). -/
def Atu.plan (a : Atu) (cs : List ChSet) (period : Nat) (out : List Nat) : List Nat → List Nat
  | [] => out
  | n :: ns =>
    if withinBudget (a.charge cs period fun m => a.heldBack m || out.contains m) then out
    else a.plan cs period (if isSender cs n && !a.heldBack n then n :: out else out) ns

/-- Change one channel. -/
def Atu.modChan (a : Atu) (n : Nat) (f : Chan → Chan) : Atu :=
  if h : n < 8 then { a with samp := { a.samp with chans := a.samp.chans.set n (f a.samp.chans[n]) } } else a

/-- Change every channel. -/
def Atu.mapChans (a : Atu) (f : Nat → Chan → Chan) : Atu :=
  { a with samp := { a.samp with chans := Vector.ofFn fun (i : Fin 8) => f i.val a.samp.chans[i] } }

/-- The configuration in force from window c on, as the commits now accepted make it. -/
def Atu.setsAt (a : Atu) (c : Nat) : List ChSet :=
  (a.samp.commits.filter fun x => match x.actWin with | none => true | some w => decide (w ≤ c)).foldl (fun cs x => applySets cs x.sets) a.actSets

/-- Plan the suspensions of a pending period change at window c (R117), on the configuration in force under the new period. -/
def Atu.planPeriod (a : Atu) (c period : Nat) : Atu :=
  let out := a.plan (a.setsAt c) period [] [7, 6, 5, 4, 3, 2, 1, 0]
  a.mapChans fun n c => { c with planned := out.contains n }

/-- A new coding sequence: key frame next, CFG_SERIAL one up (R112, R123). -/
def newSequence (c : Chan) : Chan := { c with needKey := true, cfgSerial := (c.cfgSerial + 1) % 65536 }

/-- Apply the planned suspensions (R117, R118). DESIGN CHOICE (notes/assumptions/119.md): SUSPENDED is set on the leader of a suspended group alone. -/
def Atu.applyPlanned (a : Atu) : Atu :=
  let any := (List.range 8).any fun n => a.planned n && !a.suspended n
  let a := a.mapChans fun _ c => if c.planned && !c.suspended then newSequence { c with planned := false, suspended := true }
                                 else { c with planned := false }
  if any then a.flag (snapFlag 2) else a

/-- Resume suspended senders, lowest leader first, for as long as the charge fits (R119); `fresh` were suspended just now. -/
def Atu.resume (a : Atu) (period : Nat) (fresh : List Nat) : List Nat → Atu
  | [] => a
  | n :: ns =>
    if !a.suspended n || fresh.contains n then a.resume period fresh ns
    else if withinBudget (a.charge a.actSets period fun m => a.suspended m && decide (m ≠ n)) then
      (a.modChan n fun c => newSequence { c with suspended := false }).resume period fresh ns
    else a

/-- A period change takes effect (R117 to R119). -/
def Atu.periodChanged (a : Atu) (period : Nat) : Atu :=
  let fresh := (List.range 8).filter a.planned
  a.applyPlanned.resume period fresh [0, 1, 2, 3, 4, 5, 6, 7]

/-- The schedule becomes known (R747): commits made meanwhile are checked under every period then known, and whole groups are to be suspended from the
first stroke where the charge is too high. -/
def Atu.budgetOnLearn (a : Atu) (periods : List Nat) : Atu :=
  let a := a.mapChans fun _ c => { c with atFirst := false }
  let out := periods.foldl (fun out p => a.plan a.pendingSets p out [7, 6, 5, 4, 3, 2, 1, 0]) []
  a.mapChans fun n c => { c with atFirst := out.contains n }

/-- The first stroke: the suspensions of R747 take effect (R118). -/
def Atu.firstSuspend (a : Atu) : Atu :=
  if a.samp.chans.toList.any (·.atFirst) then
    (a.mapChans fun _ c => if c.atFirst then newSequence { c with atFirst := false, suspended := true } else c).flag (snapFlag 2)
  else a

/-- ATU_CH_PENDING_CHARGE: the highest total that the pending sets and any pending period will reach. DESIGN CHOICE (notes/assumptions/119.md): pending
commits are taken in the order of their acceptance, and it reads 0 while no schedule is known (R747). -/
def Atu.peakCharge (a : Atu) : Nat :=
  match a.time.sched with
  | none => 0
  | some s =>
    let cfgs := a.samp.commits.foldl (fun l c => l ++ [applySets (l.getLastD a.actSets) c.sets]) [a.actSets]
    let now := cfgs.map fun cs => kbPerS (a.charge cs s.periodUs a.heldBack)
    let later := match a.time.pending with
      | none => []
      | some (_, p) => cfgs.map fun cs => kbPerS (a.charge cs p fun n => a.heldBack n || a.planned n)
    (now ++ later).foldl max 0

/-! ### Commits (R108 to R116) -/

/-- Window now open (R70). -/
def Atu.window (a : Atu) : Nat := windowAt a.time.prev a.time.sched a.time.pending a.time.ht

/-- Shadow set of channel n (R108). -/
def Atu.shadow (a : Atu) (n : Nat) : ChSet :=
  { cfg := a.reg (0x0500 + 0x20 * n), rate := a.reg (0x0504 + 0x20 * n),
    sel := (List.range a.tapWords).foldl (fun m k => sset 0 m k (a.reg (0x1000 + 0x200 * n + 4 * k))) [] }

/-- Channels of a mask. -/
def maskChans (mask : Nat) : List Nat := (List.range 8).filter fun n => mask.testBit n

/-- Channels with a pending set (ATU_CH_COMMIT_STATUS.PENDING). -/
def Atu.pendingMask (a : Atu) : List Nat := a.samp.commits.flatMap fun c => c.sets.map (·.1)

def Atu.ownsAll (a : Atu) (side : Side) (mask : Nat) : Bool := (maskChans mask).all fun n => a.mayWrite (.bit n) side

/-- Granules that a commit claims: its own senders, and groups outside it whose union it changes (R287). -/
def Atu.commitGrains (a : Atu) (base : List ChSet) (sets : List (Nat × ChSet)) : Nat :=
  let after := applySets base sets
  let own := sets.map (·.1)
  ((List.range 8).filter fun n => own.contains n || decide (groupTaps base n a.tapWords ≠ groupTaps after n a.tapWords)).foldl
    (fun g n => g + a.grainsOf after n) 0

/-- ATU_POOL.CODEC: granules of the sets in force and of the pending commits (R287). -/
def Atu.poolCodec (a : Atu) : Nat :=
  (List.range 8).foldl (fun g n => g + a.grainsOf a.actSets n) 0 + (a.samp.commits.map (·.grains)).sum

/-- ATU_POOL.FREE. -/
def Atu.poolFree (a : Atu) : Nat := a.poolTotal - a.poolCodec - a.poolTrace

/-- The activation window of a commit made with ACT_WIN (R111); none when it takes effect at the first stroke. -/
def Atu.actWindow (a : Atu) (actWin : Nat) : Option Nat :=
  if actWin = 0 then (if a.time.sched.isSome then some (a.window + 2) else none) else some actWin

/-- The budget check of R115, R116 and R748 on the configuration a commit results in. -/
def Atu.commitFits (a : Atu) (after : List ChSet) (mask : Nat) (act : Option Nat) : Bool :=
  match a.time.sched with
  | none => true
  | some s =>
    let nowOut n := a.heldBack n && !mask.testBit n
    let laterOut n := (a.heldBack n || a.planned n) && !mask.testBit n
    match a.time.pending with
    | none => withinBudget (a.charge after s.periodUs nowOut)
    | some (c, p) =>
      (decide (c ≤ act.getD 0) || withinBudget (a.charge after s.periodUs nowOut)) && withinBudget (a.charge after p laterOut)

/-- The codes that apply to a commit (R109). DESIGN CHOICE (notes/assumptions/119.md): the leader check of R105 is made on the configuration that every
pending commit and this one lead to, whatever their activation windows. -/
def Atu.commitChecks (a : Atu) (side : Side) (mask actWin : Nat) : List Status :=
  let ns := maskChans mask
  let sets := ns.map fun n => (n, a.shadow n)
  let base := a.pendingSets
  let after := applySets base sets
  let bad := mask = 0 ∨ !groupsValid after ∨ ns.any fun n =>
    let c := a.shadow n
    c.enabled && (!selectsTap c a.tapWords || decide (c.divisor ≤ c.phase))
  failIf (!a.ownsAll side mask) .privilege ++
  failIf (!a.hasCodec && ns.any fun n => (a.shadow n).codec) .notPresent ++
  failIf (decide bad) .badParam ++
  failIf (a.time.sched.isSome && decide (actWin ≠ 0) && decide (actWin < a.window + 2)) .staleEpoch ++
  failIf (ns.any (a.pendingMask.contains ·) || !a.commitFits after mask (a.actWindow actWin) ||
    decide (a.poolFree < a.commitGrains base sets)) .conflict

/-- Whether a commit fails for want of granules. -/
def Atu.commitStarved (a : Atu) (mask : Nat) : Bool :=
  decide (a.poolFree < a.commitGrains a.pendingSets ((maskChans mask).map fun n => (n, a.shadow n)))

/-- An accepted commit (R110). -/
def Atu.commitAccept (a : Atu) (mask actWin : Nat) : Atu :=
  let sets := (maskChans mask).map fun n => (n, a.shadow n)
  let c : Commit := { actWin := a.actWindow actWin, early := a.time.sched.isNone, sets := sets, grains := a.commitGrains a.pendingSets sets }
  { a with samp := { a.samp with commits := a.samp.commits ++ [c] } }

/-- A write of ATU_CH_COMMIT without CANCEL (R109, R110, R114). -/
def Atu.commit (a : Atu) (side : Side) (mask actWin : Nat) : Status × Atu :=
  match firstCode (a.commitChecks side mask actWin) with
  | some c =>
    let a := if c = .conflict && a.commitStarved mask then a.flag (bndFlag 3) else a
    (c, a.setFld 0x060C 15 8 (statusCode c))
  | none => (.ok, (a.commitAccept mask actWin).setFld 0x060C 15 8 0)

/-- Remove the pending sets of a mask, with the granules they claimed (R113, R287). -/
def Atu.dropPending (a : Atu) (mask : Nat) : Atu :=
  let step (x : List ChSet × List Commit) (c : Commit) : List ChSet × List Commit :=
    let sets := c.sets.filter fun p => !mask.testBit p.1
    let c' := { c with sets := sets, grains := a.commitGrains x.1 sets }
    (applySets x.1 sets, if sets.isEmpty then x.2 else x.2 ++ [c'])
  { a with samp := { a.samp with commits := (a.samp.commits.foldl step (a.actSets, [])).2 } }

/-- The next stroke the ATU fires (R67, R68, R73): the one after the last, and none at or before the floor. -/
def AtuTime.nextStroke (t : AtuTime) (s : Sched) : Nat :=
  let f := firstAfterPending s t.pending t.floor
  match t.lastFired with | some m => max (m + 1) f | none => f

/-- Strokes fire in LOCKED and in HOLDOVER (R63). -/
def firesStrokes (s : TimeState) : Bool := decide (s = .locked ∨ s = .holdover)

/-- A cancel in the last 2 microseconds before the activation stroke comes too late (R113): the stroke of the activation window, or the next one
fired where that has passed or the commit waits for the first (R111). -/
def Atu.cancelLate (a : Atu) (c : Commit) : Bool :=
  match a.time.sched with
  | some s => firesStrokes a.time.state &&
      decide (schedHtPending s a.time.pending (max (c.actWin.getD 0) (a.time.nextStroke s)) ≤ a.time.ht + 2000)
  | none => false

/-- A write of ATU_CH_COMMIT with CANCEL (R113, R114). -/
def Atu.commitCancel (a : Atu) (side : Side) (mask : Nat) : Status × Atu :=
  let code := (firstCode (failIf (!a.ownsAll side mask) .privilege ++ failIf (decide (mask = 0)) .badParam)).getD .ok
  let late := (a.samp.commits.filter a.cancelLate).flatMap fun c => c.sets.map (·.1)
  let keep := late.foldl (fun m n => if m.testBit n then m - 2 ^ n else m) mask
  let a := if code = .ok then a.dropPending keep else a
  (code, a.setFld 0x060C 15 8 (statusCode code))

/-- One channel takes a committed set (R111, R112, R119): a new coding sequence; coverage starts at the activation window `w` when it was not enabled
(R102). A commit made before the schedule was known leaves a suspension by R747 in place. -/
def takeSet (early : Bool) (w : Nat) (old : Chan) (s : ChSet) : Chan :=
  let c := newSequence { old with act := s, suspended := early && old.suspended, atFirst := early && old.atFirst,
                                  planned := early && old.planned }
  if old.act.enabled then c else { c with acc := {}, covers := w, lostSince := 0, stepPartial := false }

/-- The activation window of a commit that takes effect for window `w` (R102, R111): the one it names, or for a commit made before the schedule
was known the window that the first stroke fired closes. -/
def Commit.startsAt (c : Commit) (w : Nat) : Nat := if c.early then w else c.actWin.getD w

/-- A commit takes effect for window `w` (R111): its sets, and a new sequence for every group whose union or membership it changes (R107, R112). -/
def Atu.commitApply (w : Nat) (a : Atu) (c : Commit) : Atu :=
  let before := a.actSets
  let a := c.sets.foldl (fun a p => a.modChan p.1 fun ch => takeSet c.early (c.startsAt w) ch p.2) a
  let after := a.actSets
  let own := c.sets.map (·.1)
  let a := a.mapChans fun n ch =>
    if !own.contains n && isSender after n &&
        (decide (groupOf before n ≠ groupOf after n) || decide (groupTaps before n a.tapWords ≠ groupTaps after n a.tapWords))
    then newSequence ch else ch
  a.flag (snapFlag 3)

/-- Apply the pending commits of a kind for window `w`. -/
def Atu.applyWhere (a : Atu) (w : Nat) (due : Commit → Bool) : Atu :=
  (a.samp.commits.filter due).foldl (Atu.commitApply w) { a with samp := { a.samp with commits := a.samp.commits.filter fun c => !due c } }

/-- A commit is due at window `w`: activation window reached, or none named. -/
def Commit.dueAt (c : Commit) (w : Nat) : Bool := match c.actWin with | none => true | some x => decide (x ≤ w)

/-- Apply every pending commit that is due at window `w` (R111). -/
def Atu.applyCommits (a : Atu) (w : Nat) : Atu := a.applyWhere w fun c => c.dueAt w

/-! ### Regions and coverage (R74 to R77, R102) -/

/-- A region is stretched, and not stopped (R75). -/
def Region.stretched (r : Region) : Bool := r.stretch && !r.stop

def orBit (m k : Nat) (b : Bool) : Nat := if b && !m.testBit k then m + 2 ^ k else m

/-- Account stretched time up to now, and mark what each region is, into the open window (R74, R76). -/
def accrue (now : Nat) (w : WinAcc) (rs : List Region) : WinAcc :=
  (rs.zipIdx).foldl (fun w p =>
    let (r, k) := p
    { w with stretchNs := if r.stretched then w.stretchNs + (now - r.since) else w.stretchNs,
             stretchMap := orBit w.stretchMap k r.stretched, stopMap := orBit w.stopMap k r.stop }) w

/-- Bring the open window's account up to now. -/
def Atu.accrueNow (a : Atu) : Atu :=
  let w := accrue a.time.steered a.samp.win a.samp.regions.toList
  { a with samp := { a.samp with win := w, regions := a.samp.regions.map fun r => { r with since := a.time.steered } } }

/-- Two accounts joined: sums and ORs over the covered windows (R102, R124). -/
def joinAcc (x y : WinAcc) : WinAcc :=
  ⟨x.stretchNs + y.stretchNs, x.stretchMap ||| y.stretchMap, x.stopMap ||| y.stopMap, x.safe || y.safe, x.margin || y.margin⟩

/-- A window begins with what still holds. -/
def Atu.openWindow (a : Atu) : Atu :=
  let a := a.accrueNow
  let w0 : WinAcc := { safe := decide (a.safe.now ≠ 0) }
  { a with samp := { a.samp with win := accrue a.time.steered w0 a.samp.regions.toList } }

/-- Window numbering begins, or HT is set for the first time: no window has seen anything yet. DEDUCED (notes/assumptions/16.md): what passed before
counts for no window. -/
def Atu.openFirst (a : Atu) : Atu :=
  let a := a.openWindow
  { a with samp := { a.samp with accts := [] } }

/-- Window k ends, or is left by a step of HT: its account is kept under its number, beside what it saw before such a step (R74, R76). -/
def Atu.passWindow (a : Atu) (k : Nat) : Atu :=
  let a := a.accrueNow
  { a with samp := { a.samp with accts := a.samp.accts ++ [(k, a.samp.win)] } }.openWindow

/-- What the windows from the channel's activation window on have seen (R102). -/
def Chan.collect (c : Chan) (l : List (Nat × WinAcc)) : Chan :=
  { c with acc := (l.filter fun p => decide (c.covers ≤ p.1)).foldl (fun x p => joinAcc x p.2) c.acc }

/-- Stroke n closes window n - 1: every channel takes the accounts of the windows up to it (R102). -/
def Atu.closeWindow (a : Atu) (n : Nat) : Atu :=
  let a := a.passWindow (n - 1)
  let l := a.samp.accts.filter fun p => decide (p.1 < n)
  let a := a.mapChans fun _ c => c.collect l
  { a with samp := { a.samp with accts := a.samp.accts.filter fun p => decide (n ≤ p.1) } }

/-- The number of the window now open: the one that the last stroke opened, and before any that of HT (R70). -/
def Atu.openNo (a : Atu) : Nat := a.time.lastFired.getD a.window

/-! ### Blocks and snapshots (R87 to R100) -/

/-- ATU_TAP_BLOCK_INFO of block b. -/
def Atu.info (a : Atu) (b : Nat) : Word := a.reg (0x0480 + 4 * b)
def Atu.blockPresent (a : Atu) (b : Nat) : Bool := wbit (a.info b) 5
/-- Powered by R746: an always-on block in RUN, any other by its PDOM_ON bit. -/
def Atu.blockPowered (a : Atu) (b : Nat) : Bool :=
  a.blockPresent b && !a.bound.inReset &&
    (wbit (a.info b) 12 || a.bit 0x0018 (wfld (a.info b) 11 8))
/-- The block's clock lies in region r. -/
def Atu.blockIn (a : Atu) (b r : Nat) : Bool := !wbit (a.info b) 4 && decide (wfld (a.info b) 3 0 = r)
/-- The block's region has CLK_STOP_N asserted. -/
def Atu.blockStopped (a : Atu) (b : Nat) : Bool :=
  !wbit (a.info b) 4 && (if h : wfld (a.info b) 3 0 < 16 then (a.samp.regions[wfld (a.info b) 3 0]).stop else false)

def Bank.isFree (b : Bank) : Bool := decide (b = .free)

/-- Values that a bank holds for a stroke. -/
def bankFor (b : Bank) (n : Nat) : Option (List (BitVec 48)) :=
  match b with
  | .full m vs => if m = n then some vs else none
  | .free => none
  | .late => none

/-- Values captured by a block for a stroke. -/
def TapBlock.capturedFor (t : TapBlock) (n : Nat) : Option (List (BitVec 48)) :=
  match bankFor t.bankA n with | some v => some v | none => bankFor t.bankB n

/-- A bank of the block is free. -/
def TapBlock.hasFree (t : TapBlock) : Bool := t.bankA.isFree || t.bankB.isFree

/-- Fill a free bank. -/
def TapBlock.fill (t : TapBlock) (x : Bank) : TapBlock :=
  let t := { t with fillToggle := !t.fillToggle }
  if t.bankA.isFree then { t with bankA := x } else if t.bankB.isFree then { t with bankB := x } else t

/-- A capture of all 256 values: for the stroke that the block awaits, else the late one of an abandoned stroke (R97); none without a free bank. -/
def TapBlock.capture (t : TapBlock) (vs : List (BitVec 48)) : TapBlock :=
  if !t.hasFree then t
  else match t.awaiting with
    | some n => { t.fill (.full n vs) with awaiting := none }
    | none => if t.late.isSome then { t.fill .late with late := none } else t

/-- The region's clock stops before the capture edge (R99): the capture completes on the stop-capture path, which waits for ATU_CLK (R751). -/
def TapBlock.stopCapture (run : Bool) (t : TapBlock) (vs : List (BitVec 48)) : TapBlock :=
  if run then t.capture vs
  else match t.awaiting with
    | some n => { t with awaiting := none, stopCap := some (n, vs) }
    | none => t

/-- ATU_CLK returns: the stop capture that waited for it is made. -/
def TapBlock.stopResume (t : TapBlock) : TapBlock :=
  match t.stopCap with
  | some (n, vs) => if t.hasFree then { t.fill (.full n vs) with stopCap := none } else t
  | none => t

/-- Release the bank that holds a stroke. -/
def TapBlock.release (t : TapBlock) (n : Nat) : TapBlock :=
  { t with bankA := if (bankFor t.bankA n).isSome then .free else t.bankA,
           bankB := if (bankFor t.bankB n).isSome then .free else t.bankB }

def Atu.setBlock (a : Atu) (b : Fin 16) (t : TapBlock) : Atu := { a with samp := { a.samp with blocks := a.samp.blocks.set b t } }
def Atu.mapBlocks (a : Atu) (f : Fin 16 → TapBlock → TapBlock) : Atu :=
  { a with samp := { a.samp with blocks := Vector.ofFn fun (i : Fin 16) => f i a.samp.blocks[i] } }

/-- Blocks as a mask. -/
def blockMask (p : Nat → Bool) : Nat := (List.range 16).foldl (fun m b => orBit m b (p b)) 0

/-- A value of tap `i` of a block, as reported (R86, R91): a counter with its base, a gauge as presented. -/
def reportTap (gauge : Bool) (base : Nat) (v : BitVec 48) : Nat :=
  if gauge then v.toNat % 2 ^ 32 else (base + v.toNat) % 2 ^ 48

/-- A gauge without a value (R96, R100). -/
def noGauge : Nat := 0x80000000

/-- What a block reports for a stroke: its capture, or the previous snapshot's values when stalled, or the held values when
powered off (R96, R100). -/
def Atu.blockReport (a : Atu) (b : Fin 16) (sn : Snap) : List Nat :=
  let t := a.samp.blocks[b]
  let base i := sget 0 t.bases i
  let prev i := match t.last with
    | some l => l.getD i 0
    | none => if a.isGauge (256 * b.val + i) then noGauge else base i
  (List.range 256).map fun i =>
    let g := a.isGauge (256 * b.val + i)
    if sn.off.testBit b.val then (if g then noGauge else prev i)
    else if sn.stalled.testBit b.val then prev i
    else match t.capturedFor sn.stroke with
      | some vs => reportTap g (base i) (vs.getD i 0)
      | none => prev i

/-- Frames due at stroke n (R101, R106), and whether one is. -/
def isDue (c : ChSet) (n : Nat) : Bool := decide ((n + c.divisor - c.phase) % c.divisor = 0)

def Atu.dueChans (a : Atu) (n : Nat) : List Nat :=
  let cs := a.actSets
  -- stroke 0 closes no window (R23, R70), so no frame is taken at it
  (List.range 8).filter fun k => decide (n ≠ 0) && isSender cs k && !a.suspended k && isDue (setOf cs k) n

/-- Strokes strictly between `lo` and `hi` at which a channel is due. -/
def dueBetween (c : ChSet) (lo hi : Nat) : Nat :=
  -- due strokes at or below x are counted by (x + D - p) / D
  let upTo x := (x + c.divisor - c.phase) / c.divisor
  upTo (hi - 1) - upTo lo

/-- Count due strokes as lost (R103). -/
def countLost (n : Nat) (c : Chan) : Chan :=
  { c with lost := (c.lost + n) % 2 ^ 32, lostSince := min 0xFFFFFFFF (c.lostSince + n) }

/-- The strokes strictly between `lo` and `hi` were skipped under the sets in force: due strokes are lost (R103), and after a step or a re-entry the
next frame carries PARTIAL (R67, R73). -/
def Atu.countSkipped (a : Atu) (part : Bool) (lo hi : Nat) : Atu :=
  if hi ≤ lo + 1 then a
  else
    let cs := a.actSets
    a.mapChans fun k c =>
      if isSender cs k && !c.suspended then { countLost (dueBetween c.act lo hi) c with stepPartial := c.stepPartial || part } else c

/-- Put a number into a rising list. -/
def insertUp (x : Nat) : List Nat → List Nat
  | [] => [x]
  | y :: t => if x ≤ y then x :: y :: t else y :: insertUp x t

/-- A pending change takes effect (R72): SCHED_CHANGED, and the budgets of the new period (R117, R119). -/
def Atu.takeChange (a : Atu) (s : Sched) (c p' : Nat) : Atu :=
  let a := a.withTime fun t => { t with sched := some (schedAfter s c p'), pending := none, prev := some s }
  (a.flag (timeFlag 12)).periodChanged p'

/-- The pending change takes effect where its window is `w` or earlier. -/
def Atu.changeAt (a : Atu) (w : Nat) : Atu :=
  match a.time.sched, a.time.pending with
  | some s, some (c, p') => if c ≤ w then a.takeChange s c p' else a
  | _, _ => a

/-- What takes effect at stroke w, which was not fired: the commits of window w and the period change. Before the first stroke fired, commits made
before the schedule was known still wait (R111). -/
def Atu.passStroke (a : Atu) (first : Bool) (w : Nat) : Atu :=
  (a.applyWhere w fun c => c.dueAt w && !(first && c.early)).changeAt w

/-- Strokes after `lo` were passed before stroke n: each counts under the sets and the suspensions that would have held at it (R103, R111). -/
def Atu.skipStrokes (a : Atu) (first : Bool) (lo n : Nat) : Atu :=
  let wins := ((a.samp.commits.filter fun c => !(first && c.early)).filterMap (·.actWin)).filter fun w => decide (lo < w)
  let marks := ((wins ++ a.time.pending.toList.map fun p => max lo p.1).filter fun w => decide (w < n)).foldl (fun l w => insertUp w l) []
  let x := marks.foldl (fun (x : Atu × Nat) w => ((x.1.countSkipped (!first) x.2 (w + 1)).passStroke first w, w)) (a, lo)
  x.1.countSkipped (!first) x.2 n

/-- After a forward step every sender's next frame carries PARTIAL (R67). -/
def Atu.markStep (a : Atu) : Atu :=
  let cs := a.actSets
  a.mapChans fun k c => if isSender cs k && !c.suspended then { c with stepPartial := true } else c

/-- The frame job of a due channel (R121, R124). -/
def Atu.job (a : Atu) (k n ht : Nat) (untested : Bool) : FrameJob :=
  let cs := a.actSets
  let c := if h : k < 8 then a.samp.chans[k] else {}
  { chan := k, window := n - 1, strokeHt := ht, taps := groupTaps cs k a.tapWords, codec := (setOf cs k).codec,
    keyEvery := (setOf cs k).keyEvery, holdover := decide (a.time.state = .holdover) || a.time.srcHoldover,
    stepPartial := c.stepPartial, untested := untested, lost := c.lostSince, acc := c.acc, serial := c.cfgSerial, key := c.needKey }

/-- A block is marked stalled for stroke n (R96, R97): STALL and its record; a capture that still comes is a late one. -/
def Atu.markStalled (a : Atu) (b : Fin 16) (n : Nat) : Atu :=
  let snaps := a.samp.snaps.map fun s => if s.stroke = n then { s with stalled := orBit s.stalled b.val true } else s
  let a := { a with samp := { a.samp with snaps := snaps } }
  let a := a.setBlock b { a.samp.blocks[b] with awaiting := none, late := some n }
  ((a.setFld 0x0404 b.val b.val 1).flag (snapFlag 1)).snapFaultEvent

/-- Blocks that still await an earlier stroke's capture edge at a stroke: that capture is abandoned (R97). -/
def Atu.abandon (a : Atu) : Atu :=
  (List.finRange 16).foldl (fun a b => match (a.samp.blocks[b]).awaiting with | some m => a.markStalled b m | none => a) a

/-- What a powered block does at stroke n (R92, R98): a stopped region's block captures on the stop-capture path, where ATU_CLK runs (R751); any other
awaits its capture edge. -/
def Atu.strokeBlock (a : Atu) (n : Nat) (b : Fin 16) (t : TapBlock) : TapBlock :=
  let t := { t with strokeToggle := !t.strokeToggle }
  if a.blockStopped b.val then (if a.bound.clkRun then t.fill (.full n t.tapVal) else t)
  else { t with awaiting := some n }

/-- The snapshot of stroke n is begun with the frames that are due (R92, R101): a powered block is needed unless it is stopped and ATU_CLK stands. -/
def Atu.beginSnap (a : Atu) (n ht : Nat) (untested : Bool) (due : List Nat) : Atu :=
  let live b := a.blockPowered b
  let sn : Snap := ⟨n, a.time.elapsed, blockMask fun b => live b && (a.bound.clkRun || !a.blockStopped b), 0,
                    blockMask fun b => a.blockPresent b && !live b, due.map fun k => a.job k n ht untested⟩
  let a := a.setRegN 0x0404 (65536 * blockMask fun b => live b && a.blockStopped b && a.bound.clkRun)
  let a := a.mapBlocks fun b t => if live b.val then a.strokeBlock n b t else t
  let a := a.mapChans fun k c => if due.contains k then { c with acc := {}, lostSince := 0, stepPartial := false, needKey := false } else c
  { a with samp := { a.samp with snaps := a.samp.snaps ++ [sn] } }

/-- The sampling part of stroke n at HT `ht` (R92, R95 to R98, R101 to R103, R111). `last` is the stroke fired before it. Stroke 0 closes no window
(R70): it opens window 0. -/
def Atu.sampleStroke (a : Atu) (n ht : Nat) (last : Option Nat) (untested : Bool) : Atu :=
  let a := (a.skipStrokes last.isNone (last.getD 0) n).applyCommits (n - 1)
  let a := if last.isNone then a.firstSuspend else a
  let a := (if n = 0 then a.openFirst else a.closeWindow n).abandon
  let due := a.dueChans n
  let past := (List.finRange 16).any fun b => a.blockPowered b.val && !(a.samp.blocks[b]).hasFree
  let a := if past then
      ((a.setRegN 0x0404 0).mapChans fun k c => if due.contains k then countLost 1 c else c).flag (snapFlag 0) |>.snapFaultEvent
    else a.beginSnap n ht untested due
  a.applyCommits n

/-- A capture edge of a block (R93): all 256 values at once into a free bank. A stopped region has no edge (R89). -/
def Atu.blockCapture (a : Atu) (b : Fin 16) (vs : List (BitVec 48)) : Atu :=
  if a.blockStopped b.val then a else a.setBlock b ((a.samp.blocks[b]).capture vs)

/-- CLK_STOP_N asserts in region r (R89, R99): what stands on TAP_VAL stays, and the captures that its blocks still await complete on the
stop-capture path. -/
def Atu.stopRegion (a : Atu) (r : Nat) (taps : List (List (BitVec 48))) : Atu :=
  let mine b := a.blockIn b r && (if h : b < 16 then (a.samp.blocks[b]).awaiting.isSome else false)
  let a := if a.bound.clkRun then a.setFld 0x0404 31 16 (a.fld 0x0404 31 16 ||| blockMask mine) else a
  a.mapBlocks fun b t => if a.blockIn b.val r then { t with tapVal := taps.getD b.val [] }.stopCapture a.bound.clkRun (taps.getD b.val []) else t

/-- ATU_CLK returns: stop captures that waited for it are made (R99, R751). -/
def Atu.stopResume (a : Atu) : Atu :=
  let now b := if h : b < 16 then (match (a.samp.blocks[b]).stopCap with | some (n, _) => decide (a.time.lastFired = some n) | none => false) else false
  (a.setFld 0x0404 31 16 (a.fld 0x0404 31 16 ||| blockMask now)).mapBlocks fun _ t => t.stopResume

/-- An edge of CLK_STRETCH_N or CLK_STOP_N (R75 to R77, R99): stretched time is accounted, the edge is stamped, and a stop completes the captures
that are awaited. -/
def Atu.regionEdge (a : Atu) (r : Fin 16) (stop asserted : Bool) (taps : List (List (BitVec 48))) : Atu :=
  let a := a.accrueNow
  let x := a.samp.regions[r]
  let x := if stop then { x with stop := asserted, stopHt := a.time.ht } else { x with stretch := asserted, stretchHt := a.time.ht }
  let w := { a.samp.win with stretchMap := orBit a.samp.win.stretchMap r.val x.stretched, stopMap := orBit a.samp.win.stopMap r.val x.stop }
  let a := { a with samp := { a.samp with regions := a.samp.regions.set r x, win := w } }
  if stop && asserted then a.stopRegion r.val taps else a

/-- No capture edge 2 microseconds after the stroke (R96): the block is stalled for it. -/
def Atu.blockStall (a : Atu) (b : Fin 16) : Atu :=
  match (a.samp.blocks[b]).awaiting with
  | none => a
  | some n =>
    match a.samp.snaps.find? (·.stroke = n) with
    | none => a
    | some sn => if a.time.elapsed < sn.atTime + 2000 || a.blockStopped b.val then a else a.markStalled b n

/-- A late capture fills a bank and is released unread within 3 ATU_CLK cycles (R97). -/
def Atu.lateRelease (a : Atu) (b : Fin 16) : Atu :=
  if !a.bound.clkRun then a
  else
    let t := a.samp.blocks[b]
    let live n := a.samp.snaps.any fun s => s.stroke = n
    let stale (x : Bank) : Bank := match x with
      | .full n vs => if live n then .full n vs else .free
      | .free => .free
      | .late => .free
    a.setBlock b { t with bankA := stale t.bankA, bankB := stale t.bankB, late := none,
                          fillToggle := if t.late.isSome then !t.fillToggle else t.fillToggle }

/-- A snapshot is complete when every block it needs is captured or stalled (R92 step 6). -/
def Atu.snapReady (a : Atu) (sn : Snap) : Bool :=
  (List.finRange 16).all fun b =>
    !sn.need.testBit b.val || sn.stalled.testBit b.val || ((a.samp.blocks[b]).capturedFor sn.stroke).isSome

/-! ### Building and sending frames (R121 to R141) -/

/-- FLAGS (R124). -/
def frameFlags (j : FrameJob) (stalled : Bool) : Nat :=
  b2n (decide (j.lost ≠ 0)) + 2 * b2n (decide (j.acc.stretchMap ≠ 0)) + 4 * b2n (decide (j.acc.stopMap ≠ 0)) +
    8 * b2n j.holdover + 16 * b2n (stalled || j.stepPartial) + 32 * b2n j.acc.safe + 64 * b2n j.untested + 128 * b2n j.acc.margin

/-- A message waits at a port in UP; at any other port it is lost (R306). -/
def PortEnd.enqueue (p : PortEnd) (kind : Nat) (msg : List Byte) : PortEnd :=
  if p.state = .up then { p with waiting := p.waiting ++ [(kind, msg)] } else p

/-- Send a message of a KIND on port A and, where it is wired, on port B (R140). -/
def Atu.sendBoth (a : Atu) (kind : Nat) (msg : List Byte) : Atu :=
  { a with portA := a.portA.enqueue kind msg, portB := if a.hasPortB then a.portB.enqueue kind msg else a.portB }

/-- The spill ring is enabled (R141). -/
def Atu.spillOn (a : Atu) : Bool := a.bit 0x0718 8

/-- Hand a frame to the spill DMA (R141); where it would lie the ring's margin beyond the write position it is dropped (R144, R145). -/
def Atu.spill (a : Atu) (f : List Byte) : Atu :=
  if !a.spillOn then a
  else if (a.path.spillQ.map List.length).sum + f.length < 32768 then
    { a with path := { a.path with spillQ := a.path.spillQ ++ [f] } }
  else a.flag (frameFlag 0)

/-- Code and send one frame of a complete snapshot (R121 to R141). -/
def Atu.buildFrame (vals : List (List Nat)) (stalled : Bool) (a : Atu) (j : FrameJob) : Atu :=
  if h : j.chan < 8 then
    let c := a.samp.chans[j.chan]
    let kinds := j.taps.map a.isGauge
    let vs := j.taps.map fun i => (vals.getD (i / 256) []).getD (i % 256) 0
    let coded := j.codec && a.hasCodec
    let key := j.key || c.flush || (decide (j.keyEvery ≠ 0) && decide (j.keyEvery ≤ c.sinceKey))
    let (codec, refWin, payload) := codeFrame kinds vs c.reference coded key
    let hdr : FrameHdr :=
      { chan := j.chan, codec := codec, dieId := (a.reg 0x0008).toNat, window := j.window, flags := frameFlags j stalled,
        strokeHt := j.strokeHt, tapCount := j.taps.length, payloadLen := payload.length / 8,
        stretchNs := min 0xFFFFFFFF j.acc.stretchNs, lost := j.lost, stopMap := j.acc.stopMap, stretchMap := j.acc.stretchMap,
        refWindow := refWin, seq := c.frames % 65536, cfgSerial := j.serial }
    let f := frameBytes hdr payload
    let c' := { c with flush := if codec = 1 then c.flush else false,
                       sinceKey := if codec = 1 then c.sinceKey + 1 else 0, reference := some (j.window, vs),
                       frames := (c.frames + 1) % 2 ^ 32 }
    let a := a.modChan j.chan fun _ => c'
    let a := if a.idInvalid then a else a.sendBoth 0 f
    a.spill f
  else a

/-- The oldest snapshot is complete (R92, R139): banks are read out and released, and its frames are coded in channel order. -/
def Atu.snapshotComplete (a : Atu) : Atu :=
  match a.samp.snaps with
  | [] => a
  | sn :: rest =>
    if !a.bound.clkRun || !a.snapReady sn then a
    else
      let vals := (List.finRange 16).map fun b => a.blockReport b sn
      let a := a.mapBlocks fun b t =>
        if sn.need.testBit b.val || sn.off.testBit b.val then { t.release sn.stroke with last := some (vals.getD b.val []) } else t
      let a := { a with samp := { a.samp with snaps := rest } }
      sn.jobs.foldl (Atu.buildFrame vals (decide (sn.stalled ≠ 0))) a

/-- PDOM_ON changes (R91, R746): a block that powers on takes its last reported counts as bases, and its counters stand at 0 (R90). In
reset no base is kept (R273). -/
def Atu.powerDomains (a : Atu) (pdom : BitVec 16) : Atu :=
  let rises b := !a.bound.inReset && a.blockPresent b && !wbit (a.info b) 12 && !a.bit 0x0018 (wfld (a.info b) 11 8) && pdom.toNat.testBit (wfld (a.info b) 11 8)
  let any := (List.range 16).any rises
  let a1 := a.mapBlocks fun b t =>
    if rises b.val then
      match t.last with
      | some l => { t with tapVal := [], bases := (List.range 256).foldl (fun m i =>
          if a.isGauge (256 * b.val + i) then m else sset 0 m i (l.getD i 0)) t.bases }
      | none => { t with tapVal := [] }
    else t
  let a1 := a1.setFld 0x0018 15 0 pdom.toNat
  if any then a1.flag (snapFlag 4) else a1

end Sys2Proof.Machine
end

