-- ==== Sys2Proof/Machine/RegAccess.lean ====
section
/-!
DEFINITION. RegAccess.lean: the aggregator's accesses of ATU registers over the die ports: R543 and R555 to R561 of
spec/14_mailboxes.md, R84, R216, R243, R269 and R719.
-/
namespace Sys2Proof.Machine

/-! ### Sequences of accesses (R295, R543, R558) -/

/-- Ring number that the firmware's own accesses carry: no mailbox ring has it. -/
def fwRing : Nat := 100

/-- A register request (R295). -/
def regRequest (tag : Nat) (o : RegOp) : List Byte :=
  leBytes 2 tag ++ leBytes 1 (b2n o.wr) ++ zeros 1 ++ leBytes 2 o.off ++ zeros 2 ++ leBytes 4 (if o.wr then o.dat else 0)

def rd (off : Nat) : RegOp := { wr := false, off := off }
def wrOp (off v : Nat) : RegOp := { wr := true, off := off, dat := v }

/-- Requests outstanding on a port. -/
def Agg.portBusy (g : Agg) (p : Nat) : Nat := (g.acc.jobs.filter fun j => decide (j.port = p) && j.now.isSome).length

/-- A sequence goes on with further accesses once those so far have been answered. -/
def RegUse.goesOn (u : RegUse) : Bool :=
  match u with
  | .traceCtl c => c
  | .evrRead _ _ _ len => decide (len = 0)
  | .teardown _ _ _ reads => reads
  | .sandPlan _ ws _ => ws.isSome
  | _ => false

/-- The sequence moves the read position of the port's event recorder, which all readings of the aggregator share (R283). -/
def RegUse.readsRecorder (u : RegUse) : Bool := match u with | .evrRead _ _ _ _ => true | _ => false

/-- A sequence waits for an earlier one on its port: one of the same ring that has accesses to send or may get more (R543), or another
reading of the event recorder (R561). -/
def RegJob.blocked (j : RegJob) (js : List RegJob) : Bool :=
  js.any fun i => decide (i.ident < j.ident ∧ i.port = j.port) &&
    ((decide (i.ring = j.ring) && (!i.todo.isEmpty || i.use.goesOn)) || (i.use.readsRecorder && j.use.readsRecorder))

/-- Send the next access of a job when nothing holds it back. -/
def Agg.kickJob (g : Agg) (j : RegJob) : Agg :=
  match g.acc.jobs.find? (·.ident = j.ident) with
  | none => g
  | some j =>
    match j.todo with
    | [] => g
    | o :: rest =>
      if j.now.isSome || j.blocked g.acc.jobs || decide (16 ≤ g.portBusy j.port) then g
      else
        let tag := g.acc.nextTag
        let j' := { j with todo := rest, now := some (o, tag), leftAt := none }
        let g := { g with acc := { g.acc with jobs := g.acc.jobs.map fun (i : RegJob) => if i.ident = j.ident then j' else i,
                                              nextTag := (tag + 1) % 65536 } }
        g.modPort j.port fun p => { p with link := p.link.enqueue 3 (regRequest tag o) }

/-- Send what every job of a port may send. -/
def Agg.kick (g : Agg) (p : Nat) : Agg := (g.acc.jobs.filter (·.port = p)).foldl Agg.kickJob g

/-- Begin a sequence of accesses. -/
def Agg.startReg (g : Agg) (ring tag opcode p : Nat) (use : RegUse) (ops : List RegOp) : Agg :=
  let j : RegJob := { ident := g.acc.nextId, port := p, ring := ring, tag := tag, opcode := opcode, use := use, todo := ops }
  let g := { g with acc := { g.acc with jobs := g.acc.jobs ++ [j], nextId := g.acc.nextId + 1 } }
  g.kick p

/-- The instant at which a request's first bit leaves (R558). -/
def Agg.stampReg (g : Agg) (p tag : Nat) : Agg :=
  { g with acc := { g.acc with jobs := g.acc.jobs.map fun j =>
      match j.now with
      | some (_, t) => if j.port = p ∧ t = tag ∧ j.leftAt.isNone then { j with leftAt := some g.now } else j
      | none => j } }

/-- Take a job out. -/
def Agg.dropJob (g : Agg) (j : RegJob) : Agg := { g with acc := { g.acc with jobs := g.acc.jobs.filter (·.ident ≠ j.ident) } }
def Agg.putJob (g : Agg) (j : RegJob) : Agg :=
  { g with acc := { g.acc with jobs := g.acc.jobs.map fun (i : RegJob) => if i.ident = j.ident then j else i } }

/-- The reads with which every function of ATU_SANDING_PLAN ends (R243): the masks, then the state of each core. -/
def sandReads : List RegOp := rd 0x5A18 :: (List.range 16).map fun n => rd (0x5A80 + 16 * n)

/-- Ways a sequence goes on after its accesses so far. -/
inductive RegNext where
  | more (j : RegJob)
  | stop (st : Status)
  deriving DecidableEq, Repr

def RegJob.word (j : RegJob) (k : Nat) : Nat := ((j.got[k]?).getD 0).toNat

/-- What comes after the accesses of a sequence have all been answered: more of them, or the end. -/
def RegJob.after (j : RegJob) (hbm : Bool) : RegNext :=
  match j.use with
  | .traceCtl true =>
    if !hbm && decide (bitField (j.word 0) 1 0 ≠ 0) then .stop .notPresent
    else .more { j with use := .traceCtl false, got := [], todo := [wrOp 0x3004 1, rd 0x3008] }
  | .evrRead dst mx pos 0 =>
    let wr := j.word 0 + 2 ^ 32 * j.word 1
    if pos + 65536 < wr then .stop .staleEpoch
    else
      let n := min mx (wr - pos) / 4
      if n = 0 then .stop .ok
      else .more { j with use := .evrRead dst mx pos (4 * n), got := [],
                          todo := wrOp 0x6018 (pos % 65536) :: List.replicate n (rd 0x601C) ++ [rd 0x6010, rd 0x6014] }
  | .teardown ctx mask act true =>
    let cs := (List.range 8).filter fun c => mask.testBit c
    .more { j with use := .teardown ctx mask act false, got := [],
                   todo := (cs.zipIdx.map fun p => wrOp (0x0500 + 0x20 * p.1) (j.word p.2 / 2 * 2)) ++
                     [wrOp 0x0600 act, wrOp 0x0604 (act / 2 ^ 32), wrOp 0x0608 mask] }
  | .sandPlan mask (some ws) bad =>
    if !ws.isEmpty && !(j.word 0).testBit 10 then .stop .privilege
    else if 2 ^ bitField (j.word 1) 20 16 ≤ mask then .stop .notPresent
    else if bad then .stop .badParam
    else .more { j with use := .sandPlan 0 none false, got := [], todo := ws.map (fun w => wrOp w.1 w.2) ++ sandReads }
  | _ => .stop .ok

/-- An answer to the outstanding access of a job (R556): its sequence goes on, or ends with a status. The refused access stays with it. -/
def Agg.jobAnswer (g : Agg) (j : RegJob) (st : Status) (dat : Word) : Agg × Option (RegJob × Status) :=
  let wasRead := match j.now with | some (o, _) => !o.wr | none => false
  if st ≠ .ok then (g.dropJob j, some (j, st))
  else
    let j := { j with now := none, leftAt := none }
    let j := { j with got := if wasRead then j.got ++ [dat] else j.got }
    if !j.todo.isEmpty then (g.putJob j, none)
    else match j.after g.hasHbm with
      | .more j' => (g.putJob j', none)
      | .stop s => (g.dropJob j, some (j, s))

/-- A register response message (R295). A TAG that no access waits for is ignored. -/
def Agg.regAnswer (g : Agg) (p : Nat) (m : List Byte) : Agg × Option (RegJob × Status) :=
  let tag := leAt m 0 2
  match g.acc.jobs.find? fun j => decide (j.port = p) && (match j.now with | some (_, t) => decide (t = tag) | none => false) with
  | none => (g, none)
  | some j =>
    let (g, x) := g.jobAnswer j (statusOfCode (leAt m 2 1)) (BitVec.ofNat 32 (leAt m 8 4))
    (g.kick p, x)

/-- The access with a TAG has had no response for 100 microseconds since its departure (R558). -/
def Agg.regTimeout (g : Agg) (p tag : Nat) : Agg × Option (RegJob × Status) :=
  match g.acc.jobs.find? fun j => decide (j.port = p) && (match j.now, j.leftAt with
      | some (_, t), some l => decide (t = tag) && decide (l + 100000 ≤ g.now)
      | _, _ => false) with
  | none => (g, none)
  | some j => ((g.dropJob j).kick p, some ({ j with now := none }, .timeout))

/-- Every access on a port that leaves UP (R306). -/
def Agg.regDown (g : Agg) (p : Nat) : Agg × List (RegJob × Status) :=
  let js := g.acc.jobs.filter (·.port = p)
  ({ g with acc := { g.acc with jobs := g.acc.jobs.filter (·.port ≠ p) } }, js.map fun j => (j, .aborted))

/-! ### Checks on ports (R84, R557, R558) -/



/-- The port connects a die of the context (R557). -/
def Agg.portOfJob (g : Agg) (ctx p : Nat) : Bool := (g.job ctx).dies.any fun d => decide (d.port = p)

/-- Checks of a command that reaches an ATU from a ring (R557, R558, R718). -/
def Agg.portCodes (g : Agg) (c : Caller) (p : Nat) : List Status :=
  failIf (decide (c.ring.val ≠ 0) && !g.portOfJob c.ring.val p) .privilege ++ failIf (!g.portUp p) .notPresent ++ g.notReady

/-- ATU_CAPS of the die on a port, as learned in training, lacks a unit (R6, R304): bits 4 trace unit, 5 log matcher, 7 event recorder. -/
def Agg.dieLacks (g : Agg) (p bit : Nat) : Bool := g.portUp p && !wbit (g.port p).caps bit

/-! ### The commands -/

/-- ATU_WRITE (R555 to R558). -/
def Agg.atuWrite (g : Agg) (c : Caller) (p off v : Nat) : Agg :=
  g.command c 0x20 (g.portCodes c p ++ failIf (decide (c.ring.val ≠ 0 ∧ off ≤ 0x50)) .privilege) none
    fun g => g.startReg c.ring.val c.tag.toNat 0x20 p .write [wrOp off v]

/-- ATU_READ (R555 to R558). -/
def Agg.atuRead (g : Agg) (c : Caller) (p off count : Nat) : Agg :=
  g.command c 0x21 (g.portCodes c p ++ failIf (decide (count = 0 ∨ 16 < count ∨ 0xFFFF < off + 4 * (count - 1))) .badParam) none
    fun g => g.startReg c.ring.val c.tag.toNat 0x21 p .read ((List.range count).map fun k => rd (off + 4 * k))

/-- GET_TIME_STATUS (R84): of the aggregator, or of the ATU on a die port. -/
def Agg.getTimeStatus (g : Agg) (c : Caller) (target : Nat) : Agg :=
  if target = 0xFF then g.command c 0x06 [] none fun g => g.done c 0x06 g.timeResults
  else g.command c 0x06 (failIf (decide (63 < target)) .badParam ++ failIf (!g.portUp target) .notPresent ++ g.notReady) none
    fun g => g.startReg c.ring.val c.tag.toNat 0x06 target .timeStatus
      [rd 0x0100, rd 0x0104, rd 0x0108, rd 0x010C, rd 0x0114, rd 0x0118, rd 0x0120, rd 0x0124, rd 0x0128, rd 0x012C, rd 0x0130, rd 0x0138, rd 0x013C]

/-- ATU_TRACE_CTL START (R216). -/
def Agg.traceCtlStart (g : Agg) (c : Caller) (p : Nat) : Agg :=
  g.command c 0x23 (g.portCodes c p ++ failIf (g.dieLacks p 4) .notPresent) none fun g => g.startReg c.ring.val c.tag.toNat 0x23 p (.traceCtl true) [rd 0x3000]
/-- ATU_TRACE_CTL STOP (R216): trace stops without delay. -/
def Agg.traceCtlStop (g : Agg) (c : Caller) (p : Nat) : Agg :=
  g.command c 0x23 (g.portCodes c p ++ failIf (g.dieLacks p 4) .notPresent) none fun g => g.startReg c.ring.val c.tag.toNat 0x23 p (.traceCtl false) [wrOp 0x3004 2, rd 0x3008]
/-- ATU_TRACE_CTL AUTHORISE (R216). -/
def Agg.traceCtlAuth (g : Agg) (c : Caller) (p token expiry : Nat) : Agg :=
  g.command c 0x23 (ring0Only c ++ g.portCodes c p ++ failIf (g.dieLacks p 4) .notPresent ++
      failIf (decide (expiry ≤ g.time.window)) .staleEpoch) none
    fun g => g.startReg c.ring.val c.tag.toNat 0x23 p (.traceCtl false)
      [wrOp 0x3030 (expiry % 2 ^ 32), wrOp 0x3034 (expiry / 2 ^ 32), wrOp 0x3028 (token % 2 ^ 32), wrOp 0x302C (token / 2 ^ 32), rd 0x3008]
/-- ATU_TRACE_CTL STATUS (R216). -/
def Agg.traceCtlStatus (g : Agg) (c : Caller) (p : Nat) : Agg :=
  g.command c 0x23 (g.portCodes c p ++ failIf (g.dieLacks p 4) .notPresent) none fun g => g.startReg c.ring.val c.tag.toNat 0x23 p (.traceCtl false) [rd 0x3008]

/-- ATU_SANDING_PLAN: the owner and the wired cores, so that the refusals come in the order of R21, then the writes, then the states (R243). A bad
parameter that stands beside a later code ends the command at once; alone it waits for the reads, whose codes come first. DEDUCED, safe
(notes/assumptions/110.md): a command that is refused in any case reads no ATU. -/
def Agg.sandPlan (g : Agg) (c : Caller) (p : Nat) (codes : List Status) (bad : Bool) (mask : Nat) (ws : List (Nat × Nat)) : Agg :=
  let known := g.portCodes c p ++ codes
  let alone := (g.admitCode c (g.ctxCodes c ++ known) none).isNone
  g.command c 0x24 (known ++ failIf (bad && !alone) .badParam) none
    fun g => g.startReg c.ring.val c.tag.toNat 0x24 p (.sandPlan mask (some ws) bad) [rd 0x000C, rd 0x5A00]
def Agg.sandSet (g : Agg) (c : Caller) (p mask interval soft hard : Nat) : Agg :=
  g.sandPlan c p [] (decide (hard ≤ soft ∨ interval = 0)) mask [(0x5A04, interval), (0x5A08, soft + 65536 * hard), (0x5A00, mask)]
def Agg.sandRunNow (g : Agg) (c : Caller) (p mask : Nat) : Agg := g.sandPlan c p [] false mask [(0x5A14, mask)]
def Agg.sandClear (g : Agg) (c : Caller) (p mask : Nat) : Agg := g.sandPlan c p (ring0Only c) false mask [(0x5A14, 65536 * mask)]
def Agg.sandStatus (g : Agg) (c : Caller) (p : Nat) : Agg := g.sandPlan c p [] false 0 []

/-- ATU_RESET (R269, R308). -/
def Agg.atuReset (g : Agg) (c : Caller) (p : Nat) (kind : Bool) : Agg :=
  g.command c 0x22 (ring0Only c ++ failIf (!kind && !g.portUp p) .notPresent ++ g.notReady) none fun g =>
    let g := { g with acc := { g.acc with resets := g.acc.resets ++ [({ ring := c.ring.val, tag := c.tag.toNat, port := p, since := g.now, left := !g.portUp p } : ResetWait)] } }
    if kind then (g.modPort p fun q => { q with oob := true }).flag (dportFlag p 13)
    else g.startReg c.ring.val c.tag.toNat 0x22 p .resetWrite [wrOp 0x0010 0xA5C3]

/-- ATU_RESET_TIMEOUT (R269): 10 ms have passed. -/
def Agg.resetTimeout (g : Agg) (p : Nat) : Agg :=
  let due (r : ResetWait) : Bool := decide (r.port = p) && decide (r.since + 10000000 ≤ g.now)
  let js := g.acc.resets.filter due
  let g := { g with acc := { g.acc with resets := g.acc.resets.filter fun (r : ResetWait) => !due r } }
  js.foldl (fun g r => g.complete (r.ring, r.tag) 0x22 .timeout []) g

/-- The port of a waiting reset leaves UP, or is back in UP: then ATU_RESET_CAUSE is read (R269). -/
def Agg.resetPortDown (g : Agg) (p : Nat) : Agg :=
  { g with acc := { g.acc with resets := g.acc.resets.map fun (r : ResetWait) => if r.port = p then { r with left := true, reads := false } else r } }
def Agg.resetPortUp (g : Agg) (p : Nat) : Agg :=
  if g.acc.resets.any fun (r : ResetWait) => decide (r.port = p) && r.left then
    ({ g with acc := { g.acc with resets := g.acc.resets.map fun (r : ResetWait) => if r.port = p ∧ r.left then { r with reads := true } else r } }).startReg
      fwRing 0 0x22 p .resetRead [rd 0x0014]
  else g

/-- The answer to that read: every reset that waited for it completes with OK, or the read is made again. -/
def Agg.resetAnswer (g : Agg) (p : Nat) (st : Status) : Agg :=
  if st = .ok then
    let js := g.acc.resets.filter fun (r : ResetWait) => decide (r.port = p) && r.reads
    let g := { g with acc := { g.acc with resets := g.acc.resets.filter fun (r : ResetWait) => !(decide (r.port = p) && r.reads) } }
    js.foldl (fun g r => g.complete (r.ring, r.tag) 0x22 .ok []) g
  else if g.portUp p then g.startReg fwRing 0 0x22 p .resetRead [rd 0x0014] else g

/-! ### What completes -/

/-- Results of GET_TIME_STATUS for a die (R84): its registers, the aggregator's depth, the bound of R54 and R83 with the growth of R64, which is
counted from the last good beat, 1.1 ms before the entry to HOLDOVER (R63). -/
def Agg.dieTimeResults (g : Agg) (j : RegJob) : List (Nat × Nat) :=
  let st := j.word 2 % 8
  let ht := j.word 0 + 2 ^ 32 * j.word 1
  let start := j.word 4 + 2 ^ 32 * j.word 5
  let hold := if st = 3 then ht - start else 0
  let bound := if st = 2 then (if g.boundNs = 0xFFFFFFFF then 0xFFFFFFFF else g.boundNs + 8)
    else if st = 3 then (if g.boundNs = 0xFFFFFFFF then g.boundBase + 8 else g.boundNs + 8) + ceilDiv ((hold + 1100000) * 1000) second else 0xFFFFFFFF
  let pend := schedFields g.time.sched g.time.pending
  [(3, st), (3, min 7 g.timeDepth), (64, ht), (32, twos 32 (signedOf 16 (j.word 3 % 65536))), (32, bound), (64, hold),
   (64, j.word 6 + 2 ^ 32 * j.word 7), (48, j.word 8 + 2 ^ 32 * (j.word 9 % 65536)), (20, j.word 10 % 2 ^ 20), (48, pend.2.2.2.1),
   (20, pend.2.2.2.2), (48, j.word 11 + 2 ^ 32 * (j.word 12 % 65536))]

/-- STATES of ATU_SANDING_PLAN: 4 bits for each core, MARGINAL on top (R243). -/
def RegJob.sandStates (j : RegJob) : Nat := ((List.range 16).map fun n => (j.word (1 + n) % 16) * 16 ^ n).sum

/-- Whole records at the front of a string of recorder bytes (R244), within a limit. -/
def wholeRecords : Nat → List Byte → Nat → Nat
  | 0, _, _ => 0
  | k + 1, bs, n =>
    let len := 8 * leAt bs 0 1
    if len = 0 ∨ bs.length < len ∨ n < len then 0 else len + wholeRecords k (bs.drop len) (n - len)

/-- EVENT_LOG_READ of an ATU whose accesses have all been answered (R561): the copy is discarded when the recorder may have overwritten it (R144). -/
def Agg.evrDone (g : Agg) (j : RegJob) (dst mx pos len : Nat) : Agg :=
  let w := (j.ring, j.tag)
  if len = 0 then g.complete w j.opcode .ok [(32, 0), (64, pos)]
  else
    let bs := (j.got.take (len / 4)).flatMap fun v => leBytes 4 v.toNat
    let wr := j.word (len / 4) + 2 ^ 32 * j.word (len / 4 + 1)
    if pos + 65536 - len - 256 < wr then g.complete w j.opcode .staleEpoch []
    else
      let n := wholeRecords 16384 bs mx
      (g.write dst (bs.take n)).complete w j.opcode .ok [(32, n), (64, pos + n)]

/-- The offset of the access with which a sequence ended: what an ATU that answers ACCESS has not mapped (R279, R535). -/
def RegJob.lastOff (j : RegJob) : Nat := match j.now with | some (o, _) => o.off | none => 0

/-- The end of an access sequence of a mailbox command: its status and results. With ACCESS the address is logged, and returned where no word has been
read (R535, R548, R556). -/
def Agg.regEnds (g : Agg) (j : RegJob) (st : Status) (res : List (Nat × Nat)) : Agg :=
  if st = .access then
    g.completeAt (j.ring, j.tag) j.opcode st (if j.use = .read ∧ !j.got.isEmpty then packFields res else leBytes 6 j.lastOff) j.lastOff
  else g.complete (j.ring, j.tag) j.opcode st res

/-- What a command makes of the end of its access sequence. -/
def Agg.regDone (g : Agg) (j : RegJob) (st : Status) : Agg :=
  let ok (res : List (Nat × Nat)) : List (Nat × Nat) := if st = .ok then res else []
  match j.use with
  | .write => g.regEnds j st []
  | .read => g.regEnds j st ((8, j.got.length) :: j.got.map fun v => (32, v.toNat))
  | .timeStatus => g.regEnds j st (ok (g.dieTimeResults j))
  | .traceCtl _ => g.regEnds j st (ok [(32, j.word 0), (32, (g.port j.port).chunks % 2 ^ 32), (32, (g.port j.port).gaps % 2 ^ 32)])
  | .sandPlan _ _ _ => g.regEnds j st (ok [(64, j.sandStates), (32, j.word 0)])
  | .evrRead dst mx pos len => if st = .ok then g.evrDone j dst mx pos len else g.regEnds j st []
  | .resetRead => g.resetAnswer j.port st
  | _ => g

end Sys2Proof.Machine
end

