-- ==== Sys2Proof/Machine/StencilCore.lean ====
section
/-!
DEFINITION. StencilCore.lean: feature tables, rank codes, ensemble images, their compilation to masked entries, and lookups: R450 to R452,
R459 to R476 of spec/12_stencil.md.
-/
namespace Sys2Proof.Machine

/-! ### Rank codes (R459, R460) -/

/-- The canonical quiet NaN (R405). -/
def qNan : Nat := 0x7FC00000

/-- A threshold list is in strictly ascending order, holds no NaN, and ends in +infinity (R459). -/
def thresholdsGood : List Nat → Bool
  | [] => false
  | [x] => decide (x = 0x7F800000)
  | x :: y :: t => (dec32 x).lt (dec32 y) && thresholdsGood (y :: t)

/-- The rank code of a value (R460). -/
def rankCode (v : Nat) (ts : List Nat) : Nat :=
  if (dec32 v).isNan then 0xFF else (ts.takeWhile fun t => !((dec32 v).le (dec32 t))).length

/-! ### Ensemble images (R462 to R464) -/

/-- A node of a tree. -/
inductive TNode where
  | leaf (value : Int)
  | test (left right feature thresh : Nat) (defaultRight : Bool)
  deriving DecidableEq, Repr

/-- A tree of an image. -/
structure TTree where
  depth : Nat
  nodes : List TNode
  deriving DecidableEq, Repr

/-- An ensemble image. -/
structure EnsImage where
  base  : Int
  lists : List (Nat × List Nat)
  trees : List TTree
  deriving DecidableEq, Repr

/-- A node record (R463), and whether a reserved field is not 0. -/
def readNode (b : List Byte) : TNode × Bool :=
  let fl := leAt b 6 1
  if fl.testBit 0 then
    (.leaf (signedOf 24 (leAt b 0 3)), decide (leAt b 3 3 ≠ 0 ∨ fl / 2 ≠ 0 ∨ leAt b 7 1 ≠ 0))
  else
    (.test (leAt b 0 2) (leAt b 2 2) (leAt b 4 1) (leAt b 5 1) (fl.testBit 1), decide (fl / 4 ≠ 0 ∨ leAt b 7 1 ≠ 0))

/-- Read `n` threshold lists from an offset. The flag says that a reserved field is not 0 or the image ends inside a list. -/
def readLists (img : List Byte) : Nat → Nat → List (Nat × List Nat) × Bool
  | 0, _ => ([], false)
  | n + 1, o =>
    let t := leAt img (o + 1) 1
    let vs := (List.range t).map fun i => leAt img (o + 4 + 4 * i) 4
    let (rest, bad) := readLists img n (o + 4 + 4 * t)
    ((leAt img o 1, vs) :: rest, bad || decide (t = 0 ∨ leAt img (o + 2) 2 ≠ 0 ∨ img.length < o + 4 + 4 * t))

/-- Read `n` trees from an offset. -/
def readTrees (img : List Byte) : Nat → Nat → List TTree × Bool
  | 0, _ => ([], false)
  | n + 1, o =>
    let k := leAt img o 2
    let d := leAt img (o + 2) 1
    let ns := (List.range k).map fun i => readNode (bytesAt img (o + 8 + 8 * i) 8)
    let (rest, bad) := readTrees img n (o + 8 + 8 * k)
    (⟨d, ns.map (·.1)⟩ :: rest,
     bad || ns.any (·.2) || decide (k = 0 ∨ 16383 < k ∨ d = 0 ∨ 8 < d ∨ leAt img (o + 3) 5 ≠ 0 ∨ img.length < o + 8 + 8 * k))

/-- Nodes reached from a node, in the order of the walk, with depths; fuel bounds the depth. -/
def reach (t : TTree) : Nat → Nat → Nat → List (Nat × Nat)
  | 0, k, d => [(k, d)]
  | n + 1, k, d =>
    match t.nodes.getD k (.leaf 0) with
    | .leaf _ => [(k, d)]
    | .test l r _ _ _ => (k, d) :: (reach t n l (d + 1) ++ reach t n r (d + 1))

/-- A child index lies outside the tree. -/
def childBad (t : TTree) : Bool :=
  t.nodes.any fun x => match x with | .leaf _ => false | .test l r _ _ _ => decide (t.nodes.length ≤ l ∨ t.nodes.length ≤ r)

/-- Whether a node occurs in two places of a walk. -/
def hasDup : List Nat → Bool
  | [] => false
  | x :: t => t.contains x || hasDup t

/-- Children of a node. -/
def TTree.kids (t : TTree) (k : Nat) : List Nat := match t.nodes.getD k (.leaf 0) with | .leaf _ => [] | .test l r _ _ _ => [l, r]

/-- Nodes met from some nodes on, one level at a time. -/
def countFrom (t : TTree) : Nat → List Nat → Nat
  | 0, _ => 0
  | n + 1, level => if level.isEmpty then 0 else level.length + countFrom t n (level.flatMap t.kids)

/-- No walk from these nodes is longer than the fuel. -/
def endsWithin (t : TTree) : Nat → List Nat → Bool
  | 0, level => level.isEmpty
  | n + 1, level => level.isEmpty || endsWithin t n (level.flatMap t.kids)

/-- The shape checks of a tree (R464): children inside, no node reachable by two paths or from itself, no leaf deeper than 32. Where no node has two
parents and the root has none, the nodes that lie on no cycle are those that the parentless ones lead to. -/
def treeShapeGood (t : TTree) : Bool :=
  let kids := (List.range t.nodes.length).flatMap t.kids
  !childBad t && !kids.contains 0 && !hasDup kids &&
    decide (countFrom t t.nodes.length ((List.range t.nodes.length).filter fun k => !kids.contains k) = t.nodes.length) && endsWithin t 33 [0]

/-! ### Compilation (R465 to R469) -/

/-- The code set of one feature along a path: an interval, and whether 0xFF goes the same way (R467). -/
structure CodeSet where
  lo   : Nat
  hi   : Nat
  miss : Bool
  deriving DecidableEq, Repr

/-- A rule: its code sets by feature, and its result. -/
structure TRule where
  sets   : SMap CodeSet
  result : Nat
  deriving DecidableEq, Repr

def EnsImage.listOf (g : EnsImage) (f : Nat) : List Nat := match g.lists.find? (·.1 = f) with | some l => l.2 | none => []

/-- Narrow a code set by one test (R463, R467). An empty interval is one with lo above hi. -/
def narrow (s : CodeSet) (i : Nat) (right defRight : Bool) : CodeSet :=
  if right then { lo := max s.lo (i + 1), hi := s.hi, miss := s.miss && defRight }
  else { lo := s.lo, hi := min s.hi i, miss := s.miss && !defRight }

/-- Put a code set into a path. -/
def setCode (m : SMap CodeSet) (f : Nat) (s : CodeSet) : SMap CodeSet :=
  match m with
  | [] => [(f, s)]
  | (k, v) :: t => if f < k then (f, s) :: (k, v) :: t else if f = k then (f, s) :: t else (k, v) :: setCode t f s

/-- The rules of a block, depth first, LEFT before RIGHT (R465, R469). -/
def rulesFrom (g : EnsImage) (t : TTree) : Nat → Nat → Nat → Bool → SMap CodeSet → List TRule
  | 0, _, _, _, _ => []
  | n + 1, k, d, atEntry, path =>
    match t.nodes.getD k (.leaf 0) with
    | .leaf v => [⟨path, 2 ^ 24 + twos 24 v⟩]
    | .test l r f i dr =>
      if !atEntry && decide (d % t.depth = 0) then [⟨path, k⟩]
      else
        let s := match path.find? (·.1 = f) with
          | some x => x.2
          | none => ⟨0, (g.listOf f).length - 1, true⟩
        rulesFrom g t n l (d + 1) false (setCode path f (narrow s i false dr)) ++
        rulesFrom g t n r (d + 1) false (setCode path f (narrow s i true dr))

/-- The largest power of two that divides lo and keeps the prefix at or below hi. -/
def coverStep (lo hi : Nat) : Nat → Nat
  | 0 => 1
  | n + 1 => if lo % 2 ^ (n + 1) = 0 ∧ lo + 2 ^ (n + 1) - 1 ≤ hi then 2 ^ (n + 1) else coverStep lo hi n

/-- cover(lo, hi) of R468. -/
def cover : Nat → Nat → Nat → List (Nat × Nat)
  | 0, _, _ => []
  | n + 1, lo, hi =>
    if hi < lo then []
    else
      let p := coverStep lo hi 8
      (lo, 0xFF - (p - 1)) :: cover n (lo + p) hi

/-- The shortest candidate of R468 for a code set of a feature with T thresholds. -/
def bestCover (s : CodeSet) (t : Nat) : List (Nat × Nat) :=
  let m := if s.miss then [(0xFF, 0xFF)] else []
  let c1 := cover 256 s.lo s.hi ++ m
  let top := decide (s.hi + 1 = t ∧ s.lo ≤ s.hi)
  let pick (a b : List (Nat × Nat)) : List (Nat × Nat) := if b.length < a.length then b else a
  let c2 := if top then pick c1 (cover 256 s.lo 0xFE ++ m) else c1
  if top && s.miss then pick c2 (cover 256 s.lo 0xFF) else c2

/-- One TCAM entry: value and mask of 320 bits, and its result (R466, R469). -/
structure Entry where
  value  : Nat
  mask   : Nat
  result : Nat
  deriving DecidableEq, Repr

/-- Key bits [47:0] (R466). -/
def keyBase (tree slot gen ctx node : Nat) : Nat := tree + slot * 2 ^ 12 + gen * 2 ^ 14 + ctx * 2 ^ 16 + node * 2 ^ 24

/-- The product of the covers of a rule's slots; the lowest slot is outermost (R469). `fs` are the block's features from slot `j` on. -/
def ruleEntries (g : EnsImage) (r : TRule) : List Nat → Nat → Nat → Nat → List Entry
  | [], _, v, m => [⟨v, m, r.result⟩]
  | f :: fs, j, v, m =>
    match r.sets.find? (·.1 = f) with
    | none => ruleEntries g r fs (j + 1) v m
    | some s =>
      (bestCover s.2 (g.listOf f).length).flatMap fun p =>
        ruleEntries g r fs (j + 1) (v + p.1 * 2 ^ (48 + 8 * j)) (m + p.2 * 2 ^ (48 + 8 * j))

/-- Insert a feature into an ascending list. -/
def insertAsc (x : Nat) : List Nat → List Nat
  | [] => [x]
  | y :: t => if x < y then x :: y :: t else if x = y then y :: t else y :: insertAsc x t

/-- The features that a block tests, ascending (R466). -/
def blockFeatures (rs : List TRule) : List Nat := (rs.flatMap fun r => r.sets.map (·.1)).foldl (fun a f => insertAsc f a) []

/-- A compiled block: its entry node, features and entries. -/
structure Block where
  node     : Nat
  features : List Nat
  entries  : List Entry
  deriving DecidableEq, Repr

/-- The block entries of a tree with their depths: the root and every internal node at a non-zero multiple of BLOCK_DEPTH (R465). -/
def blockNodes (t : TTree) : List (Nat × Nat) :=
  (reach t 32 0 0).filter fun x =>
    decide (x.1 = 0 ∧ x.2 = 0) ||
    (match t.nodes.getD x.1 (.leaf 0) with | .leaf _ => false | .test _ _ _ _ _ => decide (x.2 ≠ 0 ∧ x.2 % t.depth = 0))

/-- A block with its entries, each of which compares bits [47:0] in full; `place` gives those bits for an entry node (R466). -/
def compileBlock (g : EnsImage) (place : Nat → Nat) (t : TTree) (k d : Nat) : Block :=
  let rs := rulesFrom g t 34 k d true []
  let fs := blockFeatures rs
  ⟨k, fs, rs.flatMap fun r => ruleEntries g r fs 0 (place k) (2 ^ 48 - 1)⟩

/-- A compiled tree: its blocks and its lookup load, the greatest number of blocks on a path (R476). -/
structure CTree where
  blocks : List Block
  load   : Nat
  deriving DecidableEq, Repr

def CTree.size (t : CTree) : Nat := (t.blocks.map fun b => b.entries.length).sum

/-- The deepest leaf of a tree decides how many blocks a path meets. -/
def lookupLoad (t : TTree) : Nat :=
  ((reach t 32 0 0).filter fun x => match t.nodes.getD x.1 (.leaf 0) with | .leaf _ => false | .test _ _ _ _ _ => true).foldl
    (fun a x => max a (x.2 / t.depth + 1)) 1

def compileTree (g : EnsImage) (place : Nat → Nat) (t : TTree) : CTree :=
  ⟨(blockNodes t).map fun x => compileBlock g place t x.1 x.2, lookupLoad t⟩

/-- Every tree of an image, compiled for a slot, a generation and a context (R465 to R469). -/
def EnsImage.compile (g : EnsImage) (slot gen ctx : Nat) : List CTree :=
  g.trees.zipIdx.map fun t => compileTree g (keyBase t.2 slot gen ctx) t.1

/-- Read and check an image (R462 to R464). INTEGRITY comes first. -/
def readEnsemble (img : List Byte) : Except Status EnsImage :=
  let len := leAt img 20 4
  if img.length < 64 ∨ leAt img 0 1 ≠ 0xD4 ∨ leAt img 1 1 ≠ 1 ∨ len ≠ img.length ∨ len < 64 ∨
     leAt img 60 4 ≠ crcOf crc32c (img.take 60 ++ (img.drop 64).take (len - 64)) then .error .integrity
  else
    let nt := leAt img 2 2
    let nl := leAt img 4 2
    let (lists, bl) := readLists img nl (leAt img 12 4)
    let (trees, bt) := readTrees img nt (leAt img 16 4)
    let g : EnsImage := ⟨signedOf 24 (leAt img 8 3), lists, trees⟩
    let nodeBad (x : TNode) : Bool := match x with
      | .leaf _ => false
      | .test _ _ f i _ => decide ((g.listOf f).length ≤ i)
    if nt = 0 ∨ 4096 < nt ∨ nl = 0 ∨ 256 < nl ∨ leAt img 6 2 ≠ 0 ∨ leAt img 11 1 ≠ 0 ∨ leAt img 16 4 % 8 ≠ 0 then .error .badParam
    else if (bytesAt img 24 36).any (· ≠ 0) || bl || bt || hasDup (lists.map (·.1)) || lists.any (fun l => !thresholdsGood l.2) then .error .badParam
    else if trees.any (fun t => t.nodes.any nodeBad || !treeShapeGood t) then .error .badParam
    else if (g.compile 0 0 0).any (fun t => t.size > 16384 || t.blocks.any (fun b => 34 < b.features.length)) then .error .badParam
    else .ok g

/-! ### Lookups (R470, R472) -/

/-- The key of a block for a sample's rank codes (R466). -/
def lookupKey (place : Nat → Nat) (b : Block) (codes : List Nat) : Nat :=
  place b.node + ((List.range b.features.length).map fun j => codes.getD (b.features.getD j 0) 0xFF * 2 ^ (48 + 8 * j)).sum

/-- The entries of a block that a key matches. -/
def entryMatches (b : Block) (key : Nat) : List Entry := b.entries.filter fun e => decide ((key &&& e.mask) = (e.value &&& e.mask))

/-- Features that an ensemble tests. -/
def EnsImage.tested (g : EnsImage) : List Nat :=
  (g.trees.flatMap fun t => t.nodes.filterMap fun x => match x with | .leaf _ => none | .test _ _ f _ _ => some f).foldl (fun a f => insertAsc f a) []

/-! ### Features (R450 to R453) -/

/-- A feature-table entry. -/
structure Feature where
  op    : Nat
  chan  : Nat
  tapA  : Nat
  tapB  : Nat
  arg   : Nat
  scale : Int
  deriving DecidableEq, Repr

def readFeature (b : List Byte) : Feature :=
  ⟨leAt b 0 1, leAt b 1 1, leAt b 2 2, leAt b 4 2, leAt b 6 1, signedOf 8 (leAt b 7 1)⟩

/-- An entry that JOB_LOAD_MODEL refuses (R450, R451). -/
def featureBad (b : List Byte) : Bool :=
  let f := readFeature b
  decide (8 < f.op ∨ 7 < f.chan ∨ f.scale < -64 ∨ 63 < f.scale) || (bytesAt b 8 8).any (· ≠ 0) ||
  (decide (f.op = 5) && decide (55 < f.arg)) || (decide (f.op = 8) && decide (7 < f.arg)) || (decide (f.op = 6) && decide (15 < f.arg))

def readFeatures (bs : List Byte) : List Feature := (List.range 256).map fun k => readFeature (bytesAt bs (16 * k) 16)

/-- num / den * 2^scale rounded once to binary32 (R451); 0/0 is missing and n/0 is +infinity (R452). -/
def ratio32 (num den : Nat) (scale : Int) : Nat :=
  if den = 0 then (if num = 0 then qNan else 0x7F800000)
  else enc32 ((FVal.fin false num 0).divTo fmt32 (.fin false den 0) scale)

end Sys2Proof.Machine
end

