-- ==== Sys2Proof/Machine/Ingest.lean ====
section
/-!
DEFINITION. Ingest.lean: the history store, the frames that arrive on die ports, and the feature build: R24, R25, R136 to R138 of
spec/04_frames.md, R205, R350, R405 of spec/11_stations.md, R450 to R456 of spec/12_stencil.md and R628 to R634 of spec/16_windows.md.
-/
namespace Sys2Proof.Machine

def Agg.score (g : Agg) (n : Nat) : JobScore := if h : n - 1 < 16 then g.scores[n - 1] else {}
/-- Change the scoring state of job context n, 1 to 16. -/
def Agg.modScore (g : Agg) (n : Nat) (f : JobScore → JobScore) : Agg :=
  if n = 0 then g else if h : n - 1 < 16 then { g with scores := g.scores.set (n - 1) (f g.scores[n - 1]) } else g

/-- Job contexts in use. -/
def jobNumbers : List Nat := (List.range 16).map (· + 1)

/-! ### Windows in Hall Time (R24, R69, R72) -/

/-- HT of a stroke. -/
def Agg.strokeHt (g : Agg) (n : Nat) : Nat :=
  match g.time.sched with
  | some s => schedHtFrom g.time.prev s g.time.pending n
  | none => 0

/-- The window now open. -/
def Agg.openWindow (g : Agg) : Nat := g.time.window

/-- Stroke period of a window, microseconds. -/
def Agg.periodAt (g : Agg) (w : Nat) : Nat := (g.strokeHt (w + 1) - g.strokeHt w) / 1000

/-! ### The active model of a job -/

def Job.model (j : Job) : Model := j.active.getD {}

/-- The model of a window with its first window: the active one, or the one that held before it (R585). -/
def eraAt (w : Nat) (now : Nat × Model) : List (Nat × Nat × Model) → Nat × Model
  | [] => now
  | (a, b, m) :: l => if w < b then eraAt w (a, m) l else now

def Job.eraOf (j : Job) (w : Nat) : Nat × Model := eraAt w (j.since, j.model) j.former
def Job.modelAt (j : Job) (w : Nat) : Model := (j.eraOf w).2
/-- FEATURE_BASE, SCORE_BASE and ENS_BASE (R576). -/
def Model.base (m : Model) (k : Nat) : Nat := leAt m.bases (8 * k) 8
def Agg.levelOf (g : Agg) (n w : Nat) : Level := readLevel ((g.job n).modelAt w).level
/-- Where the feature ring of a position begins in a window. -/
def Agg.rowsBase (g : Agg) (n w t : Nat) : Nat := ((g.job n).modelAt w).base 0 + 65536 * t
/-- The job scores windows (R568). -/
def Job.scores (j : Job) : Bool := decide (j.state = .active ∨ j.state = .draining) && j.active.isSome

/-- The die of a position. -/
def Job.dieAt (j : Job) (t : Nat) : Option JobDie := j.dies.find? fun d => decide (d.pos = some t)

/-! ### The history store (R628 to R634) -/

/-- U of R628. -/
def Job.unit (j : Job) : Nat := j.hbm.len / 64
/-- Windows that the verdict region holds (R630, R634). -/
def Job.recordWindows (j : Job) : Nat := if j.hbm.len = 0 then 64 else 8 * j.unit / max 1 j.recordBytes
/-- Start of the verdict region. -/
def Job.recordBase (j : Job) : Nat := if j.hbm.len = 0 then j.hawk.base + j.hawk.len - 64 * j.recordBytes else j.hbm.base + 8 * j.unit
/-- Address of the record of a position for a window. -/
def Job.recordAddr (j : Job) (w t : Nat) : Nat :=
  j.recordBase + j.recordBytes * ((w - j.firstAct) % max 1 j.recordWindows) + 40 * t

/-- The directory (R629). -/
def Agg.directory (g : Agg) (n : Nat) : List Byte :=
  let j := g.job n
  let s := g.score n
  let head := [0xB7, 1] ++ leBytes 1 n ++ zeros 1 ++ leBytes 4 j.tag ++ leBytes 4 j.epoch ++ leBytes 2 j.dies.length ++ zeros 2 ++
    leBytes 6 j.firstAct ++ zeros 2 ++ leBytes 8 j.unit
  let mid := leBytes 8 (s.vWritten.getD 0) ++ leBytes 8 (s.vFinal.getD 0) ++ leBytes 8 j.recordWindows ++ leBytes 8 s.frameWr ++ leBytes 8 s.indexWr
  let entry (t : Nat) : List Byte := leBytes 4 (((j.dieAt t).map (·.die)).getD 0) ++ zeros 4 ++ leBytes 8 (sget 0 s.traceWr t)
  padTo 252 (head ++ mid) ++ leBytes 4 (crcOf crc32c head) ++ (List.range j.dies.length).flatMap entry

/-- The directory follows the positions. -/
def Agg.refreshDir (g : Agg) (n : Nat) : Agg :=
  let j := g.job n
  if j.hbm.len = 0 then g else g.write j.hbm.base (g.directory n)

/-- Store a frame and its index entry (R631). -/
def Agg.storeFrame (g : Agg) (n t : Nat) (f : List Byte) (late resent : Bool) : Agg :=
  let j := g.job n
  let s := g.score n
  if j.hbm.len = 0 then g
  else
    let u := j.unit
    let m := ringWrite g.mem (j.hbm.base + 17 * u) (40 * u) s.frameWr f
    let entry := leBytes 6 (parseHdr f).window ++ leBytes 1 (parseHdr f).chan ++ leBytes 1 (t % 64 + 64 * b2n late + 128 * b2n resent) ++
      leBytes 8 s.frameWr
    let m := mwrite m (j.hbm.base + 16 * u + 16 * (s.indexWr % (u / 16))) entry
    (({ g with mem := m }).modScore n fun s => { s with frameWr := s.frameWr + f.length, indexWr := s.indexWr + 1 }).refreshDir n

/-- Store a trace chunk (R205, R632). -/
def Agg.storeChunk (g : Agg) (n t : Nat) (c : List Byte) : Agg :=
  let j := g.job n
  if j.hbm.len = 0 then g
  else
    let size := 7 * j.unit / 64
    let m := ringWrite g.mem (j.hbm.base + 57 * j.unit + t * size) size (sget 0 (g.score n).traceWr t) c
    ((({ g with mem := m }).modScore n fun s => { s with traceWr := sset 0 s.traceWr t (sget 0 s.traceWr t + c.length) }).refreshDir n).count n 23 1

/-! ### Frames on a die port (R136 to R138, R350) -/

/-- The job context that holds a channel of a port, and the die's position in it. -/
def Agg.channelJob (g : Agg) (p c : Nat) : Option (Nat × Nat) :=
  match g.jobs.claims.find? fun x => decide (x.port = p ∧ x.chan = c) with
  | none => none
  | some x =>
    match (g.job x.holder).dies.find? (·.port = p) with
    | some d => d.pos.map fun t => (x.holder, t)
    | none => none

def chanKey (p c : Nat) : Nat := 8 * p + c

def Agg.withIngest (g : Agg) (f : IngestUnit → IngestUnit) : Agg := { g with ingest := f g.ingest }

/-- Keep the newest 128 decoded frames of each channel. -/
def keepFrames (p c : Nat) (l : List InFrame) : List InFrame :=
  let mine := l.filter fun x => decide (x.port = p ∧ x.chan = c)
  (l.filter fun x => !decide (x.port = p ∧ x.chan = c)) ++ mine.drop (mine.length - 128)

/-- A frame of a channel for a window that has come by now. -/
def Agg.frameOf (g : Agg) (p c w : Nat) : Option InFrame := g.ingest.frames.find? fun x => decide (x.port = p ∧ x.chan = c ∧ x.window = w)

/-- What a frame says, decoded with the configuration of its channel. -/
def inFrame (p : Nat) (cfg : ChanCfg) (f : List Byte) (vs : List Nat) (late : Bool) : InFrame :=
  let h := parseHdr f
  { port := p, chan := h.chan, window := h.window, late := late, flags := h.flags, stretch := h.stretchNs,
    vals := (cfg.taps.zip vs).map fun q => (q.1.1, q.1.2, q.2) }

/-- A frame that no decoder lost: its values, and it becomes the reference. -/
def Agg.takeFrame (g : Agg) (p : Nat) (cfg : ChanCfg) (f : List Byte) (vs : List Nat) (late : Bool) : Agg :=
  g.withIngest fun u => { u with refs := sset [] u.refs (chanKey p (parseHdr f).chan) (rawOf (cfg.taps.map (·.2)) f vs),
                                 frames := keepFrames p (parseHdr f).chan (u.frames ++ [inFrame p cfg f vs late]) }

/-- A context that a sync from the keeper rebuilds and that has not joined yet (R692). -/
def Agg.rebuilt (g : Agg) (n : Nat) : Bool := decide (g.pair.source = 1) && (g.pair.missing ++ g.pair.joining).any fun x => decide (x.1 = n)

/-- The frames with one more, in the order of windows. -/
def insertFrame (x : InFrame) (l : List InFrame) : List InFrame :=
  let after (y : InFrame) : Bool := decide (y.port = x.port ∧ y.chan = x.chan ∧ x.window < y.window)
  keepFrames x.port x.chan (l.filter (fun y => !after y) ++ [x] ++ l.filter after)

/-- One malformed frame on a port (R137). -/
def Agg.frameBad (g : Agg) (p : Nat) : Agg := g.withIngest fun u => { u with integrity := sset 0 u.integrity p (sget 0 u.integrity p + 1) }

/-- A resent frame of a context that is being rebuilt: decoded against the resent frames before it, it helps to build the feature ring (R692).
It touches no reference of R138. -/
def Agg.backFrame (g : Agg) (p : Nat) (f : List Byte) : Agg :=
  let h := parseHdr f
  let key := chanKey p h.chan
  let reference := sget [] g.ingest.backRefs key
  match g.channelJob p h.chan, sget none g.ingest.cfgs key with
  | some (n, _), some x =>
    if !g.rebuilt n ∨ x.serial ≠ h.cfgSerial ∨ x.taps.length ≠ h.tapCount ∨ (h.codec = 1 && (reference.isEmpty || !refFits h (parseHdr reference))) then g
    else match decodeFrame (x.taps.map (·.2)) reference f with
      | .ok vs => g.withIngest fun u =>
        { u with backRefs := sset [] u.backRefs key (rawOf (x.taps.map (·.2)) f vs),
                 frames := if (g.frameOf p h.chan h.window).isSome then u.frames else insertFrame (inFrame p x f vs true) u.frames }
      | .error _ => g.frameBad p
  | _, _ => g

/-- A whole frame arrives on a die port (R136 to R138, R24, R25, R350). `cfg` is the configuration of its channel as the aggregator holds
it; none: as held so far. A delta frame without a valid reference is stored, and its channel is flushed; a malformed frame is dropped and counted. -/
def Agg.frameIn (g : Agg) (p : Nat) (resent : Bool) (f : List Byte) (cfg : Option ChanCfg) : Agg :=
  let parts := ((g.port p).link.partRx.filter fun x => decide (x.1 ≤ 1)).map (·.2.length)
  let h := parseHdr f
  let key := chanKey p h.chan
  if !g.fwRuns then g
  else if 131072 < f.length + parts.sum then (g.flag (tcFlag 5)).countChip 26 1
  else if !frameGood f then g
  else
    let g := match cfg with
      | some _ => g.withIngest fun u => { u with cfgs := sset none u.cfgs key cfg }
      | none => g
    let job := g.channelJob p h.chan
    let late := match job with | some (n, _) => decide (h.window < (g.score n).nextCut) | none => false
    let keep (g : Agg) : Agg := match job with
      | none => g
      | some (n, t) =>
        let g := g.count n 0 1
        (if late then g.count n 1 1 else g).storeFrame n t f (late || resent) resent
    let reference := sget [] g.ingest.refs key
    if resent then (keep g).backFrame p f
    else if h.codec = 1 && (reference.isEmpty || !refFits h (parseHdr reference)) then
      (keep g).startReg fwRing 0 0x20 p .quiet [wrOp 0x0700 (2 ^ h.chan)]
    else match sget none g.ingest.cfgs key with
      | none => keep g
      | some x =>
        if x.serial ≠ h.cfgSerial ∨ x.taps.length ≠ h.tapCount then keep g
        else match decodeFrame (x.taps.map (·.2)) reference f with
          | .ok vs => (keep g).takeFrame p x f vs late
          | .error _ => g.frameBad p

/-! ### Features (R450 to R456) -/

/-- The Entity Table entry in force for a window (R456 to R458): the last write to take effect by then. -/
def Agg.entityAt (g : Agg) (die w : Nat) : Option (List Byte) :=
  match (g.stencil.entities.filter fun e => decide (e.die = die ∧ e.act ≤ w)).getLast? with
  | some e => e.entry
  | none => none

/-- Static feature i of a die. -/
def staticOf (e : Option (List Byte)) (i : Nat) : Nat := match e with | some b => leAt b (32 + 4 * i) 4 | none => qNan

/-- Valid group keys of a die (R393, R455). -/
def groupsOf (e : Option (List Byte)) : List Nat :=
  match e with
  | none => []
  | some b => (List.range 4).filterMap fun k =>
    let v := leAt b (8 + 2 * k) 2
    if v.testBit 15 then some (4096 * k + v % 4096) else none

/-- The channel is due at the closing stroke of a window (R101). -/
def dueAt (x : ChanCfg) (w : Nat) : Bool := decide ((((w + 1 : Nat) : Int) - (x.phase : Int)) % (max 1 x.divisor : Nat) = 0)

/-- A tap of a kind in a frame. -/
def InFrame.tap (x : InFrame) (tap : Nat) (gauge : Bool) : Option Nat :=
  (x.vals.find? fun v => decide (v.1 = tap) && (v.2.1 == gauge)).map (·.2.2)

/-- One channel feature in a window at which its channel is due: its value, and whether its tap was absent (R451, R452). -/
def dueFeature (f : Feature) (cur prev : Option InFrame) (covered : Nat) : Nat × Bool :=
  match cur with
  | none => (qNan, false)
  | some x =>
    let delta (tap : Nat) : Option Nat := match x.tap tap false, prev.bind (·.tap tap false) with
      | some a, some b => some ((a + 2 ^ 48 - b) % 2 ^ 48)
      | _, _ => none
    let absent (tap : Nat) (gauge : Bool) : Bool := (x.tap tap gauge).isNone
    match f.op with
    | 1 => (match delta f.tapA with | some d => ratio32 d 1 f.scale | none => qNan, absent f.tapA false)
    | 2 => (match delta f.tapA with | some d => ratio32 d covered f.scale | none => qNan, absent f.tapA false)
    | 3 => (match x.tap f.tapA true with
      | some v =>
        let i := signedOf 32 v
        if v = 0x80000000 then qNan else enc32 (fmt32.roundVal (decide (i < 0)) i.natAbs f.scale false)
      | none => qNan, absent f.tapA true)
    | 4 => (match delta f.tapA, delta f.tapB with | some a, some b => ratio32 a b f.scale | _, _ => qNan, absent f.tapA false || absent f.tapB false)
    | 6 => (if x.flags.testBit f.arg then 0x3F800000 else 0, false)
    | 7 => (ratio32 x.stretch (1000 * covered) f.scale, false)
    | _ => (qNan, false)

/-- One feature of a die-window (R451 to R454): `held` is the value of the channel's last due stroke. -/
def Agg.feature (g : Agg) (p w : Nat) (ent : Option (List Byte)) (f : Feature) (held : Nat) : Nat × Bool :=
  if f.op = 0 ∨ f.op = 8 then (qNan, false)
  else if f.op = 5 then (staticOf ent f.arg, false)
  else match sget none g.ingest.cfgs (chanKey p f.chan) with
    | none => (qNan, false)
    | some x =>
      if dueAt x w then dueFeature f (g.frameOf p f.chan w) (if x.divisor ≤ w then g.frameOf p f.chan (w - x.divisor) else none) (x.divisor * g.periodAt w)
      else (held, false)

/-- A claimed channel of a die was due and no frame of it came by the cut-off (R24). -/
def Agg.frameMissing (g : Agg) (d : JobDie) (w : Nat) : Bool :=
  (List.range 8).any fun c => d.mask.testBit c && (g.frameOf d.port c w).isNone &&
    (match sget none g.ingest.cfgs (chanKey d.port c) with | some x => dueAt x w | none => true)

/-- FLAGS of the frames of a die for a window, with the first window that each covers (R102, R124). -/
def Agg.frameFlags (g : Agg) (d : JobDie) (w : Nat) : List (Nat × Nat) :=
  (List.range 8).filterMap fun c =>
    if !d.mask.testBit c then none
    else match g.frameOf d.port c w with
      | none => none
      | some x =>
        let before := (g.ingest.frames.filter fun y => decide (y.port = d.port ∧ y.chan = c ∧ y.window < w)).map (·.window)
        let div := ((sget none g.ingest.cfgs (chanKey d.port c)).map (·.divisor)).getD 1
        some (if before.isEmpty then w + 1 - div else before.foldl max 0 + 1, x.flags)

/-- Build one die-window: its row goes to the feature ring (R405), and its frames' flags to the windows that they cover. Values held from before the
window's model began are missing (R453). -/
def Agg.buildDie (n w : Nat) (g : Agg) (d : JobDie) : Agg :=
  match d.pos with
  | none => g
  | some t =>
    let (era, m) := (g.job n).eraOf w
    let ent := g.entityAt d.die w
    let kept := sget (0, []) (g.score n).held t
    let held := if kept.1 = era then kept.2 else []
    let fs := readFeatures m.feature
    let vs := (fs.zip (List.range 256)).map fun x => g.feature d.port w ent x.1 (held.getD x.2 qNan)
    let row := vs.map (·.1)
    let g := if vs.any (·.2) then g.flag (stencilFlag 3) else g
    let flags := g.frameFlags d w
    let x : DieWin := { window := w, pos := t, feats := row, loss := g.frameMissing d w, frames := flags.length }
    let covers (y : DieWin) (k : Nat) : Bool := decide (y.pos = t) && flags.any fun f => f.2.testBit k && decide (f.1 ≤ y.window ∧ y.window ≤ w)
    (g.write (m.base 0 + 65536 * t + 1024 * (w % 64)) (row.flatMap (leBytes 4))).modScore n fun s =>
      { s with held := sset (0, []) s.held t (era, row),
               dieWins := (s.dieWins ++ [x]).map fun y => { y with holdover := y.holdover || covers y 3, untested := y.untested || covers y 6 } }

/-- The running CRC-64 of a position's 64 feature rows, oldest first, as the ring holds them after window `w`. -/
def Agg.rowsCrc (g : Agg) (n w t : Nat) : Nat :=
  let base := g.rowsBase n w t
  (List.range 64).foldl (fun c i => crcRun crc64ecma c (g.read (base + 1024 * ((w + 1 + i) % 64)) 1024)) crc64ecma.init

/-- Keep them for a round's last window (R509). -/
def Agg.keepRows (g : Agg) (n w : Nat) : Agg :=
  match g.skim.cfg with
  | some c =>
    if (w + 1) % (max 1 c.windows) = 0 then
      let l := (List.range (g.job n).dies.length).map fun t => g.rowsCrc n w t
      g.modScore n fun s => { s with rowCrcs := (s.rowCrcs ++ [(w, l)]).drop (s.rowCrcs.length - 63) }
    else g
  | none => g

/-- The feature build of the die at one position. -/
def Agg.buildAt (n w : Nat) (g : Agg) (t : Nat) : Agg :=
  match (g.job n).dieAt t with
  | some d => Agg.buildDie n w g d
  | none => g

/-- INGEST_CUTOFF (R24, R454): the cut-off of the job's next window has passed, and its feature build runs. -/
def Agg.ingestCutoff (g : Agg) (n : Nat) : Agg :=
  let j := g.job n
  let w := (g.score n).nextCut
  let due := g.strokeHt (w + 1) + 1000 * (g.levelOf n w).cutoffUs
  if !g.fwRuns || !j.scores || g.time.sched.isNone || decide (g.ht < due) || decide (j.state = .draining ∧ j.lastWin < w) then g
  else
    let g := (List.range j.dies.length).foldl (Agg.buildAt n w) g
    let g := g.modScore n fun s => { s with nextCut := w + 1, wins := s.wins ++ [({ window := w, stage := .built } : WinState)] }
    g.keepRows n w

end Sys2Proof.Machine
end

