-- ==== Sys2Proof/Machine/Frames.lean ====
section
/-!
DEFINITION. Frames.lean: the spill ring, resends and the check scan of an ATU: R141 to R156 and R749 of spec/04_frames.md.
-/
namespace Sys2Proof.Machine

/-- Spill ring: base, size, index base and index entries (R141, R142). -/
def Atu.spillBase (a : Atu) : Nat := rget64 a.regs 0x0708
def Atu.spillSize (a : Atu) : Nat := 2 ^ a.path.sizeLog2
def Atu.idxBase (a : Atu) : Nat := rget64 a.regs 0x0710
def Atu.idxCount (a : Atu) : Nat := a.spillSize / 1024

/-- The 16-byte index entry of a frame at byte position p (R142). -/
def indexEntry (f : List Byte) (p : Nat) : List Byte :=
  let h := parseHdr f
  leBytes 6 h.window ++ leBytes 1 h.chan ++ leBytes 1 h.codec ++ leBytes 8 p

/-- A stored frame is still held whole (R144, R147). -/
def SpillEntry.held (e : SpillEntry) (wr size : Nat) : Bool := decide (wr + e.len + 32768 ≤ e.pos + size)

/-- Forget the frames that are overwritten, but for those of windows that frames still held also have: a resend must tell that they are gone (R148). -/
def keepStored (wr size : Nat) (l : List SpillEntry) : List SpillEntry :=
  match l.find? fun e => e.held wr size with
  | some o => l.filter fun e => e.held wr size || decide (o.win ≤ e.win)
  | none => []

/-- The oldest frame on its way and its index entry are visible in host DRAM; then both positions advance (R142, R143). -/
def Atu.spillDone (a : Atu) : Atu :=
  match a.path.spillQ with
  | [] => a
  | f :: rest =>
    if !a.spillOn || !a.bound.clkRun then a
    else
      let p := a.path.spillWr
      let m := ringWrite a.hostMem a.spillBase a.spillSize p f
      let m := mwrite m (a.idxBase + 16 * (a.path.spillIdx % a.idxCount)) (indexEntry f p)
      let h := parseHdr f
      let wr := p + f.length
      { a with hostMem := m, path := { a.path with spillQ := rest, spillWr := wr, spillIdx := a.path.spillIdx + 1,
                                                   stored := keepStored wr a.spillSize (a.path.stored ++ [⟨h.window, h.chan, p, f.length⟩]) } }

/-- Spill is enabled (R141, R749): positions start at 0, and the size written last is in force. -/
def Atu.spillEnable (a : Atu) : Atu :=
  { a with path := { a.path with spillWr := 0, spillIdx := 0, spillQ := [], stored := [], sizeLog2 := a.fld 0x0718 4 0 } }

/-- Spill is disabled: its DMA claim is free, and frames on their way are not stored (R749, R286). DESIGN CHOICE (notes/assumptions/121.md): the other
frames that waited set no SPILL_DROP of their own. -/
def Atu.spillDisable (a : Atu) : Atu :=
  let a := { a with path := { a.path with spillQ := [], resend := a.path.resend.map (fun (_ : Resend) => ⟨Status.aborted⟩) } }
  (a.setFld 0x0718 8 8 0).releaseDma 3

/-- A spill or index write gets a host memory error (R749). -/
def Atu.spillError (a : Atu) : Atu :=
  match a.path.spillQ with
  | [] => a
  | _ :: _ => if !a.spillOn || !a.bound.clkRun then a else ((a.spillDisable).flag (frameFlag 1)).flag (frameFlag 0)

/-! ### Resend (R146 to R148) -/

/-- The bytes of a stored frame. -/
def Atu.frameAt (a : Atu) (e : SpillEntry) : List Byte := ringRead a.hostMem a.spillBase a.spillSize e.pos e.len

/-- A frame that a resend may read: held whole, and its CRC-32C passes (R144, R147). -/
def Atu.frameReadable (a : Atu) (e : SpillEntry) : Bool := e.held a.path.spillWr a.spillSize && frameGood (a.frameAt e)

/-- The frames that the ring still holds, oldest first. -/
def Atu.heldFrames (a : Atu) : List SpillEntry := a.path.stored.filter a.frameReadable

/-- The window range of a resend. -/
def Atu.resendFirst (a : Atu) : Nat := rget64 a.regs 0x0760
def Atu.resendLast (a : Atu) : Nat := rget64 a.regs 0x0768

/-- A stored frame that a resend asks for. -/
def Atu.resendWants (a : Atu) (mask : Nat) (e : SpillEntry) : Bool :=
  mask.testBit e.chan && decide (a.resendFirst ≤ e.win) && decide (e.win ≤ a.resendLast)

/-- The outcome of a resend (R148). DESIGN CHOICE (notes/assumptions/121.md): ABORTED while spill is disabled, OK while the ring holds no frame,
STALE_EPOCH where FIRST_WIN is older than the oldest frame held although every matching frame is held, and STALE_EPOCH also where a matching frame is no
longer held although FIRST_WIN is no older. -/
def Atu.resendCode (a : Atu) (mask : Nat) : Status :=
  let older := match a.heldFrames with | e :: _ => decide (a.resendFirst < e.win) | [] => false
  if !a.spillOn then .aborted
  else if older || a.path.stored.any (fun e => a.resendWants mask e && !a.frameReadable e) then .staleEpoch else .ok

/-- A resend starts (R146): every matching frame still held goes out again, in order, as KIND 1. DESIGN CHOICE (notes/assumptions/121.md): a START while
the ring is disabled is accepted and sends nothing. -/
def Atu.resendStart (a : Atu) (mask : Nat) : Atu :=
  let pick := a.heldFrames.filter (a.resendWants mask)
  let code := a.resendCode mask
  let send (x : Atu) (e : SpillEntry) : Atu := if x.idInvalid then x else x.sendBoth 1 (x.frameAt e)
  let a1 := if a.spillOn then pick.foldl send a else a
  let n := if a.spillOn then min 0xFFFF pick.length else 0
  let a1 := (a1.setFld 0x0774 0 0 1).setFld 0x0774 31 16 n
  { a1 with path := { a1.path with resend := some ⟨code⟩ } }

/-- Whether a port still has resent frames to send. -/
def PortEnd.hasKind (p : PortEnd) (k : Nat) : Bool := p.waiting.any (·.1 = k) || p.current.any (·.kind = k)

/-- The resend has ended: its frames have left, or spill was disabled (R148). -/
def Atu.resendDone (a : Atu) : Atu :=
  match a.path.resend with
  | none => a
  | some r =>
    if !a.bound.clkRun || (decide (r.code ≠ .aborted) && (a.portA.hasKind 1 || a.portB.hasKind 1)) then a
    else
      let a := { a with path := { a.path with resend := none } }
      ((a.setFld 0x0774 0 0 0).setFld 0x0774 15 8 (statusCode r.code)).flag (frameFlag 2)

/-! ### Check scan (R154 to R156) -/

/-- The ranges a check scan may read (R155): spill ring, spill index, trace buffer, as base and size. DESIGN CHOICE (notes/assumptions/121.md): also
while spill or the trace buffer is disabled or was never configured. -/
def Atu.chkRanges (a : Atu) : List (Nat × Nat) :=
  [(a.spillBase, a.spillSize), (a.idxBase, a.spillSize / 64), (a.bufBase, a.bufSize)]

/-- The first address of a scan that lies outside the allowed range; none when the whole scan lies inside one (R155, R285). -/
def Atu.chkOutside (a : Atu) (addr len : Nat) : Option Nat :=
  if a.chkRanges.any fun r => decide (r.1 ≤ addr) && decide (addr + len ≤ r.1 + r.2) then none
  else some (a.chkRanges.foldl (fun x r => if r.1 ≤ addr ∧ addr < r.1 + r.2 then max x (r.1 + r.2) else x) addr)

def Atu.chkAddr (a : Atu) : Nat := rget64 a.regs 0x0784
def Atu.chkLen (a : Atu) : Nat := (a.reg 0x078C).toNat
def Atu.chkParams (a : Atu) : CrcParams := crcAlgo (a.fld 0x0780 1 0)

/-- Store the running value (ATU_CHK_VAL). -/
def Atu.setChkVal (a : Atu) (v : Nat) : Atu := { a with regs := rset64 a.regs 0x0794 v }

/-- A scan starts (R154): from the initial value, or from ATU_CHK_VAL, over the range that the registers name at START. -/
def Atu.chkStart (a : Atu) (cont : Bool) : Atu :=
  let a := { a with path := { a.path with chkBusy := true, chkAddr := a.chkAddr, chkLen := a.chkLen } }
  let a := if cont then a else a.setChkVal a.chkParams.init
  a.setFld 0x07A4 0 0 1

/-- A scan is over: its DMA channel is free and CHK_DONE is set. -/
def Atu.chkFinish (a : Atu) : Atu :=
  (({ a with path := { a.path with chkBusy := false } }.setFld 0x07A4 0 0 0).releaseDma 6).flag (frameFlag 3)

/-- The running value over the first n bytes of the range. -/
def Atu.chkRun (a : Atu) (n : Nat) : Nat :=
  crcRun a.chkParams (rget64 a.regs 0x0794 % 2 ^ a.chkParams.width) (mread a.hostMem a.path.chkAddr n)

/-- A scan ends (R154): running value and result. -/
def Atu.chkDone (a : Atu) : Atu :=
  if !a.path.chkBusy || !a.bound.clkRun then a
  else
    let v := a.chkRun a.path.chkLen
    let a := a.setChkVal v
    { a with regs := rset64 a.regs 0x079C (crcResult a.chkParams v) }.chkFinish

/-- A scan meets a host memory error after `n` good bytes (R156). -/
def Atu.chkError (a : Atu) (n : Nat) : Atu :=
  if !a.path.chkBusy || !a.bound.clkRun || decide (a.path.chkLen ≤ n) then a
  else ((a.setChkVal (a.chkRun n)).flag (frameFlag 4)).chkFinish

end Sys2Proof.Machine
end

