-- ==== Sys2Proof/Machine/DieHealth.lean ====
section
/-!
DEFINITION. DieHealth.lean: ageing sites, the end-of-life fit, recoat and sanding of an ATU: R217 to R243 and R750 of
spec/06_die_health.md.
-/
namespace Sys2Proof.Machine

/-! ### Ageing sites (R218 to R225) -/

/-- The ATU is in RUN (R273). -/
def Atu.inRun (a : Atu) : Bool := !a.bound.inReset && a.bound.mainPwrOk

/-- PWR_FAIL_N is asserted now. -/
def Atu.powerFailing (a : Atu) : Bool := a.bit 0x0018 16

def siteBase (k : Nat) : Nat := 0x5100 + 0x40 * (k % 32)
def Atu.siteFaulty (a : Atu) (k : Nat) : Bool := a.bit 0x500C k
def Atu.sitePdom (a : Atu) (k : Nat) : Nat := a.fld (siteBase k) 7 4
/-- A host power domain is on. -/
def Atu.pdomOn (a : Atu) (d : Nat) : Bool := a.bit 0x0018 d
/-- Sites that take part in the fit and in recoat (R220). -/
def Atu.siteActive (a : Atu) (k : Nat) : Bool := a.siteEnabled k && !a.siteFaulty k

/-- Margin level of a domain (R229). -/
def Atu.marginLevel (a : Atu) (d : Nat) : Nat := a.fld (0x5010 + 4 * (d / 8)) (4 * (d % 8) + 3) (4 * (d % 8))
def Atu.setMarginLevel (a : Atu) (d v : Nat) : Atu := a.setFld (0x5010 + 4 * (d / 8 % 2)) (4 * (d % 8) + 3) (4 * (d % 8)) v

/-- One measurement of every enabled site (R219): a site whose domain is off is skipped. -/
def Atu.ageMeasure (a : Atu) (vals : List (BitVec 16)) : Atu :=
  if !a.bit 0x5000 0 || !a.inRun || a.powerFailing || !a.bound.clkRun || decide (a.life < a.age.lastMeas + a.fld 0x5000 31 16) then a
  else
    let a := (List.range 32).foldl (fun a k =>
      if a.siteEnabled k && a.pdomOn (a.sitePdom k) then a.setFld (siteBase k + 0x0C) 15 0 (vals.getD k 0).toNat else a) a
    { a with age := { a.age with lastMeas := a.life } }

/-- A measurement gives no edges or no slack reading (R220). -/
def Atu.siteFault (a : Atu) (k : Fin 32) : Atu :=
  if !a.siteEnabled k.val || !a.bit 0x5000 0 || !a.inRun || a.powerFailing || !a.bound.clkRun then a
  else ((a.setFld 0x500C k.val k.val 1).flag (ageFlag 2)).event 0x0A 3 k.val []

/-- Operating hours (R221). -/
def Atu.hours (a : Atu) : Nat := a.life / 3600

/-- x of R221: floor(256 * h^(1/4)). -/
def fitX (h : Nat) : Nat := isqrt (isqrt (h * 2 ^ 32))

/-- EOL_H of R222 from the sums of a site. -/
def eolHours (n sx sy sxx sxy limit : Int) : Nat :=
  let d := n * sxx - sx * sx
  let bn := n * sxy - sx * sy
  let ay := sy * sxx - sx * sxy
  if d ≤ 0 ∨ bn ≥ 0 then 0xFFFFFFFF
  else
    let xe := Int.fdiv (limit * d - ay) bn
    min 0xFFFFFFFE ((xe * xe * xe * xe).toNat / 2 ^ 32)

/-- REMAINING_H of R222. -/
def remainingHours (eol h : Nat) : Nat := if eol = 0xFFFFFFFF then 0xFFFFFFFF else eol - h

/-- REMAINING_H reads 0xFFFF_FFFF again: the next fall below EOL_WARN_H is a first one (R222, R225). -/
def Atu.armEol (a : Atu) (k : Fin 32) : Atu :=
  { a with age := { a.age with sites := a.age.sites.set k { a.age.sites[k] with armed := true } } }

/-- The projection of a site after a sample, and the warning of R225. Below 8 samples there is none. -/
def Atu.project (a : Atu) (k : Fin 32) : Atu :=
  let b := siteBase k.val
  let n := a.fld (b + 0x14) 19 0
  if n < 8 then a.armEol k
  else
    let eol := eolHours n (rget64 a.regs (b + 0x18)) (rget64 a.regs (b + 0x20)) (rget64 a.regs (b + 0x28)) (rget64 a.regs (b + 0x30))
      (a.fld (b + 0x04) 15 0)
    let rem := remainingHours eol a.hours
    let a := (a.setRegN (b + 0x10) eol).setRegN (b + 0x38) rem
    let low := decide (rem < a.fld 0x5004 31 16)
    let armed := (a.age.sites[k]).armed
    let a := { a with age := { a.age with sites := a.age.sites.set k { a.age.sites[k] with armed := !low } } }
    if low && armed then (a.flag (ageFlag 1)).event 0x09 2 k.val (leBytes 4 eol ++ leBytes 4 rem) else a

/-- Add one fit sample to a site (R221). -/
def Atu.fitSite (a : Atu) (k : Fin 32) : Atu :=
  let b := siteBase k.val
  let x := fitX a.hours
  let y := a.fld (b + 0x0C) 15 0
  let add off v (a : Atu) : Atu := { a with regs := rset64 a.regs (b + off) ((rget64 a.regs (b + off) + v) % 2 ^ 64) }
  let a := a.setFld (b + 0x14) 19 0 (a.fld (b + 0x14) 19 0 + 1)
  (((add 0x18 x a |> add 0x20 y) |> add 0x28 (x * x)) |> add 0x30 (x * y)).project k

/-- Samples may be taken: on a part without an event recorder only once LIFE_SECONDS was written (R224). -/
def Atu.fitAllowed (a : Atu) : Bool := a.hasEvr || a.evr.lifeSet

/-- The fit sample of every active site whose domain has margin level 0 (R221, R222). -/
def Atu.fitSample (a : Atu) : Atu :=
  if decide (a.life < a.age.lastFit + 3600 * a.fld 0x5000 15 8) then a
  else
    let a := (List.finRange 32).foldl (fun a k =>
      if a.siteActive k.val && decide (a.marginLevel (a.sitePdom k.val) = 0) && a.fitAllowed then a.fitSite k else a) a
    { a with age := { a.age with lastFit := a.life } }

/-- FIT_N.FROZEN of a built site (R222, R224). -/
def Atu.siteFrozen (a : Atu) (k : Nat) : Bool :=
  decide (a.fld (siteBase k) 1 0 ≠ 0) && (decide (a.marginLevel (a.sitePdom k) ≠ 0) || (a.siteEnabled k && !a.fitAllowed))

/-! ### Margin advice and recoat (R226 to R229) -/

def lastAdviceOf (a : Atu) (d : Nat) : Option Nat := if h : d < 16 then a.age.lastAdvice[d] else none

/-- MARGIN_ADVICE changes with a strobe, at most once in 1 microsecond, to the oldest advice that waits (R226). ATU_MARGIN_LAST is the bus. -/
def Atu.driveAdvice (a : Atu) : Atu :=
  let free := match a.age.strobeAt with | some t => decide (t + 1000 ≤ a.time.elapsed) | none => true
  match a.age.adviceQ with
  | [] => a
  | v :: vs =>
    if free && a.bound.clkRun && !a.bound.inReset then
      { a with age := { a.age with adviceQ := vs, strobes := a.age.strobes + 1, strobeAt := some a.time.elapsed } }.setFld 0x5018 7 0 v
    else a

/-- The level of MARGIN_STROBE: 4 ATU_CLK cycles from the last advice (R226). -/
def Atu.marginStrobe (a : Atu) : Bool :=
  match a.age.strobeAt with | some t => decide (a.time.elapsed < t + 5) | none => false

/-- An advice leaves for MARGIN_ADVICE (R226, R229): level, record, and the MARGIN mark of the open window. DESIGN CHOICE (notes/assumptions/137.md): an
advice that waits for its turn on the bus marks the window in which it was given (R124). -/
def Atu.giveAdvice (a : Atu) (d : Fin 16) (action level site : Nat) : Atu :=
  let a := a.setMarginLevel d.val level
  let a := { a with age := { a.age with adviceQ := a.age.adviceQ ++ [16 * d.val + action],
                                        lastAdvice := a.age.lastAdvice.set d (some a.time.elapsed) },
                    samp := { a.samp with win := { a.samp.win with margin := true } } }
  ((a.driveAdvice).flag (ageFlag 3)).event 0x08 0 d.val (leBytes 1 action ++ leBytes 1 level ++ leBytes 1 site ++ zeros 5)

/-- Advise one step for a domain (R226 to R229): action 1 RAISE_V, 2 LOWER_F, 3 RELAX. A second request within 1 s
is merged; a step at level 7 gives no advice. -/
def Atu.advise (a : Atu) (d : Fin 16) (action site : Nat) : Atu :=
  let level := a.marginLevel d.val
  if (match lastAdviceOf a d.val with | some t => decide (a.time.elapsed < t + 1000000000) | none => false) then a
  else if action = 3 then (if level = 0 then a else a.giveAdvice d 3 (level - 1) site)
  else if level = 7 then
    (a.flag (ageFlag 4)).event 0x08 3 d.val (leBytes 1 action ++ leBytes 1 7 ++ leBytes 1 site ++ zeros 5)
  else a.giveAdvice d action (level + 1) site

/-- Active sites of a domain. -/
def Atu.domainSites (a : Atu) (d : Nat) : List (Fin 32) :=
  (List.finRange 32).filter fun k => a.siteActive k.val && decide (a.sitePdom k.val = d)

def Atu.siteValue (a : Atu) (k : Nat) : Nat := a.fld (siteBase k + 0x0C) 15 0
def Atu.siteLow (a : Atu) (k : Nat) : Bool := decide (a.siteValue k < a.fld (siteBase k + 0x08) 15 0)
def Atu.siteHigh (a : Atu) (k : Nat) : Bool := decide (a.fld (siteBase k + 0x08) 31 16 < a.siteValue k)

/-- The recoat decision of one domain (R227). -/
def Atu.recoatDomain (a : Atu) (d : Fin 16) : Atu :=
  let sites := a.domainSites d.val
  match sites.find? fun k => a.siteLow k.val with
  | some k => (a.flag (ageFlag 0)).advise d (if a.bit (siteBase k.val) 2 then 2 else 1) k.val
  | none =>
    if decide (0 < a.marginLevel d.val) && !sites.isEmpty && sites.all fun k => decide (3 ≤ (a.age.sites[k]).highRun) then
      a.advise d 3 ((sites.map (·.val)).headD 0)
    else a

/-- The recoat cycle (R227), in ascending domain order. -/
def Atu.recoat (a : Atu) : Atu :=
  let s := a.fld 0x5004 15 0
  if s = 0 ∨ !a.inRun ∨ !a.bound.clkRun ∨ a.life < a.age.lastRecoat + s then a
  else
    let run (k : Fin 32) (x : AgeSite) : AgeSite :=
      { x with highRun := if a.siteActive k.val && a.siteHigh k.val then min 3 (x.highRun + 1) else 0 }
    let a1 := { a with age := { a.age with sites := Vector.ofFn (fun (k : Fin 32) => run k a.age.sites[k]), lastRecoat := a.life } }
    (List.finRange 16).foldl Atu.recoatDomain a1

/-! ### Sanding (R230 to R241) -/

def Atu.sandCores (a : Atu) : Nat := a.fld 0x5A00 20 16
/-- A core is wired and enabled for sanding (R230). -/
def Atu.sandEnabled (a : Atu) (n : Nat) : Bool := a.bit 0x5A00 n && decide (n < a.sandCores)
def Atu.sandInterval (a : Atu) : Nat := (a.reg 0x5A04).toNat
def Atu.sandSoft (a : Atu) : Nat := a.fld 0x5A08 15 0
def Atu.sandHard (a : Atu) : Nat := a.fld 0x5A08 31 16
def Atu.sandPdom (a : Atu) (n : Nat) : Nat := a.fld (0x5A80 + 0x10 * n) 7 4

def Atu.setSand (a : Atu) (n : Fin 16) (c : SandCore) : Atu := { a with sand := a.sand.set n c }
def Atu.mapSand (a : Atu) (f : Fin 16 → SandCore → SandCore) : Atu := { a with sand := Vector.ofFn fun (i : Fin 16) => f i a.sand[i] }

/-- A test is running. -/
def Atu.sandBusy (a : Atu) : Bool := a.sand.toList.any (·.run)

/-- The core's request stands (R231 step 1): due, or its retest is; not failed, not waiting after an abort. -/
def Atu.sandWants (a : Atu) (n : Fin 16) : Bool :=
  let c := a.sand[n]
  a.sandEnabled n.val && !c.failed && c.againAt.isNone && a.inRun && !a.powerFailing &&
    (match c.retestAt with | some t => decide (t ≤ a.life) | none => decide (c.dueSec ≤ a.life))

/-- SAND_REQ of every core as a level (R231): a running core keeps its request, and nothing else is asked while a test runs. -/
def Atu.sandReqs (a : Atu) : Atu :=
  let busy := a.sandBusy
  a.mapSand fun n c => { c with req := if c.run then true else !busy && a.sandWants n }

/-- The trace source of a core follows its lending (R184, R234). -/
def Atu.sandTrace (a : Atu) (n : Fin 16) : Atu := if a.hasTrace then a.srcContext n else a

/-- SAND_DUE (R235): the core has reached its due time. -/
def Atu.sandDue (a : Atu) (_n : Fin 16) : Atu := if a.bound.clkRun then a.sandReqs else a

/-- A grant (R231, R232): the lowest-numbered requested core of those granted in this cycle is tested. -/
def Atu.sandGrant (a : Atu) (mask : BitVec 16) : Atu :=
  if a.sandBusy || !a.bound.clkRun then a
  else match (List.finRange 16).find? fun n => mask.toNat.testBit n.val && (a.sand[n]).req with
    | none => a
    | some n =>
      let c := a.sand[n]
      let a := a.setSand n { c with gnt := true, run := true, urgent := false, retest := c.retestAt.isSome, runSince := a.time.elapsed }
      (a.sandReqs).sandTrace n

/-- A test ends without a verdict (R233): aborted, asked for again 100 ms later; TEST_URGENT returns past the soft deadline. -/
def Atu.sandAbort (a : Atu) (n : Fin 16) : Atu :=
  let c := a.sand[n]
  let urgent := decide (c.dueSec + a.sandSoft ≤ a.life)
  let a := a.setSand n { c with gnt := false, run := false, req := false, aborts := min 0xFFFF (c.aborts + 1), urgent := urgent,
                                againAt := some (a.time.elapsed + 100000000) }
  ((a.sandReqs).sandTrace n).flag (sandFlag 3)

/-- The host deasserts SAND_GNT (R233). -/
def Atu.sandWithdraw (a : Atu) (n : Fin 16) : Atu :=
  if !a.bound.clkRun then a
  else if (a.sand[n]).run then a.sandAbort n
  else a.setSand n { a.sand[n] with gnt := false }

/-- A test passes (R235, R237, R241). -/
def Atu.sandPass (a : Atu) (n : Fin 16) : Atu :=
  let c := a.sand[n]
  let c' := { c with run := false, req := false, gnt := false, urgent := false, softSeen := false, passes := (c.passes + 1) % 2 ^ 32,
                     lastPass := some a.life, dueSec := a.life + a.sandInterval, retestAt := none, retest := false,
                     marginal := c.marginal || c.retest }
  let a := a.setSand n c'
  let a := if c.retest then a.flag (sandFlag 5) else a
  let a := if c.untested then a.event 0x06 0 n.val (leBytes 1 0 ++ zeros 7) else a
  (a.sandReqs).sandTrace n

/-- A test fails (R240, R241): `result` is 1, or 2 for a timeout. -/
def Atu.sandFail (a : Atu) (n : Fin 16) (result : Nat) : Atu :=
  let c := a.sand[n]
  let c0 := { c with run := false, req := false, gnt := false, retest := false }
  if c.retest then
    let a := (a.setSand n { c0 with failed := true, retestAt := none }).flag (sandFlag 2)
    ((a.event 0x06 3 n.val (leBytes 1 3 ++ zeros 7)).sandReqs).sandTrace n
  else
    let a := (a.setSand n { c0 with retestAt := some (a.life + a.fld 0x5A0C 31 20) }).flag (sandFlag 2)
    let a := a.event 0x06 2 n.val (leBytes 1 result ++ zeros 7)
    let a := if h : a.sandPdom n.val < 16 then a.advise ⟨a.sandPdom n.val, h⟩ 1 0 else a
    (a.sandReqs).sandTrace n

/-- SAND_DONE (R231 step 4); ignored while SAND_RUN is deasserted (R234). -/
def Atu.sandDone (a : Atu) (n : Fin 16) (pass : Bool) : Atu :=
  if !(a.sand[n]).run || !a.bound.clkRun then a else if pass then a.sandPass n else a.sandFail n 1

/-- SAND_DONE has not come by TEST_MAX_US (R234). -/
def Atu.sandTimeout (a : Atu) (n : Fin 16) : Atu :=
  let c := a.sand[n]
  if !c.run || !a.bound.clkRun || decide (a.time.elapsed < c.runSince + 1000 * a.fld 0x5A0C 19 0) then a
  else (a.flag (sandFlag 4)).sandFail n 2

/-- 100 ms after an abort (R233). -/
def Atu.sandAgain (a : Atu) (n : Fin 16) : Atu :=
  match (a.sand[n]).againAt with
  | some t => if t ≤ a.time.elapsed && a.bound.clkRun then (a.setSand n { a.sand[n] with againAt := none }).sandReqs else a
  | none => a

/-- RETEST_S after a failure (R240). -/
def Atu.sandRetest (a : Atu) (_n : Fin 16) : Atu := if a.bound.clkRun then a.sandReqs else a

/-- The soft deadline (R236). -/
def Atu.sandSoftDeadline (a : Atu) (n : Fin 16) : Atu :=
  let c := a.sand[n]
  if !a.sandEnabled n.val || !a.bound.clkRun || !a.inRun || c.softSeen || decide (a.life < c.dueSec + a.sandSoft) then a
  else ((a.setSand n { c with urgent := true, softSeen := true }).flag (sandFlag 0)).event 0x07 1 n.val (leBytes 1 0 ++ zeros 7)

/-- Whether a core is UNTESTED at a stroke (R237 to R239). -/
def Atu.sandUntestedNow (a : Atu) (n : Fin 16) : Bool :=
  let c := a.sand[n]
  a.sandEnabled n.val && (c.failed || decide (c.dueSec + a.sandHard ≤ a.life))

/-- Evaluate one core at a stroke (R237): the first stroke sets the flag and makes the record. -/
def Atu.sandStroke (a : Atu) (n : Fin 16) : Atu :=
  let c := a.sand[n]
  let u := a.sandUntestedNow n
  let a := a.setSand n { c with untested := u }
  if u && !c.untested then (a.flag (sandFlag 1)).event 0x07 2 n.val (leBytes 1 1 ++ zeros 7) else a

/-- Every core at a stroke. -/
def Atu.sandStrokes (a : Atu) : Atu := (List.finRange 16).foldl Atu.sandStroke a

/-- Some core is UNTESTED (R237). -/
def Atu.anyUntested (a : Atu) : Bool := a.sand.toList.any (·.untested)

/-- A write of ENABLE_MASK (R235, R239). -/
def Atu.sandEnableWrite (a : Atu) (mask : Nat) : Atu :=
  let was n := a.bit 0x5A00 n
  let a1 := a.setFld 0x5A00 15 0 mask
  let a1 := a1.mapSand fun n c =>
    if mask.testBit n.val && !was n.val then
      let c := { c with enabledAt := a.life, softSeen := false }
      { c with dueSec := match c.lastPass with | some p => p + a.sandInterval | none => (a.life : Int) }
    else if !mask.testBit n.val && was n.val then { c with req := false, run := false, urgent := false, againAt := none }
    else c
  let a1 := a1.sandReqs
  (List.finRange 16).foldl (fun a n => if was n.val && !mask.testBit n.val then a.sandTrace n else a) a1

/-- A write of INTERVAL_S, SOFT_S or HARD_S recomputes every core's due time (R235). -/
def Atu.sandRetime (a : Atu) : Atu :=
  (a.mapSand fun _ c => { c with softSeen := false, dueSec := match c.lastPass with | some p => p + a.sandInterval | none => c.enabledAt }).sandReqs

/-- RUN_NOW (R230): the named cores are due at once. -/
def Atu.sandRunNow (a : Atu) (mask : Nat) : Atu :=
  (a.mapSand fun n c => if mask.testBit n.val && decide (a.life < c.dueSec) then { c with dueSec := a.life, softSeen := false } else c).sandReqs

/-- CLEAR_FAILED (R241): the named cores leave FAILED and are due at once. -/
def Atu.sandClearFailed (a : Atu) (mask : Nat) : Atu :=
  (a.mapSand fun n c => if mask.testBit n.val && c.failed then { c with failed := false, dueSec := a.life, softSeen := false } else c).sandReqs

/-- LIFE_SECONDS is seeded (R224). -/
def Atu.lifeSeed (a : Atu) (v : Nat) : Atu :=
  { a.lifeMove v with evr := { a.evr with lifeSet := true } }

/-- ATU_SAND_COREn.STATE (R750). -/
def Atu.sandState (a : Atu) (n : Fin 16) : Nat :=
  let c := a.sand[n]
  if c.failed then 6
  else if !a.sandEnabled n.val then 7
  else if c.run then 4
  else if c.retestAt.isSome then 5
  else if c.untested then 3
  else if c.dueSec + a.sandSoft ≤ a.life then 2
  else if c.dueSec ≤ a.life then 1
  else 0

/-- A power failure aborts every running test (R234). -/
def Atu.powerAborts (a : Atu) : Atu :=
  ((List.finRange 16).foldl (fun a n => if (a.sand[n]).run then a.sandAbort n else a) a).sandReqs

/-- PWR_FAIL_N changes (R219, R234, R255): measurement and sanding stop, and the power-fail flush starts. The sanding handshake stands while ATU_CLK
does (R751). -/
def Atu.pwrFail (a : Atu) (asserted : Bool) : Atu :=
  let was := a.powerFailing
  let a := a.setFld 0x0018 16 16 (b2n asserted)
  if !asserted || was then a
  else
    (if a.bound.clkRun then a.powerAborts else a).evrPowerFail

end Sys2Proof.Machine
end

