-- ==== Sys2Proof/Machine/Power.lean ====
section
/-!
DEFINITION. Power.lean: power states, governors, droop clamp, alarms, energy, and the aggregator's own ageing: spec/17_power.md, with
the life copies of R706 and R708.
-/
namespace Sys2Proof.Machine

def Agg.withPwr (g : Agg) (f : PwrUnit → PwrUnit) : Agg := { g with pwr := f g.pwr }

/-! ### States and steps (R637 to R642, R650) -/

/-- The state in force (R639). -/
def Agg.powerState (g : Agg) : Nat :=
  max (max (max g.pwr.requested g.pwr.capState) (max g.pwr.thermal g.pwr.ceiling)) (if g.pwr.forced then 7 else 0)

/-- The next step from where clock and issue rate stand towards a state (R641, R642). -/
def nextStep (cur : Nat) (half : Bool) (target : Nat) : Option PwrStep :=
  if half && decide (7 ≤ target) then some .issueDown
  else if target < cur ∨ half then some (if 5 ≤ cur then .issueUp else .freqUp)
  else if cur < target then some (if cur < 4 then .freqDown else .issueDown)
  else none

/-- The clamp is on, or the hold after its release runs (R650). -/
def PwrUnit.holding (u : PwrUnit) : Bool := u.tripAt.isSome || u.holdEnd.isSome

/-- Steps that a hold does not stop (R650): the issue-rate cut of a step down, and the moves that a critical temperature forces. -/
def PwrUnit.exempt (u : PwrUnit) (s : PwrStep) : Bool :=
  match s with
  | .issueDown => true
  | .freqDown => u.crit
  | _ => false

/-- A step is held: STEP_HELD once for each step (R650). -/
def Agg.holdStep (g : Agg) : Agg := if g.pwr.heldSeen then g else (g.withPwr fun u => { u with heldSeen := true }).flag (pwrFlag 1)

/-- Start the next step when none is in progress (R641, R650). -/
def Agg.startStep (g : Agg) : Agg :=
  if g.pwr.step.isSome then g
  else match nextStep g.pwr.cur g.pwr.half g.powerState with
    | none => g
    | some s =>
      if g.pwr.holding && !g.pwr.exempt s then g.holdStep
      else g.withPwr fun u => { u with step := some s, heldSeen := false }

/-- Where clock and issue rate stand after a step. -/
def PwrUnit.finish (u : PwrUnit) (s : PwrStep) : PwrUnit :=
  let u := { u with step := none, heldSeen := false }
  match s with
  | .freqUp => { u with cur := u.cur - 1 }
  | .freqDown => { u with cur := u.cur + 1 }
  | .issueUp => if u.cur = 7 && !u.half then { u with half := true } else { u with cur := u.cur - 1, half := false }
  | .issueDown => if u.half then { u with half := false } else { u with cur := u.cur + 1 }

/-- POWER_STEP_DONE (R642): a step that no hold pauses ends, and the next starts. -/
def Agg.stepDone (g : Agg) : Agg :=
  match g.pwr.step with
  | none => g
  | some s => if g.pwr.holding && !g.pwr.exempt s then g else (g.withPwr fun u => u.finish s).startStep

/-! ### Governors (R643 to R646) -/

/-- CAP_W. -/
def Agg.capMw (g : Agg) : Nat := 1000 * g.fld 0xC0008 8 0

/-- One millisecond's average power is integrated into AGG_ENERGY (R657). -/
def PwrUnit.addEnergy (u : PwrUnit) (mw : Nat) : PwrUnit :=
  let t := u.energyRem + mw
  { u with energy := (u.energy + t / 1000) % 2 ^ 64, energyRem := t % 1000 }

/-- CAP_EVALUATE (R643, R645): the average of the last millisecond, in mW. -/
def Agg.capEvaluate (g : Agg) (mw : Nat) : Agg :=
  if !g.powered then g
  else
    let g := (g.setRegN 0xC0018 mw).withPwr fun u => { u.addEnergy mw with samples := (mw :: u.samples).take 10 }
    let ten := g.pwr.samples.sum
    let past := decide (g.pwr.samples.length = 10) && decide (10 * g.capMw < ten)
    let free := match g.pwr.capMoved with | some t => decide (t + 10000000 ≤ g.now) | none => true
    let low := decide (g.pwr.samples.length = 10) && decide (ten + 100000 < 10 * g.capMw)
    let g := g.withPwr fun u => { u with lowSince := if low then some (u.lowSince.getD g.now) else none }
    if past && free then
      ((g.withPwr fun u => { u with capState := min 7 (u.capState + 1), capMoved := some g.now }).flag (pwrFlag 3)).startStep
    else match g.pwr.lowSince with
      | some t =>
        if t + 100000000 ≤ g.now ∧ 0 < g.pwr.capState then
          (g.withPwr fun u => { u with capState := u.capState - 1, lowSince := some g.now }).startStep
        else g
      | none => g

/-- The hottest sensor and its number. -/
def hottest (ts : List Int) : Int × Nat := (ts.zipIdx).foldl (fun b p => if b.1 < p.1 then p else b) ((ts[0]?).getD 0, 0)

/-- THERMAL_EVALUATE (R646): the twelve junction sensors, in degrees. -/
def Agg.thermalEvaluate (g : Agg) (temps : Vector Int 12) : Agg :=
  if !g.powered then g
  else
    let h := hottest temps.toList
    let g := g.setRegN 0xC001C (twos 8 h.1 + 256 * h.2)
    let cool := temps.toList.all fun t => decide (t < 95)
    let g := g.withPwr fun u => { u with coolSince := if cool then some (u.coolSince.getD g.now) else none }
    let g := if 100 < h.1 then g.flag (pwrFlag 4) else g
    if 110 < h.1 then ((g.withPwr fun u => { u with thermal := 7, crit := true }).flag (pwrFlag 5)).startStep
    else if 100 < h.1 then (g.withPwr fun u => { u with thermal := min 7 (u.thermal + 1) }).startStep
    else match g.pwr.coolSince with
      | some t =>
        if t + 100000000 ≤ g.now ∧ 0 < g.pwr.thermal then
          (g.withPwr fun u => { u with thermal := u.thermal - 1, crit := false, coolSince := some g.now }).startStep
        else g
      | none => g

/-! ### Droop (R647 to R651) -/

/-- DROOP_TRIP (R648): the clamp engages, or its hold time begins again. -/
def Agg.droopTrip (g : Agg) : Agg :=
  if !g.coreRuns then g
  else
    let was := g.pwr.tripAt.isSome
    let g := g.withPwr fun u => { u with tripAt := some g.now, holdEnd := none }
    let g := match g.pwr.step with
      | some s => if g.pwr.exempt s then g else g.holdStep
      | none => g
    if was then g else (g.inc 0xC0020 1).flag (pwrFlag 0)

/-- DROOP_RELEASE (R649): DROOP_HOLD_US after the last trip. -/
def Agg.droopRelease (g : Agg) : Agg :=
  match g.pwr.tripAt with
  | some t =>
    if t + 1000 * g.fld 0xC0008 23 16 ≤ g.now then
      g.withPwr fun u => { u with tripAt := none, holdEnd := some (g.now + 1000 * g.fld 0xC0008 31 24) }
    else g
  | none => g

/-- STEP_HOLD_END (R650): paused steps go on, and held ones start. -/
def Agg.stepHoldEnd (g : Agg) : Agg :=
  match g.pwr.holdEnd with
  | some t => if t ≤ g.now then (g.withPwr fun u => { u with holdEnd := none }).startStep else g
  | none => g

/-! ### The regulator alarm (R652, R653) -/

/-- VR_ALERT (R652): clock and issue rate go to their P7 settings directly. -/
def Agg.vrAlert (g : Agg) : Agg :=
  if !g.powered then g
  else (g.withPwr fun u => { u with forced := true, cur := 7, half := false, step := none, heldSeen := false }).flag (pwrFlag 2)

/-- VR_ALERT_CLEAR (R653): VR_ALERT_N has been deasserted for 100 ms. -/
def Agg.vrAlertClear (g : Agg) : Agg := (g.withPwr fun u => { u with forced := false }).startStep

/-! ### Ageing (R659 to R663) -/

def aggSiteBase (k : Nat) : Nat := 0xC0100 + 0x40 * (k % 24)
def Agg.aggSite (g : Agg) (k : Nat) : AggSite := if h : k < 24 then g.pwr.sites[k] else {}
def Agg.modAggSite (g : Agg) (k : Nat) (f : AggSite → AggSite) : Agg :=
  g.withPwr fun u => if h : k < 24 then { u with sites := u.sites.set k (f u.sites[k]) } else u
/-- AGG_LIFE_SECONDS (R660). -/
def Agg.life (g : Agg) : Nat := (g.reg 0xC0024).toNat
/-- Margin domain of a site (R659): the link region for 16 to 19, the core otherwise. -/
def siteDomain (k : Nat) : Nat := if 16 ≤ k ∧ k ≤ 19 then 1 else 0
def Agg.aggSiteOn (g : Agg) (k : Nat) : Bool := g.bit (aggSiteBase k) 3 && decide (g.fld (aggSiteBase k) 1 0 ≠ 0)
def Agg.aggSiteActive (g : Agg) (k : Nat) : Bool := g.aggSiteOn k && !(g.aggSite k).fault
/-- Actions of a domain that are not undone. -/
def Agg.acts (g : Agg) (d : Nat) : List Bool := if d = 0 then g.pwr.acts0 else g.pwr.acts1
def Agg.setActs (g : Agg) (d : Nat) (l : List Bool) : Agg :=
  g.withPwr fun u => if d = 0 then { u with acts0 := l } else { u with acts1 := l }
/-- Voltage steps and margin level of a domain. -/
def Agg.volts (g : Agg) (d : Nat) : Nat := ((g.acts d).filter id).length
def Agg.aggLevel (g : Agg) (d : Nat) : Nat := (g.acts d).length

/-- The margin register and the recoat ceiling follow the actions taken (R661). -/
def Agg.showMargins (g : Agg) : Agg :=
  let g := g.withPwr fun u => { u with ceiling := (u.acts0.filter (!·)).length }
  (g.setRegN 0xC0038 (g.aggLevel 0 + 16 * g.aggLevel 1 + 256 * g.volts 0 + 4096 * g.volts 1)).startStep

/-- A site yields no measurement (R220). -/
def Agg.aggSiteFault (g : Agg) (k : Nat) : Agg :=
  ((g.modAggSite k fun s => { s with fault := true }).flag (pwrFlag 6)).event 0x0A 3 k []

/-- One site is measured, or found faulty. -/
def Agg.measureSite (vals : List (BitVec 16)) (faults : BitVec 24) (g : Agg) (k : Nat) : Agg :=
  if !g.aggSiteActive k then g
  else if faults.toNat.testBit k then g.aggSiteFault k
  else g.setFld (aggSiteBase k + 0x0C) 15 0 ((vals[k]?).getD 0).toNat

/-- AGG_AGE_MEASURE (R219, R220, R659): the values read, and the sites that gave none. -/
def Agg.ageMeasure (g : Agg) (vals : List (BitVec 16)) (faults : BitVec 24) : Agg :=
  if !g.bit 0xC0030 0 || !g.coreRuns || decide (g.life < g.pwr.lastMeas + g.fld 0xC0030 31 16) then g
  else
    ((List.range 24).foldl (Agg.measureSite vals faults) g).withPwr fun u => { u with lastMeas := g.life }

/-- The projection of a site, and the warning of R225. -/
def Agg.aggProject (g : Agg) (k : Nat) : Agg :=
  let b := aggSiteBase k
  let n := g.fld (b + 0x14) 19 0
  if n < 8 then g.modAggSite k fun s => { s with armed := true }
  else
    let eol := eolHours n (rget64 g.regs (b + 0x18)) (rget64 g.regs (b + 0x20)) (rget64 g.regs (b + 0x28)) (rget64 g.regs (b + 0x30))
      (g.fld (b + 0x04) 15 0)
    let rem := remainingHours eol (g.life / 3600)
    let low := decide (rem < g.fld 0xC0034 31 16)
    let armed := (g.aggSite k).armed
    let g := ((g.setRegN (b + 0x10) eol).setRegN (b + 0x38) rem).modAggSite k fun s => { s with armed := !low }
    if low && armed then (g.flag (pwrFlag 7)).event 0x09 2 k (leBytes 4 eol ++ leBytes 4 rem) else g

/-- One fit sample of a site (R221). -/
def Agg.aggFitSite (g : Agg) (k : Nat) : Agg :=
  let b := aggSiteBase k
  let x := fitX (g.life / 3600)
  let y := g.fld (b + 0x0C) 15 0
  let add (g : Agg) (p : Nat × Nat) : Agg := g.setReg64 (b + p.1) ((rget64 g.regs (b + p.1) + p.2) % 2 ^ 64)
  let g := g.setFld (b + 0x14) 19 0 (g.fld (b + 0x14) 19 0 + 1)
  ([(0x18, x), (0x20, y), (0x28, x * x), (0x30, x * y)].foldl add g).aggProject k

/-- The fit record of a site (R245). -/
def Agg.aggFitEvent (g : Agg) (k : Nat) : Agg :=
  let b := aggSiteBase k
  if g.aggSiteOn k then
    g.event 0x0B 0 k (leBytes 4 (g.fld (b + 0x14) 19 0) ++ zeros 4 ++
      [0x18, 0x20, 0x28, 0x30].flatMap fun o => leBytes 8 (rget64 g.regs (b + o)))
  else g

/-- A life copy (R706): life count, levels, ceiling, and the fit sums of every site. -/
def Agg.lifeCopy (g : Agg) (seq : Nat) : List Byte :=
  let site (k : Nat) : List Byte :=
    leBytes 4 (g.fld (aggSiteBase k + 0x14) 19 0) ++ zeros 4 ++
      [0x18, 0x20, 0x28, 0x30].flatMap fun o => leBytes 8 (rget64 g.regs (aggSiteBase k + o))
  withCrc crc32c (padTo 1020 (leBytes 4 seq ++ leBytes 4 g.life ++ leBytes 1 (g.aggLevel 0) ++ leBytes 1 (g.aggLevel 1) ++
    leBytes 1 (g.volts 0) ++ leBytes 1 (g.volts 1) ++ leBytes 1 g.pwr.ceiling ++ zeros 3 ++ (List.range 24).flatMap site))

def lifeBase (k : Nat) : Nat := 0x0800 + 0x400 * k
def lifeGood (e : SMap Byte) (k : Nat) : Bool := crcGood crc32c (mread e (lifeBase k) 1024)

/-- The valid life copy with the higher SEQ (R708). -/
def lifeNewest (e : SMap Byte) : Option Nat :=
  match lifeGood e 0, lifeGood e 1 with
  | true, true => some (if mreadNat e (lifeBase 1) 4 ≤ mreadNat e (lifeBase 0) 4 then 0 else 1)
  | true, false => some 0
  | false, true => some 1
  | false, false => none

/-- Write the life copy into the other place (R708). `ok` is the read-back. -/
def Agg.saveLife (g : Agg) (ok : Bool) : Agg :=
  let (k, seq) := match lifeNewest g.eeprom with
    | some k => (1 - k, mreadNat g.eeprom (lifeBase k) 4 + 1)
    | none => (0, 1)
  if ok then { g with eeprom := mwrite g.eeprom (lifeBase k) (g.lifeCopy seq) } else g.flag (bootFlag 21)

/-- One site's count and sums of the life record at `b`. -/
def Agg.loadSite (e : SMap Byte) (b : Nat) (g : Agg) (k : Nat) : Agg :=
  let s := b + 16 + 40 * k
  let t := aggSiteBase k
  ((((g.setRegN (t + 0x14) (mreadNat e s 4)).setReg64 (t + 0x18) (mreadNat e (s + 8) 8)).setReg64 (t + 0x20) (mreadNat e (s + 16) 8)).setReg64
    (t + 0x28) (mreadNat e (s + 24) 8)).setReg64 (t + 0x30) (mreadNat e (s + 32) 8)

/-- Bring-up loads the life values; without a valid copy they start at 0 (R708, R660). DESIGN CHOICE (notes/assumptions/140.md): the order of the
actions is not in the copy, so the ceiling's are taken as the newer ones; what an interval of operating time has to run starts anew. -/
def Agg.loadLife (g : Agg) : Agg :=
  match lifeNewest g.eeprom with
  | none => (((g.setRegN 0xC0024 0).withPwr fun u => { u with acts0 := [], acts1 := [] }).showMargins).flag (bootFlag 20)
  | some c =>
    let e := g.eeprom
    let b := lifeBase c
    let lower := List.replicate (mreadNat e (b + 12) 1) false
    let g := (List.range 24).foldl (Agg.loadSite e b) (g.setRegN 0xC0024 (mreadNat e (b + 4) 4))
    let fresh (x : Station) : Station := { x with lastPass := g.life }
    let g := { g with stn := { g.stn with trowels := g.stn.trowels.map fresh, floats := g.stn.floats.map fresh } }
    (g.withPwr fun u => { u with acts0 := lower ++ List.replicate (mreadNat e (b + 10) 1) true, acts1 := List.replicate (mreadNat e (b + 11) 1) true,
                                 lastMeas := g.life, lastFit := g.life, lastRecoat := g.life }).showMargins

/-- AGG_FIT_SAVE (R221, R660): once per FIT_PERIOD_H the fit takes a sample of every active site whose domain has level 0, and the sums
go to the EEPROM. -/
def Agg.fitSave (g : Agg) (ok : Bool) : Agg :=
  if !g.fwRuns || decide (g.life < g.pwr.lastFit + 3600 * g.fld 0xC0030 15 8) then g
  else
    let one (g : Agg) (k : Nat) : Agg := if g.aggSiteActive k && decide (g.aggLevel (siteDomain k) = 0) then g.aggFitSite k else g
    let g := (List.range 24).foldl one g
    let g := (List.range 24).foldl Agg.aggFitEvent g
    (g.withPwr fun u => { u with lastFit := g.life }).saveLife ok

/-- A margin step of a domain (R661, R662): `lower` is the PREF of the site. -/
def Agg.marginStep (g : Agg) (d site : Nat) (lower : Bool) : Agg :=
  let canRaise := decide (g.volts d < 4)
  let canLower := decide (d = 0 ∧ g.pwr.ceiling < 4)
  let took (g : Agg) (up : Bool) : Agg :=
    let g := (g.setActs d (up :: g.acts d)).showMargins
    let g := if up && g.pwr.holding then g.flag (pwrFlag 1) else g
    g.event 0x08 0 d (leBytes 1 (if up then 1 else 2) ++ leBytes 1 (g.aggLevel d) ++ leBytes 1 site ++ zeros 5)
  if decide (7 ≤ g.aggLevel d) || (!canRaise && !canLower) then
    (g.flag (pwrFlag 8)).event 0x08 3 d (leBytes 1 (if lower then 2 else 1) ++ leBytes 1 (g.aggLevel d) ++ leBytes 1 site ++ zeros 5)
  else if lower && canLower then took g false
  else if canRaise then took g true
  else took g false

/-- Undo the most recent action of a domain (R661). A voltage change waits for the droop hold (R663). -/
def Agg.relax (g : Agg) (d : Nat) : Agg :=
  let g' := (g.setActs d (g.acts d).tail).showMargins
  if (g.acts d).head? = some true && g.pwr.holding then g'.flag (pwrFlag 1) else g'

/-- Margin levels that have changed go to the EEPROM, so that they survive a module reset (R663). DEDUCED, unsafe (notes/assumptions/129.md):
this write is read back as good. -/
def Agg.saveMargins (g before : Agg) : Agg :=
  if g.pwr.acts0 = before.pwr.acts0 ∧ g.pwr.acts1 = before.pwr.acts1 then g else g.saveLife true

def Agg.domainActive (g : Agg) (d : Nat) : List Nat := (List.range 24).filter fun k => decide (siteDomain k = d) && g.aggSiteActive k

/-- One domain of the recoat cycle (R227, R661). -/
def Agg.recoatDom (g : Agg) (d : Nat) : Agg :=
  let sites := g.domainActive d
  let value k := g.fld (aggSiteBase k + 0x0C) 15 0
  match sites.find? fun k => decide (value k < g.fld (aggSiteBase k + 0x08) 15 0) with
  | some k => g.marginStep d k (g.bit (aggSiteBase k) 2)
  | none =>
    if decide (0 < g.aggLevel d) && !sites.isEmpty && sites.all fun k => decide (3 ≤ (g.aggSite k).highRun) then
      let g := g.relax d
      g.event 0x08 0 d (leBytes 1 3 ++ leBytes 1 (g.aggLevel d) ++ leBytes 1 (sites.headD 0) ++ zeros 5)
    else g

/-- AGG_RECOAT_CYCLE (R227, R661). -/
def Agg.recoatCycle (g : Agg) : Agg :=
  let s := g.fld 0xC0034 15 0
  if s = 0 ∨ !g.fwRuns ∨ g.life < g.pwr.lastRecoat + s then g
  else
    let high k := g.aggSiteActive k && decide (g.fld (aggSiteBase k + 0x08) 31 16 < g.fld (aggSiteBase k + 0x0C) 15 0)
    let g1 := (List.range 24).foldl (fun g k => g.modAggSite k fun x => { x with highRun := if high k then min 3 (x.highRun + 1) else 0 }) g
    (((g1.withPwr fun u => { u with lastRecoat := g.life }).recoatDom 0).recoatDom 1).saveMargins g

/-! ### POWER_SET (R664) -/

/-- What every function returns. -/
def Agg.powerResults (g : Agg) : List (Nat × Nat) :=
  [(3, g.powerState), (3, g.pwr.requested), (3, g.pwr.capState), (3, g.pwr.thermal), (3, g.pwr.ceiling), (1, b2n g.pwr.forced),
   (1, b2n g.pwr.tripAt.isSome), (32, (g.reg 0xC0018).toNat), (64, g.pwr.energy), (32, (g.reg 0xC0020).toNat)]

def Agg.powerSetState (g : Agg) (c : Caller) (st : Nat) : Agg :=
  g.command c 0x7C (ring0Only c) none fun g =>
    let g := (g.withPwr fun u => { u with requested := st }).startStep
    g.done c 0x7C g.powerResults

def Agg.powerSetCap (g : Agg) (c : Caller) (w : Nat) : Agg :=
  g.command c 0x7C (ring0Only c ++ failIf (decide (w < 120 ∨ 300 < w)) .badParam) none fun g =>
    let g := g.setFld 0xC0008 8 0 w
    g.done c 0x7C g.powerResults

def Agg.powerSetMargin (g : Agg) (c : Caller) (d lv : Nat) : Agg :=
  g.command c 0x7C (ring0Only c ++ failIf (decide (g.aggLevel d < lv)) .badParam) none fun g =>
    let g := ((List.range (g.aggLevel d - lv)).foldl (fun g _ => g.relax d) g).saveMargins g
    g.done c 0x7C g.powerResults

def Agg.powerStatus (g : Agg) (c : Caller) : Agg :=
  g.command c 0x7C (ring0Only c) none fun g => g.done c 0x7C g.powerResults

end Sys2Proof.Machine
end

