-- ==== Sys2Proof/Machine/RunCore.lean ====
section
/-!
DEFINITION. RunCore.lean: tile streams, run descriptors and what a run computes: R408 to R435 of spec/11_stations.md. A run is a function
of its descriptor, memory, the window and the job's dies (R434); the station it runs on appears nowhere here.
-/
namespace Sys2Proof.Machine

/-! ### Streams (R408 to R412) -/

/-- A stream of a run descriptor (R408). -/
structure Stream where
  valid     : Bool
  transpose : Bool
  wring     : Bool
  reserved  : Bool
  addr      : Nat
  fmt       : Nat
  rows      : Nat
  cols      : Nat
  line      : Nat
  tile      : Nat
  deriving DecidableEq, Repr

def readStream (bs : List Byte) (o : Nat) : Stream :=
  let f := leAt bs (o + 7) 1
  { valid := f.testBit 0, transpose := f.testBit 1, wring := f.testBit 3,
    reserved := f.testBit 2 || decide (f / 16 ≠ 0) || decide (leAt bs (o + 20) 4 ≠ 0),
    addr := leAt bs o 6, fmt := leAt bs (o + 6) 1, rows := leAt bs (o + 8) 2, cols := leAt bs (o + 10) 2,
    line := leAt bs (o + 12) 4, tile := leAt bs (o + 16) 4 }

/-- Storage lines, and elements of a line (R409). -/
def Stream.lines (s : Stream) : Nat := if s.transpose then s.cols else s.rows
def Stream.lineLen (s : Stream) : Nat := if s.transpose then s.rows else s.cols

def isMx (fmt : Nat) : Bool := [3, 4, 5].contains fmt
def isFp8 (fmt : Nat) : Bool := [1, 2].contains fmt

/-- Stored bytes of `n` elements of a format (R410). -/
def lineBytesOf (fmt n : Nat) : Nat :=
  match fmt with
  | 3 => 33 * (n / 32) | 4 => 33 * (n / 32) | 5 => 17 * (n / 32)
  | 6 => 2 * n | 8 => 4 * n | 9 => 4 * n | 10 => 16 * n
  | _ => n

def Stream.lineBytes (s : Stream) : Nat := lineBytesOf s.fmt s.lineLen

/-- Address of line j of a tile; with WRING the lines are the rows of a ring of 64 that ends at window w (R412). -/
def Stream.lineAddr (s : Stream) (w tile j : Nat) : Nat :=
  let k := if s.wring then (((w : Int) - s.rows + 1 + j) % 64).toNat else j
  s.addr + tile * s.tile + s.line * k

/-- The E8M0 scale of a block as an exponent; none for 0xFF (R410). -/
def mxScale (b : Nat) : Option Int := if b = 0xFF then none else some ((b : Int) - 127)

/-- Element `i` of a line that starts at `a`: its value with its block's scale, or NaN for a NaN scale. -/
def elemAt (m : SMap Byte) (fmt a i : Nat) : FVal :=
  let mx (block per : Nat) (dec : Nat → FVal) (code : Nat) : FVal :=
    match mxScale (mget m (a + block * per)).toNat with
    | some s => (dec code).scale s
    | none => .nan
  match fmt with
  | 1 => decE4M3 (mreadNat m (a + i) 1)
  | 2 => decE5M2 (mreadNat m (a + i) 1)
  | 3 => mx (i / 32) 33 decE4M3 (mreadNat m (a + 33 * (i / 32) + 1 + i % 32) 1)
  | 4 => mx (i / 32) 33 decE5M2 (mreadNat m (a + 33 * (i / 32) + 1 + i % 32) 1)
  | 5 => mx (i / 32) 17 decE2M1 ((mreadNat m (a + 17 * (i / 32) + 1 + i % 32 / 2) 1 / (if i % 2 = 0 then 1 else 16)) % 16)
  | 6 => decBf16 (mreadNat m (a + 2 * i) 2)
  | 7 => ofInt (signedOf 8 (mreadNat m (a + i) 1))
  | 8 => dec32 (mreadNat m (a + 4 * i) 4)
  | _ => ofInt (signedOf 32 (mreadNat m (a + 4 * i) 4))

/-- An accumulator: its integer and its state bits (R410, R428). -/
structure Acc where
  val     : Int := 0
  posInf  : Bool := false
  negInf  : Bool := false
  isNan   : Bool := false
  rounded : Bool := false
  clamped : Bool := false
  /-- A term of this run was clamped (TERM_CLAMP). -/
  term    : Bool := false
  deriving DecidableEq, Repr

def accAt (m : SMap Byte) (a i : Nat) : Acc :=
  let st := mreadNat m (a + 16 * i + 12) 1
  { val := signedOf 96 (mreadNat m (a + 16 * i) 12), posInf := st.testBit 0, negInf := st.testBit 1, isNan := st.testBit 2,
    rounded := st.testBit 3, clamped := st.testBit 4 }

/-- The value of an accumulator on its grid (R428). -/
def Acc.value (a : Acc) (lsb : Int) : FVal :=
  if a.isNan || (a.posInf && a.negInf) then .nan
  else if a.posInf then .inf false
  else if a.negInf then .inf true
  else .fin (decide (a.val < 0)) a.val.natAbs lsb

/-- Row r, column c of a tile of a stream. -/
def Stream.elem (s : Stream) (m : SMap Byte) (lsb : Int) (w tile r c : Nat) : FVal :=
  let (j, i) := if s.transpose then (c, r) else (r, c)
  let a := s.lineAddr w tile j
  if s.fmt = 10 then (accAt m a i).value lsb else elemAt m s.fmt a i

/-! ### Run descriptors (R413) -/

/-- A run descriptor. -/
structure RunDesc where
  kind   : Nat
  op     : Nat
  index  : Nat
  flags  : Nat
  kLen   : Nat
  accLsb : Int
  shift  : Int
  tiles  : Nat
  a      : Stream
  b      : Stream
  c      : Stream
  d      : Stream
  p0     : Nat
  p1     : Nat
  /-- Every reserved field is 0. -/
  clean  : Bool
  /-- MAGIC, VERSION and CRC are right (R414). -/
  intact : Bool
  deriving DecidableEq, Repr

def readRun (bs : List Byte) : RunDesc :=
  { kind := leAt bs 2 1, op := leAt bs 3 1, index := leAt bs 4 1, flags := leAt bs 5 1, kLen := leAt bs 6 2,
    accLsb := signedOf 8 (leAt bs 8 1), shift := signedOf 8 (leAt bs 9 1), tiles := leAt bs 12 4,
    a := readStream bs 16, b := readStream bs 40, c := readStream bs 64, d := readStream bs 88,
    p0 := leAt bs 112 4, p1 := leAt bs 116 4,
    clean := decide (leAt bs 10 2 = 0 ∧ leAt bs 120 4 = 0 ∧ leAt bs 5 1 / 2 = 0),
    intact := decide (bs.length = 128 ∧ leAt bs 0 1 = 0xC5 ∧ leAt bs 1 1 = 1 ∧ leAt bs 124 4 = crcOf crc32c (bs.take 124)) }

def RunDesc.relu (r : RunDesc) : Bool := r.flags.testBit 0

/-- Float operations that use B, and C (R421). -/
def floatUsesB (op : Nat) : Bool := [1, 2, 3, 4, 5, 6, 0x11, 0x12, 0x15, 0x17].contains op
def floatUsesC (r : RunDesc) : Bool := [4, 0x12, 0x17].contains r.op || (decide (r.op = 0x15) && r.c.valid)
def floatRowOp (op : Nat) : Bool := decide (0x13 ≤ op ∧ op ≤ 0x17)
/-- Row operations that give one value for each row. -/
def floatScalarRow (op : Nat) : Bool := decide (0x13 ≤ op ∧ op ≤ 0x15)

/-- The input streams that a run uses. -/
def RunDesc.inputs (r : RunDesc) : List Stream :=
  match r.kind with
  | 1 => if r.op = 1 then [r.a] else if r.op = 2 then [] else [r.a, r.b]
  | 2 => if r.c.valid then [r.a, r.b, r.c] else [r.a, r.b]
  | _ => r.a :: ((if floatUsesB r.op then [r.b] else []) ++ (if floatUsesC r then [r.c] else []))

def RunDesc.streams (r : RunDesc) : List Stream := r.inputs ++ [r.d]

/-- Tiles that a run processes: 0 in a window program means the job's dies (R413). -/
def RunDesc.count (r : RunDesc) (dies : Nat) : Nat := if r.tiles = 0 then dies else r.tiles

/-- The lowest and the highest byte that a stream may touch (R415, R436). -/
def Stream.span (s : Stream) (tiles : Nat) : Nat × Nat :=
  let top := if s.wring then 63 else s.lines - 1
  (s.addr, s.addr + (tiles - 1) * s.tile + top * s.line + (s.lineBytes - 1))

def spansMeet (x y : Nat × Nat) : Bool := decide (x.1 ≤ y.2 ∧ y.1 ≤ x.2)

/-! ### Checks (R411 to R419) -/

def Stream.shapeBad (s : Stream) (program : Bool) : Bool :=
  s.reserved || decide (s.fmt = 0 ∨ 10 < s.fmt) || decide (s.rows = 0 ∨ 32768 < s.rows) || decide (s.cols = 0 ∨ 32768 < s.cols) ||
  (isMx s.fmt && decide (s.lineLen % 32 ≠ 0)) || (s.wring && (s.transpose || decide (64 < s.rows) || !program))

def sameShape (x y : Stream) : Bool := decide (x.rows = y.rows ∧ x.cols = y.cols)

/-- The formats that R419 pairs: 0 for none, else 1, 2, 3 for the FP8 and MX, BF16 and INT8 rows. -/
def pairClass (x y : Nat) : Nat :=
  if (isFp8 x || isMx x) && (isFp8 y || isMx y) then 1
  else if x = 6 ∧ y = 6 then 2
  else if x = 7 ∧ y = 7 then 3 else 0

def trowelBad (r : RunDesc) : Bool :=
  decide (r.op ≠ 1) || decide (r.kLen = 0 ∨ 32768 < r.kLen) || decide (r.accLsb < -96 ∨ 32 < r.accLsb) ||
  decide (64 < r.a.rows ∨ r.a.cols ≠ r.kLen ∨ r.b.rows ≠ r.kLen ∨ 64 < r.b.cols ∨ r.d.rows ≠ r.a.rows ∨ r.d.cols ≠ r.b.cols) ||
  (r.c.valid && (decide (r.c.rows ≠ r.a.rows ∨ r.c.cols ≠ r.b.cols) || !([8, 10].contains r.c.fmt))) ||
  decide (pairClass r.a.fmt r.b.fmt = 0) || !([1, 2, 3, 4, 6, 7, 8, 9, 10].contains r.d.fmt) ||
  (isMx r.a.fmt && r.a.transpose) || (isMx r.b.fmt && !r.b.transpose)

def floatBad (r : RunDesc) : Bool :=
  let like (s : Stream) : Bool := sameShape s r.a || (decide (r.op = 0x17) && decide (s.rows = 1 ∧ s.cols = r.a.cols))
  decide (r.op = 0 ∨ 0x17 < r.op) || decide (r.kLen ≠ 0) || decide (r.flags ≠ 0) || decide (r.d.fmt = 10) ||
  (floatUsesB r.op && !like r.b) ||
  (floatUsesC r && decide (r.op ≠ 0x15) && !like r.c) ||
  (if floatScalarRow r.op then decide (r.d.rows ≠ r.a.rows ∨ r.d.cols ≠ 1) else !sameShape r.d r.a) ||
  (floatRowOp r.op && r.streams.any fun s => decide (256 < s.cols))

def hawkBad (r : RunDesc) : Bool :=
  decide (r.op = 0 ∨ 3 < r.op) || decide (r.kLen ≠ 0) || decide (r.flags ≠ 0) ||
  (decide (r.op = 1) && (decide (r.a.fmt ≠ r.d.fmt) || !sameShape r.a r.d || (r.a.transpose != r.d.transpose))) ||
  (decide (r.op = 3) && (r.a.transpose || r.d.transpose || decide (r.b.fmt ≠ 9) || decide (r.a.fmt ≠ r.d.fmt) ||
    decide (r.a.cols ≠ r.d.cols) || decide (r.b.rows * r.b.cols < r.d.rows)))

/-- The run writes over its own input in place (R416). -/
def inPlace (r : RunDesc) : Bool :=
  decide (r.kind = 3) && !floatRowOp r.op && decide (r.d.addr = r.a.addr ∧ r.d.fmt = r.a.fmt ∧ r.d.line = r.a.line ∧ r.d.tile = r.a.tile) &&
  sameShape r.d r.a && (r.d.transpose == r.a.transpose) && (r.d.wring == r.a.wring)

/-- A line of a stream's tiles holds a byte of [lo, hi] in window `w` (R409, R412). -/
def Stream.touches (s : Stream) (tiles w lo hi : Nat) : Bool :=
  (List.range s.lines).any fun j =>
    let a := s.lineAddr w 0 j
    let top := a + (s.lineBytes - 1)
    decide (a ≤ hi) && (if s.tile = 0 then decide (lo ≤ top) else decide (ceilDiv (lo - top) s.tile < tiles ∧ ceilDiv (lo - top) s.tile ≤ (hi - a) / s.tile))

/-- Two streams of a run share a byte in window `w`. -/
def Stream.meets (d s : Stream) (tiles w : Nat) : Bool :=
  (List.range tiles).any fun t => (List.range d.lines).any fun j =>
    s.touches tiles w (d.lineAddr w t j) (d.lineAddr w t j + (d.lineBytes - 1))

/-- The output shares a byte with an input (R416); a ring's lines are those of the window, which count modulo 64. -/
def overlapBad (r : RunDesc) (tiles : Nat) : Bool :=
  let others := if inPlace r then r.inputs.drop 1 else r.inputs
  others.any fun s => spansMeet (r.d.span tiles) (s.span tiles) &&
    ((if r.d.wring || s.wring then List.range 64 else [0]).any fun w => r.d.meets s tiles w)

/-- The BAD_PARAM checks of one descriptor. -/
def RunDesc.bad (r : RunDesc) (program : Bool) (dies : Nat) : Bool :=
  !r.clean || decide (r.kind = 0 ∨ 3 < r.kind) || decide (r.shift < -64 ∨ 63 < r.shift) || decide (16777216 < r.tiles) ||
  (!program && decide (r.tiles = 0)) || r.streams.any (fun s => !s.valid || s.shapeBad program) ||
  (match r.kind with | 1 => hawkBad r | 2 => trowelBad r | _ => floatBad r) || overlapBad r (r.count dies)

/-- The first address of a range that no area holds (R415, R535). -/
def firstOutside (areas : List (Nat × Nat)) (lo hi : Nat) : Option Nat :=
  match areas.find? fun a => decide (a.1 ≤ lo ∧ lo < a.1 + a.2) with
  | none => some lo
  | some a => if hi < a.1 + a.2 then none else some (a.1 + a.2)

/-- The first address outside that a run touches; `bars` are ranges it must not touch (R403, R415). -/
def RunDesc.outside (r : RunDesc) (areas bars : List (Nat × Nat)) (dies : Nat) : Option Nat :=
  r.streams.findSome? fun s =>
    let (lo, hi) := s.span (r.count dies)
    match bars.find? fun b => decide (b.1 ≤ hi ∧ lo < b.1 + b.2) with
    | some b => some (max lo b.1)
    | none => firstOutside areas lo hi

/-! ### The exact accumulator (R425 to R428) -/

/-- One finite term on the grid (R426). -/
def Acc.addTerm (a : Acc) (lsb : Int) (t : FVal) : Acc :=
  match t with
  | .nan => { a with isNan := true }
  | .inf n => if n then { a with negInf := true } else { a with posInf := true }
  | .fin n m e =>
    let s := e - lsb
    let q := roundShift m s false
    let exact := decide (0 ≤ s) || decide (m % pow2i (-s) = 0)
    let big := decide (2 ^ 80 ≤ q)
    let q := if big then 2 ^ 80 - 1 else q
    { a with val := a.val + sgn n q, rounded := a.rounded || !exact, clamped := a.clamped || big, term := a.term || big }

/-- C in ACC96 is added as it stands (R426). -/
def Acc.join (a b : Acc) : Acc :=
  { val := a.val + b.val, posInf := a.posInf || b.posInf, negInf := a.negInf || b.negInf, isNan := a.isNan || b.isNan,
    rounded := a.rounded || b.rounded, clamped := a.clamped || b.clamped, term := a.term || b.term }

/-- The exact sum of a list of values. -/
def sumX (vs : List FVal) : FVal := vs.foldl FVal.addX (.fin false 0 0)

/-- The terms of one output element (R425): one for each k, or one for each block of 32 where a format is an MX format. -/
def termsOf (mx : Bool) (xs : List FVal) : Nat → List FVal
  | 0 => []
  | n + 1 =>
    if mx then
      match xs with
      | [] => []
      | _ => sumX (xs.take 32) :: termsOf mx (xs.drop 32) n
    else xs

/-- One output element of MATMUL (R419, R425). -/
def matElem (r : RunDesc) (m : SMap Byte) (w t i j : Nat) : Acc :=
  let ps := (List.range r.kLen).map fun k => (r.a.elem m r.accLsb w t i k).mulX (r.b.elem m r.accLsb w t k j)
  let acc := (termsOf (isMx r.a.fmt || isMx r.b.fmt) ps r.kLen).foldl (fun a x => a.addTerm r.accLsb x) {}
  if r.c.valid then
    let (l, x) := if r.c.transpose then (j, i) else (i, j)
    if r.c.fmt = 10 then acc.join (accAt m (r.c.lineAddr w t l) x) else acc.addTerm r.accLsb (r.c.elem m r.accLsb w t i j)
  else acc

/-- RELU_OUT (R420): below zero becomes +0; NaN stays. -/
def Acc.reluOut (a : Acc) : Acc :=
  if a.isNan || (a.posInf && a.negInf) then a
  else if a.negInf then { a with negInf := false, val := 0 }
  else if a.posInf then a
  else if a.val < 0 then { a with val := 0 } else a

/-- The final range of an ACC96 output (R427). -/
def Acc.saturate (a : Acc) : Acc :=
  if 2 ^ 95 ≤ a.val.natAbs then { a with val := if a.val < 0 then -(2 ^ 95 - 1 : Int) else 2 ^ 95 - 1, clamped := true } else a

def Acc.bytes (a : Acc) : List Byte :=
  leBytes 12 (twos 96 a.val) ++ leBytes 1 (b2n a.posInf + 2 * b2n a.negInf + 4 * b2n a.isNan + 8 * b2n a.rounded + 16 * b2n a.clamped) ++ zeros 3

/-! ### Output lines -/

def RunFlags.or (a b : RunFlags) : RunFlags :=
  { rounded := a.rounded || b.rounded, clamped := a.clamped || b.clamped, outSat := a.outSat || b.outSat, idxRange := a.idxRange || b.idxRange, term := a.term || b.term }

/-- Cut a list into blocks of n. -/
def blocksOf {α : Type} (n : Nat) : Nat → List α → List (List α)
  | 0, _ => []
  | f + 1, l => if l.isEmpty then [] else l.take n :: blocksOf n f (l.drop n)

/-- The stored bytes of a line of values in a format (R430, R431). -/
def lineOf (fmt : Nat) (shift : Int) (vs : List FVal) : List Byte × Bool :=
  if isMx fmt then
    let bs := (blocksOf 32 vs.length vs).map fun b =>
      let (s, es, sat) := mxBlock fmt b
      (leBytes 1 s ++ (if fmt = 5 then (blocksOf 2 16 es).flatMap fun (p : List Nat) => leBytes 1 (p.headD 0 + 16 * (p.drop 1).headD 0)
                       else es.flatMap (leBytes 1)), sat)
    (bs.flatMap (·.1), bs.any (·.2))
  else
    let (n, f) : Nat × (FVal → Conv) := match fmt with
      | 1 => (1, convE4M3) | 2 => (1, convE5M2) | 6 => (2, convBf16) | 7 => (1, convInt 8 shift)
      | 9 => (4, convInt 32 shift) | _ => (4, conv32)
    let cs := vs.map f
    (cs.flatMap fun c => leBytes n c.bits, cs.any (·.sat))

/-- One tile's output: each line's address and bytes, in ascending line order. -/
abbrev TileOut := List (Nat × List Byte) × RunFlags

/-- Row and column of element i of line j. -/
def lineElem (s : Stream) (j i : Nat) : Nat × Nat := if s.transpose then (i, j) else (j, i)

/-- A tile of values written through D. -/
def valueTile (r : RunDesc) (w t : Nat) (f : Nat → Nat → FVal) (fl : RunFlags) : TileOut :=
  let ls := (List.range r.d.lines).map fun j =>
    let (bs, sat) := lineOf r.d.fmt r.shift ((List.range r.d.lineLen).map fun i => let (x, y) := lineElem r.d j i; f x y)
    (r.d.lineAddr w t j, bs, sat)
  (ls.map fun l => (l.1, l.2.1), { fl with outSat := fl.outSat || ls.any (·.2.2) })

/-- A tile of a MATMUL (R419, R420, R430). -/
def trowelTile (r : RunDesc) (m : SMap Byte) (w t : Nat) : TileOut :=
  let accs := (List.range r.d.rows).map fun i => (List.range r.d.cols).map fun j => matElem r m w t i j
  let accOf (i j : Nat) : Acc := (accs.getD i []).getD j {}
  let post (a : Acc) : Acc := if r.relu then a.reluOut else a
  let fl : RunFlags := { rounded := accs.any (·.any (·.rounded)), clamped := accs.any (·.any (·.clamped)), term := accs.any (·.any (·.term)) }
  if r.d.fmt = 10 then
    let sat (i j : Nat) : Acc := (post (accOf i j)).saturate
    ((List.range r.d.lines).map fun j => (r.d.lineAddr w t j, (List.range r.d.lineLen).flatMap fun i => let (x, y) := lineElem r.d j i; (sat x y).bytes),
     { fl with clamped := fl.clamped || (List.range r.d.rows).any fun i => (List.range r.d.cols).any fun j => (sat i j).clamped })
  else valueTile r w t (fun i j => (post (accOf i j)).value r.accLsb) fl

/-- An elementwise Float operation (R421). -/
def floatElem (r : RunDesc) (a b c : FVal) : FVal :=
  match r.op with
  | 0x01 => add32 a b | 0x02 => sub32 a b | 0x03 => mul32 a b | 0x04 => fma32 a b c
  | 0x05 => a.minF b | 0x06 => a.maxF b | 0x07 => fma32 a (dec32 r.p0) (dec32 r.p1)
  | 0x08 => if a.lt (.fin false 0 0) then .fin false 0 0 else a
  | 0x0A => a.exp232 | 0x0B => a.log232 | 0x0C => a.rcp32 | 0x0D => a.rsqrt32 | 0x0E => a.sqrt32
  | 0x0F => sigmoid32 a | 0x10 => tanh32 a
  | 0x11 => if a.lt b then one32 else .fin false 0 0
  | 0x12 => if a.isZero || a.isNan then c else b
  | _ => a

/-- A row operation on one row (R421, R422). -/
def floatRow (r : RunDesc) (as bs cs : List FVal) (c0 : FVal) : List FVal :=
  let maxOf (xs : List FVal) : FVal := match xs with | [] => .nan | x :: t => t.foldl FVal.maxF x
  match r.op with
  | 0x13 => [reduce256 as]
  | 0x14 => [maxOf as]
  | 0x15 => let s := reduce256 (as.zipWith mul32 bs); [if r.c.valid then add32 s c0 else s]
  | 0x16 =>
    let m := maxOf as
    let e := as.map fun x => (mul32 (sub32 x m) log2e).exp232
    let k := (reduce256 e).rcp32
    e.map fun x => mul32 x k
  | _ =>
    let k := (round32 (ofNat as.length)).rcp32
    let mu := mul32 (reduce256 as) k
    let d := as.map fun x => sub32 x mu
    let v := mul32 (reduce256 (d.map fun x => mul32 x x)) k
    let s := (add32 v (dec32 r.p0)).rsqrt32
    (d.zip (bs.zip cs)).map fun x => fma32 (mul32 x.1 s) x.2.1 x.2.2

/-- A tile of a Float run: inputs first become binary32 (R421). -/
def floatTile (r : RunDesc) (m : SMap Byte) (w t : Nat) : TileOut :=
  let el (s : Stream) (i j : Nat) : FVal := round32 (s.elem m r.accLsb w t (if s.rows = 1 then 0 else i) j)
  if floatRowOp r.op then
    let row (i : Nat) : List FVal :=
      let cols := List.range r.a.cols
      floatRow r (cols.map (el r.a i)) (if floatUsesB r.op then cols.map (el r.b i) else [])
        (if r.op = 0x17 then cols.map (el r.c i) else []) (if floatUsesC r then el r.c 0 0 else .nan)
    let rows := (List.range r.a.rows).map row
    valueTile r w t (fun i j => (rows.getD i []).getD j .nan) {}
  else
    valueTile r w t (fun i j => floatElem r (el r.a i j) (if floatUsesB r.op then el r.b i j else .nan) (if floatUsesC r then el r.c i j else .nan)) {}

/-- Words repeated to a length in bytes. -/
def wordsFill (v n : Nat) : List Byte := ((List.replicate (ceilDiv n 4) (leBytes 4 v)).flatten).take n

/-- A tile of a Hawk run (R417, R418). -/
def hawkTile (r : RunDesc) (m : SMap Byte) (w t : Nat) : TileOut :=
  match r.op with
  | 1 => ((List.range r.d.lines).map fun j => (r.d.lineAddr w t j, mread m (r.a.lineAddr w t j) r.d.lineBytes), {})
  | 2 => ((List.range r.d.lines).map fun j => (r.d.lineAddr w t j, wordsFill r.p0 r.d.lineBytes), {})
  | _ =>
    let idx (j : Nat) : Int :=
      let (x, y) := if r.b.cols = 1 then (j, 0) else (j / r.b.cols, j % r.b.cols)
      let (l, i) := if r.b.transpose then (y, x) else (x, y)
      signedOf 32 (mreadNat m (r.b.lineAddr w t l + 4 * i) 4)
    let badIdx (j : Nat) : Bool := decide (idx j < 0 ∨ (r.a.rows : Int) ≤ idx j)
    let fill := if r.d.fmt = 8 then wordsFill 0x7FC00000 r.d.lineBytes else zeros r.d.lineBytes
    ((List.range r.d.rows).map fun j => (r.d.lineAddr w t j, if badIdx j then fill else mread m (r.a.lineAddr w t (idx j).toNat) r.d.lineBytes),
     { idxRange := (List.range r.d.rows).any badIdx })

def runTile (r : RunDesc) (m : SMap Byte) (w t : Nat) : TileOut :=
  match r.kind with | 1 => hawkTile r m w t | 2 => trowelTile r m w t | _ => floatTile r m w t

/-- What a run leaves: how far it has come, and memory. -/
structure RunState extends RunPart where
  mem : SMap Byte
  deriving DecidableEq, Repr

/-- One tile of a run. -/
def RunState.tile (s : RunState) (r : RunDesc) (w t : Nat) : RunState :=
  let (ls, fl) := runTile r s.mem w t
  { mem := ls.foldl (fun m l => mwrite m l.1 l.2) s.mem, flags := s.flags.or fl, crc := ls.foldl (fun c l => crcRun crc64ecma c l.2) s.crc,
    done := s.done + 1 }

/-- A run goes on from where it stood up to its tile `n`, in ascending order. -/
def runFrom (r : RunDesc) (w n : Nat) (p : RunPart) (m : SMap Byte) : RunState :=
  (List.range (n - p.done)).foldl (fun s t => s.tile r w (p.done + t)) { p with mem := m }

/-- The first `n` tiles of a run. -/
def runTiles (r : RunDesc) (w n : Nat) (m : SMap Byte) : RunState := runFrom r w n {} m

/-- OUT_DIGEST (R435). -/
def RunPart.digest (s : RunPart) : Nat := crcResult crc64ecma s.crc

/-! ### Cycle counts (R433) -/

/-- Twice the rate factor of a format pair (R419). -/
def rate2 (x y : Nat) : Nat :=
  match pairClass x y with
  | 2 => 1
  | 3 => 4
  | _ => if x = 5 ∧ y = 5 then 4 else 2

def Stream.tileBytes (s : Stream) : Nat := s.lines * s.lineBytes

/-- Cost of one tile of a Float run (R421). -/
def floatCost (r : RunDesc) : Nat :=
  let n := r.a.rows * r.a.cols
  let per (k : Nat) : Nat := ceilDiv (k * n) 256
  match r.op with
  | 0x0A => per 4 | 0x0B => per 4 | 0x0C => per 4 | 0x0D => per 4 | 0x0E => per 4
  | 0x0F => per 10 | 0x10 => per 12
  | 0x13 => r.a.rows | 0x14 => r.a.rows | 0x15 => r.a.rows
  | 0x16 => ceilDiv (3 * r.a.rows * 256 + 7 * n) 256
  | 0x17 => ceilDiv (4 * r.a.rows * 256 + 6 * n) 256
  | _ => per 1

/-- The cycle count of a run for admission and capacity (R433). -/
def RunDesc.cycles (r : RunDesc) (dies : Nat) : Nat :=
  let n := r.count dies
  match r.kind with
  | 1 => 40 + ceilDiv (n * r.d.tileBytes) 256
  | 2 =>
    let bytes := (r.inputs.map fun s => if s.tile = 0 ∧ s.tileBytes ≤ 131072 then 0 else s.tileBytes).sum
    80 + n * max (max (ceilDiv (2 * r.kLen) (rate2 r.a.fmt r.b.fmt)) 64) (ceilDiv bytes 256)
  | _ => 24 + n * floatCost r

end Sys2Proof.Machine
end

