-- ==== Sys2Proof/Machine/Stations.lean ====
section
/-!
DEFINITION. Stations.lean: chains of runs, window programs, STATION_RUN and the test of stations: R401 to R448 of spec/11_stations.md and
R640 of spec/17_power.md.
-/
namespace Sys2Proof.Machine

/-! ### Stations (R401, R439, R447, R449) -/

/-- Stations or movers of a kind that the variant builds (R401). -/
def Agg.builtOf (g : Agg) (kind : Nat) : Nat :=
  match kind with
  | 1 => 4 | 2 => g.trowels | 3 => g.floats | 4 => 1 | 5 => 1 | 6 => 1
  | _ => 0

def Agg.station (g : Agg) (kind k : Nat) : Station :=
  if h : k < 24 then (if kind = 2 then g.stn.trowels[k] else if kind = 3 then g.stn.floats[k] else {}) else {}

/-- AGG_STN_SVC and AGG_STN_INFO follow a station. -/
def Agg.showStation (g : Agg) (kind k : Nat) : Agg :=
  let x := g.station kind k
  let b := if kind = 2 then 0x60100 else 0x60200
  (g.setBit (if kind = 2 then 0x60000 else 0x60004) k (decide (x.state ≠ 3))).setRegN (b + 4 * (k % 24))
    (x.state + 256 * x.fails + 65536 * min 65535 (g.life - x.lastPass))

def Agg.modStation (g : Agg) (kind k : Nat) (f : Station → Station) : Agg :=
  if h : k < 24 then
    let g := if kind = 2 then { g with stn := { g.stn with trowels := g.stn.trowels.set k (f g.stn.trowels[k]) } }
      else if kind = 3 then { g with stn := { g.stn with floats := g.stn.floats.set k (f g.stn.floats[k]) } } else g
    if kind = 2 ∨ kind = 3 then g.showStation kind k else g
  else g

/-- Stations of a kind in service and not under test, in ascending number (R439). -/
def Agg.stationList (g : Agg) (kind : Nat) : List Nat := (List.range (g.builtOf kind)).filter fun k => decide ((g.station kind k).state = 0)

/-- A station executes a run. -/
def Agg.stationBusy (g : Agg) (kind k : Nat) : Bool :=
  g.stn.runs.any fun r => decide (r.station = some k) && decide ((readRun (r.descs.getD r.idx [])).kind = kind)

/-! ### Chains in progress (R406, R436 to R442) -/

def RunJob.desc (r : RunJob) : RunDesc := readRun (r.descs.getD r.idx [])
def RunJob.isProgram (r : RunJob) : Bool := match r.who with | .program _ => true | .command _ _ => false

/-- Ranges that a run may touch: its output, and all of them (R436). -/
def RunDesc.outSpan (d : RunDesc) (dies : Nat) : Nat × Nat := d.d.span (d.count dies)
def RunDesc.allSpans (d : RunDesc) (dies : Nat) : List (Nat × Nat) := d.streams.map fun s => s.span (d.count dies)

/-- A run waits for one admitted earlier from the same context (R436). -/
def Agg.overlapsEarlier (g : Agg) (r : RunJob) : Bool :=
  let dies := (g.job r.ctx).dies.length
  let mine := r.desc.outSpan dies
  (g.stn.runs.takeWhile fun x => !decide (x.who = r.who)).any fun x =>
    decide (x.ctx = r.ctx) && ((x.descs.drop x.idx).flatMap fun d => (readRun d).allSpans dies).any (spansMeet mine)

/-- The station that the present run takes, if one may take it now (R439, R440). -/
def Agg.pickStation (g : Agg) (r : RunJob) : Option Nat :=
  let d := r.desc
  let l := g.stationList d.kind
  if r.isProgram then l[(r.window + r.idx + b2n r.retried) % max 1 l.length]?
  else if d.index = 0xFF then l.find? fun k => !g.stationBusy d.kind k
  else if l.contains d.index && !g.stationBusy d.kind d.index then some d.index else none

def Agg.putRun (g : Agg) (r : RunJob) : Agg :=
  { g with stn := { g.stn with runs := g.stn.runs.map fun (x : RunJob) => if x.who = r.who then r else x } }
def Agg.dropRun (g : Agg) (w : RunRef) : Agg := { g with stn := { g.stn with runs := g.stn.runs.filter fun (x : RunJob) => !decide (x.who = w) } }

/-- A run does its tiles up to a boundary. -/
def Agg.runPart (g : Agg) (r : RunJob) (n : Nat) : Agg :=
  let s := runFrom r.desc r.window n r.part g.mem
  { g with mem := s.mem }.putRun { r with part := s.toRunPart }

/-- Runs that stand on a station. -/
def Agg.runsOn (g : Agg) (kind k : Nat) : List RunJob := g.stn.runs.filter fun r => decide (r.station = some k ∧ r.desc.kind = kind)

/-- A run takes a station. A one-off run on it yields to a program's run at its next tile boundary, and keeps what it has done; in its last
tile, it completes first (R437). Which tile it is in is a free value (notes/assumptions/140.md). -/
def Agg.takeStation (g : Agg) (r : RunJob) (k : Nat) : Agg :=
  let on := g.runsOn r.desc.kind k
  match on.find? fun x => !x.isProgram with
  | none => g.putRun { r with station := some k }
  | some x =>
    if on.any (·.isProgram) then g.putRun { r with station := some k, held := on.any (·.held) }
    else
      let n := x.desc.count (g.job x.ctx).dies.length
      let b := x.part.done + Config.freeTile g.stn.yields % (n + 1 - x.part.done)
      let g := { g with stn := { g.stn with yields := g.stn.yields + 1 } }
      if b = n then g.putRun { r with station := some k, held := true } else (g.runPart x b).putRun { r with station := some k }

/-- A run on a station has it for itself: no program's run keeps a one-off run off it, and no last tile holds a program's run back (R437). -/
def Agg.hasStation (g : Agg) (r : RunJob) (k : Nat) : Bool :=
  let on := g.runsOn r.desc.kind k
  if r.isProgram then !(r.held && on.any fun x => !x.isProgram) else !on.any fun x => x.isProgram && !x.held

/-- Start one run where nothing holds it back. -/
def Agg.startRun (g : Agg) (r : RunJob) : Agg :=
  match g.stn.runs.find? fun x => decide (x.who = r.who) with
  | none => g
  | some r =>
    if r.station.isSome || g.overlapsEarlier r then g
    else match g.pickStation r with
      | some k => g.takeStation r k
      | none => g

/-- Start every present run that nothing holds back. -/
def Agg.startRuns (g : Agg) : Agg := g.stn.runs.foldl Agg.startRun g

/-! ### The window program (R405 to R407, R438 to R441, R640) -/

/-- Windows as (base, length). -/
def asAreas (l : List (Nat × Nat)) : List (Nat × Nat) := l.map fun a => (a.1, a.2 - a.1)

/-- Every score of a window becomes 0x7FC0_0000 (R407). -/
def Agg.clearScores (g : Agg) (n w : Nat) : Agg :=
  let j := g.job n
  (List.range 8).foldl (fun g k => g.write ((j.modelAt w).base 1 + 256 * k) ((List.replicate j.dies.length (leBytes 4 qNan)).flatten)) g

/-- Scores of a position as the score area holds them. -/
def Agg.scoresOf (g : Agg) (n w t : Nat) : List Nat := (List.range 8).map fun k => g.readNat (((g.job n).modelAt w).base 1 + 256 * k + 4 * t) 4

def Agg.setStage (g : Agg) (n w : Nat) (st : WinStage) (fail : Bool) : Agg :=
  g.modScore n fun s => { s with wins := s.wins.map fun (x : WinState) => if x.window = w then { x with stage := st, failed := x.failed || fail } else x,
                                 dieWins := s.dieWins.map fun (x : DieWin) => if x.window = w then { x with failed := x.failed || fail } else x }

/-- The Level station reads the scores of a window whose program is complete (R407). -/
def Agg.readScores (g : Agg) (n w : Nat) : Agg :=
  g.modScore n fun s => { s with dieWins := s.dieWins.map fun (x : DieWin) => if x.window = w then { x with scores := g.scoresOf n w x.pos } else x }

/-- A window program ends (R440). -/
def Agg.programEnd (g : Agg) (r : RunJob) (fail : Bool) : Agg :=
  let g := g.dropRun r.who
  let g := if fail then (g.clearScores r.ctx r.window).flag (stnFlag 6) else g
  ((g.setStage r.ctx r.window .programmed fail).readScores r.ctx r.window).startRuns

/-- WINDOW_PROGRAM_START (R406): the oldest window whose feature build is complete, once the windows before it have been coded. With dies that
came after the load, a run may touch bytes outside the job's areas: the program then runs nothing (R414, R415; DESIGN CHOICE,
notes/assumptions/140.md). -/
def Agg.programStart (g : Agg) (n : Nat) : Agg :=
  let s := g.score n
  match s.wins.find? fun x => decide (x.stage = .built) with
  | none => g
  | some x =>
    if !g.fwRuns || s.wins.any fun y => decide (y.stage = .running ∨ y.stage = .programmed) then g
    else
      let prog := ((g.job n).modelAt x.window).program
      let g := g.clearScores n x.window
      if prog.isEmpty then (g.setStage n x.window .programmed false).readScores n x.window
      else
        let r : RunJob := { who := .program (Fin.ofNat 17 n), ctx := n, window := x.window, descs := prog }
        match prog.findSome? fun d => (readRun d).outside (asAreas (g.jobAreas n)) [] (g.job n).dies.length with
        | some a => (g.violation n 0x40 (statusCode .access) 0 0 a).programEnd r true
        | none => ({ g.setStage n x.window .running false with stn := { g.stn with runs := g.stn.runs ++ [r] } }).startRuns

/-- A run-log entry (R441). -/
def logEntry (run kind station flags cycles digest : Nat) : List Byte :=
  leBytes 1 run ++ leBytes 1 kind ++ leBytes 1 station ++ leBytes 1 flags ++ leBytes 4 cycles ++ leBytes 8 digest

/-- Put an entry into the run log of a window; a run that is started again has one entry. The log is in the order of the windows, and its
oldest window goes. -/
def Agg.logRun (g : Agg) (n w run : Nat) (e : List Byte) : Agg :=
  g.modScore n fun s =>
    let old := ((s.runLog.find? (·.1 = w)).map (·.2)).getD []
    let l := (s.runLog.filter fun x => decide (x.1 < w)) ++ (w, old.take run ++ [e] ++ old.drop (run + 1)) :: s.runLog.filter fun x => decide (w < x.1)
    { s with runLog := l.drop (l.length - 64) }

/-- SCORING_SKIP (R640). -/
def Agg.scoringSkip (g : Agg) (n : Nat) : Agg :=
  match (g.score n).wins.find? fun x => decide (x.stage = .built) with
  | none => g
  | some x =>
    if !g.fwRuns || decide ((g.score n).nextCut < x.window + 32) then g
    else
      let prog := ((g.job n).modelAt x.window).program
      let g := (prog.zip (List.range prog.length)).foldl
        (fun g p => g.logRun n x.window p.2 (logEntry p.2 (readRun p.1).kind 0xFF 32 0 0)) g
      (g.setStage n x.window .scored true).modScore n fun s =>
        { s with dieWins := s.dieWins.map fun (y : DieWin) => if y.window = x.window then { y with scores := List.replicate 8 qNan } else y }

/-! ### The end of a run (R404, R435, R440 to R444) -/

def runFlagBits (f : RunFlags) : Nat := b2n f.rounded + 2 * b2n f.clamped + 4 * b2n f.outSat + 8 * b2n f.idxRange

/-- Results of a STATION_RUN (R443). -/
def runResults (run kind station tiles cycles flags digest : Nat) : List (Nat × Nat) :=
  [(7, run), (8, 32 * kind + station % 32), (24, tiles % 2 ^ 24), (32, cycles), (8, flags), (64, digest)]

/-- Counters of one run (R554). -/
def Agg.countRun (g : Agg) (ctx : Nat) (d : RunDesc) (dies cycles : Nat) : Agg :=
  let g := g.count ctx 15 1
  match d.kind with
  | 1 => g.count ctx 18 (d.count dies * d.d.tileBytes)
  | 2 => g.count ctx 16 cycles
  | _ => g.count ctx 17 cycles

/-- A station is due for test at once (R513). -/
def Agg.dueForTest (g : Agg) (kind k : Nat) : Agg := g.modStation kind k fun x => { x with due := true }

def Agg.sandOn (g : Agg) : Bool := g.bit 0x60020 16
def Agg.sandInterval (g : Agg) : Nat := g.fld 0x60020 15 0

/-- A station is under test or retest. -/
def Agg.anyUnderTest (g : Agg) : Bool :=
  [2, 3].any fun kind => (List.range (g.builtOf kind)).any fun k => decide ((g.station kind k).state = 1 ∨ (g.station kind k).state = 2)

/-- Work of a station that is taken moves to other stations (R446). -/
def Agg.moveRuns (g : Agg) (kind k : Nat) : Agg :=
  let free (r : RunJob) : RunJob := if r.station = some k ∧ r.desc.kind = kind then { r with station := none, held := false } else r
  ({ g with stn := { g.stn with runs := g.stn.runs.map free } }).startRuns

/-- A station that must be tested whatever work waits is taken now, at a tile boundary, or once no other station is under test (R440, R445).
DESIGN CHOICE (notes/assumptions/140.md): whether or not another station of its kind serves. -/
def Agg.takeForTest (g : Agg) (kind k : Nat) : Agg :=
  if (g.station kind k).state ≠ 0 then g
  else if g.anyUnderTest then g.modStation kind k fun x => { x with must := true }
  else (g.modStation kind k fun x => { x with state := if x.again then 2 else 1, must := false, again := false }).moveRuns kind k

/-- Once no station is under test, the first one that must be tested is taken. -/
def Agg.takeNext (g : Agg) : Agg :=
  match [2, 3].findSome? fun kind => ((List.range (g.builtOf kind)).find? fun k => (g.station kind k).must).map fun k => (kind, k) with
  | some x => if g.anyUnderTest then g else g.takeForTest x.1 x.2
  | none => g

/-- A station whose run ended with INTEGRITY is tested at its next tile boundary, which is now (R440). -/
def Agg.suspectStation (g : Agg) (kind k : Nat) : Agg :=
  let g := g.dueForTest kind k
  if g.sandOn ∧ (kind = 2 ∨ kind = 3) then g.takeForTest kind k else g

/-- The chain goes on with its next run, or ends. -/
def Agg.runNext (g : Agg) (r : RunJob) (res : List (Nat × Nat)) : Agg :=
  if r.idx + 1 < r.descs.length then
    (g.putRun { r with idx := r.idx + 1, station := none, retried := false, part := {}, held := false, last := res }).startRuns
  else match r.who with
    | .program _ => g.programEnd r false
    | .command ring tag => ((g.dropRun r.who).complete (ring.val, tag.toNat) 0x40 .ok res).startRuns

/-- A program's run that met an uncorrectable error on station k starts anew, on the next station of its kind where that is free (R440). -/
def Agg.retryRun (g : Agg) (r : RunJob) (k : Nat) : Agg :=
  let l := g.stationList r.desc.kind
  let r := { r with retried := true, station := none, held := false, part := {} }
  match (l.find? fun x => decide (k < x)).or l.head? with
  | some x => if x = k then g.putRun r else (g.putRun r).takeStation r x
  | none => g.putRun r

/-- RUN_COMPLETE (R406, R435, R440 to R443): the present run of a chain has taken `cycles`; `err` names the tile and the address of an
uncorrectable error in its input, and `corr` counts words corrected (R404). -/
def Agg.runComplete (g : Agg) (who : RunRef) (cycles corr : Nat) (err : Option (Nat × Nat)) : Agg :=
  match g.stn.runs.find? fun x => decide (x.who = who) with
  | none => g
  | some r =>
    match r.station with
    | none => g.startRuns
    | some k =>
      if !g.hasStation r k then g else
      let d := r.desc
      let dies := (g.job r.ctx).dies.length
      let n := d.count dies
      let rs := runFrom d r.window (match err with | some e => min e.1 n | none => n) r.part g.mem
      let g := { g with mem := rs.mem }
      let g := if corr = 0 then g else (g.inc 0x60030 corr).flag (stnFlag 2)
      let g := if rs.flags.term then g.flag (stnFlag 5) else g
      let g := g.countRun r.ctx d dies cycles
      let flags := runFlagBits rs.flags + 16 * b2n r.retried + 32 * b2n err.isSome
      let g := if r.isProgram then g.logRun r.ctx r.window r.idx (logEntry r.idx d.kind k flags cycles rs.toRunPart.digest) else g
      let res := runResults r.idx d.kind k rs.done cycles flags rs.toRunPart.digest
      match err with
      | none => g.runNext r res
      | some e =>
        let g := (g.setReg64 0x60028 (e.2 % 2 ^ 48)).flag (stnFlag 3)
        match who with
        | .command ring tag => (((g.dropRun who).complete (ring.val, tag.toNat) 0x40 .integrity res).suspectStation d.kind k).startRuns
        | .program _ =>
          if r.retried then (g.programEnd r true).suspectStation d.kind k
          else (((g.retryRun r k).suspectStation d.kind k).startRuns).flag (stnFlag 4)

/-- Runs of a context stop at their next tile boundary: `tiles` says after which (R444, R589). -/
def Agg.stopRuns (g : Agg) (n : Nat) (tiles : Nat → Nat) : Agg :=
  let rs := g.stn.runs.filter fun r => decide (r.ctx = n)
  (rs.zip (List.range rs.length)).foldl (fun g p =>
    let r := p.1
    let left := r.desc.count (g.job n).dies.length - r.part.done
    if r.station.isSome then g.runPart r (r.part.done + tiles p.2 % (left + 1)) else g) g

/-- Runs of a context go. -/
def Agg.dropRuns (g : Agg) (n : Nat) : Agg :=
  { g with stn := { g.stn with runs := g.stn.runs.filter fun (r : RunJob) => decide (r.ctx ≠ n) } }

/-- Results of a STATION_RUN that ends where it stands: those of the last run executed (R443, R444). CYCLES is free. -/
def Agg.abortResults (g : Agg) (w : Nat × Nat) (cycles : Nat) : List (Nat × Nat) :=
  match g.stn.runs.find? fun r => match r.who with | .command ring tag => decide ((ring.val, tag.toNat) = w) | .program _ => false with
  | none => []
  | some r =>
    match r.station with
    | some k => runResults r.idx r.desc.kind k r.part.done (cycles % 2 ^ 32) (runFlagBits r.part.flags) r.part.digest
    | none => if r.last.isEmpty then runResults 0 0 0 0 0 0 0 else r.last

/-! ### STATION_RUN (R414, R442) -/

/-- Checks of one descriptor of a one-off chain. -/
def Agg.descCodes (g : Agg) (d : RunDesc) : List Status :=
  failIf (decide (1 < d.kind) && g.isT) .notPresent ++
  failIf (decide (1 ≤ d.kind ∧ d.kind ≤ 3 ∧ d.index ≠ 0xFF) && decide (g.builtOf d.kind ≤ d.index)) .notPresent ++
  failIf (d.bad false 0) .badParam ++
  failIf ((List.range (g.builtOf d.kind)).all fun k => decide ((d.index ≠ 0xFF ∧ k ≠ d.index) ∨ (g.station d.kind k).state = 3)) .noResource

/-- STATION_RUN RUN. -/
def Agg.stationRun (g : Agg) (c : Caller) (addr count : Nat) : Agg :=
  let ring := c.ring.val
  let chainBad := g.outside ring addr (128 * count)
  let descs := (List.range count).map fun i => g.read (addr + 128 * i) 128
  let ds := descs.map readRun
  let readable := chainBad.isNone && decide (1 ≤ count ∧ count ≤ 64)
  let whole := readable && ds.all (·.intact)
  let streamBad := if whole then ds.findSome? fun d => d.outside (asAreas (g.windowsOf ring)) [] 0 else none
  let codes := failIf (decide (count = 0 ∨ 64 < count)) .badParam ++ (if whole then ds.flatMap g.descCodes else []) ++ g.notReady
  g.command c 0x40 codes (match chainBad with | some a => some a | none => streamBad) fun g =>
    if !whole then g.complete (who c) 0x40 .integrity []
    else
      let r : RunJob := { who := .command c.ring c.tag, ctx := ctxOf c, window := 0, descs := descs }
      ({ g with stn := { g.stn with runs := g.stn.runs ++ [r] } }).startRuns

/-- STATION_RUN KAT. The known-answer set and its results are not in the spec: `pass` says what the station does with it, and the other results
are free. With SOURCE 1, ring 0 names a job; a window program that is only pending is loaded too (R579). DESIGN CHOICE (notes/assumptions/140.md):
ring 0 that names none gets BAD_PARAM. -/
def Agg.stationKat (g : Agg) (c : Caller) (kind k : Nat) (own : Bool) (run : Nat) (pass : Bool) (cycles : Nat) (free : Nat → Nat) : Agg :=
  let j := g.job (ctxOf c)
  let active := (j.active.map (·.program)).getD []
  let prog := if active.isEmpty then (j.pending.map (·.program)).getD [] else active
  g.command c 0x40 (failIf (decide (g.builtOf kind = 0) || decide (k ≠ 0xFF) && decide (g.builtOf kind ≤ k)) .notPresent ++ failIf (decide (k = 0xFF) || own && decide (ctxOf c = 0)) .badParam ++
      failIf (own && prog.isEmpty) .conflict ++ failIf (own && !prog.isEmpty && decide (prog.length ≤ run)) .badParam ++ g.notReady) none
    fun g => g.done c 0x40 (runResults (if own then run else 0) kind k (free 0) cycles (free 2 % 16 + 64 * b2n pass) (free 1 % 2 ^ 64))

/-- STATION_RUN SERVICE. -/
def Agg.stationService (g : Agg) (c : Caller) (kind k : Nat) (inService : Bool) : Agg :=
  g.command c 0x40 (ring0Only c ++ failIf (decide (kind ≠ 2 ∧ kind ≠ 3)) .badParam ++ failIf (decide (g.builtOf kind ≤ k)) .notPresent ++ g.notReady)
    none fun g =>
    let x := g.station kind k
    let g := if inService then (if x.state = 3 then g.modStation kind k fun x => { x with state := 0, due := true } else g)
      else (g.modStation kind k fun x => { x with state := 3, must := false, again := false }).takeNext
    (g.startRuns).done c 0x40 (runResults 0 0 0 0 0 0 0)

/-- STATION_RUN STATUS. -/
def Agg.stationStatus (g : Agg) (c : Caller) (w dst : Nat) : Agg :=
  let n := ctxOf c
  let s := g.score n
  let log := ((s.runLog.find? (·.1 = w)).map (·.2)).getD []
  g.command c 0x40 (failIf (decide (n = 0)) .badParam ++ failIf (decide (w + 64 < s.nextCut)) .staleEpoch ++ g.notReady)
    (g.outside c.ring.val dst 256)
    fun g => (g.write dst (padTo 256 log.flatten)).done c 0x40 (runResults 0 0 0 0 0 0 0)

/-! ### Testing stations (R445 to R447) -/

/-- STATION_SAND_DUE (R445): a due station is idle at a tile boundary. -/
def Agg.stationDue (g : Agg) (kind k : Nat) : Agg :=
  let x := g.station kind k
  let due := x.due || decide (x.lastPass + g.sandInterval ≤ g.life)
  if decide ((kind = 2 ∨ kind = 3) ∧ k < g.builtOf kind ∧ x.state = 0) && g.fwRuns && g.sandOn && due && !g.anyUnderTest && !g.stationBusy kind k &&
      (g.stationList kind).any (· ≠ k) then
    g.modStation kind k fun x => { x with state := if x.again then 2 else 1, must := false, again := false }
  else g

/-- STATION_SAND_FORCE (R446): at twice the interval it is taken whatever work is queued. -/
def Agg.stationForce (g : Agg) (kind k : Nat) : Agg :=
  let x := g.station kind k
  if decide ((kind = 2 ∨ kind = 3) ∧ k < g.builtOf kind ∧ x.state = 0 ∧ x.lastPass + 2 * g.sandInterval ≤ g.life) && g.fwRuns && g.sandOn && !g.anyUnderTest then
    g.takeForTest kind k
  else g

/-- A station fails for good (R447, R513). -/
def Agg.stationOut (g : Agg) (kind k : Nat) : Agg :=
  ((g.modStation kind k fun x => { x with state := 3, due := false, must := false, again := false }).flag (stnFlag 0)).flag (stnFlag 1)

/-- STATION_TEST_RESULT (R447): the test of the station under test ends. -/
def Agg.stationTested (g : Agg) (kind k : Nat) (pass : Bool) : Agg :=
  let x := g.station kind k
  let passed (x : Station) : Station := { x with state := 0, lastPass := g.life, due := false }
  let failed (x : Station) : Station := { x with fails := min 255 (x.fails + 1) }
  if x.state = 1 then
    if pass then ((g.modStation kind k passed).startRuns).takeNext
    else (g.modStation kind k fun x => { x with state := 2 }).flag (stnFlag 0)
  else if x.state = 2 then
    if pass then ((g.modStation kind k fun x => passed (failed x)).startRuns).takeNext
    else (((g.modStation kind k fun x => failed (failed x)).stationOut kind k).startRuns).takeNext
  else g

end Sys2Proof.Machine
end

