-- ==== Sys2Proof/Machine/Stencil.lean ====
section
/-!
DEFINITION. Stencil.lean: rank coding, lookups, the Entity Table and the loading of ensembles: R456 to R479 of spec/12_stencil.md.
-/
namespace Sys2Proof.Machine

def Agg.withStencil (g : Agg) (f : StencilUnit → StencilUnit) : Agg := { g with stencil := f g.stencil }

def Agg.ensSlot (g : Agg) (n e : Nat) : EnsSlot := sget {} g.stencil.slots (4 * n + e)
def Agg.setEnsSlot (g : Agg) (n e : Nat) (x : EnsSlot) : Agg := g.withStencil fun u => { u with slots := sset {} u.slots (4 * n + e) x }

/-- The copy of a slot that a window is evaluated with (R478). -/
def EnsSlot.copyFor (s : EnsSlot) (w : Nat) : Option EnsCopy :=
  if s.since ≤ w then s.active else (s.old.find? fun c => decide (c.1 ≤ w)).bind (·.2)

/-- Put a change among those due, after all that are due no later. -/
def insertAct (x : Nat × Bool) : List (Nat × Bool) → List (Nat × Bool)
  | [] => [x]
  | y :: l => if x.1 < y.1 then x :: y :: l else y :: insertAct x l

/-- A change is scheduled; those scheduled before it stand (R477). -/
def EnsSlot.schedule (s : EnsSlot) (act : Nat) (unload : Bool) : EnsSlot := { s with acts := insertAct (act, unload) s.acts }

/-- The pending copy goes, and its activations with it. -/
def EnsSlot.dropPending (s : EnsSlot) : EnsSlot := { s with pending := none, acts := s.acts.filter (·.2) }

/-- An image that has passed its checks. -/
def imageOf (bs : List Byte) : EnsImage := match readEnsemble bs with | .ok g => g | .error _ => ⟨0, [], []⟩

/-- The compiled trees of a copy, in the slot of a context that holds it. -/
def EnsCopy.trees (x : EnsCopy) (n e : Nat) : List CTree := (imageOf x.image).compile e x.gen n

/-! ### Samples (R461, R470 to R474) -/

/-- Features of a die-window as rank coding reads them: from the row, but SCORE features from the scores (R461). -/
def DieWin.coded (x : DieWin) (fs : List Feature) (row : List Byte) : List Nat :=
  (fs.zip (List.range 256)).map fun p => if p.1.op = 8 then x.scores.getD p.1.arg qNan else leAt row (4 * p.2) 4

/-- The row of a die-window as it stands in the feature ring (R405). -/
def Agg.rowOf (g : Agg) (n : Nat) (x : DieWin) : List Byte := g.read (g.rowsBase n x.window x.pos + 1024 * (x.window % 64)) 1024

/-- Rank codes by feature number, 0xFF for a feature without a list. -/
def EnsImage.codes (g : EnsImage) (feats : List Nat) : List Nat :=
  (List.range 256).map fun f => match g.lists.find? (·.1 = f) with | some l => rankCode (feats.getD f qNan) l.2 | none => 0xFF

/-- Samples in flight: the oldest 2,048 (R471). -/
def Agg.inFlight (g : Agg) : List Sample := g.stencil.samples.take 2048

def Agg.noteInFlight (g : Agg) : Agg :=
  g.withStencil fun u => { u with inFlightMax := max u.inFlightMax (min 2048 u.samples.length) }

/-- The sample of a die-window for the copy of a slot: coded, with no lookup made (R461). -/
def Agg.sampleOf (g : Agg) (n e : Nat) (d : DieWin) (c : EnsCopy) : Sample :=
  { ctx := n, slot := e, gen := c.gen, window := d.window, pos := d.pos, image := c.image,
    feats := d.coded (readFeatures ((g.job n).modelAt d.window).feature) (g.rowOf n d),
    walks := (List.range (imageOf c.image).trees.length).map fun t => (t, 0), sum := (imageOf c.image).base }

/-- RANK_CODE (R461): the oldest window whose program is complete is coded, and its samples wait for lookups. -/
def Agg.rankCode (g : Agg) (n : Nat) : Agg :=
  match (g.score n).wins.find? fun x => decide (x.stage = .programmed) with
  | none => g
  | some x =>
    if !g.fwRuns then g
    else
      let mine := (g.score n).dieWins.filter fun d => decide (d.window = x.window)
      let one (e : Nat) (d : DieWin) : Option Sample := ((g.ensSlot n e).copyFor x.window).map (g.sampleOf n e d)
      let ss := mine.flatMap fun d => (List.range 4).filterMap fun e => one e d
      let g := (g.withStencil fun u => { u with samples := u.samples ++ ss }).noteInFlight
      g.setStage n x.window (if ss.isEmpty then .scored else .coded) false

/-- The record of a sample (R473). -/
def Sample.bytes (s : Sample) : List Byte :=
  let g := imageOf s.image
  let codes := g.codes s.feats
  let missing := (g.tested.filter fun f => decide (codes.getD f 0xFF = 0xFF)).length
  leBytes 5 (twos 40 s.sum) ++ leBytes 1 (1 + s.flags + 8 * b2n (decide (missing ≠ 0))) ++ leBytes 1 (min 255 missing) ++ [Config.ensPad s.window (1024 * s.slot + 16 * s.pos + 7)] ++
    leBytes 4 s.lookups ++ leBytes 4 s.window

/-- A sample is complete (R472, R473): its record is written and handed to the Level station. -/
def Agg.sampleDone (g : Agg) (s : Sample) : Agg :=
  let rec_ := s.bytes
  let g := g.write (((g.job s.ctx).modelAt s.window).base 2 + 1024 * s.slot + 16 * s.pos) rec_
  let g := g.withStencil fun u => { u with samples := u.samples.filter fun (x : Sample) => !decide (x = s) }
  let put (d : DieWin) : DieWin :=
    if d.window = s.window ∧ d.pos = s.pos then { d with ens := (padEns d.ens).set s.slot (some (s.sum, leAt rec_ 5 1)) } else d
  let g := g.modScore s.ctx fun j => { j with dieWins := j.dieWins.map put }
  if g.stencil.samples.any fun x => decide (x.ctx = s.ctx ∧ x.window = s.window) then g else g.setStage s.ctx s.window .scored false
where
  padEns (l : List (Option (Int × Nat))) : List (Option (Int × Nat)) := l ++ List.replicate (4 - l.length) none

/-- A bank has returned a wrong result and waits to be rewritten (R474). -/
def Agg.bankFault (g : Agg) (b : Nat) (parity : Bool) : Agg :=
  g.withStencil fun u => { u with faulty := if u.faulty.contains b then u.faulty else u.faulty ++ [b],
                                  parity := if parity then sset 0 u.parity b (min 0xFFFF (sget 0 u.parity b + 1)) else u.parity }

/-- The bank that a sample's tree lies in. -/
def Agg.bankOf (g : Agg) (s : Sample) (tree : Nat) : Nat :=
  match (g.ensSlot s.ctx s.slot).copyFor s.window with | some c => c.banks.getD tree 0 | none => 0

/-- Results of one lookup in ascending address, each with its parity error: as the compiled entries give them (R466 to R470). -/
def Sample.results (s : Sample) (tree node : Nat) : List (Nat × Bool) :=
  let g := imageOf s.image
  let t := g.trees.getD tree ⟨1, []⟩
  let place := keyBase tree s.slot s.gen s.ctx
  match (blockNodes t).find? (·.1 = node) with
  | none => []
  | some x =>
    let b := compileBlock g place t x.1 x.2
    (entryMatches b (lookupKey place b (g.codes s.feats))).map fun e => (e.result, false)

/-- A sample after one lookup of a tree (R470, R472). -/
def Sample.after (s : Sample) (tree : Nat) (res : List (Nat × Bool)) : Sample :=
  let rest := s.walks.filter (·.1 ≠ tree)
  let parity := res.any (·.2)
  let s := { s with lookups := s.lookups + 1, walks := rest,
                    flags := s.flags ||| (if res.isEmpty || parity then 2 else 0) ||| (if 1 < res.length then 4 else 0) }
  if parity then s else match res with
    | (r, _) :: _ => if r.testBit 24 then { s with sum := s.sum + signedOf 24 r } else { s with walks := (tree, r % 65536) :: rest }
    | _ => s

/-- A tree of a sample from its root to its leaf, as the compiled entries give it. -/
def Sample.walkTree (tree : Nat) : Nat → Sample → Sample
  | 0, s => s
  | k + 1, s => match s.walks.find? (·.1 = tree) with | some x => Sample.walkTree tree k (s.after tree (s.results tree x.2)) | none => s

/-- A sample with every tree walked. -/
def Sample.whole (s : Sample) : Sample := s.walks.foldl (fun s x => Sample.walkTree x.1 256 s) s

/-- STENCIL_LOOKUP (R470, R472, R474): one lookup of a tree of a sample. `hits` are the results that a faulty bank gave instead of those
of the compiled entries. -/
def Agg.stencilLookup (g : Agg) (n e t tree : Nat) (hits : Option (List (Nat × Bool))) : Agg :=
  match g.inFlight.find? fun s => decide (s.ctx = n ∧ s.slot = e ∧ s.pos = t) && s.walks.any (·.1 = tree) with
  | none => g
  | some s =>
    match s.walks.find? (·.1 = tree) with
    | none => g
    | some (_, node) =>
      let res := hits.getD (s.results tree node)
      let bank := g.bankOf s tree
      let many := decide (1 < res.length)
      let parity := res.any (·.2)
      let s' := s.after tree res
      let g := g.count n 19 1
      let g := if res.isEmpty || parity then g.flag (stencilFlag 0) else g
      let g := if many then g.flag (stencilFlag 1) else g
      let g := if parity then g.flag (stencilFlag 2) else g
      let g := if res.isEmpty || parity || many then g.bankFault bank parity else g
      let g := g.withStencil fun u => { u with samples := u.samples.map fun (x : Sample) => if x = s then s' else x }
      if s'.walks.isEmpty then g.sampleDone s' else g

/-- TCAM_BANK_REWRITE (R474). -/
def Agg.bankRewrite (g : Agg) (b : Nat) : Agg := g.withStencil fun u => { u with faulty := u.faulty.filter (· ≠ b) }

/-! ### The Entity Table (R455 to R458) -/

/-- Entries in force for a window, in ascending DIE_ID. -/
def Agg.entitiesAt (g : Agg) (w : Nat) : List (Nat × List Byte) :=
  let dies := (g.stencil.entities.map (·.die)).foldl (fun a d => insertAsc d a) []
  dies.filterMap fun d => (g.entityAt d w).map fun e => (d, e)

/-- TABLE_DIGEST (R458). -/
def Agg.tableDigest (g : Agg) (w : Nat) : Nat := crcOf crc64ecma ((g.entitiesAt w).flatMap (·.2))

def Agg.entityPending (g : Agg) : Nat := (g.stencil.entities.filter (!·.taken)).length

/-- Results of every ENTITY_WRITE (R458). -/
def Agg.entityDone (g : Agg) (c : Caller) : Agg :=
  let w := g.openWindow
  g.done c 0x42 [(13, (g.entitiesAt w).length), (64, g.tableDigest w)]

/-- A window-timed change: 0 means the window now open plus 2. -/
def Agg.actWindow (g : Agg) (act : Nat) : Nat := if act = 0 then g.openWindow + 2 else act
def Agg.actStale (g : Agg) (act : Nat) : Bool := decide (act ≠ 0 ∧ act < g.openWindow + 2)

/-- Put a write among the others, after all that take effect no later. -/
def insertWrite (x : EntWrite) : List EntWrite → List EntWrite
  | [] => [x]
  | y :: t => if x.act < y.act then x :: y :: t else y :: insertWrite x t

def Agg.scheduleEntity (g : Agg) (die act : Nat) (e : Option (List Byte)) : Agg :=
  g.withStencil fun u => { u with entities := insertWrite { die := die, act := g.actWindow act, entry := e } u.entities }

/-- An entry that ENTITY_WRITE refuses (R457): another DIE_ID, VALID 0, a reserved byte that is not 0. -/
def entryBad (die : Nat) (b : List Byte) : Bool :=
  decide (leAt b 0 4 ≠ die ∨ leAt b 4 1 % 2 ≠ 1 ∨ leAt b 5 3 ≠ 0) || (bytesAt b 20 12).any (· ≠ 0)

/-- Entries in use or pending. -/
def Agg.entityDies (g : Agg) : List Nat :=
  ((g.entitiesAt g.openWindow).map (·.1) ++ (g.stencil.entities.filter fun e => !e.taken && e.entry.isSome).map (·.die)).foldl
    (fun a d => insertAsc d a) []

/-- ENTITY_WRITE PUT. -/
def Agg.entityPut (g : Agg) (c : Caller) (die src act : Nat) : Agg :=
  let e := g.read src 256
  let bad := g.outside c.ring.val src 256
  let room := g.entityDies.contains die || decide (g.entityDies.length < 4096)
  g.command c 0x42 (ring0Only c ++ failIf (bad.isNone && entryBad die e) .badParam ++ failIf (g.actStale act) .staleEpoch ++
      failIf (decide (256 ≤ g.entityPending) || !room) .noResource) bad fun g => (g.scheduleEntity die act (some e)).entityDone c

/-- ENTITY_WRITE DELETE. -/
def Agg.entityDelete (g : Agg) (c : Caller) (die act : Nat) : Agg :=
  g.command c 0x42 (ring0Only c ++ failIf (g.actStale act) .staleEpoch ++ failIf (decide (256 ≤ g.entityPending)) .noResource) none
    fun g => (g.scheduleEntity die act none).entityDone c

/-- ENTITY_WRITE READ. -/
def Agg.entityRead (g : Agg) (c : Caller) (die dst : Nat) : Agg :=
  match g.entityAt die g.openWindow with
  | none => g.command c 0x42 (ring0Only c ++ [.badParam]) (g.outside c.ring.val dst 256) fun g => g
  | some e => g.command c 0x42 (ring0Only c) (g.outside c.ring.val dst 256) fun g => (g.write dst e).entityDone c

/-- ENTITY_WRITE STATUS. -/
def Agg.entityStatus (g : Agg) (c : Caller) : Agg := g.command c 0x42 (ring0Only c) none fun g => g.entityDone c

/-- Entity writes take effect as their window opens (R458). -/
def Agg.entityStroke (g : Agg) (w : Nat) : Agg :=
  let k := (g.stencil.entities.filter fun e => !e.taken && decide (e.act ≤ w)).length
  let g := g.withStencil fun u => { u with entities := u.entities.map fun (e : EntWrite) => if e.act ≤ w then { e with taken := true } else e }
  (List.range k).foldl (fun g _ => g.flag (stencilFlag 4)) g

/-! ### Placement and loads (R475, R476) -/

/-- Every copy that holds entries: the slot's key, the copy, and whether it counts for the load. -/
def Agg.copies (g : Agg) : List (Nat × EnsCopy × Bool) :=
  g.stencil.slots.flatMap fun p =>
    p.2.active.toList.map (fun c => (p.1, c, true)) ++ p.2.pending.toList.map (fun c => (p.1, c, true)) ++
      (p.2.old.filterMap (·.2)).map fun c => (p.1, c, false)

/-- Used entries and load of each bank. -/
def Agg.bankUse (g : Agg) : List (Nat × Nat) :=
  let ts := g.copies.flatMap fun x =>
    let dies := (g.job (x.1 / 4)).dies.length
    (x.2.1.banks.zip (x.2.1.trees (x.1 / 4) (x.1 % 4))).map fun t => (t.1, t.2.size, if x.2.2 then dies * t.2.load else 0)
  (List.range 8).map fun b =>
    let mine := ts.filter fun t => decide (t.1 = b)
    ((mine.map fun t => t.2.1).sum, (mine.map fun t => t.2.2).sum)

/-- The bank with the least load among those with room for a tree, the lowest on a tie (R475). -/
def bestBank (size : Nat) (use : List (Nat × Nat)) : Option Nat :=
  ((use.zip (List.range 8)).foldl (fun (best : Option (Nat × Nat)) p =>
    if 16384 < p.1.1 + size then best
    else match best with
      | some (l, _) => if p.1.2 < l then some (p.1.2, p.2) else best
      | none => some (p.1.2, p.2)) none).map (·.2)

/-- Place trees in ascending order: their banks and the use after it. -/
def placeTrees (dies : Nat) : List CTree → List (Nat × Nat) → Option (List Nat × List (Nat × Nat))
  | [], use => some ([], use)
  | t :: ts, use =>
    match bestBank t.size use with
    | none => none
    | some b =>
      let x := use.getD b (0, 0)
      match placeTrees dies ts (use.set b (x.1 + t.size, x.2 + dies * t.load)) with
      | some (bs, u) => some (b :: bs, u)
      | none => none

/-- The lookup budget of R476 under a period. -/
def lookupsFit (use : List (Nat × Nat)) (period : Nat) : Bool := use.all fun u => decide (ceilDiv (u.2 * 8) 5 ≤ period * 800)

/-- Periods in force and pending. -/
def Agg.periods (g : Agg) : List Nat :=
  (match g.time.sched with | some s => [s.periodUs] | none => []) ++ (match g.time.pending with | some p => [p.2] | none => [])

/-- Check, compile and place an image as the pending copy of a slot (R464, R475 to R478). -/
def Agg.loadEnsemble (g : Agg) (n e : Nat) (image : List Byte) : Except Status Agg :=
  match readEnsemble image with
  | .error st => .error st
  | .ok im =>
    let s := (g.ensSlot n e).dropPending
    let g1 := g.setEnsSlot n e s
    let gen := match s.active with | some a => 1 - a.gen | none => 0
    match placeTrees (g.job n).dies.length (im.compile e gen n) g1.bankUse with
    | none => .error .noResource
    | some (banks, use) =>
      if g.periods.all (lookupsFit use) then .ok (g1.setEnsSlot n e { s with pending := some ⟨image, gen, banks⟩ })
      else .error .conflict

/-- Place every ensemble of a model as a pending copy. -/
def Agg.loadEnsembles (g : Agg) (n : Nat) : List (Nat × List Byte) → Except Status Agg
  | [] => .ok g
  | e :: es => match g.loadEnsemble n e.1 e.2 with | .ok g' => g'.loadEnsembles n es | .error st => .error st

/-- The Stencil as it stands once every scheduled teardown of another context has released its entries (R579). -/
def Agg.afterTeardowns (g : Agg) (n : Nat) : Agg :=
  g.withStencil fun u => { u with slots := u.slots.filter fun p => !decide (p.1 / 4 ≠ n ∧ (g.job (p.1 / 4)).state = .draining) }

/-- The deferred model of a context, where it has one. -/
def Agg.deferredOf (g : Agg) (k : Nat) : List (Nat × List Byte) :=
  match (g.job k).pending with | some m => if m.deferred then m.ensembles else [] | none => []

/-- Place the deferred models of some contexts. -/
def Agg.loadDeferred (g : Agg) : List Nat → Except Status Agg
  | [] => .ok g
  | k :: ks => match g.loadEnsembles k (g.deferredOf k) with | .ok g' => g'.loadDeferred ks | .error st => .error st

/-- The banks as they will stand once the teardowns are done and the deferred models of the other contexts are written (R579, R583). -/
def Agg.laterBanks (g : Agg) (n : Nat) : Except Status Agg := (g.afterTeardowns n).loadDeferred (jobNumbers.filter (· ≠ n))

/-- An image that STENCIL_LOAD places: it takes no place that a deferred model of another context needs (R476, R583). -/
def Agg.loadChecked (g : Agg) (n e : Nat) (image : List Byte) : Except Status Agg :=
  match g.loadEnsemble n e image with
  | .ok g' => match g'.laterBanks n with | .ok _ => .ok g' | .error st => .error st
  | .error st => .error st

/-! ### STENCIL_LOAD (R477, R478) -/

/-- Results of every function. -/
def Agg.stencilResults (g : Agg) (n e : Nat) : List (Nat × Nat) :=
  let s := g.ensSlot n e
  let load := (g.bankUse.map (·.2)).foldl max 0
  match (match s.pending with | some c => some c | none => s.active) with
  | some c => [(18, ((c.trees n e).map CTree.size).sum), (13, (c.trees n e).length), (32, load), (64, crcOf crc64ecma c.image)]
  | none => [(18, 0), (13, 0), (32, load), (64, 0)]

/-- The context that a STENCIL_LOAD, VERDICT_READ or other command on a job addresses must be one. -/
def noContext (c : Caller) : List Status := failIf (decide (ctxOf c = 0)) .badParam

/-- An image that passed its checks becomes the pending copy of a slot. -/
def Agg.stencilTake (g : Agg) (c : Caller) (n e : Nat) (image : List Byte) : Agg :=
  match g.loadChecked n e image with
  | .ok g' => g'.done c 0x41 (g'.stencilResults n e)
  | .error st => g.complete (who c) 0x41 st []

/-- STENCIL_LOAD LOAD. -/
def Agg.stencilLoad (g : Agg) (c : Caller) (e addr len : Nat) : Agg :=
  let n := ctxOf c
  let bad := g.outside c.ring.val addr len
  let r := if bad.isNone then g.loadChecked n e (g.read addr len) else .error .access
  g.command c 0x41 (noContext c ++ (match r with | .error .badParam => [.badParam] | .error .conflict => [.conflict] | .error .noResource => [.noResource] | _ => []) ++
      g.notReady) bad fun g => g.stencilTake c n e (g.read addr len)

/-- STENCIL_LOAD ACTIVATE. -/
def Agg.stencilActivate (g : Agg) (c : Caller) (e act : Nat) : Agg :=
  let n := ctxOf c
  let s := g.ensSlot n e
  g.command c 0x41 (noContext c ++ failIf s.pending.isNone .conflict ++ failIf (g.actStale act) .staleEpoch ++ g.notReady) none fun g =>
    let g := g.setEnsSlot n e (s.schedule (g.actWindow act) false)
    g.done c 0x41 (g.stencilResults n e)

/-- STENCIL_LOAD UNLOAD. -/
def Agg.stencilUnload (g : Agg) (c : Caller) (e act : Nat) : Agg :=
  let n := ctxOf c
  let s := g.ensSlot n e
  g.command c 0x41 (noContext c ++ failIf (g.actStale act) .staleEpoch ++ g.notReady) none fun g =>
    let g := if s.active.isNone && s.pending.isNone then g else g.setEnsSlot n e (s.schedule (g.actWindow act) true)
    g.done c 0x41 (g.stencilResults n e)

/-- STENCIL_LOAD STATUS. -/
def Agg.stencilStatus (g : Agg) (c : Caller) (e : Nat) : Agg :=
  g.command c 0x41 (noContext c ++ g.notReady) none fun g => g.done c 0x41 (g.stencilResults (ctxOf c) e)

/-- One change of a slot at its window (R477, R478): it empties, a pending copy with no later activation included, or the pending copy becomes the
active one. -/
def EnsSlot.change (s : EnsSlot) (a : Nat) (unload : Bool) : EnsSlot :=
  let old := if s.active.isNone && s.old.isEmpty then [] else (s.since, s.active) :: s.old
  if unload then { s with since := a, old := old, active := none, pending := if s.acts.any (!·.2) then s.pending else none }
  else if s.pending.isNone then s
  else { s with since := a, old := old, active := s.pending, pending := none }

/-- The changes that are due as a window opens. -/
def EnsSlot.changes (w : Nat) : List (Nat × Bool) → EnsSlot → EnsSlot
  | [], s => s
  | x :: l, s => if x.1 ≤ w then EnsSlot.changes w l ({ s with acts := l }.change x.1 x.2) else s

/-- A slot changes as its window opens (R478). -/
def Agg.applyEns (g : Agg) (n e w : Nat) : Agg :=
  let s := g.ensSlot n e
  if s.acts.any fun x => decide (x.1 ≤ w) then (g.setEnsSlot n e (EnsSlot.changes w s.acts s)).flag (stencilFlag 5) else g

/-- Ensembles that change at the stroke that opens a window. -/
def Agg.ensembleStroke (g : Agg) (w : Nat) : Agg :=
  jobNumbers.foldl (fun g n => (List.range 4).foldl (fun g e => g.applyEns n e w) g) g

/-- The copies still needed among those superseded, newest first; the first of them is needed for windows before `until_`. -/
def keepOld (open_ : Nat → Bool) (until_ : Nat) : List (Nat × Option EnsCopy) → List (Nat × Option EnsCopy)
  | [] => []
  | x :: l => if open_ until_ then x :: keepOld open_ x.1 l else []

/-- ENSEMBLE_FREE (R478): every sample of every window before the change is complete. -/
def Agg.ensembleFree (g : Agg) (n e : Nat) : Agg :=
  let s := g.ensSlot n e
  let sc := g.score n
  let scores := decide ((g.job n).state = .active ∨ (g.job n).state = .draining)
  let open_ (a : Nat) : Bool := scores && (decide (sc.nextCut < a) || sc.wins.any fun x => decide (x.window < a) && !decide (x.stage = .scored))
  if s.old.isEmpty then g else g.setEnsSlot n e { s with old := keepOld open_ s.since s.old }

end Sys2Proof.Machine
end

