-- ==== Sys2Proof/Machine/Gates.lean ====
section
/-!
DEFINITION. Gates.lean: round closes, the gate list and meters in force: R26 of spec/01_hall_watch.md, R330 to R337 of spec/09_traffic.md.
-/
namespace Sys2Proof.Machine

/-! ### Rounds in Hall Time (R26, R376) -/

/-- HT of the close of a round (R26). -/
def Agg.closeOf (g : Agg) (c : TreeCfg) (r : Nat) : Nat := g.strokeHt (c.windows * (r + 1)) + 1000 * c.sealUs

/-- The round whose windows are open now. -/
def Agg.currentRound (g : Agg) (windows : Nat) : Nat := g.openWindow / max 1 windows

/-- The last round whose close has passed. -/
def Agg.lastClose (g : Agg) : Option Nat :=
  match g.skim.cfg, g.time.sched with
  | some c, some _ =>
    let n := windowAt g.time.prev g.time.sched g.time.pending (g.ht + 1 - 1000 * c.sealUs) / max 1 c.windows
    if n = 0 then none else some (n - 1)
  | _, _ => none

/-- Length of the round that follows a close, ns. -/
def Agg.roundNs (g : Agg) (c : TreeCfg) (r : Nat) : Nat := g.closeOf c (r + 1) - g.closeOf c r

/-! ### Gates (R330 to R335) -/

/-- Entries of a gate list up to the one with DUR_PM 0. -/
def gateEntries (l : List (Nat × Nat)) : List (Nat × Nat) := l.takeWhile fun e => decide (e.1 ≠ 0)

/-- Shadow list and profiles. -/
def Agg.shadowSet (g : Agg) : GateSet :=
  { entries := (List.range 16).map fun i => (g.fld (0x40000 + 4 * i) 9 0, g.fld (0x40000 + 4 * i) 23 16),
    meters := [3, 4, 5, 6, 7].map fun c => (g.reg (0x40100 + 0x10 * c), g.reg (0x40104 + 0x10 * c), g.reg (0x40108 + 0x10 * c)) }

/-- A set that a commit refuses (R332, R337). -/
def gateSetBad (x : GateSet) : Bool :=
  let es := gateEntries x.entries
  es.any (fun e => !e.2.testBit 0 || !e.2.testBit 1) || !es.any (fun e => e.2.testBit 2) || decide ((es.map (·.1)).sum ≠ 1000) ||
    x.meters.any fun m =>
      decide (wfld m.1 31 16 < wfld m.1 15 0) || decide (wfld m.2.1 31 16 < wfld m.2.1 15 0) || decide (wfld m.2.2 19 0 % 64 ≠ 0) ||
        decide (wfld m.2.2 19 0 < 64)

/-- The epoch from which a set committed now may take effect (R335). -/
def gateEpoch (ht : Nat) : Nat :=
  let e := (ht / 1000000000 + 1) * 1000000000
  if e < ht + 10000000 then e + 1000000000 else e

def Agg.gateStatus (g : Agg) (code : Nat) : Agg := (g.setFld 0x40084 0 0 (b2n g.gates.pending.isSome)).setFld 0x40084 15 8 code

/-- GATE_COMMIT (R335). -/
def Agg.gateCommit (g : Agg) : Agg :=
  if gateSetBad g.shadowSet then (g.flag (tcFlag 1)).gateStatus (statusCode .badParam)
  else ({ g with gates := { g.gates with pending := some (g.shadowSet, gateEpoch g.ht) } }).gateStatus 0

/-- GATE_CANCEL (R335). -/
def Agg.gateCancel (g : Agg) : Agg := ({ g with gates := { g.gates with pending := none } }).gateStatus 0

/-- The pending set takes effect at a round close at or after its epoch (R335). -/
def Agg.applyGates (g : Agg) (close : Nat) : Agg :=
  match g.gates.pending with
  | none => g
  | some (x, epoch) =>
    if close < epoch then g
    else
      let g := (x.entries.zip (List.range 16)).foldl (fun g e => g.setRegN (0x40040 + 4 * (e.2 % 16)) (e.1.1 + 65536 * e.1.2)) g
      let g := (x.meters.zip [3, 4, 5, 6, 7]).foldl (fun g m =>
        let b := 0x40180 + 0x10 * (m.2 % 8)
        ((g.setReg b m.1.1).setReg (b + 4) m.1.2.1).setReg (b + 8) m.1.2.2) g
      let g := { g with gates := { g.gates with pending := none } }
      (g.setFld 0x40084 0 0 0).flag (tcFlag 0)

/-- Entries in force. -/
def Agg.activeEntries (g : Agg) : List (Nat × Nat) :=
  gateEntries ((List.range 16).map fun i => (g.fld (0x40040 + 4 * i) 9 0, g.fld (0x40040 + 4 * i) 23 16))

/-- The entry in force at an offset from the close (R330). -/
def entryAt (round offset : Nat) : List (Nat × Nat) → Nat → Nat → Nat
  | [], _, i => i - 1
  | e :: t, s, i => if offset < round * (s + e.1) / 1000 then i else entryAt round offset t (s + e.1) (i + 1)

/-- GATE_ENTRY_START (R330, R335): the gate list follows Hall Time; entry 0 begins at a round close. -/
def Agg.gateStep (g : Agg) : Agg :=
  match g.lastClose, g.skim.cfg with
  | some r, some c =>
    let close := g.closeOf c r
    let g := g.fillAll
    let g := if close = g.gates.closeHt then g else ({ g with gates := { g.gates with closeHt := close, entry := 0 } }).applyGates close
    let e := entryAt (g.roundNs c r) (g.ht - close) g.activeEntries 0 0
    ({ g with gates := { g.gates with entry := e } }).setFld 0x40084 7 4 e
  | _, _ => g

end Sys2Proof.Machine
end

