-- ==== Sys2Proof/Machine/AtuTime.lean ====
section
/-!
DEFINITION. AtuTime.lean: Hall Time, plumb beats, time states and strokes of an ATU: R35 to R37, R56 to R80, R744 and R745 of
spec/02_hall_time.md.
-/
namespace Sys2Proof.Machine

/-- One nanosecond on the time base's clock. HT runs once it has been set; a pending correction moves it by 1 ns in every
20,000 ns, which is 50 ppm (R37). -/
def AtuTime.tick (t : AtuTime) : AtuTime :=
  let t := { t with elapsed := t.elapsed + 1, steered := t.steered + 1, slewPhase := min 20000 (t.slewPhase + 1) }
  if t.state = .unset then t
  else if t.slew ≠ 0 ∧ t.slewPhase = 20000 then
    let d : Int := if t.slew > 0 then 1 else -1
    { t with ht := ((t.ht : Int) + 1 + d).toNat % 2 ^ 64, steered := ((t.steered : Int) + d).toNat, slew := t.slew - d, slewPhase := 0 }
  else { t with ht := (t.ht + 1) % 2 ^ 64 }

/-! ### Beats -/

def AtuTime.track (t : AtuTime) (p : PortId) : BeatTrack := match p with | .a => t.trackA | .b => t.trackB
def AtuTime.setTrack (t : AtuTime) (p : PortId) (x : BeatTrack) : AtuTime :=
  match p with | .a => { t with trackA := x } | .b => { t with trackB := x }

def Atu.port (a : Atu) (p : PortId) : PortEnd := match p with | .a => a.portA | .b => a.portB
def Atu.setPort (a : Atu) (p : PortId) (x : PortEnd) : Atu :=
  match p with | .a => { a with portA := x } | .b => { a with portB := x }

/-- Port B is wired and in UP. -/
def Atu.portBUp (a : Atu) : Bool := a.hasPortB && decide (a.portB.state = .up)

/-- Which port is followed now (R60). -/
def Atu.followed (a : Atu) : PortId :=
  let t := a.time
  if a.portA.state ≠ .up ∧ a.portBUp then .b
  else match t.follow with
    | .a => if 2 ≤ t.trackA.missedRun ∧ a.portBUp then .b else .a
    | .b => if 4 ≤ t.trackA.goodRun then .a else .b

def Atu.refollow (a : Atu) : Atu := a.withTime fun t => { t with follow := a.followed }

/-- Whether a beat's sequence number is in order (R61). -/
def beatSeqGood (last : Option Nat) (seq : Nat) : Bool :=
  match last with
  | some l => let d := (seq + 65536 - l) % 65536; decide (1 ≤ d ∧ d ≤ 16)
  | none => decide (seq ≤ 15)

/-- A time word's own checks: length, magic, CRC-16 (R56, R61). -/
def beatWordGood (w : List Byte) : Bool :=
  decide (w.length = 48) && decide (leAt w 0 1 = 0x5B) && decide (leAt w 46 2 = crcOf crc16ccitt (w.take 46))

/-- AB_DIFF (R60): port B's beat HT minus port A's, both set against the time base's own clock, and AB_DIVERGE beyond 24 ns. -/
def Atu.updateAbDiff (a : Atu) : Atu :=
  match a.time.trackA.base, a.time.trackB.base with
  | some ba, some bb =>
    if !a.hasPortB || a.time.trackA.counted ≠ 0 || a.time.trackB.counted ≠ 0 then a
    else
      let d := bb - ba
      let a := a.setFld 0x010C 31 16 (twos 16 (saturateSigned 16 d))
      if d.natAbs > 24 then a.flag (timeFlag 13) else a
  | _, _ => a

/-- The period of a schedule is new to the ATU: budgets are checked again. -/
def Atu.enterSched (a : Atu) (s : Sched) (p : Option (Nat × Nat)) : Atu :=
  let a := a.withTime fun t => { t with sched := some s, pending := p, prev := if t.sched = some s then t.prev else t.sched }
  match p with | some (c, p') => a.planPeriod c p' | none => a

/-- The stroke periods that a beat makes known. -/
def knownPeriods (s : Sched) (p : Option (Nat × Nat)) : List Nat := s.periodUs :: (p.toList.map (·.2))

/-- A good beat carries a schedule (R62, R72, R73). DESIGN CHOICE (notes/assumptions/119.md): where the same beat also steps HT back by R67, the floor of
the next stroke is HT before the step, so that strokes of the new schedule between the two are not fired and count as lost. -/
def Atu.learnSched (a : Atu) (s : Sched) (p : Option (Nat × Nat)) : Atu :=
  match a.time.sched with
  | none => ((a.budgetOnLearn (knownPeriods s p)).openFirst).enterSched s p
  | some cur =>
    if cur = s then (if a.time.pending = p then a else a.enterSched s p)
    else
      -- the schedule that the pending change leads to, or the one that the change now in force came from, says nothing new
      let following := match a.time.pending with
        | some (c, p') => decide (s = schedAfter cur c p')
        | none => false
      let preceding := match p with
        | some (c, p') => decide (cur = schedAfter s c p')
        | none => false
      if following || preceding then a
      else if a.time.lastFired.isNone then ((a.budgetOnLearn (knownPeriods s p)).enterSched s p).flag (timeFlag 12)
      else
        let a := (((a.passWindow a.openNo).planPeriod a.window s.periodUs).withTime fun t => { t with floor := max t.floor t.ht }).periodChanged s.periodUs
        (a.enterSched s p).flag (timeFlag 12)

/-- Enter a time state, with its record (R245). -/
def Atu.enterState (a : Atu) (s : TimeState) (off : Int) : Atu :=
  (a.withTime fun t => { t with state := s }).timeStateEvent s off

/-- Step HT to a value (R63, R67, R745). -/
def Atu.stepHt (a : Atu) (ht : Nat) : Atu := a.withTime fun t => { t with ht := ht, slew := 0, slewPhase := 0 }

/-- Step HT while no stroke fires (R745): the window now open is left where it stands (R102). -/
def Atu.stepUnlocked (a : Atu) (ht : Nat) : Atu := (a.passWindow a.window).stepHt ht

/-- Slew by an offset (R45 of the time base, R66): every later correction replaces the one before. -/
def Atu.slewBy (a : Atu) (off : Int) : Atu := a.withTime fun t => { t with slew := off }

/-- Count a good beat for LOCKED, and enter LOCKED after 4 with a known schedule (R63). -/
def Atu.lockCount (a : Atu) (off : Int) (restart : Bool) : Atu :=
  let base := if restart then 0 else a.time.lockRun
  let n := if off.natAbs ≤ 8 then base + 1 else 0
  let a := a.withTime fun t => { t with lockRun := n }
  if 4 ≤ n && a.time.sched.isSome then
    let a := if a.time.state = .acquiring then a.withTime fun t => { t with floor := t.ht } else a
    a.enterState .locked off
  else a

/-- A good beat on the followed port acts on the time state (R63, R66, R67, R745). The beat that ends a silence in HOLDOVER is not one of the 4 that
R66 then asks for. `silent`: good beats had stopped for 1.1 ms. -/
def Atu.beatActs (a : Atu) (beatHt : Nat) (off : Int) (silent : Bool) : Atu :=
  match a.time.state with
  | .unset => ((a.stepHt beatHt).openFirst.withTime fun t => { t with lockRun := 0 }).enterState .acquiring off
  | .acquiring =>
    if off.natAbs > 1000 then (a.stepUnlocked beatHt).withTime fun t => { t with lockRun := 0 }
    else (a.slewBy off).lockCount off silent
  | .locked => a.slewBy off
  | .holdover =>
    if silent then
      let a := a.setRegN 0x0110 (twos 32 (saturateSigned 32 off))
      if off.natAbs ≤ 25000 then (a.slewBy off).withTime fun t => { t with lockRun := 0 }
      else
        let a := ((a.passWindow a.openNo).stepHt beatHt).flag (timeFlag 10)
        a.withTime fun t => { t with lockRun := 0, floor := if off > 0 then max t.floor beatHt else t.floor, stepped := t.stepped || decide (off > 0) }
    else (a.slewBy off).lockCount off false

/-- LOCKED ends in HOLDOVER when no good beat has come on either port for 1.1 ms; ACQUIRING starts its count again (R63, R745). -/
def Atu.checkSilence (a : Atu) : Atu :=
  if a.time.elapsed < a.time.lastGood + 1100000 then a
  else match a.time.state with
    | .locked =>
      let a := { a with regs := rset64 a.regs 0x0114 a.time.ht }.withTime fun t => { t with lockRun := 0 }
      (a.flag (timeFlag 9)).enterState .holdover (match (a.time.track a.time.follow).offset with | some o => o | none => 0)
    | .acquiring => a.withTime fun t => { t with lockRun := 0 }
    | .holdover => a.withTime fun t => { t with lockRun := 0 }
    | .unset => a

/-- A plumb beat arrives on a port (R56 to R62, R744): discarded, or good. A good beat always ends the count of missed beats. The
followed port's beat acts on the time; so does a beat of either port that ends a silence in HOLDOVER (R66). -/
def Atu.beat (a : Atu) (p : PortId) (w : List Byte) : Atu :=
  let a := a.checkSilence
  let tr := a.time.track p
  if !beatWordGood w || !beatSeqGood tr.lastSeq (leAt w 4 2) then a.flag (timeFlag 11)
  else
    let beatHt := leAt w 8 8
    let off : Int := (beatHt : Int) - (a.time.ht : Int)
    let silent := decide (a.time.lastGood + 1100000 ≤ a.time.elapsed)
    let base : Int := (beatHt : Int) - (a.time.elapsed : Int)
    let tr' : BeatTrack := { tr with
      lastSeq := some (leAt w 4 2), since := a.time.elapsed, counted := 0, missedRun := 0, goodRun := tr.goodRun + 1
      offset := some off, base := some base }
    let a := (a.withTime fun t => { (t.setTrack p tr') with lastGood := t.elapsed }).updateAbDiff.refollow
    if a.time.follow ≠ p && !(silent && decide (a.time.state = .holdover)) then a
    else
      let flags := leAt w 2 1
      let a := a.setFld 0x010C 15 0 (twos 16 (saturateSigned 16 off))
      let a := a.withTime fun t => { t with srcHoldover := flags.testBit 1 }
      let a := if flags.testBit 3 then
          a.learnSched ⟨leAt w 24 6, leAt w 16 8, leAt w 32 4 % 2 ^ 20⟩
            (if flags.testBit 2 then some (leAt w 36 6, leAt w 42 4) else none)
        else a
      a.beatActs beatHt off silent

/-- A plumb beat that arrives on its own row: the 48-byte time word, on a port in UP (R56, R61). -/
def Atu.beatMsg (a : Atu) (p : PortId) (w : List Byte) : Atu :=
  if (a.port p).state = .up ∧ w.length = 48 then a.beat p w else a

/-- A beat is overdue on a port: 1.1 ms after the last good beat or the entry to UP, then each further 1 ms (R744). -/
def BeatTrack.overdue (t : BeatTrack) (elapsed : Nat) : Bool := decide (t.since + 1100000 + 1000000 * t.counted ≤ elapsed)

/-- One more missed beat on a port. -/
def BeatTrack.miss (t : BeatTrack) : BeatTrack := { t with counted := t.counted + 1, missedRun := t.missedRun + 1, goodRun := 0 }
def Atu.noteMissed (a : Atu) (p : PortId) : Atu :=
  ((if a.time.follow = p then a.flag (timeFlag 8) else a).withTime fun t => t.setTrack p (t.track p).miss).refollow

/-- A beat that is overdue on a port counts as missed (R60, R744), whether or not the port has ever been in UP. -/
def Atu.countMissed (a : Atu) (p : PortId) : Atu :=
  if !(a.time.track p).overdue a.time.elapsed || (p = .b && !a.hasPortB) then a else a.noteMissed p

/-- A missed beat (R60, R744), and the silence of R63. None is due in reset. -/
def Atu.beatMissed (a : Atu) (p : PortId) : Atu := if a.bound.inReset then a else (a.countMissed p).checkSilence

/-- A port enters UP: beat and safety numbering start again, and its missed beats are counted from here (R61, R302, R744). -/
def Atu.portUp (a : Atu) (p : PortId) : Atu :=
  let a := a.setPort p ((a.port p).goUp a.time.elapsed)
  let a := a.inc (portBase p + 0x0C) 1
  let a := a.withTime fun t => t.setTrack p { since := t.elapsed }
  let a := match p with
    | .a => { a with safe := { a.safe with beatA := a.time.elapsed, sinceA := a.safe.now } }
    | .b => { a with safe := { a.safe with beatB := a.time.elapsed, sinceB := a.safe.now } }
  a.refollow

/-- A port leaves UP, or an attempt ends, at DOWN (R305, R306). -/
def Atu.portDown (a : Atu) (p : PortId) : Atu :=
  let was := (a.port p).state
  let a := a.setPort p ((a.port p).goDown a.time.elapsed)
  let a := if was = .up then a.flag (dpFlag p 8) else a
  a.refollow

/-! ### Strokes (R67 to R73) -/

/-- The stroke pulse output (R288). -/
def Atu.strokeOut (a : Atu) (n : Nat) : Atu :=
  if a.bit 0x0050 0 && a.bound.clkRun && decide (n % (a.fld 0x0050 31 16 + 1) = 0) then
    if h : a.fld 0x0050 2 1 < 4 then
      { a with trace := { a.trace with pulse := a.trace.pulse.set (a.fld 0x0050 2 1) (a.time.elapsed + 20) } }
    else a
  else a

/-- Stroke n fires (R68, R92): sanding is evaluated, the taps are captured, commits, suspensions and schedule changes take effect,
authorisation lapses, and the stroke's trigger and pulse are given. -/
def Atu.fireStroke (a : Atu) (s : Sched) (n : Nat) : Atu :=
  let ht := schedHtPending s a.time.pending n
  let last := a.time.lastFired
  let a := (a.withTime fun t => { t with lastFired := some n, firedAt := t.elapsed }).sandStrokes
  let a := if a.time.stepped then (a.withTime fun t => { t with stepped := false }).markStep else a
  let a := (a.sampleStroke n ht last a.anyUntested).changeAt n
  let a := a.authExpire
  let a := if a.hasTrace && a.bound.clkRun && decide (rget64 a.regs 0x3018 = n) then a.fire [29] else a
  a.strokeOut n

/-- STROKE: fires the next stroke when HT has reached it (R68); none in UNSET or ACQUIRING, and none without a schedule (R62, R63). -/
def Atu.stroke (a : Atu) : Atu :=
  match a.time.sched with
  | none => a
  | some s =>
    let n := a.time.nextStroke s
    if firesStrokes a.time.state && decide (schedHtPending s a.time.pending n ≤ a.time.ht) then a.fireStroke s n else a

/-- HT passes a stroke instant while no stroke fires: the window that ends there keeps its account, and the next one opens (R102, R111). `old` is HT
one nanosecond before. -/
def Atu.windowRoll (a : Atu) (old : Nat) : Atu :=
  match a.time.sched with
  | none => a
  | some s =>
    let n := firstAfterPending s a.time.pending old
    if a.time.state = .acquiring ∧ schedHtPending s a.time.pending n ≤ a.time.ht then (if n = 0 then a.openFirst else a.passWindow (n - 1))
    else a

/-- One nanosecond at the ATU (R59 to R68), with the margin advice that waits for its turn (R226). -/
def Atu.tick (a : Atu) : Atu := ((a.withTime AtuTime.tick).windowRoll a.time.ht).driveAdvice

/-- The present instant is that of the stroke last fired (R237). -/
def Atu.atStroke (a : Atu) : Bool := a.time.lastFired.isSome && decide (a.time.firedAt = a.time.elapsed)

/-- SAND_HARD_DEADLINE (R237): a core is evaluated at a stroke, and at no other instant. -/
def Atu.sandHardDeadline (a : Atu) (n : Fin 16) : Atu := if a.atStroke then a.sandStroke n else a

end Sys2Proof.Machine
end

