-- ==== Sys2Proof/Machine/Integration.lean ====
section
/-!
DEFINITION. Integration.lean: the values that the spec leaves to the integration of one die (R8, R86, R218, R274), chosen for the
ATU of the model: the decode die of spec/03_sampling.md's example. DESIGN CHOICE (notes/assumptions/5.md).
-/
namespace Sys2Proof.Machine

/-- ATU_TAP_BLOCK_INFO of the example die: blocks 0 to 3 in region 2, 4 and 5 in region 5, 6 in region 0, 7 in region 7. -/
def blockInfoWords : List Nat :=
  [0x03E80022, 0x03E80022, 0x03E80022, 0x03E80022, 0x03200125, 0x03200125, 0x06400220, 0x02711027]

/-- Integration values of the register file, by offset. -/
def integrationRegs : SMap Word :=
  let info := blockInfoWords.zipIdx.map fun p => (0x0480 + 4 * p.2, p.1)
  let gauges := (List.range 8).map fun b => (0x2000 + 32 * b + 28, 0xFFFFFFFF)
  let sources := (List.range 16).map fun n => (0x3104 + 8 * n, 3)
  let sites := (List.range 16).flatMap fun k =>
    [(0x5100 + 0x40 * k, 1 + k % 2 + 16 * (k / 4)), (0x5104 + 0x40 * k, 1000), (0x5108 + 0x40 * k, 0x08000500)]
  let cores := (0x5A00, 0x100000) :: (List.range 16).map fun n => (0x5A80 + 16 * n, 16 * 2)
  ([(0x0000, 0x0A7C0100), (0x0004, 0x110422F0), (0x0880, 0x6000)] ++ info ++ gauges ++ sources ++ sites ++ cores).foldl
    (fun (m : SMap Word) (p : Nat × Nat) => rsetN m p.1 p.2) []

end Sys2Proof.Machine
end

