-- ==== Sys2Proof/Machine/Boundary.lean ====
section
/-!
DEFINITION. Boundary.lean: resets, power and the register window of an ATU: R260 to R290 and R751 of spec/07_atu_boundary.md. Every
register access, local or remote, goes through `Atu.access`.
-/
namespace Sys2Proof.Machine

/-! ### Reading (R12, R80, R276, R283) -/

def Atu.sideRegs (a : Atu) (s : Side) : SideRegs := match s with | .host => a.bound.hostSide | .agg => a.bound.aggSide
def Atu.setSideRegs (a : Atu) (s : Side) (x : SideRegs) : Atu :=
  match s with
  | .host => { a with bound := { a.bound with hostSide := x } }
  | .agg => { a with bound := { a.bound with aggSide := x } }

def w32 (n : Nat) : Word := BitVec.ofNat 32 n

/-- ATU_CHn_STATUS, counters and charge of channel n (offsets 0x0508 to 0x051C). -/
def Atu.readChan (a : Atu) (n : Fin 8) (k : Nat) : Word :=
  let c := a.samp.chans[n]
  let cs := a.actSets
  match k with
  | 0 => c.act.cfg
  | 1 => c.act.rate
  | 2 => w32 (b2n (isSender cs n.val && !c.suspended) + 2 * b2n c.suspended + 4 * b2n (a.pendingMask.contains n.val) +
      8 * b2n (isMember cs n.val) + 65536 * (if isSender cs n.val then (groupTaps cs n.val a.tapWords).length else 0))
  | 3 => w32 c.frames
  | 4 => w32 c.lost
  | _ => match a.time.sched with
    | some s => if isSender cs n.val && !c.suspended then w32 (kbPerS (a.chargeOf cs s.periodUs n.val)) else 0
    | none => 0

/-- ATU_SAND_COREn (offset 0x5A80 + 0x10 n). -/
def Atu.readSand (a : Atu) (n : Fin 16) (k : Nat) : Word :=
  let c := a.sand[n]
  match k with
  | 0 => w32 (a.sandState n + 8 * b2n c.marginal + 16 * a.sandPdom n.val + 65536 * c.aborts)
  | 1 => match c.lastPass with | some t => w32 (twos 32 t) | none => 0xFFFFFFFF
  | 2 => w32 (twos 32 c.dueSec)
  | _ => w32 c.passes

/-- ATU_POOL (R287). -/
def Atu.readPool (a : Atu) : Word :=
  w32 (a.poolFree % 256 + 256 * a.poolTotal + 65536 * (a.poolCodec % 256) + 16777216 * (a.poolTrace % 256))

/-- The schedule mirror (offsets 0x0120 to 0x0130). -/
def Atu.readSched (a : Atu) (k : Nat) : Word :=
  match a.time.sched with
  | none => 0
  | some s => match k with
    | 0 => w32 s.anchorHt
    | 1 => w32 (s.anchorHt / 2 ^ 32)
    | 2 => w32 s.anchorWin
    | 3 => w32 (s.anchorWin / 2 ^ 32)
    | _ => w32 s.periodUs

/-- UNTESTED_MASK and URGENT_MASK (offset 0x5A18). -/
def Atu.readSandMasks (a : Atu) : Word :=
  w32 (blockMask (fun n => if h : n < 16 then (a.sand[n]).untested else false) +
    65536 * blockMask (fun n => if h : n < 16 then (a.sand[n]).urgent else false))

/-- ATU_DPx_STATUS.STATE and WIRED. -/
def Atu.readPort (a : Atu) (p : PortId) : Word :=
  w32 (portStateCode (a.port p).state + 8 * b2n (match p with | .a => true | .b => a.hasPortB))

/-- What a register reads beyond its stored bits: the fields that hardware holds elsewhere. -/
def Atu.liveBits (a : Atu) (s : Side) (off : Nat) : Word :=
  if off = 0x0100 then w32 a.time.ht
  else if off = 0x0108 then w32 (timeStateCode a.time.state + 8 * b2n (decide (a.time.follow = .b)) + 16 * b2n a.time.srcHoldover +
    32 * b2n a.time.sched.isSome)
  else if 0x0120 ≤ off ∧ off ≤ 0x0130 then a.readSched ((off - 0x0120) / 4)
  else if off = 0x0138 then (if a.time.sched.isSome then w32 a.window else 0)
  else if off = 0x013C then (if a.time.sched.isSome then w32 (a.window / 2 ^ 32) else 0)
  else if 0x0480 ≤ off ∧ off ≤ 0x04BC then w32 (8192 * b2n (a.blockPowered ((off - 0x0480) / 4)))
  else if h : 0x0500 ≤ off ∧ off < 0x0600 then
    (if 0x08 ≤ off % 0x20 then a.readChan ⟨(off - 0x0500) / 0x20, by omega⟩ ((off % 0x20 - 8) / 4) else 0)
  else if off = 0x0600 then (a.sideRegs s).actWinLo
  else if off = 0x0604 then (a.sideRegs s).actWinHi
  else if off = 0x060C then w32 (blockMask fun n => a.pendingMask.contains n)
  else if off = 0x0610 then (match a.time.sched with
    | some x => w32 (kbPerS (a.charge a.actSets x.periodUs a.suspended)) | none => 0)
  else if off = 0x0614 then w32 a.peakCharge
  else if off = 0x0720 then w32 a.path.spillWr
  else if off = 0x0728 then w32 a.path.spillIdx
  else if off = 0x0880 then a.readPool
  else if off = 0x3008 then w32 (b2n a.traceOn + 2 * b2n a.trace.stopAt.isSome)
  else if off = 0x3030 then (a.sideRegs s).authExpLo
  else if off = 0x3034 then (a.sideRegs s).authExpHi
  else if off = 0x3070 then w32 a.trace.bufWr
  else if off = 0x3810 then w32 a.log.queue.length
  else if 0x5100 ≤ off ∧ off < 0x5900 ∧ off % 0x40 = 0x14 then w32 (2147483648 * b2n (a.siteFrozen ((off - 0x5100) / 0x40)))
  else if 0x5100 ≤ off ∧ off < 0x5900 ∧ (off % 0x40 = 0x10 ∨ off % 0x40 = 0x38) then
    (if a.fld (off - off % 0x40 + 0x14) 19 0 < 8 then 0xFFFFFFFF else 0)  -- no projection until n reaches 8 (R222)
  else if off = 0x5A18 then a.readSandMasks
  else if h : 0x5A80 ≤ off ∧ off < 0x5B80 then a.readSand ⟨(off - 0x5A80) / 0x10, by omega⟩ (off % 0x10 / 4)
  else if off = 0x6010 then w32 a.evr.wr
  else if off = 0x6018 then (a.sideRegs s).evrRdPos
  else if off = 0x601C then a.evrRdData (a.sideRegs s).evrRdPos.toNat
  else if off = 0x6800 then w32 a.safe.now
  else if off = 0x7000 then a.readPort .a
  else if off = 0x7080 then a.readPort .b
  else 0

/-- Stored bits that a read does not show: integration values behind live words, and 64-bit halves of narrower algorithms. -/
def Atu.hiddenRead (a : Atu) (off : Nat) : Bool :=
  off = 0x0880 || off = 0x3020 || off = 0x3024 || (off = 0x0798 && decide (a.fld 0x0780 1 0 ≠ 3)) ||
    (decide (0x5A80 ≤ off) && decide (off < 0x5B80))

/-- The word that a read returns. -/
def Atu.readWord (a : Atu) (s : Side) (off : Nat) : Word :=
  (if a.hiddenRead off then 0 else a.reg off) ||| a.liveBits s off

/-- The latch of a LO half: the HI register takes the upper word (R80, R143, R204, R247). -/
def Atu.latchHi (a : Atu) (off : Nat) : Atu :=
  if off = 0x0100 then a.setRegN 0x0104 (a.time.ht / 2 ^ 32)
  else if off = 0x0720 then a.setRegN 0x0724 (a.path.spillWr / 2 ^ 32)
  else if off = 0x0728 then a.setRegN 0x072C (a.path.spillIdx / 2 ^ 32)
  else if off = 0x3070 then a.setRegN 0x3074 (a.trace.bufWr / 2 ^ 32)
  else if off = 0x6010 then a.setRegN 0x6014 (a.evr.wr / 2 ^ 32)
  else a

/-- What a read changes: latches, and RD_POS behind ATU_EVR_RD_DATA (R247). -/
def Atu.readEffect (a : Atu) (s : Side) (off : Nat) : Atu :=
  if off = 0x601C then
    let x := a.sideRegs s
    a.setSideRegs s { x with evrRdPos := w32 ((x.evrRdPos.toNat + 4) % 65536) }
  else a.latchHi off

/-! ### Checks of a write (R279) -/

/-- TRIG_OUT lines newly claimed by a value of ATU_TRC_TRIG_OUT (R200, R286). -/
def Atu.outClaims (a : Atu) (v : Word) : List Nat :=
  (List.range 4).filter fun k => decide (a.outEvt k = 0) && decide (wfld v (6 * k + 5) (6 * k) ≠ 0)

/-- Event 29 is selected somewhere: by TRIG word `t` or TRIG_OUT word `o`. -/
def selects29 (t o : Word) : Bool :=
  decide (wfld t 5 0 = 29) || decide (wfld t 11 6 = 29) || (List.range 4).any fun k => decide (wfld o (6 * k + 5) (6 * k) = 29)

/-- The trace timer cannot serve a stop delay and event 29 at once (R286). -/
def timerClash (t o : Word) : Bool := decide (wfld t 31 16 ≠ 0) && selects29 t o

/-- A claim that a write needs and cannot have (R286): the write completes with CONFLICT and CLAIM_REFUSED is set. -/
def Atu.claimFails (a : Atu) (off : Nat) (v : Word) : Bool :=
  let dma := a.freeDma.isNone
  if off = 0x0050 then wbit v 0 && !a.bit 0x0050 0 && decide (a.claimHolder (wfld v 2 1) ≠ 0)
  else if off = 0x0718 then wbit v 8 && !a.bit 0x0718 8 && dma
  else if off = 0x0790 then wbit v 0 && dma
  else if off = 0x3000 then wbit v 2 && !a.bit 0x3000 2 && dma
  else if off = 0x3010 then timerClash v (a.reg 0x3014)
  else if off = 0x3014 then (a.outClaims v).any (fun k => decide (a.claimHolder k ≠ 0)) || timerClash (a.reg 0x3010) v
  else if 0x3100 ≤ off ∧ off < 0x3180 ∧ off % 8 = 0 then decide (a.fld off 2 0 = 0) && decide (wfld v 2 0 ≠ 0) && decide (a.poolFree = 0)
  else if off = 0x3800 then wbit v 17 && !a.bit 0x3800 17 && (dma || decide (a.poolFree = 0))
  else false

/-- Checks of the boundary, sampling and frame registers. -/
def Atu.checksA (a : Atu) (s : Side) (off : Nat) (v : Word) : List Status :=
  if off = 0x0010 then failIf (decide (wfld v 15 0 ≠ 0xA5C3)) .badParam
  else if off = 0x0050 then failIf (a.bit 0x0050 0 && decide (wfld v 2 1 ≠ a.fld 0x0050 2 1 ∨ wfld v 31 16 ≠ a.fld 0x0050 31 16)) .conflict
  else if off = 0x0608 then
    (if wbit v 8 then failIf (!a.ownsAll s (wfld v 7 0)) .privilege ++ failIf (decide (wfld v 7 0 = 0)) .badParam
     else a.commitChecks s (wfld v 7 0) ((a.sideRegs s).actWinLo.toNat + 2 ^ 32 * (a.sideRegs s).actWinHi.toNat))
  else if off = 0x0708 ∨ off = 0x0710 then
    failIf (decide (wfld v 11 0 ≠ 0)) .badParam ++ failIf (a.spillOn && decide (v ≠ a.reg off)) .conflict
  else if off = 0x070C ∨ off = 0x0714 then failIf (a.spillOn && decide (v ≠ a.reg off)) .conflict
  else if off = 0x0718 then
    failIf (wbit v 8 && decide (wfld v 4 0 < 23 ∨ 30 < wfld v 4 0)) .badParam ++
      failIf (wbit v 8 && a.spillOn && decide (wfld v 4 0 ≠ a.fld 0x0718 4 0)) .conflict
  else if off = 0x0770 then
    (if wbit v 8 then failIf (decide (wfld v 7 0 = 0 ∨ a.resendLast < a.resendFirst)) .badParam ++ failIf a.path.resend.isSome .conflict
     else [])
  else if off = 0x0790 then
    (if wbit v 0 then failIf (a.chkOutside a.chkAddr a.chkLen).isSome .access ++ failIf a.path.chkBusy .conflict else [])
  else []

/-- Checks of the trace and log registers. -/
def Atu.checksB (a : Atu) (off : Nat) (v : Word) : List Status :=
  let on := failIf a.traceOn .conflict
  if off = 0x3000 then failIf (decide (wfld v 23 16 = 0)) .badParam ++ failIf (decide (3000 < wfld v 15 4)) .conflict ++ on
  else if off = 0x3010 then failIf (decide (30 < wfld v 5 0 ∨ 30 < wfld v 11 6)) .badParam ++ on
  else if off = 0x3014 then failIf ((List.range 4).any fun k => decide (33 < wfld v (6 * k + 5) (6 * k))) .badParam
  else if off = 0x3060 then failIf (decide (wfld v 11 0 ≠ 0)) .badParam ++ on
  else if off = 0x3064 then on
  else if off = 0x3068 then failIf (decide (wfld v 4 0 < 16 ∨ 30 < wfld v 4 0)) .badParam ++ on
  else if 0x3100 ≤ off ∧ off < 0x3180 ∧ off % 8 = 0 then
    let m := wfld v 2 0
    let n := (off - 0x3100) / 8
    failIf (decide (m ≠ 0) && (decide (a.traceSources ≤ n) || (modeBranch m && !a.bit (off + 4) 0) || (modeData m && !a.bit (off + 4) 1)))
      .notPresent ++ failIf (decide (4 < m)) .badParam ++ on
  else if 0x3200 ≤ off ∧ off < 0x3400 then on
  else if off = 0x380C then failIf (decide (wfld v 23 0 = 0)) .badParam ++ failIf (decide (16 ≤ a.log.queue.length)) .busyRetry
  else if 0x4000 ≤ off ∧ off < 0x4800 then
    failIf (decide (off % 0x80 = 0x40) && decide (wfld v 5 0 = 0 ∨ 32 < wfld v 5 0)) .badParam ++
      failIf (a.bit 0x3800 ((off - 0x4000) / 0x80)) .conflict
  else []

/-- Checks of the ageing, sanding and event-recorder registers. -/
def Atu.checksC (a : Atu) (off : Nat) (v : Word) : List Status :=
  if off = 0x5000 then failIf (decide (wfld v 15 8 = 0 ∨ wfld v 31 16 = 0)) .badParam
  else if 0x5100 ≤ off ∧ off < 0x5900 then
    failIf (decide (0x14 ≤ off % 0x40) && decide (off % 0x40 < 0x38) && a.bit (off - off % 0x40) 3) .conflict
  else if off = 0x5A00 then failIf (decide (2 ^ a.sandCores ≤ wfld v 15 0)) .notPresent
  else if off = 0x5A04 then failIf (decide (v = 0)) .badParam
  else if off = 0x5A08 then failIf (decide (wfld v 31 16 ≤ wfld v 15 0)) .badParam
  else if off = 0x5A14 then failIf (decide (2 ^ a.sandCores ≤ wfld v 15 0 ∨ 2 ^ a.sandCores ≤ wfld v 31 16)) .notPresent
  else if off = 0x6008 then failIf (!a.hasEvr && a.evr.lifeSet) .conflict
  else if off = 0x6018 then failIf (decide (wfld v 1 0 ≠ 0)) .badParam
  else if off = 0x6020 then failIf (wbit v 0 && a.evr.flush.isSome) .busyRetry
  else if off = 0x6100 then failIf (decide (20 < wfld v 20 16 ∨ wfld v 20 16 < 4 ∨ 4 < wfld v 2 0)) .badParam
  else []

/-- The refusals that a register's own description gives a write. -/
def Atu.writeChecks (a : Atu) (s : Side) (off : Nat) (v : Word) : List Status :=
  a.checksA s off v ++ a.checksB off v ++ a.checksC off v ++ failIf (a.claimFails off v) .conflict

/-- An RWO register was already written since reset (R13). -/
def Atu.rwoTaken (a : Atu) (r : RegRow) (off : Nat) : Bool := decide (r.rwo ≠ 0) && a.bound.rwo.contains off

/-- The event-recorder registers answer BUSY_RETRY until the load of R250 is complete (R266). -/
def Atu.evrLoading (a : Atu) (off : Nat) : Bool :=
  decide (0x6000 ≤ off) && decide (off ≤ 0x6100) && a.hasEvr && !a.evr.loaded

/-- Who may write a register: the seed of LIFE_SECONDS is the host's alone where the event recorder is absent (R224). -/
def Atu.ownerOf (a : Atu) (r : RegRow) (off : Nat) : Owner := if off = 0x6008 && !a.hasEvr then .hostOnly else r.owner

/-- Whether a write touches fields that ownership guards. -/
def Atu.guarded (a : Atu) (r : RegRow) (off : Nat) : Bool :=
  decide (r.rw ≠ 0 ∨ r.wo ≠ 0 ∨ r.rwo ≠ 0) || (off = 0x6008 && !a.hasEvr)

/-- Every code that applies to an access (R279), before the order of R21. -/
def Atu.accessCodes (a : Atu) (s : Side) (wr : Bool) (off : Nat) (v : Word) (strb : Nat) : List Status :=
  let strobe := failIf (decide (strb ≠ 0xF)) .badParam
  match atuRow off with
  | none => strobe ++ [.access]
  | some r =>
    let absent := failIf (!a.present r.unit) .notPresent
    let priv := failIf (wr && a.guarded r off && !a.mayWrite (a.ownerOf r off) s) .privilege
    let own := if wr && a.present r.unit then a.writeChecks s off v ++ failIf (a.rwoTaken r off) .conflict else []
    priv ++ absent ++ strobe ++ own ++ failIf (a.evrLoading off) .busyRetry

/-! ### The error log (R284, R285) -/

/-- The REG_ERROR record of a refused access. -/
def Atu.refusedEvent (a : Atu) (off : Nat) (c : Status) : Atu := a.event 0x0C 1 0 (leBytes 4 off ++ leBytes 1 (statusCode c) ++ zeros 3)

/-- Record a refused access in ATU_ERR_ADDR, ATU_ERR_INFO and ATU_ERR_HADDR (R284, R285). -/
def Atu.logEntry (a : Atu) (e : ErrEntry) : Atu :=
  let a := a.setRegN 0x0020 (e.off % 65536)
  let a := a.setRegN 0x0024 (statusCode e.code + 256 * b2n e.wr + 512 * sideNat e.side + 1024 * b2n e.haddr.isSome)
  { a with regs := rset64 a.regs 0x0028 (e.haddr.getD 0) }

/-- A refused access: logged when ERR_LOGGED was clear, counted always, recorded when the event recorder runs. -/
def Atu.logRefusal (a : Atu) (s : Side) (wr : Bool) (off : Nat) (c : Status) : Atu :=
  let e : ErrEntry := ⟨off, c, wr, s, if c = .access && decide (off = 0x0790) && (atuRow off).isSome then a.chkOutside a.chkAddr a.chkLen else none⟩
  let a := if a.bit 0x0030 0 then a else a.logEntry e
  ({ a with bound := { a.bound with refusal := some e } }.flag (bndFlag 0)).refusedEvent off c

/-- A refused access (R284), with what the register's own rules add to its refusal. -/
def Atu.refuse (a : Atu) (s : Side) (wr : Bool) (off : Nat) (v : Word) (c : Status) : Atu :=
  let a := a.logRefusal s wr off c
  let a := if wr && c = .conflict && a.claimFails off v then a.flag (bndFlag 3) else a
  let a := if wr && decide (off = 0x0608) then a.setFld 0x060C 15 8 (statusCode c) else a
  let a := if wr && decide (off = 0x0608) && c = .conflict && !wbit v 8 && a.commitStarved (wfld v 7 0) then a.flag (bndFlag 3) else a
  if wr && decide (off = 0x380C) && c = .busyRetry then a.flag (logFlag 11) else a

/-! ### The main reset (R264 to R268) -/

/-- Registers that a main reset leaves: the always-on domain (R217), integration values, OOB_SEEN, and the DIE_ID sampled at the last release (R274). -/
def keepsOverReset (off : Nat) : Bool :=
  off ≤ 0x0004 || off = 0x0008 || off = 0x0018 || (decide (0x0480 ≤ off) && decide (off ≤ 0x04BC)) || (decide (0x2000 ≤ off) && decide (off ≤ 0x21FC)) ||
    off = 0x0880 || (decide (0x5000 ≤ off) && decide (off < 0x5A00)) || (decide (0x6000 ≤ off) && decide (off ≤ 0x6100)) ||
    off = 0x701C || off = 0x709C

/-- Reset values other than 0 of main-domain registers. -/
def mainResetRegs : SMap Word :=
  [(0x000C, 0xFFFF), (0x0520, 0x2), (0x0540, 0x4), (0x0560, 0x6), (0x0580, 0x8), (0x05A0, 0xA), (0x05C0, 0xC), (0x05E0, 0xE),
   (0x0718, 26), (0x3000, 0x0A04BB80), (0x3068, 20)] ++ (List.range 16).map (fun n => (0x3100 + 8 * n, 0x8)) ++
  [(0x3800, 0x10000), (0x5A04, 3600), (0x5A08, 0x07080258), (0x5A0C, 0x00102710)]

/-- Bits of a main-domain register that integration fixes: trace ports of a source, sanding cores, their power domains. -/
def integrationBits (off : Nat) (w : Word) : Word :=
  if 0x3104 ≤ off ∧ off < 0x3184 ∧ off % 8 = 4 then w &&& 0x3
  else if off = 0x5A00 then w &&& 0x1F0000
  else if 0x5A80 ≤ off ∧ off < 0x5B80 ∧ off % 16 = 0 then w &&& 0xF0
  else 0

/-- The register file after a main reset. -/
def resetFile (r : SMap Word) : SMap Word :=
  let kept := r.filter fun p => keepsOverReset p.1
  let fixed := (r.filter fun p => !keepsOverReset p.1).foldl (fun m p => rset m p.1 (integrationBits p.1 p.2)) kept
  mainResetRegs.foldl (fun m p => rset m p.1 p.2) fixed

/-- A resend that a main reset cut ends ABORTED (R148). -/
def Atu.cutResend (a : Atu) (running : Bool) : Atu :=
  if running then (a.setFld 0x0774 15 8 (statusCode .aborted)).flag (frameFlag 2) else a

/-- The main reset asserts from a source (R264, R266, R267): main-domain state returns to reset, an access outstanding on the
register bus completes with ABORTED, and queued remote accesses are discarded. -/
def Atu.mainReset (a : Atu) (cause : Nat) : Atu :=
  let heldHost := a.bound.held.any fun h => decide (h.side = .host)
  let src := if a.bound.inReset then orBit a.bound.sources cause true else 2 ^ cause
  Atu.cutResend (running := a.path.resend.isSome) { a with
    regs := rsetN (resetFile a.regs) 0x0014 src
    time := { elapsed := a.time.elapsed, steered := a.time.steered, trackA := { since := a.time.elapsed }, trackB := { since := a.time.elapsed } }
    samp := { regions := a.samp.regions, blocks := a.samp.blocks.map fun (t : TapBlock) => { tapVal := t.tapVal } }
    path := {}
    trace := { tokensAt := a.time.elapsed }
    log := {}
    sand := Vector.replicate 16 {}
    age := { a.age with strobeAt := none }
    safe := { now := a.safe.now, riseAt := a.safe.riseAt, riseHt := a.safe.riseHt }
    portA := {}
    portB := {}
    bound := { inReset := true, resetAt := a.time.elapsed, releaseAt := none, ready := false, sources := src,
               mainPwrOk := a.bound.mainPwrOk, rstLow := a.bound.rstLow,
               hostSide := { evrRdPos := a.bound.hostSide.evrRdPos }, aggSide := { evrRdPos := a.bound.aggSide.evrRdPos }, clkRun := a.bound.clkRun, clkStopAt := a.bound.clkStopAt,
               answer := if heldHost then ⟨.aborted, 0⟩ else a.bound.answer } }

/-- Registers of the always-on domain after a power-on reset: integration values stay, the rest take their reset values. -/
def porFile (r : SMap Word) : SMap Word :=
  let keep off := off ≤ 0x0004 || (decide (0x0480 ≤ off) && decide (off ≤ 0x04BC)) || (decide (0x2000 ≤ off) && decide (off ≤ 0x21FC)) || off = 0x0880
  let fixed (p : Nat × Word) : Word :=
    if 0x5100 ≤ p.1 ∧ p.1 < 0x5900 ∧ p.1 % 0x40 = 0 then p.2 &&& 0xF3 else integrationBits p.1 p.2
  let base := (r.filter fun p => !keep p.1).foldl (fun m p => rset m p.1 (fixed p)) (r.filter fun p => keep p.1)
  -- PREF, LIMIT, GUARD_LOW and GUARD_HIGH of a site return to their integration values
  let site (m : SMap Word) (k : Nat) : SMap Word :=
    let b := 0x5100 + 0x40 * k
    let m := rset (rset m b (rget m b ||| (rget integrationRegs b &&& 0x4))) (b + 4) (rget integrationRegs (b + 4))
    rset (rset (rset m (b + 8) (rget integrationRegs (b + 8))) (b + 0x10) 0xFFFFFFFF) (b + 0x38) 0xFFFFFFFF
  let base := (List.range 32).foldl site base
  rset (rset (rset base 0x5000 0x003C0100) 0x5004 0x22380258) 0x6000 0x03E80A07

/-- ATU_POR_N resets both domains (R264). The non-volatile store and host memory are outside the ATU and stay. -/
def Atu.por (a : Atu) : Atu :=
  let a := { a with regs := porFile a.regs, age := {}, evr := { nv := a.evr.nv, loaded := !a.hasEvr } }
  let a := if a.hasEvr then a else a.setRegN 0x600C 1
  { a with bound := { a.bound with hostSide := {}, aggSide := {} } }.mainReset 0

/-- The ATU right after its power-on reset (R264): the main reset is asserted. -/
def Atu.atReset : Atu := Atu.por { regs := integrationRegs }

/-- ATU_RST_N asserts (R264). -/
def Atu.rstAssert (a : Atu) : Atu := { a with bound := { a.bound with rstLow := true } }.mainReset 1

/-- The main reset is released (R265, R274, R275): DIE_ID is sampled, once the reset has lasted 2 microseconds. -/
def Atu.resetRelease (a : Atu) (dieId : Word) : Atu :=
  if !a.bound.inReset || decide (a.time.elapsed < a.bound.resetAt + 2000) then a
  else
    let a := (a.setReg 0x0008 dieId).setFld 0x0030 8 8 (b2n (decide (wfld dieId 5 0 ≠ 0)))
    { a with bound := { a.bound with inReset := false, releaseAt := some a.time.elapsed, mainPwrOk := true, rstLow := false },
             time := { a.time with trackA := { since := a.time.elapsed }, trackB := { since := a.time.elapsed } } }

/-- 2 microseconds after the release the ATU accepts register accesses (R266, R267). -/
def Atu.becomeReady (a : Atu) : Atu :=
  match a.bound.releaseAt with
  | some t =>
    if a.bound.inReset || a.bound.ready || decide (a.time.elapsed < t + 2000) then a
    else { a with bound := { a.bound with ready := true } }.flag (bndFlag 2)
  | none => a

/-! ### Effects of a write -/

/-- Claim the lowest free DMA channel. -/
def Atu.takeDma (a : Atu) (holder : Nat) (s : Side) : Atu :=
  match a.freeDma with | some k => a.setClaim k holder 0 s | none => a

/-- The trace timer is held exactly while a stop delay is set or event 29 is selected (R286). -/
def Atu.timerClaim (a : Atu) (s : Side) : Atu :=
  let need := decide (a.fld 0x3010 31 16 ≠ 0) || selects29 (a.reg 0x3010) (a.reg 0x3014)
  if need then (if a.claimHolder 7 = 7 then a else a.setClaim 7 7 0 s) else a.freeClaim 7

/-- Effects of writes to boundary, sampling and frame registers. `old` is the word before the write. -/
def Atu.effectA (a : Atu) (s : Side) (off : Nat) (v old : Word) : Atu :=
  if off = 0x000C then (if a.reg 0x000C = old then a else a.flag (bndFlag 1))
  else if off = 0x0010 then a.mainReset 3
  else if off = 0x0050 then
    (if wbit v 0 && !wbit old 0 then a.setClaim (wfld v 2 1) 2 (wfld v 2 1) s
     else if !wbit v 0 && wbit old 0 then a.freeClaim (wfld old 2 1) else a)
  else if off = 0x0600 then a.setSideRegs s { a.sideRegs s with actWinLo := v }
  else if off = 0x0604 then a.setSideRegs s { a.sideRegs s with actWinHi := v &&& 0xFFFF }
  else if off = 0x0608 then
    (if wbit v 8 then (a.commitCancel s (wfld v 7 0)).2
     else (a.commit s (wfld v 7 0) ((a.sideRegs s).actWinLo.toNat + 2 ^ 32 * (a.sideRegs s).actWinHi.toNat)).2)
  else if off = 0x0700 then a.mapChans fun n c => if wbit v n then { c with flush := true } else c
  else if off = 0x0718 then
    (if wbit v 8 && !wbit old 8 then a.spillEnable.takeDma 3 s
     else if !wbit v 8 && wbit old 8 then a.spillDisable else a)
  else if off = 0x0770 then (if wbit v 8 then a.resendStart (wfld v 7 0) else a)
  else if off = 0x0790 then (if wbit v 0 then (a.chkStart (wbit v 1)).takeDma 6 s else a)
  else a

/-- Effects of writes to trace and log registers. -/
def Atu.effectB (a : Atu) (s : Side) (off : Nat) (v old : Word) : Atu :=
  if off = 0x3000 then
    (if wbit v 2 && !wbit old 2 then { a with trace := { a.trace with bufWr := 0, bufFull := false } }.takeDma 4 s
     else if !wbit v 2 && wbit old 2 then a.releaseDma 4 else a)
  else if off = 0x3004 then (if wbit v 1 then a.traceStop 0 else if wbit v 0 then a.traceStart 0 else a)
  else if off = 0x3010 then a.timerClaim s
  else if off = 0x3014 then
    ((List.range 4).foldl (fun a k =>
      let o := wfld old (6 * k + 5) (6 * k)
      let n := wfld v (6 * k + 5) (6 * k)
      if o = 0 ∧ n ≠ 0 then a.setClaim k 1 k s else if o ≠ 0 ∧ n = 0 then a.freeClaim k else a) a).timerClaim s
  else if off = 0x3020 then
    { a with trace := { a.trace with auth := { a.trace.auth with key := a.trace.auth.key + v.toNat, keyLoSet := true } } }
  else if off = 0x3024 then
    { a with trace := { a.trace with auth := { a.trace.auth with key := a.trace.auth.key + 2 ^ 32 * v.toNat, keyHiSet := true } } }
  else if off = 0x3028 then a.setSideRegs s { a.sideRegs s with authLo := v }
  else if off = 0x3030 then a.setSideRegs s { a.sideRegs s with authExpLo := v }
  else if off = 0x3034 then a.setSideRegs s { a.sideRegs s with authExpHi := v &&& 0xFFFF }
  else if off = 0x3800 then
    let a := a.logEnable (wfld (v &&& ~~~old) 15 0)
    (if wbit v 17 && !wbit old 17 then a.logRestart.takeDma 5 s
     else if !wbit v 17 && wbit old 17 then a.releaseDma 5 else a)
  else if off = 0x380C then a.logSubmit v
  else a

/-- Effects of writes to ageing, sanding and event-recorder registers. -/
def Atu.effectC (a : Atu) (s : Side) (off : Nat) (v old : Word) : Atu :=
  if 0x5100 ≤ off ∧ off < 0x5900 ∧ off % 0x40 = 0 then
    (if wbit v 3 && !wbit old 3 then a.setFld 0x500C ((off - 0x5100) / 0x40) ((off - 0x5100) / 0x40) 0 else a)
  else if h : 0x5100 ≤ off ∧ off < 0x5900 ∧ off % 0x40 = 0x14 then
    (if wfld v 19 0 < 8 then a.armEol ⟨(off - 0x5100) / 0x40, by omega⟩ else a)
  else if off = 0x5A00 then ({ a with regs := rset a.regs 0x5A00 old }).sandEnableWrite (wfld v 15 0)
  else if off = 0x5A04 ∨ off = 0x5A08 then a.sandRetime
  else if off = 0x5A14 then (a.sandRunNow (wfld v 15 0)).sandClearFailed (wfld v 31 16)
  else if off = 0x6008 then (if a.hasEvr then a else a.lifeSeed v.toNat)
  else if off = 0x6018 then a.setSideRegs s { a.sideRegs s with evrRdPos := v &&& 0xFFFF }
  else if off = 0x6020 then (if wbit v 0 then a.startFlush 3 else a)
  else if off = 0x6100 then a.hostRecord v
  else a

/-- Registers held per side, and TAPSEL words beyond the built taps, are not stored in the common file (R283). -/
def Atu.storedOff (a : Atu) (off : Nat) : Bool :=
  !(off = 0x0600 || off = 0x0604 || off = 0x3030 || off = 0x3034 || off = 0x6018) &&
    !(decide (0x1000 ≤ off) && decide (off < 0x2000) && decide (a.tapWords ≤ (off % 0x200) / 4)) &&
    !(a.path.chkBusy && (off = 0x0780 || off = 0x0794 || off = 0x0798))

/-- A register with stored bits that a write may change. -/
def RegRow.stores (r : RegRow) : Bool := decide (r.rw ≠ 0 ∨ r.w1c ≠ 0)

/-- The stored part of a write: RW fields take the value, W1C bits are cleared by ones, all else is ignored (R12). -/
def storeWord (r : RegRow) (old v : Word) : Word :=
  ((old &&& ~~~(w32 r.rw)) ||| (v &&& w32 r.rw)) &&& ~~~(v &&& w32 r.w1c)

/-- A write that no check refuses. The token of ATU_TRC_AUTH_HI may still be refused with PRIVILEGE (R185, R186). -/
def Atu.doWrite (a : Atu) (s : Side) (r : RegRow) (off : Nat) (v : Word) : Status × Atu :=
  let old := a.reg off
  let a := if a.storedOff off && r.stores then a.setReg off (storeWord r old v) else a
  let a := if r.rwo ≠ 0 then { a with bound := { a.bound with rwo := off :: a.bound.rwo } } else a
  if off = 0x302C then a.authToken (a.sideRegs s) v
  else (.ok, ((a.effectA s off v old).effectB s off v old).effectC s off v old)

/-! ### The access (R276 to R279) -/

/-- One access at the ATU's serialisation point, local or remote (R278): its answer, and the ATU after it. -/
def Atu.access (a : Atu) (s : Side) (wr : Bool) (off : Nat) (v : Word) (strb : Nat) : RegAnswer × Atu :=
  if a.bound.inReset then (⟨.busyRetry, 0⟩, a.refusedEvent off .busyRetry)
  else if !a.bound.ready then (⟨.busyRetry, 0⟩, a.logRefusal s wr off .busyRetry)
  else
    match firstCode (a.accessCodes s wr off v strb) with
    | some c => (⟨c, 0⟩, a.refuse s wr off v c)
    | none =>
      match atuRow off with
      | none => (⟨.access, 0⟩, a)
      | some r =>
        if wr then
          let (c, a') := a.doWrite s r off v
          if c = .ok then (⟨.ok, 0⟩, a') else (⟨c, 0⟩, a'.refuse s wr off v c)
        else (⟨.ok, a.readWord s off⟩, a.readEffect s off)

/-- ERR_LOGGED is cleared in the cycle of a refused access: the log takes that access (R284). -/
def Atu.relog (a : Atu) : Atu := match a.bound.refusal with | some e => a.logEntry e | none => a

/-- W1C bits that hardware sets in the very cycle of a write end that cycle set (R15). `before` is the ATU before the write. -/
def Atu.keepSame (a before : Atu) (off : Nat) (same : Word) : Atu :=
  let a := if off = 0x0030 && before.bit 0x0030 0 && !a.bit 0x0030 0 && wbit same 0 then a.relog else a
  match atuRow off with
  | some r => a.setReg off (a.reg off ||| (before.reg off &&& same &&& w32 r.w1c))
  | none => a

/-- An access of the host on its register bus (R276, R751): while ATU_CLK is stopped it waits with REG_READY low. -/
def Atu.hostAccess (a : Atu) (wr : Bool) (off : Nat) (v : Word) (strb : Nat) : Atu :=
  if !a.bound.clkRun then
    { a with bound := { a.bound with held := a.bound.held ++ [⟨.host, .a, 0, wr, off, v, strb⟩] } }
  else
    let (ans, a) := a.access .host wr off v strb
    { a with bound := { a.bound with answer := ans } }

end Sys2Proof.Machine
end

