-- ==== Sys2Proof/Machine/AtuPorts.lean ====
section
/-!
DEFINITION. AtuPorts.lean: the ATU's two die ports and its safety forwarding: R293 to R310 of spec/08_links.md, R673 of
spec/18_safety.md, and the stopped clock of R751.
-/
namespace Sys2Proof.Machine

/-! ### Register requests (R295) -/

/-- A register response (R295). -/
def regResponse (tag : Nat) (ans : RegAnswer) (wr : Bool) : List Byte :=
  leBytes 2 tag ++ leBytes 1 (statusCode ans.code) ++ zeros 5 ++ leBytes 4 (if wr then 0 else ans.dat.toNat)

/-- Requests outstanding at a port: held ones and answers not yet sent. -/
def Atu.outstanding (a : Atu) (p : PortId) : Nat :=
  (a.bound.held.filter fun h => decide (h.side = .agg ∧ h.port = p)).length + ((a.port p).waiting.filter (·.1 = 4)).length

/-- The response to the access that asserts the main reset leaves at once (R268): it is the last flit that the port drives. DEDUCED
(notes/assumptions/138.md): it goes ahead of every other message and of a replay, all of which the reset discards. -/
def PortEnd.sendLast (p : PortEnd) (now : Nat) (m : List Byte) : PortEnd :=
  if p.state = .up then { p with current := [] }.sendData now ⟨4, false, m⟩ else p

/-- Answer one register access from a die port (R278, R295). Where the access asserts the main reset, its response leaves first (R268). -/
def Atu.answerPort (a : Atu) (p : PortId) (tag : Nat) (wr : Bool) (off : Nat) (v : Word) : Atu :=
  let (ans, a') := a.access .agg wr off v 0xF
  let m := regResponse tag ans wr
  if a'.bound.inReset then
    a'.setPort p { a'.port p with lastTx := ((a.port p).sendLast a.time.elapsed m).lastTx }
  else a'.setPort p ((a'.port p).enqueue 4 m)

/-- Apply one register access from a die port and queue its response (R278, R295). While ATU_CLK is stopped it waits (R751);
while the ATU is in reset it is discarded without a response (R266). -/
def Atu.portAccess (a : Atu) (p : PortId) (tag : Nat) (wr : Bool) (off : Nat) (v : Word) : Atu :=
  if a.bound.inReset || decide (16 ≤ a.outstanding p) then a
  else if !a.bound.clkRun then
    { a with bound := { a.bound with held := a.bound.held ++ [⟨.agg, p, tag, wr, off, v, 0xF⟩] } }
  else a.answerPort p tag wr off v

/-- A register request message (R295). -/
def Atu.request (a : Atu) (p : PortId) (m : List Byte) : Atu :=
  a.portAccess p (leAt m 0 2) (bitAt (leAt m 2 1) 0) (leAt m 4 2) (w32 (leAt m 8 4))

/-- A register request that arrives on its own row: the port is in UP and the message whole (R293, R295). -/
def Atu.requestMsg (a : Atu) (p : PortId) (m : List Byte) : Atu :=
  if (a.port p).state = .up ∧ m.length = 12 then a.request p m else a

/-- ATU_MAIN_PWROK falls (R264): a reset source only while ATU_RST_N is deasserted. -/
def Atu.mainPwrLow (a : Atu) : Atu :=
  let a := if a.bound.rstLow then a else a.mainReset 2
  { a with bound := { a.bound with mainPwrOk := false } }

/-- A fault flush starts when it may (R252). -/
def Atu.faultFlush (a : Atu) : Atu := if a.faultFlushReady then a.startFlush 2 else a

/-- A register access from either side of the window (R276, R278). -/
def Atu.accessFrom (a : Atu) (src : RegFrom) (wr : Bool) (off : Nat) (v : Word) (strb : Nat) : Atu :=
  match src with
  | .host => a.hostAccess wr off v strb
  | .port p tag => a.portAccess p tag.toNat wr (off % 0x10000) v

/-- A whole-word write from either side. -/
def Atu.writeFrom (a : Atu) (src : RegFrom) (off : Nat) (v : Word) : Atu := a.accessFrom src true off v 0xF

/-- ATU_CLK returns (R751): an access that waited is applied. A reset that an earlier one asserted discards it (R266). -/
def Atu.releaseHeld (a : Atu) (h : HeldAccess) : Atu :=
  match h.side with
  | .host =>
    let (ans, a) := a.access .host h.wr h.off h.dat h.strb
    { a with bound := { a.bound with answer := ans } }
  | .agg => if a.bound.inReset then a else a.answerPort h.port h.tag h.wr h.off h.dat

/-- ATU_CLK stops (R751). -/
def Atu.clkStop (a : Atu) : Atu :=
  if a.bound.clkRun then { a with bound := { a.bound with clkRun := false, clkStopAt := a.time.elapsed } } else a

/-- ATU_CLK stood still for `d` ns: a stream's open chunk and its TIMESTAMP interval lasted no longer for it (R174, R181). -/
def TraceStream.shift (t : TraceStream) (d : Nat) : TraceStream := { t with openedAt := t.openedAt.map (· + d), lastAt := t.lastAt + d }

/-- What ATU_CLK counts stood still for `d` ns (R751): tests, aborts, the stop delay, the trigger pulses, the trace rate and the streams. -/
def Atu.shiftTimers (a : Atu) (d : Nat) : Atu :=
  { a with
    sand := a.sand.map fun c => { c with runSince := c.runSince + d, againAt := c.againAt.map (· + d) }
    trace := { a.trace with stopAt := a.trace.stopAt.map (· + d), pulse := a.trace.pulse.map fun t => if t = 0 then 0 else t + d,
                            tokensAt := a.trace.tokensAt + d, log := a.trace.log.shift d,
                            srcs := a.trace.srcs.map fun x => { x with stream := x.stream.shift d } } }

/-- ATU_CLK returns (R751): stop captures that waited are made, an authorisation that expired meanwhile drops, tests that a power failure ends are
aborted, and the waiting accesses are applied, the local ones first (R278). -/
def Atu.clkRestart (a : Atu) : Atu :=
  let (host, far) := a.bound.held.partition fun h => decide (h.side = .host)
  let hs := host ++ far
  let a := if a.bound.clkRun then a else a.shiftTimers (a.time.elapsed - a.bound.clkStopAt)
  let a := { a.stopResume with bound := { a.bound with clkRun := true, held := [] } }.authExpire
  hs.foldl Atu.releaseHeld (if a.powerFailing then a.powerAborts else a)

/-! ### Safety forwarding (R302, R303, R673) -/

/-- Payload of a SAFETY flit (R302), flit bytes 8 to 23. -/
def safetyPayload (seq now since state dieId : Nat) : List Byte :=
  withCrc crc32c (leBytes 1 0x5E ++ leBytes 1 1 ++ leBytes 2 seq ++ leBytes 1 now ++ leBytes 1 since ++ leBytes 1 state ++ zeros 1 ++ leBytes 4 dieId)

/-- Byte 14 of a SAFETY flit (R302). -/
def Atu.safetyState (a : Atu) : Nat :=
  b2n a.inRun + 2 * b2n a.powerFailing + 4 * b2n (decide (a.time.state = .locked)) + 8 * b2n (a.bit 0x6800 8)

/-- Ask for a SAFETY flit at the next boundary of every port in UP. -/
def Atu.askSafety (a : Atu) : Atu :=
  let ask (p : PortEnd) : PortEnd := if p.state = .up then { p with safetyDue := true } else p
  { a with portA := ask a.portA, portB := ask a.portB }

/-- A self-check fault (R673): in force until a main reset. -/
def Atu.selfFault (a : Atu) : Atu := (a.setFld 0x6800 8 8 1).flag (safeFlag 24)

/-- The beat interval check of R673: more than 1 % away from 100 microseconds. -/
def Atu.checkInterval (a : Atu) (last : Nat) : Atu :=
  let d := a.time.elapsed - last
  if 101000 < d then (a.setFld 0x6808 8 8 1).selfFault else a

/-- Every 100 microseconds a SAFETY flit falls due on every port in UP (R302). -/
def Atu.safetyBeat (a : Atu) : Atu :=
  let now := a.time.elapsed
  let a := if a.portA.state = .up ∧ a.safe.beatA + 100000 ≤ now then
      { a.checkInterval a.safe.beatA with portA := { a.portA with safetyDue := true }, safe := { a.safe with beatA := now } } else a
  if a.portB.state = .up ∧ a.safe.beatB + 100000 ≤ now then
    { a.checkInterval a.safe.beatB with portB := { a.portB with safetyDue := true }, safe := { a.safe with beatB := now } } else a

/-- One input of SAFE_IN rises or falls. -/
def Atu.safeEdge (a : Atu) (i : Fin 8) (now : Bool) : Atu :=
  let was := a.safe.now.testBit i.val
  if now && !was then
    let a := { a with safe := { a.safe with riseAt := a.safe.riseAt.set i a.time.elapsed, riseHt := a.safe.riseHt.set i a.time.ht } }
    a.flag (safeFlag (16 + i.val))
  else if !now && was then
    a.event 0x03 2 i.val (leBytes 4 (min 0xFFFFFFFF (a.time.elapsed - a.safe.riseAt[i])) ++ zeros 4)
  else a

/-- The recognised state of SAFE_IN[7:0] changes (R302, R673): the window is marked, SEEN and the records follow, an extra SAFETY
flit is asked for, and trigger event 30 fires on an assertion. -/
def Atu.safeIn (a : Atu) (lv : BitVec 8) : Atu :=
  let v := lv.toNat
  if v = a.safe.now || a.bound.inReset then a
  else
    let rise := decide (v &&& (255 - a.safe.now) ≠ 0)
    let a := (List.finRange 8).foldl (fun a i => a.safeEdge i (v.testBit i.val)) a
    let s := { a.safe with now := v, sinceA := a.safe.sinceA ||| v, sinceB := a.safe.sinceB ||| v }
    let a := { a with safe := s, samp := { a.samp with win := { a.samp.win with safe := a.samp.win.safe || decide (v ≠ 0) } } }
    let a := a.askSafety
    if rise && a.hasTrace && a.bound.clkRun then a.fire [30] else a

/-- The 1 ms path test of the SAFE_IN captures (R673), in RUN (R273): `fails` are the inputs whose test failed or whose paths disagree. -/
def Atu.pathTest (a : Atu) (fails : BitVec 8) : Atu :=
  if !a.inRun then a
  else
    let a := a.setFld 0x6808 31 16 (a.fld 0x6808 31 16 + 1)
    if fails = 0 then a
    else (a.setReg 0x6808 (a.reg 0x6808 ||| w32 fails.toNat)).selfFault

/-! ### Sending (R294) -/

/-- A chunk of a stream that a port still needs, with the stream after it is taken. -/
def takeChunk (p : PortId) : List Chunk → Option (List Byte × List Chunk)
  | [] => none
  | c :: cs =>
    let need := match p with | .a => c.needA | .b => c.needB
    if need then
      let c' := match p with | .a => { c with needA := false } | .b => { c with needB := false }
      some (c.bytes, if c'.needA || c'.needB || c'.needBuf then c' :: cs else cs)
    else match takeChunk p cs with
      | some (b, cs') => some (b, c :: cs')
      | none => none

/-- Tokens of the trace rate limit on a port, topped up to now, with a burst of 8 KiB (R202). They are counted in thousandths of a byte, of which
RATE_MBS falls due in each nanosecond. -/
def Atu.topUp (a : Atu) : Atu :=
  let gain := (a.time.elapsed - a.trace.tokensAt) * a.fld 0x3000 15 4
  { a with trace := { a.trace with tokensA := min 8192000 (a.trace.tokensA + gain), tokensB := min 8192000 (a.trace.tokensB + gain),
                                   tokensAt := a.time.elapsed } }

def Atu.tokens (a : Atu) (p : PortId) : Nat := match p with | .a => a.trace.tokensA | .b => a.trace.tokensB
def Atu.setTokens (a : Atu) (p : PortId) (n : Nat) : Atu :=
  match p with
  | .a => { a with trace := { a.trace with tokensA := n } }
  | .b => { a with trace := { a.trace with tokensB := n } }
def Atu.spend (a : Atu) (p : PortId) : Atu := a.setTokens p (a.tokens p - 64000)

/-- The first source with a chunk for a port. -/
def Atu.pullSource (a : Atu) (p : PortId) : List (Fin 16) → Option (List Byte × Atu)
  | [] => none
  | n :: ns =>
    match takeChunk p (a.src n).stream.chunks with
    | some (b, cs) =>
      let x := a.src n
      some (b, { a with trace := { a.trace with srcs := a.trace.srcs.set n { x with stream := { x.stream with chunks := cs } } } })
    | none => a.pullSource p ns

/-- The next trace chunk for a port: sources in ascending order, then the log stream. -/
def Atu.pullChunk (a : Atu) (p : PortId) : Option (List Byte × Atu) :=
  match a.pullSource p (List.finRange 16) with
  | some x => some x
  | none =>
    match takeChunk p a.trace.log.chunks with
    | some (b, cs) => some (b, { a with trace := { a.trace with log := { a.trace.log with chunks := cs } } })
    | none => none

/-- Move one trace chunk to a port that has nothing better to send, within the rate limit (R201, R202). -/
def Atu.offerTrace (a : Atu) (p : PortId) : Atu :=
  let q := a.port p
  if !q.waiting.isEmpty || !q.current.isEmpty || decide (q.state ≠ .up) || !a.bound.clkRun then a
  else
    let a := a.topUp
    if a.tokens p < 64000 then a
    else match a.pullChunk p with
      | none => a
      | some (b, a) => (a.setPort p ((a.port p).enqueue 2 b)).spend p

/-- The SAFETY flit of a port (R302). -/
def Atu.sendSafety (a : Atu) (p : PortId) : Atu :=
  let q := a.port p
  let since := match p with | .a => a.safe.sinceA | .b => a.safe.sinceB
  let f := dieFlit 3 0 0 q.retry.ackField 16 (safetyPayload q.safetySeq a.safe.now since a.safetyState (a.reg 0x0008).toNat)
  let a := a.setPort p ({ q with safetyDue := false, safetySeq := (q.safetySeq + 1) % 65536 }.drive f)
  let a := a.inc (portBase p + 0x18) 1
  match p with
  | .a => ({ a with safe := { a.safe with sinceA := a.safe.now } }).setFld 0x6804 15 0 q.safetySeq
  | .b => ({ a with safe := { a.safe with sinceB := a.safe.now } }).setFld 0x6804 31 16 q.safetySeq

/-- A boundary of an ATU port in training (R304): the pattern until block lock, then IDLE flits; in CALIBRATE the identity goes first. A LOOPBACK
flit to return goes by its own command. -/
def Atu.sendTraining (a : Atu) (p : PortId) : Atu :=
  let q := a.port p
  match q.state with
  | .train => a.setPort p (if q.training.blockLock then q.sendIdle else { q with lane := .pattern, lastTx := none, line := [] })
  | .calibrate =>
    if q.training.identDue then
      a.setPort p { q with lane := .identity (a.reg 0x0004) (a.reg 0x0000) (a.reg 0x0008), lastTx := none, line := [], training := { q.training with identDue := false } }
    else if q.loopDue.isSome then a else a.setPort p q.sendIdle
  | _ => a

/-- A flit boundary of an ATU port (R294): SAFETY, then replay and DATA by priority, then IDLE. While ATU_CLK stands no message moves (R751); the
physical layer's replays and IDLE flits go on. -/
def Atu.sendFlit (a : Atu) (p : PortId) : Atu :=
  if (a.port p).state ≠ .up then a.sendTraining p
  else if (a.port p).safetyDue then a.sendSafety p
  else
    let a := a.offerTrace p
    let (q, sent, replayed) := (a.port p).sendNext a.time.elapsed (if a.bound.clkRun then [4, 0, 1, 2] else [])
    ((a.setPort p q).inc (portBase p + 0x10) sent).inc (portBase p + 0x08) replayed

/-! ### Receiving (R296 to R301) -/

/-- A replay started: the REPLAY flag (ATU_DPx_STATUS). -/
def Atu.replayFlag (a : Atu) (p : PortId) (started : Bool) : Atu := if started then a.flag (dpFlag p 10) else a

/-- Step 3 of R304 begins at the ATU's end: it sends its capabilities and identity, and calibration follows. -/
def PortEnd.identify (p : PortEnd) : PortEnd :=
  if p.state = .train ∧ p.training.idleGood then { p with state := .calibrate, training := { p.training with identDue := true } } else p

/-- A flit arrives at an ATU port (R296 to R301, R304). -/
def Atu.recvFlit (a : Atu) (p : PortId) (f : List Byte) : Atu :=
  if (a.port p).state = .down then a
  else
    let r := (a.port p).receive a.time.elapsed f
    let a := (a.setPort p r.port.identify).replayFlag p r.replay
    let a := if r.crcErr then ((a.inc (portBase p + 0x04) 1).flag (dpFlag p 9)) else a
    let a := if r.crcErr && decide (flitType f = 2) then a.flag (dpFlag p 12) else a
    let a := if r.taken then a.inc (portBase p + 0x14) 1 else a
    if r.limit then (a.flag (dpFlag p 11)).portDown p
    else
      let a := match r.msg with
        | some (3, m) => a.request p m
        | _ => a
      match r.side with
      | some (2, w) => if (a.port p).state = .up then a.beat p (w.take 48) else a
      | some (4, w) => a.setPort p { a.port p with loopDue := some w }
      | _ => a

/-- A LOOPBACK flit goes back with its payload unchanged (R301). After 64 of them the ATU's end enters UP. -/
def Atu.loopReturn (a : Atu) (p : PortId) : Atu :=
  let q := a.port p
  match q.loopDue with
  | none => a
  | some w =>
    let q := { q with loopDue := none, training := { q.training with loops := q.training.loops + 1 } }.drive (dieFlit 4 0 0 q.retry.ackField 116 w)
    let a := a.setPort p q
    if q.state = .calibrate ∧ 64 ≤ q.training.loops then a.portUp p else a

/-- An unacknowledged flit was held 2 microseconds (R297, R298). -/
def Atu.retryTimeout (a : Atu) (p : PortId) : Atu :=
  let q := a.port p
  if q.state ≠ .up || !q.retry.timedOut a.time.elapsed then a
  else match q.retry.startReplay a.time.elapsed with
    | some r => (a.setPort p { q with retry := r }).replayFlag p true
    | none => (a.flag (dpFlag p 11)).portDown p

/-- 2 microseconds without a good flit (R305). -/
def Atu.idleTimeout (a : Atu) (p : PortId) : Atu :=
  let q := a.port p
  if q.state = .up ∧ q.lastGood + 2000 ≤ a.time.elapsed then a.portDown p else a

/-- The receiver loses block lock (R305). -/
def Atu.lockLoss (a : Atu) (p : PortId) : Atu :=
  let q := a.port p
  if q.state = .up then a.portDown p
  else a.setPort p { q with training := { q.training with blockLock := false, idleGood := false, idleRun := 0 } }

/-- A training attempt starts at the ATU's end, out of reset (R273, R304). -/
def Atu.trainStart (a : Atu) (p : PortId) : Atu :=
  if a.bound.inReset || (p = .b && !a.hasPortB) then a else a.setPort p ((a.port p).trainStart a.time.elapsed)

/-- Block lock and 256 good IDLE flits (R304 steps 2 and 3). -/
def Atu.blockLock (a : Atu) (p : PortId) : Atu := a.setPort p (a.port p).lock.identify

def Atu.trainFail (a : Atu) (p : PortId) : Atu := a.setPort p ((a.port p).trainFail a.time.elapsed 2000000)
def Atu.trainWaitEnd (a : Atu) (p : PortId) : Atu := a.setPort p ((a.port p).waitEnd a.time.elapsed)

/-! ### Out-of-band reset (R308, R309) -/

/-- The reset control block (R308). -/
def resetBlock : LineBlock := ⟨0b10, [0xD2, 0xA5, 0xC3, 0x00, 0x5A, 0x3C, 0xFF, 0x2D]⟩

/-- 32 reset blocks in a row occur (R309). -/
def oobRun : Nat → List LineBlock → Bool
  | n, [] => decide (32 ≤ n)
  | n, b :: bs => if 32 ≤ n then true else oobRun (if b = resetBlock then n + 1 else 0) bs

/-- The reset sequence arrives on a port in block lock (R309, R310): the main reset, whatever the flit layer does. -/
def Atu.oobReset (a : Atu) (p : PortId) (bs : List LineBlock) : Atu :=
  if (a.port p).training.blockLock && oobRun 0 bs then (a.inc (portBase p + 0x1C) 1).mainReset 4 else a

end Sys2Proof.Machine
end

