-- ==== Sys2Proof/Machine/SafetyIsland.lean ====
section
/-!
DEFINITION. SafetyIsland.lean: the watch over the dies, the trip loop, the Safety Island's own faults, and the SAFETY flits between
modules: R303 and R316 of spec/08_links.md, R666 to R685 of spec/18_safety.md.
-/
namespace Sys2Proof.Machine

def Agg.withSi (g : Agg) (f : SafeUnit → SafeUnit) : Agg := { g with si := f g.si }
def Agg.watch (g : Agg) (p : Nat) : Watch := if h : p < 64 then g.si.ports[p] else {}
def Agg.modWatch (g : Agg) (p : Nat) (f : Watch → Watch) : Agg :=
  g.withSi fun u => if h : p < 64 then { u with ports := u.ports.set p (f u.ports[p]) } else u

/-- Fleet Die ID learned on a port. -/
def Agg.dieOn (g : Agg) (p : Nat) : Nat := (g.reg (dportBase p + 0x04)).toNat

/-- SAFE_IN_ENABLE of a port, from the RAM copy of the safety block. -/
def Agg.enablesOf (g : Agg) (p : Nat) : Nat := (g.si.enables[p]?).getD 0

/-- A mask of 64 ports. -/
def portMask (f : Nat → Bool) : Nat := ((List.range 64).map fun p => if f p then 2 ^ p else 0).sum

/-! ### The loop (R668 to R671) -/

/-- LOOP_RELEASE: both switches open (R668); the cause of the first trip is kept (R697). -/
def Agg.loopRelease (g : Agg) (cause p inputs : Nat) : Agg :=
  if !g.si.energised then g
  else
    (g.withSi fun u => { u with energised := false, tripped := true, cause := if u.cause = 0 then cause else u.cause }).event
      0x21 4 cause (leBytes 1 p ++ leBytes 1 inputs ++ zeros 6)

/-- A fault of the Safety Island itself (R682): a row of that table, and the release. -/
def Agg.siFault (g : Agg) (row : Nat) : Agg := (g.event 0x24 3 row (zeros 8)).loopRelease 5 0 0

/-! ### Beats of the dies (R303, R673 to R676) -/

/-- Make a die unsafe-unknown at this module (R675). -/
def Agg.setUnknown (g : Agg) (p : Nat) : Agg :=
  if (g.watch p).unknown || !(g.watch p).watched then g
  else ((g.modWatch p fun w => { w with unknown := true }).flag (asafeFlag 1)).event 0x22 2 p
    (leBytes 4 (g.dieOn p) ++ leBytes 2 (g.watch p).missed ++ zeros 2)

/-- A die leaves the watch set (R676, R677). Its last accepted beat stays known: its later beats are still checked and still bring alarms
(R674, R680). -/
def Watch.leave (w : Watch) : Watch := { lastSeq := w.lastSeq, alarm := w.alarm, fresh := w.fresh, inputs := w.inputs }

/-- The Safety Island counts a missed beat of a port (R675, R676, R753). -/
def Agg.siMiss (g : Agg) (p : Nat) : Agg :=
  if !(g.watch p).watched then g
  else if (g.watch p).pwrFail then g.modWatch p Watch.leave
  else
    let g := g.modWatch p fun w => { w with missed := min 0xFFFF (w.missed + 1), good := 0 }
    if 3 ≤ (g.watch p).missed then g.setUnknown p else g

/-- The checks of R674 on an accepted flit's payload. -/
def Agg.siChecks (g : Agg) (p : Nat) (m : List Byte) : Bool :=
  let seq := leAt m 2 2
  decide (leAt m 12 4 = crcOf crc32c (m.take 12)) && decide (leAt m 8 4 = g.dieOn p) &&
    (match (g.watch p).lastSeq with
     | none => decide (seq ≤ 63)
     | some s => decide (1 ≤ (seq + 65536 - s) % 65536) && decide ((seq + 65536 - s) % 65536 ≤ 64))

/-- What an accepted beat says of the SAFE_IN inputs: an enabled one asserted is an alarm, in the watch set or not (R680). -/
def Watch.beat (w : Watch) (enables : Nat) (m : List Byte) : Watch :=
  let inputs := leAt m 4 1 ||| leAt m 5 1
  let alarm := inputs &&& enables
  { w with lastSeq := some (leAt m 2 2), alarm := alarm, fresh := w.fresh ||| alarm, inputs := inputs }

/-- What it says of a die in the watch set (R675, R676). -/
def Watch.health (w : Watch) (st : Nat) : Watch :=
  let good := if st.testBit 3 then 0 else w.good + 1
  { w with missed := 0, good := good, fault := st.testBit 3, pwrFail := st.testBit 1, unknown := w.unknown && decide (good < 4) }

/-- The Safety Island takes a beat (R674, R675, R680). -/
def Agg.siBeat (g : Agg) (p : Nat) (m : List Byte) : Agg :=
  if !g.siChecks p m then g.siMiss p
  else
    let st := leAt m 6 1
    let g := g.modWatch p fun w => w.beat (g.enablesOf p) m
    if !(g.watch p).watched then g
    else
      let g := g.modWatch p fun w => w.health st
      if st.testBit 3 then g.setUnknown p else g

/-- SAFETY_FLIT_RECEIVE (R303, R674): the 16 payload bytes of a flit whose CRC passed. -/
def Agg.safetyIn (g : Agg) (p : Nat) (m : List Byte) : Agg :=
  if g.portUp p && decide (m.length = 16) && decide (leAt m 0 2 = 0x015E) && decide (leAt m 12 4 = crcOf crc32c (m.take 12)) &&
      decide (leAt m 8 4 = g.dieOn p) then
    (g.modPort p fun q => { q with safeAt := g.now, safeSeq := leAt m 2 2, safeNow := leAt m 4 1, safeSince := leAt m 5 1,
                                   safeState := leAt m 6 1 }).siBeat p m
  else g

/-- SAFETY_BEAT_MISS (R303, R672, R753): 110 microseconds without an accepted flit, then each further 100. The port counts by its own checks,
whether or not its die is in the watch set. -/
def Agg.safetyMiss (g : Agg) (p : Nat) : Agg :=
  if g.now < (g.port p).safeAt + 110000 then g
  else
    let g := (g.modPort p fun q => { q with safeAt := q.safeAt + 100000 }).flag (dportFlag p 11)
    (g.inc (dportBase p + 0x18) 1).siMiss p

/-- A port enters UP (R674, R675, R677): it joins the watch set, and its beats are numbered from 0 again. -/
def Agg.siPortUp (g : Agg) (p : Nat) : Agg :=
  (g.modPort p fun q => { q with safeAt := g.now }).modWatch p fun w => { w with watched := true, lastSeq := none }

/-- SAFE_RETIRE (R677): the port is DOWN and in the watch set. -/
def Agg.safeRetire (g : Agg) (p : Nat) : Agg :=
  if (g.port p).link.state = .down ∧ (g.watch p).watched then
    ((g.modWatch p Watch.leave).flag (asafeFlag 9)).event 0x28 1 p (leBytes 4 (g.dieOn p) ++ zeros 4)
  else g

/-! ### Evaluation (R678 to R682) -/

/-- A die is unsafe-unknown for the tray (R678). -/
def Agg.trayUnknown (g : Agg) (p : Nat) : Bool :=
  let w := g.watch p
  if g.si.pSiOk then
    if w.watched then w.unknown && (!g.si.pWatch.testBit p || g.si.pUnknown.testBit p)
    else g.si.pWatch.testBit p && g.si.pUnknown.testBit p
  else w.watched && w.unknown

/-- Alarms of accepted beats release the loop (R680). -/
def Agg.evalAlarm (g : Agg) (p : Nat) : Agg :=
  let w := g.watch p
  if w.fresh = 0 then g
  else
    let g := ((g.modWatch p fun w => { w with fresh := 0 }).flag (asafeFlag 0)).event 0x23 2 p (leBytes 1 w.inputs ++ leBytes 1 w.fresh ++ zeros 6)
    g.loopRelease 1 p w.fresh

/-- The time since which a die has been unsafe-unknown for the tray. -/
def Agg.evalTray (g : Agg) (p : Nat) : Agg :=
  let u := g.trayUnknown p
  g.modWatch p fun w => { w with traySince := if u then some (w.traySince.getD g.now) else none, timedOut := u && w.timedOut }

/-- COOLANT_FAIL_N has been asserted for 50 microseconds (R681). -/
def Agg.evalCoolant (g : Agg) : Agg :=
  if !g.si.coolSeen then g
  else ((g.withSi fun u => { u with coolSeen := false }).flag (asafeFlag 2)).loopRelease 3 0 0

/-- SI_EVALUATE (R680, R681): the readings of the two sensors, and whether both switches read back as commanded. -/
def Agg.siEvaluate (g : Agg) (t0 t1 : Int) (switches : Bool) : Agg :=
  if !g.powered then g
  else
    let g := (List.range 64).foldl Agg.evalAlarm g
    let g := ((List.range 64).foldl Agg.evalTray g).evalCoolant
    let g := if g.si.tripC < t0 ∨ g.si.tripC < t1 then (g.flag (asafeFlag 3)).loopRelease 4 0 0 else g
    if switches then g else g.siFault 7

/-- UNKNOWN_TIMEOUT (R679). -/
def Agg.unknownTimeout (g : Agg) (p : Nat) : Agg :=
  match (g.watch p).traySince with
  | some t =>
    if (g.watch p).timedOut || decide (g.now < t + 1000000 * g.si.unknownMs) then g
    else
      let g := g.modWatch p fun w => { w with timedOut := true }
      if g.ident.safeMode then g.loopRelease 2 p 0
      else (g.flag (asafeFlag 1)).event 0x22 2 p (leBytes 4 (g.dieOn p) ++ leBytes 2 (g.watch p).missed ++ zeros 2)
  | none => g

/-- SI_SELF_TEST (R682): what the scrub and ROM check, the configuration check, the watchdog and the two sensors found. -/
def Agg.siSelfTest (g : Agg) (memory config clock corrected : Bool) (t0 t1 : Int) : Agg :=
  let g := if corrected then g.flag (asafeFlag 4) else g
  let g := if memory then g.siFault 2 else g
  let g := if config then g.siFault 3 else g
  let g := if clock then g.siFault 4 else g
  if 10 < (t0 - t1).natAbs then g.siFault 6 else g

/-! ### SAFETY flits between modules (R316, R678, R685) -/

/-- AGG_SAFE_STATE (R316). -/
def Agg.safeState (g : Agg) : Nat :=
  b2n g.si.energised + 2 * b2n g.si.tripped + 4 * b2n g.ident.safeMode + 8 * b2n g.coreRuns + 16 * b2n g.si.pSiOk + 256 * g.si.cause +
    65536 * ((List.range 64).filter fun p => (g.watch p).unknown).length

/-- Links whose far end is the partner, whatever their state. -/
def Agg.partnerMembers (g : Agg) : List Nat :=
  (List.range 32).filter fun k =>
    decide ((g.reg (sklinkBase k + 0x28)) ≠ 0) && decide (g.fld (sklinkBase k + 4) 11 0 = g.ident.trayId) &&
      decide (g.fld (sklinkBase k + 4) 12 12 ≠ g.ident.role)

/-- Slots 1 and 2 of a SAFETY flit. -/
def Agg.safetySlots (g : Agg) (k : Nat) : List Byte :=
  let s1 := withCrc crc32c ([0x5F, 1] ++ leBytes 2 (g.link k).safetySeq ++ leBytes 2 (g.ident.trayId % 4096 + 4096 * g.ident.role) ++ leBytes 4 g.safeState)
  if !g.partnerMembers.contains k then padTo 64 s1
  else padTo 64 s1 ++ withCrc crc32c (leBytes 8 (portMask fun p => (g.watch p).unknown) ++
    leBytes 8 (portMask fun p => decide ((g.watch p).alarm ≠ 0)) ++ leBytes 8 (portMask fun p => (g.watch p).watched))

/-- SKIM_SAFETY_SEND (R316): on every link in UP, 100 microseconds after the last. -/
def Agg.skimSafetySend (g : Agg) : Agg :=
  (List.range 32).foldl (fun g k =>
    let l := g.link k
    if l.state = .up ∧ l.safetyAt + 100000 ≤ g.now then
      let s := g.safetySlots k
      g.modLink k fun l => { l with safetyDue := some s, safetySeq := (l.safetySeq + 1) % 65536, safetyAt := g.now }
    else g) g

/-- The partner's Safety Island is lost (R685). -/
def Agg.partnerSiLost (g : Agg) : Agg :=
  if !g.si.pSiOk then g
  else ((g.withSi fun u => { u with pSiOk := false }).flag (asafeFlag 7)).event 0x26 2 2 (zeros 8)

/-- SKIM_SAFETY_RECEIVE (R316, R678, R685): the slots of a SAFETY flit on a link in UP. -/
def Agg.skimSafetyIn (g : Agg) (k : Nat) (m : List Byte) : Agg :=
  if (g.link k).state ≠ .up || decide (leAt m 0 2 ≠ 0x015F) || decide (leAt m 10 4 ≠ crcOf crc32c (m.take 10)) then g
  else
    let g := g.modLink k fun l => { l with safeAt := g.now, safeMiss := 0 }
    if !(g.partnerMembers.contains k && decide (leAt m 4 2 % 8192 = g.ident.trayId % 4096 + 4096 * (1 - g.ident.role))) then g
    else
      let g := if leAt m 6 4 % 2 = 0 then g.partnerSiLost else g.withSi fun u => { u with pSiOk := true }
      let s2 := m.drop 64
      if leAt s2 24 4 = crcOf crc32c (padTo 24 s2) then
        g.withSi fun u => { u with pUnknown := leAt s2 0 8, pAlarm := leAt s2 8 8, pWatch := leAt s2 16 8 }
      else g

/-- SKIM_SAFETY_MISS (R685): 110 microseconds without an accepted SAFETY flit on a link, then each further 100. -/
def Agg.skimSafetyMiss (g : Agg) (k : Nat) : Agg :=
  let member := g.partnerMembers.contains k
  if ((g.link k).state ≠ .up ∧ !member) ∨ g.now < (g.link k).safeAt + 110000 then g
  else
    let g := (g.modLink k fun l => { l with safeAt := l.safeAt + 100000, safeMiss := l.safeMiss + 1 }).flag (sklinkFlag k 13)
    if member && g.partnerMembers.all fun j => decide (30 ≤ (g.link j).safeMiss) then g.partnerSiLost else g

end Sys2Proof.Machine
end

