-- ==== Sys2Proof/Machine/Skim.lean ====
section
/-!
DEFINITION. Skim.lean: rounds, the tree, and the skim commands: R362 to R363, R373 to R400 of spec/10_skim.md.
-/
namespace Sys2Proof.Machine

def Agg.withSkim (g : Agg) (f : SkimUnit → SkimUnit) : Agg := { g with skim := f g.skim }

/-- The state held of a round. -/
def Agg.roundOf (g : Agg) (r : Nat) : Option Round := g.skim.rounds.find? (·.num = r)
def Agg.modRound (g : Agg) (r : Nat) (f : Round → Round) : Agg :=
  g.withSkim fun u => { u with rounds := u.rounds.map fun x => if x.num = r then f x else x }

/-- Plane of this module (R373). -/
def Agg.plane (g : Agg) : Nat := if g.paired then g.ident.role else 0

/-! ### Instants of a round (R376), HT in ns -/

def Round.upAt (x : Round) (d : Nat) : Nat := x.closeHt + 20000 + (x.cfg.schedDepth - d) * x.cfg.stageUs * 1000
def Round.rootAt (x : Round) : Nat := x.upAt 0 + 20000
def Round.downAt (x : Round) (d : Nat) : Nat := x.rootAt + d * x.cfg.dstageUs * 1000
/-- Rank deadline (R483). -/
def Round.rankAt (x : Round) : Nat := x.closeHt + 1000 * (80 + x.cfg.schedDepth * (x.cfg.stageUs + x.cfg.dstageUs))
/-- C + ABORT_US. -/
def Round.abortAt (x : Round) : Nat := x.closeHt + 1000 * x.cfg.abortUs

/-! ### The place in the tree by round (R387 to R392, R397) -/

/-- The configuration that holds for a round. -/
def Agg.cfgFor (g : Agg) (r : Nat) : Option TreeCfg :=
  match g.skim.cfg with
  | some c => if c.act ≤ r then some c else g.skim.prevCfg
  | none => g.skim.prevCfg

/-- Depth for a round: the last change that names it or an earlier one (R391). -/
def Agg.depthFor (g : Agg) (r : Nat) : Nat :=
  match (g.skim.depthAt.filter fun e => decide (e.1 ≤ r)).getLast? with
  | some e => e.2
  | none => ((g.cfgFor r).map (·.depth)).getD 0

/-- The alternate parent is in force for a round (R389, R392). -/
def SkimUnit.onAlt (u : SkimUnit) (r : Nat) : Bool :=
  match u.altFrom with
  | some a => decide (a ≤ r) && (match u.primFrom with | some p => decide (r < p) | none => true)
  | none => false

def Agg.parentFor (g : Agg) (r : Nat) : Option Nat :=
  match g.cfgFor r with
  | some c => if g.skim.onAlt r then c.alt else c.primary
  | none => none

/-- Children that count in a round (R375, R390). -/
def Agg.childrenFor (g : Agg) (r : Nat) : List Child :=
  g.skim.children.filter fun c => decide (c.since ≤ r) && (match c.until_ with | some u => decide (r < u) | none => true)

/-- Height of this module's subtree. -/
def Agg.height (g : Agg) (r : Nat) : Nat := ((g.childrenFor r).map fun c => c.height + 1).foldl max 0

/-- The first of the rounds from `r` on whose close is at least 2 ms ahead (R388, R392). -/
def firstAhead (g : Agg) (c : TreeCfg) : Nat → Nat → Nat
  | 0, r => r
  | k + 1, r => if g.ht + 2000000 ≤ g.closeOf c r then r else firstAhead g c k (r + 1)

def Agg.aheadRound (g : Agg) (c : TreeCfg) : Nat := firstAhead g c 20 (g.currentRound c.windows)

/-! ### The local sketches (R362, R363, R396) -/

/-- The metric set that holds for a round. -/
def Agg.setFor (g : Agg) (r : Nat) : MetricSet :=
  match g.skim.pendSet with
  | some s => if s.act ≤ r then s else g.skim.set
  | none => g.skim.set

/-- The job context that a hall job tag names here. -/
def Agg.jobTagged (g : Agg) (tag : Nat) : Option Nat :=
  jobNumbers.find? fun n => decide ((g.job n).state ≠ .free) && decide ((g.job n).tag = tag)

/-- A die-window whose frames were all lost (R24, R362). -/
def DieWin.noFrames (x : DieWin) : Bool := x.loss && decide (x.frames = 0)

/-- The value of a source-0 metric for a die-window; none when it is not ready, or the die-window has no frames (R362). -/
def DieWin.metric (x : DieWin) (fs : List Feature) (m : MetricDef) : Option Nat :=
  if x.noFrames then none
  else match fs[m.feature]? with
  | some f => if f.op = 8 then x.scores[f.arg]? else x.feats[m.feature]?
  | none => x.feats[m.feature]?

/-- Windows of a round that a job covers (R362). -/
def Job.covers (j : Job) (w : Nat) : Bool := j.scores && decide (j.firstAct ≤ w) && !(decide (j.state = .draining) && decide (j.lastWin < w))

/-- Values of one metric of a job over the windows of a round: by window and position. -/
def Agg.jobValues (g : Agg) (n first count : Nat) (m : MetricDef) : List (Nat × Nat × Option Nat) :=
  let j := g.job n
  ((List.range count).map (first + ·)).filter j.covers |>.flatMap fun w =>
    let fs := readFeatures (j.modelAt w).feature
    (List.range j.dies.length).map fun t =>
      (w, t, ((g.score n).dieWins.find? fun x => decide (x.window = w ∧ x.pos = t)).bind fun x => x.metric fs m)

/-- Count values in a sketch. -/
def Sketch.countAll (s : Sketch) (scale : Int) (vs : List (Option Nat)) : Sketch := vs.foldl (fun s v => s.count (catOf v scale)) s

/-- Whether counting these values meets a count that holds at 0xFFFF_FFFF (SAT of R361). -/
def Sketch.countsFull (scale : Int) : Sketch → List (Option Nat) → Bool
  | _, [] => false
  | s, v :: vs => decide (0xFFFFFFFF ≤ s.countOf (catOf v scale)) || Sketch.countsFull scale (s.count (catOf v scale)) vs

/-- The values of a metric that a round counts, without the source-1 values that module B still waits for. -/
def Agg.metricValues (g : Agg) (first count : Nat) (waits : Bool) (m : MetricDef) : List (Option Nat) :=
  if m.source = 0 then
      (match g.jobTagged m.tag with | some n => (g.jobValues n first count m).map (·.2.2) | none => [])
    else if waits then []
    else ((List.range count).map (first + ·)).map fun w =>
      (g.skim.selfVals.find? (·.1 = w)).bind fun e => (e.2.find? (·.1 = m.ident)).bind (·.2)

/-- The sealed sketch of a metric. -/
def Agg.sealMetric (g : Agg) (first count : Nat) (waits : Bool) (m : MetricDef) : Nat × Sketch :=
  (m.ident, Sketch.countAll {} m.scale (g.metricValues first count waits m))

/-- A Fleet Die ID is that of an aggregator's self-telemetry entity (R455, R483). -/
def isSelf (die : Nat) : Bool := decide (die % 64 = 32)

/-- What a die-window counted is kept for its rank (R362, R483); for the self-telemetry entity the source-1 values too. -/
def Agg.keepCounted (g : Agg) (n first count : Nat) (defs : List MetricDef) : Agg :=
  let mine := defs.filter fun m => decide (m.source = 0) && decide (g.jobTagged m.tag = some n)
  let own (w t : Nat) : List (Nat × Option Nat) :=
    if ((g.job n).dieAt t).any fun d => isSelf d.die then
      (defs.filter fun m => decide (m.source = 1)).map fun m => (m.ident, (g.skim.selfVals.find? (·.1 = w)).bind fun e => (e.2.find? (·.1 = m.ident)).bind (·.2))
    else []
  g.modScore n fun s => { s with dieWins := s.dieWins.map fun x =>
    if first ≤ x.window ∧ x.window < first + count then { x with counted := some ((mine.map fun m => (m.ident, x.metric (readFeatures ((g.job n).modelAt x.window).feature) m)) ++ own x.window x.pos) } else x }

/-- Source-1 values of a round, window by window, in the order of the set's source-1 metrics. -/
def Agg.selfTable (g : Agg) (first count : Nat) (defs : List MetricDef) : List (List (Option Nat)) :=
  ((List.range count).map (first + ·)).map fun w => (defs.filter (·.source = 1)).map fun m =>
    (g.skim.selfVals.find? (·.1 = w)).bind fun e => (e.2.find? (·.1 = m.ident)).bind (·.2)

/-- A value on the wire of a message without stated layout: 0 for none. -/
def optCode (v : Option Nat) : Nat := match v with | some x => x + 1 | none => 0

/-- Module B counts module A's values into its sealed sketches, or their absence as MISSING (R363). -/
def Round.countSelf (x : Round) (defs : List MetricDef) (vals : Option (List (List (Option Nat)))) : Round :=
  if x.selfDone then x
  else
    let own := (defs.filter (·.source = 1)).zipIdx
    let col (i : Nat) : List (Option Nat) := match vals with
      | some l => (List.range x.cfg.windows).map fun w => ((l.getD w [])[i]?).join
      | none => List.replicate x.cfg.windows none
    let add (m : Nat × Sketch) : Nat × Sketch := match own.find? fun d => decide (d.1.ident = m.1) with
      | some d => (m.1, m.2.countAll d.1.scale (col d.2))
      | none => m
    let full (m : Nat × Sketch) : Bool := match own.find? fun d => decide (d.1.ident = m.1) with
      | some d => Sketch.countsFull d.1.scale m.2 (col d.2)
      | none => false
    { x with selfDone := true, sealed_ := x.sealed_.map add, sat := x.sat || x.sealed_.any full }

/-! ### Discarding and using a round (R382, R386) -/

/-- The current round, where one can be told. -/
def Agg.roundNow (g : Agg) (windows : Nat) : Option Nat := if g.time.sched.isSome then some (g.currentRound windows) else none

/-- Results of SKIM_STATUS (R399). -/
def Agg.skimResults (g : Agg) (r : Nat) (d : Option SkimUpDown) (any : Bool) : List (Nat × Nat) :=
  let now := (g.skim.cfg.bind fun x => g.roundNow x.windows).getD 0
  let kids := ((g.childrenFor now).map fun c => 2 ^ c.link).sum
  let outcome := match d with | some m => b2n m.flags.part | none => if any then 2 else 0
  [(3, g.skim.state), (3, g.depthFor now), (5, (g.parentFor now).getD 0), (32, kids), (40, r), (2, outcome),
   (12, (d.map (·.body.trays.length)).getD 0), (12, (d.map (·.expected)).getD 0), (64, (d.map (·.said.2)).getD 0), (1, (d.map (·.plane)).getD 0),
   (32, (d.map fun m => (skimBytes m).length).getD 0)]

/-- A SKIM_STATUS that waited for its round completes: with the DOWN in use, or with ABORTED where the round was discarded (R386, R399). -/
def Agg.answerAsk (r : Nat) (d : Option SkimUpDown) (g : Agg) (q : SkimAsk) : Agg :=
  let w := (q.ring, q.tag)
  let open_ := match g.runningOf w with | some i => decide (i.opcode = 0x32) | none => false
  if !open_ then g
  else match d with
    | none => g.complete w 0x32 .aborted (g.skimResults r none true)
    | some m =>
      match (if q.dst = 0 then none else g.outside q.ring q.dst (skimBytes m).length) with
      | some a => g.completeAt w 0x32 .access (leBytes 6 a) a
      | none => (if q.dst = 0 then g else g.write q.dst (skimBytes m)).complete w 0x32 .ok (g.skimResults r (some m) true)

/-- Note the last round used or discarded (R400), and answer those who wait for it; the last ten are kept (R386). -/
def Agg.finishRound (g : Agg) (r : Nat) (d : Option SkimUpDown) : Agg :=
  let l := g.skim.finished.filter (·.1 ≠ r) ++ [(r, d)]
  let asks := g.skim.asks.filter (·.round = r)
  asks.foldl (Agg.answerAsk r d)
    ((g.withSkim fun u => { u with finished := l.drop (l.length - 10), asks := u.asks.filter (·.round ≠ r) }).setReg64 0x50008 r)

/-- Discard a round (R386). -/
def Agg.discardRound (g : Agg) (r : Nat) : Agg :=
  match g.roundOf r with
  | none => g
  | some x =>
    if x.discarded then g
    else
      let g := g.modRound r fun x =>
        { x with sealed_ := [], ups := [], merged := none, adopted := none, down := none, other := none, used := none, discarded := true, unranked := true }
      let g := { g with verdicts := { g.verdicts with tallies := g.verdicts.tallies.filter (·.1 ≠ r) } }
      ((g.countChip 24 1).flag (skimFlag 1)).finishRound r none

/-! ### The hall count (R499 of spec/13_verdicts.md) -/

def Agg.withVerdicts (g : Agg) (f : VerdictUnit → VerdictUnit) : Agg := { g with verdicts := f g.verdicts }
def Agg.withDust (g : Agg) (f : DustUnit → DustUnit) : Agg := g.withVerdicts fun u => { u with dust := f u.dust }

/-- An hour of HT. -/
def hourNs : Nat := 3600000000000

/-- The largest r below 2^25 with r^16 < n. -/
def rootBelow : Nat → Nat → Nat → Nat
  | 0, _, r => r
  | k + 1, n, r => let t := r + 2 ^ k; rootBelow k n (if t ^ 16 < n then t else r)

/-- v_k of R499: ceil(2^(-8 + k / 16)). -/
def bucketCount (k : Nat) : Nat := if k ≤ 128 then 1 else rootBelow 25 (2 ^ (k - 128)) 0 + 1

/-- The hall count that a sketch of the hall metric spells (R499). -/
def hallCount (s : Sketch) : Nat := (s.buckets.map fun e => e.2 * bucketCount e.1).sum + s.above * 2 ^ 24

/-- Add to the hall count of a round, by its close. -/
def DustUnit.add (d : DustUnit) (close n : Nat) : DustUnit :=
  { d with rounds := (sset 0 d.rounds close (sget 0 d.rounds close + n)).filter fun e => decide (close ≤ e.1 + hourNs),
           hours := (sset 0 d.hours (close / hourNs) (sget 0 d.hours (close / hourNs) + n)).filter fun e => decide (close / hourNs ≤ e.1 + 25) }

/-- The hall count of a round: what the hall metric of its DOWN counts (R499). -/
def Agg.hallOf (g : Agg) (x : Round) : Nat :=
  match g.verdicts.dust.cfg.metric, x.used with
  | some m, some u => ((u.body.metrics.find? (·.1 = m)).map fun e => hallCount e.2).getD 0
  | _, _ => 0

/-- A DOWN used for a round that has been placed already: its hall count is not lost (R499). -/
def Agg.lateHall (g : Agg) (r : Nat) : Agg :=
  match g.roundOf r with
  | some x => if x.placed then g.withDust fun d => d.add x.closeHt (g.hallOf x) else g
  | none => g

/-- A DOWN becomes the one in use (R382). A discarded round never uses one (R385), and one that comes after the rank deadline ranks nothing (R484). -/
def Agg.useDown (g : Agg) (r : Nat) (m : SkimUpDown) : Agg :=
  match g.roundOf r with
  | none => g
  | some x =>
    if x.discarded || x.used.isSome then g
    else
      let g := g.modRound r fun x => { x with used := some m, unranked := x.unranked || (decide (x.rankAt < g.ht) && !x.placed) }
      let g := if m.flags.part then (g.countChip 25 1).flag (skimFlag 0) else g
      (g.lateHall r).finishRound r (some m)

/-! ### Closing and merging (R376 to R379, R393) -/

/-- A round beyond the newest ten is discarded unless it was used; placed ones are dropped (R386). -/
def Agg.dropOldest (g : Agg) : Agg :=
  let old := g.skim.rounds.take (g.skim.rounds.length - 10)
  let g := old.foldl (fun g x => if x.used.isNone || !x.placed then g.discardRound x.num else g) g
  g.withSkim fun u => { u with rounds := u.rounds.filter fun x => !(x.placed && old.any fun y => decide (y.num = x.num)) }

/-- Leave the tree once the last round before the dissolution has closed (R397). -/
def Agg.endTree (g : Agg) : Agg :=
  g.withSkim fun u => { u with prevCfg := u.cfg, cfg := none, dissolve := none, state := 0, joinSent := false, adopting := none }

/-- ROUND_CLOSE (R376): the next round's close has come; its local sketches are sealed. -/
def Agg.roundClose (g : Agg) : Agg :=
  match g.skim.cfg with
  | none => g
  | some c =>
    let r := match g.skim.lastClosed with | some n => n + 1 | none => c.act
    let past := match g.skim.dissolve with | some d => decide (d ≤ r) | none => false
    if !g.fwRuns || g.time.sched.isNone then g
    else if past then g.endTree
    else match g.cfgFor r with
      | none => g
      | some c =>
        if g.ht < g.closeOf c r then g else
        let set := g.setFor r
        let first := c.windows * r
        let waits := g.paired && decide (g.ident.role = 1)
        let g := g.withSkim fun u => { u with set := set, pendSet := if u.pendSet = some set then none else u.pendSet }
        let x : Round := { num := r, closeHt := g.closeOf c r, cfg := c, depth := g.depthFor r, parent := g.parentFor r,
                           setId := set.setId, setCrc := set.crc, defs := set.defs, sealed_ := set.defs.map (g.sealMetric first c.windows waits), selfDone := !waits,
                           sat := set.defs.any fun m => Sketch.countsFull m.scale {} (g.metricValues first c.windows waits m) }
        let x := match if waits then g.skim.partnerVals.find? (·.1 = r) else none with | some v => x.countSelf set.defs (some v.2) | none => x
        let g := jobNumbers.foldl (fun g n => g.keepCounted n first c.windows set.defs) g
        let table := g.selfTable first c.windows set.defs
        let keepFrom := c.windows * (r + 1)
        let g := g.withSkim fun u =>
          { u with rounds := u.rounds ++ [x], lastClosed := some r, firstRound := some (u.firstRound.getD r),
                   selfVals := u.selfVals.filter fun e => decide (keepFrom ≤ e.1), partnerVals := u.partnerVals.filter (·.1 ≠ r) }
        let g := if g.paired && decide (g.ident.role = 0) then g.toPartner { kind := .selfValues, nums := r :: table.flatten.map optCode } else g
        g.dropOldest

/-- PARTNER_SELF_VALUES at module B (R363): by window, the values of the set's source-1 metrics in order. -/
def Agg.partnerSelf (g : Agg) (r : Nat) (vals : List (List (Option Nat))) : Agg :=
  if !(g.paired && decide (g.ident.role = 1)) then g
  else match g.roundOf r with
    | some x => if x.merged.isSome then g else g.modRound r fun x => x.countSelf x.defs (some vals)
    | none =>
      if (match g.skim.lastClosed with | some n => decide (r ≤ n) | none => false) then g
      else g.withSkim fun u => { u with partnerVals := u.partnerVals.filter (·.1 ≠ r) ++ [(r, vals)] }

/-- Tally lag of a round (R393): its length is that of its windows at the period in force as it closes. -/
def Agg.tallyLag (g : Agg) (x : Round) : Nat :=
  let rank := 80 + x.cfg.schedDepth * (x.cfg.stageUs + x.cfg.dstageUs)
  max 1 (ceilDiv (rank + 150) (max 1 (x.cfg.windows * g.periodAt (x.cfg.windows * (x.num + 1) - 1))))

/-- The tallies that the UP of a round carries (R393), with the round that they are of. -/
def Agg.talliesFor (g : Agg) (x : Round) : Option (Nat × SMap Nat) :=
  let l := g.tallyLag x
  let old := x.num - l
  let again := match g.skim.lastTally with | some t => decide (old ≤ t) | none => false
  let before := match g.skim.firstRound with | some f => decide (old < f) | none => true
  if x.num < l || again || before then none else g.verdicts.tallies.find? (·.1 = old)

/-- Merge one UP (R378). -/
def mergeOne (acc : SkimBody × SkimFlags × Nat) (up : Nat × SkimUpDown) : SkimBody × SkimFlags × Nat :=
  if disjointTrays acc.1.trays up.2.body.trays then
    let (b, f) := mergeBodies acc.1 up.2.body
    (b, (acc.2.1.or f).or up.2.flags, acc.2.2)
  else (acc.1, { acc.2.1 with dbl := true, part := true }, acc.2.2 + 1)

/-- SKIM_MERGE at T_up(d) - MERGE (R378, R379). -/
def Agg.skimMerge (g : Agg) (r : Nat) : Agg :=
  match g.roundOf r with
  | none => g
  | some x =>
    if x.discarded || x.merged.isSome || decide (g.ht + 20000 < x.upAt x.depth) then g
    else
      let x := x.countSelf x.defs none
      let tally := g.talliesFor x
      let own := ((tally.map (·.2)).getD []).filter (·.2 ≠ 0)
      let missing := (g.childrenFor r).any fun c => !(x.ups.any fun u => decide (u.1 = c.link))
      let start : SkimFlags := { part := x.spoiled || missing, mismatch := x.mismatch, sat := x.sat, trunc := decide (4096 < own.length) }
      let ups := (List.range 32).filterMap fun k => x.ups.find? (·.1 = k)
      let (body, fl, rejected) := ups.foldl mergeOne ({ trays := [g.ident.trayId], metrics := x.sealed_, tallies := own.take 4096 }, start, 0)
      let m : SkimUpDown := { kind := 1, flags := fl, plane := g.plane, round := r, depth := x.depth, sender := g.ident.trayId, setId := x.setId, setCrc := x.setCrc,
                              deadline := x.upAt x.depth + x.cfg.stageUs * 1000 - 20000, body := body }
      let g := g.modRound r fun y => { y with merged := some m, sealed_ := [], ups := [], selfDone := true }
      let g := g.withSkim fun u => { u with doubleRejects := u.doubleRejects + rejected,
                                            lastTally := match tally with | some t => some t.1 | none => u.lastTally }
      let g := (List.range rejected).foldl (fun g _ => g.flag (skimFlag 3)) g
      if fl.sat then g.flag (skimFlag 7) else g

/-- SKIM_UP_SEND at T_up(d) (R376, R389). -/
def Agg.skimUpSend (g : Agg) (r : Nat) : Agg :=
  match g.roundOf r with
  | none => g
  | some x =>
    match x.merged, x.parent with
    | some m, some k =>
      if x.discarded || x.sent || x.cfg.root || decide (g.ht < x.upAt x.depth) then g
      else
        let g := g.modRound r fun y => { y with sent := true }
        if (g.link k).state = .up then g.queueBytes k 2 (skimBytes m) (some m.deadline) else g
    | _, _ => g

/-- A skim message that R372 drops. -/
def Agg.skimDrop (g : Agg) (k : Nat) : Agg := g.modLink k fun l => { l with integrity := l.integrity + 1 }

/-- SKIM_UP_RECEIVE (R372, R377, R379, R390): the last byte of a message has arrived on a link. -/
def Agg.skimUpReceive (g : Agg) (k : Nat) (bytes : List Byte) : Agg :=
  match readSkim bytes with
  | none => (g.skimDrop k).withSkim fun u =>
      { u with rounds := u.rounds.map fun x => if x.merged.isNone ∧ x.num = leAt bytes 4 5 then { x with spoiled := true } else x }
  | some m =>
    let spoil (g : Agg) : Agg := g.modRound m.round fun x => { x with spoiled := true }
    if m.kind ≠ 1 then g.skimDrop k
    else if !((g.childrenFor m.round).any (·.link = k)) then g
    else match g.roundOf m.round with
      | none =>
        if g.skim.lastClosed.any (fun n => decide (m.round ≤ n)) then (g.withSkim fun u => { u with lateUps := u.lateUps + 1 }).flag (skimFlag 2) else g
      | some x =>
        if x.ups.any (·.1 = k) then g
        else if decide (x.upAt x.depth < g.ht + 20000) || x.merged.isSome || x.discarded then
          (spoil (g.withSkim fun u => { u with lateUps := u.lateUps + 1 })).flag (skimFlag 2)
        else if m.setId ≠ x.setId ∨ m.setCrc ≠ x.setCrc then
          (spoil (g.modRound m.round fun x => { x with mismatch := true })).flag (skimFlag 4)
        else g.modRound m.round fun x => { x with ups := x.ups ++ [(k, m)] }

/-! ### The root (R380, R381) -/

/-- The result that both root modules adopt, once each knows the other's: true when it is this module's own (R380). -/
def Agg.adoptsOwn (g : Agg) (mine theirs : Nat) : Bool := if g.ident.role = 0 then decide (theirs ≤ mine) else decide (theirs < mine)

/-- Compare with the other root module, and send the adopted result whole where the other lacks it. -/
def Agg.rootCompare (g : Agg) (r : Nat) : Agg :=
  match g.roundOf r with
  | none => g
  | some x =>
    match x.merged, x.rootSaid with
    | some m, some t =>
      if x.adopted.isSome then g
      else if m.said.2 = t.2 ∧ m.said.1 = t.1 then g.modRound r fun y => { y with adopted := some m }
      else if g.adoptsOwn m.said.1 t.1 then
        (g.modRound r fun y => { y with adopted := some m }).toPartner { kind := .rootResult, nums := [r], bytes := skimBytes m }
      else g
    | _, _ => g

/-- ROOT_EXCHANGE (R380). A result that fails R372 is counted whatever the round's state. -/
def Agg.rootExchange (g : Agg) (r : Nat) (x : RootMsg) : Agg :=
  let open_ (y : Round) : Bool := !y.discarded && y.cfg.root && g.paired && decide (g.ht < y.rootAt)
  match x, (g.roundOf r).filter open_ with
  | .moment, some y =>
    match y.merged with
    | some m =>
      if g.ht < y.upAt 0 then g
      else (g.toPartner { kind := .rootExchange, nums := [r, m.said.1, m.said.2] }).rootCompare r
    | none => g
  | .said a d, some _ => (g.modRound r fun z => { z with rootSaid := some (a.toNat, d.toNat) }).rootCompare r
  | .whole k b, y =>
    match readSkim b with
    | some m => if m.round = r && y.isSome then g.modRound r fun z => { z with adopted := some m } else g
    | none => g.skimDrop k.val
  | _, none => g

/-- An ABORT message (R384). -/
def abortBytes (r reason : Nat) : List Byte := withCrc crc32c ([0xB2, 1] ++ leBytes 5 r ++ leBytes 1 reason ++ zeros 4)

/-- Send ABORT to the children and to the partner, in TC3 (R384). -/
def Agg.sendAbort (g : Agg) (r reason : Nat) : Agg :=
  let b := abortBytes r reason
  ((g.childrenFor r).foldl (fun g c => g.queueBytes c.link 3 b none) g).toPartnerIn 3 b

/-- A DOWN as this module sends it on (R368, R382). -/
def Agg.downOn (g : Agg) (x : Round) (m : SkimUpDown) : SkimUpDown :=
  { m with depth := x.depth, sender := g.ident.trayId, plane := g.plane, deadline := x.downAt (x.depth + 1) }

/-- The DOWN that a module holds: its plane's, or else the one that came whole from its partner (R373, R382). -/
def Round.held (x : Round) : Option SkimUpDown := match x.down with | some m => some m | none => x.other

/-- Forward the DOWN held to the children, and its digest to the partner (R382). -/
def Agg.forwardDown (g : Agg) (r : Nat) : Agg :=
  match g.roundOf r with
  | none => g
  | some x =>
    match x.held with
    | none => g
    | some m =>
      if x.discarded || x.forwarded then g
      else
        let m' := g.downOn x m
        let g := g.modRound r fun y => { y with forwarded := true }
        let g := (g.childrenFor r).foldl (fun g c => g.queueBytes c.link 2 (skimBytes m') (some m'.deadline)) g
        g.toPartner { kind := .downDigest, nums := [r, m.said.2, crcOf crc32c (bodyBytes m.body)] }

/-- ROOT_DECIDE at T_root (R380, R381). -/
def Agg.rootDecide (g : Agg) (r : Nat) : Agg :=
  match g.roundOf r with
  | none => g
  | some x =>
    match (match x.adopted with | some m => some m | none => x.merged) with
    | none => g
    | some m =>
      if x.discarded || !x.cfg.root || x.down.isSome || decide (g.ht < x.rootAt) then g
      else
        let n := m.body.trays.length
        if x.cfg.quorumPm * x.cfg.hallNodes ≤ n * 1000 ∧ n ≤ x.cfg.hallNodes then
          let d : SkimUpDown := { m with kind := 2, expected := x.cfg.hallNodes, flags := { m.flags with part := decide (n < x.cfg.hallNodes) },
                                         depth := 0, sender := g.ident.trayId, plane := g.plane, deadline := x.downAt 1 }
          (g.modRound r fun y => { y with down := some d }).forwardDown r
        else (g.sendAbort r (if x.cfg.hallNodes < n then 2 else 1)).discardRound r

/-! ### DOWN (R382, R383) -/

/-- DOWN_FORWARD at T_down(d). -/
def Agg.downForward (g : Agg) (r : Nat) : Agg :=
  match g.roundOf r with
  | some x => if g.ht < x.downAt x.depth then g else g.forwardDown r
  | none => g

/-- What the module's own DOWN is, as it is compared in a pair. -/
def SkimUpDown.downSaid (m : SkimUpDown) : Nat × Nat := (m.said.2, crcOf crc32c (bodyBytes m.body))

/-- The pair rule of R382: plane A's DOWN when it is held, plane B's otherwise; a module that lacks it waits for it whole. -/
def Agg.pairChoose (g : Agg) (r : Nat) : Agg :=
  match g.roundOf r with
  | none => g
  | some x =>
    if x.discarded || x.used.isSome || !x.chosen then g
    else
      let mine := x.down
      let same := match mine, x.otherSaid with | some m, some s => decide (m.downSaid = s) | _, _ => false
      let send (g : Agg) : Agg := match mine with
        | some m => if g.paired && !same then g.toPartner { kind := .downWhole, nums := [r], bytes := skimBytes m } else g
        | none => g
      if g.plane = 0 then
        match mine with
        | some m => (send g).useDown r m
        | none => match x.other with | some o => g.useDown r o | none => g
      else if x.otherSaid.isSome then
        if same then (match mine with | some m => g.useDown r { m with plane := 0 } | none => g)
        else match x.other with | some o => g.useDown r o | none => g
      else match mine with
        | some m => (send g).useDown r m
        | none => match x.other with | some o => g.useDown r o | none => g

/-- DOWN_USE at T_down(d) + PAIR: what the partner said of its DOWN by then, or nothing. -/
def Agg.downUse (g : Agg) (r : Nat) (said : Option (Nat × Nat)) : Agg :=
  match g.roundOf r with
  | none => g
  | some x =>
    if x.discarded || x.used.isSome || decide (g.ht < x.downAt x.depth + 20000) then g
    else (g.modRound r fun y => { y with chosen := true, otherSaid := said }).pairChoose r

/-- DOWN_RECEIVE (R372, R382, R383): on a link, from the parent, or whole from the partner. One that is the first of its round and comes
after T_down(d) is forwarded at once. -/
def Agg.downReceive (g : Agg) (k : Nat) (partner : Bool) (bytes : List Byte) : Agg :=
  match readSkim bytes with
  | none => g.skimDrop k
  | some m =>
    if m.kind ≠ 2 then g.skimDrop k
    else match g.roundOf m.round with
      | none => g
      | some x =>
        let late (g : Agg) : Agg := if x.downAt x.depth < g.ht then g.forwardDown m.round else g
        if x.discarded then g
        else if partner then
          if x.other.isSome then g else (late (g.modRound m.round fun y => { y with other := some m })).pairChoose m.round
        else if x.down.isSome || decide (x.parent ≠ some k) then g
        else
          let g := late (g.modRound m.round fun y => { y with down := some m })
          if x.downAt x.depth < g.ht then g.pairChoose m.round else g

/-- ABORT_RECEIVE (R384): from a link, or from the partner. -/
def Agg.abortReceive (g : Agg) (bytes : List Byte) : Agg :=
  if decide (bytes.length ≠ 16) || decide (leAt bytes 0 2 ≠ 0x01B2) || decide (leAt bytes 12 4 ≠ crcOf crc32c (bytes.take 12)) then g
  else
    let r := leAt bytes 2 5
    match g.roundOf r with
    | none => g
    | some x => if x.discarded then g else (g.sendAbort r (leAt bytes 7 1)).discardRound r

/-- ROUND_ABORT_TIMEOUT (R385). -/
def Agg.roundTimeout (g : Agg) (r : Nat) : Agg :=
  match g.roundOf r with
  | none => g
  | some x => if x.used.isSome || decide (g.ht < x.abortAt) then g else g.discardRound r

/-! ### Joining and rerouting (R375, R387 to R392) -/

/-- Send a tree message on a link in TC3. -/
def Agg.treeMsg (g : Agg) (k : Nat) (kind : CtlKind) (nums : List Nat) : Agg := g.queueCtl k 3 { kind := kind, nums := nums }

/-- A child counts only in the rounds before `r`. -/
def Child.endAt (r : Nat) (x : Child) : Child := { x with until_ := some (min r (x.until_.getD r)) }

/-- The pending configuration takes effect at the stroke that opens its round (R397), and a dissolution likewise. Children outside the
new CHILD_MASK are sent LEAVE (R387). -/
def Agg.treeStroke (g : Agg) (w : Nat) : Agg :=
  let u := g.skim
  let leaveAll (g : Agg) (act : Nat) (cs : List Child) : Agg := cs.foldl (fun g c => g.treeMsg c.link .leave [act]) g
  let g := match u.dissolve, u.cfg with
    | some d, some c =>
      if w < c.windows * d || u.state = 0 then g
      else
        let g := (leaveAll g d (g.childrenFor d)).withSkim fun u =>
          { u with state := 0, children := u.children.map (Child.endAt d) }
        match u.lastClosed with | some l => if d ≤ l + 1 then g.endTree else g | none => g.endTree
    | _, _ => g
  match g.skim.pendCfg with
  | none => g
  | some c =>
    if w < c.windows * c.act then g
    else
      let gone := (g.childrenFor c.act).filter fun x => !c.childMask.testBit x.link
      let g := leaveAll g c.act gone
      let up : Option Nat := match c.primary with
        | some k => if (g.link k).state = .up then some g.now else none
        | none => none
      let cut (x : Child) : Child := if gone.any fun y => decide (y.link = x.link) then x.endAt c.act else x
      let fresh := g.skim.cfg.isNone
      g.withSkim fun u =>
        { u with prevCfg := if fresh then none else u.cfg, cfg := some c, pendCfg := none, state := 1, joinSent := false, adopting := none, returning := false,
                 depthAt := u.depthAt ++ [(c.act, c.depth)], primFrom := if u.altFrom.isSome && !fresh then some (u.primFrom.getD c.act) else none, primUpAt := up,
                 lastClosed := if fresh then none else u.lastClosed, firstRound := if fresh then none else u.firstRound,
                 lastTally := if fresh then none else u.lastTally, altFrom := if fresh then none else u.altFrom,
                 children := if fresh then [] else u.children.map cut }

/-- TREE_JOIN (R375): at the activation round. -/
def Agg.treeJoin (g : Agg) : Agg :=
  match g.skim.cfg with
  | none => g
  | some c =>
    if g.skim.joinSent || decide (g.skim.state = 0) then g
    else
      let g := g.withSkim fun u => { u with joinSent := true }
      match c.root, c.primary with
      | false, some k => g.request k { kind := .join, nums := [g.ident.trayId, c.depth, g.height c.act] }
      | _, _ => g.withSkim fun u => { u with state := 2 }

/-- The first round that a child of now counts in. -/
def Agg.joinRound (g : Agg) (c : TreeCfg) : Nat := if g.ht < g.closeOf c c.act then c.act else g.aheadRound c

/-- A child is entered, in place of what its link held before. -/
def SkimUnit.addChild (u : SkimUnit) (x : Child) : SkimUnit := { u with children := u.children.filter (·.link ≠ x.link) ++ [x] }

/-- JOIN_RECEIVE (R374, R375). -/
def Agg.joinReceive (g : Agg) (k depth height : Nat) : Agg :=
  match g.skim.cfg with
  | none => (g.treeMsg k .joinNak []).flag (skimFlag 6)
  | some c =>
    let r := g.joinRound c
    let others := (g.childrenFor r).filter (·.link ≠ k)
    if c.childMask.testBit k && decide (depth = g.depthFor r + 1) && decide (others.length < 8) then
      (g.withSkim fun u => u.addChild { link := k, height := height, since := r, adopted := false }).treeMsg k .joinAck []
    else (g.treeMsg k .joinNak []).flag (skimFlag 6)

/-- A new depth from a round on, said to the children (R391). -/
def Agg.setDepth (g : Agg) (r d : Nat) : Agg :=
  let g := g.withSkim fun u => { u with depthAt := u.depthAt ++ [(r, d)] }
  (g.childrenFor r).foldl (fun g c => g.treeMsg c.link .depth [r, d]) g

/-- JOIN_REPLY (R375, R392). -/
def Agg.joinReply (g : Agg) (k : Nat) (ack : Bool) : Agg :=
  match g.skim.cfg with
  | none => g
  | some c =>
    if c.primary ≠ some k ∨ !g.skim.joinSent then g
    else if g.skim.returning then
      let g := g.withSkim fun u => { u with returning := false }
      if ack then
        let r := g.aheadRound c
        let g := g.withSkim fun u => { u with primFrom := some r, adopting := none, state := 2 }
        let g := match c.alt with | some a => g.treeMsg a .leave [r] | none => g
        (g.setDepth r c.depth).flag (skimFlag 5)
      else (g.withSkim fun u => { u with primUpAt := some g.now }).flag (skimFlag 6)
    else if decide (g.skim.state ≠ 1) then g
    else if ack then g.withSkim fun u => { u with state := 2 }
    else (g.withSkim fun u => { u with state := 4 }).flag (skimFlag 6)

/-- Send ADOPT to the alternate parent (R388). -/
def Agg.sendAdopt (g : Agg) (c : TreeCfg) : Agg :=
  match c.alt with
  | none => g
  | some a =>
    let r := g.aheadRound c
    (g.withSkim fun u => { u with adopting := some (g.now, r, false) }).request a { kind := .adopt, nums := [r, g.height r] }

/-- The module reroutes to its alternate parent (R387). -/
def Agg.rerouteNow (g : Agg) : Agg :=
  match g.skim.cfg with
  | none => g
  | some c =>
    if c.root || g.skim.adopting.isSome || decide (g.skim.state = 3 ∨ g.skim.state = 0) || g.skim.onAlt (g.aheadRound c) then g else g.sendAdopt c

/-- REROUTE: the primary parent link is not in UP (R387). -/
def Agg.reroute (g : Agg) : Agg :=
  match g.skim.cfg.bind (·.primary) with
  | some k => if (g.link k).state = .up then g else g.rerouteNow
  | none => g

/-- LEAVE_RECEIVE (R387, R392): from the primary parent, or from a child. -/
def Agg.leaveReceive (g : Agg) (k r : Nat) : Agg :=
  if g.skim.cfg.bind (·.primary) = some k then g.rerouteNow
  else g.withSkim fun u => { u with children := u.children.map fun x => if x.link = k then { x with until_ := some r } else x }

/-- ADOPT_RECEIVE (R374, R388, R390). -/
def Agg.adoptReceive (g : Agg) (k r height : Nat) : Agg :=
  match g.cfgFor r with
  | none => g.treeMsg k .adoptNak []
  | some c =>
    let others := (g.childrenFor r).filter (·.link ≠ k)
    if decide (others.length < 8) && decide (g.depthFor r + 1 + height ≤ c.schedDepth) && decide (g.skim.state ≠ 0) then
      (g.withSkim fun u => u.addChild { link := k, height := height, since := r, adopted := true }).treeMsg k .adoptAck [g.depthFor r]
    else g.treeMsg k .adoptNak []

/-- The UPs of rounds before `r` that wait on a link are discarded (R389). -/
def ClassTx.dropUps (r : Nat) (t : ClassTx) : ClassTx :=
  { t with queue := t.queue.filter fun m => !(decide (leAt m.bytes 0 1 = 0xB1 ∧ leAt m.bytes 2 1 = 1) && m.ctl.isNone && decide (leAt m.bytes 4 5 < r)), off := 0 }

/-- ADOPT_REPLY (R388, R391): an ADOPT_ACK carries the depth of the alternate parent. -/
def Agg.adoptReply (g : Agg) (k : Nat) (ack : Bool) (depth : Nat) : Agg :=
  match g.skim.cfg, g.skim.adopting with
  | some c, some (_, r, _) =>
    if c.alt ≠ some k then g
    else if ack then
      let g := g.withSkim fun u => { u with adopting := none, altFrom := some r, primFrom := none, state := 3 }
      let g : Agg := match c.primary with
        | some p => if (g.link p).state = .up then g else g.modLink p fun l => l.modTx 2 (ClassTx.dropUps r)
        | none => g
      (g.setDepth r (depth + 1)).flag (skimFlag 5)
    else (g.withSkim fun u => { u with adopting := some (g.now, r, true) }).flag (skimFlag 6)
  | _, _ => g

/-- ADOPT_RETRY (R388): 10 ms after the last ADOPT, which was answered with a NAK or not within 1 ms. -/
def Agg.adoptRetry (g : Agg) : Agg :=
  match g.skim.cfg, g.skim.adopting with
  | some c, some (t, _, _) => if g.now < t + 10000000 then g else (match c.alt with | some a => g.answered a | none => g).sendAdopt c
  | _, _ => g

/-- DEPTH_RECEIVE (R391): the parent's new depth from a round on. -/
def Agg.depthReceive (g : Agg) (k r depth : Nat) : Agg := if g.parentFor r = some k then g.setDepth r (depth + 1) else g

/-- Ask the primary parent to take the module back (R392). A JOIN that has had no answer is given up for the next. -/
def Agg.returnPrimary (g : Agg) : Agg :=
  match g.skim.cfg with
  | none => g
  | some c =>
    match c.primary with
    | none => g
    | some k =>
      if decide (g.skim.state ≠ 3) && g.skim.adopting.isNone || decide ((g.link k).state ≠ .up) then g
      else ((if g.skim.returning then g.answered k else g).withSkim fun u => { u with returning := true, primUpAt := some g.now }).request k { kind := .join, nums := [g.ident.trayId, c.depth, g.height (g.aheadRound c)] }

/-- RETURN_PRIMARY_TIMER: the primary parent link has been in UP for 10 s (R392). -/
def Agg.returnTimer (g : Agg) : Agg :=
  match g.skim.primUpAt with
  | some t => if g.now < t + 10 * second then g else g.returnPrimary
  | none => g

/-! ### Commands (R395 to R399) -/

def readMetric (b : List Byte) : MetricDef :=
  { ident := leAt b 0 2, source := leAt b 2 1, feature := leAt b 3 1, tag := if leAt b 2 1 = 1 then leAt b 4 2 else leAt b 4 4, scale := signedOf 8 (leAt b 8 1) }

/-- R396 on a table. -/
def metricsBad (es : List (List Byte)) : Bool :=
  !ascending (es.map fun e => leAt e 0 2) ||
  es.any fun e => decide (1023 < leAt e 0 2) || decide (1 < leAt e 2 1) || (e.drop 9).any (· ≠ 0) ||
    decide (signedOf 8 (leAt e 8 1) < -64 ∨ 63 < signedOf 8 (leAt e 8 1))

/-- ACT_ROUND is less than the current round plus 3. -/
def staleRound (now : Option Nat) (act : Nat) : Bool := match now with | some r => decide (act < r + 3) | none => false

/-- SKIM_SET_METRICS (R395, R396). -/
def Agg.setMetrics (g : Agg) (c : Caller) (setId act count addr : Nat) : Agg :=
  let bad := g.outside c.ring.val addr (16 * count)
  let bytes := g.read addr (16 * min 1024 count)
  let es := (List.range (min 1024 count)).map fun i => bytesAt bytes (16 * i) 16
  g.command c 0x30 (ring0Only c ++ g.notReady ++ failIf (decide (1024 < count) || (bad.isNone && metricsBad es)) .badParam ++
      failIf (staleRound (g.skim.cfg.bind fun x => g.roundNow x.windows) act) .staleEpoch ++ failIf g.skim.pendSet.isSome .conflict) bad fun g =>
    (g.withSkim fun u => { u with pendSet := some { setId := setId, crc := crcOf crc32c bytes, act := act, defs := es.map readMetric } }).done c 0x30 []

/-- A configuration with its defaults filled in (R397). -/
def TreeCfg.ofArgs (a : TreeArgs) : TreeCfg :=
  { act := a.act.toNat, root := a.root, depth := a.depth.toNat, primary := a.primary.map (·.val), alt := a.alt.map (·.val), childMask := a.childMask.toNat,
    hallNodes := a.hallNodes.toNat, windows := a.windows.toNat, sealUs := orElse a.sealUs.toNat 200, schedDepth := orElse a.schedDepth.toNat 6,
    stageUs := orElse a.stageUs.toNat 80, dstageUs := orElse a.dstageUs.toNat 40, abortUs := orElse a.abortUs.toNat 2500, quorumPm := orElse a.quorumPm.toNat 900 }

/-- The links that a configuration names. -/
def TreeCfg.links (c : TreeCfg) : List Nat := (c.primary.toList ++ c.alt.toList) ++ (List.range 32).filter fun k => c.childMask.testBit k

/-- R398, BAD_PARAM rows. -/
def Agg.treeBad (g : Agg) (c : TreeCfg) : Bool :=
  let short := match g.time.sched with
    | some _ => let us := c.windows * g.periodAt g.openWindow; decide (us < 250 ∨ 1000000 < us ∨ 10 * us < c.abortUs)
    | none => false
  decide (8 < ((List.range 32).filter fun k => c.childMask.testBit k).length) || (c.root && (decide (c.depth ≠ 0) || c.primary.isSome)) ||
    decide (c.schedDepth < c.depth ∨ c.hallNodes = 0 ∨ 2048 < c.hallNodes ∨ c.stageUs < 40 ∨ c.dstageUs < 20 ∨ c.abortUs < 1000 ∨ 3000 < c.abortUs) ||
    decide (c.abortUs < 60 + c.schedDepth * (c.stageUs + c.dstageUs) + 200) || decide (c.windows = 0) || short

/-- SKIM_TREE_SET CONFIGURE (R397, R398). -/
def Agg.treeConfigure (g : Agg) (c : Caller) (a : TreeArgs) : Agg :=
  let x := TreeCfg.ofArgs a
  let clash := (List.range 32).any fun k =>
    x.childMask.testBit k && (decide (x.primary = some k ∨ x.alt = some k) || g.partnerMembers.contains k)
  g.command c 0x31 (ring0Only c ++ g.notReady ++ failIf (x.links.any fun k => decide (g.skimLinks ≤ k)) .notPresent ++ failIf (g.treeBad x) .badParam ++
      failIf (staleRound (g.roundNow x.windows) x.act) .staleEpoch ++
      failIf (clash || (match g.skim.cfg with | some o => decide (o.windows ≠ x.windows) | none => false)) .conflict) none fun g =>
    (g.withSkim fun u => { u with pendCfg := some x }).done c 0x31 []

/-- SKIM_TREE_SET RETURN_PRIMARY (R392, R397). -/
def Agg.treeReturn (g : Agg) (c : Caller) : Agg := g.command c 0x31 (ring0Only c ++ g.notReady) none fun g => (g.returnPrimary).done c 0x31 []

/-- SKIM_TREE_SET DISSOLVE (R397): there are no rounds from ACT_ROUND, and a configuration that would begin there does not take effect. -/
def Agg.treeDissolve (g : Agg) (c : Caller) (act : Nat) : Agg :=
  g.command c 0x31 (ring0Only c ++ g.notReady) none fun g =>
    (g.withSkim fun u =>
      let later := u.pendCfg.filter fun x => decide (x.act < act)
      { u with pendCfg := later, dissolve := if u.cfg.isSome || later.isSome then some act else u.dissolve }).done c 0x31 []

/-- The outcome of a round that was used or discarded, while the module still holds it (R399). -/
def Agg.finishedOf (g : Agg) (r : Nat) : Option (Nat × Option SkimUpDown) :=
  match g.skim.finished.find? (·.1 = r) with
  | some x => some x
  | none => (g.roundOf r).bind fun x => if x.discarded then some (r, none) else x.used.map fun m => (r, some m)

/-- SKIM_STATUS (R399). For a round that is neither used nor discarded yet it waits (R386). -/
def Agg.skimStatus (g : Agg) (c : Caller) (r dst : Nat) : Agg :=
  let held := if r = 0 then g.skim.finished.getLast? else g.finishedOf r
  let down := held.bind (·.2)
  let bad := match down with | some m => if dst = 0 then none else g.outside c.ring.val dst (skimBytes m).length | none => none
  g.command c 0x32 (g.notReady ++ failIf (held.isNone && decide (r ≠ 0) && (g.roundOf r).isNone) .staleEpoch) bad fun g =>
    match held with
    | none =>
      if r = 0 then g.done c 0x32 (g.skimResults 0 none false)
      else g.withSkim fun u => { u with asks := u.asks ++ [{ round := r, ring := c.ring.val, tag := c.tag.toNat, dst := dst }] }
    | some (n, none) => g.complete (who c) 0x32 .aborted (g.skimResults n none true)
    | some (n, some m) => (if dst = 0 then g else g.write dst (skimBytes m)).done c 0x32 (g.skimResults n (some m) true)

end Sys2Proof.Machine
end

