-- ==== Sys2Proof/Machine/Level.lean ====
section
/-!
DEFINITION. Level.lean: placing a round, the Dust Sheet and the recommendations: R483 to R503 of spec/13_verdicts.md, R393 of
spec/10_skim.md.
-/
namespace Sys2Proof.Machine

/-- A flag number as set or cleared in VFLAGS. -/
def flagOn (v k : Nat) : Nat := v ||| 2 ^ k
def flagOff (v k : Nat) : Nat := if v.testBit k then v - 2 ^ k else v
def Verdict.on (v : Verdict) (k : Nat) : Verdict := { v with vflags := flagOn v.vflags k }
def Verdict.off (v : Verdict) (k : Nat) : Verdict := { v with vflags := flagOff v.vflags k }

/-- The Level state image of a position. -/
def Agg.imageAt (g : Agg) (n t : Nat) : LevelImg := sget {} (g.score n).images t
def Agg.setImage (g : Agg) (n t : Nat) (im : LevelImg) : Agg := g.modScore n fun s => { s with images := sset {} s.images t im }

/-- RANK_DEADLINE (R484). -/
def Agg.rankDeadline (g : Agg) (r : Nat) : Agg :=
  match g.roundOf r with
  | none => g
  | some x => if g.ht < x.rankAt then g else g.modRound r fun y => { y with deadlined := true, unranked := y.unranked || (y.used.isNone && !y.placed) }

/-! ### The recommendation ring (R503) -/

/-- Append an entry; the ring keeps the last 4,096. -/
def Agg.recEntry (g : Agg) (n die raise kind health classes event : Nat) : Agg :=
  g.withVerdicts fun u =>
    let b := withCrc crc32c (leBytes 4 die ++ leBytes 6 raise ++ leBytes 1 kind ++ leBytes 1 n ++ leBytes 2 health ++ leBytes 1 classes ++ zeros 1 ++
      leBytes 6 event ++ zeros 2 ++ leBytes 4 u.nextRec)
    let l := u.recs ++ [({ seq := u.nextRec, ctx := n, bytes := b } : RecEntry)]
    { u with recs := l.drop (l.length - 4096), nextRec := (u.nextRec + 1) % 2 ^ 32 }

/-! ### The Dust Sheet (R499 to R502) -/

/-- Live WATCHes of every job. -/
def Agg.watching (g : Agg) : Nat :=
  (jobNumbers.map fun n => ((List.range (g.job n).dies.length).filter fun t => decide ((g.imageAt n t).action = 1)).length).sum

/-- Weight set of a window (R501). -/
def DustUnit.setFor (d : DustUnit) (w : Nat) : Nat :=
  match d.fallFrom with
  | some f => b2n (decide (f ≤ w) && (match d.fallUntil with | some u => decide (w < u) | none => true))
  | none => 0

/-- SUSPECT and FALLBACK_CTX of AGG_DUST: the jobs that use weight set 1 in a window. -/
def Agg.dustFlags (g : Agg) (w : Nat) : Nat :=
  let d := g.verdicts.dust
  b2n d.suspect + 65536 * (if d.setFor w = 1 then ((jobNumbers.filter fun n => (g.job n).scores).map fun n => 2 ^ (n - 1)).sum else 0)

/-- AGG_DUST follows the state. -/
def Agg.showDust (g : Agg) (w : Nat) : Agg :=
  let d := g.verdicts.dust
  (((g.setRegN 0x80010 d.h).setRegN 0x80014 d.s).setRegN 0x80018 (g.dustFlags w)).setRegN 0x8001C g.watching

/-- A change that a round close takes (R502). Entry i of SEED is the hour i + 1 before the current one. -/
def DustUnit.change (d : DustUnit) (close next : Nat) (c : DustChange) : DustUnit :=
  match c with
  | .configure x => { d with cfg := x }
  | .clear => { d with suspect := false, fallUntil := some next }
  | .seed totals =>
    let hour := close / hourNs
    { d with hours := (totals.zipIdx).foldl (fun m p => if p.2 < hour then sset 0 m (hour - 1 - p.2) p.1 else m) d.hours }

/-- H and S at a close (R500). -/
def DustUnit.sumH (d : DustUnit) (close : Nat) : Nat := ((d.rounds.filter fun e => decide (e.1 < close ∧ close ≤ e.1 + hourNs)).map (·.2)).sum
def DustUnit.sumS (d : DustUnit) (close : Nat) : Nat :=
  let hour := close / hourNs
  ((d.hours.filter fun e => decide (e.1 < hour ∧ hour ≤ e.1 + d.cfg.meanHours)).map (·.2)).sum

/-- Every WATCH is withdrawn (R501). -/
def Agg.withdrawWatches (g : Agg) (event : Nat) : Agg :=
  jobNumbers.foldl (fun g n => (List.range (g.job n).dies.length).foldl (fun g t =>
    let im := g.imageAt n t
    if im.action = 1 then
      (g.setImage n t { im with action := 0 }).recEntry n ((((g.job n).dieAt t).map (·.die)).getD 0) im.raiseWin 3 0 0 event
    else g) g) g

/-- The Dust Sheet at a round (R499 to R502). A model-suspect raised at the very close that clears one goes on with the fall-back in force. -/
def Agg.dustRound (g : Agg) (x : Round) : Agg :=
  let next := x.cfg.windows * (x.num + 1)
  let due := g.verdicts.dust.waiting.filter fun c => decide (c.1 ≤ x.closeHt)
  let g := g.withDust fun d => { (due.foldl (fun d c => d.change x.closeHt next c.2) d) with waiting := d.waiting.filter fun c => decide (x.closeHt < c.1) }
  let n := g.hallOf x
  let g := g.withDust fun d => d.add x.closeHt n
  let g := g.withDust fun d => { d with h := d.sumH x.closeHt, s := d.sumS x.closeHt }
  let d := g.verdicts.dust
  let g := if !d.suspect && decide (3 * max d.s (d.cfg.minMean * d.cfg.meanHours) < d.h * d.cfg.meanHours) then
      ((g.withDust fun d => { d with suspect := true, fallFrom := if d.fallUntil = some next then d.fallFrom else some next, fallUntil := none }).flag
        (levelFlag 8)).withdrawWatches next
    else g
  g.showDust (x.cfg.windows * x.num)

/-- The Dust Sheet admits a recommendation (R500). -/
def DustUnit.admits (d : DustUnit) : Bool := decide (d.h < d.cfg.budget) && !d.suspect

/-! ### Recommendations (R495 to R498) -/

/-- The ACTION part of a state image. -/
def LevelImg.noAction (im : LevelImg) : LevelImg := { im with action := 0, raiseWin := 0, expelFrom := 0 }

/-- What has changed ACTION by a window: a reset of the state image (R514, R585), and the end of an expulsion (R507). -/
def Agg.dueActions (g : Agg) (n t w : Nat) : Agg :=
  let s := g.score n
  let hit (e : Nat × Nat) : Bool := decide (e.1 = t ∧ e.2 ≤ w)
  let g := if s.clears.any hit then (g.modScore n fun s => { s with clears := s.clears.filter fun e => !hit e }).setImage n t (g.imageAt n t).noAction else g
  if s.restores.any hit then
    (g.modScore n fun s => { s with restores := s.restores.filter fun e => !hit e }).setImage n t { g.imageAt n t with action := 0, expelFrom := 0 }
  else g

/-- A verdict shows the ACTION of its state image (R494). -/
def Agg.showAction (g : Agg) (n : Nat) (p : PlacedV) : PlacedV := { p with v := { p.v with action := (g.imageAt n p.pos).action } }

/-- What one settled verdict does to the die's ACTION: withdrawal, raise, admission or hold. The verdict shows the ACTION after it (R494); one that was
disputed has shown the ACTION of its own time since then, and `late` keeps it where the verdict itself changes nothing. -/
def Agg.recommend (g : Agg) (n close : Nat) (l : Level) (late : Bool) (p : PlacedV) : Agg × PlacedV :=
  let g := if late then g else g.dueActions n p.pos p.v.window
  let im := g.imageAt n p.pos
  let v := p.v
  let same (g : Agg) : Agg × PlacedV := (g, if late then p else g.showAction n p)
  let fin (g : Agg) : Agg × PlacedV := (g, g.showAction n p)
  let entry (g : Agg) (raise kind : Nat) : Agg := g.recEntry n v.die raise kind v.health v.classes v.window
  if im.action = 3 ∨ p.v.action = 3 ∧ late ∨ v.vflags.testBit 8 then same g
  else
    let lapsed := decide ((im.action = 1 ∨ im.action = 2) ∧ l.lapse ≤ p.healthy)
    let (g, im) := if lapsed then (entry (g.setImage n p.pos { im with action := 0 }) im.raiseWin 3, { im with action := 0 }) else (g, im)
    let stay (g : Agg) : Agg × PlacedV := if lapsed then fin g else same g
    let may := !g.paired || g.verdicts.dust.cfg.allow
    let ok := g.verdicts.dust.admits
    if isSelf v.die || !qualifies l v may then stay g
    else if im.action = 0 then
      let g := (g.withVerdicts fun u => { u with raisedTap := u.raisedTap + 1 }).count n 9 1
      let g := if g.verdicts.dust.cfg.metric.isNone then g.withDust fun d => d.add close 1 else g
      let g := g.setImage n p.pos { im with action := if ok then 2 else 1, raiseWin := v.window }
      fin (if ok then (entry g v.window 2).count n 10 1 else (entry g v.window 1).flag (levelFlag 7))
    else if im.action = 1 ∧ ok then fin ((entry (g.setImage n p.pos { im with action := 2 }) im.raiseWin 2).count n 10 1)
    else stay g

/-- A verdict whose round becomes DISPUTED shows the ACTION of its time (R494). -/
def Agg.noteAction (n : Nat) (acc : Agg × List PlacedV) (p : PlacedV) : Agg × List PlacedV :=
  let g := acc.1.dueActions n p.pos p.v.window
  (g, acc.2 ++ [g.showAction n p])

/-! ### Records (R494, R511, R629, R630) -/

def Agg.placedOf (g : Agg) (n r : Nat) : Option PlacedRound := (g.score n).placed.find? (·.round = r)
def Agg.modPlaced (g : Agg) (n r : Nat) (f : PlacedRound → PlacedRound) : Agg :=
  g.modScore n fun s => { s with placed := s.placed.map fun (x : PlacedRound) => if x.round = r then f x else x }

/-- The last window of the rounds that fulfil a condition, from the oldest on. -/
def markOf (f : PlacedRound → Bool) (old : Option Nat) (l : List PlacedRound) : Option Nat :=
  match (l.takeWhile f).getLast? with
  | some p => some (p.first + p.count - 1)
  | none => old

/-- VERDICT_WRITTEN and VERDICT_FINAL follow; final rounds beyond the newest 64 are dropped. -/
def Agg.refreshMarks (g : Agg) (n : Nat) : Agg :=
  let s := g.score n
  let w := markOf (·.written) s.vWritten s.placed
  let f := markOf (·.final) s.vFinal s.placed
  let cut := s.placed.length - 64
  let keep := (s.placed.take cut).filter (fun (p : PlacedRound) => !p.final) ++ s.placed.drop cut
  (g.modScore n fun s => { s with vWritten := w, vFinal := f, placed := keep }).refreshDir n

/-- Write the records of a round. -/
def Agg.writeRecords (g : Agg) (n r : Nat) (final : Bool) : Agg :=
  match g.placedOf n r with
  | none => g
  | some p =>
    let j := g.job n
    let has (k : Nat) : Nat := (p.verdicts.filter fun x => x.v.vflags.testBit k).length
    let g := p.verdicts.foldl (fun g x => g.write (j.recordAddr x.v.window x.pos) (verdictBytes x.v)) g
    let g := if p.written then g else ((g.count n 4 p.verdicts.length).count n 5 (has 3)).count n 6 (has 1)
    let g := if final then g.count n 8 (has 8) else g.count n 7 (has 7)
    (g.modPlaced n r fun q => { q with written := true, final := final }).refreshMarks n

/-- The verdicts of a round settle: their recommendations are made and their records are written for good. -/
def Agg.settleRound (g : Agg) (n r : Nat) : Agg :=
  match g.placedOf n r with
  | none => g
  | some p =>
    let l := g.levelOf n p.first
    let (g, vs) := p.verdicts.foldl (fun (acc : Agg × List PlacedV) x => let (g, y) := acc.1.recommend n p.closeHt l p.disputed x; (g, acc.2 ++ [y])) (g, [])
    ((g.modPlaced n r fun q => { q with verdicts := vs, disputed := false }).writeRecords n r true).showDust p.first

/-- The records of a round become UNCHECKED and settle (R511). -/
def Agg.settleUnchecked (g : Agg) (n r : Nat) : Agg :=
  (g.modPlaced n r fun q => { q with unchecked := true, verdicts := q.verdicts.map fun (x : PlacedV) => { x with v := x.v.on 6 } }).settleRound n r

/-! ### Placing (R483 to R493) -/

/-- Present ranks of the terms of a die-window (R483): against source-0 metrics of the job, and for the self-telemetry entity source-1 metrics. -/
def Round.ranks (x : Round) (j : Job) (l : Level) (d : DieWin) : List (Option Nat) :=
  let own := (j.dieAt d.pos).any fun y => isSelf y.die
  l.terms.map fun t =>
    match x.unranked, x.used, x.defs.find? fun m => decide (m.ident = t.metric) && (decide (m.source = 0 ∧ m.tag = j.tag) || (own && decide (m.source = 1))) with
    | false, some u, some m =>
      match u.body.metrics.find? (·.1 = m.ident), (d.counted.bind fun c => c.find? (·.1 = m.ident)) with
      | some s, some v => let k := s.2.rank (catOf v.2 m.scale); if k = 0xFFFF then none else some k
      | _, _ => none
    | _, _, _ => none

/-- What the Level station knows of a die-window. -/
def Agg.windowIn (g : Agg) (x : Round) (j : Job) (l : Level) (die : Nat) (d : DieWin) : WindowIn :=
  let ent := g.entityAt die d.window
  let set := g.verdicts.dust.setFor d.window
  { die := die, window := d.window, set := set, scores := d.scores, ens := (d.ens[set]?).join, ranks := x.ranks j l d,
    statics := (List.range 56).map fun i => staticOf ent i, groups := groupsOf ent,
    tallies := if x.unranked then [] else (x.used.map (·.body.tallies)).getD [], roundWindows := x.cfg.windows,
    loss := d.loss, unranked := x.unranked, partRound := !x.unranked && (x.used.map (·.flags.part)).getD false,
    untested := d.untested, failed := d.failed, holdover := d.holdover, unchecked := false }

/-- Resets of a die's state image that take effect by a window (R514, R585). The ACTION part of the image goes when that window settles. -/
def Agg.dueResets (g : Agg) (n t w : Nat) : Agg :=
  let hit (e : Nat × Nat) : Bool := decide (e.1 = t ∧ e.2 ≤ w)
  if (g.score n).wipes.any hit then
    let im := g.imageAt n t
    (g.modScore n fun s => { s with wipes := s.wipes.filter (fun e => !hit e), late := s.late.filter (fun e => !hit e),
                                    clears := s.clears ++ s.wipes.filter fun e => hit e && !s.late.contains e }).setImage n t
      { action := im.action, raiseWin := im.raiseWin, expelFrom := im.expelFrom }
  else g

/-- The state image of a position as a window begins, a reset of its ACTION part included (R509). -/
def Agg.imageFrom (g : Agg) (n w t : Nat) : LevelImg :=
  if (g.score n).clears.any fun e => decide (e.1 = t ∧ e.2 ≤ w) then (g.imageAt n t).noAction else g.imageAt n t

/-- Place one die-window, and count it in the tallies (R393, R493). -/
def Agg.placeDie (n : Nat) (x : Round) (l : Level) (acc : Agg × List PlacedV × SMap Nat) (d : DieWin) : Agg × List PlacedV × SMap Nat :=
  let j := acc.1.job n
  let g := acc.1.dueResets n d.pos d.window
  let w := g.windowIn x j l (((j.dieAt d.pos).map (·.die)).getD 0) d
  let (v, im) := placeWindow l w (g.imageAt n d.pos)
  let tallies := if deviantFor l w LTerm.craze then w.groups.foldl (fun m k => sset 0 m k (sget 0 m k + 1)) acc.2.2 else acc.2.2
  let g := (g.setImage n d.pos im).count n 3 1
  let g := if d.loss then g.count n 2 1 else g
  let g := if v.vflags.testBit 4 then g.flag (levelFlag 6) else g
  (g, acc.2.1 ++ [{ pos := d.pos, v := v, healthy := im.healthy }], tallies)

/-- VERDICT_DIGEST (R509). -/
def verdictDigest (vs : List PlacedV) : Nat :=
  crcOf crc64ecma (vs.flatMap fun p =>
    (verdictBytes { p.v with action := 0, fallback := false, vflags := flagOff (flagOff (flagOff (flagOff p.v.vflags 6) 7) 8) 9 }).take 36)

/-- INPUT_DIGEST of a position (R509): rows, the image at the round's start, the Entity Table entry. -/
def Agg.inputDigest (g : Agg) (n t last : Nat) (before : LevelImg) : Nat :=
  let rows := (((g.score n).rowCrcs.find? (·.1 = last)).bind fun e => e.2[t]?).getD (g.rowsCrc n last t)
  let im := { before with action := 0, expelFrom := 0 }
  let ent := (((g.job n).dieAt t).bind fun d => g.entityAt d.die last).getD []
  crcResult crc64ecma (crcRun crc64ecma (crcRun crc64ecma rows im.bytes) ent)

/-- GLOBAL_DIGEST (R509). -/
def Agg.globalDigest (g : Agg) (n last : Nat) (x : Round) : Nat :=
  let down := match x.unranked, x.used with
    | false, some m => leBytes 8 m.downSaid.1 ++ leBytes 4 m.downSaid.2
    | _, _ => zeros 16
  let ens := (List.range 4).flatMap fun e => match (g.ensSlot n e).copyFor last with | some c => leBytes 8 (crcOf crc64ecma c.image) | none => zeros 8
  let d := g.verdicts.dust
  crcOf crc64ecma (down ++ leBytes 8 (g.tableDigest last) ++ ens ++ leBytes 8 (crcOf crc64ecma ((g.job n).modelAt last).level) ++ leBytes 4 d.h ++ leBytes 4 d.s ++
    leBytes 1 (b2n d.suspect))

/-- Place some windows of a job as one round (R483 to R493, R508, R509): the placed round, and the tallies with them. -/
def Agg.placeWins (g : Agg) (x : Round) (n : Nat) (ws : List Nat) (tallies : SMap Nat) : Agg × SMap Nat :=
  let j := g.job n
  match ws.head?, ws.getLast? with
  | some w0, some w1 =>
    let l := g.levelOf n w0
    let g := (List.range j.dies.length).foldl (fun g t => g.dueResets n t w0) g
    let before := (List.range j.dies.length).map (g.imageFrom n w0)
    let wipes := (g.score n).wipes
    let ds := ws.flatMap fun w => (List.range j.dies.length).filterMap fun t => (g.score n).dieWins.find? fun d => decide (d.window = w ∧ d.pos = t)
    let (g, vs, tallies) := ds.foldl (Agg.placeDie n x l) (g, [], tallies)
    let vs := (List.range j.dies.length).flatMap fun t => vs.filter (·.pos = t)
    let frames := (List.range j.dies.length).map fun t => ((ds.filter (·.pos = t)).map (·.frames)).sum
    let p : PlacedRound :=
      { round := x.num, first := w0, count := w1 + 1 - w0, closeHt := x.closeHt, deadline := x.rankAt, verdicts := vs, digest := verdictDigest vs,
        global := g.globalDigest n w1 x, inputs := (before.zipIdx).map fun b => g.inputDigest n b.2 w1 b.1, frames := frames,
        before := before, copies := (List.range (w1 + 1 - w0)).map fun i => (List.range 4).map fun e => (g.ensSlot n e).copyFor (w0 + i),
        saved := ds.map fun d => ⟨d.pos, wipes.any fun e => decide (e.1 = d.pos ∧ e.2 = d.window), g.windowIn x j l (((j.dieAt d.pos).map (·.die)).getD 0) d⟩ }
    (g.modScore n fun s => { s with placed := s.placed ++ [p], dieWins := s.dieWins.filter fun d => decide (w1 < d.window),
                                    wins := s.wins.filter fun y => decide (w1 < y.window) }, tallies)
  | _, _ => (g, tallies)

/-- Place a job's die-windows of a round. -/
def Agg.placeJob (g : Agg) (x : Round) (n : Nat) (tallies : SMap Nat) : Agg × SMap Nat :=
  g.placeWins x n (((List.range x.cfg.windows).map (x.cfg.windows * x.num + ·)).filter (g.job n).covers) tallies

/-- The first window of the rounds still to be placed; none where no round is to come. -/
def Agg.roundsFrom (g : Agg) : Option Nat :=
  match g.skim.rounds.find? fun x => !x.placed with
  | some x => some (x.cfg.windows * x.num)
  | none =>
    match g.skim.cfg with
    | some c =>
      let r := match g.skim.lastClosed with | some n => n + 1 | none => c.act
      if (match g.skim.dissolve with | some d => decide (d ≤ r) | none => false) then g.skim.pendCfg.map fun c => c.windows * c.act else some (c.windows * r)
    | none => g.skim.pendCfg.map fun c => c.windows * c.act

/-- Windows of a job that are scored and that no round covers: without a tree, before its first round, or after its last (R27). -/
def Agg.gapWindows (g : Agg) (n : Nat) : List Nat :=
  (((g.score n).wins.takeWhile fun y => decide (y.stage = .scored) && (match g.roundsFrom with | some e => decide (y.window < e) | none => true)).map
    (·.window)).filter (g.job n).covers

/-- They have their records too (R27): unranked, since no DOWN is in use for them, and UNCHECKED, since no round's summary covers them
(DESIGN CHOICE, notes/assumptions/124.md). Their round number lies outside the 40 bits of a round. -/
def Agg.placeGap (g : Agg) (n : Nat) : Agg :=
  match (g.gapWindows n).head?, (g.gapWindows n).getLast? with
  | some w0, some w1 =>
    let cfg : TreeCfg := ⟨0, true, 0, none, none, 0, 0, 1, 0, 0, 0, 0, 0, 0⟩
    let x : Round := { num := 2 ^ 40 + w0, closeHt := g.strokeHt (w1 + 1), cfg := cfg, depth := 0, parent := none, unranked := true }
    (g.placeWins x n (g.gapWindows n) []).1.settleUnchecked n (2 ^ 40 + w0)
  | _, _ => g

/-- The ensembles of a job's windows of a round are complete. -/
def Agg.jobReady (g : Agg) (x : Round) (n : Nat) : Bool :=
  let j := g.job n
  ((List.range x.cfg.windows).map (x.cfg.windows * x.num + ·)).all fun w =>
    !j.covers w || (g.score n).wins.any fun y => decide (y.window = w ∧ y.stage = .scored)

/-- The pair summary (R508). -/
def summaryBytes (n : Nat) (p : PlacedRound) : List Byte :=
  let head := [0xE7, 1] ++ leBytes 1 n ++ zeros 1 ++ leBytes 5 p.round ++ zeros 7 ++ leBytes 8 p.digest ++ leBytes 8 p.global ++ leBytes 4 p.inputs.length ++ zeros 24
  let body := (p.inputs.zip p.frames).flatMap fun e => leBytes 8 e.1 ++ leBytes 2 e.2 ++ zeros 6
  head ++ leBytes 4 (crcOf crc32c (head ++ body)) ++ body

end Sys2Proof.Machine
end

