-- ==== Sys2Proof/Machine/Disputes.lean ====
section
/-!
DEFINITION. Disputes.lean: pair checking, the disagreement procedure, expulsions and the verdict commands: R502 to R517 of
spec/13_verdicts.md.
-/
namespace Sys2Proof.Machine

/-! ### Disputes (R512 to R515) -/

def Agg.disputeOf (g : Agg) (n r : Nat) : Option Dispute := g.verdicts.disputes.find? fun d => decide (d.ctx = n ∧ d.round = r)
def Agg.modDispute (g : Agg) (n r : Nat) (f : Dispute → Dispute) : Agg :=
  g.withVerdicts fun u => { u with disputes := u.disputes.map fun (d : Dispute) => if d.ctx = n ∧ d.round = r then f d else d }

/-- The first window of the next round. -/
def Agg.nextRoundWindow (g : Agg) : Nat := match g.skim.cfg with | some c => c.windows * (g.currentRound c.windows + 1) | none => 0

/-- Positions end CONTESTED (R512, R514): their records say so, and their state images are reset. -/
def Agg.contestDies (g : Agg) (n r : Nat) (ts : List Nat) : Agg :=
  let w := g.nextRoundWindow
  let mark (x : PlacedV) : PlacedV := if ts.contains x.pos then { x with v := (x.v.off 7).on 8 } else x
  (g.modPlaced n r fun q => { q with verdicts := q.verdicts.map mark }).modScore n fun s => { s with wipes := s.wipes ++ ts.map fun t => (t, w) }

/-- The dispute ends once nothing is open: the records are written for good (R511). -/
def Agg.endDispute (g : Agg) (n r : Nat) : Agg :=
  match g.disputeOf n r with
  | none => g
  | some d =>
    if !d.openDies.isEmpty || !d.adopts.isEmpty then g
    else
      let g := g.modDispute n r fun d => { d with outcome := if d.outcome = 0 then 1 else d.outcome }
      if d.late then g
      else (g.modPlaced n r fun q => { q with verdicts := q.verdicts.map fun (x : PlacedV) => { x with v := x.v.off 7 } }).settleRound n r

/-- Some open positions end CONTESTED (R512, R515), with the outcome that says so. -/
def Agg.contest (g : Agg) (n r : Nat) (ts : List Nat) (outcome : Nat) : Agg :=
  match g.disputeOf n r with
  | none => g
  | some d =>
    if ts.isEmpty then g
    else
      let g := g.modDispute n r fun d => { d with openDies := d.openDies.filter fun t => !ts.contains t, outcome := outcome }
      let g := if d.outcome = outcome then g else (g.flag (levelFlag 1)).inc 0x8002C 1
      if d.late then g else g.contestDies n r ts

/-- Step 4, or an end by R515: every open position. -/
def Agg.contestOpen (g : Agg) (n r : Nat) : Agg :=
  match g.disputeOf n r with
  | none => g
  | some d => ((g.modDispute n r fun d => { d with step := max d.step 4 }).contest n r d.openDies 4).endDispute n r

/-- The records of one position with its image and its rows, as bytes. -/
def Agg.recordsOf (g : Agg) (n t : Nat) (vs : List PlacedV) : List Byte :=
  ((vs.filter (·.pos = t)).flatMap fun x => verdictBytes x.v) ++ (g.imageAt n t).bytes ++ g.read (g.rowsBase n ((vs.head?.map (·.v.window)).getD 0) t) 65536

/-- They go to the partner for one position. -/
def Agg.sendRecord (n r : Nat) (vs : List PlacedV) (g : Agg) (t : Nat) : Agg :=
  g.toPartner { kind := .records, nums := [n, r, t], bytes := g.recordsOf n t vs }

/-- This side's records, state image and feature rows of positions go to the partner whole (R513). -/
def Agg.sendRecords (g : Agg) (n r : Nat) (ts : List Nat) : Agg :=
  match g.placedOf n r with
  | none => g
  | some p => ts.foldl (Agg.sendRecord n r p.verdicts) g

/-- A side is found wrong for the open positions (R513). -/
def Agg.wrongSide (g : Agg) (n r : Nat) (mine : Bool) : Agg :=
  match g.disputeOf n r with
  | none => g
  | some d =>
    if mine then
      ((g.modDispute n r fun d => { d with outcome := 2, openDies := [], adopts := if d.late then [] else d.adopts ++ d.openDies }).flag (levelFlag 2)).endDispute n r
    else
      let g := if d.late then g else g.sendRecords n r d.openDies
      (g.modDispute n r fun d => { d with outcome := 3, openDies := [] }).endDispute n r

/-- The run logs of a round's windows, 256 bytes for each (R441). -/
def Agg.roundLogs (g : Agg) (n : Nat) (p : PlacedRound) : List Byte :=
  (List.range p.count).flatMap fun i =>
    padTo 256 (((((g.score n).runLog.find? (·.1 = p.first + i)).map (·.2)).getD []).flatten)

/-- Step 2 begins: the run logs are exchanged. -/
def Agg.stepTwo (g : Agg) (n r : Nat) : Agg :=
  match g.disputeOf n r, g.placedOf n r with
  | some d, some p =>
    if d.openDies.isEmpty then g.endDispute n r
    else (g.modDispute n r fun d => { d with step := 2 }).toPartner { kind := .runLog, nums := [n, r], bytes := g.roundLogs n p }
  | _, _ => g

/-- Step 1 (R512): global digests, then input digests and frame counts. -/
def Agg.stepOne (g : Agg) (n r : Nat) (m : List Byte) : Agg :=
  match g.disputeOf n r, g.placedOf n r with
  | some d, some p =>
    if leAt m 24 8 ≠ p.global then ((g.flag (levelFlag 3)).contest n r d.openDies 5).endDispute n r
    else
      let theirs (t : Nat) : Nat × Nat := (leAt m (64 + 16 * t) 8, leAt m (72 + 16 * t) 2)
      let differ := d.openDies.filter fun t => decide (p.inputs.getD t 0 ≠ (theirs t).1)
      let fewer := differ.filter fun t => decide (p.frames.getD t 0 < (theirs t).2)
      let more := differ.filter fun t => decide ((theirs t).2 < p.frames.getD t 0)
      let equal := differ.filter fun t => decide (p.frames.getD t 0 = (theirs t).2)
      let g := g.modDispute n r fun d => { d with openDies := d.openDies.filter fun t => !fewer.contains t && !more.contains t, adopts := if d.late then [] else fewer }
      let g := if fewer.isEmpty then g else g.flag (levelFlag 2)
      let g := if d.late then g else g.sendRecords n r more
      (g.contest n r equal 4).stepTwo n r
  | _, _ => g

/-- The last 64 disputes are kept, and with them every one that still runs (R517, R32). -/
def keepDisputes (l : List Dispute) : List Dispute :=
  let old := l.length - 64
  (l.take old).filter (fun d => !d.openDies.isEmpty || !d.adopts.isEmpty) ++ l.drop old

/-- The summaries of a round are compared (R510, R511). -/
def Agg.compareRound (g : Agg) (n r : Nat) (m : List Byte) : Agg :=
  match g.placedOf n r with
  | none => g
  | some p =>
    if p.checked then g
    else
      let g := ((g.modPlaced n r fun q => { q with checked := true }).setReg64 0x80020 r)
      if leAt m 16 8 = p.digest then (if p.unchecked then g else g.settleRound n r)
      else
        let ts := List.range (g.job n).dies.length
        let d : Dispute := { round := r, ctx := n, first := p.first, dies := ts, openDies := ts, localDigest := p.digest, partnerDigest := leAt m 16 8, late := p.unchecked }
        let g := g.withVerdicts fun u => { u with disputes := keepDisputes (u.disputes ++ [d]), disputeTap := u.disputeTap + 1 }
        let g := g.inc 0x80028 1
        let g := if p.unchecked then g.flag (levelFlag 5)
          else
            let (g, vs) := p.verdicts.foldl (Agg.noteAction n) (g, [])
            let mark (x : PlacedV) : PlacedV := { x with v := x.v.on 7 }
            ((g.modPlaced n r fun q => { q with disputed := true, verdicts := vs.map mark }).flag (levelFlag 0)).writeRecords n r false
        g.stepOne n r m

/-- A job's round has been placed: its summary goes out, and it is compared, or it stays unchecked (R508, R510, R511). -/
def Agg.checkRound (g : Agg) (n r : Nat) : Agg :=
  match g.placedOf n r with
  | none => g
  | some p =>
    let alone := !g.paired || !g.partnerUp || g.pair.lost
    let g := if g.paired then g.toPartnerRaw (summaryBytes n p) else g
    let g := if alone then g.settleUnchecked n r else g
    match g.verdicts.summaries.find? fun s => decide (s.1 = n ∧ s.2.1 = r) with
    | some s => (g.withVerdicts fun u => { u with summaries := u.summaries.filter fun s => !decide (s.1 = n ∧ s.2.1 = r) }).compareRound n r s.2.2
    | none => g

/-- A round is placed for every job (R483 to R511). -/
def Agg.placeRound (g : Agg) (x : Round) : Agg :=
  let g := (g.modRound x.num fun y => { y with placed := true }).dustRound x
  let ready := jobNumbers.filter fun n => (g.job n).scores
  let (g, tallies) := ready.foldl (fun (acc : Agg × SMap Nat) n => acc.1.placeJob x n acc.2) (g, [])
  let g := if x.unranked then g
    else g.withVerdicts fun u => { u with tallies := (u.tallies ++ [(x.num, tallies)]).drop (u.tallies.length - 63) }
  ready.foldl (fun g n => g.checkRound n x.num) g

/-- LEVEL_PLACE: the windows that no round covers, then the oldest round that is not placed, once it is ready (R27, R483 to R511). -/
def Agg.levelPlace (g : Agg) : Agg :=
  if !g.fwRuns then g
  else
    let filled := (jobNumbers.filter fun n => (g.job n).scores).foldl Agg.placeGap g
    match g.skim.rounds.find? fun x => !x.placed with
    | some x => if (x.used.isSome || x.unranked) && jobNumbers.all (g.jobReady x) then filled.placeRound x else filled
    | none => filled

/-- A summary's own checks (R508). -/
def summaryGood (m : List Byte) : Bool :=
  decide (leAt m 0 2 = 0x01E7) && decide (64 ≤ m.length) && decide (leAt m 60 4 = crcOf crc32c (m.take 60 ++ m.drop 64)) && decide (m.length = 64 + 16 * leAt m 32 4)

/-- A CRC failure of a summary or run log of the partner; the second ends the dispute (R515). -/
def Agg.partnerCrcFail (g : Agg) (n r : Nat) : Agg :=
  match g.disputeOf n r with
  | none => g
  | some d => let g := g.modDispute n r fun d => { d with crcFails := d.crcFails + 1 }; if 2 ≤ d.crcFails + 1 then g.contestOpen n r else g

/-- PAIR_SUMMARY_RECEIVE (R508, R510, R511). -/
def Agg.summaryReceive (g : Agg) (m : List Byte) : Agg :=
  let n := leAt m 2 1
  let r := leAt m 4 5
  if !g.fwRuns then g
  else if !summaryGood m then g.partnerCrcFail n r
  else match g.placedOf n r with
    | some _ => g.compareRound n r m
    | none => g.withVerdicts fun u =>
        let l := u.summaries.filter fun s => !decide (s.1 = n ∧ s.2.1 = r)
        { u with summaries := l.drop (l.length - 255) ++ [(n, r, m)] }

/-- PAIR_SUMMARY_LATE (R511): rank deadline + 150 µs has passed without the partner's summary. -/
def Agg.summaryLate (g : Agg) (n r : Nat) : Agg :=
  match g.placedOf n r with
  | none => g
  | some p => if p.checked || p.unchecked || decide (g.ht < p.deadline + 150000) then g else (g.flag (levelFlag 4)).settleUnchecked n r

/-- The first run whose OUT_DIGEST differs, in window and run order. -/
def firstDiffer (mine theirs : List Byte) (count : Nat) : Option Nat :=
  (List.range (16 * count)).find? fun i => decide (bytesAt mine (16 * i + 8) 8 ≠ bytesAt theirs (16 * i + 8) 8)

/-- DISAGREE_RUN_LOG_RECEIVE (R512): the partner's run logs of the round's windows; none: their CRC failed. -/
def Agg.runLogReceive (g : Agg) (n r : Nat) (logs : Option (List Byte)) : Agg :=
  match g.disputeOf n r, g.placedOf n r, logs with
  | some _, some _, none => g.partnerCrcFail n r
  | some d, some p, some l =>
    if d.step ≠ 2 ∨ d.station ≠ 0xFF ∨ d.openDies.isEmpty then g
    else
      let mine := g.roundLogs n p
      match firstDiffer mine l p.count with
      | some i => g.modDispute n r fun d => { d with station := 32 * leAt mine (16 * i + 1) 1 + leAt mine (16 * i + 2) 1 % 32, runNo := i % 16, window := p.first + i / 16 }
      | none => g.modDispute n r fun d => { d with station := 128, window := p.first }
  | _, _, _ => g

/-- A station that failed in step 2 is handled as one that failed a sanding test (R513). -/
def Agg.failStation (g : Agg) (s : Nat) : Agg :=
  let kind := s / 32
  let k := s % 32
  if kind = 2 ∨ kind = 3 then
    if (g.station kind k).state = 0 then ((g.modStation kind k fun x => { x with again := true }).flag (stnFlag 0)).takeForTest kind k else g
  else g

/-- DISAGREE_KAT_RESULT (R512): the step-2 tests of the named station on both sides; this side's result goes to the partner. -/
def Agg.katResult (g : Agg) (n r : Nat) (mine theirs : Bool) : Agg :=
  match g.disputeOf n r with
  | none => g
  | some d =>
    if d.step ≠ 2 ∨ d.station = 0xFF ∨ d.openDies.isEmpty then g
    else
      let g := g.toPartner { kind := .katResult, nums := [n, r, b2n mine] }
      match mine, theirs with
      | false, true => (g.failStation d.station).wrongSide n r true
      | true, false => g.wrongSide n r false
      | false, false => ((g.failStation d.station).contest n r d.openDies 4).endDispute n r
      | true, true => g.modDispute n r fun d => if d.station = 128 then { d with station := 160 } else { d with step := 3 }

/-- Every station that this side used for a round is due for test (R513). -/
def Agg.dueUsed (g : Agg) (n : Nat) (p : PlacedRound) : Agg :=
  let l := g.roundLogs n p
  (List.range (16 * p.count)).foldl (fun g i => g.dueForTest (leAt l (16 * i + 1) 1) (leAt l (16 * i + 2) 1)) g

/-- Memory after a window's program has run again (R405 to R407). A station gives the same bytes at any list position (R434). -/
def Agg.rerun (g : Agg) (n w : Nat) : Agg :=
  ((g.job n).modelAt w).program.foldl (fun g b => { g with mem := (runTiles (readRun b) w ((readRun b).count (g.job n).dies.length) g.mem).mem }) (g.clearScores n w)

/-- The inputs of a die-window with the scores and the ensemble result of a second run. A window whose program stopped keeps those it had. -/
def Agg.redoInput (g : Agg) (n : Nat) (p : PlacedRound) (x : SavedWin) : WindowIn :=
  if x.win.failed then x.win
  else
    let d : DieWin := { window := x.win.window, pos := x.pos, feats := [], scores := g.scoresOf n x.win.window x.pos }
    let s := (((p.copies.getD (x.win.window - p.first) [])[x.win.set]?).join).map fun c => (g.sampleOf n x.win.set d c).whole
    { x.win with scores := d.scores, ens := s.map fun s => (s.sum, leAt s.bytes 5 1) }

/-- The saved die-windows of some windows with their inputs formed again, window by window. -/
def Agg.redoInputs (n : Nat) (p : PlacedRound) : List Nat → Agg → List (SavedWin × WindowIn)
  | [], _ => []
  | w :: ws, g => let g := g.rerun n w; ((p.saved.filter fun x => decide (x.win.window = w)).map fun x => (x, g.redoInput n p x)) ++ Agg.redoInputs n p ws g

/-- Verdicts of one position, in window order. -/
def redoVerdicts (l : Level) : List (SavedWin × WindowIn) → LevelImg → List PlacedV
  | [], _ => []
  | x :: xs, im =>
    let y := placeWindow l x.2 (if x.1.reset then { action := im.action, raiseWin := im.raiseWin, expelFrom := im.expelFrom } else im)
    { pos := x.1.pos, v := y.1, healthy := y.2.healthy } :: redoVerdicts l xs y.2

/-- Step 3 (R512): the new VERDICT_DIGEST of a round, with the verdicts of the disputed positions computed again beside the machine's own
state (DEDUCED, notes/assumptions/139.md). -/
def Agg.newDigest (g : Agg) (n : Nat) (p : PlacedRound) (ts : List Nat) : Nat :=
  let ins := Agg.redoInputs n p ((List.range p.count).map (p.first + ·)) g
  let l := g.levelOf n p.first
  verdictDigest ((List.range (g.job n).dies.length).flatMap fun t =>
    if ts.contains t then redoVerdicts l (ins.filter (·.1.pos = t)) (p.before.getD t {}) else p.verdicts.filter (·.pos = t))

/-- DISAGREE_REDIGEST_RECEIVE (R512): step 3. This side's new digest goes to the partner and is compared with the partner's; `fault` is the
digest that a faulty station gave instead. -/
def Agg.redigest (g : Agg) (n r : Nat) (fault : Option Nat) (theirs : Nat) : Agg :=
  match g.disputeOf n r, g.placedOf n r with
  | some d, some p =>
    if d.step ≠ 3 ∨ d.openDies.isEmpty then g
    else
      let mine := fault.getD (g.newDigest n p d.openDies)
      let g := g.toPartner { kind := .redigest, nums := [n, r, mine] }
      if mine = theirs ∧ d.localDigest ≠ mine ∧ d.partnerDigest = mine then (g.dueUsed n p).wrongSide n r true
      else if mine = theirs ∧ d.localDigest = mine ∧ d.partnerDigest ≠ mine then g.wrongSide n r false
      else g.contestOpen n r
  | _, _ => g

/-- A verdict as a record spells it (R494). -/
def readVerdict (b : List Byte) : Verdict :=
  { die := leAt b 0 4, window := leAt b 4 6, health := leAt b 10 2, classes := leAt b 12 1, action := leAt b 13 1 % 4, fallback := (leAt b 13 1).testBit 2,
    vflags := leAt b 14 2, runCount := leAt b 16 4, worstRank := leAt b 20 2, worstTerm := leAt b 22 1,
    pens := (List.range 4).map fun i => leAt b (24 + 2 * i) 2 }

/-- DISAGREE_ADOPT (R513): the partner's records, state image and feature rows of a position. -/
def Agg.disagreeAdopt (g : Agg) (n r t : Nat) (records image rows : List Byte) : Agg :=
  match g.disputeOf n r with
  | none => g
  | some d =>
    if !d.adopts.contains t then g
    else
      let im := readLevelImg image
      let recs := (List.range (records.length / 40)).map fun i => readVerdict (bytesAt records (40 * i) 40)
      let take (x : PlacedV) : PlacedV :=
        if x.pos = t then match recs.find? fun v => decide (v.window = x.v.window) with
          | some v => { x with v := { ((v.off 7).off 8).on 9 with action := x.v.action }, healthy := im.healthy }
          | none => x
        else x
      let g := (g.modPlaced n r fun q => { q with verdicts := q.verdicts.map take }).setImage n t im
      let g := g.write (g.rowsBase n d.first t) (rows.take 65536)
      (g.modDispute n r fun d => { d with adopts := d.adopts.filter (· ≠ t) }).endDispute n r

/-- DISAGREE_TIMEOUT (R515): the round's oldest window is 60 windows old, or the partner bundle is down. -/
def Agg.disagreeTimeout (g : Agg) (n r : Nat) : Agg :=
  match g.disputeOf n r with
  | none => g
  | some d =>
    if decide (g.openWindow < d.first + 60) && g.partnerUp then g
    else
      let g := g.modDispute n r fun d => { d with openDies := d.openDies ++ d.adopts, adopts := [] }
      if d.openDies.isEmpty && d.adopts.isEmpty then g else g.contestOpen n r

/-! ### Quorum tokens and EXPEL_APPLY (R504 to R507) -/

/-- The message that manager m signs (R504). -/
def expelMessage (m die raise fromWin expiry : Nat) : List Byte :=
  [0xEA, 1] ++ leBytes 1 m ++ zeros 1 ++ leBytes 4 die ++ leBytes 6 raise ++ zeros 2 ++ leBytes 6 fromWin ++ zeros 2 ++ leBytes 6 expiry ++ zeros 2

/-- The key of a manager in the EEPROM (R706). -/
def Agg.managerKey (g : Agg) (m : Nat) : List Byte := mread g.eeprom (0x1C8 + 32 * m) 32
def Agg.managers (g : Agg) : Nat := mreadNat g.eeprom 0x1C4 1
def Agg.quorum (g : Agg) : Nat := mreadNat g.eeprom 0x1C5 1

/-- A token is valid (R505). -/
def Agg.tokenGood (g : Agg) (token : List Byte) (count die raise fromWin expiry : Nat) : Bool :=
  let es := (List.range count).map fun i => bytesAt token (40 * i) 40
  let good (m : Nat) : Bool := es.any fun e => decide (leAt e 0 1 = m) && (bytesAt e 1 7).all (· = 0) &&
    decide (bytesAt e 8 32 = hmacSha256 (g.managerKey m) (expelMessage m die raise fromWin expiry))
  decide (g.quorum ≤ ((List.range g.managers).filter good).length)

/-- Position of a die in a job. -/
def Agg.posOf (g : Agg) (n die : Nat) : Option Nat := ((g.job n).dies.find? (·.die = die)).bind (·.pos)

/-- The record that the history store holds of a position for a window. -/
def Agg.recordOf (g : Agg) (n w t : Nat) : Option (List Byte) :=
  let b := g.read ((g.job n).recordAddr w t) 40
  if leAt b 4 6 = w ∧ (((g.job n).dieAt t).any fun d => decide (d.die = leAt b 0 4)) then some b else none

/-- VFLAGS of that record. -/
def Agg.recordFlags (g : Agg) (n w t : Nat) : Nat := ((g.recordOf n w t).map fun b => leAt b 14 2).getD 0

/-- HEALTH and CLASSES of the verdict that raised a recommendation: from its record, or from the entry of its raise or admission (R503). -/
def Agg.raisedBy (g : Agg) (n t die raise : Nat) : Nat × Nat :=
  match g.recordOf n raise t with
  | some b => (leAt b 10 2, leAt b 12 1)
  | none =>
    match g.verdicts.recs.find? fun e => decide (e.ctx = n ∧ leAt e.bytes 0 4 = die ∧ leAt e.bytes 4 6 = raise ∧ (leAt e.bytes 10 1 = 1 ∨ leAt e.bytes 10 1 = 2)) with
    | some e => (leAt e.bytes 12 2, leAt e.bytes 14 1)
    | none => (0, 0)

/-- A die belongs to another job than this one, whose ring alone may name it (R506). -/
def Agg.otherJobsDie (g : Agg) (n die : Nat) : Bool :=
  (g.posOf n die).isNone && jobNumbers.any fun k => (g.job k).dies.any fun d => decide (d.die = die)

/-- The first check of R506 that fails. `job`: the command came from a job ring. `inside`: the token lies in the caller's windows. -/
def Agg.expelCodes (g : Agg) (n : Nat) (job : Bool) (die raise fromWin expiry count : Nat) (inside : Bool) (token : List Byte) : List Status :=
  match if n = 0 then none else g.posOf n die with
  | none => if job && g.otherJobsDie n die then [.privilege] else [.badParam]
  | some t =>
    let im := g.imageAt n t
    let live := decide (im.action ≠ 0) && decide (im.raiseWin = raise)
    let same := decide (im.action = 3) && decide (im.expelFrom = (if fromWin = 0 then g.openWindow + 2 else fromWin)) && (decide (raise = 0) || decide (im.raiseWin = raise))
    let f := g.recordFlags n raise t
    failIf (decide (count = 0) || (job && decide (raise = 0)) || (decide (raise ≠ 0) && !live)) .badParam ++ failIf (!inside) .access ++
      failIf (decide (expiry ≤ g.openWindow) || g.actStale fromWin) .staleEpoch ++
      failIf ((decide (im.action = 3) && !same) || (decide (raise ≠ 0) && decide (im.action = 1))) .conflict ++
      failIf (decide (raise ≠ 0) && (f.testBit 7 || f.testBit 8)) .contested ++ failIf (!g.tokenGood token count die raise fromWin expiry) .quorum

/-- The expulsion takes effect (R507). A repeat changes nothing. One without a recommendation has no verdict that caused it (R503). A reset of the state
image whose window has opened lies before it. -/
def Agg.expelNow (g : Agg) (n die raise fromWin : Nat) : Agg :=
  match g.posOf n die with
  | none => g
  | some t =>
    let im := g.imageAt n t
    let w := g.actWindow fromWin
    if im.action = 3 then g
    else
      let v := if raise = 0 then (0, 0) else g.raisedBy n t die raise
      let open_ := g.openWindow
      let past (e : Nat × Nat) : Bool := decide (e.1 = t ∧ e.2 ≤ open_)
      let g := (g.modScore n fun s => { s with clears := s.clears.filter (fun e => !past e), late := s.late ++ s.wipes.filter past }).setImage n t
        { im with action := 3, expelFrom := w }
      ((g.recEntry n die raise 4 v.1 v.2 w).count n 11 1).flag (levelFlag 9)

/-- EXPEL_APPLY EXPEL (R506, R507). -/
def Agg.expelApply (g : Agg) (c : Caller) (die raise fromWin expiry addr count : Nat) : Agg :=
  let n := ctxOf c
  let bad := g.outside c.ring.val addr (40 * count)
  let token := g.read addr (40 * count)
  g.command c 0x52 (g.expelCodes n (decide (c.ring.val ≠ 0)) die raise fromWin expiry count bad.isNone token) bad fun g =>
    let g := if g.paired then g.toPartner { kind := .expel, nums := [n, die, raise, fromWin, expiry], bytes := token } else g
    (g.expelNow n die raise fromWin).done c 0x52 []

/-- EXPEL_APPLY RESTORE (R506, R507). -/
def Agg.expelRestore (g : Agg) (c : Caller) (die : Nat) : Agg :=
  let n := ctxOf c
  g.command c 0x52 (ring0Only c ++ failIf (decide (n = 0) || (g.posOf n die).isNone) .badParam) none fun g =>
    match g.posOf n die with
    | none => g
    | some t =>
      if (g.imageAt n t).action ≠ 3 then g.done c 0x52 []
      else
        let w := g.openWindow + 2
        ((g.modScore n fun s => { s with restores := s.restores ++ [(t, w)] }).recEntry n die (g.imageAt n t).raiseWin 5 0 0 w).done c 0x52 []

/-- EXPEL_FORWARD_RECEIVE (R507): as if this module had received the command itself. -/
def Agg.expelForward (g : Agg) (n die raise fromWin expiry : Nat) (token : List Byte) : Agg :=
  if !g.fwRuns || (firstCode (g.expelCodes n false die raise fromWin expiry (token.length / 40) true token)).isSome then g
  else g.expelNow n die raise fromWin

/-! ### DUSTSHEET_SET (R502) -/

/-- Results of every function. -/
def Agg.dustResults (g : Agg) : List (Nat × Nat) :=
  let d := g.verdicts.dust
  [(32, d.h), (32, d.s), (1, b2n d.suspect), (32, g.watching)]

/-- A change waits for the first round close at least 2 ms ahead. -/
def Agg.dustChange (g : Agg) (c : Caller) (x : DustChange) : Agg :=
  (g.withDust fun d => { d with waiting := d.waiting ++ [(g.ht + 2000000, x)] }).done c 0x51 g.dustResults

def Agg.dustConfigure (g : Agg) (c : Caller) (budget mean minMean : Nat) (metric : Option Nat) (allow : Bool) : Agg :=
  let metricBad := match metric with
    | some m => !(g.skim.set.defs ++ ((g.skim.pendSet.map (·.defs)).getD [])).any fun d => decide (d.ident = m ∧ d.source = 1 ∧ d.tag = 1088)
    | none => false
  g.command c 0x51 (ring0Only c ++ failIf (decide (mean = 0 ∨ 24 < mean) || metricBad) .badParam) none fun g =>
    g.dustChange c (.configure { budget := budget, meanHours := mean, minMean := minMean, metric := metric, allow := allow })

def Agg.dustClear (g : Agg) (c : Caller) : Agg :=
  g.command c 0x51 (ring0Only c ++ failIf (!g.verdicts.dust.suspect) .conflict) none fun g => g.dustChange c .clear

def Agg.dustSeed (g : Agg) (c : Caller) (addr : Nat) : Agg :=
  g.command c 0x51 (ring0Only c) (g.outside c.ring.val addr 48) fun g =>
    g.dustChange c (.seed ((List.range 24).map fun i => g.readNat (addr + 2 * i) 2))

def Agg.dustStatus (g : Agg) (c : Caller) : Agg := g.command c 0x51 (ring0Only c) none fun g => g.done c 0x51 g.dustResults

/-! ### VERDICT_READ and DISAGREE_STATUS (R516, R517) -/

/-- VERDICT_READ RECORDS. -/
def Agg.verdictRecords (g : Agg) (c : Caller) (die first windows dst : Nat) : Agg :=
  let n := ctxOf c
  let j := g.job n
  let s := g.score n
  let ts := if die = 0 then List.range j.dies.length else (g.posOf n die).toList
  let cells := ((List.range windows).map (first + ·)).flatMap fun w => ts.map fun t => (w, t)
  let unwritten := decide (windows ≠ 0) && (match s.vWritten with | some v => decide (v < first + windows - 1) || decide (first < j.firstAct) | none => true)
  let old := match s.vWritten with | some v => decide (first + j.recordWindows ≤ v) | none => false
  let busy := cells.any fun x => (g.recordFlags n x.1 x.2).testBit 7
  g.command c 0x50 (noContext c ++ failIf ((decide (die ≠ 0) && ts.isEmpty) || unwritten) .badParam ++ failIf old .staleEpoch ++
      failIf (!unwritten && !old && busy) .busyRetry) (g.outside c.ring.val dst (40 * cells.length)) fun g =>
    let bytes := cells.flatMap fun x => g.read (j.recordAddr x.1 x.2) 40
    let st := if cells.any fun x => (g.recordFlags n x.1 x.2).testBit 8 then Status.contested else Status.ok
    (g.write dst bytes).complete (who c) 0x50 st [(32, cells.length), (48, first + windows)]

/-- VERDICT_READ RECS. -/
def Agg.verdictRecs (g : Agg) (c : Caller) (fromSeq mx dst : Nat) : Agg :=
  let u := g.verdicts
  let ahead (q : Nat) : Nat := (u.nextRec + 2 ^ 32 - q) % 2 ^ 32
  let stale := decide (u.recs.length < ahead fromSeq)
  let mine := u.recs.filter fun e => decide (ahead e.seq ≤ ahead fromSeq) && decide (ahead e.seq ≠ 0) && (decide (c.ring.val = 0) || decide (e.ctx = c.ring.val))
  let out := mine.take mx
  let next := if out.length < mine.length then ((mine[out.length]?).map (·.seq)).getD u.nextRec else u.nextRec
  g.command c 0x50 (failIf stale .staleEpoch) (g.outside c.ring.val dst (32 * mx)) fun g =>
    (g.write dst (out.flatMap (·.bytes))).done c 0x50 [(32, out.length), (48, next)]

/-- DISAGREE_STATUS (R517). -/
def Agg.disagreeStatus (g : Agg) (c : Caller) (r : Nat) : Agg :=
  let n := ctxOf c
  let ds := (g.verdicts.disputes.drop (g.verdicts.disputes.length - 64)).filter fun d => (decide (n = 0) || decide (d.ctx = n)) && (decide (r = 0) || decide (d.round = r))
  g.command c 0x53 (failIf ds.isEmpty .staleEpoch) none fun g =>
    match ds.getLast? with
    | none => g
    | some d => g.done c 0x53 [(40, d.round), (5, d.ctx), (3, d.outcome), (2, d.step % 4), (8, d.station), (4, d.runNo), (48, d.window),
        (64, (d.dies.map (2 ^ ·)).sum), (64, d.localDigest), (64, d.partnerDigest), (1, b2n d.late)]

end Sys2Proof.Machine
end

