-- ==== Sys2Proof/Machine/Jobs.lean ====
section
/-!
DEFINITION. Jobs.lean: model images, job contexts, arm, commit and teardown: R568 to R590 of spec/15_jobs.md, R531 of
spec/14_mailboxes.md.
-/
namespace Sys2Proof.Machine

/-! ### Model images (R576 to R580) -/

/-- A section entry. -/
structure Section where
  typ  : Nat
  idx  : Nat
  off  : Nat
  len  : Nat
  dest : Nat
  deriving DecidableEq, Repr

def sectionsOf (img : List Byte) : List Section :=
  (List.range (leAt img 2 1)).map fun i =>
    let o := 64 + 16 * i
    ⟨leAt img o 1, leAt img (o + 1) 1, leAt img (o + 4) 4, leAt img (o + 8) 4, leAt img (o + 12) 4⟩

/-- The header and the section table (R576): INTEGRITY for a wrong MAGIC, VERSION or CRC, BAD_PARAM otherwise. -/
def imageCodes (img : List Byte) : List Status :=
  if decide (img.length < 64) || decide (leAt img 0 1 ≠ 0xD9) || decide (leAt img 1 1 ≠ 1) || decide (leAt img 60 4 ≠ crcOf crc32c (img.take 60)) then [.integrity]
  else
    let n := leAt img 2 1
    let ss := sectionsOf img
    let bad (s : Section) (i : Nat) : Bool :=
      decide (s.typ = 0 ∨ 7 < s.typ) || decide (s.idx ≠ 0 ∧ (s.typ ≠ 4 ∨ 3 < s.idx)) || decide (leAt img (66 + 16 * i) 2 ≠ 0) || decide (img.length < s.off + s.len) ||
        decide (s.typ ≤ 5 ∧ s.dest ≠ 0)
    failIf (decide (n = 0 ∨ 32 < n) || decide (leAt img 3 1 ≠ 0) || decide (leAt img 4 4 ≠ img.length) || (bytesAt img 8 52).any (· ≠ 0) ||
      decide (img.length < 64 + 16 * n) || (ss.zipIdx).any (fun p => bad p.1 p.2) ||
      hasDup ((ss.filter fun s => decide (s.typ ≤ 5)).map fun s => 8 * s.typ + s.idx) || !ss.any (fun s => decide (s.typ = 5))) .badParam

/-- An address of a section, relocated (R577). -/
def relocate (hawk hbm a : Nat) : Nat := if a.testBit 47 then a - 2 ^ 47 + hawk else if a.testBit 46 then a - 2 ^ 46 + hbm else a

/-- A descriptor, relocated, with its CRC recomputed. -/
def relocateRun (hawk hbm : Nat) (d : List Byte) : List Byte :=
  let put (d : List Byte) (o : Nat) : List Byte := d.take o ++ leBytes 6 (relocate hawk hbm (leAt d o 6)) ++ d.drop (o + 6)
  withCrc crc32c (([16, 40, 64, 88].foldl put (padTo 128 d)).take 124)

/-- The model that an image spells for a job, its addresses relocated. -/
def readModel (img : List Byte) (j : Job) : Model :=
  let ss := sectionsOf img
  let body (s : Section) : List Byte := bytesAt img s.off s.len
  let one (t : Nat) : List Byte := ((ss.find? (·.typ = t)).map body).getD []
  let prog := one 1
  { digest := crcOf crc64ecma img,
    program := (List.range (prog.length / 128)).map fun i => relocateRun j.hawk.base j.hbm.base (bytesAt prog (128 * i) 128),
    feature := one 2, level := one 3, ensembles := (ss.filter (·.typ = 4)).map fun s => (s.idx, body s),
    bases := (List.range 3).flatMap fun k => leBytes 8 (relocate j.hawk.base j.hbm.base (leAt (one 5) (8 * k) 8)) }

/-- Where a data section goes. -/
def dataDest (j : Job) (s : Section) : Nat := if s.typ = 6 then j.hawk.base + s.dest else j.hbm.base + 64 * s.dest

/-- What the feature ring, the score area and the ensemble result area of a model take. -/
def Model.ranges (m : Model) (dies : Nat) : List (Nat × Nat) := [(m.base 0, 65536 * dies), (m.base 1, 2048), (m.base 2, 4096)]

/-- Length of a window program at 1.6 GHz against half a period (R438). -/
def programFits (ds : List RunDesc) (dies period : Nat) : Bool := decide ((ds.map fun d => d.cycles dies).sum * 10 ≤ period * 8000)

/-- The lowest address of ranges outside a job's areas. -/
def outsideJob (areas : List (Nat × Nat)) : List (Nat × Nat) → Option Nat
  | [] => none
  | (b, n) :: t => match firstGap areas (b + n) (areas.length + 1) b with | some a => some a | none => outsideJob areas t

/-- Every check of a model's sections but the placement of its ensembles: codes, and the first address outside (R415, R576, R580). -/
def Agg.modelCodes (g : Agg) (n : Nat) (img : List Byte) : List Status × Option Nat :=
  let c := imageCodes img
  if !c.isEmpty then (c, none)
  else
    let j := g.job n
    let m := readModel img j
    let dies := j.dies.length
    let ss := sectionsOf img
    let ds := m.program.map readRun
    let progLen := ((ss.find? (·.typ = 1)).map (·.len)).getD 0
    let dat := ss.filter fun s => decide (6 ≤ s.typ)
    if (ds.take (progLen / 128)).any fun d => !d.intact then ([.integrity], none) else
    let areas := g.jobAreas n
    let live := if j.scores then ((j.model.program.map readRun).flatMap fun d => d.allSpans dies) ++ (j.model.ranges dies).map (fun r => (r.1, r.1 + r.2 - 1)) else []
    let clash := dat.any fun s => decide (s.len ≠ 0) && live.any (spansMeet (dataDest j s, dataDest j s + s.len - 1))
    let hasT (t len : Nat) : Bool := match ss.find? (·.typ = t) with | some s => decide (s.len ≠ len) | none => false
    let feats := (List.range (m.feature.length / 16)).map fun i => bytesAt m.feature (16 * i) 16
    let codes := failIf (g.isT && ds.any fun d => decide (1 < d.kind)) .notPresent ++
      failIf (decide (progLen % 128 ≠ 0 ∨ 2048 < progLen) || ds.any (fun d => decide (d.index ≠ 0xFF) || d.bad true dies) || hasT 2 4096 || hasT 5 24 ||
        feats.any featureBad || ((ss.any fun s => decide (s.typ = 3)) && levelBad m.level)) .badParam ++
      failIf (clash || !(match g.time.sched with | some _ => programFits ds dies (g.periodAt g.openWindow) | none => true)) .conflict ++
      m.ensembles.flatMap fun e => match readEnsemble e.2 with | .error st => [st] | .ok _ => []
    let out1 := ds.findSome? fun d => d.outside (asAreas areas) [] dies
    let out2 := outsideJob areas (m.ranges dies ++ dat.map fun s => (dataDest j s, s.len))
    (codes, match out1 with | some a => some a | none => out2)

/-- Pending copies of a model that is replaced go. -/
def Agg.dropPending (g : Agg) (n : Nat) : Agg :=
  (((g.job n).pending.map (·.ensembles)).getD []).foldl (fun g e => g.setEnsSlot n e.1 (g.ensSlot n e.1).dropPending) g

/-- The ensembles of a new model are placed at once, where the deferred models of other contexts still find their place after it; else it is deferred,
where it fits with them once the context's teardowns are done (R579, R583). -/
def Agg.placeEnsembles (g : Agg) (n : Nat) (m : Model) : Except Status (Agg × Bool) :=
  let later : Except Status (Agg × Bool) := match (g.laterBanks n).bind fun x => x.loadEnsembles n m.ensembles with
    | .ok _ => .ok (g, true)
    | .error st => .error st
  match g.loadEnsembles n m.ensembles with
  | .ok g' => match g'.laterBanks n with | .ok _ => .ok (g', false) | .error _ => later
  | .error _ => later

/-- Load an image as the pending model of a context (R578 to R580): the state after it and MODEL_STATE, or the code that refuses it. -/
def Agg.loadModel (g : Agg) (n : Nat) (img : List Byte) : Except (Status × Nat) (Agg × Nat) :=
  let (codes, out) := g.modelCodes n img
  match firstCode (codes ++ failIf out.isSome .access) with
  | some st => .error (st, out.getD 0)
  | none =>
    let j := g.job n
    let m := readModel img j
    let wrongDigest := match g.pair.missing.find? (·.1 = n) with | some x => decide (x.2 ≠ m.digest) | none => false
    if wrongDigest then .error (.conflict, 0)
    else
      match (g.dropPending n).placeEnsembles n m with
      | .error st => .error (st, 0)
      | .ok (g1, deferred) =>
        let g2 := ((sectionsOf img).filter fun s => decide (6 ≤ s.typ)).foldl (fun g s => g.write (dataDest j s) (bytesAt img s.off s.len)) g1
        .ok (g2.modJob n fun j => { j with pending := some { m with deferred := deferred } }, 1 + b2n deferred)

/-- The deferred model of one context is placed where its entries fit now. -/
def Agg.placeOne (g : Agg) (n : Nat) : Agg :=
  match (g.job n).pending with
  | some m => if !m.deferred then g
      else match g.loadEnsembles n m.ensembles with
        | .ok g' => g'.modJob n fun j => { j with pending := some { m with deferred := false } }
        | .error _ => g
  | none => g

/-- Deferred models whose entries fit now are placed (R579). -/
def Agg.placeDeferred (g : Agg) : Agg := jobNumbers.foldl Agg.placeOne g

/-! ### Epoch windows (R581) -/

/-- The first window whose opening stroke lies at or after an HT. -/
def Agg.windowFrom (g : Agg) (ht : Nat) : Nat :=
  let w := windowAt g.time.prev g.time.sched g.time.pending ht
  if ht ≤ g.strokeHt w then w else w + 1

/-- A window is an epoch window. -/
def Agg.isEpoch (g : Agg) (w : Nat) : Bool := decide (g.windowFrom (g.strokeHt w / second * second) = w) || decide (g.strokeHt w % second = 0)

/-- The first epoch window that fulfils a condition, from an epoch on. -/
def Agg.epochFrom (g : Agg) (ok : Nat → Bool) : Nat → Nat → Option Nat
  | 0, _ => none
  | k + 1, e => let w := g.windowFrom (e * second); if ok w then some w else g.epochFrom ok k (e + 1)

/-- The first epoch window that opens at least 5 ms from now, at or after a window. -/
def Agg.nextEpoch (g : Agg) (w : Nat) : Option Nat :=
  g.epochFrom (fun x => decide (w ≤ x ∧ g.ht + 5000000 ≤ g.strokeHt x)) 100 (max (g.ht / second) (g.strokeHt w / second))

/-! ### Areas and contexts (R571 to R573) -/

/-- Ranges that hold an area now, of one memory. -/
def Agg.taken (g : Agg) (hbm : Bool) : List Area :=
  (jobNumbers.map fun n => if hbm then (g.job n).hbm else (g.job n).hawk) ++ (g.jobs.zeroing.map (·.1)).filter fun a => decide (0x1000000000 ≤ a.base) == hbm

/-- The lowest base of a free range of a length: 0 or an end of a taken range. -/
def lowestFit (taken : List Area) (lo hi len : Nat) : Option Nat :=
  let free (b : Nat) : Bool := decide (lo ≤ b ∧ b + len ≤ hi) && taken.all fun a => decide (a.len = 0 ∨ a.base + a.len ≤ b ∨ b + len ≤ a.base)
  let cands := (lo :: taken.map fun a => a.base + a.len).filter free
  match cands with | [] => none | c :: cs => some (cs.foldl min c)

def Agg.hawkEnd (g : Agg) : Nat := if g.isT then 0x47400000 else 0x48800000

/-- Room for a create: context, Hawk base, HBM base. -/
def Agg.fitCreate (g : Agg) (ctx hawkMib hbmGib : Nat) : Option (Nat × Nat × Nat) :=
  let n := if ctx = 0 then jobNumbers.find? fun n => decide ((g.job n).state = .free) else if (g.job ctx).state = .free then some ctx else none
  match n, lowestFit (g.taken false) 0x40000000 g.hawkEnd (hawkMib * 2 ^ 20), if hbmGib = 0 then some 0 else lowestFit (g.taken true) 0x1000000000 0x1800000000 (hbmGib * 2 ^ 30) with
  | some n, some a, some b => some (n, a, b)
  | _, _, _ => none

/-- The ring that a binding record gives (R531). -/
def boundRing (r : List Byte) : Ring :=
  if leAt r 2 1 = 1 then { bound := true, rdma := true, qpn := leAt r 4 4 % 2 ^ 24, cqAddr := leAt r 8 8, cqRkey := leAt r 16 4 }
  else { bound := true, key := bytesAt r 48 32, peers := [{ addr := leAt r 24 16, port := leAt r 40 2 }] }

/-- A range reads as zero. -/
def Agg.zeroArea (g : Agg) (a : Area) : Agg := { g with mem := g.mem.filter fun e => !decide (a.base ≤ e.1 ∧ e.1 < a.base + a.len) }

/-- A create that fits: its areas are zero, the context is in use, and its command completes (R569, R571, R573). -/
def Agg.createJob (g : Agg) (q : QueuedCreate) (n hawk hbm : Nat) : Agg :=
  let e := (g.jobs.epoch + 1) % 2 ^ 32
  let j : Job := { state := .created, epoch := e, tag := q.jobTag, hawk := ⟨hawk, q.hawkMib * 2 ^ 20⟩, hbm := ⟨hbm, q.hbmGib * 2 ^ 30⟩ }
  let g := (({ g with jobs := { g.jobs with epoch := e } }).zeroArea j.hawk).zeroArea j.hbm
  let g := g.modJob n fun _ => j
  let g := (g.modScore n fun _ => {}).modRing n fun _ => boundRing q.bind
  let g := { g with ap := { g.ap with pds := if g.ap.pds.contains n then g.ap.pds else g.ap.pds ++ [n] } }
  g.complete (q.ring, q.tag) 0x10 .ok [(5, n), (32, e), (48, hawk), (48, hbm), (32, min 0xFFFFFFFF ((g.now - q.since) / 1000))]

/-- A context holds a job tag (R571). -/
def Agg.tagHeld (g : Agg) (tag : Nat) : Bool := jobNumbers.any fun n => decide ((g.job n).state ≠ .free ∧ (g.job n).tag = tag)

/-- The oldest queued creates that fit now (R572). DEDUCED, safe (notes/assumptions/127.md): one whose tag another context took while it
waited completes with CONFLICT. -/
def Agg.serveQueue (g : Agg) : Nat → Agg
  | 0 => g
  | k + 1 =>
    match g.jobs.queue with
    | [] => g
    | q :: rest =>
      match g.fitCreate q.ctx q.hawkMib q.hbmGib with
      | none => g
      | some (n, a, b) =>
        let g := { g with jobs := { g.jobs with queue := rest } }
        (if g.tagHeld q.jobTag then g.complete (q.ring, q.tag) 0x10 .conflict [] else g.createJob q n a b).serveQueue k

/-- A binding record with a reserved field, or a field of the transport that is not used, that is not 0 (R531, R537). QPN has 24 bits. -/
def bindBad (r : List Byte) : Bool :=
  decide (1 < leAt r 2 1) || decide (leAt r 3 1 ≠ 0) || decide (leAt r 7 1 ≠ 0) || (bytesAt r 20 4).any (· ≠ 0) || (bytesAt r 42 6).any (· ≠ 0) ||
    (bytesAt r 80 12).any (· ≠ 0) || (if leAt r 2 1 = 1 then (bytesAt r 24 56).any (· ≠ 0) else (bytesAt r 4 16).any (· ≠ 0))

/-- JOB_CREATE (R571, R572). -/
def Agg.jobCreate (g : Agg) (c : Caller) (jobTag hawkMib hbmGib addr queueMs : Nat) : Agg :=
  let bad := g.outside c.ring.val addr 96
  let r := g.read addr 96
  let whole := decide (leAt r 0 2 = 0x013D) && decide (leAt r 92 4 = crcOf crc32c (r.take 92))
  let room := if g.jobs.queue.isEmpty then g.fitCreate c.ctx.val hawkMib hbmGib else none
  let short := room.isNone && (decide (queueMs = 0) || decide (16 ≤ g.jobs.queue.length))
  g.checked c 0x10 (ring0Only c ++ failIf (decide (hbmGib ≠ 0) && !g.hasHbm) .notPresent ++
      failIf (decide (jobTag = 0) || decide (hawkMib = 0 ∨ (if g.isT then 116 else 136) < hawkMib ∨ 32 < hbmGib) || (bad.isNone && whole && bindBad r)) .badParam ++
      failIf (g.tagHeld jobTag) .conflict ++ failIf short .noResource ++ g.notReady ++
      failIf (bad.isNone && !whole) .integrity) bad fun g =>
    let q : QueuedCreate := { ring := c.ring.val, tag := c.tag.toNat, ctx := c.ctx.val, jobTag := jobTag, hawkMib := hawkMib, hbmGib := hbmGib, bind := r,
                              since := g.now, limitMs := queueMs }
    match room with
    | some (n, a, b) => g.createJob q n a b
    | none => ({ g with jobs := { g.jobs with queue := g.jobs.queue ++ [q] } }).flag (jobFlag 0)

/-- JOB_CREATE_TIMEOUT (R571): queued creates that have waited for QUEUE_MS. -/
def Agg.createTimeout (g : Agg) : Agg :=
  let late := g.jobs.queue.filter fun q => decide (q.since + 1000000 * q.limitMs ≤ g.now)
  let g := { g with jobs := { g.jobs with queue := g.jobs.queue.filter fun q => !decide (q.since + 1000000 * q.limitMs ≤ g.now) } }
  (late.foldl (fun g q => g.complete (q.ring, q.tag) 0x10 .timeout []) g).serveQueue 16

/-- AREA_ZEROED (R573): the oldest released area is zero, and free. -/
def Agg.areaZeroed (g : Agg) : Agg :=
  match g.jobs.zeroing with
  | [] => g
  | (a, _) :: rest =>
    ({ g.zeroArea a with jobs := { g.jobs with zeroing := rest } }).serveQueue 16

/-! ### Dies and channels (R570, R574, R575) -/

/-- One entry of a die list. -/
def readDie (b : List Byte) : JobDie := { die := leAt b 0 4, port := leAt b 4 1, mask := leAt b 5 1 }

/-- A channel that another job holds without a scheduled teardown, or that has a second claim already (R575). -/
def Agg.claimClash (g : Agg) (n p c : Nat) : Bool :=
  g.jobs.claims.any fun x => decide (x.port = p ∧ x.chan = c ∧ x.holder ≠ n) && (decide ((g.job x.holder).state ≠ .draining) || (x.next.isSome && decide (x.next ≠ some n)))

/-- Claim a channel. -/
def Agg.claim (g : Agg) (n p c : Nat) : Agg :=
  let l := g.jobs.claims
  let held := l.any fun x => decide (x.port = p ∧ x.chan = c)
  let put (x : ChanClaim) : ChanClaim := if x.port = p ∧ x.chan = c ∧ x.holder ≠ n then { x with next := some n } else x
  { g with jobs := { g.jobs with claims := if held then l.map put else l ++ [{ port := p, chan := c, holder := n }] } }

/-- JOB_ADD_DIES (R574, R719, R720, R754). -/
def Agg.addDies (g : Agg) (c : Caller) (addr count : Nat) : Agg :=
  let n := ctxOf c
  let j := g.job n
  let bad := g.outside c.ring.val addr (8 * count)
  let es := (List.range (min 64 count)).map fun i => g.read (addr + 8 * i) 8
  let ds := es.map readDie
  let listBad := (es.any fun e => decide (leAt e 6 2 ≠ 0)) || ds.any (fun d => decide (63 < d.port) || decide (g.dieOn d.port ≠ d.die) || decide (d.die % 64 ≠ 0) ||
    decide (d.mask = 0) || !g.boot.passed.contains d.port) || hasDup ((j.dies ++ ds).map (·.die))
  let farOnly := decide (g.ident.role = 1) && ds.any fun d => !wbit (g.port d.port).caps 9
  let clash := ds.any fun d => (List.range 8).any fun k => d.mask.testBit k && g.claimClash n d.port k
  g.command c 0x11 (ring0Only c ++ noContext c ++ failIf (decide (count = 0 ∨ 64 < count) || (bad.isNone && listBad)) .badParam ++ failIf (bad.isNone && farOnly) .notPresent ++
      failIf (decide (j.state ≠ .created) || (bad.isNone && clash)) .conflict ++ failIf (decide (64 < j.dies.length + count)) .noResource ++ g.notReady) bad fun g =>
    let g := g.modJob n fun j => { j with dies := j.dies ++ ds }
    let g := ds.foldl (fun g d => ((List.range 8).filter fun k => d.mask.testBit k).foldl (fun g k => g.claim n d.port k) g) g
    g.done c 0x11 [(7, (g.job n).dies.length)]

/-! ### JOB_LOAD_MODEL LOCAL (R578) -/

/-- A context that waited for its model has it; one that ran becomes ACTIVE at an epoch window (R692). -/
def Agg.modelCame (g : Agg) (n : Nat) : Agg :=
  if !(g.pair.missing.any fun x => decide (x.1 = n)) then g
  else
    let w := (g.nextEpoch 0).getD 0
    let left := g.pair.missing.filter fun x => decide (x.1 ≠ n)
    let runs := decide ((g.job n).state = .committed ∨ (g.job n).state = .draining)
    let joining := if runs then g.pair.joining ++ [(n, w)] else g.pair.joining
    let sync := if !left.isEmpty then g.pair.sync else if joining.isEmpty then 4 else 2
    ({ g with pair := { g.pair with missing := left, joining := joining, join := if runs then w else g.pair.join, sync := sync } }).modJob n
      fun j => if runs then { j with commit := some (max w (j.commit.getD 0)) } else j

/-- The pending model is held by an arm or a commit (R583). -/
def Job.held_ (j : Job) : Bool := j.armed.isSome || j.commit.isSome || j.committer.isSome || j.armer.isSome

/-- Complete JOB_LOAD_MODEL with the outcome of a load. A pending model that has been armed since is not replaced (R583). -/
def Agg.loadOutcome (g : Agg) (w : Nat × Nat) (n : Nat) (img : List Byte) : Agg :=
  if (g.job n).held_ then g.complete w 0x12 .conflict []
  else match g.loadModel n img with
  | .ok (g', st) => (g'.modelCame n).complete w 0x12 .ok [(2, st), (64, crcOf crc64ecma img)]
  | .error (.access, a) => g.completeAt w 0x12 .access (leBytes 6 a) a
  | .error (st, _) => g.complete w 0x12 st []

def Agg.loadLocal (g : Agg) (c : Caller) (addr len : Nat) : Agg :=
  let n := ctxOf c
  let bad := g.outside c.ring.val addr len
  let r := if bad.isNone ∧ n ≠ 0 then g.loadModel n (g.read addr len) else .error (.access, addr)
  let out := match bad, r with | some a, _ => some a | none, .error (.access, a) => some a | _, _ => none
  g.command c 0x12 (noContext c ++ (match r with | .error (.access, _) => [] | .error (st, _) => [st] | .ok _ => []) ++ failIf (g.job n).held_ .conflict ++ g.notReady) out
    fun g => g.loadOutcome (who c) n (g.read addr len)

/-! ### Arm (R582, R583) -/

/-- Positions in ascending slot order, given at the first arm (R570). DESIGN CHOICE, unsafe (notes/assumptions/126.md): dies that join after
an arm has lapsed take the positions behind the ones given, in slot order. -/
def Job.placeDies (j : Job) : Job :=
  let slot (d : JobDie) : Nat := 64 * (d.die / 64 % 64) + d.port
  let first := (j.dies.filter fun d => d.pos.isSome).length
  let rank (d : JobDie) : Nat := (j.dies.filter fun e => e.pos.isNone && decide (slot e < slot d)).length
  { j with dies := j.dies.map fun d => if d.pos.isSome then d else { d with pos := some (first + rank d) } }

/-- The last window that other jobs hold a channel of this job through, or held it through before they released it to this one. -/
def Agg.heldThrough (g : Agg) (n : Nat) : Option Nat :=
  (g.jobs.claims.filterMap fun x => if x.next = some n then some (g.job x.holder).lastWin else if x.holder = n then x.freed else none).foldl
    (fun a b => some (max (a.getD 0) b)) none

/-- READY_WINDOW (R582). -/
def Agg.readyWindow (g : Agg) (n earliest : Nat) : Option Nat :=
  let j := g.job n
  let deferred := (j.pending.map (·.deferred)).getD false
  let lasts := (jobNumbers.filter fun k => decide ((g.job k).state = .draining)).map fun k => (g.job k).lastWin
  let ds := ((j.pending.map (·.program)).getD []).map readRun
  let ok (w : Nat) : Bool :=
    decide (earliest ≤ w) && decide (g.ht + 5000000 ≤ g.strokeHt w) && (match g.heldThrough n with | some l => decide (l + 4 ≤ w) | none => true) &&
      (!deferred || lasts.all fun l => decide (g.strokeHt (l + 1) + 21200000 ≤ g.strokeHt w)) && programFits ds j.dies.length (g.periodAt w)
  let start := (((g.heldThrough n).getD 0 :: if deferred then lasts else []).map g.strokeHt).foldl max (max g.ht (g.strokeHt earliest))
  if deferred && lasts.isEmpty then none else g.epochFrom ok 100 (start / second)

/-- Every ownership read has been answered: the arm ends (R582). -/
def Agg.endArm (g : Agg) (n : Nat) : Agg :=
  let j := g.job n
  match j.armer with
  | none => g
  | some (ring, tag, earliest, hold) =>
    let g := g.modJob n fun j => { j with armer := none, openWrites := 0 }
    if j.failCode ≠ 0 then g.complete (ring, tag) 0x13 .conflict []
    else match g.readyWindow n earliest with
      | none => g.complete (ring, tag) 0x13 .noResource []
      | some w =>
        let g := g.modJob n fun j =>
          { j.placeDies with armed := some (w, g.now + 1000000 * hold), readyWin := w, state := if j.state = .created then .armed else j.state }
        g.complete (ring, tag) 0x13 .ok [(48, w)]

/-- JOB_ARM (R582): the owner of every claimed channel is read on the ports in UP. -/
def Agg.jobArm (g : Agg) (c : Caller) (earliest hold : Nat) : Agg :=
  let n := ctxOf c
  let j := g.job n
  g.command c 0x13 (noContext c ++ failIf (decide (hold = 0 ∨ 60000 < hold)) .badParam ++
      failIf (j.dies.isEmpty || j.pending.isNone || decide (j.state = .draining) || j.held_) .conflict ++ failIf g.time.sched.isNone .busyRetry ++ g.notReady) none fun g =>
    let ports := (j.dies.map (·.port)).filter g.portUp
    let g := g.modJob n fun j => { j with armer := some (c.ring.val, c.tag.toNat, earliest, hold), openWrites := ports.length, failCode := 0 }
    let g := ports.foldl (fun g p => g.startReg c.ring.val c.tag.toNat 0x13 p (.ownerCheck n) [rd 0x000C]) g
    if ports.isEmpty then g.endArm n else g

/-- The arm of one context lapses where its time is over. -/
def Agg.expireArm (g : Agg) (n : Nat) : Agg :=
  match (g.job n).armed with
  | some (_, e) =>
    if g.now < e ∨ (g.job n).committer.isSome then g
    else (g.modJob n fun j => { j with armed := none, farOutcome := none, state := if j.state = .armed then .created else j.state }).flag (jobFlag 2)
  | none => g

/-- ARM_EXPIRE (R583). -/
def Agg.armExpire (g : Agg) : Agg := jobNumbers.foldl Agg.expireArm g

/-! ### Commit (R584 to R587) -/

/-- This module makes the ATU writes of jobs (R586, R587). -/
def Agg.writesAtus (g : Agg) : Bool := !g.paired || decide (g.ident.role = 0) || !g.partnerUp || g.pair.lost

/-- The writes of a commit on one port. -/
def commitOps (act mask : Nat) : List RegOp := [wrOp 0x0600 act, wrOp 0x0604 (act / 2 ^ 32), wrOp 0x0608 mask]

/-- A channel of a port still belongs to another job's teardown that has not taken effect (R586). -/
def Agg.stillTorn (g : Agg) (n p : Nat) : Bool :=
  g.jobs.claims.any fun x => decide (x.port = p ∧ x.next = some n) && decide (g.openWindow ≤ (g.job x.holder).lastWin)

/-- Start the commit writes of one die. -/
def Agg.commitPort (g : Agg) (n p act : Nat) (w : Nat × Nat) : Agg :=
  match (g.job n).dies.find? (·.port = p) with
  | some d => g.startReg w.1 w.2 0x14 p (.commit n) (commitOps act d.mask)
  | none => g

/-- The commit is fixed: what every module does when the writes have succeeded (R584, R585). -/
def Agg.fixCommit (g : Agg) (n : Nat) : Agg :=
  g.modJob n fun j => { j with commit := some j.committing, actWin := j.committing, armed := none, committer := none,
                               state := if j.state = .armed then .committed else j.state }

/-- The cancel of an accepted commit at one port (R586). -/
def Agg.cancelPort (j : Job) (g : Agg) (p : Nat) : Agg :=
  match j.dies.find? (·.port = p) with
  | some d => g.startReg fwRing 0 0x14 p .quiet [wrOp 0x0608 (256 + d.mask)]
  | none => g

/-- Every write of a commit has ended (R586, R587). -/
def Agg.endCommit (g : Agg) (n : Nat) : Agg :=
  let j := g.job n
  match j.committer with
  | none => g
  | some w =>
    let g := if g.paired then g.toPartner { kind := .commitOutcome, nums := [n, j.failCode] } else g
    if j.failCode = 0 then (g.fixCommit n).complete w 0x14 .ok []
    else
      let g := (j.accepted.foldl (Agg.cancelPort j) g).modJob n fun j => { j with committer := none, delayed := [], absent := [] }
      (g.flag (jobFlag 3)).complete w 0x14 (statusOfCode j.failCode) []

/-- COMMIT_OUTCOME_RECEIVE at module B (R587). An outcome that comes before B's own JOB_COMMIT waits for it, in B's own arm too. -/
def Agg.commitOutcome (g : Agg) (n code : Nat) : Agg :=
  match (g.job n).committer with
  | none => if (g.job n).state = .free then g else g.modJob n fun j => { j with farOutcome := some code }
  | some w =>
    if code = 0 then (g.fixCommit n).complete w 0x14 .ok []
    else ((g.modJob n fun j => { j with committer := none }).flag (jobFlag 3)).complete w 0x14 (statusOfCode code) []

/-- JOB_COMMIT COMMIT (R584, R586). -/
def Agg.jobCommit (g : Agg) (c : Caller) (act : Nat) : Agg :=
  let n := ctxOf c
  let j := g.job n
  g.command c 0x14 (noContext c ++ failIf (!g.isEpoch act || decide (act < j.readyWin)) .badParam ++
      failIf (decide (g.strokeHt act < g.ht + 5000000)) .staleEpoch ++ failIf (j.armed.isNone || j.committer.isSome) .conflict ++ g.notReady) none fun g =>
    let ports := j.dies.map (·.port)
    let up := ports.filter fun p => g.portUp p && !g.stillTorn n p
    let delayed := ports.filter (g.stillTorn n)
    let mine := g.writesAtus
    let g := g.modJob n fun j => { j with committer := some (who c), committing := act, failCode := 0, accepted := [], openWrites := if mine then up.length + delayed.length else 0,
                                          delayed := if mine then delayed else [],
                                          absent := if mine then ports.filter fun p => !g.portUp p && !g.stillTorn n p else [] }
    if !mine then (match j.farOutcome with | some code => (g.modJob n fun j => { j with farOutcome := none }).commitOutcome n code | none => g)
    else
      let g := up.foldl (fun g p => g.commitPort n p act (who c)) g
      if up.isEmpty && delayed.isEmpty then g.endCommit n else g

/-- JOB_COMMIT DISARM (R583). -/
def Agg.jobDisarm (g : Agg) (c : Caller) : Agg :=
  let n := ctxOf c
  g.command c 0x14 (noContext c ++ failIf ((g.job n).armed.isNone || (g.job n).committer.isSome) .conflict ++ g.notReady) none fun g =>
    (g.modJob n fun j => { j with armed := none, farOutcome := none, state := if j.state = .armed then .created else j.state }).done c 0x14 []

/-- One access sequence of a job ends (R582, R586). A port that left UP is written when it returns. The partner hears of a teardown's
writes too (R587). -/
def Agg.jobRegDone (g : Agg) (x : RegJob) (st : Status) : Agg :=
  match x.use with
  | .ownerCheck n =>
    let mask := (((g.job n).dies.find? (·.port = x.port)).map (·.mask)).getD 0
    let host := decide (st = .ok) && decide (mask &&& (x.word 0) ≠ mask)
    let g := g.modJob n fun j => { j with openWrites := j.openWrites - 1, failCode := if host then statusCode .conflict else j.failCode }
    if (g.job n).openWrites = 0 then g.endArm n else g
  | .commit n =>
    let gone := decide (st = .aborted ∨ st = .notPresent)
    let put (j : Job) : Job :=
      { j with openWrites := j.openWrites - 1, absent := if gone then j.absent ++ [x.port] else j.absent, accepted := if st = .ok then j.accepted ++ [x.port] else j.accepted,
               failCode := if st = .ok ∨ gone ∨ j.failCode ≠ 0 then j.failCode else statusCode st }
    let g := g.modJob n put
    if (g.job n).openWrites = 0 then g.endCommit n else g
  | .teardown n _ _ _ => if g.paired then g.toPartner { kind := .commitOutcome, nums := [n, statusCode st, 1] } else g
  | _ => g

/-- The commit of one context that a port missed. -/
def Agg.commitAbsent (p : Nat) (g : Agg) (n : Nat) : Agg :=
  match (g.job n).dies.find? (·.port = p) with
  | some d =>
    if (g.job n).absent.contains p then
      (g.modJob n fun j => { j with absent := j.absent.filter (· ≠ p) }).startReg fwRing 0 0x14 p .quiet (commitOps 0 d.mask)
    else g
  | none => g

/-- A port is in UP again: commits that it missed are written with ATU_CH_ACT_WIN 0 (R586). -/
def Agg.jobPortUp (g : Agg) (p : Nat) : Agg := jobNumbers.foldl (Agg.commitAbsent p) g

/-- The delayed commits of one context whose channels have been released. A port that is not in UP is written when it returns (R586). -/
def Agg.delayedCommit (g : Agg) (n : Nat) : Agg :=
  let j := g.job n
  let go := j.delayed.filter fun p => !g.stillTorn n p
  let (up, down) := go.partition g.portUp
  match j.committer with
  | none => g
  | some w =>
    if go.isEmpty then g
    else
      let put (j : Job) : Job := { j with delayed := j.delayed.filter (fun p => !go.contains p), absent := j.absent ++ down, openWrites := j.openWrites - down.length }
      let g := up.foldl (fun g p => g.commitPort n p j.committing w) (g.modJob n put)
      if (g.job n).openWrites = 0 then g.endCommit n else g

/-- Delayed commits whose channels have been released (R586). -/
def Agg.delayedCommits (g : Agg) : Agg := jobNumbers.foldl Agg.delayedCommit g

/-! ### Activation (R585) -/

/-- Every feature row of a job holds NaN (R405). -/
def Agg.clearRows (g : Agg) (n : Nat) : Agg :=
  g.write ((g.job n).model.base 0) ((List.replicate ((g.job n).dies.length * 16384) (leBytes 4 qNan)).flatten)

/-- The verdict record of a die-window that nobody scored. -/
def gapVerdict (w die : Nat) : Verdict :=
  { die := die, window := w, health := 0, classes := 0, action := 0, fallback := false, vflags := 0x0B, runCount := 0, worstRank := 0, worstTerm := 0,
    pens := List.replicate 8 0 }

/-- The gap record of one die for one window. -/
def Agg.gapRecord (j : Job) (w : Nat) (g : Agg) (d : JobDie) : Agg :=
  match d.pos with
  | some t => g.write (j.recordAddr w t) (verdictBytes (gapVerdict w d.die))
  | none => g

/-- Gap records of a context rebuilt from the keeper, from W_C to the window before it joins (R692). -/
def Agg.gapRecords (g : Agg) (n from_ to_ : Nat) : Agg :=
  let j := g.job n
  let first := max from_ (to_ - j.recordWindows)
  let g := ((List.range (to_ - first)).map (first + ·)).foldl (fun g w => j.dies.foldl (Agg.gapRecord j w) g) g
  g.modScore n fun s => { s with vWritten := some (to_ - 1), vFinal := some (to_ - 1) }

/-- The feature ring of a context rebuilt from the keeper, from received and resent frames: the rows of the last 64 windows before it joins (R692). -/
def Agg.rebuildRows (g : Agg) (n from_ to_ : Nat) : Agg :=
  let first := max from_ (to_ - 64)
  (((List.range (to_ - first)).map (first + ·)).foldl (fun g w => (List.range (g.job n).dies.length).foldl (Agg.buildAt n w) g) g).modScore n
    fun s => { s with dieWins := [] }

/-- The pending model of a job becomes active as a whole at the first stroke of a window (R585). Windows before it keep the model that was active, and
state images that a new Level block resets are reset as the first window after it is placed. A context rebuilt by a pair sync keeps its
Level state images, and from the partner its feature rows (R690, R692). -/
def Agg.activateJob (g : Agg) (n w : Nat) : Agg :=
  let j := g.job n
  match j.commit, j.pending with
  | some a, some m =>
    if w < a then g
    else
      let fresh := decide (j.state = .committed) || (decide (j.state = .draining) && j.active.isNone)
      let joins := g.pair.joining.any fun x => decide (x.1 = n)
      let keeper := joins && decide (g.pair.source = 1)
      let sameLevel := joins || (!fresh && decide (j.model.level = m.level))
      let later := (g.pair.later.find? fun x => decide (x.1 = n)).map (·.2)
      let needed (e : Nat) : Bool := decide ((g.score n).nextCut < e) || ((g.score n).wins.any fun x => decide (x.window < e)) ||
        (g.score n).placed.any fun p => !p.final && decide (p.first < e)
      let g := m.ensembles.foldl (fun g e => g.setEnsSlot n e.1 ((g.ensSlot n e.1).schedule a false)) g
      let former := if fresh then [] else (j.since, a, j.model) :: j.former.filter fun f => needed f.2.1
      let g := g.modJob n fun j => { j with since := a, former := former, active := some m, pending := later, commit := none, state := if j.state = .committed then .active else j.state,
                                            firstAct := if !fresh then j.firstAct else if keeper then g.pair.base else a }
      let g := if fresh then g.modScore n fun s => { nextCut := a, images := if joins then s.images else [] } else g
      let g := if fresh && (!joins || keeper) then g.clearRows n else g
      let g := if sameLevel || fresh then g else g.modScore n fun s => { s with wipes := s.wipes ++ (List.range j.dies.length).map fun t => (t, a) }
      let g := if keeper then (g.rebuildRows n g.pair.base a).gapRecords n g.pair.base a else g
      let g := { g with pair := { g.pair with joining := g.pair.joining.filter (fun x => decide (x.1 ≠ n)), later := g.pair.later.filter fun x => decide (x.1 ≠ n) } }
      g.refreshDir n
  | _, _ => g

def Agg.jobStroke (g : Agg) (w : Nat) : Agg := (jobNumbers.foldl (fun g n => g.activateJob n w) g).delayedCommits

/-! ### Teardown and release (R588, R589) -/

/-- The writes that disable a job's channels on one port: their configurations are read, and written back with ENABLE 0. -/
def Agg.disablePort (g : Agg) (n act : Nat) (d : JobDie) : Agg :=
  g.startReg fwRing 0 0x15 d.port (.teardown n d.mask act true) (((List.range 8).filter fun k => d.mask.testBit k).map fun k => rd (0x0500 + 0x20 * k))

/-- A command that the release of a context ends (R545, R589). A queued JOB_CREATE that wants the context is none of its commands (R572). -/
def abortedBy (n : Nat) (keep : Option (Nat × Nat)) (i : Inflight) : Bool :=
  decide (i.ring = n ∨ (i.ctx = n ∧ i.opcode ≠ 0x10)) && decide (keep ≠ some (i.ring, i.tag))

/-- Nothing waits for the outcome of these commands any more: they have completed. -/
def Agg.forgetCommands (g : Agg) (gone : Nat × Nat → Bool) : Agg :=
  { g with acc := { g.acc with jobs := g.acc.jobs.filter (fun (x : RegJob) => !gone (x.ring, x.tag)),
                               resets := g.acc.resets.filter fun (x : ResetWait) => !gone (x.ring, x.tag) }
           jobs := { g.jobs with waits := g.jobs.waits.filter fun (x : PasteWait) => !gone (x.ring, x.tag) }
           skim := { g.skim with asks := g.skim.asks.filter fun (x : SkimAsk) => !gone (x.ring, x.tag) } }

/-- The release of a context, in the order of R589. `tiles` says at which tile boundary each of its runs ends. -/
def Agg.releaseJob (g : Agg) (n : Nat) (tiles : Nat → Nat) : Agg :=
  let j := g.job n
  let ended := g.mbx.inflight.filter (abortedBy n j.teardown)
  let g := g.stopRuns n tiles
  let g := (ended.zip (List.range ended.length)).foldl (fun g p => (g.count n 14 1).settle (p.1.ring, p.1.tag) p.1.opcode .aborted
    (packFields (g.abortResults (p.1.ring, p.1.tag) (tiles (64 + p.2))))) g
  let g := g.forgetCommands fun w => decide (w.1 = n) || ended.any fun i => decide ((i.ring, i.tag) = w)
  let g := { g with jobs := { g.jobs with waits := g.jobs.waits.filter fun x => decide (x.ctx ≠ n) } }
  let g := g.dropRuns n
  let g := g.withStencil fun u => { u with slots := u.slots.filter (fun p => decide (p.1 / 4 ≠ n)), samples := u.samples.filter fun s => decide (s.ctx ≠ n) }
  let g := { g with codec := g.codec.map (fun (s : CodecSlot) => if s.owner = some n then {} else s), cvu := g.cvu.map fun (s : CvuCtx) => if s.owner = some n then {} else s }
  let g := match j.teardown with | some w => g.complete w 0x15 .ok [] | none => g
  let g := (g.ap.qps.filter fun q => q.2.any fun (x : Qp) => decide (x.pd = n)).foldl (fun (g : Agg) q => g.loseParked q.1) g
  let keepQp (q : Nat × Option Qp) : Bool := match q.2 with | some x => decide (x.pd ≠ n) || x.drain.isSome | none => true
  let lastDrain (q : Nat × Option Qp) : Nat × Option Qp :=
    (q.1, q.2.map fun (x : Qp) => if x.pd = n then { x with drain := x.drain.map fun (d : QpDrain) => { d with again := none } } else x)
  let shut (x : Nat × Window) : Nat × Window := if x.2.pd = n ∧ x.2.opened then (x.1, { x.2 with opened := false, draining := none, instant := none, revoker := none }) else x
  let g := { g with ap := { g.ap with windows := g.ap.windows.map shut, qps := (g.ap.qps.filter keepQp).map lastDrain,
                                      reads := g.ap.reads.map (fun (r : ReadOut) => if (r.window.any fun w => decide ((sget ({} : Window) g.ap.windows w).pd = n)) then { r with window := none, atTr := false } else r),
                                      pds := g.ap.pds.filter (· ≠ n) } }
  let g := g.modRing n fun _ => {}
  let pass (x : ChanClaim) : Option ChanClaim :=
    if x.holder = n then x.next.map fun m => { port := x.port, chan := x.chan, holder := m, freed := some j.lastWin } else if x.next = some n then some { x with next := none } else some x
  let zero := ([j.hawk, j.hbm].filter fun a => decide (a.len ≠ 0)).map fun a => (a, g.now)
  let g := { g with jobs := { g.jobs with claims := g.jobs.claims.filterMap pass, zeroing := g.jobs.zeroing ++ zero } }
  let g := ((g.modJob n fun _ => {}).modScore n fun _ => {}).flag (jobFlag 1)
  (g.placeDeferred).serveQueue 16

/-- LAST_WINDOW rounded up to the last window of its skim round (R588). -/
def Agg.roundUpLast (g : Agg) (w : Nat) : Nat :=
  match g.skim.cfg with | some c => max 1 c.windows * (w / max 1 c.windows + 1) - 1 | none => w

/-- A teardown ends any arm or commit of a replacement model (R588): a JOB_ARM or JOB_COMMIT that waits completes with ABORTED (R545), and
the channel commits that the ATUs may hold are cancelled by the module that made them. -/
def Agg.endReplacement (g : Agg) (n : Nat) : Agg :=
  let j := g.job n
  if j.state ≠ .active then g
  else
    let ports := if j.committer.isSome then (j.dies.map (·.port)).filter g.portUp else if j.commit.isSome then j.accepted else []
    let g := { g with acc := { g.acc with jobs := g.acc.jobs.filter fun x => decide (x.use ≠ .commit n ∧ x.use ≠ .ownerCheck n) } }
    let g := match j.armer with | some a => g.complete (a.1, a.2.1) 0x13 .aborted [] | none => g
    let g := match j.committer with | some w => g.complete w 0x14 .aborted [] | none => g
    let g := if g.writesAtus then ports.foldl (Agg.cancelPort j) g else g
    g.modJob n fun j => { j with armed := none, armer := none, commit := none, committer := none, farOutcome := none, openWrites := 0, accepted := [],
                                 delayed := [] }

/-- JOB_TEARDOWN (R588). -/
def Agg.jobTeardown (g : Agg) (c : Caller) (last : Nat) (tiles : Nat → Nat) : Agg :=
  let n := ctxOf c
  let j := g.job n
  let running := decide (j.state = .active ∨ j.state = .committed)
  g.command c 0x15 (noContext c ++ failIf (g.actStale last) .staleEpoch ++ failIf (decide (j.state = .draining)) .conflict ++ g.notReady) none fun g =>
    if !running then (g.modJob n fun j => { j with teardown := some (who c) }).releaseJob n tiles
    else
      let w := g.roundUpLast (g.actWindow last)
      let g := (g.endReplacement n).modJob n fun j => { j with state := .draining, lastWin := w, teardown := some (who c), absent := [] }
      if g.writesAtus then (j.dies.filter fun d => g.portUp d.port).foldl (fun g d => g.disablePort n (w + 1) d) g else g

/-- The verdicts of a draining job through LAST_WINDOW are final, or it never scored one. -/
def Agg.drained (g : Agg) (n : Nat) : Bool :=
  let j := g.job n
  if j.active.isNone ∨ j.lastWin < j.firstAct then decide (j.lastWin < g.openWindow)
  else match (g.score n).vFinal with | some v => decide (j.lastWin ≤ v) | none => false

/-- JOB_RELEASE (R589). -/
def Agg.jobRelease (g : Agg) (n : Nat) (tiles : Nat → Nat) : Agg :=
  if decide ((g.job n).state = .draining) && g.drained n then g.releaseJob n tiles else g

/-! ### JOB_STATUS (R590) -/

def jobStateCode (s : JobState) : Nat :=
  match s with | .free => 0 | .created => 1 | .armed => 2 | .committed => 3 | .active => 4 | .draining => 5

def Agg.jobStatus (g : Agg) (c : Caller) : Agg :=
  let n := ctxOf c
  let j := g.job n
  let waiting := (g.jobs.queue.zipIdx.find? fun q => decide (q.1.ctx = n ∧ n ≠ 0)).map (·.2 + 1)
  g.checked c 0x16 (failIf (decide (c.ring.val ≠ 0 ∧ c.ctx.val ≠ 0 ∧ c.ctx.val ≠ c.ring.val)) .privilege ++ noContext c ++ g.notReady) none fun g =>
    g.done c 0x16 [(3, jobStateCode j.state),
      (4, b2n j.armed.isSome + 2 * b2n j.commit.isSome + 4 * b2n j.pending.isSome + 8 * b2n ((j.pending.map (·.deferred)).getD false)),
      (32, j.epoch), (32, j.tag), (48, j.actWin), (48, j.readyWin), (48, j.lastWin), (7, j.dies.length), (64, (j.active.map (·.digest)).getD 0),
      (64, (j.pending.map (·.digest)).getD 0), (5, waiting.getD 0)]

end Sys2Proof.Machine
end

