-- ==== Sys2Proof/Machine/Paste.lean ====
section
/-!
DEFINITION. Paste.lean: the paste tree: R591 to R601 of spec/15_jobs.md.
-/
namespace Sys2Proof.Machine

/-! ### Chunks and control messages (R592, R593) -/

/-- The header of a chunk (R592). -/
def chunkHead (refetch : Bool) (tray : Nat) (p : Paste) (seq : Nat) (bytes : List Byte) : List Byte :=
  withCrc crc32c ([0xF1, 1] ++ leBytes 1 (b2n refetch) ++ leBytes 1 (tray / 256) ++ leBytes 4 p.ident ++ leBytes 4 seq ++ leBytes 4 p.chunks ++ leBytes 4 p.len ++
    leBytes 8 p.digest ++ leBytes 8 p.deadline ++ leBytes 4 bytes.length ++ zeros 16 ++ leBytes 4 (crcOf crc32c bytes))

/-- A control message (R593). -/
def pasteCtlMsg (kind ident : Nat) (rest : List Byte) : List Byte := withCrc crc32c ([0xF2, 1] ++ leBytes 1 kind ++ zeros 1 ++ leBytes 4 ident ++ rest)

/-- A control message of a kind that arrived whole: its PASTE_ID. -/
def readPasteCtl (kind : Nat) (m : List Byte) : Option Nat :=
  if crcGood crc32c m && decide (12 ≤ m.length) && decide (leAt m 0 1 = 0xF2) && decide (leAt m 1 1 = 1) && decide (leAt m 2 1 = kind) then some (leAt m 4 4) else none

/-- A chunk whose check values and lengths hold (R592, R594). -/
def chunkGood (m : List Byte) : Bool :=
  let n := leAt m 36 4
  decide (m.length = 64 + n) && decide (leAt m 0 1 = 0xF1) && decide (leAt m 1 1 = 1) && decide (leAt m 60 4 = crcOf crc32c (m.take 60)) &&
    decide (leAt m 56 4 = crcOf crc32c (m.drop 64)) && decide (leAt m 12 4 = ceilDiv (leAt m 16 4) 32768) && decide (leAt m 8 4 < leAt m 12 4) &&
    decide (n = min 32768 (leAt m 16 4 - 32768 * leAt m 8 4))

/-! ### The tree of a paste (R591, R598) -/

def Agg.pasteOf (g : Agg) (i : Nat) : Option Paste := g.jobs.pastes.find? fun p => decide (p.ident = i)
def Agg.modPaste (g : Agg) (i : Nat) (f : Paste → Paste) : Agg :=
  { g with jobs := { g.jobs with pastes := g.jobs.pastes.map fun p => if p.ident = i then f p else p } }
def Agg.putPaste (g : Agg) (p : Paste) : Agg :=
  { g with jobs := { g.jobs with pastes := g.jobs.pastes.filter (fun x => decide (x.ident ≠ p.ident)) ++ [p] } }

def Agg.pasteParent (g : Agg) (p : Paste) : Option Nat := g.skim.cfg.bind fun c => if p.useAlt then c.alt else c.primary

/-- The skim children of this plane, and those that re-parented to this module. -/
def Agg.pasteChildren (g : Agg) (p : Paste) : List Nat :=
  let own := (g.skim.children.filter fun c => !c.adopted && c.until_.isNone).map (·.link)
  own ++ p.rejoined.filter fun k => !own.contains k

/-- Send to the paste parent, or to the partner where there is none (R597). -/
def Agg.pasteUp (g : Agg) (p : Paste) (cls : Nat) (m : List Byte) : Agg :=
  match g.pasteParent p with | some k => g.queueBytes k cls m none | none => g.toPartnerRaw m

/-- Answer the sender of a message: a link, or the partner, which has chunks in TC6 (R597) and control messages in TC3 (R593). -/
def Agg.pasteTo (g : Agg) (dst : Option Nat) (cls : Nat) (m : List Byte) : Agg :=
  match dst with | some k => g.queueBytes k cls m none | none => if cls = 3 then g.toPartnerIn 3 m else g.toPartnerRaw m

/-- One chunk to one destination. -/
def Agg.sendChunk (g : Agg) (p : Paste) (refetch : Bool) (dst : Option Nat) (seq : Nat) (bytes : List Byte) : Agg :=
  g.pasteTo dst 4 (chunkHead refetch g.ident.trayId p seq bytes ++ bytes)

/-! ### Staging (R594, R599) -/

/-- Bytes of staging that a paste takes here: on an AKL-A40T the newest 16 MiB of a larger image. -/
def Agg.stagingNeed (g : Agg) (len : Nat) : Nat := if g.isT then min len (2 ^ 24) else len
def Agg.stagingSize (g : Agg) : Nat := if g.isT then 2 ^ 24 else if g.hasHbm then 3 * 2 ^ 30 else 0
def Agg.stagingUsed (g : Agg) : Nat := ((g.jobs.pastes.filter (·.staged)).map fun p => g.stagingNeed p.len).sum
def Agg.stagingFits (g : Agg) (len : Nat) : Bool := decide (g.stagingUsed + g.stagingNeed len ≤ g.stagingSize)
def Agg.stagingBase (g : Agg) : Nat := if g.isT then 0x47400000 else 0x1800000000

/-- A range among ranges in the order of their bases. -/
def insertRange (x : Nat × Nat) : List (Nat × Nat) → List (Nat × Nat)
  | [] => [x]
  | y :: l => if x.1 < y.1 then x :: y :: l else y :: insertRange x l

/-- The lowest bytes from `lo` on that none of the ranges holds, which stand in the order of their bases: base and length of each part. -/
def freeParts : List (Nat × Nat) → Nat → Nat → List (Nat × Nat)
  | [], lo, need => if need = 0 then [] else [(lo, need)]
  | x :: l, lo, need => let k := min need (x.1 - lo); if k = 0 then freeParts l (max lo (x.1 + x.2)) need else (lo, k) :: freeParts l (x.1 + x.2) (need - k)

/-- Where a new paste stands in the staging area (R573, R594). DEDUCED (notes/assumptions/96.md): it takes the lowest free bytes. -/
def Agg.stagingPlace (g : Agg) (len : Nat) : List (Nat × Nat) :=
  let used := (g.jobs.pastes.filter (·.staged)).flatMap (·.place)
  freeParts (used.foldl (fun l x => insertRange x l) []) g.stagingBase (g.stagingNeed len)

/-- Write bytes from an offset on into the parts of a place. -/
def writeParts : List (Nat × Nat) → Nat → List Byte → SMap Byte → SMap Byte
  | [], _, _, m => m
  | x :: l, o, bs, m => if x.2 ≤ o then writeParts l (o - x.2) bs m else writeParts l 0 (bs.drop (x.2 - o)) (mwrite m (x.1 + o) (bs.take (x.2 - o)))

/-- A chunk's bytes go to their place in the staging area (R573, R594); of a larger image an AKL-A40T keeps the newest 16 MiB (R599). -/
def Agg.stageBytes (g : Agg) (p : Paste) (seq : Nat) (bytes : List Byte) : Agg :=
  if p.staged then { g with mem := writeParts p.place (32768 * seq % max 1 (g.stagingNeed p.len)) bytes g.mem } else g

/-- The module may hold an image of this length. -/
def Agg.canHold (g : Agg) (len : Nat) : Bool := !g.isT || decide (len ≤ 2 ^ 24)

/-- The module holds the image (R594). -/
def Agg.holds (g : Agg) (p : Paste) : Bool :=
  p.staged && !p.failed && g.canHold p.len && decide (p.run = p.chunks) && decide (crcResult crc64ecma p.crc = p.digest)

/-- Advance the running CRC over the contiguous chunks. -/
def Paste.advance (p : Paste) : Nat → Paste
  | 0 => p
  | k + 1 =>
    match p.held.find? (·.1 = p.run) with
    | some (_, bs) => Paste.advance { p with run := p.run + 1, crc := crcRun crc64ecma p.crc bs } k
    | none => p

/-- Store a chunk (R594, R599). An image that fails the final check is discarded. -/
def Agg.storePaste (g : Agg) (p : Paste) (seq : Nat) (bytes : List Byte) : Paste :=
  if !p.staged then p
  else
    let q := { p with held := sset [] p.held seq bytes }
    let q := q.advance (p.held.length + 1)
    if !g.canHold p.len then { q with held := q.held.drop (q.held.length - 512) }
    else if q.run = q.chunks ∧ crcResult crc64ecma q.crc ≠ q.digest then { q with held := [], staged := false, failed := true }
    else q

/-- The bytes of a staged image, as the staging area holds them. -/
def Agg.stagedImage (g : Agg) (p : Paste) : List Byte := p.place.flatMap fun x => g.read x.1 x.2

/-! ### HAVE and the decision (R595, R596) -/

def trayBit (t : Nat) : List Byte := (List.range 256).map fun i => if i = t / 8 then BitVec.ofNat 8 (2 ^ (t % 8)) else 0
def orBytes (a b : List Byte) : List Byte := List.zipWith (· ||| ·) (padTo 256 a) (padTo 256 b)

/-- The tray counts as holding the image (R595). -/
def Agg.trayHolds (g : Agg) (p : Paste) : Bool := g.holds p && (!g.partnerUp || g.pair.lost || p.partnerHas)

/-- The bitmap that this module sends. -/
def Agg.haveMap (g : Agg) (p : Paste) : List Byte :=
  p.children.foldl (fun a c => orBytes a c.2) (if g.trayHolds p then trayBit g.ident.trayId else zeros 256)

/-- This module decides for the paste (R596). -/
def Agg.decides (g : Agg) (p : Paste) : Bool := p.sender.isSome && (decide (g.plane = 0) || !g.partnerUp || g.pair.lost)

/-- The bitmap with the partner's covers MEMBERS. -/
def Agg.covers (g : Agg) (p : Paste) : Bool :=
  let m := orBytes (g.haveMap p) p.partner
  decide (List.zipWith (· &&& ·) m (padTo 256 p.members) = padTo 256 p.members)

/-- What a decision does to a RECEIVE that waits (R601). -/
def Agg.endWait (g : Agg) (p : Paste) (commit : Bool) (x : PasteWait) : Agg :=
  if x.digest ≠ p.digest then g.complete (x.ring, x.tag) 0x12 .integrity []
  else if !commit then g.complete (x.ring, x.tag) 0x12 .aborted []
  else if !g.holds p then g.complete (x.ring, x.tag) 0x12 .integrity []
  else g.loadOutcome (x.ring, x.tag) x.ctx (g.stagedImage p)

/-- The waits of a paste end. -/
def Agg.endWaits (g : Agg) (p : Paste) (f : Agg → PasteWait → Agg) : Agg :=
  let mine := g.jobs.waits.filter fun x => decide (x.paste = p.ident)
  mine.foldl f { g with jobs := { g.jobs with waits := g.jobs.waits.filter fun x => decide (x.paste ≠ p.ident) } }

/-- Act on a decision and pass it on (R596, R600, R601). -/
def Agg.decidePaste (g : Agg) (p : Paste) (commit : Bool) : Agg :=
  let m := pasteCtlMsg 3 p.ident (leBytes 1 (if commit then 1 else 2) ++ leBytes 8 p.digest)
  let g := ((g.pasteChildren p).foldl (fun g k => g.queueBytes k 3 m none) g).toPartnerIn 3 m
  let g := g.flag (jobFlag (if commit then 4 else 5))
  let g := g.endWaits p fun g x => g.endWait p commit x
  let g := match p.sender with | some w => g.complete w 0x12 (if commit then .ok else .aborted) [] | none => g
  g.putPaste { p with outcome := some commit, freeAt := some (g.now + 10 * second), sender := none,
                      held := if commit then p.held else [], staged := p.staged && commit }

/-- The decider commits as soon as every member holds the image. -/
def Agg.tryCommit (g : Agg) (i : Nat) : Agg :=
  match g.pasteOf i with
  | some p => if p.outcome.isNone && g.decides p && g.covers p then g.decidePaste p true else g
  | none => g

/-- A HAVE is due: at once on the first growth of the bitmap, or for the partner, after 100 µs on growth, and every 1 ms (R595). -/
def Agg.haveDue (g : Agg) (p : Paste) : Bool :=
  match p.haveAt with
  | none => g.holds p || decide (g.haveMap p ≠ zeros 256)
  | some t => decide (t + 1000000 ≤ g.now) || (decide (g.haveMap p ≠ p.haveMap) && decide (t + 100000 ≤ g.now))

/-- PASTE_HAVE_SEND: to the paste parent, and what this module holds to its partner. -/
def Agg.pasteHaveSend (g : Agg) (i : Nat) : Agg :=
  match g.pasteOf i with
  | none => g
  | some p =>
    if p.outcome.isSome || !g.haveDue p then g
    else
      let b := g.haveMap p
      let g := match p.sender, g.pasteParent p with
        | none, some k => g.queueBytes k 3 (pasteCtlMsg 1 i b) none
        | _, _ => g
      let g := g.toPartner { kind := .pasteCtl, nums := [i, b2n (g.holds p)], bytes := b }
      (g.modPaste i fun p => { p with haveAt := some g.now, haveMap := b }).tryCommit i

/-- PASTE_HAVE_RECEIVE: a child's bitmap, or the partner's, of which `holds` says whether that module holds the image. -/
def Agg.pasteHaveReceive (g : Agg) (src : Option Nat) (m : List Byte) (holds : Bool) : Agg :=
  match readPasteCtl 1 m with
  | none => g
  | some i =>
    let b := bytesAt m 8 256
    let put (p : Paste) : Paste := match src with
      | some k => { p with children := sset [] p.children k b }
      | none => { p with partner := b, partnerHas := holds }
    if m.length ≠ 268 then g else (g.modPaste i put).tryCommit i

/-- PASTE_DEADLINE (R596). -/
def Agg.pasteDeadline (g : Agg) (i : Nat) : Agg :=
  match g.pasteOf i with
  | some p => if p.outcome.isNone && g.decides p && decide (p.deadline ≤ g.ht) then g.decidePaste p (g.covers p) else g
  | none => g

/-- PASTE_DECIDE_RECEIVE (R596): the first decision is acted on. -/
def Agg.pasteDecide (g : Agg) (m : List Byte) : Agg :=
  match readPasteCtl 3 m with
  | none => g
  | some i =>
    let o := leAt m 8 1
    if m.length ≠ 21 ∨ (o ≠ 1 ∧ o ≠ 2) then g
    else
      let d := leAt m 9 8
      let p : Paste := (g.pasteOf i).getD { ident := i, chunks := 0, len := 0, digest := d, deadline := 0, staged := false }
      match p.outcome with
      | some c => if c = decide (o = 1) then g else (g.flag (jobFlag 9)).event 0x2A 2 0 (leBytes 4 i ++ zeros 4)
      | none => g.decidePaste { p with digest := d, failed := p.failed || decide (d ≠ p.digest) } (decide (o = 1))

/-! ### Chunks (R594, R597) -/

/-- The missing run that ends just before a chunk. -/
def missingBefore (held : SMap (List Byte)) : Nat → Nat
  | 0 => 0
  | n + 1 => if held.any (·.1 = n) then 0 else 1 + missingBefore held n

/-- An ascending list of numbers as runs: first and count. -/
def seqRuns : List Nat → List (Nat × Nat)
  | [] => []
  | s :: l => match seqRuns l with
    | (a, n) :: rest => if a = s + 1 then (s, n + 1) :: rest else (s, 1) :: (a, n) :: rest
    | [] => [(s, 1)]

/-- FETCH messages for a run of chunks, at most 256 each. -/
def Agg.fetchRun (g : Agg) (p : Paste) : Nat → Nat → Nat → Agg
  | 0, _, _ => g
  | k + 1, first, count =>
    if count = 0 then g
    else
      let n := min 256 count
      Agg.fetchRun ((g.pasteUp p 4 (pasteCtlMsg 2 p.ident (leBytes 4 first ++ leBytes 2 n))).flag (jobFlag 7)) p k (first + n) (count - n)

/-- The paste that the first accepted chunk of a PASTE_ID starts (R594). -/
def Agg.openPaste (g : Agg) (m : List Byte) : Agg × Paste :=
  let p : Paste := { ident := leAt m 4 4, chunks := leAt m 12 4, len := leAt m 16 4, digest := leAt m 20 8, deadline := leAt m 28 8 }
  if g.stagingFits p.len then (g, { p with place := g.stagingPlace p.len }) else (g.flag (jobFlag 8), { p with staged := false })

/-- Key in `Paste.asked` of what this module has asked for itself. -/
def selfKey : Nat := 255

/-- A chunk has been asked for, and has not come (R597). -/
def Paste.askedFor (p : Paste) (seq : Nat) (who : Nat → Bool) : Bool := p.asked.any fun a => who a.1 && decide (a.2.1 ≤ seq ∧ seq < a.2.1 + a.2.2)

/-- PASTE_CHUNK_RECEIVE (R594, R597). -/
def Agg.pasteChunk (g : Agg) (m : List Byte) : Agg :=
  if !chunkGood m then g
  else
    let i := leAt m 4 4
    let seq := leAt m 8 4
    let refetch := (leAt m 2 1).testBit 0
    let bytes := m.drop 64
    let (g, p) := match g.pasteOf i with | some p => (g, p) | none => g.openPaste m
    if p.outcome.isSome || p.held.any (·.1 = seq) || decide (p.staged ∧ seq < p.run) || decide (p.chunks ≤ seq) then g
    else
      let q := g.storePaste p seq bytes
      let g := g.stageBytes p seq bytes
      let wants (k : Nat) : Bool := p.askedFor seq (· = k)
      let g := (g.pasteChildren p).foldl (fun g k => g.sendChunk p (wants (k + 1)) (some k) seq bytes) g
      let g := if wants 0 then g.sendChunk p true none seq bytes else g
      let gap := if refetch || !p.staged then 0 else min (seq - p.run) (missingBefore p.held seq)
      let lack := ((List.range gap).map (seq - gap + ·)).filter fun s => !p.askedFor s fun _ => true
      let g := (seqRuns lack).foldl (fun g r => g.fetchRun p (r.2 / 256 + 1) r.1 r.2) g
      (g.putPaste { q with asked := q.asked ++ (seqRuns lack).map fun r => (selfKey, r.1, r.2) }).tryCommit i

/-- Key of the module that asks in `Paste.asked`: 0 for the partner, k + 1 for link k. -/
def askKey (src : Option Nat) : Nat := match src with | some k => k + 1 | none => 0

/-- Pass a FETCH on; the partner's is not sent back to it. -/
def Agg.pasteOn (g : Agg) (p : Paste) (src : Option Nat) (m : List Byte) : Agg :=
  if src.isNone && (g.pasteParent p).isNone then g else g.pasteUp p 4 m

/-- PASTE_FETCH_RECEIVE (R597, R600): REFETCH chunks for what is held; the rest is answered as it comes, and asked of the parent unless this
module has asked for it, so that the parent receives no request twice.
COUNT 0 asks for the decision. A paste that this module has not met is asked of its own parent. -/
def Agg.pasteFetch (g : Agg) (src : Option Nat) (m : List Byte) : Agg :=
  match readPasteCtl 2 m with
  | none => g
  | some i =>
    match g.pasteOf i with
    | none => if m.length = 18 then g.pasteOn { ident := i, chunks := 0, len := 0, digest := 0, deadline := 0, staged := false } src m else g
    | some p =>
      let first := leAt m 8 4
      let count := leAt m 12 2
      if m.length ≠ 18 ∨ 256 < count then g
      else if count = 0 then
        match p.outcome with
        | some c => g.pasteTo src 3 (pasteCtlMsg 3 i (leBytes 1 (if c then 1 else 2) ++ leBytes 8 p.digest))
        | none => g.pasteOn p src m
      else
        let want := ((List.range count).map (first + ·)).filter fun s => decide (s < p.chunks)
        let have_ := p.held.filter fun e => want.contains e.1
        let g := have_.foldl (fun g e => g.sendChunk p true src e.1 e.2) g
        let k := askKey src
        let lack := want.filter fun s => !(p.held.any (·.1 = s)) && !p.askedFor s (· = k)
        let new := if src.isNone && (g.pasteParent p).isNone then [] else lack.filter fun s => !p.askedFor s fun _ => true
        ((seqRuns new).foldl (fun g r => g.fetchRun p (r.2 / 256 + 1) r.1 r.2) g).modPaste i fun p =>
          { p with asked := p.asked ++ (seqRuns lack).map fun r => (k, r.1, r.2) }

/-- A chunk that this module has discarded for want of room is fetched again from the paste parent (R353, R597). -/
def Agg.fetchDropped (g : Agg) (m : List Byte) : Agg :=
  if m.length < 12 ∨ leAt m 0 1 ≠ 0xF1 then g
  else match g.pasteOf (leAt m 4 4) with
    | some p => if p.outcome.isSome || p.held.any (·.1 = leAt m 8 4) then g else g.fetchRun p 1 (leAt m 8 4) 1
    | none => g

/-! ### Re-parenting (R598) -/

/-- The first chunk missing. -/
def Paste.nextSeq (p : Paste) : Nat := p.run

/-- PASTE_REPARENT: the parent's link has left UP, or the parent said LEAVE. -/
def Agg.pasteReparent (g : Agg) (i : Nat) (left : Bool) : Agg :=
  match g.pasteOf i with
  | none => g
  | some p =>
    let gone := match g.pasteParent p with | some k => left || decide ((g.link k).state ≠ .up) | none => false
    match g.skim.cfg.bind (·.alt) with
    | some k =>
      if p.outcome.isSome || p.useAlt || p.sender.isSome || !gone then g
      else ((g.modPaste i fun p => { p with useAlt := true }).queueBytes k 3 (pasteCtlMsg 4 i (leBytes 4 p.nextSeq)) none).flag (jobFlag 6)
    | none => g

/-- PASTE_REJOIN_RECEIVE at the new parent. -/
def Agg.pasteRejoin (g : Agg) (k : Nat) (m : List Byte) : Agg :=
  match readPasteCtl 4 m with
  | none => g
  | some i =>
    match g.pasteOf i with
    | none => g
    | some p =>
      if m.length ≠ 16 then g
      else
        let from_ := leAt m 8 4
        let g := g.modPaste i fun p => { p with rejoined := if p.rejoined.contains k then p.rejoined else p.rejoined ++ [k] }
        (p.held.filter fun e => decide (from_ ≤ e.1)).foldl (fun g e => g.sendChunk p false (some k) e.1 e.2) g

/-! ### Without a decision; the end of staging (R600) -/

/-- PASTE_DECIDE_PROBE. -/
def Agg.pasteProbe (g : Agg) (i : Nat) : Agg :=
  match g.pasteOf i with
  | none => g
  | some p =>
    let due := match p.probeAt with | some t => decide (t + 1000000 ≤ g.now) | none => true
    if p.outcome.isSome || decide (g.ht < p.deadline + 5000000) || !due then g
    else (g.pasteUp p 4 (pasteCtlMsg 2 i (zeros 6))).modPaste i fun p => { p with probeAt := some g.now }

/-- PASTE_ABANDON. -/
def Agg.pasteAbandon (g : Agg) (i : Nat) : Agg :=
  match g.pasteOf i with
  | none => g
  | some p =>
    if p.outcome.isSome || decide (g.ht < p.deadline + 50000000) then g
    else
      let g := (g.endWaits p fun g x => g.complete (x.ring, x.tag) 0x12 .timeout []).flag (jobFlag 5)
      let g := match p.sender with | some w => g.complete w 0x12 .timeout [] | none => g
      { g with jobs := { g.jobs with pastes := g.jobs.pastes.filter fun x => decide (x.ident ≠ i) } }

/-- PASTE_STAGING_FREE. -/
def Agg.pasteFree (g : Agg) : Agg :=
  { g with jobs := { g.jobs with pastes := g.jobs.pastes.filter fun p => match p.freeAt with | some t => decide (g.now < t) | none => true } }

/-! ### The commands (R591, R599, R601) -/

/-- Chunks of an image. -/
def chunksOf (img : List Byte) : Nat → Nat → List (Nat × List Byte)
  | _, 0 => []
  | i, k + 1 => (i, bytesAt img (32768 * i) 32768) :: chunksOf img (i + 1) k

def Paste.inUse (p : Paste) : Bool := p.outcome.isNone || p.staged

/-- JOB_LOAD_MODEL SEND. -/
def Agg.pasteSend (g : Agg) (c : Caller) (i addr len deadline membersAddr : Nat) : Agg :=
  let bad := g.outsideAll c.ring.val [(addr, len), (membersAddr, 256)]
  g.command c 0x12 (ring0Only c ++
      failIf (decide (len = 0 ∨ 2 ^ 31 < len) || decide (deadline < g.ht + 10000000 ∨ g.ht + 60 * second < deadline)) .badParam ++
      failIf (g.jobs.pastes.any fun p => decide (p.ident = i) && p.inUse) .conflict ++
      failIf (!g.stagingFits len || decide (4 ≤ (g.jobs.pastes.filter (·.outcome.isNone)).length)) .noResource ++ g.notReady) bad fun g =>
    let img := g.read addr len
    let n := ceilDiv len 32768
    let cs := chunksOf img 0 n
    let p : Paste := { ident := i, chunks := n, len := len, digest := crcOf crc64ecma img, deadline := deadline, members := g.read membersAddr 256,
                       sender := some (who c), place := g.stagingPlace len }
    let g := cs.foldl (fun g e => (g.pasteChildren p).foldl (fun g k => g.sendChunk p false (some k) e.1 e.2) g) g
    let g := cs.foldl (fun g e => g.stageBytes p e.1 e.2) g
    let q := { p with held := if g.canHold len then cs else cs.drop (cs.length - 512), run := n, crc := crcRun crc64ecma 0 img }
    (g.putPaste q).tryCommit i

/-- JOB_LOAD_MODEL RECEIVE (R601). -/
def Agg.pasteReceive (g : Agg) (c : Caller) (i digest : Nat) : Agg :=
  let n := ctxOf c
  g.command c 0x12 (noContext c ++ failIf (g.job n).held_ .conflict ++ g.notReady) none fun g =>
    let x : PasteWait := { ring := c.ring.val, tag := c.tag.toNat, ctx := n, paste := i, digest := digest }
    match g.pasteOf i with
    | some p => match p.outcome with
      | some o => g.endWait p o x
      | none => { g with jobs := { g.jobs with waits := g.jobs.waits ++ [x] } }
    | none => { g with jobs := { g.jobs with waits := g.jobs.waits ++ [x] } }

end Sys2Proof.Machine
end

