-- ==== Sys2Proof/Machine/AggAccess.lean ====
section
/-!
DEFINITION. AggAccess.lean: the aggregator's register map and its reads and writes: R12, R80, R611, and the register tables of
spec/00, 02 and 08 to 19.
-/
namespace Sys2Proof.Machine

/-! ### The register map -/

/-- Time, ports, links, gates and meters. -/
def aggRowsA : List RegRow :=
  [{ base := 0x10 }, { base := 0x1000, w1c := 0x3F0000 }, { base := 0x1008, count := 2 }, { base := 0x1040, count := 6 },
   { base := 0x20000, count := 64, stride := 0x100, w1c := 0x3F00 }, { base := 0x30000, count := 32, stride := 0x100, w1c := 0x3F00 },
   { base := 0x40000, count := 16, rw := 0x00FF03FF }, { base := 0x40040, count := 16 }, { base := 0x40080, wo := 3 }, { base := 0x40084 },
   { base := 0x40088, w1c := 0x3F }, { base := 0x4008C }, { base := 0x400C0, count := 6 },
   { base := 0x40130, count := 5, stride := 0x10, rw := allBits }, { base := 0x40134, count := 5, stride := 0x10, rw := allBits },
   { base := 0x40138, count := 5, stride := 0x10, rw := 0xFFFFF }, { base := 0x401B0, count := 20 },
   { base := 0x41000, count := 0x800 }, { base := 0x43000, count := 0x80 }]

/-- The other registers of a die port, and of a skim link. -/
def aggRowsPort (p : Nat) : List RegRow := [{ base := 0x20004 + 0x100 * p, count := 7 }, { base := 0x20040 + 0x100 * p, count := 6 }]
def aggRowsLink (k : Nat) : List RegRow := [{ base := 0x30004 + 0x100 * k, count := 12 }, { base := 0x30040 + 0x100 * k, count := 6 }]

/-- Skim, stations, Stencil, verdicts, mailboxes, jobs, analysis ports. -/
def aggRowsB : List RegRow :=
  [{ base := 0x50000, w1c := 0xFF }, { base := 0x50008, count := 2 }, { base := 0x50040, count := 8 },
   { base := 0x60000, count := 2 }, { base := 0x60010, w1c := 0x7F }, { base := 0x60020, rw := 0x1FFFF }, { base := 0x60028, count := 3 },
   { base := 0x60040, count := 7 }, { base := 0x60100, count := 24 }, { base := 0x60200, count := 24 },
   { base := 0x70000, w1c := 0x3F }, { base := 0x70008, count := 2 }, { base := 0x70040, count := 6 }, { base := 0x70100, count := 16 },
   { base := 0x80000, w1c := 0x3FF }, { base := 0x80010, count := 8 }, { base := 0x80040, count := 10 },
   { base := 0x90000, w1c := 0x1F }, { base := 0x90004, count := 2 }, { base := 0x90040, count := 5 },
   { base := 0xA0000, w1c := 0x3FF }, { base := 0xA0008, count := 2 }, { base := 0xA0040, count := 10 },
   { base := 0xB0000, w1c := 0xFF }, { base := 0xB0008, count := 4 }, { base := 0xB0040, count := 8 }, { base := 0xB0100, count := 9 },
   { base := 0xB0180, count := 9 }]

/-- Power, safety, bring-up. -/
def aggRowsC : List RegRow :=
  [{ base := 0xC0000, w1c := 0x1FF }, { base := 0xC0004 }, { base := 0xC0008, rw := 0xFFFFFE00 }, { base := 0xC0010, count := 6 },
   { base := 0xC0030, rw := 0xFFFFFF01 }, { base := 0xC0034, rw := allBits }, { base := 0xC0038 }, { base := 0xC0040, count := 9 },
   { base := 0xD0000 }, { base := 0xD0004, w1c := 0x3FF }, { base := 0xD0008, count := 8 }, { base := 0xD0028, wo := 0x3F }, { base := 0xD002C, count := 3 },
   { base := 0xD0040, count := 10 }, { base := 0xE0000, w1c := 0x3F0000 }, { base := 0xE0004, count := 3 }, { base := 0xE0040, count := 6 }]

/-- One aggregator ageing site, in the layout of ATU_AGE_SITEk. -/
def aggRowsSite (k : Nat) : List RegRow :=
  let b := 0xC0100 + 0x40 * k
  [{ base := b, rw := 0xC }, { base := b + 4, rw := 0xFFFF }, { base := b + 8, rw := allBits }, { base := b + 0xC, count := 2 }, { base := b + 0x14, rw := 0xFFFFF },
   { base := b + 0x18, count := 8, rw := allBits }, { base := b + 0x38 }]

/-- The doorbell page of ring n (R522, R567). -/
def aggRowsRing (n : Nat) : List RegRow :=
  let b := ringRegion n + 0x4000
  [{ base := b, wo := allBits }, { base := b + 4 }, { base := b + 8, rw := allBits }, { base := b + 0xC }, { base := b + 0x10, wo := 1 },
   { base := b + 0x14, w1c := 7 }, { base := b + 0x18 }, { base := b + 0x40, count := 3 }]

/-- The whole map. -/
def aggRows : List RegRow :=
  aggRowsA ++ aggRowsB ++ aggRowsC ++ (List.range 64).flatMap aggRowsPort ++ (List.range 32).flatMap aggRowsLink ++ (List.range 24).flatMap aggRowsSite ++
    (List.range 17).flatMap aggRowsRing

def aggRow (off : Nat) : Option RegRow := aggRows.find? (·.holds off)

/-! ### What registers read -/

/-- Where the upper word that a read of a LO half latched is kept (R80). -/
def latchKey (lo : Nat) : Nat := 2 ^ 32 + lo

/-- LO halves whose reads latch (R80, R81, R400, R518). -/
def latchesHi (off : Nat) : Bool :=
  decide (off = 0x1008 ∨ off = 0x50008 ∨ off = 0x80020 ∨ off = 0xC0010 ∨ off = 0xD0030) ||
    (decide (0x41000 ≤ off ∧ off < 0x43200) && decide (off % 0x20 = 8))

/-- AGG_TIME_STATUS but its flags (R81). -/
def Agg.timeStatus (g : Agg) : Nat :=
  let t := g.time
  let recent := match t.todOk with | some e => decide (g.now ≤ e + 2 * second) | none => false
  timeStateCode t.state + 8 * b2n g.isRoot + 16 * b2n (g.onInputs && t.ppsAt.isSome && !t.ppsLost) + 32 * b2n (g.onInputs && !t.refLost) +
    64 * b2n (g.onInputs && recent) + 128 * b2n t.useAlt + 256 * min 7 g.timeDepth + 2048 * ((g.parentLink t.useAlt).getD 0)

/-- AGG_SKLINKk_STATUS but its flags. -/
def SkimLink.status (l : SkimLink) : Nat :=
  let out (x : Lane) : Bool := match x.state with | .lockout _ => true | _ => false
  portStateCode l.state + 8 * l.laneMask + 32 * (b2n (out l.lanes[0]) + 2 * b2n (out l.lanes[1]))

/-- Bytes waiting in an egress queue. -/
def ClassTx.depth (t : ClassTx) : Nat := (t.queue.map fun m => m.bytes.length).sum - t.off

/-- A register of a skim link's egress queue; the upper word of SENT is the live one. -/
def Agg.tcq (g : Agg) (k c o : Nat) : Nat :=
  let t := (g.link k).txOf c
  match o with
  | 0x00 => t.depth
  | 0x04 => min 0xFFFFFFFF (if t.queue.isEmpty then t.delayMax else max t.delayMax (g.now - t.headAt))
  | 0x08 => t.sent
  | 0x10 => (t.granted + 65536 - t.slots) % 65536 + 65536 * ((g.link k).rxOf c).held.length
  | 0x14 => t.lost
  | _ => 0

/-- DEPTH and DELAY_MAX of an analysis port's egress queue; the age of a head that still waits counts (R351). Its SENT is stored, nothing is lost,
and there is no credit. -/
def Agg.tcqAp (g : Agg) (port c o : Nat) : Nat :=
  let q := (g.egress port).of c
  match o with
  | 0x00 => q.depth
  | 0x04 => min 0xFFFFFFFF (if q.queue.isEmpty then q.delayMax else max q.delayMax (g.now - q.headAt))
  | _ => 0

/-- The largest free range of a job memory. -/
def largestFree (taken : List Area) (lo hi : Nat) : Nat :=
  let ends := lo :: taken.map fun a => a.base + a.len
  let room (b : Nat) : Nat :=
    if b < lo ∨ hi < b ∨ taken.any (fun (a : Area) => decide (a.base < b ∧ b < a.base + a.len ∧ a.len ≠ 0)) then 0
    else ((taken.filter fun a => decide (a.len ≠ 0 ∧ b ≤ a.base)).map fun a => a.base).foldl min hi - b
  (ends.map room).foldl max 0

/-- The stage of bring-up (R716). -/
def Agg.bootStage (g : Agg) : Nat :=
  let b := g.boot
  match b.core with
  | .off => 0 | .held => 0
  | .primer => if b.stopped && decide (g.fld 0xE0000 15 8 ≤ 3) then 0 else if b.image.isEmpty then 1 else 2
  | .halted => 4
  | _ =>
    if b.ready then 7
    else if b.heartbeat.isNone then 3
    else if !b.hbmDone then 4
    else if g.time.state ≠ .locked ∧ ¬ (g.time.source = 0 ∧ g.time.sched.isNone) then 5
    else 6

/-- AGG_PWR_STATE (R639 to R650). -/
def Agg.pwrStateReg (g : Agg) : Nat :=
  let u := g.pwr
  g.powerState + 16 * u.requested + 256 * u.capState + 4096 * u.thermal + 65536 * u.ceiling + 2 ^ 19 * b2n u.forced + 2 ^ 20 * b2n u.tripAt.isSome +
    2 ^ 21 * b2n u.step.isSome

/-- The registers of a doorbell page. -/
def Agg.ringReg (g : Agg) (n o : Nat) : Nat :=
  let r := g.ring n
  match o with
  | 0x4004 => r.sqHead
  | 0x4008 => r.cqHead
  | 0x400C => r.cqTail
  | 0x4014 => g.fld (ringRegion n + 0x4014) 2 0 + 256 * b2n r.faulted + 512 * b2n r.bound + 1024 * b2n r.rdma
  | 0x4018 => (g.mbx.inflight.filter fun i => i.tagged && decide (i.ring = n)).length + 65536 * (g.cqUsed n + b2n (r.bound || decide (n = 0)))
  | _ => (g.reg (ringRegion n + o)).toNat

/-- Registers that show state kept elsewhere; none where the stored word is what is read. -/
def Agg.shown (g : Agg) (off : Nat) : Option Nat :=
  let raw := (g.reg off).toNat
  let busy := (jobNumbers.map fun n => if (g.job n).state = .free then 0 else 2 ^ (n - 1)).sum
  let mask (f : Nat → Bool) (o : Nat) : Nat := portMask f / (if off = o then 1 else 2 ^ 32)
  if off = 0x1000 then some (g.timeStatus + raw)
  else if off = 0x1008 then some g.ht
  else if 0x20000 ≤ off ∧ off < 0x24000 ∧ off % 0x100 = 0 then some (portStateCode (g.port (off / 0x100 % 64)).link.state + raw)
  else if 0x20000 ≤ off ∧ off < 0x24000 ∧ off % 0x100 = 8 then some (twos 32 (g.portDelay (off / 0x100 % 64)))
  else if 0x30000 ≤ off ∧ off < 0x32000 ∧ off % 0x100 = 0 then some ((g.link (off / 0x100 % 32)).status + raw)
  else if 0x41000 ≤ off ∧ off < 0x43000 ∧ off % 0x20 ≠ 0xC then some (g.tcq ((off - 0x41000) / 0x100) (off / 0x20 % 8) (off % 0x20))
  else if 0x43000 ≤ off ∧ off < 0x43200 ∧ off % 0x20 < 8 then some (g.tcqAp ((off - 0x43000) / 0x100) (off / 0x20 % 8) (off % 0x20))
  else if 0x60100 ≤ off ∧ off < 0x60260 ∧ off % 0x100 < 0x60 then
    let k := off % 0x100 / 4
    let x : Station := if h : k < 24 then (if off < 0x60200 then g.stn.trowels[k] else g.stn.floats[k]) else {}
    some (raw % 65536 + (if k < (if off < 0x60200 then g.trowels else g.floats) then 65536 * min 65535 (g.life - x.lastPass) else 0))
  else if 0x70100 ≤ off ∧ off < 0x70140 then
    let b := (off - 0x70100) / 8
    let u := (g.bankUse[b]?).getD (0, 0)
    some (if off % 8 = 0 then u.1 + 65536 * min 65535 (sget 0 g.stencil.parity b) else u.2)
  else if 0xC0100 ≤ off ∧ off < 0xC0700 ∧ (off % 0x40 = 0x10 ∨ off % 0x40 = 0x38) then
    some (if g.fld (off - off % 0x40 + 0x14) 19 0 < 8 then 0xFFFFFFFF else raw)  -- no projection until n reaches 8 (R222)
  else if 0xC0100 ≤ off ∧ off < 0xC0700 ∧ off % 0x40 = 0x14 then
    some (raw % 2 ^ 20 + 2 ^ 31 * b2n (decide (0 < g.aggLevel (siteDomain ((off - 0xC0100) / 0x40)))))
  else if 0x20000000 ≤ off ∧ off < 0x20110000 then some (g.ringReg ((off - 0x20000000) / 0x10000) (off % 0x10000))
  else match off with
  | 0x70008 => some (g.inFlight.length + 65536 * g.stencil.inFlightMax)
  | 0x7000C => some ((g.entitiesAt g.openWindow).length + 65536 * g.entityPending)
  | 0x80018 => some (g.dustFlags g.openWindow)
  | 0x8001C => some g.watching
  | 0x90004 => some ((g.mbx.inflight.filter (·.tagged)).length + 65536 * g.mbx.sharedFree)
  | 0x90008 => some g.mbx.vnext
  | 0xA0008 => some (busy + 65536 * g.jobs.queue.length)
  | 0xA000C => some (largestFree (g.taken false) 0x40000000 g.hawkEnd / 2 ^ 20 +
      256 * (if g.hasHbm then largestFree (g.taken true) 0x1000000000 0x1800000000 / 2 ^ 30 else 0) + 65536 * (g.jobs.pastes.filter (·.staged)).length)
  | 0xB0000 => some (raw + 65536 * b2n g.ap.up0 + 131072 * b2n g.ap.up1)
  | 0xB0008 => some (g.ap.qps.length + 65536 * (g.ap.qps.filter fun q => match q.2 with | some x => x.cached | none => false).length)
  | 0xB000C => some ((g.ap.windows.filter fun w => w.2.opened).length + 65536 * g.ap.pds.length)
  | 0xB0010 => some (g.ap.parked0.length + g.ap.parked1.length + raw)
  | 0xC0004 => some g.pwrStateReg
  | 0xC0010 => some g.pwr.energy
  | 0xD0000 => some g.safeState
  | 0xD0008 => some (mask (fun p => (g.watch p).unknown) 0xD0008)
  | 0xD000C => some (mask (fun p => (g.watch p).unknown) 0xD0008)
  | 0xD0010 => some (mask g.trayUnknown 0xD0010)
  | 0xD0014 => some (mask g.trayUnknown 0xD0010)
  | 0xD0018 => some (mask (fun p => (g.watch p).watched) 0xD0018)
  | 0xD001C => some (mask (fun p => (g.watch p).watched) 0xD0018)
  | 0xD0020 => some (mask (fun p => decide ((g.watch p).alarm ≠ 0)) 0xD0020)
  | 0xD0024 => some (mask (fun p => decide ((g.watch p).alarm ≠ 0)) 0xD0020)
  | 0xD002C => some (g.si.unknownMs + 256 * twos 8 g.si.tripC)
  | 0xE0000 => some (g.bootStage + 8 * min 1 g.boot.lastSrc + raw)
  | 0xE0004 => some g.ident.fwVersion
  | _ => none

/-- The 64-bit value behind a LO half that latches. -/
def Agg.wide (g : Agg) (off : Nat) : Nat := match g.shown off with | some v => v | none => rget64 g.regs off

/-- What a read of a register returns: WO fields and offsets without a register read 0 (R12, R611). -/
def Agg.peek (g : Agg) (off : Nat) : Word :=
  match aggRow off with
  | none => 0
  | some r =>
    if latchesHi (off - 4) && decide (4 ≤ off) then g.reg (latchKey (off - 4))
    else (match g.shown off with | some v => BitVec.ofNat 32 v | none => g.reg off) &&& ~~~(BitVec.ofNat 32 r.wo)

/-- A read and its effects: the latch of R80, and the values since the last read (R480, R635). -/
def Agg.readReg (g : Agg) (off : Nat) : Agg × Word :=
  let v := g.peek off
  if latchesHi off then (g.setRegN (latchKey off) (g.wide off / 2 ^ 32), v)
  else if off = 0x70008 then (g.withStencil fun u => { u with inFlightMax := g.inFlight.length }, v)
  else if off = 0xB0010 then (g.setFld 0xB0010 23 16 (g.ap.parked0.length + g.ap.parked1.length), v)
  else if off = 0xB0014 then (g.setReg 0xB0014 0, v)
  else (g, v)

/-! ### Writes -/

/-- W1C bits that hardware sets in the very cycle of a write end that cycle set (R15). `before` is the aggregator before the write. -/
def Agg.keepSame (g before : Agg) (off : Nat) (same : Word) : Agg :=
  match aggRow off with
  | some r => g.setReg off (g.reg off ||| (before.reg off &&& same &&& w32 r.w1c))
  | none => g

/-- A register after a write of its RW and W1C fields (R12). -/
def RegRow.merge (r : RegRow) (old v : Word) : Word :=
  let rw := BitVec.ofNat 32 r.rw
  ((old &&& ~~~rw) ||| (v &&& rw)) &&& ~~~(v &&& BitVec.ofNat 32 r.w1c)

/-- AGG_PWR_CFG values that are refused (R647, R649, R650). -/
def pwrCfgBad (v : Word) : Bool := decide (wfld v 15 9 < 20 ∨ 80 < wfld v 15 9 ∨ wfld v 23 16 = 0 ∨ wfld v 31 24 = 0)

/-- A fit register of an ageing site that is enabled, which takes no write (R223, R660). -/
def Agg.fitLocked (g : Agg) (off : Nat) : Bool :=
  decide (0xC0100 ≤ off ∧ off < 0xC0700 ∧ 0x14 ≤ off % 0x40 ∧ off % 0x40 < 0x38) && g.bit (off - off % 0x40) 3

/-- The ring of a doorbell page offset. -/
def ringOf (off : Nat) : Nat := (off - 0x20000000) / 0x10000

/-- What a write triggers beside the stored fields: gates (R335), retirement (R677), rings (R522, R525, R540), a site made active
again (R220), and a fit that becomes too short for a projection (R225). -/
def Agg.triggered (g : Agg) (off : Nat) (old v : Word) : Agg :=
  if off = 0x40080 then
    let g := if wbit v 0 then g.gateCommit else g
    if wbit v 1 then g.gateCancel else g
  else if off = 0xD0028 then g.safeRetire (wfld v 5 0)
  else if 0xC0100 ≤ off ∧ off < 0xC0700 ∧ off % 0x40 = 0 then
    if wbit v 3 && !wbit old 3 then g.modAggSite ((off - 0xC0100) / 0x40) fun s => { s with fault := false, armed := true, highRun := 0 } else g
  else if 0xC0100 ≤ off ∧ off < 0xC0700 ∧ off % 0x40 = 0x14 then
    if wfld v 19 0 < 8 then g.modAggSite ((off - 0xC0100) / 0x40) fun s => { s with armed := true } else g
  else if 0x20000000 ≤ off ∧ off % 0x10000 = 0x4000 then g.sqDoorbell (ringOf off) v.toNat
  else if 0x20000000 ≤ off ∧ off % 0x10000 = 0x4008 then g.cqHeadWrite (ringOf off) v.toNat
  else if 0x20000000 ≤ off ∧ off % 0x10000 = 0x4010 then (if wbit v 0 then g.mbxRestart (ringOf off) else g)
  else g

/-- A write of one aggregator register (R12, R611). -/
def Agg.writeReg (g : Agg) (off : Nat) (v : Word) : Agg :=
  match aggRow off with
  | none => g
  | some r =>
    if (off = 0xC0008 ∧ pwrCfgBad v) ∨ g.fitLocked off ∨ (0x20000000 ≤ off ∧ g.pageShut (ringOf off)) then g
    else if 0x20000000 ≤ off ∧ off % 0x10000 = 0x4008 then g.triggered off 0 v
    else
      let old := g.reg off
      (if r.rw = 0 ∧ r.w1c = 0 then g else g.setReg off (r.merge old v)).triggered off old v

end Sys2Proof.Machine
end

