-- ==== Sys2Proof/Machine/AggReset.lean ====
section
/-!
DEFINITION. AggReset.lean: the reset values of the aggregator's registers, and the aggregator on its module before the 44 V input comes.
The variant is AKL-A40 (R9), and the integration values of its ageing sites are DESIGN CHOICE (notes/assumptions/5.md).
-/
namespace Sys2Proof.Machine

/-- AGG_CAPS of an AKL-A40 with 32 skim links (R9). -/
def aggCaps : Nat := 2 ^ 28 + 24 * 2 ^ 23 + 24 * 2 ^ 18 + 2 ^ 17 + 2 ^ 16 + 32 * 2 ^ 10 + 2 ^ 8

/-- The meter profiles after reset (R340): class, CIR, PIR, CBS, PBS, QUANTUM. -/
def resetMeters : List (Nat × Nat × Nat × Nat × Nat × Nat) :=
  [(3, 1000, 4000, 64, 256, 4096), (4, 8000, 24000, 256, 1024, 16384), (5, 4000, 24000, 256, 1024, 16384), (6, 8000, 27100, 256, 1024, 16384),
   (7, 500, 8000, 64, 256, 4096)]

/-- One aggregator ageing site: KIND and PDOM, LIMIT, GUARD, EOL_H and REMAINING_H (R218, R659). -/
def resetSite (k : Nat) : List (Nat × Nat) :=
  let b := 0xC0100 + 0x40 * k
  [(b, 1 + k % 2 + 16 * (if 16 ≤ k ∧ k ≤ 19 then 1 else 0)), (b + 4, 1000), (b + 8, 0x08000500), (b + 0x10, 0xFFFFFFFF), (b + 0x38, 0xFFFFFFFF)]

/-- Reset values of the core region's registers: gates (R334), meters, stations in service, sanding, power, ageing. -/
def coreResets : List (Nat × Nat) :=
  [(0x40000, 100 + 0x0F * 65536), (0x40004, 900 + 0xFF * 65536), (0x40040, 100 + 0x0F * 65536), (0x40044, 900 + 0xFF * 65536)] ++
  (resetMeters.flatMap fun (m : Nat × Nat × Nat × Nat × Nat × Nat) => [0x40100, 0x40180].flatMap fun b =>
    let b := b + 0x10 * m.1
    [(b, m.2.1 + 65536 * m.2.2.1), (b + 4, m.2.2.2.1 + 65536 * m.2.2.2.2.1), (b + 8, m.2.2.2.2.2)]) ++
  [(0x60000, 0xFFFFFF), (0x60004, 0xFFFFFF), (0x60020, 300 + 65536), (0xC0008, 300 + 40 * 512 + 2 * 65536 + 100 * 2 ^ 24), (0xC0030, 1 * 256 + 60 * 65536), (0xC0034, 600 + 8760 * 65536)] ++
  (List.range 24).flatMap resetSite

def putRegs (m : SMap Word) (l : List (Nat × Nat)) : SMap Word := l.foldl (fun (m : SMap Word) (p : Nat × Nat) => rsetN m p.1 p.2) m

/-- The module before its input comes: nothing runs, the loop is released, every register is at its reset value. -/
def Agg.atReset : Agg := { regs := putRegs [] ((0x10, aggCaps) :: coreResets) }

end Sys2Proof.Machine
end

