-- ==== Sys2Proof/Machine/Boot.lean ====
section
/-!
DEFINITION. Boot.lean: resets, power, the Primer, and bring-up to READY: spec/19_bringup.md, R732 to R739 of spec/20_module.md, R654 to
R656 of spec/17_power.md and R683 of spec/18_safety.md.
-/
namespace Sys2Proof.Machine

def Agg.withBoot (g : Agg) (f : BootUnit → BootUnit) : Agg := { g with boot := f g.boot }

/-- BOOT_ERR keeps the last error recorded (AGG_BOOT_STATUS). -/
def Agg.bootErr (g : Agg) (code : Nat) : Agg := g.setFld 0xE0000 15 8 code

/-! ### What a stop of the core region takes with it (R654 to R656, R683) -/

/-- Registers outside the core region: AGG_CAPS, the time base, die ports, skim links, the Safety Island, bring-up, with their latches. -/
def outsideCore (off : Nat) : Bool :=
  let o := off % 2 ^ 32
  decide (o = 0x10) || (decide (0x1000 ≤ o) && decide (o < 0x40000)) || (decide (0xD0000 ≤ o) && decide (o < 0x100000))

/-- Queued messages and received parts of a die port come from and go to the core region. -/
def DiePort.emptied (p : DiePort) : DiePort := { p with oob := false, link := { p.link with waiting := [], current := [], partRx := [], timeDue := none } }

/-- The queues of a skim link are emptied, and its receive slots are given back (R344, R655). -/
def SkimLink.emptied (l : SkimLink) : SkimLink :=
  { l with
    tx := l.tx.map fun (t : ClassTx) => { t with queue := [], off := 0, stalled := none, reported := false }
    rx := l.rx.map fun (r : ClassRx) => { r with held := [], left := [], part := [], late := false, granted := (r.granted + (r.held.filter (!·.shared)).length) % 65536 }
    timeDue := [], green := {}, yellow := {} }

/-- The core region stops and loses its contents (R654, R656, R683). The link region, the Safety Island, the time base, the event log, the
regulator alarm (R653) and AGG_ENERGY stay; a LOCKED time base goes to HOLDOVER. HT_PPS goes unseen from here: the next edge seen ends a loss (R43). -/
def Agg.coreLost (g : Agg) : Agg :=
  let g := if g.time.state = .locked then g.enterHoldover else g
  let g := g.withTime fun t => { t with ppsLost := true }
  { g with
    regs := putRegs (g.regs.filter fun p => outsideCore p.1) coreResets
    mem := []
    ident := { g.ident with fwVersion := 0, fwDigest := 0 }
    ports := g.ports.map DiePort.emptied
    links := g.links.map SkimLink.emptied
    gates := {}, mbx := {}, acc := {}, ap := { up0 := g.ap.up0, up1 := g.ap.up1 }, jobs := {}, skim := {}
    codec := Vector.replicate 16 {}, cvu := Vector.replicate 16 {}, ingest := {}, stn := {}, stencil := {}
    scores := Vector.replicate 16 {}, verdicts := {}, pair := {}, chip := [], chipShown := []
    pwr := { energy := g.pwr.energy, energyRem := g.pwr.energyRem, forced := g.pwr.forced, cur := if g.pwr.forced then 7 else 0 }
    boot := { core := g.boot.core, inputOn := g.boot.inputOn, linkOn := g.boot.linkOn, rstSeen := g.boot.rstSeen, bootSrc := g.boot.bootSrc, resetAt := g.boot.resetAt } }

/-- The core region stops and stands in another state. -/
def Agg.stopCore (g : Agg) (st : CoreState) : Agg := g.coreLost.withBoot fun b => { b with core := st }

/-! ### The EEPROM (R706, R707, R738, R739) -/

/-- A block of the EEPROM passes its CRC-32C. -/
def blockGood (e : SMap Byte) (base len : Nat) : Bool := crcGood crc32c (mread e base len)

/-- The management block: CRC, peers in use, manager count and quorum (R706, R707). -/
def managementGood (e : SMap Byte) : Bool :=
  let peers := mreadNat e 0x100 1
  let count := mreadNat e 0x1C4 1
  let quorum := mreadNat e 0x1C5 1
  blockGood e 0x100 512 && decide (1 ≤ peers) && decide (peers ≤ 8) && decide (3 ≤ count) && decide (count ≤ 7) && decide (1 ≤ quorum) &&
    decide (quorum ≤ count)

/-- Header, identity, management and image blocks (R707). -/
def eepromGood (e : SMap Byte) : Bool :=
  blockGood e 0 64 && decide (mreadNat e 0 1 = 0xA9) && decide (mreadNat e 1 1 = 1) && decide (8 ≤ mreadNat e 2 2) && blockGood e 0x40 192 && managementGood e && blockGood e 0x300 64

/-- The tray's management controller writes the EEPROM while it may (R739). -/
def Agg.program (g : Agg) (prog : List (Nat × List Byte)) : Agg := { g with eeprom := prog.foldl (fun (m : SMap Byte) (w : Nat × List Byte) => mwrite m w.1 w.2) g.eeprom }

/-- Ring-0 peers in use (R706). -/
def Agg.peersOf (g : Agg) : List Peer :=
  (List.range (min 8 (mreadNat g.eeprom 0x100 1))).map fun i => { addr := mreadNat g.eeprom (0x104 + 20 * i) 16, port := mreadNat g.eeprom (0x114 + 20 * i) 2 }

/-- The ring key (R706). -/
def Agg.ringKey (g : Agg) : List Byte := mread g.eeprom 0x1A4 32

/-! ### The Primer (R702, R707, R710 to R715) -/

/-- The Primer starts (R700, R702, R707). -/
def Agg.startPrimer (g : Agg) : Agg :=
  let g := g.withBoot fun b => { b with core := .primer }
  let g := if g.boot.bootSrc = 3 then g.bootErr 3 else g
  if !eepromGood g.eeprom then (g.bootErr 1).withBoot fun b => { b with stopped := true }
  else if 2047 < g.ident.trayId then (g.bootErr 2).withBoot fun b => { b with stopped := true }
  else g

/-- The core region starts again from the Primer, or enters the coolant stop (R656, R700). -/
def Agg.restart (g : Agg) (coolant : Bool) : Agg :=
  if coolant then (g.withBoot fun b => { b with core := .coolant }).withSi fun u => { u with coolSeen := true } else g.startPrimer

/-- Image sources of BOOT_SRC in order: 0 management network, 1 partner (R701, R702). -/
def imageSources (bootSrc : Nat) : List Nat := if bootSrc = 0 then [0] else if bootSrc = 1 then [1, 0] else [0, 1]

/-- The TFTP read request of R710 with its two options. -/
def Agg.tftpRequest (g : Agg) : List Byte :=
  let text (s : String) : List Byte := (s.toList.map fun c => BitVec.ofNat 8 c.toNat) ++ zeros 1
  let name := (mread g.eeprom 0x9E 64).takeWhile fun b => decide (b ≠ 0)
  [0, 1] ++ name ++ zeros 1 ++ text "octet" ++ text "blksize" ++ text "1428" ++ text "windowsize" ++ text "16"

/-- The Primer waits for its next source. -/
def Agg.mayFetch (g : Agg) : Bool := decide (g.boot.core = .primer) && !g.boot.stopped && !g.boot.fetching && g.boot.waitEnd.isNone

/-- PRIMER_FETCH (R710). -/
def Agg.primerFetch (g : Agg) : Agg :=
  if !g.mayFetch then g
  else
    let src := ((imageSources g.boot.bootSrc)[g.boot.tried]?).getD 0
    let g := g.withBoot fun b => { b with fetching := true, progressAt := g.now, lastSrc := src }
    if src = 0 then g.send (.datagram (mreadNat g.eeprom 0x8C 16) (mreadNat g.eeprom 0x9C 2) g.tftpRequest)
    else g.toPartner { kind := .imageReq }

/-- A source fails: the next one, or the wait between passes (R711). -/
def Agg.sourceFail (g : Agg) : Agg :=
  let g := (g.withBoot fun b => { b with fetching := false, tried := b.tried + 1 }).flag (bootFlag 16)
  if g.boot.tried < (imageSources g.boot.bootSrc).length then g
  else g.withBoot fun b => { b with tried := 0, passes := b.passes + 1, waitEnd := some (g.now + min (30 * second) (second * 2 ^ min 10 b.passes)) }

/-- PRIMER_SOURCE_TIMEOUT (R711). -/
def Agg.sourceTimeout (g : Agg) : Agg :=
  if g.boot.core = .primer ∧ g.boot.fetching ∧ g.boot.progressAt + 100000000 ≤ g.now then g.sourceFail else g

/-- PRIMER_PASS_WAIT_END (R711). -/
def Agg.passWaitEnd (g : Agg) : Agg :=
  match g.boot.waitEnd with
  | some t => if t ≤ g.now then g.withBoot fun b => { b with waitEnd := none } else g
  | none => g

/-- The first check of R713 that an image fails, by its BOOT_ERR. -/
def Agg.imageError (g : Agg) (m : List Byte) : Option Nat :=
  let body := leAt m 8 4
  if m.length < 64 ∨ leAt m 0 1 ≠ 0xF7 ∨ leAt m 1 1 ≠ 1 ∨ 64 + body ≠ m.length ∨ 48 * 2 ^ 20 < body then some 5
  else if hmacSha256 (mread g.eeprom 0x300 32) (m.take 32 ++ m.drop 64) ≠ bytesAt m 32 32 then some 5
  else if leAt m 2 1 ≠ g.fld 0x10 31 28 then some 6
  else if leAt m 4 4 < mreadNat g.eeprom 0x320 4 then some 7
  else none

/-- An ageing site is enabled once its sums are restored (R660). -/
def Agg.enableSites (g : Agg) : Agg := (List.range 24).foldl (fun (g : Agg) k => g.setBit (aggSiteBase k) 3 true) g

/-- The firmware starts from a verified image (R708, R716): ring 0 has its peers, and the life values are loaded. -/
def Agg.startFirmware (g : Agg) (m : List Byte) (session : Nat) : Agg :=
  let g := g.withBoot fun b => { b with core := .fw, fetching := false, image := m }
  let g := { g with ident := { g.ident with fwVersion := leAt m 4 4, fwDigest := crcOf crc64ecma m }, mbx := { g.mbx with session := session % 2 ^ 32 } }
  let ps := g.peersOf
  let key := g.ringKey
  let g := g.modRing 0 fun r => { r with key := key, peers := ps }
  g.loadLife.enableSites

/-- PRIMER_IMAGE_CHECK (R711, R713): the image that a source delivered; none where it refused or answered NONE. -/
def Agg.imageCheck (g : Agg) (m : Option (List Byte)) (free : Nat → Nat) : Agg :=
  if g.boot.core ≠ .primer ∨ !g.boot.fetching then g
  else match m with
    | none => g.sourceFail
    | some m =>
      match g.imageError m with
      | some e => ((g.bootErr e).flag (bootFlag 17)).sourceFail
      | none => (g.setFld 0xE0000 4 3 g.boot.lastSrc).startFirmware m (free 0)

/-- IMAGE_REQ_RECEIVE (R710): the running image, or NONE. -/
def Agg.imageRequest (g : Agg) : Agg :=
  if g.fwRuns then g.toPartner { kind := .image, bytes := g.boot.image }
  else if g.boot.core = .primer then g.toPartner { kind := .imageNone }
  else g

/-- A boot-status datagram (R715). -/
def Agg.bootStatus (g : Agg) : List Byte :=
  let head := [0x3F, 1] ++ leBytes 1 g.bootStage ++ leBytes 1 (g.fld 0xE0000 15 8) ++ leBytes 2 g.ident.trayId ++ leBytes 1 g.ident.role ++
    leBytes 1 g.boot.lastSrc ++ leBytes 2 g.boot.passes ++ zeros 6
  head ++ (hmacSha256 g.ringKey head).take 16

/-- BOOT_STATUS_SEND (R715). -/
def Agg.bootStatusSend (g : Agg) : Agg :=
  let due := match g.boot.statusAt with | some t => decide (t + second ≤ g.now) | none => true
  if g.boot.core ≠ .primer || !due || !managementGood g.eeprom then g
  else
    let m := g.bootStatus
    (g.peersOf.foldl (fun (g : Agg) p => g.send (.datagram p.addr 7303 m)) g).withBoot fun b => { b with statusAt := some g.now }

/-! ### Resets and power (R700, R703, R732 to R737) -/

/-- The straps are sampled (R701). -/
def Agg.sampleStraps (g : Agg) (x : Straps) : Agg :=
  let g := { g with ident := { g.ident with trayId := x.trayId.toNat, role := x.role.val, paired := x.paired, safeMode := x.safeMode } }
  (g.setBit 0x10 9 x.paired).withBoot fun b => { b with bootSrc := x.bootSrc.toNat }

/-- The unpowered module: what its EEPROM holds, and what had left it (R736). -/
def Agg.unpowered (g : Agg) : Agg :=
  { Agg.atReset with eeprom := g.eeprom, outbox := g.outbox, time := { elapsed := g.time.elapsed } }

/-- Step 3 of R703: the safety block is copied when it is good. -/
def Agg.loadSafety (g : Agg) : Agg :=
  let e := g.eeprom
  g.withSi fun u => { u with enables := (mread e 0x400 64).map (·.toNat), unknownMs := mreadNat e 0x440 1, tripC := signedOf 8 (mreadNat e 0x441 1) }

/-- MODULE_POWER_ON (R703, R704, R671): the Safety Island's ROM check, its switch test, and the core rails and PLLs. -/
def Agg.powerOn (g : Agg) (x : Straps) (coolant rom switches rails : Bool) (prog : List (Nat × List Byte)) : Agg :=
  if g.powered then g
  else
    let g := (g.program prog).unpowered.withBoot fun b => { b with core := .held, inputOn := true }
    if !rom then g
    else
      let safety := blockGood g.eeprom 0x400 128
      let g := if safety then g.loadSafety else g.withSi fun u => { u with cause := 5 }
      if safety && !switches then g.withSi fun u => { u with cause := 6 }
      else
        let g := if safety then g.withSi fun u => { u with energised := true } else g
        if rails then ((g.sampleStraps x).withBoot fun b => { b with linkOn := true }).restart coolant else g

/-- The reset of the core and link regions (R700): the Safety Island keeps the loop, and its watch set begins anew (R675). -/
def Agg.moduleResetNow (g : Agg) (x : Straps) (coolant : Bool) : Agg :=
  let g := g.coreLost
  let g := { g with
    regs := g.regs.filter fun p => !(decide (0x1000 ≤ p.1 % 2 ^ 32) && decide (p.1 % 2 ^ 32 < 0x40000)) && !(decide (0xE0000 ≤ p.1) && decide (p.1 < 0xE1000))
    ports := Vector.replicate 64 {}, links := Vector.replicate 32 {}, bundle := {}, time := { elapsed := g.time.elapsed }, elog := {}
    si := { g.si with ports := Vector.replicate 64 {}, pUnknown := 0, pAlarm := 0, pWatch := 0, pSiOk := false }
    boot := { inputOn := true, linkOn := true } }
  (g.sampleStraps x).restart coolant

/-- MODULE_RESET (R700, R737): in a power fail it takes effect at the return of the input. A module whose power-on sequence has failed before
the release of its reset (R703) stays where it is. -/
def Agg.moduleReset (g : Agg) (x : Straps) (coolant : Bool) (prog : List (Nat × List Byte)) : Agg :=
  if !g.powered ∨ !g.boot.linkOn then g.program prog
  else if !g.boot.inputOn then (g.program prog).withBoot fun b => { b with rstSeen := true }
  else (g.program prog).moduleResetNow x coolant

/-- COOLANT_STOP (R654). -/
def Agg.coolantStop (g : Agg) : Agg :=
  if !g.powered then g
  else
    let g := g.withSi fun u => { u with coolSeen := true }
    if g.boot.core = .coolant then g else g.stopCore .coolant

/-- POWER_FAIL (R733): a coolant stop stays one (R737), and a core that is kept in reset stays so. -/
def Agg.powerFail (g : Agg) : Agg :=
  if !g.powered ∨ !g.boot.inputOn then g
  else
    let g := g.bootErr 9
    let g := if g.boot.core = .coolant ∨ g.boot.core = .held then g else g.stopCore .holdUp
    g.withBoot fun b => { b with inputOn := false }

/-- POWER_RETURN (R735, R737): the straps count where MODULE_RST_N was asserted meanwhile. -/
def Agg.powerReturn (g : Agg) (x : Straps) (coolant : Bool) : Agg :=
  if !g.powered ∨ g.boot.inputOn then g
  else
    let g' := g.withBoot fun b => { b with inputOn := true, rstSeen := false }
    if g.boot.rstSeen then g'.moduleResetNow x coolant
    else if g.boot.core = .holdUp then g'.restart coolant
    else g'

/-- HOLDUP_EXHAUSTED (R736): every rail falls, and the loop releases. -/
def Agg.holdupEnd (g : Agg) : Agg := if g.powered && !g.boot.inputOn then g.unpowered else g

/-- INPUT_OVERCURRENT (R732): the hot-swap stage latches off. -/
def Agg.overcurrent (g : Agg) : Agg := if g.powered then g.unpowered else g

/-! ### READY (R716 to R718) -/

/-- Stage 5 is complete (R716). -/
def Agg.timeReady (g : Agg) : Bool := decide (g.time.state = .locked) || (decide (g.time.source = 0) && g.time.sched.isNone)

/-- Ports in UP whose check has neither passed nor failed (R754). -/
def Agg.unchecked (g : Agg) : List Nat := (List.range 64).filter fun p => g.portUp p && !g.boot.checked.contains p

/-- READY is reached when training of the HBM, time and discovery are complete (R716). -/
def Agg.latchReady (g : Agg) : Agg :=
  if g.linksLive && !g.boot.ready && (g.boot.hbmDone || !g.hasHbm) && g.timeReady && g.unchecked.isEmpty then
    g.withBoot fun b => { b with ready := true }
  else g

/-- A parent that has been reset sends LEAVE (R387), as soon as its link region carries messages again. It no longer knows its children, so LEAVE
goes out on every skim link in UP but its partner's, with round 0 (DESIGN CHOICE, notes/assumptions/131.md). -/
def Agg.leaveAfterReset (g : Agg) : Agg :=
  ((List.range 32).filter fun k => decide ((g.link k).state = .up) && !g.isPartner k).foldl (fun g k => g.treeMsg k .leave [0]) g

/-- CP_HEARTBEAT (R683, R705): the first one starts the watch; one after a stall lets the completions that waited be written (R519). A time base in FREE_RUN is LOCKED again (R83). -/
def Agg.cpHeartbeat (g : Agg) : Agg :=
  if g.boot.core = .fw ∨ g.boot.core = .halted then
    let g := if g.boot.heartbeat.isNone && g.fwRuns then g.leaveAfterReset else g
    ((g.relockFreeRun.withBoot fun b => { b with heartbeat := some g.now, hbmDone := b.hbmDone || !g.hasHbm }).latchReady).writeHeld
  else g

/-- The second loss within 10 minutes of the first core reset (R683). -/
def Agg.secondReset (g : Agg) : Bool := match g.boot.resetAt with | some t => decide (g.now ≤ t + 600 * second) | none => false

/-- CORE_RESET (R683). -/
def Agg.coreReset (g : Agg) : Agg :=
  let lost := match g.boot.heartbeat with | some t => decide (t + 10000000 ≤ g.now) | none => false
  if !lost || !(g.boot.core = .fw || g.boot.core = .halted) then g
  else
    let second := g.secondReset
    let g := (g.flag (asafeFlag 5)).event 0x25 3 (if second then 2 else 1) (zeros 8)
    if second then (g.stopCore .held).withBoot fun b => { b with resetAt := none }
    else ((g.stopCore .primer).withBoot fun b => { b with resetAt := some g.now }).startPrimer

/-- HBM_TRAINING_DONE (R716, R717). -/
def Agg.hbmTrained (g : Agg) (ok : Bool) : Agg :=
  if !g.linksLive || !g.hasHbm || g.boot.hbmDone then g
  else if ok then (g.withBoot fun b => { b with hbmDone := true }).latchReady
  else
    let g := (g.withBoot fun b => { b with hbmFails := b.hbmFails + 1 }).flag (bootFlag 18)
    if 3 ≤ g.boot.hbmFails then (g.bootErr 8).withBoot fun b => { b with core := .halted } else g

/-! ### ATU discovery (R719, R720, R754) -/

/-- The four reads of R719. -/
def discoveryReads : List RegOp := [rd 0x0000, rd 0x0004, rd 0x0008, rd 0x000C]

def Agg.discovering (g : Agg) (p : Nat) : Bool := g.acc.jobs.any fun j => decide (j.port = p) && decide (j.use = .discovery)

/-- The firmware makes the four reads. -/
def Agg.startDiscovery (g : Agg) (p : Nat) : Agg := g.startReg fwRing 0 0x21 p .discovery discoveryReads

/-- ATU_DISCOVERY (R719). -/
def Agg.discover (g : Agg) (p : Nat) : Agg :=
  if g.linksLive && g.portUp p && !g.boot.checked.contains p && !g.discovering p && !g.boot.attempts.any (·.1 = p) then g.startDiscovery p else g

/-- DISCOVERY_RETRY (R754): 1 ms after an attempt that timed out. -/
def Agg.discoveryRetry (g : Agg) (p : Nat) : Agg :=
  if g.linksLive && g.portUp p && !g.discovering p && g.boot.attempts.any fun a => decide (a.1 = p ∧ a.2.2 + 1000000 ≤ g.now) then g.startDiscovery p else g

/-- The checks of R719 on the four words. -/
def Agg.dieFits (g : Agg) (p : Nat) (j : RegJob) : Bool :=
  let id := j.word 0
  let die := j.word 2
  decide (bitField id 31 16 = 0x0A7C) && decide (bitField id 15 8 = 1) && (decide (bitField (j.word 1) 31 28 = 1) || decide (bitField (j.word 1) 31 28 = 2)) &&
    decide (bitField die 31 24 = mreadNat g.eeprom 0x40 1) && decide (bitField die 23 12 = g.ident.trayId) && decide (bitField die 11 6 = p) &&
    decide (bitField die 5 0 = 0)

/-- A die's check ends (R719): its bit of AGG_DIE_CHECK, and a record whose type and contents the spec leaves open when it failed. -/
def Agg.dieChecked (g : Agg) (p : Nat) (pass : Bool) (free : Nat → Nat) : Agg :=
  let g := g.withBoot fun b => { b with checked := p :: b.checked, passed := if pass then p :: b.passed else b.passed, attempts := b.attempts.filter (·.1 ≠ p) }
  let g := g.setBit (0xE0008 + 4 * (p / 32 % 2)) (p % 32) (!pass)
  let g := if pass then g else (g.flag (bootFlag 19)).event (free 0 % 256) (free 1 % 16) (free 2 % 65536) (leBytes 8 (free 3))
  g.latchReady

/-- The reads of a discovery end (R719, R754). -/
def Agg.discoveryDone (g : Agg) (j : RegJob) (st : Status) (free : Nat → Nat) : Agg :=
  let p := j.port
  let n := ((g.boot.attempts.find? (·.1 = p)).map (·.2.1)).getD 0 + 1
  if st = .aborted then g
  else if st = .timeout ∧ n < 3 then g.withBoot fun b => { b with attempts := (p, n, g.now) :: b.attempts.filter (·.1 ≠ p) }
  else g.dieChecked p (decide (st = .ok) && g.dieFits p j) free

/-- A port leaves UP: its die is checked again when it is back (R754). -/
def Agg.forgetDie (g : Agg) (p : Nat) : Agg :=
  g.withBoot fun b => { b with checked := b.checked.filter (· ≠ p), passed := b.passed.filter (· ≠ p), attempts := b.attempts.filter (·.1 ≠ p) }

end Sys2Proof.Machine
end

