-- ==== Sys2Proof/Machine/AggPorts.lean ====
section
/-!
DEFINITION. AggPorts.lean: the aggregator's ends of the die ports: R293 to R310 of spec/08_links.md, with what waits for a port.
-/
namespace Sys2Proof.Machine

/-! ### What a register access ends (R295, R306, R556, R558) -/

/-- The sequence of accesses of a command or of the firmware ends. -/
def Agg.regFinish (g : Agg) (j : RegJob) (st : Status) (free : Nat → Nat) : Agg :=
  match j.use with
  | .discovery => g.discoveryDone j st free
  | .ownerCheck _ => g.jobRegDone j st
  | .commit _ => g.jobRegDone j st
  | .teardown _ _ _ _ => g.jobRegDone j st
  | _ => g.regDone j st

def Agg.finishAll (g : Agg) (x : Option (RegJob × Status)) (free : Nat → Nat) : Agg :=
  match x with | some e => g.regFinish e.1 e.2 free | none => g

/-- REGISTER_RESPONSE: a KIND 4 message on a port in UP (R295, R556). -/
def Agg.responseIn (g : Agg) (p : Nat) (m : List Byte) (free : Nat → Nat) : Agg :=
  if !g.linksLive || !g.portUp p || decide (m.length ≠ 12) then g
  else
    let r := g.regAnswer p m
    r.1.finishAll r.2 free

/-- ATU_ACCESS_TIMEOUT (R558): the access on a port whose request carries this TAG. -/
def Agg.accessTimeout (g : Agg) (p tag : Nat) (free : Nat → Nat) : Agg :=
  let r := g.regTimeout p tag
  r.1.finishAll r.2 free

/-! ### UP and DOWN (R304 to R307) -/

/-- A port leaves UP, or an attempt ends (R305, R306): what waits on it completes with ABORTED. -/
def Agg.dieDown (g : Agg) (p : Nat) (free : Nat → Nat) : Agg :=
  let was := g.portUp p
  let g := g.modPort p fun q => { q with link := q.link.goDown g.now }
  if !was then g
  else
    let r := (g.flag (dportFlag p 8)).regDown p
    let g := r.2.foldl (fun (g : Agg) e => g.regFinish e.1 e.2 free) r.1
    ((g.resetPortDown p).forgetDie p).latchReady

/-- A port enters UP (R304, R675, R586, R269). -/
def Agg.dieUp (g : Agg) (p : Nat) : Agg :=
  let g := (g.modPort p fun q => { q with link := q.link.goUp g.now }).inc (dportBase p + 0x14) 1
  let g := g.siPortUp p
  if g.fwRuns then (g.resetPortUp p).jobPortUp p else g

/-- The codec references of port `p`, own and those kept for BACK frames, are dropped (R307). -/
def IngestUnit.forgetPort (u : IngestUnit) (p : Nat) : IngestUnit :=
  { u with refs := u.refs.filter fun r => decide (r.1 / 8 ≠ p)
           backRefs := u.backRefs.filter fun r => decide (r.1 / 8 ≠ p) }

/-- PORT_IDENTITY (R304 step 3, R307): ATU_CAPS, ATU_ID and ATU_DIE_ID arrive in training. -/
def Agg.portIdentity (g : Agg) (p : Nat) (caps ident die : Word) : Agg :=
  let q := g.port p
  if q.link.state ≠ .train ∨ !q.link.training.idleGood then g
  else
    let changed := q.learned && decide (g.reg (dportBase p + 0x04) ≠ die)
    let g := if changed then
        (g.flag (dportFlag p 12)).withIngest (·.forgetPort p)
      else g
    (g.setReg (dportBase p + 0x04) die).modPort p fun q =>
      { q with caps := caps, atuId := ident, learned := true,
               link := { q.link with state := .calibrate, training := { q.link.training with loops := 0, loopMin := 0 } } }

/-- LOOPBACK_MEASURE (R58, R301): a round trip in ps, taken at 0.25 ns; the smallest of 64 gives the delay, and the port enters UP. -/
def Agg.loopMeasure (g : Agg) (p rtt : Nat) : Agg :=
  let q := g.port p
  if q.link.state ≠ .calibrate then g
  else
    let r := rtt / 250 * 250
    let least := if q.link.training.loops = 0 then r else min r q.link.training.loopMin
    let n := q.link.training.loops + 1
    let g := g.modPort p fun q => { q with link := { q.link with training := { q.link.training with loops := n, loopMin := least } } }
    if n < 64 then g else (g.setRegN (dportBase p + 0x08) ((least - 33000) / 2)).dieUp p

/-! ### Sending (R294, R299, R301, R308) -/

/-- The reset sequence as it goes on the lane: the 64 blocks' contents (R308). -/
def resetSequence : List Byte := (List.replicate 64 resetBlock.bytes).flatten

/-- The reset sequence is driven in place of flits (R308): 64 scrambled control blocks. -/
def PortEnd.driveReset (p : PortEnd) : PortEnd :=
  let x := scramble p.scram resetSequence
  { p with lastTx := some resetSequence, lane := .reset, line := lineBlocks resetBlock.sync 64 x.1, scram := x.2 }

/-- The request whose flit has just left, by its TAG (R558). -/
def PortEnd.lastRequest (p : PortEnd) : Option Nat :=
  match p.retry.held.getLast? with
  | some h => if h.kind = 3 then some (leAt h.payload 0 2) else none
  | none => none

/-- A flit boundary of an aggregator port: the reset sequence, TIME, replay and DATA, IDLE; in training the pattern and IDLE flits (R304), in CALIBRATE
LOOPBACK with free contents. -/
def Agg.dieSend (g : Agg) (p : Nat) (fb : Nat → Byte) : Agg :=
  let q := g.port p
  if q.oob then g.modPort p fun q => { q with oob := false, link := q.link.driveReset }
  else if q.link.state = .calibrate then
    g.modPort p fun q => { q with link := q.link.drive (dieFlit 4 0 0 q.link.retry.ackField 116 ((List.range 116).map fb)) }
  else if q.link.state = .train then
    g.modPort p fun q => { q with link := if q.link.training.blockLock then q.link.sendIdle else { q.link with lane := .pattern, lastTx := none, line := [] } }
  else if q.link.state ≠ .up then g
  else match q.link.timeDue with
    | some _ =>
      let w := g.beatWord p q.link.beatSeq
      g.modPort p fun q =>
        { q with link := { q.link with timeDue := none, beatSeq := (q.link.beatSeq + 1) % 65536 }.drive (dieFlit 2 0 0 q.link.retry.ackField 48 w) }
    | none =>
      let r := q.link.sendNext g.now [3]
      let g := (g.modPort p fun q => { q with link := r.1 }).inc (dportBase p + 0x10) r.2.2
      if r.2.1 = 0 then g else match r.1.lastRequest with | some tag => g.stampReg p tag | none => g

/-! ### Receiving (R296, R303) -/

/-- A trace chunk arrives (R205, R216): stored for every job with an HBM area that has the die; without an HBM stack it is discarded. Either way
it is counted. -/
def Agg.chunkIn (g : Agg) (p : Nat) (m : List Byte) : Agg :=
  if !g.fwRuns || decide (m.length ≠ 64) then g
  else
    let src := leAt m 1 1
    let seq := leAt m 2 2
    let next := sget 0 (g.port p).lastChunk src
    let gap := decide (next ≠ 0 ∧ seq ≠ next % 65536 ∧ seq ≠ 0)
    let homes := jobNumbers.filterMap fun n =>
      if (g.job n).hbm.len = 0 then none else ((g.job n).dies.find? fun d => decide (d.port = p)).bind fun d => d.pos.map fun t => (n, t)
    let count := !homes.isEmpty || !g.hasHbm
    let g := g.modPort p fun q =>
      { q with chunks := q.chunks + b2n count, gaps := q.gaps + b2n gap, lastChunk := sset 0 q.lastChunk src (seq + 1) }
    homes.foldl (fun (g : Agg) h => g.storeChunk h.1 h.2 m) g

/-- A whole message from an ATU (R294). Before the firmware's first heartbeat its contents are discarded (R705). -/
def Agg.messageIn (g : Agg) (p kind : Nat) (m : List Byte) (cfg : Option ChanCfg) (free : Nat → Nat) : Agg :=
  if !g.linksLive then g
  else match kind with
    | 0 => g.frameIn p false m cfg
    | 1 => g.frameIn p true m cfg
    | 2 => g.chunkIn p m
    | 4 => g.responseIn p m free
    | _ => g

/-- DIE_PORT_FLIT_RECEIVE at the aggregator's end (R296 to R303). -/
def Agg.dieReceive (g : Agg) (p : Nat) (f : List Byte) (cfg : Option ChanCfg) (free : Nat → Nat) : Agg :=
  if (g.port p).link.state = .down then g
  else
    let r := (g.port p).link.receive g.now f
    let g := g.modPort p fun q => { q with link := r.port }
    let g := if r.crcErr then (g.inc (dportBase p + 0x0C) 1).flag (dportFlag p 9) else g
    let g := if r.taken then g.inc (dportBase p + 0x1C) 1 else g
    if r.limit then (g.flag (dportFlag p 10)).dieDown p free
    else
      let g := match r.msg with | some x => g.messageIn p x.1 x.2 cfg free | none => g
      match r.side with
      | some (3, w) => g.safetyIn p (w.take 16)
      | _ => g

/-- FRAME_RECEIVE on its own row: the port is in UP, and the firmware takes what its messages say (R705). -/
def Agg.frameMsg (g : Agg) (p : Nat) (resent : Bool) (f : List Byte) (cfg : Option ChanCfg) : Agg :=
  if g.linksLive && g.portUp p then g.frameIn p resent f cfg else g

/-! ### Timers and training (R297, R304, R305) -/

/-- RETRY_TIMEOUT (R297, R298). -/
def Agg.dieRetry (g : Agg) (p : Nat) (free : Nat → Nat) : Agg :=
  let q := (g.port p).link
  if q.state ≠ .up || !q.retry.timedOut g.now then g
  else match q.retry.startReplay g.now with
    | some r => g.modPort p fun x => { x with link := { x.link with retry := r } }
    | none => (g.flag (dportFlag p 10)).dieDown p free

/-- LINK_IDLE_TIMEOUT (R305). -/
def Agg.dieIdle (g : Agg) (p : Nat) (free : Nat → Nat) : Agg :=
  if g.portUp p && decide ((g.port p).link.lastGood + 2000 ≤ g.now) then g.dieDown p free else g

/-- BLOCK_LOCK_LOSS (R305). -/
def Agg.dieLockLoss (g : Agg) (p : Nat) (free : Nat → Nat) : Agg :=
  if g.portUp p then g.dieDown p free
  else g.modPort p fun q => { q with link := { q.link with training := { q.link.training with blockLock := false, idleGood := false, idleRun := 0 } } }

/-- TRAINING_START: the link region trains by itself once it is out of reset (R304, R705). -/
def Agg.dieTrain (g : Agg) (p : Nat) : Agg := if g.boot.linkOn then g.modPort p fun q => { q with link := q.link.trainStart g.now } else g
def Agg.dieLock (g : Agg) (p : Nat) : Agg := g.modPort p fun q => { q with link := q.link.lock }
def Agg.dieTrainFail (g : Agg) (p : Nat) : Agg := g.modPort p fun q => { q with link := q.link.trainFail g.now 2000000 }
def Agg.dieWaitEnd (g : Agg) (p : Nat) : Agg := g.modPort p fun q => { q with link := q.link.waitEnd g.now }

end Sys2Proof.Machine
end

