-- ==== Sys2Proof/Machine/Pair.lean ====
section
/-!
DEFINITION. Pair.lean: the partner watch, checkpoints, and the insertion of a spare module: R685 to R694 of spec/18_safety.md.
-/
namespace Sys2Proof.Machine

def Agg.withPair (g : Agg) (f : PairUnit → PairUnit) : Agg := { g with pair := f g.pair }

/-! ### Keepalives and loss (R685, R686, R691) -/

/-- PAIR_KEEPALIVE_SEND: every millisecond while the firmware runs. The spec gives the 16 bytes no contents. -/
def Agg.keepaliveSend (g : Agg) (free : Nat → Byte) : Agg :=
  if !g.linksLive || !g.paired || decide (g.now < g.pair.sentAt + 1000000) then g
  else (g.toPartnerMsg { bytes := (List.range 16).map free, ctl := some { kind := .keepalive }, queuedAt := g.now }).withPair fun u => { u with sentAt := g.now }

/-- PAIR_KEEPALIVE_RECEIVE. -/
def Agg.keepaliveReceive (g : Agg) : Agg := if !g.fwRuns then g else g.withPair fun u => { u with keptAt := g.now, lost := false }

/-- The commit of one context, taken over. -/
def Agg.takeOverJob (g : Agg) (n : Nat) : Agg :=
  let j := g.job n
  match j.committer with
  | some w =>
    if j.openWrites ≠ 0 ∨ g.ident.role = 0 then g
    else
      let up := (j.dies.map (·.port)).filter fun p => g.portUp p && !g.stillTorn n p
      let delayed := (j.dies.map (·.port)).filter (g.stillTorn n)
      let g := g.modJob n fun j => { j with openWrites := up.length + delayed.length, delayed := delayed,
                                            absent := (j.dies.map (·.port)).filter fun p => !g.portUp p && !g.stillTorn n p }
      let g := up.foldl (fun g p => g.commitPort n p j.committing w) g
      if up.isEmpty && delayed.isEmpty then g.endCommit n else g
  | none => g

/-- The survivor of PAIR_ROLE 1 makes the ATU writes of a commit that waits for its partner (R587, R686). -/
def Agg.takeOver (g : Agg) : Agg := jobNumbers.foldl Agg.takeOverJob g

/-- The link to this module's keeper (R688): the primary parent, or for a root the lowest-numbered child link. -/
def Agg.keeperLink (g : Agg) : Option Nat :=
  g.skim.cfg.bind fun c => if c.root then (List.range 32).find? fun k => c.childMask.testBit k else c.primary

/-- Contexts in use. -/
def Agg.usedJobs (g : Agg) : List Nat := jobNumbers.filter fun n => decide ((g.job n).state ≠ .free)

/-- The requests to the keeper have their answer, or are given up (R355). -/
def Agg.endAsk (g : Agg) : Agg := (g.pair.asked.foldl Agg.answered g).withPair fun u => { u with asked := [] }

/-- A sync ends without success. -/
def Agg.failSync (g : Agg) (st : Status) : Agg :=
  let g := g.endAsk
  let w := g.pair.starter
  let g := g.withPair fun u => { u with sync := 0, starter := none }
  match w with | some w => g.complete w 0x7E st [] | none => g

/-- Where the fetch of a checkpoint goes. A module that holds no tree knows no parent: it asks on every skim link in UP but those to its
partner, and the keeper is the one that answers (DESIGN CHOICE, notes/assumptions/130.md). -/
def Agg.fetchLinks (g : Agg) : List Nat :=
  match g.keeperLink with
  | some k => [k]
  | none => if g.skim.cfg.isSome then [] else (List.range 32).filter fun k => decide ((g.link k).state = .up) && !g.isPartner k

/-- Ask the keeper for the newest checkpoint of this tray (R688, R692). With nobody to ask there is none. -/
def Agg.askKeeper (g : Agg) : Agg :=
  if g.fetchLinks.isEmpty then g.failSync .timeout
  else (g.fetchLinks.foldl (fun g k => g.request k { kind := .checkpointFetch, nums := [g.ident.trayId] }) g).withPair fun u => { u with asked := g.fetchLinks }

/-- What an installed context holds is discarded. -/
def Agg.forgetJob (g : Agg) (n : Nat) : Agg :=
  let g := ((g.modJob n fun _ => {}).modScore n fun _ => {}).modRing n fun _ => {}
  let g := g.withStencil fun u => { u with slots := u.slots.filter (fun p => decide (p.1 / 4 ≠ n)), samples := u.samples.filter fun s => decide (s.ctx ≠ n) }
  { g with jobs := { g.jobs with claims := g.jobs.claims.filter fun x => decide (x.holder ≠ n) },
           ap := { g.ap with pds := g.ap.pds.filter (· ≠ n) },
           codec := g.codec.map fun (s : CodecSlot) => if s.owner = some n then {} else s }

/-- Everything that a sync has brought is discarded (R691): the contexts, the Entity Table, the Dust Sheet and the recommendations. The tree
is this module's own and stays. -/
def Agg.discardSync (g : Agg) : Agg :=
  let g := (g.usedJobs.foldl Agg.forgetJob g).withStencil fun u => { u with entities := [] }
  { g with verdicts := { g.verdicts with dust := {}, recs := [] },
           pair := { g.pair with missing := [], joining := [], later := [], base := 0, join := 0, bytesDone := 0 } }

/-- PARTNER_CORE_LOST (R685): pair duties pass to the survivor, and a sync from the partner falls back or ends (R691). -/
def Agg.partnerCoreLost (g : Agg) : Agg :=
  if !g.fwRuns || !g.paired || g.pair.lost || decide (g.now < g.pair.keptAt + 3000000) then g
  else
    let g := (((g.withPair fun u => { u with lost := true }).flag (asafeFlag 6)).event 0x26 2 1 (zeros 8)).takeOver
    let g := g.jobs.pastes.foldl (fun g p => g.tryCommit p.ident) g
    if g.pair.source = 0 ∧ (g.pair.sync = 1 ∨ g.pair.sync = 2) then
      (if g.pair.fallback then (g.discardSync.withPair fun u => { u with source := 1, sync := 1 }).askKeeper
       else if g.pair.sync = 1 then g.failSync .aborted else g)
    else g

/-- PARTNER_SI_LOST (R685): 30 misses in a row on every partner link. -/
def Agg.partnerSiLostNow (g : Agg) : Agg :=
  let l := g.partnerMembers
  if !l.isEmpty && l.all fun k => decide (30 ≤ (g.link k).safeMiss) then g.partnerSiLost else g

/-! ### Checkpoints (R687, R688) -/

/-- The header of a checkpoint. -/
def ckptHead (role count tray w ht : Nat) (body : List Byte) : List Byte :=
  withCrc crc32c ([0xC7, 1] ++ leBytes 1 role ++ leBytes 1 count ++ leBytes 2 (tray % 4096) ++ leBytes 6 w ++ leBytes 4 (64 + body.length) ++ leBytes 8 ht ++
    leBytes 8 (crcOf crc64ecma body) ++ zeros 28)

def ckptGood (m : List Byte) : Bool :=
  decide (64 ≤ m.length) && decide (leAt m 0 2 = 0x01C7) && decide (leAt m 12 4 = m.length) && decide (leAt m 60 4 = crcOf crc32c (m.take 60)) &&
    decide (leAt m 24 8 = crcOf crc64ecma (m.drop 64))

/-- The epoch window that opened last. -/
def Agg.epochWindow (g : Agg) : Nat := g.windowFrom (g.ht / second * second)

/-- Every verdict of a context before a window is final. -/
def Agg.finalBefore (g : Agg) (w n : Nat) : Bool :=
  let j := g.job n
  !j.scores || decide (w ≤ j.firstAct) || (match (g.score n).vFinal with | some v => decide (w ≤ v + 1) | none => false)

/-- A checkpoint waits in an egress queue. -/
def Agg.ckptQueued (g : Agg) (w : Nat) : Bool :=
  (List.range 32).any fun k => ((g.link k).txOf 5).queue.any fun m => decide (leAt m.bytes 0 2 = 0x01C7 ∧ leAt m.bytes 6 6 = w)

/-- The last checkpoint is complete at the keeper once its last byte has left. -/
def Agg.noteCkpt (g : Agg) : Agg :=
  match g.pair.ckpt with
  | some w =>
    if g.pair.ckptOk || g.ckptQueued w || g.keeperLink.isNone then g
    else (g.withPair fun u => { u with ckptOk := true }).setReg64 0xD0030 w
  | none => g

/-- CHECKPOINT_WRITE (R687): into each job's history store and to the keeper. The spec lists the contents of the body and gives it no
layout: its bytes are free. -/
def Agg.checkpointWrite (g : Agg) (free : Nat → Byte) : Agg :=
  let w := g.epochWindow
  if !g.fwRuns || !g.boot.ready || g.time.sched.isNone || decide (g.pair.ckpt = some w) || decide (g.ht < g.strokeHt w) || !g.usedJobs.all (g.finalBefore w) then g
  else
    let g := g.noteCkpt
    let body := (List.range (1048576 + 163840 * g.usedJobs.length)).map free
    let m := ckptHead g.ident.role g.usedJobs.length g.ident.trayId w (g.ht / second * second) body ++ body
    let g := (g.usedJobs.filter fun n => decide ((g.job n).hbm.len ≠ 0)).foldl
      (fun g n => g.write ((g.job n).hbm.base + 65536) (m.take (8 * (g.job n).unit - 65536))) g
    let g := match g.keeperLink with | some k => g.queueBytes k 5 m none | none => g
    (g.withPair fun u => { u with ckpt := some w, ckptOk := false }).event 0x27 0 0 (leBytes 6 w ++ zeros 2)

/-- CHECKPOINT_FAIL (R687): it is not complete at the keeper before the next epoch. -/
def Agg.checkpointFail (g : Agg) : Agg :=
  let g := g.noteCkpt
  match g.pair.ckpt with
  | some w =>
    if g.pair.ckptOk || decide (g.epochWindow ≤ w) then g
    else ((g.withPair fun u => { u with ckpt := none, ckptFails := (u.ckptFails + 1) % 2 ^ 32 }).flag (asafeFlag 8)).event 0x27 2 1 (leBytes 6 w ++ zeros 2)
  | none => g

/-- CHECKPOINT_RECEIVE at the keeper (R688). -/
def Agg.checkpointReceive (g : Agg) (m : List Byte) : Agg :=
  let tray := leAt m 4 2 % 4096
  let role := leAt m 2 1 % 2
  let w := leAt m 6 6
  let newer := g.pair.kept.any fun x => decide (x.tray = tray ∧ x.role = role ∧ w < x.window)
  if !g.fwRuns || !ckptGood m || newer then g
  else g.withPair fun u => { u with kept := u.kept.filter (fun x => decide (x.tray ≠ tray ∨ x.role ≠ role)) ++ [⟨tray, role, w, m⟩] }

/-- CHECKPOINT_FETCH (R688): answered on its link with the newest checkpoint of the tray here or at the partner. -/
def Agg.checkpointFetch (g : Agg) (k tray : Nat) (partners : Option (List Byte)) : Agg :=
  let mine := (g.pair.kept.filter fun x => decide (x.tray = tray)).map (·.bytes)
  let pick (best : Option (List Byte)) (m : List Byte) : Option (List Byte) :=
    match best with | some b => if leAt b 6 6 < leAt m 6 6 then some m else best | none => some m
  let all := mine ++ (match partners with | some m => if ckptGood m then [m] else [] | none => [])
  if !g.fwRuns then g else g.queueCtl k 5 { kind := .checkpointReply, nums := [tray], bytes := (all.foldl pick none).getD [] }

/-! ### Sync (R689 to R692) -/

/-- Manager count, quorum and KEY_DIGEST of this module (R706, R709). -/
def Agg.keyDigest (g : Agg) : List Byte := mread g.eeprom 0x1C4 2 ++ (sha256 (mread g.eeprom 0x1C4 228)).take 8

/-- PAIR_SYNC_START (R689). `theirs`: manager count, quorum and KEY_DIGEST of the partner, where it can be asked. -/
def Agg.syncStart (g : Agg) (c : Caller) (source : Nat) (fallback : Bool) (theirs : Option (List Byte)) : Agg :=
  let differ := match theirs with | some d => decide (d ≠ g.keyDigest) | none => false
  g.command c 0x7E (ring0Only c ++ failIf (!g.ident.paired) .notPresent ++ failIf (g.otherVariant || !g.usedJobs.isEmpty || differ || decide (g.pair.sync = 1)) .conflict ++
      g.notReady) none fun g =>
    if source = 0 ∧ g.pair.lost ∧ !fallback then g.complete (who c) 0x7E .aborted []
    else
      let src := if source = 0 ∧ !g.pair.lost then 0 else 1
      let g := g.withPair fun u => { u with sync := 1, starter := some (who c), source := src, fallback := fallback, bytesDone := 0, missing := [], joining := [], later := [],
                                            base := 0, join := 0 }
      if src = 0 then g.toPartner { kind := .syncRequest } else g.askKeeper

/-- PAIR_SYNC_REQUEST_RECEIVE: the running module serves from the next epoch window (R690). -/
def Agg.syncRequest (g : Agg) : Agg :=
  if !g.fwRuns || !g.boot.ready then g else g.withPair fun u => { u with sync := 5, serveAt := some ((g.nextEpoch 0).getD 0) }

/-- Claims of a rebuilt context. -/
def Agg.claimAll (g : Agg) (n : Nat) (ds : List JobDie) : Agg :=
  ds.foldl (fun g d => ((List.range 8).filter fun k => d.mask.testBit k).foldl (fun g k => g.claim n d.port k) g) g

/-- The ensembles of a model that the partner runs, where they fit. -/
def Agg.installEnsembles (g : Agg) (n : Nat) (m : Model) : Agg :=
  match g.loadEnsembles n m.ensembles with
  | .ok g' => g'
  | .error _ => g

/-- Install one context (R690, R692). From the partner its models come with it, and it joins at `join`; from the keeper it waits for its
model. -/
def Agg.installJob (partner : Bool) (join : Nat) (g : Agg) (p : PairJob) : Agg :=
  let n := p.ctx
  let running := decide (p.job.state = .active ∨ p.job.state = .draining)
  let state := if p.job.state = .active then JobState.committed else if p.job.state = .armed then .created else p.job.state
  let j := { p.job with state := state, active := none, pending := if !partner then none else if running then p.job.active else p.job.pending, armed := none,
                        commit := if running then (if partner then some join else none) else p.job.commit, teardown := none, committer := none, armer := none,
                        openWrites := 0, accepted := [], delayed := [], absent := [], counters := [], shown := [] }
  let g := (((g.modJob n fun _ => j).modRing n fun _ => p.ring).modScore n fun _ => { images := p.images }).claimAll n p.job.dies
  let g := { g with jobs := { g.jobs with epoch := max g.jobs.epoch p.job.epoch }, ap := { g.ap with pds := if g.ap.pds.contains n then g.ap.pds else g.ap.pds ++ [n] } }
  let g := match partner && running, p.job.active with
    | true, some m => (g.installEnsembles n m).write (m.base 0) p.rows
    | _, _ => g
  let need := if running then p.active else p.pending
  g.withPair fun u => { u with missing := if !partner && decide (need ≠ 0) then u.missing ++ [(n, need)] else u.missing,
                               joining := if partner && running then u.joining ++ [(n, join)] else u.joining,
                               later := match partner && running, p.job.pending with | true, some m => u.later ++ [(n, m)] | _, _ => u.later }

/-- Install the module's part: tree of its own plane, metric set, gates in force, Dust Sheet, Entity Table, codec slots. -/
def Agg.installModule (g : Agg) (x : PairContent) : Agg :=
  let g := match x.tree with | some c => { g with skim := { g.skim with cfg := some c, state := if c.root then 2 else 1, joinSent := false } } | none => g
  let g := match x.set with | some s => { g with skim := { g.skim with set := s } } | none => g
  let g := (x.gates.entries.zip (List.range 16)).foldl (fun g e => g.setRegN (0x40040 + 4 * (e.2 % 16)) (e.1.1 + 65536 * e.1.2)) g
  let g := (x.gates.meters.zip (List.range 8)).foldl (fun g m =>
    let b := 0x40180 + 0x10 * (m.2 % 8)
    ((g.setReg b m.1.1).setReg (b + 4) m.1.2.1).setReg (b + 8) m.1.2.2) g
  let g := { g with verdicts := { g.verdicts with dust := x.dust, recs := x.recs, nextRec := (x.recs.map fun (r : RecEntry) => r.seq + 1).foldl max g.verdicts.nextRec } }
  let g := g.withStencil fun u => { u with entities := x.entities }
  x.codec.foldl (fun g s => g.setSlot s.1 s.2) g

/-- Resends of the rebuilt jobs' channels from W_C onwards, on every watched port (R692). -/
def Agg.askResends (g : Agg) (w : Nat) : Agg :=
  let mask (p : Nat) : Nat := (((List.range 8).filter fun c => g.jobs.claims.any fun x => decide (x.port = p ∧ x.chan = c)).map (2 ^ ·)).sum
  ((List.range 64).filter fun p => (g.watch p).watched && decide (mask p ≠ 0)).foldl (fun g p =>
    g.startReg fwRing 0 0x7E p .quiet
      [wrOp 0x0760 (w % 2 ^ 32), wrOp 0x0764 (w / 2 ^ 32), wrOp 0x0768 0xFFFFFFFF, wrOp 0x076C 0xFFFF, wrOp 0x0770 (256 + mask p)]) g

/-- Contexts as bits 0 to 15. -/
def ctxMask (l : List Nat) : Nat := (l.map fun n => 2 ^ (n - 1)).sum

/-- PAIR_SYNC_STATE_RECEIVE (R690, R692): the state is installed and the command completes; in the round before J the partner's Level state
images and Dust Sheet state replace those installed. None from the keeper: it holds no checkpoint of this tray. -/
def Agg.syncState (g : Agg) (x : Option PairContent) : Agg :=
  let partner := decide (g.pair.source = 0)
  let g := if partner then g else g.endAsk
  match x with
  | none => if g.pair.sync = 1 ∧ !partner then g.failSync .timeout else g
  | some x =>
    if g.pair.sync = 2 ∧ partner then
      let g := x.jobs.foldl (fun g p => g.modScore p.ctx fun s => { s with images := p.images }) g
      { g with verdicts := { g.verdicts with dust := x.dust } }
    else if g.pair.sync ≠ 1 then g
    else
      let join := (g.nextEpoch 0).getD 0
      let g := (g.installModule x).withPair fun u => { u with base := x.window, bytesDone := u.bytesDone + x.bytes }
      let g := x.jobs.foldl (Agg.installJob partner join) g
      let lack := g.pair.missing.map (·.1)
      let j := if lack.isEmpty then join else 0
      let g := g.withPair fun u => { u with sync := if lack.isEmpty then 2 else 3, join := j, starter := none }
      let w := g.pair.starter
      let g := if partner then g else g.askResends x.window
      match w with
      | some w => g.complete w 0x7E .ok [(1, g.pair.source), (48, x.window), (48, j), (16, ctxMask (x.jobs.map (·.ctx))), (16, ctxMask lack)]
      | none => g

/-- Bytes of a model image in use. -/
def Model.size (m : Model) : Nat :=
  (m.program.map List.length).sum + m.feature.length + m.level.length + (m.ensembles.map fun e => e.2.length).sum + m.bases.length

/-- Bytes of the state that is served (R690): the checkpoint content at the size a checkpoint takes, the models, and the feature rings
(notes/assumptions/123.md). -/
def Agg.syncBytes (g : Agg) : Nat :=
  let models (j : Job) : Nat := (match j.active with | some m => m.size | none => 0) + (match j.pending with | some m => m.size | none => 0)
  1048576 + 163840 * g.usedJobs.length + (g.usedJobs.map fun n => models (g.job n) + 65536 * (g.job n).dies.length).sum

/-- Windowed steps of the pair: the joiner has joined, and the serving module sends its state (R690). -/
def Agg.pairStroke (g : Agg) (w : Nat) : Agg :=
  let g := g.noteCkpt
  let u := g.pair
  if u.sync = 2 ∧ u.join ≤ w then (g.withPair fun u => { u with sync := 4 }).event 0x26 2 3 (zeros 8)
  else if u.sync = 5 then
    match u.serveAt with
    | none => g
    | some s =>
      let round := (g.skim.cfg.map (·.windows)).getD 1
      let later := (g.nextEpoch 0).getD 0
      if w < s then g
      else if g.isEpoch w then (g.toPartner { kind := .syncState, nums := [w], bytes := zeros g.syncBytes }).withPair fun u => { u with serveAt := some (later - round) }
      else (g.toPartner { kind := .syncState, nums := [w, 1], bytes := zeros (163840 * g.usedJobs.length) }).withPair fun u => { u with sync := 0, serveAt := none }
  else g

/-- PAIR_STATUS (R694). -/
def Agg.pairStatus (g : Agg) (c : Caller) : Agg :=
  g.checked c 0x7F (g.ctxCodes c) none fun g =>
    let u := g.pair
    let tray := match g.keeperLink with | some k => g.fld (sklinkBase k + 4) 11 0 | none => 0
    g.done c 0x7F [(1, b2n (g.paired && !u.lost)), (1, b2n g.si.pSiOk), (4, min 15 g.partnerLinks.length), (3, u.sync), (64, u.bytesDone),
      (48, rget64 g.regs 0xD0030), (12, tray), (32, u.ckptFails)]

end Sys2Proof.Machine
end

