-- ==== Sys2Proof/Machine/AggStroke.lean ====
section
/-!
DEFINITION. AggStroke.lean: what the aggregator does at a stroke: R72 of spec/02_hall_time.md, R351 and R352 of spec/09_traffic.md, R553 of
spec/14_mailboxes.md and R658 of spec/17_power.md. The window-timed changes of the other chapters are called from here.
-/
namespace Sys2Proof.Machine

/-! ### Self-telemetry taps (R351, R352, R497, R514, R658) -/

/-- Taps that are counters, 48 bits wide; the others are gauges. -/
def tapIsCounter (t : Nat) : Bool := (decide (t < 1088) && decide (2 ≤ t % 4)) || [1088, 1089, 1090, 1093].contains t

/-- The value of a tap now; none for a tap that the entity does not have. -/
def Agg.tapNow (g : Agg) (t : Nat) : Option Nat :=
  if t < 1088 then
    let q := t / 4
    let o := [0x00, 0x04, 0x08, 0x14].getD (t % 4) 0
    if q < 256 then
      let v := g.tcq (q / 8) (q % 8) o
      some (if t % 4 < 2 then min 0x7FFFFFFF v else v % 2 ^ 48)
    else
      some (if t % 4 = 2 then rget64 g.regs (apSent ((q - 256) / 8) (q % 8)) % 2 ^ 48 else min 0x7FFFFFFF (g.tcqAp ((q - 256) / 8) (q % 8) o))
  else match t with
    | 1088 => some (g.verdicts.raisedTap % 2 ^ 48)
    | 1089 => some (g.verdicts.disputeTap % 2 ^ 48)
    | 1090 => some (g.pwr.energy % 2 ^ 48)
    | 1091 => some (g.reg 0xC0018).toNat
    | 1092 => some g.powerState
    | 1093 => some (g.reg 0xC0020).toNat
    | 1094 => some (g.fld 0xC001C 7 0)
    | _ => none

/-- A tap's value for the window that a stroke closes, as a binary32: the reading of a gauge, signed, and the difference of a counter from the
stroke before. -/
def tapValue (t : Nat) (old now : Option Nat) : Option Nat :=
  match now with
  | none => none
  | some v =>
    if tapIsCounter t then old.map fun o => enc32 (.fin false ((v + 2 ^ 48 - o) % 2 ^ 48) 0)
    else
      let i := if t = 1094 then signedOf 8 v else (v : Int)
      some (enc32 (.fin (decide (i < 0)) i.natAbs 0))

/-- The metrics of source 1 that count in the round of a window (R362, R396). -/
def Agg.selfMetrics (g : Agg) (w : Nat) : List MetricDef :=
  match g.skim.cfg with
  | none => []
  | some c =>
    let r := w / max 1 c.windows
    let set := match g.skim.pendSet with | some s => if s.act ≤ r then s else g.skim.set | none => g.skim.set
    set.defs.filter (·.source = 1)

/-- Restart DELAY_MAX of every egress queue (R352). -/
def SkimLink.restartDelay (l : SkimLink) : SkimLink := { l with tx := l.tx.map fun (t : ClassTx) => { t with delayMax := 0 } }

def Egress.restartDelay (e : Egress) : Egress := { e with queues := e.queues.map fun (q : ApQueue) => { q with delayMax := 0 } }

/-- The taps are sampled at the stroke that closes window w, and the source-1 values of the window are formed (R352, R362). -/
def Agg.sampleTaps (g : Agg) (w : Nat) : Agg :=
  let held := g.skim.taps
  let now := (List.range 1095).filterMap fun t => (g.tapNow t).map fun v => (t, v)
  let look (l : List (Nat × Nat)) (t : Nat) : Option Nat := (l.find? (·.1 = t)).map (·.2)
  let vals := (g.selfMetrics w).map fun m => (m.ident, tapValue m.tag (look held m.tag) (look now m.tag))
  let g := { g with links := g.links.map SkimLink.restartDelay, ap := { g.ap with egress0 := g.ap.egress0.restartDelay, egress1 := g.ap.egress1.restartDelay } }
  { g with skim := { g.skim with taps := now, selfVals := g.skim.selfVals ++ [(w, vals)] } }

/-- Counters 0 to 23 of block 0: the sums over all contexts (R554). -/
def Agg.contextSums (g : Agg) : SMap Nat :=
  (List.range 24).foldl (fun m k => sset 0 m k ((jobNumbers.map fun n => sget 0 (g.job n).counters k).sum % 2 ^ 64)) g.chip

/-- Counters hold their values of the stroke (R553). -/
def Agg.showCounters (g : Agg) : Agg :=
  { g with chipShown := g.contextSums, jobs := { g.jobs with jobs := g.jobs.jobs.map fun (j : Job) => { j with shown := j.counters } } }

/-! ### The stroke (R68, R72) -/

/-- The next stroke of the aggregator's own time base. -/
def AggTime.nextStroke (t : AggTime) (s : Sched) : Nat :=
  match t.lastFired with
  | some n => n + 1
  | none => if t.ht < s.anchorHt then s.anchorWin else windowAt t.prev (some s) t.pending (t.ht + 1)

/-- A pending change of the schedule takes effect at its stroke (R72). -/
def Agg.takeChange (g : Agg) (s : Sched) (n : Nat) : Agg :=
  match g.time.pending with
  | some (c, p) =>
    if c ≤ n then (g.withTime fun t => { t with sched := some (schedAfter s c p), prev := some s, pending := none }).flag (tmFlag 21) else g
  | none => g

/-- What takes effect at the stroke that opens window n: entities, jobs, ensembles, the tree, the pair. -/
def Agg.windowOpens (g : Agg) (n : Nat) : Agg := ((((g.entityStroke n).jobStroke n).ensembleStroke n).treeStroke n).pairStroke n

/-- AGG_STROKE (R352): the next stroke, once HT has reached it. -/
def Agg.stroke (g : Agg) : Agg :=
  match g.time.sched with
  | none => g
  | some s =>
    let n := g.time.nextStroke s
    if !g.powered || g.time.state = .unset || g.time.state = .acquiring || decide (g.ht < schedHtPending s g.time.pending n) then g
    else
      let g := (g.withTime fun t => { t with lastFired := some n }).takeChange s n
      if g.linksLive then ((g.sampleTaps (n - 1)).showCounters).windowOpens n else g

end Sys2Proof.Machine
end

