-- ==== Sys2Proof/Machine/SkimPorts.lean ====
section
/-!
DEFINITION. SkimPorts.lean: what the skim links receive: codewords, flits, and the messages whose layout the spec gives: R311 to R317 of
spec/08_links.md.
-/
namespace Sys2Proof.Machine

/-! ### Messages in flits -/

/-- A whole message of a class on a link (R326): those with a stated layout are acted on by their magic. The other messages of the fabric
arrive on their own commands. -/
def Agg.skimMessage (g : Agg) (k c : Nat) (m : List Byte) : Agg :=
  let magic := leAt m 0 1
  let kind := leAt m 2 1
  if c = 2 then
    (if magic = 0xB1 ∧ kind = 2 then g.downReceive k false m else g.skimUpReceive k m)
  else if magic = 0xB2 then g.abortReceive m
  else if c = 4 ∧ magic = 0xF1 then g.pasteChunk m
  else if magic = 0xF2 then
    let src := if c = 6 then none else some k
    match kind with
    | 1 => if c = 6 then g else g.pasteHaveReceive src m false
    | 2 => g.pasteFetch src m
    | 3 => g.pasteDecide m
    | 4 => g.pasteRejoin k m
    | _ => g
  else if c = 6 ∧ magic = 0xE7 then g.summaryReceive m
  else if c = 6 ∧ magic = 0xB1 then g.downReceive k true m
  else g

/-- TC6 messages are acted on in the order of their numbers (R322): those that are next, up to `n` of them. -/
def Agg.takeEarly (k : Nat) : Nat → Agg → Agg
  | 0, g => g
  | n + 1, g =>
    match g.bundle.early.find? fun x => decide (x.1 = g.bundle.rxNext) with
    | none => g
    | some x =>
      Agg.takeEarly k n ({ g with bundle := { g.bundle with early := g.bundle.early.filter (fun y => decide (y.1 ≠ x.1)),
                                                            rxNext := (g.bundle.rxNext + 1) % 2 ^ 32 } }.skimMessage k 6 x.2)

/-- A number is the next one or at most 63 ahead of it. -/
def Bundle.takes (b : Bundle) (n : Nat) : Bool := decide ((n + 2 ^ 32 - b.rxNext) % 2 ^ 32 < 64)
/-- A message waits under its number. -/
def Agg.keepEarly (g : Agg) (n : Nat) (m : List Byte) : Agg :=
  { g with bundle := { g.bundle with early := g.bundle.early.filter (fun y => decide (y.1 ≠ n)) ++ [(n, m)] } }
/-- All that wait and whose turn has come. -/
def Agg.takeKept (g : Agg) (k : Nat) : Agg := Agg.takeEarly k g.bundle.early.length g

/-- A TC6 message from a member (R322, R356): one that has come before is dropped; one ahead of its turn waits in the region for 64 messages. -/
def Agg.bundleIn (g : Agg) (k : Nat) (m : List Byte) : Agg :=
  if g.bundle.takes (leAt m 0 4) then (g.keepEarly (leAt m 0 4) (m.drop 4)).takeKept k else g

/-- A whole message: TC6 in the order of the bundle. -/
def Agg.linkMessage (g : Agg) (k c : Nat) (m : List Byte) : Agg := if c = 6 then g.bundleIn k m else g.skimMessage k c m

/-- TIME slots (R314): a request or a reply. -/
def Agg.timeSlotIn (g : Agg) (k : Nat) (s : List Byte) : Agg :=
  if leAt s 1 1 % 2 = 0 then g.exchangeRequest k s else g.exchangeReply k s

/-- The SAFETY word or the TIME slot of a received flit. -/
def Agg.sideIn (g : Agg) (k : Nat) (side : Option (Nat × List Byte)) : Agg :=
  match side with
  | some (3, w) => g.skimSafetyIn k w
  | some (2, w) => if g.linksLive then g.timeSlotIn k (w.take 64) else g
  | _ => g

/-- The message of a released slot is moved into the consumer's memory, and acted on. -/
def Agg.takeMessage (g : Agg) (k c : Nat) (m : Option (List Byte)) : Agg :=
  match m with | some m => if g.linksLive then g.linkMessage k c m else g | none => g

/-- SLOT_RELEASE (R345, R346, R353): the oldest slot of a class is released. The consumer takes the message that ends there, or discards the
message before it; a whole message from before a loss of the link comes first. -/
def Agg.releaseSlot (g : Agg) (k c : Nat) (discard : Bool) : Agg :=
  let r := (g.link k).rxOf c
  let drops := discard && [2, 4, 5, 7].contains c
  match r.left with
  | m :: rest =>
    let g := g.modLink k fun l => l.modRx c fun r => { r with left := rest, discards := if drops && decide (c = 5 ∨ c = 7) then r.discards + 1 else r.discards }
    if !drops then g.takeMessage k c (some m) else if c = 4 then g.fetchDropped m else g
  | [] =>
    let g := if drops then g.modLink k fun l => l.modRx c (ClassRx.discard c) else g
    let m := (((g.link k).rxOf c).held.head?).bind (·.msg)
    let g := g.modLink k (·.freeSlot c)
    if drops && decide (c = 4) then g.fetchDropped r.front else g.takeMessage k c m

/-- SKIM_FLIT_RECEIVE (R312, R313). In CALIBRATE a LOOPBACK flit waits to go back (R317). Before the firmware's first heartbeat, and in a stop, the link region accepts DATA and discards it, and
acts on SAFETY alone (R655, R705). -/
def Agg.skimFlitIn (g : Agg) (k : Nat) (f : List Byte) : Agg :=
  if (g.link k).state = .calibrate ∧ skimFlitGood f ∧ leAt f 0 1 % 16 = 4 then g.modLink k fun l => { l with loopDue := some (f.drop 64) }
  else if (g.link k).state ≠ .up then g
  else
    let r := (g.link k).receive g.now f
    let taken := if g.linksLive then r.link else { r.link.emptied with tx := r.link.tx }
    let g := g.modLink k fun _ => taken
    let g := if r.crcErr then g.inc (sklinkBase k + 0x20) 1 else g
    if r.limit then (g.flag (sklinkFlag k 12)).linkDown k
    else (if g.linksLive then Agg.pumpTc6 g.bundle.waiting.length g else g).sideIn k r.side

/-! ### Codewords (R311) -/

/-- How far ahead the lowest codeword count lies among the flits that wait. -/
def SkimLink.firstAhead (l : SkimLink) : Nat := (l.deskew.map fun x => (x.1 + 65536 - l.rxCodeword) % 65536).foldl min 65535

/-- Flits that wait for an earlier codeword are taken in the order of their counts: once it has come, or once 200 ns of skew have passed. -/
def Agg.drainDeskew (k : Nat) : Nat → Agg → Agg
  | 0, g => g
  | n + 1, g =>
    let l := g.link k
    match l.deskew.find? fun x => decide (x.1 = l.rxCodeword) with
    | some x =>
      Agg.drainDeskew k n ((g.modLink k fun l => { l with deskew := l.deskew.filter (fun y => decide (y.1 ≠ x.1)), rxCodeword := (l.rxCodeword + 1) % 65536 }).skimFlitIn k x.2.1)
    | none =>
      if l.deskew.any fun x => decide (x.2.2 + 200 < g.now) then
        Agg.drainDeskew k n (g.modLink k fun l => { l with rxCodeword := (l.rxCodeword + l.firstAhead) % 65536 })
      else g

/-- The lane on which the next codeword is due (R311). -/
def SkimLink.rxLane (l : SkimLink) : Nat := l.laneAt l.rxCodeword

/-- SKIM_CODEWORD_RECEIVE (R311, R313, R318): what the decoder made of a codeword of a lane: the corrected symbols, and the flit with its
codeword count, or none where it could not correct. -/
def Agg.codewordIn (g : Agg) (k lane corrected : Nat) (flit : Option (List Byte × Nat)) : Agg :=
  if (g.link k).state ≠ .up ∨ !(g.link k).laneMask.testBit lane then g
  else
    let g := (g.inc (sklinkBase k + 0x10 + 4 * (lane % 2)) corrected).modLane k lane (Lane.count g.now corrected flit.isNone)
    match flit with
    | none =>
      let g := ((g.inc (sklinkBase k + 0x18 + 4 * (lane % 2)) 1).inc (sklinkBase k + 0x20) 1).flag (sklinkFlag k 11)
      Agg.drainDeskew k 16 (g.modLink k fun l => { l with retry := l.retry.discard, rxCodeword := if l.rxLane = lane then (l.rxCodeword + 1) % 65536 else l.rxCodeword })
    | some (f, n) =>
      let d := (n % 65536 + 65536 - (g.link k).rxCodeword) % 65536
      if 32768 ≤ d then g
      else Agg.drainDeskew k 16 (g.modLink k fun l => { l with deskew := (l.deskew ++ [(n % 65536, f, g.now)]).take 16 })

/-! ### Timers and training (R297, R305, R317) -/

/-- RETRY_TIMEOUT (R297, R298, R313). -/
def Agg.linkRetry (g : Agg) (k : Nat) : Agg :=
  let l := g.link k
  if l.state ≠ .up || !l.retry.timedOut g.now then g
  else match l.retry.startReplay g.now with
    | some r => g.modLink k fun l => { l with retry := r }
    | none => (g.flag (sklinkFlag k 12)).linkDown k

/-- LINK_IDLE_TIMEOUT (R317). -/
def Agg.linkIdle (g : Agg) (k : Nat) : Agg :=
  if (g.link k).state = .up ∧ (g.link k).lastGood + 2000 ≤ g.now then g.linkDown k else g

/-- BLOCK_LOCK_LOSS of the whole link (R305, R317). -/
def Agg.linkLockLoss (g : Agg) (k : Nat) : Agg :=
  if (g.link k).state = .up then g.linkDown k
  else g.modLink k fun l => { l with training := { l.training with blockLock := false, idleGood := false, idleRun := 0 } }

def Agg.modEnd (g : Agg) (k : Nat) (f : PortEnd → PortEnd) : Agg := g.modLink k fun l => l.withEnd (f l.asEnd)

def Agg.linkTrainStart (g : Agg) (k : Nat) : Agg := if g.boot.linkOn && decide (k < g.skimLinks) then g.modEnd k (·.trainStart g.now) else g
def Agg.linkLock (g : Agg) (k : Nat) : Agg := g.modEnd k (·.lock)
def Agg.linkTrainFail (g : Agg) (k : Nat) : Agg := g.modEnd k (·.trainFail g.now 20000000)
def Agg.linkWaitEnd (g : Agg) (k : Nat) : Agg := g.modEnd k (·.waitEnd g.now)

end Sys2Proof.Machine
end

