-- ==== Sys2Proof/Machine/Guards.lean ====
section
/-!
DEFINITION. Guards.lean: when the aggregator acts on a message or a timer at all (R655, R705), and its datagrams by kind. Commands on rings
check this for themselves.
-/
namespace Sys2Proof.Machine

/-- While the module has power: the Safety Island and the power controller (R672). -/
def Agg.whenPowered (g : Agg) (f : Agg → Agg) : Agg := if g.powered then f g else g

/-- While the firmware runs: its timers and its registers (R655). -/
def Agg.whenFw (g : Agg) (f : Agg → Agg) : Agg := if g.fwRuns then f g else g

/-- What arrives on links before the first heartbeat is discarded (R705). -/
def Agg.whenLive (g : Agg) (f : Agg → Agg) : Agg := if g.linksLive then f g else g

/-- A message on a skim link in UP. -/
def Agg.whenUp (g : Agg) (k : Nat) (f : Agg → Agg) : Agg :=
  if g.linksLive && decide ((g.link k).state = .up) then f g else g

/-- A message from the partner: a link of the bundle is in UP (R322). -/
def Agg.whenPartner (g : Agg) (f : Agg → Agg) : Agg := if g.linksLive && g.partnerUp then f g else g

/-- A message from a link, or from the partner. -/
def Agg.whenFrom (g : Agg) (src : Option (Fin 32)) (f : Agg → Agg) : Agg :=
  match src with
  | some k => g.whenUp k.val f
  | none => g.whenPartner f

/-- A datagram on the command port, where its KIND is one of those that the row is about (R527, R528). Any other KIND than ACK and RESEND is
taken as a SUBMIT, which drops what is malformed. -/
def Agg.datagramOf (g : Agg) (kinds : Nat → Bool) (addr port : Nat) (m : List Byte) : Agg :=
  if kinds (leAt m 2 1) then g.datagramIn addr port m else g

end Sys2Proof.Machine
end

