-- ==== Sys2Proof/Machine/State.lean ====
section
/-!
DEFINITION. State.lean: the state of the whole machine, why a step can stop, and the state right after reset.
-/
namespace Sys2Proof.Machine

/-- The machine: the ATU of one host die, one aggregator on its module, and the commands that wait.
`fresh` numbers the free values taken so far: it is the model's own field, not the spec's (notes/assumptions/2.md). -/
structure State where
  atu     : Atu
  agg     : Agg
  fresh   : Nat
  /-- Commands that wait, first in, first out. -/
  pending : List Instr
  deriving DecidableEq, Repr

/-- Why a step can fault. No meaning of this model raises a fault, so the type has no constructor but this one, which nothing answers. -/
inductive Fault where
  /-- Raised by nobody: every refused access or command is a next state with the status code that the spec gives it. Safe. -/
  | none
  deriving DecidableEq, Repr

/-- Why a step can be refused. -/
inductive Refusal where
  /-- Raised by an arm of `exec` whose command has no meaning yet. Safe: the machine stops. -/
  | notModelled (mnemonic : String)
  deriving DecidableEq, Repr

/-- The machine right after reset: the ATU in its power-on reset, the aggregator's module at its own reset, no command waiting. -/
def State.reset : State := { atu := Atu.atReset, agg := Agg.atReset, fresh := 0, pending := [] }

end Sys2Proof.Machine
end

