-- ==== Sys2Proof/Machine/Ops.lean ====
section
/-!
DEFINITION. Ops.lean: how a command's effect on the ATU or on the aggregator becomes a step of the machine. Every meaning goes through
one of these operations.
-/
namespace Sys2Proof.Machine

/-- The outcome of one command. -/
abbrev Out1 := Host.Outcome State Fault Refusal

/-- An effect on the ATU alone. -/
def onAtu (s : State) (f : Atu → Atu) : Out1 := .next { s with atu := f s.atu }

/-- An effect on the aggregator alone. -/
def onAgg (s : State) (f : Agg → Agg) : Out1 := .next { s with agg := f s.agg }

/-- Free numbers of one use: distinct arguments for distinct uses and places. -/
def freeNumber (s : State) (i : Nat) : Nat := Config.freeNat (s.fresh * 2 ^ 32 + i)

/-- Free bytes of one use. -/
def freeBytes (s : State) (i : Nat) : Byte := Config.freeByte (s.fresh * 2 ^ 32 + i)

/-- An effect on the aggregator that takes values which the spec leaves open. -/
def onAggFree (s : State) (f : (Nat → Nat) → Agg → Agg) : Out1 :=
  .next { s with agg := f (freeNumber s) s.agg, fresh := s.fresh + 1 }

/-- An effect on the aggregator that sends or stores bytes whose contents the spec leaves open. -/
def onAggBytes (s : State) (f : (Nat → Byte) → Agg → Agg) : Out1 :=
  .next { s with agg := f (freeBytes s) s.agg, fresh := s.fresh + 1 }

end Sys2Proof.Machine
end

