-- ==== Sys2Proof/Machine/CmdBoot.lean ====
section
/-!
DEFINITION. CmdBoot.lean: bring-up, resets and power of the module: spec/19_bringup.md and spec/20_module.md.
-/
namespace Sys2Proof.Machine

/-- MODULE_POWER_ON (R703): The 44 V input reaches 40.0 V, and the power-on sequence runs. -/
def execModulePowerOn (x : Straps) (coolant rom switches rails : Bool) (prog : List (Nat × List Byte)) (s : State) : Out1 :=
  onAgg s fun g => g.powerOn x coolant rom switches rails prog

/-- MODULE_RESET (R700): MODULE_RST_N for 10 µs resets the core and link regions and starts the Primer. -/
def execModuleReset (x : Straps) (coolant : Bool) (prog : List (Nat × List Byte)) (s : State) : Out1 :=
  onAgg s fun g => g.moduleReset x coolant prog

/-- PRIMER_FETCH (R710): The Primer fetches the image from the next source. -/
def execPrimerFetch (s : State) : Out1 :=
  onAgg s fun g => g.primerFetch

/-- PRIMER_IMAGE_CHECK (R713): A fetched image is verified and started or rejected. -/
def execPrimerImageCheck (m : Option (List Byte)) (s : State) : Out1 :=
  onAggFree s fun n g => g.imageCheck m n

/-- PRIMER_SOURCE_TIMEOUT (R711): 100 ms without progress fails the image source. -/
def execPrimerSourceTimeout (s : State) : Out1 :=
  onAgg s fun g => g.sourceTimeout

/-- PRIMER_PASS_WAIT_END (R711): The wait between Primer passes ends. -/
def execPrimerPassWaitEnd (s : State) : Out1 :=
  onAgg s fun g => g.passWaitEnd

/-- IMAGE_REQ_RECEIVE (R710): A partner answers IMAGE_REQ with its image or NONE. -/
def execImageReqReceive (s : State) : Out1 :=
  onAgg s fun g => if g.partnerUp then g.imageRequest else g

/-- BOOT_STATUS_SEND (R715): Every 1 s the Primer sends a boot-status datagram. -/
def execBootStatusSend (s : State) : Out1 :=
  onAgg s fun g => g.bootStatusSend

/-- HBM_TRAINING_DONE (R717): An HBM training attempt ends, with retry or BOOT_ERR 8 after 3 failures. -/
def execHbmTrainingDone (ok : Bool) (s : State) : Out1 :=
  onAgg s fun g => g.hbmTrained ok

/-- ATU_DISCOVERY (R719): On port UP the firmware reads and checks the ATU's identity. -/
def execAtuDiscovery (p : Fin 64) (s : State) : Out1 :=
  onAgg s fun g => g.discover p.val

/-- DISCOVERY_RETRY (R754): A timed-out discovery read is repeated after 1 ms. -/
def execDiscoveryRetry (p : Fin 64) (s : State) : Out1 :=
  onAgg s fun g => g.discoveryRetry p.val

/-- POWER_FAIL (R733): The bulk falls below 38.0 V, the core stops and the link region holds on. -/
def execPowerFail (s : State) : Out1 :=
  onAgg s fun g => g.powerFail

/-- POWER_RETURN (R735): The input returns during hold-up, and the core restarts as a core reset. -/
def execPowerReturn (x : Straps) (coolant : Bool) (s : State) : Out1 :=
  onAgg s fun g => g.powerReturn x coolant

/-- HOLDUP_EXHAUSTED (R736): The hold-up runs out, every rail falls and the loop releases. -/
def execHoldupExhausted (s : State) : Out1 :=
  onAgg s fun g => g.holdupEnd

/-- INPUT_OVERCURRENT (R732): Above 9 A for 1 ms the hot-swap stage latches off. -/
def execInputOvercurrent (s : State) : Out1 :=
  onAgg s fun g => g.overcurrent

end Sys2Proof.Machine
end

