-- ==== Sys2Proof/Machine/CmdDiePorts.lean ====
section
/-!
DEFINITION. CmdDiePorts.lean: both ends of a die port, and what is common to die ports and skim links: R290 to R310 of spec/08_links.md.
-/
namespace Sys2Proof.Machine

/-- DIE_PORT_FLIT_SEND (R294): At each flit boundary a die-port end sends its highest-priority ready flit. -/
def execDiePortFlitSend (e : DieEnd) (s : State) : Out1 :=
  match e with | .atu p => (onAtu s fun a => a.sendFlit p) | .agg p => (onAggBytes s fun fb g => g.dieSend p.val fb)

/-- DIE_PORT_FLIT_RECEIVE (R296): A die-port end receives a flit, checks it, accepts DATA in order and processes ACK and NAK. -/
def execDiePortFlitReceive (e : DieEnd) (f : List Byte) (cfg : Option ChanCfg) (s : State) : Out1 :=
  match e with | .atu p => (onAtu s fun a => a.recvFlit p f) | .agg p => (onAggFree s fun n g => g.dieReceive p.val f cfg n)

/-- RETRY_TIMEOUT (R297): An unacknowledged flit is held 2 µs, and the transmitter replays. -/
def execRetryTimeout (e : LinkEnd) (s : State) : Out1 :=
  match e with | .atu p => (onAtu s fun a => a.retryTimeout p) | .agg p => (onAggFree s fun n g => g.dieRetry p.val n) | .skim k => (onAgg s fun g => g.linkRetry k.val)

/-- LINK_IDLE_TIMEOUT (R305): 2 µs pass without a good flit, and the port goes DOWN. -/
def execLinkIdleTimeout (e : LinkEnd) (s : State) : Out1 :=
  match e with | .atu p => (onAtu s fun a => a.idleTimeout p) | .agg p => (onAggFree s fun n g => g.dieIdle p.val n) | .skim k => (onAgg s fun g => g.linkIdle k.val)

/-- BLOCK_LOCK_LOSS (R305): A receiver loses block lock, and the port goes DOWN. -/
def execBlockLockLoss (e : LinkEnd) (s : State) : Out1 :=
  match e with | .atu p => (onAtu s fun a => a.lockLoss p) | .agg p => (onAggFree s fun n g => g.dieLockLoss p.val n) | .skim k => (onAgg s fun g => g.linkLockLoss k.val)

/-- TRAINING_START (R304): After electrical idle or a wait, a die port starts a training attempt. -/
def execTrainingStart (e : LinkEnd) (s : State) : Out1 :=
  match e with | .atu p => (onAtu s fun a => a.trainStart p) | .agg p => (onAgg s fun g => g.dieTrain p.val) | .skim k => (onAgg s fun g => g.linkTrainStart k.val)

/-- BLOCK_LOCK (R304): Block lock and 256 good IDLE flits are achieved in training. -/
def execBlockLock (e : LinkEnd) (s : State) : Out1 :=
  match e with | .atu p => (onAtu s fun a => a.blockLock p) | .agg p => (onAgg s fun g => g.dieLock p.val) | .skim k => (onAgg s fun g => g.linkLock k.val)

/-- PORT_IDENTITY (R307): The aggregator receives the ATU's capabilities and IDs and enters CALIBRATE. -/
def execPortIdentity (p : Fin 64) (caps ident die : Word) (s : State) : Out1 :=
  onAgg s fun g => g.portIdentity p.val caps ident die

/-- LOOPBACK_MEASURE (R301): The aggregator measures a loopback round trip, and the port enters UP after 64 of them. -/
def execLoopbackMeasure (p : Fin 64) (rtt : BitVec 32) (s : State) : Out1 :=
  onAgg s fun g => g.loopMeasure p.val rtt.toNat

/-- TRAINING_FAIL (R305): An attempt has not reached UP within its bound, and the back-off wait starts. -/
def execTrainingFail (e : LinkEnd) (s : State) : Out1 :=
  match e with | .atu p => (onAtu s fun a => a.trainFail p) | .agg p => (onAgg s fun g => g.dieTrainFail p.val) | .skim k => (onAgg s fun g => g.linkTrainFail k.val)

/-- TRAINING_WAIT_END (R305): A training back-off wait ends. -/
def execTrainingWaitEnd (e : LinkEnd) (s : State) : Out1 :=
  match e with | .atu p => (onAtu s fun a => a.trainWaitEnd p) | .agg p => (onAgg s fun g => g.dieWaitEnd p.val) | .skim k => (onAgg s fun g => g.linkWaitEnd k.val)

/-- SAFETY_FLIT_RECEIVE (R303): The aggregator accepts a SAFETY flit and reports it to the Safety Island, which checks it. -/
def execSafetyFlitReceive (p : Fin 64) (m : List Byte) (s : State) : Out1 :=
  onAgg s fun g => g.whenPowered (·.safetyIn p.val m)

/-- SAFETY_BEAT_MISS (R303): 110 µs pass without an accepted SAFETY flit on a die port. -/
def execSafetyBeatMiss (p : Fin 64) (s : State) : Out1 :=
  onAgg s fun g => g.whenPowered (·.safetyMiss p.val)

end Sys2Proof.Machine
end

