-- ==== Sys2Proof/Machine/CmdFrames.lean ====
section
/-!
DEFINITION. CmdFrames.lean: frames, spill, resend and check scan of the ATU: R118 to R157 of spec/04_frames.md.
-/
namespace Sys2Proof.Machine

/-- SPILL_WRITE_DONE (R143): A frame and its index entry are visible in host DRAM, and the spill positions advance. -/
def execSpillWriteDone (s : State) : Out1 :=
  onAtu s fun a => a.spillDone

/-- SPILL_DMA_ERROR (R749): A spill or index write gets a host memory error, and the frame is dropped and spill disabled. -/
def execSpillDmaError (s : State) : Out1 :=
  onAtu s fun a => a.spillError

/-- SPILL_CFG_WRITE (R141): A host write of ATU_SPILL_CFG enables or disables the spill ring and claims its DMA channel. -/
def execSpillCfgWrite (v : Word) (s : State) : Out1 :=
  onAtu s fun a => a.writeFrom .host 0x0718 v

/-- CH_FLUSH (R149): A write of ATU_CH_FLUSH makes the next frame of each masked channel a key frame. -/
def execChFlush (src : RegFrom) (mask : BitVec 8) (s : State) : Out1 :=
  onAtu s fun a => a.writeFrom src 0x0700 (w32 mask.toNat)

/-- RESEND_START (R146): A write of ATU_RESEND_CTL START starts resending stored frames of a window range. -/
def execResendStart (src : RegFrom) (mask : BitVec 8) (s : State) : Out1 :=
  onAtu s fun a => a.writeFrom src 0x0770 (w32 (0x100 + mask.toNat))

/-- RESEND_DONE (R148): A resend ends, and its outcome code is recorded. -/
def execResendDone (s : State) : Out1 :=
  onAtu s fun a => a.resendDone

/-- CHK_START (R154): A write of ATU_CHK_CTL START begins a check-value scan of host memory. -/
def execChkStart (src : RegFrom) (cont : Bool) (s : State) : Out1 :=
  onAtu s fun a => a.writeFrom src 0x0790 (w32 (1 + 2 * b2n cont))

/-- CHK_DONE (R154): A scan ends, and the running value and the result are stored. -/
def execChkDone (s : State) : Out1 :=
  onAtu s fun a => a.chkDone

/-- CHK_ERROR (R156): A scan meets a host memory error and stops. -/
def execChkError (good : Nat) (s : State) : Out1 :=
  onAtu s fun a => a.chkError good

end Sys2Proof.Machine
end

