-- ==== Sys2Proof/Machine/CmdHealth.lean ====
section
/-!
DEFINITION. CmdHealth.lean: ageing, recoat and sanding of the ATU, and its safety inputs: spec/06_die_health.md, R302 and R673.
-/
namespace Sys2Proof.Machine

/-- AGE_MEASURE (R219): Every PERIOD_S the ATU measures each enabled ageing site. -/
def execAgeMeasure (vals : List (BitVec 16)) (s : State) : Out1 :=
  onAtu s fun a => a.ageMeasure vals

/-- AGE_SITE_FAULT (R220): A site gives no edges or no slack reading within 100 µs and is marked faulty. -/
def execAgeSiteFault (k : Fin 32) (s : State) : Out1 :=
  onAtu s fun a => a.siteFault k

/-- FIT_SAMPLE (R221): Every FIT_PERIOD_H a fit sample updates each site's sums and projection. -/
def execFitSample (s : State) : Out1 :=
  onAtu s fun a => a.fitSample

/-- LIFE_SECONDS_WRITE (R224): The host seeds ATU_EVR_LIFE_SECONDS once after power-on, which shifts sanding times. -/
def execLifeSecondsWrite (v : Word) (s : State) : Out1 :=
  onAtu s fun a => a.writeFrom .host 0x6008 v

/-- LIFE_SECOND_TICK (R249): One operating second passes on ATU_REFCLK, and ATU_EVR_LIFE_SECONDS increments. -/
def execLifeSecondTick (s : State) : Out1 :=
  onAtu s fun a => a.lifeTick

/-- RECOAT_CYCLE (R227): Every RECOAT_S the ATU checks each domain's sites and advises a margin step or RELAX. -/
def execRecoatCycle (s : State) : Out1 :=
  onAtu s fun a => a.recoat

/-- SAND_DUE (R235): A core reaches its due time, and SAND_REQ is asserted. -/
def execSandDue (n : Fin 16) (s : State) : Out1 :=
  onAtu s fun a => a.sandDue n

/-- SAND_GRANT (R231): The host asserts SAND_GNT, and the ATU starts the test with SAND_RUN. -/
def execSandGrant (mask : BitVec 16) (s : State) : Out1 :=
  onAtu s fun a => a.sandGrant mask

/-- SAND_DONE (R231): SAND_DONE arrives, and the ATU samples SAND_PASS and records a pass, failure or retest result. -/
def execSandDone (n : Fin 16) (pass : Bool) (s : State) : Out1 :=
  onAtu s fun a => a.sandDone n pass

/-- SAND_GRANT_WITHDRAW (R233): The host deasserts SAND_GNT during a test, which aborts it. -/
def execSandGrantWithdraw (n : Fin 16) (s : State) : Out1 :=
  onAtu s fun a => a.sandWithdraw n

/-- SAND_REREQUEST (R233): 100 ms after an abort, SAND_REQ is asserted again if the core is still due. -/
def execSandRerequest (n : Fin 16) (s : State) : Out1 :=
  onAtu s fun a => a.sandAgain n

/-- SAND_TIMEOUT (R234): SAND_DONE has not arrived by TEST_MAX_US, and the test ends as a failure. -/
def execSandTimeout (n : Fin 16) (s : State) : Out1 :=
  onAtu s fun a => a.sandTimeout n

/-- SAND_SOFT_DEADLINE (R236): A core passes its soft deadline, and TEST_URGENT is asserted. -/
def execSandSoftDeadline (n : Fin 16) (s : State) : Out1 :=
  onAtu s fun a => a.sandSoftDeadline n

/-- SAND_HARD_DEADLINE (R237): A core reaches its hard deadline and becomes UNTESTED. -/
def execSandHardDeadline (n : Fin 16) (s : State) : Out1 :=
  onAtu s fun a => a.sandHardDeadline n

/-- SAND_RETEST (R240): RETEST_S after a failure, SAND_REQ is asserted for a retest. -/
def execSandRetest (n : Fin 16) (s : State) : Out1 :=
  onAtu s fun a => a.sandRetest n

/-- SAND_CFG_WRITE (R239): A write of ATU_SAND_CFG enables or disables cores for sanding. -/
def execSandCfgWrite (src : RegFrom) (v : Word) (s : State) : Out1 :=
  onAtu s fun a => a.writeFrom src 0x5A00 v

/-- SAND_TIMING_WRITE (R235): A write of INTERVAL_S, SOFT_S or HARD_S recomputes every core's due time and deadlines. -/
def execSandTimingWrite (src : RegFrom) (deadlines : Bool) (v : Word) (s : State) : Out1 :=
  onAtu s fun a => a.writeFrom src (if deadlines then 0x5A08 else 0x5A04) v

/-- SAND_RUN_NOW (R230): ATU_SAND_CTL.RUN_NOW makes the named cores due at once. -/
def execSandRunNow (src : RegFrom) (mask : BitVec 16) (s : State) : Out1 :=
  onAtu s fun a => a.writeFrom src 0x5A14 (w32 mask.toNat)

/-- SAND_CLEAR_FAILED (R241): ATU_SAND_CTL.CLEAR_FAILED takes the named cores out of FAILED. -/
def execSandClearFailed (src : RegFrom) (mask : BitVec 16) (s : State) : Out1 :=
  onAtu s fun a => a.writeFrom src 0x5A14 (w32 (0x10000 * mask.toNat))

/-- SAFETY_BEAT_SEND (R302): Every 100 µs the ATU sends a SAFETY flit on every die port in UP. -/
def execSafetyBeatSend (s : State) : Out1 :=
  onAtu s fun a => a.safetyBeat

/-- SAFE_IN_CHANGE (R302): The recognised SAFE_IN state changes, and the ATU sends an extra SAFETY flit. -/
def execSafeInChange (level : BitVec 8) (s : State) : Out1 :=
  onAtu s fun a => a.safeIn level

/-- SAFE_IN_PATH_TEST (R673): Every 1 ms the ATU tests each SAFE_IN capture path. -/
def execSafeInPathTest (fails : BitVec 8) (s : State) : Out1 :=
  onAtu s fun a => a.pathTest fails

/-- LOOPBACK_RETURN (R301): The ATU returns a loopback flit exactly 1,056 UI after its arrival. -/
def execLoopbackReturn (p : PortId) (s : State) : Out1 :=
  onAtu s fun a => a.loopReturn p

/-- OOB_RESET (R309): An ATU receives 32 reset control blocks and asserts the main reset. -/
def execOobReset (p : PortId) (blocks : List LineBlock) (s : State) : Out1 :=
  onAtu s fun a => a.oobReset p blocks

end Sys2Proof.Machine
end

