-- ==== Sys2Proof/Machine/CmdIngest.lean ====
section
/-!
DEFINITION. CmdIngest.lean: frames at the aggregator, the codec and check-value engines, trace and sanding of dies by command: spec/04_frames.md, R24, R216, R243, R556.
-/
namespace Sys2Proof.Machine

/-- FRAME_RECEIVE (R136): The aggregator receives a whole frame on a die port, checks it, decodes it and stores it. -/
def execFrameReceive (p : Fin 64) (resent : Bool) (f : List Byte) (cfg : Option ChanCfg) (s : State) : Out1 :=
  onAgg s fun g => g.frameMsg p.val resent f cfg

/-- INGEST_CUTOFF (R24): A window's ingest cut-off passes, after which frames are late. -/
def execIngestCutoff (n : Fin 17) (s : State) : Out1 :=
  onAgg s fun g => g.ingestCutoff n.val

/-- CODEC_RUN_ENCODE (R161): Codes raw frames against a codec slot's reference into an output chain. -/
def execCodecRunEncode (c : Caller) (flush : Bool) (slot : BitVec 4) (src : BitVec 48) (len : BitVec 32) (kind dst : BitVec 48) (s : State) : Out1 :=
  onAgg s fun g => g.codecRun c true flush slot.toNat src.toNat len.toNat kind.toNat dst.toNat

/-- CODEC_RUN_DECODE (R161): Decodes frames against a codec slot's reference into raw frames. -/
def execCodecRunDecode (c : Caller) (flush : Bool) (slot : BitVec 4) (src : BitVec 48) (len : BitVec 32) (kind dst : BitVec 48) (s : State) : Out1 :=
  onAgg s fun g => g.codecRun c false flush slot.toNat src.toNat len.toNat kind.toNat dst.toNat

/-- CODEC_SAVE (R165): Writes a codec slot's state to memory, and releases the slot if asked. -/
def execCodecSave (c : Caller) (slot : BitVec 4) (dst : BitVec 48) (release : Bool) (s : State) : Out1 :=
  onAgg s fun g => g.codecSave c slot.toNat dst.toNat release

/-- CODEC_RESTORE (R165): Loads a saved codec record into a slot and claims it. -/
def execCodecRestore (c : Caller) (slot : BitVec 4) (src : BitVec 48) (s : State) : Out1 :=
  onAgg s fun g => g.codecRestore c slot.toNat src.toNat

/-- CVU_CONFIGURE (R167): Sets a CVU context's CRC parameters and claims the context. -/
def execCvuConfigure (c : Caller) (k : BitVec 4) (width : BitVec 7) (poly init : BitVec 64) (refIn refOut : Bool) (xorOut : BitVec 64) (s : State) : Out1 :=
  onAgg s fun g => g.cvuConfigure c k.toNat width.toNat poly.toNat init.toNat refIn refOut xorOut.toNat

/-- CVU_SCAN (R167): Scans a memory range into a CVU context's running value. -/
def execCvuScan (c : Caller) (k : BitVec 4) (addr : BitVec 48) (len : BitVec 32) (cont : Bool) (s : State) : Out1 :=
  onAgg s fun g => g.cvuScan c k.toNat addr.toNat len.toNat cont

/-- CVU_READ (R167): Returns a CVU context's running value and result. -/
def execCvuRead (c : Caller) (k : BitVec 4) (s : State) : Out1 :=
  onAgg s fun g => g.cvuRead c k.toNat

/-- CVU_WRITE (R167): Sets a CVU context's running value. -/
def execCvuWrite (c : Caller) (k : BitVec 4) (v : BitVec 64) (s : State) : Out1 :=
  onAgg s fun g => g.cvuWrite c k.toNat v.toNat

/-- ATU_TRACE_CTL_START (R216): Starts trace on a die's ATU from the aggregator. -/
def execAtuTraceCtlStart (c : Caller) (p : BitVec 6) (s : State) : Out1 :=
  onAgg s fun g => g.traceCtlStart c p.toNat

/-- ATU_TRACE_CTL_STOP (R216): Stops trace on a die's ATU without delay. -/
def execAtuTraceCtlStop (c : Caller) (p : BitVec 6) (s : State) : Out1 :=
  onAgg s fun g => g.traceCtlStop c p.toNat

/-- ATU_TRACE_CTL_AUTHORISE (R216): Writes the expiry and the token to a die's ATU to authorise trace. -/
def execAtuTraceCtlAuthorise (c : Caller) (p : BitVec 6) (token : BitVec 64) (expiry : BitVec 48) (s : State) : Out1 :=
  onAgg s fun g => g.traceCtlAuth c p.toNat token.toNat expiry.toNat

/-- ATU_TRACE_CTL_STATUS (R216): Reads a die's trace status and the aggregator's chunk counts. -/
def execAtuTraceCtlStatus (c : Caller) (p : BitVec 6) (s : State) : Out1 :=
  onAgg s fun g => g.traceCtlStatus c p.toNat

/-- SANDING_PLAN_SET (R243): Writes the sanding timing and the enable mask of a die. -/
def execSandingPlanSet (c : Caller) (p : BitVec 6) (mask : BitVec 16) (interval : BitVec 32) (soft hard : BitVec 16) (s : State) : Out1 :=
  onAgg s fun g => g.sandSet c p.toNat mask.toNat interval.toNat soft.toNat hard.toNat

/-- SANDING_PLAN_RUN_NOW (R243): Writes RUN_NOW for the named cores of a die. -/
def execSandingPlanRunNow (c : Caller) (p : BitVec 6) (mask : BitVec 16) (s : State) : Out1 :=
  onAgg s fun g => g.sandRunNow c p.toNat mask.toNat

/-- SANDING_PLAN_CLEAR_FAILED (R243): Writes CLEAR_FAILED for the named cores of a die from ring 0. -/
def execSandingPlanClearFailed (c : Caller) (p : BitVec 6) (mask : BitVec 16) (s : State) : Out1 :=
  onAgg s fun g => g.sandClear c p.toNat mask.toNat

/-- SANDING_PLAN_STATUS (R243): Reads the sanding states of a die. -/
def execSandingPlanStatus (c : Caller) (p : BitVec 6) (s : State) : Out1 :=
  onAgg s fun g => g.sandStatus c p.toNat

/-- REGISTER_RESPONSE (R556): The aggregator receives an ATU register response and completes the access. -/
def execRegisterResponse (p : Fin 64) (m : List Byte) (s : State) : Out1 :=
  onAggFree s fun n g => g.responseIn p.val m n

end Sys2Proof.Machine
end

