-- ==== Sys2Proof/Machine/CmdJobs.lean ====
section
/-!
DEFINITION. CmdJobs.lean: job contexts: R570 to R590 of spec/15_jobs.md.
-/
namespace Sys2Proof.Machine

/-- JOB_CREATE (R571): Creates a job context, or queues the create until resources fit. -/
def execJobCreate (c : Caller) (tag : BitVec 32) (hawk : BitVec 8) (hbm : BitVec 6) (bind : BitVec 48) (queueMs : BitVec 16) (s : State) : Out1 :=
  onAgg s fun g => g.jobCreate c tag.toNat hawk.toNat hbm.toNat bind.toNat queueMs.toNat

/-- JOB_CREATE_TIMEOUT (R571): A queued create is still waiting after QUEUE_MS. -/
def execJobCreateTimeout (s : State) : Out1 :=
  onAgg s fun g => g.whenFw (·.createTimeout)

/-- JOB_ADD_DIES (R574): Adds dies and channel claims to a CREATED job. -/
def execJobAddDies (c : Caller) (list : BitVec 48) (count : BitVec 7) (s : State) : Out1 :=
  onAgg s fun g => g.addDies c list.toNat count.toNat

/-- JOB_LOAD_MODEL_LOCAL (R578): Loads a model image from memory as the pending model. -/
def execJobLoadModelLocal (c : Caller) (addr : BitVec 48) (len : BitVec 32) (s : State) : Out1 :=
  onAgg s fun g => g.loadLocal c addr.toNat len.toNat

/-- JOB_ARM (R582): Reserves resources and returns the first ready epoch window. -/
def execJobArm (c : Caller) (earliest : BitVec 48) (hold : BitVec 16) (s : State) : Out1 :=
  onAgg s fun g => g.jobArm c earliest.toNat hold.toNat

/-- ARM_EXPIRE (R583): An arm lapses after HOLD_MS without a commit. -/
def execArmExpire (s : State) : Out1 :=
  onAgg s fun g => g.whenFw (·.armExpire)

/-- JOB_COMMIT (R584): Fixes the activation window and writes the ATU channel commits. -/
def execJobCommit (c : Caller) (act : BitVec 48) (s : State) : Out1 :=
  onAgg s fun g => g.jobCommit c act.toNat

/-- JOB_DISARM (R583): Ends an arm at once. -/
def execJobDisarm (c : Caller) (s : State) : Out1 :=
  onAgg s fun g => g.jobDisarm c

/-- COMMIT_OUTCOME_RECEIVE (R587): Module B receives module A's ATU-write outcome and completes its JOB_COMMIT. -/
def execCommitOutcomeReceive (n : Fin 17) (code : BitVec 8) (s : State) : Out1 :=
  onAgg s fun g => g.whenPartner (·.commitOutcome n.val code.toNat)

/-- JOB_TEARDOWN (R588): Puts a job in DRAINING through LAST_WINDOW, or releases it at once. -/
def execJobTeardown (c : Caller) (last : BitVec 48) (s : State) : Out1 :=
  onAggFree s fun n g => g.jobTeardown c last.toNat n

/-- JOB_RELEASE (R589): All verdicts through LAST_WINDOW are final, and the context is released. -/
def execJobRelease (x : Fin 17) (s : State) : Out1 :=
  onAggFree s fun n g => g.whenFw (·.jobRelease x.val n)

/-- AREA_ZEROED (R573): Zeroing of a released area ends, and the area is free. -/
def execAreaZeroed (s : State) : Out1 :=
  onAgg s fun g => g.whenFw (·.areaZeroed)

/-- JOB_STATUS (R590): Returns the state of a job context. -/
def execJobStatus (c : Caller) (s : State) : Out1 :=
  onAgg s fun g => g.jobStatus c

end Sys2Proof.Machine
end

