-- ==== Sys2Proof/Machine/AggInfo.lean ====
section
/-!
DEFINITION. AggInfo.lean: NOP, GET_INFO, GET_CAPS, the counter blocks, EVENT_LOG_READ and the wait-for graph: R550 to R554 and R560 to
R566 of spec/14_mailboxes.md.
-/
namespace Sys2Proof.Machine

/-! ### R550 to R554 -/

def Agg.nop (g : Agg) (c : Caller) : Agg := g.command c 0x00 [] none fun g => g.done c 0x00 []

/-- GET_INFO (R551). The design step is that of the ordering code (R743). -/
def Agg.getInfo (g : Agg) (c : Caller) : Agg :=
  g.command c 0x01 [] none fun g => g.done c 0x01
    [(16, 0x0A40), (8, 1), (32, g.ident.fwVersion), (64, g.ident.fwDigest), (12, g.ident.trayId), (1, g.ident.role), (5, c.ring.val), (64, g.ht)]

/-- GET_CAPS (R551). -/
def Agg.getCaps (g : Agg) (c : Caller) : Agg :=
  g.command c 0x02 [] none fun g =>
    let links := ((List.range 32).map fun k => if (g.link k).state = .up then 2 ^ k else 0).sum
    let ports := ((List.range 64).map fun p => if g.portUp p then 2 ^ p else 0).sum
    g.done c 0x02 [(32, (g.reg 0x10).toNat), (24, g.fld 0x60000 23 0), (24, g.fld 0x60004 23 0), (32, links), (64, ports), (1, b2n g.partnerUp)]

/-- A 256-byte counter block (R554). -/
def counterBlock (m : SMap Nat) : List Byte := (List.range 32).flatMap fun k => leBytes 8 (sget 0 m k)

/-- Block 0 (R554): the sums over all contexts and the chip counters, as they stood at the last stroke (R553). -/
def Agg.chipBlock (g : Agg) : List Byte := (List.range 32).flatMap fun k => leBytes 8 (if k < 30 then sget 0 g.chipShown k else 0)

/-- WINDOW of the counter commands: the window that the last stroke closed (R553). -/
def Agg.closedWindow (g : Agg) : Nat := match g.time.lastFired with | some n => n - 1 | none => 0

/-- READ_COUNTERS (R552). -/
def Agg.readCounters (g : Agg) (c : Caller) (dst : Nat) : Agg :=
  g.command c 0x03 (failIf (decide (ctxOf c = 0)) .badParam) (g.outside c.ring.val dst 256) fun g =>
    (g.write dst (counterBlock (g.job (ctxOf c)).shown)).done c 0x03 [(48, g.closedWindow), (32, 256)]

/-- READ_GLOBAL_COUNTERS (R552). -/
def Agg.readGlobal (g : Agg) (c : Caller) (dst : Nat) : Agg :=
  g.command c 0x04 (ring0Only c) (g.outside c.ring.val dst 4352) fun g =>
    let blocks := jobNumbers.flatMap fun n => if (g.job n).state = .free then zeros 256 else counterBlock (g.job n).shown
    (g.write dst (g.chipBlock ++ blocks)).done c 0x04 [(48, g.closedWindow), (32, 4352)]

/-! ### EVENT_LOG_READ (R560, R561) -/

/-- Items in order while they fit in a limit: their bytes, and how many. -/
def takeWhole (limit : Nat) : List (List Byte) → List Byte × Nat
  | [] => ([], 0)
  | x :: xs =>
    if limit < x.length then ([], 0)
    else
      let r := takeWhole (limit - x.length) xs
      (x ++ r.1, r.2 + 1)

/-- The violation log entries that a ring may see. -/
def Agg.vlogFor (g : Agg) (ring : Nat) : List VEntry := g.mbx.vlog.filter fun e => decide (ring = 0 ∨ e.ring = ring)

/-- SOURCE 0: the event log, from a SEQ. -/
def Agg.eventLogRead (g : Agg) (c : Caller) (from_ mx dst : Nat) : Agg :=
  let oldest := match g.elog.recs with | r :: _ => r.pos | [] => g.elog.next
  g.command c 0x78 (ring0Only c ++ failIf (decide (from_ < oldest)) .staleEpoch) (g.outside c.ring.val dst mx) fun g =>
    let rs := g.elog.recs.filter fun r => decide (from_ ≤ r.pos)
    let (bs, n) := takeWhole mx (rs.map evrBytes)
    let next := match rs[n]? with | some r => r.pos | none => max from_ g.elog.next
    (g.write dst bs).done c 0x78 [(32, bs.length), (64, next)]

/-- SOURCE 1: the violation log, from a SEQ; a job ring receives its own ring's entries. -/
def Agg.violationRead (g : Agg) (c : Caller) (from_ mx dst : Nat) : Agg :=
  let oldest := match g.mbx.vlog with | e :: _ => e.seq | [] => g.mbx.vnext
  let ahead (s : Nat) : Nat := (s + 2 ^ 32 - oldest) % 2 ^ 32
  let span := ahead g.mbx.vnext
  g.command c 0x78 (failIf (decide (span < ahead (from_ % 2 ^ 32))) .staleEpoch) (g.outside c.ring.val dst mx) fun g =>
    let es := (g.vlogFor c.ring.val).filter fun e => decide (ahead (from_ % 2 ^ 32) ≤ ahead e.seq)
    let (bs, n) := takeWhole mx (es.map vlogBytes)
    let next := match es[n]? with | some e => e.seq | none => g.mbx.vnext
    (g.write dst bs).done c 0x78 [(32, bs.length), (64, next)]

/-- SOURCE 2: the event recorder of an ATU, through its registers. -/
def Agg.recorderRead (g : Agg) (c : Caller) (port from_ mx dst : Nat) : Agg :=
  g.command c 0x78 (g.portCodes c port ++ failIf (g.dieLacks port 7) .notPresent) (g.outside c.ring.val dst mx) fun g =>
    g.startReg c.ring.val c.tag.toNat 0x78 port (.evrRead dst mx from_ 0) [rd 0x6010, rd 0x6014]

/-- EVENT_LOG_READ (R560). -/
def Agg.logRead (g : Agg) (c : Caller) (source port from_ mx dst : Nat) : Agg :=
  if source = 0 then g.eventLogRead c from_ mx dst
  else if source = 1 then g.violationRead c from_ mx dst
  else if source = 2 then g.recorderRead c port from_ mx dst
  else g.command c 0x78 [.badParam] none fun g => g

/-! ### The wait-for graph (R562 to R566) -/

/-- What a node of the graph stands for. -/
inductive WaitKey where
  | command (ring tag : Nat)
  | queued (ring : Nat)
  /-- A resource or an external party: KIND 3 or 4, its code, its byte 5, its index. -/
  | other (kind code sub index : Nat)
  deriving DecidableEq, Repr

/-- A node with its age in ns, and the ns until an external wait ends by itself. -/
structure WaitNode where
  key  : WaitKey
  age  : Nat
  ends : Option Nat := none
  opcode : Nat := 0
  tag  : Nat := 0
  pos  : Nat := 0
  deriving DecidableEq, Repr

/-- An edge: who waits, for what, and why (R565). -/
structure WaitEdge where
  src    : WaitKey
  dst    : WaitNode
  reason : Nat
  deriving DecidableEq, Repr

def Agg.commandNode (g : Agg) (i : Inflight) : WaitNode :=
  { key := .command i.ring i.tag, age := g.now - i.since, opcode := i.opcode, tag := i.tag, pos := i.sqPos }

/-- A wait for the ATU behind a port, which ends by itself 100 microseconds after the request left (R558). -/
def Agg.atuNode (g : Agg) (age : Nat) (j : RegJob) : WaitNode :=
  { key := .other 4 1 0 j.port, age := age, ends := some (match j.leftAt with | some t => t + 100000 - g.now | none => 100000) }

/-- What a command waits on for its register accesses (R543, R558). -/
def Agg.accessEdges (g : Agg) (i : Inflight) : List WaitEdge :=
  let me : WaitKey := .command i.ring i.tag
  (g.acc.jobs.filter fun j => decide (j.ring = i.ring ∧ j.tag = i.tag ∧ j.use ≠ .resetWrite)).map fun j =>
    match (g.acc.jobs.filter fun x => decide (x.ident < j.ident ∧ x.ring = j.ring ∧ x.port = j.port)).getLast?.bind fun x => g.inflightOf (x.ring, x.tag) with
    | some x => ⟨me, g.commandNode x, 3⟩
    | none => ⟨me, g.atuNode (g.now - i.since) j, 7⟩

/-- Runs of a STATION_RUN that wait for a station, or for an earlier run on the same memory (R436). -/
def Agg.runEdges (g : Agg) (i : Inflight) : List WaitEdge :=
  let mine (r : RunJob) : Bool := match r.who with | .command ring tag => decide (ring.val = i.ring ∧ tag.toNat = i.tag) | .program _ => false
  ((g.stn.runs.filter fun r => mine r && r.station.isNone)).map fun r =>
    if g.overlapsEarlier r then ⟨.command i.ring i.tag, { key := .other 3 6 0 0, age := g.now - i.since }, 5⟩
    else ⟨.command i.ring i.tag, { key := .other 3 5 r.desc.kind 0, age := g.now - i.since }, 6⟩

/-- The wait of one job's JOB_COMMIT beside its register accesses: a teardown that still holds a channel (R586), or the partner (R587). -/
def Agg.commitEdges (g : Agg) (me : WaitKey) (age n : Nat) : List WaitEdge :=
  let torn := (g.jobs.claims.filter fun x => decide (x.next = some n) && (g.job n).delayed.contains x.port).map fun x =>
    (⟨me, { key := .other 3 9 0 x.holder, age := age }, 6⟩ : WaitEdge)
  if !torn.isEmpty then torn
  else if g.acc.jobs.any fun j => decide (j.use = .commit n) then [] else [⟨me, { key := .other 4 2 0 0, age := age }, 7⟩]

/-- The waits of a command of the job chapters: a queued create for a free range (R572), a teardown for its last window (R589), a paste for
its decision (R601), a commit. DESIGN CHOICE, unsafe (notes/assumptions/141.md): which node of R565 stands for each. -/
def Agg.jobEdges (g : Agg) (i : Inflight) : List WaitEdge :=
  let me : WaitKey := .command i.ring i.tag
  let age := g.now - i.since
  let w := (i.ring, i.tag)
  let ends (x : Paste) : Nat := x.deadline + 50000000 - g.ht
  let creates := (g.jobs.queue.filter fun q => decide ((q.ring, q.tag) = w)).map fun _ => (⟨me, { key := .other 3 6 0 0, age := age }, 6⟩ : WaitEdge)
  let tears := (jobNumbers.filter fun n => decide ((g.job n).teardown = some w)).map fun n => (⟨me, { key := .other 3 9 0 n, age := age }, 6⟩ : WaitEdge)
  let receives := (g.jobs.waits.filter fun x => decide ((x.ring, x.tag) = w)).map fun (x : PasteWait) =>
    (⟨me, { key := .other 4 3 0 ((g.skim.cfg.bind (·.primary)).getD 0), age := age,
            ends := (g.jobs.pastes.find? fun (p : Paste) => decide (p.ident = x.paste)).map ends }, 7⟩ : WaitEdge)
  let sends := (g.jobs.pastes.filter fun p => decide (p.sender = some w)).map fun _ => (⟨me, { key := .other 3 8 0 0, age := age }, 6⟩ : WaitEdge)
  let commits := (jobNumbers.filter fun n => decide ((g.job n).committer = some w)).flatMap (g.commitEdges me age)
  creates ++ tears ++ receives ++ sends ++ commits

/-- Every other wait of a command in flight that has a node in R565: an ATU's return, the partner, a round from the skim parent, a drain. -/
def Agg.otherEdges (g : Agg) (i : Inflight) : List WaitEdge :=
  let me : WaitKey := .command i.ring i.tag
  let age := g.now - i.since
  let w := (i.ring, i.tag)
  let resets := (g.acc.resets.filter fun r => decide ((r.ring, r.tag) = w)).map fun (r : ResetWait) =>
    (⟨me, { key := .other 4 1 0 r.port, age := age, ends := some (r.since + 10000000 - g.now) }, 7⟩ : WaitEdge)
  let pair := if g.pair.starter = some w then [(⟨me, { key := .other 4 2 0 0, age := age }, 7⟩ : WaitEdge)] else []
  let drains := (g.ap.windows.filter fun x => decide (x.2.revoker = some w)).map fun x =>
    (⟨me, { key := .other 3 9 0 (x.1 % 65536), age := age }, 6⟩ : WaitEdge)
  let qps := (g.ap.qps.filter fun x => match x.2 with | some q => (q.drain.map fun d => (d.ring, d.tag)) == some w | none => false).map fun x =>
    (⟨me, { key := .other 3 9 1 (x.1 % 65536), age := age }, 6⟩ : WaitEdge)
  let rounds := (g.skim.asks.filter fun q => decide ((q.ring, q.tag) = w)).map fun (q : SkimAsk) =>
    (⟨me, { key := .other 4 3 0 (((g.roundOf q.round).bind (·.parent)).getD 0), age := age,
            ends := (g.roundOf q.round).map fun x => x.abortAt - g.ht }, 7⟩ : WaitEdge)
  resets ++ pair ++ drains ++ qps ++ rounds

def Agg.commandEdges (g : Agg) (i : Inflight) : List WaitEdge := g.accessEdges i ++ g.runEdges i ++ g.jobEdges i ++ g.otherEdges i

/-- A ring whose head descriptor waits (R536): behind FENCE or CHAIN, or found without room when it was taken up. -/
def Agg.headWaits (g : Agg) (n : Nat) : Bool :=
  let r := g.ring n
  decide (r.sqHead ≠ r.sqTail) && !r.faulted && (g.fenced n r.sqHead || ((r.cqNoted || r.tagNoted) && g.lacksRoom n r.sqHead))

def Agg.queuedNode (g : Agg) (n : Nat) : WaitNode :=
  let d := (g.ring n).descriptor (g.ring n).sqHead
  { key := .queued n, age := g.now - (g.ring n).headSince, opcode := leAt d 0 1, tag := leAt d 2 2, pos := (g.ring n).sqHead }

/-- What a waiting head descriptor waits on (R536 to R542): earlier commands behind FENCE or CHAIN, CQ space and the client, or tags and
the commands that hold them. -/
def Agg.queuedEdges (g : Agg) (n : Nat) : List WaitEdge :=
  let r := g.ring n
  let d := r.descriptor r.sqHead
  let fl := leAt d 4 1
  let age := g.now - r.headSince
  let ahead := g.mbx.inflight.filter (·.before n r.sqHead)
  if fl % 4 ≠ 0 && !ahead.isEmpty then ahead.map fun i => ⟨.queued n, g.commandNode i, if fl.testBit 0 then 1 else 2⟩
  else
    let need := match opInfo (leAt d 0 1) with | some i => i.slots + 1 | none => 2
    if 256 < g.cqUsed n + need then
      let cq : WaitNode := { key := .other 3 2 n n, age := age }
      [⟨.queued n, cq, 6⟩, ⟨cq.key, { key := .other 4 4 n n, age := age }, 9⟩]
    else
      let tags : WaitNode := { key := .other 3 1 0 0, age := age }
      ⟨.queued n, tags, 6⟩ :: (g.mbx.inflight.filter fun i => i.tagged && (i.shared || decide (i.ring = n))).map fun i => ⟨tags.key, g.commandNode i, 6⟩

/-- Add a node unless its key is there: an external party keeps the greatest age and the earliest end. -/
def addNode (ns : List WaitNode) (x : WaitNode) : List WaitNode :=
  if ns.any fun n => decide (n.key = x.key) then
    ns.map fun n => if n.key = x.key then { n with age := max n.age x.age, ends := match n.ends, x.ends with | some a, some b => some (min a b) | _, _ => none } else n
  else ns ++ [x]

/-- The nodes reachable from some keys. -/
def reachKeys (es : List WaitEdge) : Nat → List WaitKey → List WaitKey
  | 0, ks => ks
  | k + 1, ks => reachKeys es k (es.foldl (fun (ks : List WaitKey) e => if ks.contains e.src && !ks.contains e.dst.key then ks ++ [e.dst.key] else ks) ks)

/-- Nodes and edges of what some starting nodes reach. -/
def graphFrom (es : List WaitEdge) (start : List WaitNode) : List WaitNode × List WaitEdge :=
  let ks := reachKeys es (es.length + 1) (start.map (·.key))
  let es := es.filter fun e => ks.contains e.src
  (es.foldl (fun ns e => addNode ns e.dst) start, es)

/-- Bytes of a graph. -/
def graphSize (x : List WaitNode × List WaitEdge) : Nat := 32 + 16 * x.1.length + 8 * x.2.length

/-- Put a node before the first one that is younger. -/
def byAge (x : WaitNode) : List WaitNode → List WaitNode
  | [] => [x]
  | y :: l => if x.age ≤ y.age then y :: byAge x l else x :: y :: l

/-- The most of the oldest starting nodes whose graph fits (R564). -/
def fitGraph (es : List WaitEdge) (limit : Nat) : Nat → List WaitNode → List WaitNode × List WaitEdge
  | 0, _ => ([], [])
  | k + 1, start =>
    let x := graphFrom es (start.take (k + 1))
    if graphSize x ≤ limit then x else fitGraph es limit k start

/-- A node lies on a cycle when it reaches itself. -/
def onCycle (es : List WaitEdge) (k : WaitKey) : Bool :=
  (reachKeys es (es.length + 1) ((es.filter fun e => decide (e.src = k)).map (·.dst.key))).contains k

/-- Ways back to a node over nodes that have not been visited; each way is one cycle. -/
def waysBack (next : WaitKey → List WaitKey) (goal : WaitKey) : Nat → List WaitKey → WaitKey → Nat
  | 0, _, _ => 0
  | k + 1, free, x => ((next x).map fun y => if y = goal then 1 else if free.contains y then waysBack next goal k (free.erase y) y else 0).sum

/-- Each cycle once, counted at its first node (R566). -/
def cyclesOf (next : WaitKey → List WaitKey) : List WaitKey → Nat
  | [] => 0
  | k :: ks => waysBack next k (ks.length + 1) ks k + cyclesOf next ks

/-- CYCLES of a graph (R566). -/
def cycleCount (es : List WaitEdge) (ks : List WaitKey) : Nat :=
  cyclesOf (fun k => ((es.filter fun e => decide (e.src = k)).map (·.dst.key)).eraseDups) (ks.filter (onCycle es))

def keyNumber (ns : List WaitNode) (k : WaitKey) : Nat := ((ns.findIdx? fun n => decide (n.key = k)).getD 0) + 1

/-- A node record (R565). -/
def nodeBytes (ns : List WaitNode) (es : List WaitEdge) (n : WaitNode) : List Byte :=
  let terminal := !es.any fun e => decide (e.src = n.key)
  let us := min 0xFFFFFFFF (n.age / 1000)
  let head (kind : Nat) : List Byte := leBytes 2 (keyNumber ns n.key) ++ leBytes 1 kind ++ leBytes 1 (b2n terminal + 2 * b2n (onCycle es n.key))
  match n.key with
  | .command ring _ => head 1 ++ leBytes 1 ring ++ leBytes 1 n.opcode ++ leBytes 2 n.tag ++ leBytes 4 n.pos ++ leBytes 4 us
  | .queued ring => head 2 ++ leBytes 1 ring ++ leBytes 1 n.opcode ++ leBytes 2 n.tag ++ leBytes 4 n.pos ++ leBytes 4 us
  | .other kind code sub index =>
    let ends := if kind = 4 then (match n.ends with | some e => min 0xFFFFFFFE (e / 1000) | none => 0xFFFFFFFF) else 0
    head kind ++ leBytes 1 code ++ leBytes 1 sub ++ leBytes 2 index ++ leBytes 4 ends ++ leBytes 4 us

def edgeBytes (ns : List WaitNode) (e : WaitEdge) : List Byte :=
  leBytes 2 (keyNumber ns e.src) ++ leBytes 2 (keyNumber ns e.dst.key) ++ leBytes 1 e.reason ++ zeros 3

/-- The graph as it is written (R565). -/
def graphBytes (ht : Nat) (x : List WaitNode × List WaitEdge) (cycles : Nat) : List Byte :=
  let head := [0x3E, 1] ++ zeros 2 ++ leBytes 2 x.1.length ++ leBytes 2 x.2.length ++ leBytes 2 cycles ++ zeros 6 ++ leBytes 8 ht ++ zeros 4
  let recs := x.1.flatMap (nodeBytes x.1 x.2) ++ x.2.flatMap (edgeBytes x.1)
  head ++ leBytes 4 (crcOf crc32c (head ++ recs)) ++ recs

/-- The context that a command in flight, or the head descriptor of a ring, addresses (R546). -/
def Inflight.context (i : Inflight) : Nat := if i.ring = 0 then i.ctx else i.ring
def Agg.headContext (g : Agg) (n : Nat) : Nat := if n = 0 then leAt ((g.ring 0).descriptor (g.ring 0).sqHead) 6 1 else n

def WaitNode.isCommand (x : WaitNode) : Bool := match x.key with | .command _ _ => true | _ => false

/-- WAITFOR_GRAPH (R562 to R566). SCOPE 0 shows the commands of the caller's context, and none of another (R546). The command that takes the graph is no node of it. -/
def Agg.waitGraph (g : Agg) (c : Caller) (chip : Bool) (dst mx : Nat) : Agg :=
  g.command c 0x7A ((if chip then ring0Only c else []) ++ failIf (decide (mx < 32)) .badParam) (g.outside c.ring.val dst mx) fun g =>
    let cmds := g.mbx.inflight.filter fun i => !decide ((i.ring, i.tag) = who c) && (chip || decide (i.context = ctxOf c))
    let heads := ((List.range 17).filter g.headWaits).filter fun n => chip || decide (g.headContext n = ctxOf c)
    let seen := cmds.map g.commandNode ++ heads.map g.queuedNode
    let es := (cmds.flatMap g.commandEdges ++ heads.flatMap g.queuedEdges).filter fun e => !e.dst.isCommand || seen.any fun x => decide (x.key = e.dst.key)
    let start := seen.foldl (fun l x => byAge x l) []
    let whole := graphFrom es start
    let x := if graphSize whole ≤ mx then whole else fitGraph es mx start.length start
    let trunc := decide (graphSize whole ≠ graphSize x)
    let cycles := cycleCount x.2 (x.1.map (·.key))
    let bs := graphBytes g.ht x cycles
    let g := if cycles = 0 then g else (g.flag (mbxFlag 4)).event 0x29 2 0 (leBytes 2 cycles ++ zeros 6)
    (g.write dst bs).done c 0x7A [(16, x.1.length), (16, x.2.length), (16, cycles), (64, g.ht), (32, bs.length), (1, b2n trunc)]

end Sys2Proof.Machine
end

