-- ==== Sys2Proof/Machine/Rdma.lean ====
section
/-!
DEFINITION. Rdma.lean: the analysis ports, queue pairs, protection domains and memory windows: R603 to R627 of spec/16_windows.md.
-/
namespace Sys2Proof.Machine

def Agg.withAp (g : Agg) (f : ApUnit → ApUnit) : Agg := { g with ap := f g.ap }
def Agg.window (g : Agg) (w : Nat) : Window := sget {} g.ap.windows w
def Agg.setWindow (g : Agg) (w : Nat) (x : Window) : Agg := g.withAp fun u => { u with windows := sset {} u.windows w x }

/-- The ring bound to a queue pair, which lies in the context's protection domain (R531). -/
def Agg.boundRing (g : Agg) (qpn : Nat) : Option Nat :=
  (List.range 17).find? fun n => (g.ring n).bound && (g.ring n).rdma && decide ((g.ring n).qpn = qpn) && (g.qp qpn).any fun (q : Qp) => decide (q.pd = n)

/-! ### Responses under way (R613) -/

/-- A packet is one of a READ's responses. -/
def ReadOut.mine (r : ReadOut) (x : Roce) : Bool :=
  match x with | .readResponse q p _ => decide (q = r.qpn) && decide ((p + 2 ^ 24 - r.psn) % 2 ^ 24 < r.count) | _ => false

/-- Responses of a READ that have not left its port, in their order. -/
def Egress.waiting (e : Egress) (r : ReadOut) : List Roce := ((e.of 5).queue ++ e.held.map (·.2)).filter r.mine

/-- A READ's responses that have not left are dropped. -/
def Egress.purge (e : Egress) (r : ReadOut) : Egress :=
  { e.modQueue 5 (fun q => { q with queue := q.queue.filter fun x => !r.mine x }) with held := e.held.filter fun h => !r.mine h.2 }

/-- A READ has a response still to send. -/
def Agg.readLive (g : Agg) (r : ReadOut) : Bool := !((g.egress r.port).waiting r).isEmpty

/-- READs with a response still to send. -/
def Agg.liveReads (g : Agg) : List ReadOut := g.ap.reads.filter g.readLive

/-- The job context of a protection domain (R607). -/
def pdContext (pd : Nat) : Nat := if pd ≤ 16 then pd else 0

/-! ### Answers (R604, R618, R619) -/

/-- Packets of a queue pair in these classes leave a port's queues unsent. -/
def Egress.silence (e : Egress) (qpn : Nat) (cs : List Nat) : Egress :=
  cs.foldl (fun e c => e.modQueue c fun q => { q with queue := q.queue.filter fun x => decide (x.qpn ≠ qpn) })
    { e with held := e.held.filter fun h => !(cs.contains h.1 && decide (h.2.qpn = qpn)) }

/-- A queue pair in ERROR sends nothing: its responses and notices that have not left are dropped (R619). -/
def Agg.silence (g : Agg) (qpn port : Nat) (cs : List Nat) : Agg :=
  (g.withAp fun u => { u with reads := u.reads.map fun (r : ReadOut) => if r.qpn = qpn && g.readLive r then { r with lost := true } else r }).modEgress port
    (·.silence qpn cs)

/-- A NAK moves the queue pair to ERROR. What it had queued in the control class leaves before the NAK. -/
def Agg.nakQp (g : Agg) (qpn : Nat) (q : Qp) (psn code flagNo : Nat) : Agg :=
  let g := ((g.silence qpn q.port [5, 7]).setQp qpn { q with error := true, msg := none }).sendAp q.port 3 (.nak qpn psn code)
  ((g.inc (apBase q.port + 0x14) 1).flag (apFlag (flagNo % 8))).flag (apFlag 5)

/-- A remote-access NAK, with its entry of the violation log. -/
def Agg.nakAccess (g : Agg) (qpn : Nat) (q : Qp) (psn addr : Nat) : Agg :=
  (g.nakQp qpn q psn 2 3).violation (pdContext q.pd) 0 (statusCode .access) 0 2 (addr % 2 ^ 48)

/-- An invalid-request NAK. -/
def Agg.nakInvalid (g : Agg) (qpn : Nat) (q : Qp) (psn : Nat) : Agg := g.nakQp qpn q psn 1 4

/-- A remote-operational NAK: the memory's own error is logged elsewhere. -/
def Agg.nakOperational (g : Agg) (qpn : Nat) (q : Qp) (psn : Nat) : Agg :=
  let g := ((g.silence qpn q.port [5, 7]).setQp qpn { q with error := true, msg := none }).sendAp q.port 3 (.nak qpn psn 3)
  (g.inc (apBase q.port + 0x14) 1).flag (apFlag 5)

def Agg.ackQp (g : Agg) (qpn : Nat) (q : Qp) (psn : Nat) : Agg := (g.setQp qpn q).sendAp q.port 3 (.ack qpn psn)

/-- PSN of the next packet expected. -/
def Qp.next (q : Qp) (n : Nat) : Qp := { q with rqPsn := (q.rqPsn + n) % 2 ^ 24, gapNak := false }

/-! ### The check of a message (R606, R609, R611) -/

/-- What a request may touch. -/
inductive Target where
  | window (w : Nat)
  | ring (n : Nat)
  deriving DecidableEq, Repr

/-- The check of R609 and R611: the target, or the address that the violation log takes. A ring region is no part of the registers that a
window reaches (R522). -/
def Agg.rdmaCheck (g : Agg) (qpn : Nat) (q : Qp) (rkey va len : Nat) (wr : Bool) : Except Nat Target :=
  if rkey.testBit 31 then
    let n := rkey % 32
    let base := ringRegion n
    if decide (rkey / 32 % 2 ^ 26 = 0) && decide (g.boundRing qpn = some n) && decide (base ≤ va) && decide (va + len ≤ base + 0x10000) then
      (if 0x4000 < va - base + len ∧ ((0x4000 ≤ va - base ∧ va % 4 ≠ 0) ∨ (va + len) % 4 ≠ 0) then .error va else .ok (.ring n))
    else .error va
  else
    let i := rkey % 1024
    let w := g.window i
    if w.opened && w.instant.isNone && decide (w.gen = rkey / 1024 % 2 ^ 21) && decide (w.pd = q.pd) && (match w.qpn with | some x => decide (x = qpn) | none => true) &&
        decide (w.base ≤ va) && decide (va + len ≤ w.base + w.len) && w.access.testBit (b2n wr) then
      if w.base < 0x40000000 then (if va % 4 ≠ 0 then .error va else if len % 4 ≠ 0 then .error (va + len / 4 * 4)
        else if va < 0x20110000 ∧ 0x20000000 < va + len then .error (max va 0x20000000) else .ok (.window i)) else .ok (.window i)
    else .error va

/-- Registers written word by word in address order (R611). A ring region is reachable only through its bound queue pair (R522). -/
def Agg.writeRegs (g : Agg) (ringToo : Bool) (a : Nat) (bytes : List Byte) : Nat → Agg
  | 0 => g
  | k + 1 =>
    let g := if decide (a < 0x20000000) || ringToo then g.writeReg a (BitVec.ofNat 32 (leAt bytes 0 4)) else g
    g.writeRegs ringToo (a + 4) (bytes.drop 4) k

/-- Registers read word by word in address order. -/
def Agg.readRegs (g : Agg) (ringToo : Bool) (a : Nat) : Nat → Agg × List Byte
  | 0 => (g, [])
  | k + 1 =>
    let (g, v) := if decide (a < 0x20000000) || ringToo then g.readReg a else (g, 0)
    let (g, bs) := g.readRegs ringToo (a + 4) k
    (g, leBytes 4 v.toNat ++ bs)

/-- Bytes written through a window or into a ring region. -/
def Agg.rdmaStore (g : Agg) (a : Nat) (bytes : List Byte) : Agg :=
  if 0x40000000 ≤ a then g.write a bytes
  else if 0x20000000 ≤ a ∧ a % 0x10000 < 0x4000 then
    let k := 0x4000 - a % 0x10000
    (g.modRing (ringOf a) fun r => { r with sq := mwrite r.sq (a % 0x10000) (bytes.take k) }).writeRegs true (a + k) (bytes.drop k) ((bytes.length - k) / 4)
  else g.writeRegs (decide (0x20000000 ≤ a)) a bytes (bytes.length / 4)

/-- Bytes read through a window or from a ring region. -/
def Agg.rdmaLoad (g : Agg) (a n : Nat) : Agg × List Byte :=
  if 0x40000000 ≤ a then (g, g.read a n)
  else if 0x20000000 ≤ a ∧ a % 0x10000 < 0x4000 then
    let k := 0x4000 - a % 0x10000
    let r := g.readRegs true (a + k) ((n - k) / 4)
    (r.1, mread (g.ring (ringOf a)).sq (a % 0x10000) (min n k) ++ r.2)
  else g.readRegs (decide (0x20000000 ≤ a)) a (n / 4)

/-- A window on the register range does not reach the ring regions (R522). -/
def Agg.storeThrough (g : Agg) (t : Option Nat) (a : Nat) (bytes : List Byte) : Agg :=
  if t.isSome && decide (0x20000000 ≤ a ∧ a < 0x40000000) then g else g.rdmaStore a bytes
def Agg.loadThrough (g : Agg) (t : Option Nat) (a n : Nat) : Agg × List Byte :=
  if t.isSome && decide (0x20000000 ≤ a ∧ a < 0x40000000) then (g, zeros n) else g.rdmaLoad a n

def Target.windowNo (t : Target) : Option Nat := match t with | .window w => some w | .ring _ => none

/-! ### Packets in PSN order (R609, R613, R627) -/

def pmtuOf (q : Qp) : Nat := 1024 * 2 ^ min 2 q.pmtu

/-- A WRITE packet's bytes are written, and it is acknowledged. The last packet ends the message. -/
def Agg.takeWrite (g : Agg) (qpn : Nat) (q : Qp) (psn : Nat) (m : RdmaMsg) (bytes : List Byte) (last : Bool) : Agg :=
  let g := (g.storeThrough m.window (m.va + m.done) bytes).count (pdContext q.pd) 21 bytes.length
  let g := match m.window with
    | some w => if last && (g.window w).instant.isSome then g.setWindow w { g.window w with drained := (g.window w).drained + 1 } else g
    | none => g
  g.ackQp qpn { q.next 1 with msg := if last then none else some { m with done := m.done + bytes.length } } psn

/-- A WRITE packet (R609, R613). -/
def Agg.rdmaWriteIn (g : Agg) (qpn : Nat) (q : Qp) (p : RocePkt) : Agg :=
  let n := p.dat.length
  let first := decide (p.op = 0 ∨ p.op = 3)
  let last := decide (p.op = 2 ∨ p.op = 3)
  if first then
    if q.msg.isSome || decide (2 ^ 31 < p.dmaLen) || (if last then decide (n ≠ p.dmaLen) else decide (n ≠ pmtuOf q ∨ p.dmaLen ≤ n)) then g.nakInvalid qpn q p.psn
    else match g.rdmaCheck qpn q p.rkey p.va p.dmaLen true with
      | .error a => g.nakAccess qpn q p.psn a
      | .ok t => g.takeWrite qpn q p.psn { window := t.windowNo, va := p.va, len := p.dmaLen, done := 0 } p.dat last
  else match q.msg with
    | none => g.nakInvalid qpn q p.psn
    | some m =>
      if m.cut then g.nakAccess qpn q p.psn (m.va + m.done)
      else if (if last then decide (m.done + n ≠ m.len) else decide (n ≠ pmtuOf q ∨ m.len ≤ m.done + n)) then g.nakInvalid qpn q p.psn
      else g.takeWrite qpn q p.psn m p.dat last

/-- Response packets of a READ. -/
def readPackets (q : Qp) (len : Nat) : Nat := max 1 (ceilDiv len (pmtuOf q))

/-- The response packets themselves, in PSN order. -/
def readResponses (q : Qp) (qpn psn : Nat) (bs : List Byte) : List Roce :=
  (List.range (readPackets q bs.length)).map fun i => .readResponse qpn ((psn + i) % 2 ^ 24) (bytesAt bs (pmtuOf q * i) (pmtuOf q))

/-- A READ request: checked, and answered with its responses, or with a remote-operational NAK at a memory error (R609, R618). -/
def Agg.rdmaReadIn (g : Agg) (qpn : Nat) (q : Qp) (p : RocePkt) (fresh memError : Bool) : Agg :=
  if decide (2 ^ 31 < p.dmaLen) || (fresh && q.msg.isSome) then g.nakInvalid qpn q p.psn
  else match g.rdmaCheck qpn q p.rkey p.va p.dmaLen false with
    | .error a => g.nakAccess qpn q p.psn a
    | .ok t =>
      if memError then g.nakOperational qpn q p.psn
      else
        let k := readPackets q p.dmaLen
        let (g, bs) := g.loadThrough t.windowNo p.va p.dmaLen
        let g := (readResponses q qpn p.psn bs).foldl (fun g x => g.sendAp q.port 5 x)
          ((g.count (pdContext q.pd) 20 p.dmaLen).setQp qpn (if fresh then q.next k else q))
        g.withAp fun u => { u with reads := u.reads.filter (fun r => r.atTr || g.readLive r) ++ [⟨qpn, q.port, p.psn, k, pmtuOf q, p.va, t.windowNo, false, false⟩] }

/-- An inbound SEND: a doorbell of the bound ring (R627). -/
def Agg.rdmaSendIn (g : Agg) (qpn : Nat) (q : Qp) (p : RocePkt) : Agg :=
  match g.boundRing qpn with
  | some n =>
    if p.op = 8 ∧ 4 ≤ p.dat.length ∧ p.dat.length ≤ 8 then (g.ackQp qpn (q.next 1) p.psn).sqDoorbell n (leAt p.dat 0 4)
    else g.nakInvalid qpn q p.psn
  | none => g.nakInvalid qpn q p.psn

/-- A packet of a cached queue pair: PSN order, duplicates, and the request (R605, R614, R618). While the queue pair drains it takes no new
message (R625; DESIGN CHOICE, safe: notes/assumptions/128.md: such a packet has no answer). -/
def Agg.processPkt (g : Agg) (p : RocePkt) (memError : Bool) : Agg :=
  match g.qp p.qpn with
  | none => (g.inc (apBase 0 + 0x1C) 1).flag (apFlag 7)
  | some q =>
    let q := { q with lastUse := g.now }
    if q.error then (g.setQp p.qpn q).inc (apBase q.port + 0x18) 1
    else if 8 < p.op then g.nakInvalid p.qpn q p.psn
    else
      let d := (p.psn + 2 ^ 24 - q.rqPsn) % 2 ^ 24
      if d = 0 ∧ q.drain.isSome ∧ p.op ≠ 1 ∧ p.op ≠ 2 then g.setQp p.qpn q
      else if d = 0 then
        if p.op ≤ 3 then g.rdmaWriteIn p.qpn q p else if p.op = 4 then g.rdmaReadIn p.qpn q p true memError else g.rdmaSendIn p.qpn q p
      else if d < 2 ^ 23 then
        if q.gapNak then g.setQp p.qpn q
        else ((g.setQp p.qpn { q with gapNak := true }).sendAp q.port 3 (.nak p.qpn q.rqPsn 0)).inc (apBase q.port + 0x14) 1
      else if p.op = 4 then g.rdmaReadIn p.qpn q p false memError
      else g.ackQp p.qpn q p.psn

/-! ### Arrival, parking and the context cache (R604, R605, R620 to R623) -/

/-- A CE mark answers with a CNP, at most one per queue pair in 50 microseconds (R604). -/
def Agg.congest (g : Agg) (p : RocePkt) : Agg :=
  match g.qp p.qpn with
  | none => g
  | some q =>
    let due := match q.lastCnp with | some t => decide (t + 50000 ≤ g.now) | none => true
    if p.ce && due && !q.error then
      ((g.setQp p.qpn { q with lastCnp := some g.now }).sendAp q.port 3 (.cnp p.qpn)).incFldSat (apBase q.port + 0x20) 15 0
    else g

/-- RDMA_WRITE, RDMA_READ and RDMA_SEND: a RoCEv2 packet arrives on an analysis port. -/
def Agg.rdmaIn (g : Agg) (port : Nat) (p : RocePkt) (memError : Bool) : Agg :=
  if !g.fwRuns || !(if port = 0 then g.ap.up0 else g.ap.up1) then g
  else
    let g := g.inc (apBase port) 1
    match g.qp p.qpn with
    | none => (g.inc (apBase port + 0x1C) 1).flag (apFlag 7)
    | some q =>
      let g := g.congest p
      if q.cached then g.processPkt p memError
      else if 64 ≤ (g.parked port).length then (g.inc (apBase port + 0x10) 1).flag (apFlag 2)
      else
        let g := g.setParked port (g.parked port ++ [{ p with memErr := memError }])
        let n := g.ap.parked0.length + g.ap.parked1.length
        if g.fld 0xB0010 23 16 < n then g.setFld 0xB0010 23 16 n else g

/-- Queue pairs in use. -/
def Agg.liveQps (g : Agg) : List (Nat × Qp) := g.ap.qps.filterMap fun q => q.2.map fun x => (q.1, x)

/-- A context that may leave the cache (R621). -/
def Agg.evictable (g : Agg) (q : Nat × Qp) : Bool := q.2.cached && q.2.msg.isNone && q.2.unacked.isEmpty && (g.boundRing q.1).isNone && !g.liveReads.any fun r => decide (r.qpn = q.1)

/-- Room for one context in the cache: the least recently used evictable one leaves. False where none can. -/
def Agg.cacheRoom (g : Agg) : Agg × Bool :=
  if g.isT || decide ((g.liveQps.filter (·.2.cached)).length < 256) then (g, true)
  else
    let pick (best : Option (Nat × Qp)) (q : Nat × Qp) : Option (Nat × Qp) :=
      if !g.evictable q then best else match best with | some b => if q.2.lastUse < b.2.lastUse then some q else best | none => some q
    match g.liveQps.foldl pick none with
    | some (n, q) => (g.setQp n { q with cached := false }, true)
    | none => (g, false)

/-- QP_CONTEXT_FETCHED (R622): the parked packets of the queue pair are processed in arrival order. -/
def Agg.contextFetched (g : Agg) (qpn ns : Nat) : Agg :=
  match g.qp qpn with
  | none => g
  | some q =>
    if q.cached then g
    else if !g.cacheRoom.2 then g
    else
      let g := g.cacheRoom.1
      let g := g.setQp qpn { q with cached := true, lastUse := g.now }
      let g := if (g.reg 0xB0014).toNat < ns then g.setRegN 0xB0014 ns else g
      let mine := (g.ap.parked0 ++ g.ap.parked1).filter fun p => decide (p.qpn = qpn)
      let g := g.withAp fun u => { u with parked0 := u.parked0.filter (fun p => decide (p.qpn ≠ qpn)), parked1 := u.parked1.filter fun p => decide (p.qpn ≠ qpn) }
      mine.foldl (fun g p => g.processPkt p p.memErr) g

/-! ### The aggregator as requester (R605) -/

/-- Send the packets that are not acknowledged again. -/
def Agg.resendAll (g : Agg) (qpn : Nat) (q : Qp) : Agg :=
  q.unacked.foldl (fun g r => g.sendAp q.port (if r.send then 7 else 3)
    (if r.send then .rdmaSend qpn r.psn r.bytes else .rdmaWrite qpn r.psn r.va r.rkey r.bytes)) g

/-- A queue pair enters ERROR without a NAK of its own. -/
def Agg.failQp (g : Agg) (qpn : Nat) (q : Qp) : Agg := ((g.silence qpn q.port [3, 5, 7]).setQp qpn { q with error := true, msg := none, unacked := [] }).flag (apFlag 5)

/-- LOCAL_ACK_TIMEOUT. -/
def Agg.ackTimeout (g : Agg) (qpn : Nat) : Agg :=
  match g.qp qpn with
  | none => g
  | some q =>
    let wait := if q.timeout = 0 then 1000000 else 4096 * 2 ^ q.timeout
    if q.error || q.unacked.isEmpty || decide (g.now < q.sentAt + wait) then g
    else if q.retry ≤ q.tries then g.failQp qpn q
    else
      let q := { q with tries := q.tries + 1, sentAt := g.now }
      (g.setQp qpn q).resendAll qpn q

/-- Whether a packet still waits after an ACK of `psn`; a NAK of `psn` leaves that packet itself. -/
def stillUnacked (psn : Nat) (nak : Bool) (r : ReqPkt) : Bool :=
  let d := (r.psn + 2 ^ 24 - psn) % 2 ^ 24
  decide (d < 2 ^ 23) && (decide (d ≠ 0) || nak)

/-- REQUESTER_ACK_RECEIVE: an ACK of every packet up to a PSN, or a NAK with its AETH code. -/
def Agg.requesterAck (g : Agg) (qpn psn : Nat) (nak : Option Nat) : Agg :=
  match g.qp qpn with
  | none => g
  | some q =>
    if q.error then g
    else
      let q := { q with unacked := q.unacked.filter (stillUnacked psn nak.isSome), sentAt := g.now, tries := 0 }
      match nak with
      | none => g.setQp qpn q
      | some 0 => (g.setQp qpn q).resendAll qpn q
      | some _ => g.failQp qpn q

/-- CNP_RECEIVE (R604). -/
def Agg.cnpReceive (g : Agg) (port : Nat) : Agg := (g.inc (apBase port) 1).incFldSat (apBase port + 0x20) 31 16

/-- ANALYSIS_PORT_LINK_CHANGE (R603, R635). -/
def Agg.apLink (g : Agg) (port : Nat) (up : Bool) : Agg :=
  let was := if port = 0 then g.ap.up0 else g.ap.up1
  let g := g.withAp fun u => if port = 0 then { u with up0 := up } else { u with up1 := up }
  if was && !up then g.flag (apFlag (port % 2)) else g

/-! ### Windows (R610 to R617) -/

/-- A range of the register range. -/
def inRegRange (base len : Nat) : Bool := decide (base + len ≤ 0x40000000)

/-- WINDOW_OPEN (R610, R615). -/
def Agg.windowOpen (g : Agg) (c : Caller) (pd base len access : Nat) (qpn : Option Nat) (notify : Bool) : Agg :=
  let bad := if inRegRange base len then none else g.outside c.ring.val base len
  let free := (List.range 1024).find? fun w => !(g.window w).opened
  let strange := match qpn with | some n => (match g.qp n with | some q => decide (q.pd ≠ pd) | none => true) | none => false
  g.command c 0x60 (failIf (decide (c.ring.val ≠ 0) && (decide (pd ≠ c.ring.val) || decide (base < 0x40000000))) .privilege ++
      failIf (decide (base < 0x40000000 ∧ 1 ≤ pd ∧ pd ≤ 16)) .privilege ++
      failIf (!g.ap.pds.contains pd || decide (base % 64 ≠ 0 ∨ len % 64 ≠ 0 ∨ len = 0 ∨ access % 4 = 0) || strange) .badParam ++
      failIf free.isNone .noResource) bad fun g =>
    match free with
    | none => g
    | some w =>
      let gen := ((g.window w).gen + 1) % 2 ^ 21
      let x : Window := { opened := true, gen := gen, pd := pd, base := base, len := len, access := access % 4, qpn := qpn, notify := notify }
      (g.setWindow w x).done c 0x60 [(10, w), (32, w + 1024 * gen)]

/-- WINDOW_REVOKE (R612, R616). -/
def Agg.windowRevoke (g : Agg) (c : Caller) (w rkey : Nat) : Agg :=
  let x := g.window w
  let names := x.opened && decide (rkey = w + 1024 * x.gen)
  g.command c 0x61 (failIf (decide (c.ring.val ≠ 0) && names && decide (x.pd ≠ c.ring.val)) .privilege ++ failIf (!names) .badParam ++ failIf x.draining.isSome .conflict) none
    fun g => g.setWindow w { x with draining := some g.now, revoker := some (who c), drained := 0 }

/-- REVOKE_INSTANT: T_r is reached on both ports (R612). -/
def Agg.revokeInstant (g : Agg) (w : Nat) : Agg :=
  let x := g.window w
  if x.opened && x.draining.isSome && x.instant.isNone then
    (g.setWindow w { x with instant := some (g.now, g.ht) }).withAp fun u =>
      { u with reads := (u.reads.filter fun r => r.atTr || g.readLive r).map fun r => if r.window = some w then { r with atTr := true } else r }
  else g

/-- Queue pairs with an admitted message of a window under way. -/
def Agg.openMessages (g : Agg) (w : Nat) : List (Nat × Qp) :=
  g.liveQps.filter fun q => match q.2.msg with | some m => decide (m.window = some w) && !m.cut | none => false

/-- READs of a window with a response still to send. -/
def Agg.openReads (g : Agg) (w : Nat) : List ReadOut := g.liveReads.filter fun r => decide (r.window = some w)

/-- A READ is cut (R613): a remote-access NAK goes in place of its remaining responses. -/
def Agg.cutRead (g : Agg) (r : ReadOut) : Agg :=
  let left := ((g.egress r.port).waiting r).length
  let i := r.count - left
  if left = 0 then g
  else
    let g := g.modEgress r.port (·.purge r)
    match g.qp r.qpn with
    | some q => if q.error then g else g.nakAccess r.qpn q ((r.psn + i) % 2 ^ 24) (r.va + r.pmtu * i)
    | none => g

/-- The notice of a revocation (R617). -/
def noticeBytes (w rkey ht : Nat) : List Byte := withCrc crc32c ([0x4E, 1] ++ leBytes 2 w ++ leBytes 4 rkey ++ leBytes 8 ht ++ zeros 12)

/-- The revocation completes, and its notices leave (R615 to R617). Of the READs under way at T_r, `rs` were cut. -/
def Agg.endRevoke (g : Agg) (w writesCut : Nat) (rs : List ReadOut) : Agg :=
  let x := g.window w
  let ht := match x.instant with | some t => t.2 | none => 0
  let ended (r : ReadOut) : Bool := r.atTr && decide (r.window = some w)
  let drained := x.drained + (g.ap.reads.filter fun r => ended r && !r.lost && !rs.any fun y => decide (y.qpn = r.qpn ∧ y.psn = r.psn)).length
  let g := (g.setWindow w { x with opened := false, draining := none, instant := none, revoker := none }).withAp fun u =>
    { u with reads := u.reads.filter fun r => !ended r }
  let g := match x.revoker with | some c => g.complete c 0x61 .ok [(64, ht), (16, drained), (16, writesCut + rs.length)] | none => g
  if x.notify then (g.liveQps.filter fun q => decide (q.2.pd = x.pd)).foldl (fun g q => g.push q.1 0 0 (noticeBytes w (w + 1024 * x.gen) ht) true) g else g

/-- REVOKE_DRAINED (R613): every admitted message has ended. -/
def Agg.revokeDrained (g : Agg) (w : Nat) : Agg :=
  let x := g.window w
  if x.opened && x.instant.isSome && (g.openMessages w).isEmpty && (g.openReads w).isEmpty then g.endRevoke w 0 [] else g

/-- REVOKE_DRAIN_BOUND (R613): what remains is cut. -/
def Agg.revokeBound (g : Agg) (w : Nat) : Agg :=
  let x := g.window w
  match x.instant with
  | none => g
  | some (t, _) =>
    if !x.opened || decide (g.now < t + 20000) then g
    else
      let l := g.openMessages w
      let rs := g.openReads w
      let g := l.foldl (fun g q => g.setQp q.1 { q.2 with msg := q.2.msg.map fun m => { m with cut := true } }) g
      let g := rs.foldl Agg.cutRead g
      (if l.isEmpty && rs.isEmpty then g else g.flag (apFlag 6)).endRevoke w l.length rs

/-! ### Queue pairs and protection domains (R624 to R626) -/

/-- The parameters of a command as numbers. -/
def qpArgs (x : QpParams) : QpArgs :=
  { port := x.port.toNat, pmtu := x.pmtu.toNat, dest := x.dest.toNat, sqPsn := x.sqPsn.toNat, rqPsn := x.rqPsn.toNat,
    timeout := x.timeout.toNat, retry := x.retry.toNat, mac := x.mac.toNat, gid := x.gid.toNat }

def QpArgs.make (a : QpArgs) (pd now : Nat) (cached : Bool) : Qp :=
  { pd := pd, port := a.port, pmtu := a.pmtu, dest := a.dest, sqPsn := a.sqPsn, rqPsn := a.rqPsn, timeout := a.timeout, retry := a.retry, mac := a.mac, gid := a.gid,
    cached := cached, lastUse := now }

/-- QP_CREATE CREATE. -/
def Agg.qpCreate (g : Agg) (c : Caller) (pd : Nat) (a : QpArgs) : Agg :=
  let free := ((List.range (if g.isT then 256 else 4096)).map (0x1000 + ·)).find? fun n => (g.qp n).isNone
  g.command c 0x63 (ring0Only c ++ failIf (!g.ap.pds.contains pd || decide (a.pmtu = 3)) .badParam ++ failIf free.isNone .noResource) none fun g =>
    match free with
    | none => g
    | some n =>
      let (g, room) := g.cacheRoom
      (g.setQp n (a.make pd g.now room)).done c 0x63 [(24, n)]

/-- READs of a queue pair with a response still to send. -/
def Agg.qpReads (g : Agg) (qpn : Nat) : List ReadOut := g.liveReads.filter fun r => decide (r.qpn = qpn)

/-- A queue pair has an admitted message that has not ended. -/
def Agg.qpBusy (g : Agg) (qpn : Nat) (q : Qp) : Bool := (q.msg.any fun m => !m.cut) || !(g.qpReads qpn).isEmpty

/-- After RECONNECT the kept completions of a bound ring are written again, and then the tail (R619). -/
def Agg.rewriteCq (g : Agg) (qpn : Nat) : Agg :=
  match g.boundRing qpn with
  | none => g
  | some n =>
    let r := g.ring n
    let g := r.cqKept.zipIdx.foldl (fun g s => g.push qpn (r.cqAddr + 32 * ((r.cqHead + s.2) % 256)) r.cqRkey s.1 false) g
    g.push qpn (r.cqAddr + 8192) r.cqRkey (leBytes 4 r.cqTail) false

/-- The drain of a queue pair ends (R613, R624, R625): what remains is cut, and the queue pair is freed, or set to its new parameters. -/
def Agg.endQpDrain (g : Agg) (qpn : Nat) (q : Qp) (d : QpDrain) : Agg :=
  let g := if g.qpBusy qpn q then g.flag (apFlag 6) else g
  let g := ((g.qpReads qpn).foldl Agg.cutRead g).loseParked qpn
  match d.again with
  | some a => ((g.setQp qpn (a.make q.pd g.now q.cached)).rewriteCq qpn).complete (d.ring, d.tag) 0x63 .ok [(24, qpn)]
  | none => (g.withAp fun u => { u with qps := sset none u.qps qpn none }).complete (d.ring, d.tag) d.op (if d.op = 0x64 then .ok else .aborted) []

/-- A queue pair is to be drained: at once where no admitted message is under way. -/
def Agg.drainQp (g : Agg) (qpn : Nat) (d : QpDrain) : Agg :=
  match g.qp qpn with
  | none => g
  | some q => if g.qpBusy qpn q then g.setQp qpn { q with drain := some d } else g.endQpDrain qpn q d

/-- A queue pair whose drain is over, or has met its bound of 20 µs. -/
def Agg.drainOne (g : Agg) (qpn : Nat) : Agg :=
  match g.qp qpn with
  | none => g
  | some q => match q.drain with
    | none => g
    | some d => if g.qpBusy qpn q && decide (g.now < d.since + 20000) then g else g.endQpDrain qpn q d

/-- Queue pairs that drain, at each instant. -/
def Agg.qpDrains (g : Agg) : Agg := if g.fwRuns then (g.liveQps.map (·.1)).foldl Agg.drainOne g else g

/-- QP_CREATE RECONNECT. -/
def Agg.qpReconnect (g : Agg) (c : Caller) (qpn : Nat) (a : QpArgs) : Agg :=
  g.command c 0x63 (ring0Only c ++ failIf ((g.qp qpn).isNone || decide (a.pmtu = 3)) .badParam ++ failIf ((g.qp qpn).any (·.drain.isSome)) .conflict) none fun g =>
    g.drainQp qpn ⟨g.now, c.ring.val, c.tag.toNat, 0x63, some a⟩

/-- QP_DESTROY. -/
def Agg.qpDestroy (g : Agg) (c : Caller) (qpn : Nat) : Agg :=
  g.command c 0x64 (ring0Only c ++ failIf (g.qp qpn).isNone .badParam ++ failIf ((g.boundRing qpn).isSome || (g.qp qpn).any (·.drain.isSome)) .conflict) none fun g =>
    g.drainQp qpn ⟨g.now, c.ring.val, c.tag.toNat, 0x64, none⟩

/-- PD_CREATE. -/
def Agg.pdCreate (g : Agg) (c : Caller) : Agg :=
  let free := ((List.range 47).map (17 + ·)).find? fun n => !g.ap.pds.contains n
  g.command c 0x62 (ring0Only c ++ failIf free.isNone .noResource) none fun g =>
    match free with
    | none => g
    | some n => (g.withAp fun u => { u with pds := u.pds ++ [n] }).done c 0x62 [(6, n)]

/-- PD_CREATE DESTROY. -/
def Agg.pdDestroy (g : Agg) (c : Caller) (pd : Nat) : Agg :=
  let used := (g.ap.windows.any fun w => w.2.opened && decide (w.2.pd = pd)) || g.liveQps.any fun q => decide (q.2.pd = pd)
  g.command c 0x62 (ring0Only c ++ failIf (decide (pd < 17 ∨ 63 < pd) || !g.ap.pds.contains pd) .badParam ++ failIf used .conflict) none fun g =>
    (g.withAp fun u => { u with pds := u.pds.filter (· ≠ pd) }).done c 0x62 []

end Sys2Proof.Machine
end

