-- ==== Sys2Proof/Machine/Descriptors.lean ====
section
/-!
DEFINITION. Descriptors.lean: the descriptor at the head of a ring becomes its command: R532, R533, R536 to R539, R542 and R563 of
spec/14_mailboxes.md.
-/
namespace Sys2Proof.Machine

/-- Parameters of these widths in the order of PARAMS (R533). -/
def unpackParams : List Nat → List Byte → List Nat
  | [], _ => []
  | w :: ws, l => leAt l 0 (fieldBytes w) :: unpackParams ws (l.drop (fieldBytes w))

/-- A parameter behind its VALID bit. -/
def validParam (valid x : Nat) : Option Nat := if valid = 0 then none else some x

/-- The parameters of SKIM_TREE_SET CONFIGURE (R397). -/
def treeParams (p : Nat → Nat) : TreeArgs :=
  { act := BitVec.ofNat 40 (p 0), root := decide (p 1 ≠ 0), depth := BitVec.ofNat 3 (p 2), primary := (validParam (p 4) (p 3)).map (Fin.ofNat 32),
    alt := (validParam (p 6) (p 5)).map (Fin.ofNat 32), childMask := BitVec.ofNat 32 (p 7), hallNodes := BitVec.ofNat 12 (p 8),
    windows := BitVec.ofNat 15 (p 9), sealUs := BitVec.ofNat 10 (p 10), schedDepth := BitVec.ofNat 3 (p 11), stageUs := BitVec.ofNat 10 (p 12),
    dstageUs := BitVec.ofNat 10 (p 13), abortUs := BitVec.ofNat 12 (p 14), quorumPm := BitVec.ofNat 10 (p 15) }

/-- The parameters of QP_CREATE behind QPN and PD (R624). -/
def qpParams (p : Nat → Nat) : QpArgs :=
  { port := p 2, pmtu := p 3, dest := p 4, sqPsn := p 5, rqPsn := p 6, timeout := p 7, retry := p 8, mac := p 9, gid := p 10 }

/-- The commands on the chip and its time. -/
def Agg.runTime (g : Agg) (c : Caller) (op fn : Nat) (p : Nat → Nat) : Agg :=
  match op, fn with
  | 0x00, 0 => g.nop c
  | 0x01, 0 => g.getInfo c
  | 0x02, 0 => g.getCaps c
  | 0x03, 0 => g.readCounters c (p 0)
  | 0x04, 0 => g.readGlobal c (p 0)
  | 0x05, 0 => g.selectSource c (p 0) (decide (p 1 ≠ 0))
  | 0x05, 1 => g.scheduleInit c (p 0) (p 1)
  | 0x05, 2 => g.scheduleChange c (p 0) (p 1)
  | 0x05, 3 => g.linkAsym c (p 0) (signedOf 32 (p 1))
  | 0x05, 4 => g.dieportAsym c (p 0) (signedOf 32 (p 1))
  | 0x06, 0 => g.getTimeStatus c (p 0)
  | _, _ => g.checked c op [.badParam] none id

/-- The commands on jobs. -/
def Agg.runJob (g : Agg) (c : Caller) (op fn : Nat) (p : Nat → Nat) (free : Nat → Nat) : Agg :=
  match op, fn with
  | 0x10, 0 => g.jobCreate c (p 0) (p 1) (p 2) (p 3) (p 4)
  | 0x11, 0 => g.addDies c (p 0) (p 1)
  | 0x12, 0 => g.loadLocal c (p 0) (p 1)
  | 0x12, 1 => g.pasteReceive c (p 0) (p 1)
  | 0x12, 2 => g.pasteSend c (p 0) (p 1) (p 2) (p 3) (p 4)
  | 0x13, 0 => g.jobArm c (p 0) (p 1)
  | 0x14, 0 => g.jobCommit c (p 0)
  | 0x14, 1 => g.jobDisarm c
  | 0x15, 0 => g.jobTeardown c (p 0) free
  | 0x16, 0 => g.jobStatus c
  | _, _ => g.checked c op [.badParam] none id

/-- The commands on the ATUs. -/
def Agg.runAtu (g : Agg) (c : Caller) (op fn : Nat) (p : Nat → Nat) : Agg :=
  match op, fn with
  | 0x20, 0 => g.atuWrite c (p 0) (p 1) (p 2)
  | 0x21, 0 => g.atuRead c (p 0) (p 1) (p 2)
  | 0x22, 0 => g.atuReset c (p 0) (decide (p 1 ≠ 0))
  | 0x23, 0 => g.traceCtlStart c (p 0)
  | 0x23, 1 => g.traceCtlStop c (p 0)
  | 0x23, 2 => g.traceCtlAuth c (p 0) (p 1) (p 2)
  | 0x23, 3 => g.traceCtlStatus c (p 0)
  | 0x24, 0 => g.sandSet c (p 0) (p 1) (p 2) (p 3) (p 4)
  | 0x24, 1 => g.sandRunNow c (p 0) (p 1)
  | 0x24, 2 => g.sandClear c (p 0) (p 1)
  | 0x24, 3 => g.sandStatus c (p 0)
  | _, _ => g.checked c op [.badParam] none id

/-- The commands on the skim, the stations, the Stencil and the entities. -/
def Agg.runScore (g : Agg) (c : Caller) (op fn : Nat) (p : Nat → Nat) (free : Nat → Nat) : Agg :=
  match op, fn with
  | 0x30, 0 => g.setMetrics c (p 0) (p 1) (p 2) (p 3)
  | 0x31, 0 => g.treeConfigure c (treeParams p)
  | 0x31, 1 => g.treeReturn c
  | 0x31, 2 => g.treeDissolve c (p 0)
  | 0x32, 0 => g.skimStatus c (p 0) (p 1)
  | 0x40, 0 => g.stationRun c (p 0) (p 1)
  | 0x40, 1 => g.stationKat c (p 0) (p 1) (decide (p 2 ≠ 0)) (p 3) false 0 free
  | 0x40, 2 => g.stationService c (p 0) (p 1) (decide (p 2 ≠ 0))
  | 0x40, 3 => g.stationStatus c (p 0) (p 1)
  | 0x41, 0 => g.stencilLoad c (p 0) (p 1) (p 2)
  | 0x41, 1 => g.stencilActivate c (p 0) (p 1)
  | 0x41, 2 => g.stencilUnload c (p 0) (p 1)
  | 0x41, 3 => g.stencilStatus c (p 0)
  | 0x42, 0 => g.entityPut c (p 0) (p 1) (p 2)
  | 0x42, 1 => g.entityDelete c (p 0) (p 1)
  | 0x42, 2 => g.entityRead c (p 0) (p 1)
  | 0x42, 3 => g.entityStatus c
  | _, _ => g.checked c op [.badParam] none id

/-- The commands on verdicts. -/
def Agg.runVerdict (g : Agg) (c : Caller) (op fn : Nat) (p : Nat → Nat) : Agg :=
  match op, fn with
  | 0x50, 0 => g.verdictRecords c (p 0) (p 1) (p 2) (p 3)
  | 0x50, 1 => g.verdictRecs c (p 0) (p 1) (p 2)
  | 0x51, 0 => g.dustConfigure c (p 0) (p 1) (p 2) (validParam (p 4) (p 3)) (decide (p 5 ≠ 0))
  | 0x51, 1 => g.dustClear c
  | 0x51, 2 => g.dustSeed c (p 0)
  | 0x51, 3 => g.dustStatus c
  | 0x52, 0 => g.expelApply c (p 0) (p 1) (p 2) (p 3) (p 4) (p 5)
  | 0x52, 1 => g.expelRestore c (p 0)
  | 0x53, 0 => g.disagreeStatus c (p 0)
  | _, _ => g.checked c op [.badParam] none id

/-- The commands on windows, queue pairs, the CVU, the codec, the log, power and the pair. -/
def Agg.runUnit (g : Agg) (c : Caller) (op fn : Nat) (p : Nat → Nat) : Agg :=
  match op, fn with
  | 0x60, 0 => g.windowOpen c (p 0) (p 1) (p 2) (p 3) (validParam (p 5) (p 4)) (decide (p 6 ≠ 0))
  | 0x61, 0 => g.windowRevoke c (p 0) (p 1)
  | 0x62, 0 => g.pdCreate c
  | 0x62, 1 => g.pdDestroy c (p 0)
  | 0x63, 0 => g.qpCreate c (p 1) (qpParams p)
  | 0x63, 1 => g.qpReconnect c (p 0) (qpParams p)
  | 0x64, 0 => g.qpDestroy c (p 0)
  | 0x70, 0 => g.cvuConfigure c (p 0) (p 1) (p 2) (p 3) (decide (p 4 ≠ 0)) (decide (p 5 ≠ 0)) (p 6)
  | 0x70, 1 => g.cvuScan c (p 0) (p 1) (p 2) (decide (p 3 ≠ 0))
  | 0x70, 2 => g.cvuRead c (p 0)
  | 0x70, 3 => g.cvuWrite c (p 0) (p 1)
  | 0x71, 0 => g.codecRun c true (decide (p 1 ≠ 0)) (p 0) (p 2) (p 3) (p 4) (p 5)
  | 0x71, 1 => g.codecRun c false (decide (p 1 ≠ 0)) (p 0) (p 2) (p 3) (p 4) (p 5)
  | 0x72, 0 => g.codecSave c (p 0) (p 1) (decide (p 2 ≠ 0))
  | 0x73, 0 => g.codecRestore c (p 0) (p 1)
  | 0x78, 0 => g.logRead c (p 0) (p 1) (p 2) (p 3) (p 4)
  | 0x7A, 0 => g.waitGraph c (decide (p 0 ≠ 0)) (p 1) (p 2)
  | 0x7C, 0 => g.powerSetState c (p 0)
  | 0x7C, 1 => g.powerSetCap c (p 0)
  | 0x7C, 2 => g.powerSetMargin c (p 0) (p 1)
  | 0x7C, 3 => g.powerStatus c
  | 0x7E, 0 => g.syncStart c (p 0) (decide (p 1 ≠ 0)) none
  | 0x7F, 0 => g.pairStatus c
  | _, _ => g.checked c op [.badParam] none id

/-- The command that an opcode and FUNCTION name, with its parameters (R549). A FUNCTION that the opcode does not have is BAD_PARAM. What a
known-answer test finds and what the partner answers to a sync comes with the row of that command. -/
def Agg.runDescr (g : Agg) (c : Caller) (op fn : Nat) (p : Nat → Nat) (free : Nat → Nat) : Agg :=
  if op < 0x10 then g.runTime c op fn p
  else if op < 0x20 then g.runJob c op fn p free
  else if op < 0x30 then g.runAtu c op fn p
  else if op < 0x50 then g.runScore c op fn p free
  else if op < 0x60 then g.runVerdict c op fn p
  else g.runUnit c op fn p

/-- Commands whose effect needs what comes from outside with their own row: a known-answer test its station's result, a sync the partner's
key digest. Admission gives them their place, and the row runs them. -/
def needsRow (op fn : Nat) : Bool := decide (op = 0x40 ∧ fn = 1) || decide (op = 0x7E)

/-- The caller that a descriptor names (R532, R546). -/
def descrCaller (n : Nat) (d : List Byte) : Caller := ⟨Fin.ofNat 17 n, BitVec.ofNat 16 (leAt d 2 2), Fin.ofNat 17 (leAt d 6 1)⟩

/-- Run the command of a descriptor (R532, R533). -/
def Agg.runParams (g : Agg) (n : Nat) (d : List Byte) (free : Nat → Nat) : Agg :=
  let ps := unpackParams (paramWidths (leAt d 0 1) (leAt d 5 1)) (bytesAt d 12 48)
  g.runDescr (descrCaller n d) (leAt d 0 1) (leAt d 5 1) (fun i => ps.getD i 0) free

/-- The command before a descriptor did not end OK, and the descriptor has CHAIN (R542). -/
def Agg.chainedAt (g : Agg) (n pos : Nat) (d : List Byte) : Bool :=
  (leAt d 4 1).testBit 1 && decide (sget 0 (g.ring n).outcomes ((pos + 2 ^ 32 - 1) % 2 ^ 32) ≠ 0)

/-- Admit and run, or refuse, the descriptor at a position, or leave it waiting (R536 to R542): none where it waits. A command that its
checks refuse, or that ends ABORTED behind CHAIN, takes no tag and one slot. -/
def Agg.admitAt (g : Agg) (n pos : Nat) (free : Nat → Nat) : Except Agg Agg :=
  let d := (g.ring n).descriptor pos
  if g.fenced n pos then .error g
  else match g.earlyCode n d, opInfo (leAt d 0 1) with
    | some st, _ => if g.cqFree n < 2 then .error (g.noteWait n false) else .ok (g.refuseDescr n pos d st)
    | none, none => .error g
    | none, some i =>
      let trial := (g.enter n pos d 1 false false (g.descrCodes n d i) (g.chainedAt n pos d)).runParams n d free
      if trial.mbx.begins = g.mbx.begins then (if g.cqFree n < 2 then .error (g.noteWait n false) else .ok trial)
      else if g.cqFree n < i.slots + 1 then .error (g.noteWait n false)
      else match g.freeTag n (leAt d 0 1) with
        | none => .error (g.noteWait n true)
        | some shared =>
          let g := g.enter n pos d i.slots shared true [] false
          .ok (if needsRow (leAt d 0 1) (leAt d 5 1) then g else g.runParams n d free)

/-- A WAITFOR_GRAPH behind a blocked head of ring 0 is admitted ahead of it (R563). -/
def Agg.admitAhead (g : Agg) (free : Nat → Nat) : Agg :=
  match g.graphAhead with
  | none => g
  | some p =>
    match g.admitAt 0 p free with
    | .ok g' => g'.modRing 0 fun r => { r with ahead := r.ahead ++ [p] }
    | .error _ => g

/-- DESCRIPTOR_ADMIT: the head of a ring (R536, R537); on ring 0 a WAITFOR_GRAPH may pass a head that waits (R563). -/
def Agg.descriptorAdmit (g : Agg) (n : Nat) (free : Nat → Nat) : Agg :=
  let r := g.ring n
  if !g.admits || r.faulted || r.sqHead = r.sqTail then g
  else match g.admitAt n r.sqHead free with
    | .ok g' => if (g'.ring n).sqHead = r.sqHead then g'.advanceHead n else g'
    | .error g' => if n ≠ 0 then g' else g'.admitAhead free

end Sys2Proof.Machine
end

