-- ==== Sys2Proof/Machine/CmdMailbox.lean ====
section
/-!
DEFINITION. CmdMailbox.lean: rings, information commands, register access and logs: spec/14_mailboxes.md, R269.
-/
namespace Sys2Proof.Machine

/-- SQ_DOORBELL (R524): A write of AGG_MBXn_SQ_TAIL announces descriptors, or faults the ring if invalid. -/
def execSqDoorbell (n : Fin 17) (v : Word) (s : State) : Out1 :=
  onAgg s fun g => g.whenFw (·.sqDoorbell n.val v.toNat)

/-- CQ_HEAD_WRITE (R525): A client reports consumed completions by writing AGG_MBXn_CQ_HEAD. -/
def execCqHeadWrite (n : Fin 17) (v : Word) (s : State) : Out1 :=
  onAgg s fun g => g.whenFw (·.cqHeadWrite n.val v.toNat)

/-- MBX_RESTART (R540): A write of AGG_MBXn_CTL.RESTART clears FAULTED and resumes reading. -/
def execMbxRestart (n : Fin 17) (s : State) : Out1 :=
  onAgg s fun g => g.whenFw (·.mbxRestart n.val)

/-- UDP_SUBMIT (R529): A SUBMIT datagram is checked, appended in order and acknowledged. -/
def execUdpSubmit (addr : BitVec 128) (port : BitVec 16) (m : List Byte) (s : State) : Out1 :=
  onAgg s fun g => g.datagramOf (fun k => decide (k ≠ 3 ∧ k ≠ 4)) addr.toNat port.toNat m

/-- UDP_ACK (R530): A client ACK releases kept completions. -/
def execUdpAck (addr : BitVec 128) (port : BitVec 16) (m : List Byte) (s : State) : Out1 :=
  onAgg s fun g => g.datagramOf (fun k => decide (k = 3)) addr.toNat port.toNat m

/-- UDP_RESEND (R530): A RESEND makes the aggregator resend kept completions. -/
def execUdpResend (addr : BitVec 128) (port : BitVec 16) (m : List Byte) (s : State) : Out1 :=
  onAgg s fun g => g.datagramOf (fun k => decide (k = 4)) addr.toNat port.toNat m

/-- DESCRIPTOR_ADMIT (R537): The head descriptor of a ring is checked, and admitted and run, or refused. -/
def execDescriptorAdmit (n : Fin 17) (s : State) : Out1 :=
  onAggFree s fun free g => g.descriptorAdmit n.val free

/-- NOP (R550): Completes with OK. -/
def execNop (c : Caller) (s : State) : Out1 :=
  onAgg s fun g => g.nop c

/-- GET_INFO (R551): Returns design, firmware and identity information. -/
def execGetInfo (c : Caller) (s : State) : Out1 :=
  onAgg s fun g => g.getInfo c

/-- GET_CAPS (R551): Returns AGG_CAPS and the links and stations in service. -/
def execGetCaps (c : Caller) (s : State) : Out1 :=
  onAgg s fun g => g.getCaps c

/-- READ_COUNTERS (R552): Writes the counter block of the context addressed. -/
def execReadCounters (c : Caller) (dst : BitVec 48) (s : State) : Out1 :=
  onAgg s fun g => g.readCounters c dst.toNat

/-- READ_GLOBAL_COUNTERS (R552): Writes the chip block and every context block. -/
def execReadGlobalCounters (c : Caller) (dst : BitVec 48) (s : State) : Out1 :=
  onAgg s fun g => g.readGlobal c dst.toNat

/-- ATU_WRITE (R555): Writes one ATU register over a die port. -/
def execAtuWrite (c : Caller) (p : BitVec 6) (off : BitVec 16) (v : Word) (s : State) : Out1 :=
  onAgg s fun g => g.atuWrite c p.toNat off.toNat v.toNat

/-- ATU_READ (R555): Reads up to 16 ATU registers over a die port. -/
def execAtuRead (c : Caller) (p : BitVec 6) (off : BitVec 16) (count : BitVec 5) (s : State) : Out1 :=
  onAgg s fun g => g.atuRead c p.toNat off.toNat count.toNat

/-- ATU_ACCESS_TIMEOUT (R558): An ATU access has no response within 100 µs and completes with TIMEOUT. -/
def execAtuAccessTimeout (p : Fin 64) (tag : BitVec 16) (s : State) : Out1 :=
  onAggFree s fun n g => g.accessTimeout p.val tag.toNat n

/-- ATU_RESET (R269): Resets a die's ATU by register write or out-of-band sequence and waits for its return. -/
def execAtuReset (c : Caller) (p : BitVec 6) (kind : Bool) (s : State) : Out1 :=
  onAgg s fun g => g.atuReset c p.toNat kind

/-- ATU_RESET_TIMEOUT (R269): An ATU_RESET has not seen the port back in service within 10 ms. -/
def execAtuResetTimeout (p : Fin 64) (s : State) : Out1 :=
  onAgg s fun g => g.whenFw (·.resetTimeout p.val)

/-- EVENT_LOG_READ (R560): Copies records from the event log, the violation log or an ATU event recorder. -/
def execEventLogRead (c : Caller) (source : BitVec 2) (port : BitVec 6) (from_ : BitVec 64) (max : BitVec 32) (dst : BitVec 48) (s : State) : Out1 :=
  onAgg s fun g => g.logRead c source.toNat port.toNat from_.toNat max.toNat dst.toNat

/-- WAITFOR_GRAPH (R562): Takes and writes the wait-for graph. -/
def execWaitforGraph (c : Caller) (chip : Bool) (dst : BitVec 48) (max : BitVec 32) (s : State) : Out1 :=
  onAgg s fun g => g.waitGraph c chip dst.toNat max.toNat

end Sys2Proof.Machine
end

