-- ==== Sys2Proof/Machine/CmdPair.lean ====
section
/-!
DEFINITION. CmdPair.lean: keepalives, checkpoints and the sync of a pair: R685 to R694 of spec/18_safety.md.
-/
namespace Sys2Proof.Machine

/-- PAIR_KEEPALIVE_SEND (R685): Every 1 ms a module sends a TC6 keepalive to its partner. -/
def execPairKeepaliveSend (s : State) : Out1 :=
  onAggBytes s fun fb g => g.keepaliveSend fb

/-- PARTNER_CORE_LOST (R685): No partner keepalive for 3 ms, and the survivor takes over pair duties. -/
def execPartnerCoreLost (s : State) : Out1 :=
  onAgg s fun g => g.partnerCoreLost

/-- PARTNER_SI_LOST (R685): 30 missed partner SAFETY flits or a released partner loop marks the partner Safety Island lost. -/
def execPartnerSiLost (s : State) : Out1 :=
  onAgg s fun g => g.whenPowered (·.partnerSiLostNow)

/-- CHECKPOINT_WRITE (R687): At each epoch a module writes its checkpoint and sends it to its keeper. -/
def execCheckpointWrite (s : State) : Out1 :=
  onAggBytes s fun fb g => g.checkpointWrite fb

/-- CHECKPOINT_RECEIVE (R688): A keeper receives a child's checkpoint and keeps the newest valid one. -/
def execCheckpointReceive (m : List Byte) (s : State) : Out1 :=
  onAgg s fun g => g.whenLive (·.checkpointReceive m)

/-- CHECKPOINT_FAIL (R687): A checkpoint is not complete at the keeper by the next epoch. -/
def execCheckpointFail (s : State) : Out1 :=
  onAgg s fun g => g.whenFw (·.checkpointFail)

/-- CHECKPOINT_FETCH (R688): A keeper answers a fetch with the newest checkpoint of a tray. -/
def execCheckpointFetch (k : Fin 32) (tray : BitVec 12) (partners : Option (List Byte)) (s : State) : Out1 :=
  onAgg s fun g => g.whenUp k.val (·.checkpointFetch k.val tray.toNat partners)

/-- PAIR_SYNC_START (R689): A joining module rebuilds state from its partner or from the keeper. -/
def execPairSyncStart (c : Caller) (source : BitVec 1) (fallback : Bool) (theirs : Option (List Byte)) (s : State) : Out1 :=
  onAgg s fun g => g.syncStart c source.toNat fallback theirs

/-- PAIR_SYNC_STATE_RECEIVE (R690): The joiner receives and installs the partner's state and models. -/
def execPairSyncStateReceive (x : Option Machine.PairContent) (s : State) : Out1 :=
  onAgg s fun g => if g.pair.source = 0 then g.whenPartner (·.syncState x) else g.whenLive (·.syncState x)

/-- PAIR_STATUS (R694): Returns partner and sync state. -/
def execPairStatus (c : Caller) (s : State) : Out1 :=
  onAgg s fun g => g.pairStatus c

/-- PAIR_KEEPALIVE_RECEIVE (R685): A module receives its partner's 1 ms TC6 keepalive, which restarts the 3 ms partner-core watch and ends partner core lost. -/
def execPairKeepaliveReceive (s : State) : Out1 :=
  onAgg s fun g => g.whenPartner (·.keepaliveReceive)

/-- PAIR_SYNC_REQUEST_RECEIVE (R690): A running module receives its joining partner's sync request and starts serving its state, models and feature rings from the next epoch window. -/
def execPairSyncRequestReceive (s : State) : Out1 :=
  onAgg s fun g => g.whenPartner (·.syncRequest)

end Sys2Proof.Machine
end

