-- ==== Sys2Proof/Machine/CmdPaste.lean ====
section
/-!
DEFINITION. CmdPaste.lean: pastes of model images over the tree: R591 to R601 of spec/15_jobs.md.
-/
namespace Sys2Proof.Machine

/-- JOB_LOAD_MODEL_RECEIVE (R601): Waits for a paste and loads its image on COMMIT. -/
def execJobLoadModelReceive (c : Caller) (pid : BitVec 32) (digest : BitVec 64) (s : State) : Out1 :=
  onAgg s fun g => g.pasteReceive c pid.toNat digest.toNat

/-- JOB_LOAD_MODEL_SEND (R591): Starts a paste of a model image down this node's subtree. -/
def execJobLoadModelSend (c : Caller) (pid : BitVec 32) (addr : BitVec 48) (len : BitVec 32) (deadline : BitVec 64) (members : BitVec 48) (s : State) : Out1 :=
  onAgg s fun g => g.pasteSend c pid.toNat addr.toNat len.toNat deadline.toNat members.toNat

/-- PASTE_CHUNK_RECEIVE (R594): A module accepts a paste chunk, stages it, forwards it and advances its digest. -/
def execPasteChunkReceive (m : List Byte) (s : State) : Out1 :=
  onAgg s fun g => g.whenLive (·.pasteChunk m)

/-- PASTE_HAVE_SEND (R595): A module sends HAVE to its paste parent on growth or every 1 ms. -/
def execPasteHaveSend (pid : BitVec 32) (s : State) : Out1 :=
  onAgg s fun g => g.whenFw (·.pasteHaveSend pid.toNat)

/-- PASTE_HAVE_RECEIVE (R595): A module receives a child's HAVE, and the decider may commit. -/
def execPasteHaveReceive (src : Option (Fin 32)) (m : List Byte) (holds : Bool) (s : State) : Out1 :=
  onAgg s fun g => g.whenFrom src (·.pasteHaveReceive (src.map (·.val)) m holds)

/-- PASTE_DEADLINE (R596): At DEADLINE without full coverage the decider sends DECIDE FAIL. -/
def execPasteDeadline (pid : BitVec 32) (s : State) : Out1 :=
  onAgg s fun g => g.whenFw (·.pasteDeadline pid.toNat)

/-- PASTE_DECIDE_RECEIVE (R596): A module acts on the first DECIDE and forwards it. -/
def execPasteDecideReceive (m : List Byte) (s : State) : Out1 :=
  onAgg s fun g => g.whenLive (·.pasteDecide m)

/-- PASTE_FETCH_RECEIVE (R597): A module answers a FETCH with REFETCH chunks or passes it up. -/
def execPasteFetchReceive (src : Option (Fin 32)) (m : List Byte) (s : State) : Out1 :=
  onAgg s fun g => g.whenFrom src (·.pasteFetch (src.map (·.val)) m)

/-- PASTE_REPARENT (R598): The paste parent link is lost, and the module sends REJOIN to its alternate. -/
def execPasteReparent (pid : BitVec 32) (left : Bool) (s : State) : Out1 :=
  onAgg s fun g => g.whenFw (·.pasteReparent pid.toNat left)

/-- PASTE_REJOIN_RECEIVE (R598): A new parent receives REJOIN and sends chunks from NEXT_SEQ. -/
def execPasteRejoinReceive (k : Fin 32) (m : List Byte) (s : State) : Out1 :=
  onAgg s fun g => g.whenUp k.val (·.pasteRejoin k.val m)

/-- PASTE_DECIDE_PROBE (R600): No DECIDE by DEADLINE + 5 ms, so FETCH with COUNT 0 is sent every 1 ms. -/
def execPasteDecideProbe (pid : BitVec 32) (s : State) : Out1 :=
  onAgg s fun g => g.whenFw (·.pasteProbe pid.toNat)

/-- PASTE_ABANDON (R600): At DEADLINE + 50 ms without a decision the staging is discarded. -/
def execPasteAbandon (pid : BitVec 32) (s : State) : Out1 :=
  onAgg s fun g => g.whenFw (·.pasteAbandon pid.toNat)

/-- PASTE_STAGING_FREE (R600): A paste's staging is freed 10 s after COMMIT. -/
def execPasteStagingFree (s : State) : Out1 :=
  onAgg s fun g => g.whenFw (·.pasteFree)

end Sys2Proof.Machine
end

