-- ==== Sys2Proof/Machine/CmdPower.lean ====
section
/-!
DEFINITION. CmdPower.lean: power states, governors, the droop clamp and ageing of the aggregator: R642 to R664 of spec/17_power.md.
-/
namespace Sys2Proof.Machine

/-- POWER_SET_STATE (R664): Sets the requested power state. -/
def execPowerSetState (c : Caller) (st : BitVec 3) (s : State) : Out1 :=
  onAgg s fun g => g.powerSetState c st.toNat

/-- POWER_SET_CAP (R664): Sets the power cap. -/
def execPowerSetCap (c : Caller) (w : BitVec 9) (s : State) : Out1 :=
  onAgg s fun g => g.powerSetCap c w.toNat

/-- POWER_SET_MARGIN (R664): Lowers a margin domain's level by undoing actions. -/
def execPowerSetMargin (c : Caller) (d : BitVec 1) (lv : BitVec 3) (s : State) : Out1 :=
  onAgg s fun g => g.powerSetMargin c d.toNat lv.toNat

/-- POWER_STATUS (R664): Returns the power, state and energy figures. -/
def execPowerStatus (c : Caller) (s : State) : Out1 :=
  onAgg s fun g => g.powerStatus c

/-- POWER_STEP_DONE (R642): A power transition step ends, and the next step starts. -/
def execPowerStepDone (s : State) : Out1 :=
  onAgg s fun g => g.stepDone

/-- CAP_EVALUATE (R645): The 1 ms input power average updates the cap state. -/
def execCapEvaluate (mw : BitVec 20) (s : State) : Out1 :=
  onAgg s fun g => g.capEvaluate mw.toNat

/-- THERMAL_EVALUATE (R646): Every 1 ms the temperature sensors update the thermal state. -/
def execThermalEvaluate (temps : Vector Int 12) (s : State) : Out1 :=
  onAgg s fun g => g.thermalEvaluate temps

/-- DROOP_TRIP (R648): A droop detector trips, and the clamp halves the Trowel issue rate. -/
def execDroopTrip (s : State) : Out1 :=
  onAgg s fun g => g.droopTrip

/-- DROOP_RELEASE (R649): DROOP_HOLD_US after the last trip the clamp releases. -/
def execDroopRelease (s : State) : Out1 :=
  onAgg s fun g => g.droopRelease

/-- STEP_HOLD_END (R650): STEP_HOLD_US after release the paused steps resume. -/
def execStepHoldEnd (s : State) : Out1 :=
  onAgg s fun g => g.stepHoldEnd

/-- VR_ALERT (R652): VR_ALERT_N asserted 1 µs forces P7 settings. -/
def execVrAlert (s : State) : Out1 :=
  onAgg s fun g => g.vrAlert

/-- VR_ALERT_CLEAR (R653): VR_ALERT_N deasserted 100 ms ends the regulator alarm. -/
def execVrAlertClear (s : State) : Out1 :=
  onAgg s fun g => g.whenPowered (·.vrAlertClear)

/-- COOLANT_STOP (R654): COOLANT_FAIL_N asserted 50 µs stops the core region irrevocably. -/
def execCoolantStop (s : State) : Out1 :=
  onAgg s fun g => g.coolantStop

/-- AGG_AGE_MEASURE (R659): The aggregator measures its ageing sites. -/
def execAggAgeMeasure (vals : List (BitVec 16)) (faults : BitVec 24) (s : State) : Out1 :=
  onAgg s fun g => g.ageMeasure vals faults

/-- AGG_RECOAT_CYCLE (R661): The aggregator recoat cycle adjusts its own regulators and ceiling. -/
def execAggRecoatCycle (s : State) : Out1 :=
  onAgg s fun g => g.recoatCycle

/-- AGG_FIT_SAVE (R660): Once per fit period the life count and fit sums are written to the EEPROM. -/
def execAggFitSave (ok : Bool) (s : State) : Out1 :=
  onAgg s fun g => g.fitSave ok

end Sys2Proof.Machine
end

