-- ==== Sys2Proof/Machine/CmdRegisters.lean ====
section
/-!
DEFINITION. CmdRegisters.lean: plain register accesses of both machines: R12 to R17 of spec/00_scope.md, R80 of spec/02_hall_time.md.
-/
namespace Sys2Proof.Machine

/-- REGISTER_WRITE (R12): A write to an ATU or aggregator register field that has no behaviour row of its own, applied by its access type, ownership and refusal order. -/
def execRegisterWrite (t : RegTarget) (off : BitVec 32) (v : Word) (cycle : WriteCycle) (s : State) : Out1 :=
  match t with
  | .atu src => onAtu s fun a => (a.accessFrom src true off.toNat v cycle.strb.toNat).keepSame a off.toNat cycle.same
  | .agg => onAgg s fun g => if g.fwRuns then (g.writeReg off.toNat v).keepSame g off.toNat cycle.same else g

/-- LATCHED_READ (R80): A read of a LO half of a wide counter or HT register latches the HI half for a coherent read. -/
def execLatchedRead (t : RegTarget) (rd : ReadCycle) (s : State) : Out1 :=
  match t with
  | .atu src => onAtu s fun a => a.accessFrom src false rd.off.toNat 0 rd.strb.toNat
  | .agg => onAgg s fun g => if g.fwRuns then (g.readReg rd.off.toNat).1 else g

end Sys2Proof.Machine
end

