-- ==== Sys2Proof/Machine/CmdSafety.lean ====
section
/-!
DEFINITION. CmdSafety.lean: the Safety Island and the core's heartbeat: R670 to R684 of spec/18_safety.md.
-/
namespace Sys2Proof.Machine

/-- SI_EVALUATE (R680): The Safety Island's 20 µs evaluation cycle checks alarms and releases the loop if needed. -/
def execSiEvaluate (t0 t1 : Int) (switches : Bool) (s : State) : Out1 :=
  onAgg s fun g => g.siEvaluate t0 t1 switches

/-- UNKNOWN_TIMEOUT (R679): A die unsafe-unknown for the tray for UNKNOWN_MS releases the loop or only reports. -/
def execUnknownTimeout (p : Fin 64) (s : State) : Out1 :=
  onAgg s fun g => g.whenPowered (·.unknownTimeout p.val)

/-- SAFE_RETIRE (R677): A write of AGG_SAFE_RETIRE removes a DOWN port from the watch set. -/
def execSafeRetire (p : BitVec 6) (s : State) : Out1 :=
  onAgg s fun g => g.whenFw (·.safeRetire p.toNat)

/-- SI_SELF_TEST (R682): The Safety Island's periodic scrub, CRC, watchdog and sensor checks run. -/
def execSiSelfTest (memory config clock corrected : Bool) (t0 t1 : Int) (s : State) : Out1 :=
  onAgg s fun g => g.whenPowered (·.siSelfTest memory config clock corrected t0 t1)

/-- LOCKSTEP_MISMATCH (R682): A lockstep mismatch opens both switches in hardware. -/
def execLockstepMismatch (s : State) : Out1 :=
  onAgg s fun g => g.whenPowered (·.siFault 1)

/-- SI_RAIL_FAULT (R682): The Safety Island rail leaves ±5 %, and the loop is released. -/
def execSiRailFault (s : State) : Out1 :=
  onAgg s fun g => g.whenPowered (·.siFault 5)

/-- CP_HEARTBEAT (R683): The Control Processor writes its heartbeat to the Safety Island. -/
def execCpHeartbeat (s : State) : Out1 :=
  onAgg s fun g => g.cpHeartbeat

/-- CORE_RESET (R683): 10 ms without a heartbeat, so the Safety Island resets the core region. -/
def execCoreReset (s : State) : Out1 :=
  onAgg s fun g => g.coreReset

end Sys2Proof.Machine
end

