-- ==== Sys2Proof/Machine/CmdSampling.lean ====
section
/-!
DEFINITION. CmdSampling.lean: tap blocks, snapshots and channel commits: spec/03_sampling.md.
-/
namespace Sys2Proof.Machine

/-- POWER_DOMAIN_CHANGE (R91): A PDOM_ON change powers a tap block on or off and resets the counter bases. -/
def execPowerDomainChange (pdom : BitVec 16) (s : State) : Out1 :=
  onAtu s fun a => a.powerDomains pdom

/-- BLOCK_CAPTURE (R93): A tap block captures all its taps on one TAP_CLK edge into a free bank and flips its fill toggle. -/
def execBlockCapture (b : Fin 16) (vals : List (BitVec 48)) (s : State) : Out1 :=
  onAtu s fun a => a.blockCapture b vals

/-- SNAPSHOT_COMPLETE (R92): All banks of a stroke are read out, and due channels take their taps and start frame coding. -/
def execSnapshotComplete (s : State) : Out1 :=
  onAtu s fun a => a.snapshotComplete

/-- BLOCK_STALL (R96): No capture edge of a running block comes within 2 µs of the stroke, and the block is marked stalled. -/
def execBlockStall (b : Fin 16) (s : State) : Out1 :=
  onAtu s fun a => a.blockStall b

/-- LATE_CAPTURE_RELEASE (R97): A late capture of a stalled block fills a bank, and the core releases it unread. -/
def execLateCaptureRelease (b : Fin 16) (s : State) : Out1 :=
  onAtu s fun a => a.lateRelease b

/-- CH_COMMIT (R109): A write of ATU_CH_COMMIT copies shadow channel sets into pending sets after checks and a budget check. -/
def execChCommit (src : RegFrom) (mask : BitVec 8) (s : State) : Out1 :=
  onAtu s fun a => a.writeFrom src 0x0608 (w32 mask.toNat)

/-- CH_COMMIT_CANCEL (R113): A write of ATU_CH_COMMIT with CANCEL discards the pending sets of the masked channels. -/
def execChCommitCancel (src : RegFrom) (mask : BitVec 8) (s : State) : Out1 :=
  onAtu s fun a => a.writeFrom src 0x0608 (w32 (0x100 + mask.toNat))

end Sys2Proof.Machine
end

