-- ==== Sys2Proof/Machine/CmdSkim.lean ====
section
/-!
DEFINITION. CmdSkim.lean: self-telemetry, rounds and the skim tree: R352 and R358 to R399 of spec/10_skim.md.
-/
namespace Sys2Proof.Machine

/-- AGG_STROKE (R352): At each stroke the aggregator samples its self-telemetry taps and applies window-timed changes. -/
def execAggStroke (s : State) : Out1 :=
  onAgg s fun g => g.stroke

/-- ROUND_CLOSE (R376): At round close the aggregator seals its local sketches. -/
def execRoundClose (s : State) : Out1 :=
  onAgg s fun g => g.roundClose

/-- PARTNER_SELF_VALUES (R363): Module B receives module A's source-1 values for the round. -/
def execPartnerSelfValues (r : BitVec 40) (vals : List (List (Option Nat))) (s : State) : Out1 :=
  onAgg s fun g => g.whenPartner (·.partnerSelf r.toNat vals)

/-- SKIM_UP_SEND (R376): At T_up(d) a module sends its merged UP to its parent. -/
def execSkimUpSend (r : BitVec 40) (s : State) : Out1 :=
  onAgg s fun g => g.whenFw (·.skimUpSend r.toNat)

/-- SKIM_UP_RECEIVE (R377): A parent receives a child's UP and accepts or rejects it. -/
def execSkimUpReceive (k : Fin 32) (m : List Byte) (s : State) : Out1 :=
  onAgg s fun g => g.whenUp k.val (·.skimUpReceive k.val m)

/-- SKIM_MERGE (R378): At T_up(d) − MERGE the node merges its accepted UPs. -/
def execSkimMerge (r : BitVec 40) (s : State) : Out1 :=
  onAgg s fun g => g.whenFw (·.skimMerge r.toNat)

/-- ROOT_EXCHANGE (R380): At T_up(0) the root modules exchange results and adopt one plane. -/
def execRootExchange (r : BitVec 40) (x : RootMsg) (s : State) : Out1 :=
  onAgg s fun g => g.whenFw (·.rootExchange r.toNat x)

/-- ROOT_DECIDE (R381): At T_root the root sends DOWN or ABORT. -/
def execRootDecide (r : BitVec 40) (s : State) : Out1 :=
  onAgg s fun g => g.whenFw (·.rootDecide r.toNat)

/-- DOWN_FORWARD (R382): At T_down(d) a module forwards the DOWN and sends its digest to the partner. -/
def execDownForward (r : BitVec 40) (s : State) : Out1 :=
  onAgg s fun g => g.whenFw (·.downForward r.toNat)

/-- DOWN_RECEIVE (R383): A module receives a DOWN, forwarding it at once when late. -/
def execDownReceive (src : DownFrom) (m : List Byte) (s : State) : Out1 :=
  onAgg s fun g => g.whenUp src.link.val (·.downReceive src.link.val src.partner m)

/-- DOWN_USE (R382): At T_down(d) + PAIR the module chooses the DOWN in use. -/
def execDownUse (r : BitVec 40) (said : Option (BitVec 64 × BitVec 32)) (s : State) : Out1 :=
  onAgg s fun g => g.whenFw (·.downUse r.toNat (said.map fun x => (x.1.toNat, x.2.toNat)))

/-- ABORT_RECEIVE (R384): A module receives ABORT, forwards it and discards the round. -/
def execAbortReceive (m : List Byte) (s : State) : Out1 :=
  onAgg s fun g => g.whenLive (·.abortReceive m)

/-- ROUND_ABORT_TIMEOUT (R385): No usable DOWN at C + ABORT_US, so the module discards the round. -/
def execRoundAbortTimeout (r : BitVec 40) (s : State) : Out1 :=
  onAgg s fun g => g.whenFw (·.roundTimeout r.toNat)

/-- TREE_JOIN (R375): At the activation round a module sends JOIN to its primary parent. -/
def execTreeJoin (s : State) : Out1 :=
  onAgg s fun g => g.whenFw (·.treeJoin)

/-- JOIN_RECEIVE (R375): A parent receives JOIN and answers JOIN_ACK or JOIN_NAK. -/
def execJoinReceive (k : Fin 32) (depth height : BitVec 8) (s : State) : Out1 :=
  onAgg s fun g => g.whenUp k.val (·.joinReceive k.val depth.toNat height.toNat)

/-- JOIN_REPLY (R375): A module receives JOIN_ACK or JOIN_NAK. -/
def execJoinReply (k : Fin 32) (ack : Bool) (s : State) : Out1 :=
  onAgg s fun g => g.whenUp k.val fun g => (g.answered k.val).joinReply k.val ack

/-- REROUTE (R387): The primary parent link leaves UP, and the module sends ADOPT to its alternate. -/
def execReroute (s : State) : Out1 :=
  onAgg s fun g => g.whenFw (·.reroute)

/-- LEAVE_RECEIVE (R387): A module receives LEAVE from its primary parent and reroutes. -/
def execLeaveReceive (k : Fin 32) (r : BitVec 40) (s : State) : Out1 :=
  onAgg s fun g => g.whenUp k.val (·.leaveReceive k.val r.toNat)

/-- ADOPT_RECEIVE (R388): An alternate parent receives ADOPT and answers ACK or NAK. -/
def execAdoptReceive (k : Fin 32) (r : BitVec 40) (height : BitVec 8) (s : State) : Out1 :=
  onAgg s fun g => g.whenUp k.val (·.adoptReceive k.val r.toNat height.toNat)

/-- ADOPT_REPLY (R391): A module receives ADOPT_ACK or ADOPT_NAK and, on ACK, sends DEPTH to its children. -/
def execAdoptReply (k : Fin 32) (ack : Bool) (depth : BitVec 8) (s : State) : Out1 :=
  onAgg s fun g => g.whenUp k.val fun g => (g.answered k.val).adoptReply k.val ack depth.toNat

/-- ADOPT_RETRY (R388): A retry timer resends ADOPT after a NAK or 1 ms of silence. -/
def execAdoptRetry (s : State) : Out1 :=
  onAgg s fun g => g.whenFw (·.adoptRetry)

/-- DEPTH_RECEIVE (R391): A descendant receives DEPTH and takes its new depth from R_a. -/
def execDepthReceive (k : Fin 32) (r : BitVec 40) (depth : BitVec 8) (s : State) : Out1 :=
  onAgg s fun g => g.whenUp k.val (·.depthReceive k.val r.toNat depth.toNat)

/-- RETURN_PRIMARY_TIMER (R392): The primary link has been UP 10 s, so the module returns to its primary parent. -/
def execReturnPrimaryTimer (s : State) : Out1 :=
  onAgg s fun g => g.whenFw (·.returnTimer)

/-- SKIM_SET_METRICS (R395): Sets the skim metric set from ACT_ROUND. -/
def execSkimSetMetrics (c : Caller) (setId : BitVec 32) (act : BitVec 40) (count : BitVec 11) (addr : BitVec 48) (s : State) : Out1 :=
  onAgg s fun g => g.setMetrics c setId.toNat act.toNat count.toNat addr.toNat

/-- SKIM_TREE_CONFIGURE (R398): Configures this module's position and timing in the skim tree. -/
def execSkimTreeConfigure (c : Caller) (x : TreeArgs) (s : State) : Out1 :=
  onAgg s fun g => g.treeConfigure c x

/-- SKIM_TREE_RETURN_PRIMARY (R392): Starts a return to the primary parent at once. -/
def execSkimTreeReturnPrimary (c : Caller) (s : State) : Out1 :=
  onAgg s fun g => g.treeReturn c

/-- SKIM_TREE_DISSOLVE (R397): The module leaves the tree from ACT_ROUND. -/
def execSkimTreeDissolve (c : Caller) (act : BitVec 40) (s : State) : Out1 :=
  onAgg s fun g => g.treeDissolve c act.toNat

/-- SKIM_STATUS (R399): Returns tree state and a round's DOWN. -/
def execSkimStatus (c : Caller) (r : BitVec 40) (dst : BitVec 48) (s : State) : Out1 :=
  onAgg s fun g => g.skimStatus c r.toNat dst.toNat

end Sys2Proof.Machine
end

