-- ==== Sys2Proof/Machine/CmdSkimLinks.lean ====
section
/-!
DEFINITION. CmdSkimLinks.lean: skim links, their lanes and their safety flits: R311 to R328 of spec/08_links.md.
-/
namespace Sys2Proof.Machine

/-- SKIM_CODEWORD_RECEIVE (R311): A skim-link receiver decodes an RS codeword and deskews the lanes. -/
def execSkimCodewordReceive (k : Fin 32) (lane : Fin 2) (corrected : BitVec 16) (flit : Option (List Byte × Nat)) (s : State) : Out1 :=
  onAgg s fun g => g.codewordIn k.val lane.val corrected.toNat flit

/-- SKIM_FLIT_BUILD (R328): At each flit boundary a skim transmitter builds a SAFETY, TIME, replay, DATA or IDLE flit. -/
def execSkimFlitBuild (k : Fin 32) (s : State) : Out1 :=
  onAggBytes s fun fb g => (g.flitBuild k.val fb).reachChange k.val

/-- SKIM_FLIT_RECEIVE (R313): A skim-link end receives a flit and accepts slots, credit and ACK. -/
def execSkimFlitReceive (k : Fin 32) (f : List Byte) (s : State) : Out1 :=
  onAgg s fun g => g.skimFlitIn k.val f

/-- SKIM_LINK_TRAIN (R317): A skim link trains its lanes, exchanges peer identity and measures asymmetry. -/
def execSkimLinkTrain (k : Fin 32) (lanes : TrainedLanes) (tray : BitVec 12) (role : Fin 2) (peer : Fin 32) (variant : BitVec 4) (asym0 asym1 : Word) (s : State) : Out1 :=
  onAgg s fun g => g.linkTrain k.val lanes.mask.toNat tray.toNat role.val peer.val variant.toNat lanes.trips.toNat asym0.toNat asym1.toNat

/-- LANE_REMOVE (R318): A lane exceeds its error thresholds or loses lock, and the receiver removes it. -/
def execLaneRemove (k : Fin 32) (lane : Fin 2) (unc corr symbols : BitVec 32) (lost : Bool) (at_ : BitVec 16) (s : State) : Out1 :=
  onAgg s fun g => g.laneRemove k.val lane.val unc.toNat corr.toNat symbols.toNat lost at_.toNat

/-- LANE_CHANGE (R318): A LANE_CHANGE flit is received, and both ends change active lanes at the named codeword. -/
def execLaneChange (k : Fin 32) (at_ : BitVec 16) (mask : BitVec 2) (s : State) : Out1 :=
  onAgg s fun g => g.laneChange k.val at_.toNat mask.toNat

/-- LANE_HOLDOFF_END (R319): A removed lane's hold-off ends, and it retrains. -/
def execLaneHoldoffEnd (k : Fin 32) (lane : Fin 2) (s : State) : Out1 :=
  onAgg s fun g => g.laneRetrain k.val lane.val false

/-- LANE_SOAK_END (R319): A lane's 1 s soak ends, and it is admitted or not. -/
def execLaneSoakEnd (k : Fin 32) (lane : Fin 2) (unc corr symbols : BitVec 32) (at_ : BitVec 16) (s : State) : Out1 :=
  onAgg s fun g => g.laneSoakEnd k.val lane.val unc.toNat corr.toNat symbols.toNat at_.toNat

/-- LANE_LOCKOUT_END (R320): A lane's 1-hour lockout ends. -/
def execLaneLockoutEnd (k : Fin 32) (lane : Fin 2) (s : State) : Out1 :=
  onAgg s fun g => g.laneRetrain k.val lane.val true

/-- SKIM_SAFETY_SEND (R316): Every 100 µs the aggregator sends a SAFETY flit on every skim link in UP. -/
def execSkimSafetySend (s : State) : Out1 :=
  onAgg s fun g => g.skimSafetySend

/-- SKIM_SAFETY_RECEIVE (R678): A partner SAFETY flit updates this module's view of the partner's watch, alarms and unknowns. -/
def execSkimSafetyReceive (k : Fin 32) (m : List Byte) (s : State) : Out1 :=
  onAgg s fun g => g.skimSafetyIn k.val m

/-- SKIM_SAFETY_MISS (R685): 110 µs pass without an accepted SAFETY flit on a skim link, which sets SAFETY_MISS for the link and counts towards partner Safety Island lost. -/
def execSkimSafetyMiss (k : Fin 32) (s : State) : Out1 :=
  onAgg s fun g => g.skimSafetyMiss k.val

end Sys2Proof.Machine
end

