-- ==== Sys2Proof/Machine/CmdStations.lean ====
section
/-!
DEFINITION. CmdStations.lean: stations, runs and their sanding: spec/11_stations.md, R640.
-/
namespace Sys2Proof.Machine

/-- STATION_RUN (R442): Runs a chain of one-off station runs. -/
def execStationRun (c : Caller) (addr : BitVec 48) (count : BitVec 7) (s : State) : Out1 :=
  onAgg s fun g => g.stationRun c addr.toNat count.toNat

/-- STATION_KAT (R442): Runs a known-answer test on a named station. -/
def execStationKat (c : Caller) (kind : BitVec 3) (k : BitVec 8) (own : Bool) (run : BitVec 4) (pass : Bool) (cycles : BitVec 32) (s : State) : Out1 :=
  onAggFree s fun n g => g.stationKat c kind.toNat k.toNat own run.toNat pass cycles.toNat n

/-- STATION_SERVICE (R447): Takes a station out of service or returns it. -/
def execStationService (c : Caller) (kind : BitVec 3) (k : BitVec 8) (inService : Bool) (s : State) : Out1 :=
  onAgg s fun g => g.stationService c kind.toNat k.toNat inService

/-- STATION_STATUS (R442): Copies the job's run log for a window. -/
def execStationStatus (c : Caller) (w dst : BitVec 48) (s : State) : Out1 :=
  onAgg s fun g => g.stationStatus c w.toNat dst.toNat

/-- WINDOW_PROGRAM_START (R406): The feature build of a window is complete, and the window program starts. -/
def execWindowProgramStart (n : Fin 17) (s : State) : Out1 :=
  onAgg s fun g => g.programStart n.val

/-- RUN_COMPLETE (R406): A run's output is complete, and the next run of the chain starts. -/
def execRunComplete (who : RunRef) (cycles corrected : BitVec 32) (err : Option (BitVec 32 × BitVec 48)) (s : State) : Out1 :=
  onAgg s fun g => g.whenFw (·.runComplete who cycles.toNat corrected.toNat (err.map fun x => (x.1.toNat, x.2.toNat)))

/-- SCORING_SKIP (R640): Scoring of window w has not started by window w + 31's feature build and is skipped. -/
def execScoringSkip (n : Fin 17) (s : State) : Out1 :=
  onAgg s fun g => g.scoringSkip n.val

/-- STATION_SAND_DUE (R445): A due station is taken for test at an idle tile boundary. -/
def execStationSandDue (kind : BitVec 3) (k : BitVec 8) (s : State) : Out1 :=
  onAgg s fun g => g.stationDue kind.toNat k.toNat

/-- STATION_SAND_FORCE (R446): A station untested at twice the interval is taken at its next tile boundary. -/
def execStationSandForce (kind : BitVec 3) (k : BitVec 8) (s : State) : Out1 :=
  onAgg s fun g => g.stationForce kind.toNat k.toNat

/-- STATION_TEST_RESULT (R447): A station's test ends, with a retest, a return to service or removal. -/
def execStationTestResult (kind : BitVec 3) (k : BitVec 8) (pass : Bool) (s : State) : Out1 :=
  onAgg s fun g => g.whenFw (·.stationTested kind.toNat k.toNat pass)

end Sys2Proof.Machine
end

