-- ==== Sys2Proof/Machine/CmdStencil.lean ====
section
/-!
DEFINITION. CmdStencil.lean: rank coding, the Stencil station, the Entity Table and ensembles: spec/12_stencil.md.
-/
namespace Sys2Proof.Machine

/-- RANK_CODE (R461): When the window program is complete, the Stencil rank-codes the window's features. -/
def execRankCode (n : Fin 17) (s : State) : Out1 :=
  onAgg s fun g => g.rankCode n.val

/-- STENCIL_LOOKUP (R470): A TCAM lookup returns a result, and the tree walk continues or ends at a leaf. -/
def execStencilLookup (n : Fin 17) (e : Fin 4) (t tree : BitVec 16) (hits : Option (List (Nat × Bool))) (s : State) : Out1 :=
  onAgg s fun g => g.whenFw (·.stencilLookup n.val e.val t.toNat tree.toNat hits)

/-- TCAM_BANK_REWRITE (R474): The Control Processor rewrites a faulty bank from its shadow copy. -/
def execTcamBankRewrite (b : BitVec 8) (s : State) : Out1 :=
  onAgg s fun g => g.whenFw (·.bankRewrite b.toNat)

/-- ENTITY_PUT (R457): Schedules an Entity Table entry from ACT_WINDOW. -/
def execEntityPut (c : Caller) (die : BitVec 32) (src act : BitVec 48) (s : State) : Out1 :=
  onAgg s fun g => g.entityPut c die.toNat src.toNat act.toNat

/-- ENTITY_DELETE (R457): Schedules the removal of an Entity Table entry. -/
def execEntityDelete (c : Caller) (die : BitVec 32) (act : BitVec 48) (s : State) : Out1 :=
  onAgg s fun g => g.entityDelete c die.toNat act.toNat

/-- ENTITY_READ (R457): Copies the Entity Table entry in force. -/
def execEntityRead (c : Caller) (die : BitVec 32) (dst : BitVec 48) (s : State) : Out1 :=
  onAgg s fun g => g.entityRead c die.toNat dst.toNat

/-- ENTITY_STATUS (R458): Returns the entry count and the table digest. -/
def execEntityStatus (c : Caller) (s : State) : Out1 :=
  onAgg s fun g => g.entityStatus c

/-- STENCIL_LOAD (R477): Checks, compiles and places an ensemble image as a slot's pending copy. -/
def execStencilLoad (c : Caller) (e : BitVec 2) (addr : BitVec 48) (len : BitVec 32) (s : State) : Out1 :=
  onAgg s fun g => g.stencilLoad c e.toNat addr.toNat len.toNat

/-- STENCIL_ACTIVATE (R478): The pending copy of a slot becomes active from ACT_WINDOW. -/
def execStencilActivate (c : Caller) (e : BitVec 2) (act : BitVec 48) (s : State) : Out1 :=
  onAgg s fun g => g.stencilActivate c e.toNat act.toNat

/-- STENCIL_UNLOAD (R477): The slot has no ensemble from ACT_WINDOW. -/
def execStencilUnload (c : Caller) (e : BitVec 2) (act : BitVec 48) (s : State) : Out1 :=
  onAgg s fun g => g.stencilUnload c e.toNat act.toNat

/-- STENCIL_STATUS (R477): Reads a slot's entries, load and digest. -/
def execStencilStatus (c : Caller) (e : BitVec 2) (s : State) : Out1 :=
  onAgg s fun g => g.stencilStatus c e.toNat

/-- ENSEMBLE_FREE (R478): Every sample before ACT_WINDOW is complete, and the old copy's entries are freed. -/
def execEnsembleFree (n : Fin 17) (e : Fin 4) (s : State) : Out1 :=
  onAgg s fun g => g.whenFw (·.ensembleFree n.val e.val)

end Sys2Proof.Machine
end

