-- ==== Sys2Proof/Machine/CmdTime.lean ====
section
/-!
DEFINITION. CmdTime.lean: Hall Time at the aggregator: spec/02_hall_time.md, R314 and R315 of spec/08_links.md.
-/
namespace Sys2Proof.Machine

/-- TOD_MESSAGE (R39): The root receives a time-of-day datagram and accepts or discards it. -/
def execTodMessage (m : List Byte) (s : State) : Out1 :=
  onAgg s fun g => g.todMessage m

/-- HT_PPS_EDGE (R41): An HT_PPS edge at the root sets HT, steps or checks phase, and counts toward LOCKED. -/
def execHtPpsEdge (s : State) : Out1 :=
  onAgg s fun g => g.ppsEdge

/-- HT_PPS_LOSS (R43): No HT_PPS edge arrives within 1,000,001,000 ns of the previous one, and the input counts as lost. -/
def execHtPpsLoss (s : State) : Out1 :=
  onAgg s fun g => g.ppsLoss

/-- HT_REF_LOSS (R43): 8 consecutive missing HT_REF cycles mark HT_REF lost, and a LOCKED root enters HOLDOVER. -/
def execHtRefLoss (s : State) : Out1 :=
  onAgg s fun g => g.whenPowered (·.refLoss)

/-- ROOT_INPUTS_RETURN (R45): Lost root inputs return, and the root slews to them or rejects them. -/
def execRootInputsReturn (pps ref : Bool) (s : State) : Out1 :=
  onAgg s fun g => g.whenPowered (·.inputsReturn pps ref)

/-- TIME_EXCHANGE_START (R46): Every 1 ms of its own HT a child sends a two-way time request to its time parent. -/
def execTimeExchangeStart (alt : Bool) (s : State) : Out1 :=
  onAgg s fun g => g.whenFw (·.exchangeStart alt)

/-- TIME_EXCHANGE_REQUEST (R314): A parent receives a time request and sends its reply with t2, t3, state and schedule. -/
def execTimeExchangeRequest (k : Fin 32) (m : List Byte) (s : State) : Out1 :=
  onAgg s fun g => g.whenUp k.val (·.exchangeRequest k.val m)

/-- TIME_EXCHANGE_REPLY (R48): A child receives a reply, computes offset and delay, slews or steps, and updates its time state. -/
def execTimeExchangeReply (k : Fin 32) (m : List Byte) (s : State) : Out1 :=
  onAgg s fun g => g.whenUp k.val (·.exchangeReply k.val m)

/-- TIME_EXCHANGE_FAIL (R315): An exchange fails, which may switch the time parent or enter HOLDOVER. -/
def execTimeExchangeFail (alt : Bool) (s : State) : Out1 :=
  onAgg s fun g => g.whenFw (·.exchangeFail alt)

/-- PARTNER_HT_COMPARE (R53): Every 1 ms the pair modules compare HT and flag divergence over 24 ns. -/
def execPartnerHtCompare (theirs : BitVec 64) (s : State) : Out1 :=
  onAgg s fun g => g.whenPartner (·.compareHt theirs.toNat)

/-- PLUMB_BEAT_DUE (R56): At each whole millisecond of HT the aggregator sends a time word on every die port in service. -/
def execPlumbBeatDue (s : State) : Out1 :=
  onAgg s fun g => g.beatDue

/-- SET_TIME_SOURCE_SELECT (R83): Selects ROOT_INPUTS, TREE or FREE_RUN as the time source, with FORCE_SLEW. -/
def execSetTimeSourceSelect (c : Caller) (source : BitVec 8) (force : Bool) (s : State) : Out1 :=
  onAgg s fun g => g.selectSource c source.toNat force

/-- SCHEDULE_INIT (R71): Creates the first stroke schedule at the root. -/
def execScheduleInit (c : Caller) (epoch : BitVec 64) (period : BitVec 20) (s : State) : Out1 :=
  onAgg s fun g => g.scheduleInit c epoch.toNat period.toNat

/-- SCHEDULE_CHANGE (R72): Schedules a change of stroke period at window c. -/
def execScheduleChange (c : Caller) (win : BitVec 48) (period : BitVec 20) (s : State) : Out1 :=
  onAgg s fun g => g.scheduleChange c win.toNat period.toNat

/-- LINK_ASYM (R49): Sets the cable asymmetry of a skim link. -/
def execLinkAsym (c : Caller) (k : BitVec 5) (ps : BitVec 32) (s : State) : Out1 :=
  onAgg s fun g => g.linkAsym c k.toNat ps.toInt

/-- DIEPORT_ASYM (R58): Sets the backplane asymmetry of a die port. -/
def execDieportAsym (c : Caller) (p : BitVec 6) (ps : BitVec 32) (s : State) : Out1 :=
  onAgg s fun g => g.dieportAsym c p.toNat ps.toInt

/-- GET_TIME_STATUS (R84): Returns the time state, bound and schedule of the aggregator or of a die. -/
def execGetTimeStatus (c : Caller) (target : BitVec 8) (s : State) : Out1 :=
  onAgg s fun g => g.getTimeStatus c target.toNat

end Sys2Proof.Machine
end

