-- ==== Sys2Proof/Machine/CmdTimeAtu.lean ====
section
/-!
DEFINITION. CmdTimeAtu.lean: Hall Time at the ATU: R59 to R81 of spec/02_hall_time.md.
-/
namespace Sys2Proof.Machine

/-- PLUMB_BEAT_RECEIVE (R61): An ATU receives a plumb beat, checks it, corrects phase, learns the schedule and advances its time state. -/
def execPlumbBeatReceive (p : PortId) (w : List Byte) (s : State) : Out1 :=
  onAtu s fun a => a.beatMsg p w

/-- BEAT_MISSED (R744): No good beat arrives 1.1 ms after the last one, or a further 1 ms passes, so a beat counts as missed. -/
def execBeatMissed (p : PortId) (s : State) : Out1 :=
  onAtu s fun a => a.beatMissed p

/-- STROKE (R68): The ATU fires stroke n at HT(n), captures every tap and applies commits, suspensions and schedule changes. -/
def execStroke (s : State) : Out1 :=
  onAtu s fun a => a.stroke

/-- CLK_REGION_EDGE (R77): An edge of CLK_STRETCH_N or CLK_STOP_N is stamped, and stretched time is accounted. -/
def execClkRegionEdge (r : Fin 16) (pin : RegionPin) (asserted : Bool) (s : State) : Out1 :=
  onAtu s fun a => match pin with
    | .stretch => a.regionEdge r false asserted []
    | .stop taps => a.regionEdge r true asserted taps

end Sys2Proof.Machine
end

