-- ==== Sys2Proof/Machine/CmdTrace.lean ====
section
/-!
DEFINITION. CmdTrace.lean: trace, triggers, authorisation and the log matcher: spec/05_trace.md.
-/
namespace Sys2Proof.Machine

/-- TRACE_RETIRE (R179): A core presents branch or data-access trace, and its source emits packets by mode and masking ranges. -/
def execTraceRetire (n : Fin 16) (r : Retire) (s : State) : Out1 :=
  onAtu s fun a => a.retire n r

/-- EXCHANGE_MARK (R182): A core presents an exchange mark, and its source emits EXCH_SEND or EXCH_RECV. -/
def execExchangeMark (n : Fin 16) (recv : Bool) (xid : BitVec 32) (s : State) : Out1 :=
  onAtu s fun a => a.mark n recv xid

/-- TRACE_CONTEXT_CHANGE (R184): A core enters or leaves a context, and the source emits EXCLUDED or SYNC. -/
def execTraceContextChange (n : Fin 16) (priv : BitVec 2) (secure : Bool) (pc : BitVec 64) (s : State) : Out1 :=
  onAtu s fun a => a.contextChange n priv secure pc

/-- CORE_POWER_DOWN (R190): A core signals low-power entry, and its source emits POWER_DOWN. -/
def execCorePowerDown (n : Fin 16) (s : State) : Out1 :=
  onAtu s fun a => a.corePowerDown n

/-- CORE_POWER_UP (R190): A core signals low-power exit, and its source emits POWER_UP and SYNC. -/
def execCorePowerUp (n : Fin 16) (priv : BitVec 2) (secure : Bool) (pc : BitVec 64) (s : State) : Out1 :=
  onAtu s fun a => a.corePowerUp n priv secure pc

/-- TRACE_OVERFLOW (R192): A source queue regains 256 free bytes after discarding packets, and emits OVERFLOW and SYNC. -/
def execTraceOverflow (t : Fin 17) (s : State) : Out1 :=
  onAtu s fun a => a.streamOverflow t

/-- CHUNK_CLOSE (R174): A chunk open for 10 µs is closed and padded. -/
def execChunkClose (t : Fin 17) (s : State) : Out1 :=
  onAtu s fun a => a.streamChunkClose t

/-- TRIG_IN_EDGE (R194): A rising edge on TRIG_IN fires a trigger event. -/
def execTrigInEdge (lines : BitVec 4) (s : State) : Out1 :=
  onAtu s fun a => a.trigInEdge lines

/-- TRACE_START (R196): A start event starts trace, and every source emits TRIGGER and SYNC. -/
def execTraceStart (e : BitVec 6) (s : State) : Out1 :=
  onAtu s fun a => a.startTrace e

/-- TRACE_STOP_EVENT (R197): A stop event puts trace in STOPPING for the stop delay. -/
def execTraceStopEvent (e : BitVec 6) (s : State) : Out1 :=
  onAtu s fun a => a.stopTrace e

/-- TRACE_STOP_DELAY_END (R197): The stop delay expires, trace stops, and the sources close their chunks with LAST. -/
def execTraceStopDelayEnd (s : State) : Out1 :=
  onAtu s fun a => a.stopDelayEnd

/-- TRC_CTL_START (R196): A write of ATU_TRC_CTL.START starts trace. -/
def execTrcCtlStart (src : RegFrom) (s : State) : Out1 :=
  onAtu s fun a => a.writeFrom src 0x3004 1

/-- TRC_CTL_STOP (R197): A write of ATU_TRC_CTL.STOP stops trace without delay. -/
def execTrcCtlStop (src : RegFrom) (s : State) : Out1 :=
  onAtu s fun a => a.writeFrom src 0x3004 2

/-- TRIG_OUT_PULSE_END (R200): A TRIG_OUT pulse of 16 ATU_CLK cycles ends. -/
def execTrigOutPulseEnd (k : Fin 4) (s : State) : Out1 :=
  onAtu s fun a => a.pulseEnd k

/-- TRACE_BUF_DMA_ERROR (R203): A trace buffer write gets a host memory error, and DEST bit 2 clears. -/
def execTraceBufDmaError (s : State) : Out1 :=
  onAtu s fun a => a.bufDmaError

/-- TRC_AUTH (R185): A write of ATU_TRC_AUTH_HI compares the token with the key and authorises or refuses. -/
def execTrcAuth (src : RegFrom) (v : Word) (s : State) : Out1 :=
  onAtu s fun a => a.writeFrom src 0x302C v

/-- AUTH_EXPIRE (R187): At the expiry stroke authorisation lapses, and newly excluded cores are excluded. -/
def execAuthExpire (s : State) : Out1 :=
  onAtu s fun a => a.authExpire

/-- LOG_SUBMIT (R206): A host write of ATU_LOG_DESC_LEN queues a log buffer, stamped with HT. -/
def execLogSubmit (v : Word) (s : State) : Out1 :=
  onAtu s fun a => a.writeFrom .host 0x380C v

/-- LOG_BYTE_CONSUME (R209): The log matcher consumes a stream byte, reports matches and checks UTF-8. -/
def execLogByteConsume (s : State) : Out1 :=
  onAtu s fun a => a.logConsume

/-- LOG_DMA_ERROR (R214): A log buffer read meets a host memory error, and the rest of the buffer is skipped. -/
def execLogDmaError (s : State) : Out1 :=
  onAtu s fun a => a.logDmaError

/-- LOG_MATCHER_ENABLE (R206): A write of ATU_LOG_CFG.ENABLE claims a DMA channel, restarts buffer numbering and clears the queue, or releases the claim when cleared. -/
def execLogMatcherEnable (src : RegFrom) (v : Word) (s : State) : Out1 :=
  onAtu s fun a => a.writeFrom src 0x3800 v

end Sys2Proof.Machine
end

