-- ==== Sys2Proof/Machine/CmdTraffic.lean ====
section
/-!
DEFINITION. CmdTraffic.lean: gates, deadlines and credit of the skim links: R329 to R357 of spec/09_traffic.md.
-/
namespace Sys2Proof.Machine

/-- GATE_ENTRY_START (R330): A gate entry begins at its offset within the round. -/
def execGateEntryStart (s : State) : Out1 :=
  onAgg s fun g => g.whenFw (·.gateStep)

/-- GATE_COMMIT (R335): A write of AGG_GATE_CTL.COMMIT checks the shadow gate list and meters and makes them pending. -/
def execGateCommit (s : State) : Out1 :=
  onAgg s fun g => g.whenFw (·.gateCommit)

/-- GATE_CANCEL (R335): A write of AGG_GATE_CTL.CANCEL discards the pending set. -/
def execGateCancel (s : State) : Out1 :=
  onAgg s fun g => g.whenFw (·.gateCancel)

/-- TC2_EXPIRE (R336): A TC2 message whose first slot has not left by its deadline is discarded. -/
def execTc2Expire (k : Fin 32) (s : State) : Out1 :=
  onAgg s fun g => g.tc2Expire k.val

/-- CREDIT_STALL (R357): A class holds a ready slot without credit for 100 µs. -/
def execCreditStall (k : Fin 32) (cls : Fin 8) (s : State) : Out1 :=
  onAgg s fun g => g.creditStall k.val cls.val

/-- SLOT_RELEASE (R353): A consumer releases a receive slot, which returns credit. -/
def execSlotRelease (k : Fin 32) (slot : FreedSlot) (s : State) : Out1 :=
  onAgg s fun g => g.releaseSlot k.val slot.cls.val slot.discard

/-- RELEASE_LATE (R353): A consumer exceeds its release bound. -/
def execReleaseLate (k : Fin 32) (cls : Fin 8) (s : State) : Out1 :=
  onAgg s fun g => g.releaseLate k.val cls.val

end Sys2Proof.Machine
end

