-- ==== Sys2Proof/Machine/CmdVerdicts.lean ====
section
/-!
DEFINITION. CmdVerdicts.lean: verdicts, the Dust Sheet, expulsion and pair checks: spec/13_verdicts.md.
-/
namespace Sys2Proof.Machine

/-- RANK_DEADLINE (R484): A round's rank deadline passes, and a round with no DOWN in use is unranked. -/
def execRankDeadline (r : BitVec 40) (s : State) : Out1 :=
  onAgg s fun g => g.whenFw (·.rankDeadline r.toNat)

/-- LEVEL_PLACE (R486): The Level station places a round's die-windows, computes verdicts and classes, and sends the pair summary. -/
def execLevelPlace (s : State) : Out1 :=
  onAgg s fun g => g.levelPlace

/-- DUSTSHEET_CONFIGURE (R502): Sets the Dust Sheet budget, mean, hall metric and unchecked policy. -/
def execDustsheetConfigure (c : Caller) (budget : BitVec 16) (mean : BitVec 5) (minMean : BitVec 16) (metric : Option (BitVec 10)) (allow : Bool) (s : State) : Out1 :=
  onAgg s fun g => g.dustConfigure c budget.toNat mean.toNat minMean.toNat (metric.map (·.toNat)) allow

/-- DUSTSHEET_CLEAR_SUSPECT (R501): Ends the model-suspect fall-back. -/
def execDustsheetClearSuspect (c : Caller) (s : State) : Out1 :=
  onAgg s fun g => g.dustClear c

/-- DUSTSHEET_SEED (R502): Loads hourly recommendation totals. -/
def execDustsheetSeed (c : Caller) (addr : BitVec 48) (s : State) : Out1 :=
  onAgg s fun g => g.dustSeed c addr.toNat

/-- DUSTSHEET_STATUS (R502): Returns H, S, the suspect state and the WATCH count. -/
def execDustsheetStatus (c : Caller) (s : State) : Out1 :=
  onAgg s fun g => g.dustStatus c

/-- EXPEL_APPLY (R507): Checks a quorum token and expels a die from FROM_WINDOW, forwarding to the partner. -/
def execExpelApply (c : Caller) (die : BitVec 32) (raised from_ expiry tokens : BitVec 48) (count : BitVec 3) (s : State) : Out1 :=
  onAgg s fun g => g.expelApply c die.toNat raised.toNat from_.toNat expiry.toNat tokens.toNat count.toNat

/-- EXPEL_RESTORE (R507): Clears a die's expulsion from ring 0. -/
def execExpelRestore (c : Caller) (die : BitVec 32) (s : State) : Out1 :=
  onAgg s fun g => g.expelRestore c die.toNat

/-- EXPEL_FORWARD_RECEIVE (R507): The partner receives a forwarded EXPEL_APPLY and applies it. -/
def execExpelForwardReceive (n : Fin 17) (die : BitVec 32) (raised from_ expiry : BitVec 48) (token : List Byte) (s : State) : Out1 :=
  onAgg s fun g => g.whenPartner (·.expelForward n.val die.toNat raised.toNat from_.toNat expiry.toNat token)

/-- PAIR_SUMMARY_RECEIVE (R510): A module receives the partner's round summary and compares digests. -/
def execPairSummaryReceive (m : List Byte) (s : State) : Out1 :=
  onAgg s fun g => g.whenPartner (·.summaryReceive m)

/-- PAIR_SUMMARY_LATE (R511): The partner's summary is missing at rank deadline + 150 µs, and the round is UNCHECKED. -/
def execPairSummaryLate (n : Fin 17) (r : BitVec 40) (s : State) : Out1 :=
  onAgg s fun g => g.whenFw (·.summaryLate n.val r.toNat)

/-- DISAGREE_RUN_LOG_RECEIVE (R512): Step 2 receives the partner's run logs and starts a KAT on the named station. -/
def execDisagreeRunLogReceive (n : Fin 17) (r : BitVec 40) (logs : Option (List Byte)) (s : State) : Out1 :=
  onAgg s fun g => g.whenPartner (·.runLogReceive n.val r.toNat logs)

/-- DISAGREE_KAT_RESULT (R512): The step-2 station tests end, which decides a wrong side or goes on to step 3. -/
def execDisagreeKatResult (n : Fin 17) (r : BitVec 40) (mine theirs : Bool) (s : State) : Out1 :=
  onAgg s fun g => g.whenFw (·.katResult n.val r.toNat mine theirs)

/-- DISAGREE_REDIGEST_RECEIVE (R512): Step 3 receives the partner's recomputed verdict digest and decides or contests. -/
def execDisagreeRedigestReceive (n : Fin 17) (r : BitVec 40) (fault : Option (BitVec 64)) (theirs : BitVec 64) (s : State) : Out1 :=
  onAgg s fun g => g.whenPartner (·.redigest n.val r.toNat (fault.map (·.toNat)) theirs.toNat)

/-- DISAGREE_ADOPT (R513): A wrong side receives the partner's records, state and rows and adopts them. -/
def execDisagreeAdopt (n : Fin 17) (r : BitVec 40) (t : BitVec 40) (records image rows : List Byte) (s : State) : Out1 :=
  onAgg s fun g => g.whenPartner (·.disagreeAdopt n.val r.toNat t.toNat records image rows)

/-- DISAGREE_TIMEOUT (R515): The round's oldest window is 60 windows old, and open dies end CONTESTED. -/
def execDisagreeTimeout (n : Fin 17) (r : BitVec 40) (s : State) : Out1 :=
  onAgg s fun g => g.whenFw (·.disagreeTimeout n.val r.toNat)

/-- VERDICT_READ_RECORDS (R516): Copies verdict records of a job. -/
def execVerdictReadRecords (c : Caller) (die : BitVec 32) (first : BitVec 48) (windows : BitVec 16) (dst : BitVec 48) (s : State) : Out1 :=
  onAgg s fun g => g.verdictRecords c die.toNat first.toNat windows.toNat dst.toNat

/-- VERDICT_READ_RECS (R516): Copies recommendation-ring entries. -/
def execVerdictReadRecs (c : Caller) (from_ : BitVec 32) (max : BitVec 16) (dst : BitVec 48) (s : State) : Out1 :=
  onAgg s fun g => g.verdictRecs c from_.toNat max.toNat dst.toNat

/-- DISAGREE_STATUS (R517): Returns the state of a dispute. -/
def execDisagreeStatus (c : Caller) (r : BitVec 40) (s : State) : Out1 :=
  onAgg s fun g => g.disagreeStatus c r.toNat

end Sys2Proof.Machine
end

