-- ==== Sys2Proof/Machine/CmdWindow.lean ====
section
/-!
DEFINITION. CmdWindow.lean: the ATU's register window, resets, clock and event recorder commands: spec/07_atu_boundary.md, R244 to R257 of spec/06_die_health.md.
-/
namespace Sys2Proof.Machine

/-- ATU_POR (R264): ATU_POR_N resets the always-on and main domains. -/
def execAtuPor (s : State) : Out1 :=
  onAtu s fun a => a.por

/-- ATU_RST (R264): ATU_RST_N asserts the main reset. -/
def execAtuRst (s : State) : Out1 :=
  onAtu s fun a => a.rstAssert

/-- MAIN_PWROK_LOW (R264): ATU_MAIN_PWROK falls while ATU_RST_N is deasserted, which resets the main domain. -/
def execMainPwrokLow (s : State) : Out1 :=
  onAtu s fun a => a.mainPwrLow

/-- ATU_RESET_CTL_WRITE (R268): A write of the key to ATU_RESET_CTL asserts the main reset. -/
def execAtuResetCtlWrite (src : RegFrom) (v : Word) (s : State) : Out1 :=
  onAtu s fun a => a.writeFrom src 0x0010 v

/-- MAIN_RESET_RELEASE (R274): The main reset is released, and DIE_ID is sampled. -/
def execMainResetRelease (dieId : Word) (s : State) : Out1 :=
  onAtu s fun a => a.resetRelease dieId

/-- ATU_READY (R266): 2 µs after main reset release the ATU accepts register accesses. -/
def execAtuReady (s : State) : Out1 :=
  onAtu s fun a => a.becomeReady

/-- ATU_OWNER_WRITE (R282): A host write of ATU_OWNER hands units between host and aggregator. -/
def execAtuOwnerWrite (v : Word) (s : State) : Out1 :=
  onAtu s fun a => a.writeFrom .host 0x000C v

/-- REGISTER_REQUEST (R295): An ATU receives a register request flit and applies it at its serialisation point. -/
def execRegisterRequest (p : PortId) (m : List Byte) (s : State) : Out1 :=
  onAtu s fun a => a.requestMsg p m

/-- ATU_CLK_STOP (R751): ATU_CLK stops while the ATU is out of reset, and every function clocked by it freezes where it stands while the time base, tap capture, safety path and ports run on. -/
def execAtuClkStop (s : State) : Out1 :=
  onAtu s fun a => a.clkStop

/-- ATU_CLK_RESTART (R751): ATU_CLK returns, and every frozen register access, bank readout, coding, trace, DMA, sanding and ageing function resumes. -/
def execAtuClkRestart (s : State) : Out1 :=
  onAtu s fun a => a.clkRestart

/-- EVR_HOST_COMMIT (R248): A host write of ATU_EVR_HOST_COMMIT makes a HOST record. -/
def execEvrHostCommit (v : Word) (s : State) : Out1 :=
  onAtu s fun a => a.writeFrom .host 0x6100 v

/-- EVR_RD_DATA_READ (R247): A read of ATU_EVR_RD_DATA returns 4 ring bytes and advances RD_POS. -/
def execEvrRdDataRead (rd : ReadBy) (s : State) : Out1 :=
  onAtu s fun a => a.accessFrom rd.src false 0x601C 0 rd.strb.toNat

/-- EVR_FLUSH_CTL (R251): A write of ATU_EVR_FLUSH_CTL.FLUSH starts a command flush. -/
def execEvrFlushCtl (src : RegFrom) (v : Word) (s : State) : Out1 :=
  onAtu s fun a => a.writeFrom src 0x6020 v

/-- EVR_FAULT_FLUSH (R252): A fault flush starts once FLUSH_MIN_S has passed since the last flush. -/
def execEvrFaultFlush (s : State) : Out1 :=
  onAtu s fun a => a.faultFlush

/-- EVR_FLUSH_DONE (R253): A flush writes its image header and completes. -/
def execEvrFlushDone (s : State) : Out1 :=
  onAtu s fun a => a.flushDone

/-- EVR_FLUSH_ERR (R257): A flush fails or is unfinished at the hold-up end, and FLUSH_ERR is set. -/
def execEvrFlushErr (s : State) : Out1 :=
  onAtu s fun a => a.flushErr

/-- EVR_LOAD (R250): After power-on the ATU loads the life counters from the newest valid image. -/
def execEvrLoad (s : State) : Out1 :=
  onAtu s fun a => a.evrLoad

/-- PWR_FAIL (R255): PWR_FAIL_N asserts, which stops measurement and sanding and starts the power-fail flush. -/
def execPwrFail (asserted : Bool) (s : State) : Out1 :=
  onAtu s fun a => a.pwrFail asserted

end Sys2Proof.Machine
end

