-- ==== Sys2Proof/Machine/CmdWindows.lean ====
section
/-!
DEFINITION. CmdWindows.lean: the analysis ports, memory windows, protection domains and queue pairs: spec/16_windows.md.
-/
namespace Sys2Proof.Machine

/-- RDMA_WRITE (R609): An RDMA WRITE message is checked at its first packet and executed. -/
def execRdmaWrite (port : Fin 2) (pkt : RocePkt) (memError : Bool) (s : State) : Out1 :=
  onAgg s fun g => g.rdmaIn port.val pkt memError

/-- RDMA_READ (R609): An RDMA READ request is checked and answered with responses. -/
def execRdmaRead (port : Fin 2) (pkt : RocePkt) (memError : Bool) (s : State) : Out1 :=
  onAgg s fun g => g.rdmaIn port.val pkt memError

/-- RDMA_SEND (R627): An inbound SEND on a ring's queue pair acts as a doorbell. -/
def execRdmaSend (port : Fin 2) (pkt : RocePkt) (memError : Bool) (s : State) : Out1 :=
  onAgg s fun g => g.rdmaIn port.val pkt memError

/-- QP_CONTEXT_FETCHED (R622): A queue-pair context fetch completes, and its parked packets are processed. -/
def execQpContextFetched (qpn : BitVec 24) (ns : BitVec 32) (s : State) : Out1 :=
  onAgg s fun g => g.whenFw (·.contextFetched qpn.toNat ns.toNat)

/-- WINDOW_OPEN (R610): Opens a memory window in a PD. -/
def execWindowOpen (c : Caller) (pd : BitVec 6) (base : BitVec 48) (len : BitVec 40) (access : BitVec 2) (qpn : Option (BitVec 24)) (notify : Bool) (s : State) : Out1 :=
  onAgg s fun g => g.windowOpen c pd.toNat base.toNat len.toNat access.toNat (qpn.map (·.toNat)) notify

/-- WINDOW_REVOKE (R612): Starts revoking a window. -/
def execWindowRevoke (c : Caller) (w : BitVec 10) (rkey : BitVec 32) (s : State) : Out1 :=
  onAgg s fun g => g.windowRevoke c w.toNat rkey.toNat

/-- REVOKE_INSTANT (R612): T_r is reached, and later checks fail for the window. -/
def execRevokeInstant (w : BitVec 10) (s : State) : Out1 :=
  onAgg s fun g => g.whenFw (·.revokeInstant w.toNat)

/-- REVOKE_DRAINED (R613): Admitted messages of a revoked window have completed, and the revoke completes. -/
def execRevokeDrained (w : BitVec 10) (s : State) : Out1 :=
  onAgg s fun g => g.whenFw (·.revokeDrained w.toNat)

/-- REVOKE_DRAIN_BOUND (R613): At T_r + 20 µs unfinished messages are cut with NAKs. -/
def execRevokeDrainBound (w : BitVec 10) (s : State) : Out1 :=
  onAgg s fun g => g.whenFw (·.revokeBound w.toNat)

/-- PD_CREATE (R626): Creates a protection domain. -/
def execPdCreate (c : Caller) (s : State) : Out1 :=
  onAgg s fun g => g.pdCreate c

/-- PD_DESTROY (R626): Destroys a protection domain. -/
def execPdDestroy (c : Caller) (pd : BitVec 6) (s : State) : Out1 :=
  onAgg s fun g => g.pdDestroy c pd.toNat

/-- QP_CREATE (R624): Creates a queue pair. -/
def execQpCreate (c : Caller) (pd : BitVec 6) (x : QpParams) (s : State) : Out1 :=
  onAgg s fun g => g.qpCreate c pd.toNat (qpArgs x)

/-- QP_RECONNECT (R624): Drains and resets a queue pair with new parameters. -/
def execQpReconnect (c : Caller) (qpn : BitVec 24) (x : QpParams) (s : State) : Out1 :=
  onAgg s fun g => g.qpReconnect c qpn.toNat (qpArgs x)

/-- QP_DESTROY (R625): Drains and frees a queue pair. -/
def execQpDestroy (c : Caller) (qpn : BitVec 24) (s : State) : Out1 :=
  onAgg s fun g => g.qpDestroy c qpn.toNat

/-- ANALYSIS_PORT_LINK_CHANGE (R603): An analysis port loses or regains link, which sets LINK_DOWN0 or LINK_DOWN1 and changes UP0 or UP1. -/
def execAnalysisPortLinkChange (port : Fin 2) (up : Bool) (s : State) : Out1 :=
  onAgg s fun g => g.whenPowered (·.apLink port.val up)

/-- LOCAL_ACK_TIMEOUT (R605): The local ACK timeout of a queue pair expires on a CQ write or notice the aggregator sent as requester, and it retries or moves the queue pair to ERROR after RETRY attempts. -/
def execLocalAckTimeout (qpn : BitVec 24) (s : State) : Out1 :=
  onAgg s fun g => g.whenFw (·.ackTimeout qpn.toNat)

/-- REQUESTER_ACK_RECEIVE (R605): An ACK or NAK arrives for a CQ write, CQ tail write or revocation notice that the aggregator sent as requester. -/
def execRequesterAckReceive (qpn psn : BitVec 24) (nak : Option (BitVec 8)) (s : State) : Out1 :=
  onAgg s fun g => g.whenFw (·.requesterAck qpn.toNat psn.toNat (nak.map (·.toNat)))

/-- CNP_RECEIVE (R604): A congestion notification packet arrives on an analysis port and is counted in CNP_RX without changing the sending rate. -/
def execCnpReceive (port : Fin 2) (s : State) : Out1 :=
  onAgg s fun g => g.whenFw (·.cnpReceive port.val)

end Sys2Proof.Machine
end

