-- ==== Sys2Proof/Machine/Dispatch.lean ====
section
/-!
DEFINITION. Dispatch.lean: one arm per command: a direct call of its meaning, or rejected by name.
-/
namespace Sys2Proof.Machine

/-- The effect of a command on everything but the queue. -/
def exec (i : Instr) (s : State) : Host.Outcome State Fault Refusal :=
  match i with
  | .registerWrite t off v cycle => Sys2Proof.Machine.execRegisterWrite t off v cycle s
  | .latchedRead t rd => Sys2Proof.Machine.execLatchedRead t rd s
  | .todMessage m => Sys2Proof.Machine.execTodMessage m s
  | .htPpsEdge => Sys2Proof.Machine.execHtPpsEdge s
  | .htPpsLoss => Sys2Proof.Machine.execHtPpsLoss s
  | .htRefLoss => Sys2Proof.Machine.execHtRefLoss s
  | .rootInputsReturn pps ref => Sys2Proof.Machine.execRootInputsReturn pps ref s
  | .timeExchangeStart alt => Sys2Proof.Machine.execTimeExchangeStart alt s
  | .timeExchangeRequest k m => Sys2Proof.Machine.execTimeExchangeRequest k m s
  | .timeExchangeReply k m => Sys2Proof.Machine.execTimeExchangeReply k m s
  | .timeExchangeFail alt => Sys2Proof.Machine.execTimeExchangeFail alt s
  | .partnerHtCompare theirs => Sys2Proof.Machine.execPartnerHtCompare theirs s
  | .plumbBeatDue => Sys2Proof.Machine.execPlumbBeatDue s
  | .plumbBeatReceive p w => Sys2Proof.Machine.execPlumbBeatReceive p w s
  | .beatMissed p => Sys2Proof.Machine.execBeatMissed p s
  | .stroke => Sys2Proof.Machine.execStroke s
  | .clkRegionEdge r pin asserted => Sys2Proof.Machine.execClkRegionEdge r pin asserted s
  | .setTimeSourceSelect c source force => Sys2Proof.Machine.execSetTimeSourceSelect c source force s
  | .scheduleInit c epoch period => Sys2Proof.Machine.execScheduleInit c epoch period s
  | .scheduleChange c win period => Sys2Proof.Machine.execScheduleChange c win period s
  | .linkAsym c k ps => Sys2Proof.Machine.execLinkAsym c k ps s
  | .dieportAsym c p ps => Sys2Proof.Machine.execDieportAsym c p ps s
  | .getTimeStatus c target => Sys2Proof.Machine.execGetTimeStatus c target s
  | .powerDomainChange pdom => Sys2Proof.Machine.execPowerDomainChange pdom s
  | .blockCapture b vals => Sys2Proof.Machine.execBlockCapture b vals s
  | .snapshotComplete => Sys2Proof.Machine.execSnapshotComplete s
  | .blockStall b => Sys2Proof.Machine.execBlockStall b s
  | .lateCaptureRelease b => Sys2Proof.Machine.execLateCaptureRelease b s
  | .chCommit src mask => Sys2Proof.Machine.execChCommit src mask s
  | .chCommitCancel src mask => Sys2Proof.Machine.execChCommitCancel src mask s
  | .spillWriteDone => Sys2Proof.Machine.execSpillWriteDone s
  | .spillDmaError => Sys2Proof.Machine.execSpillDmaError s
  | .spillCfgWrite v => Sys2Proof.Machine.execSpillCfgWrite v s
  | .chFlush src mask => Sys2Proof.Machine.execChFlush src mask s
  | .resendStart src mask => Sys2Proof.Machine.execResendStart src mask s
  | .resendDone => Sys2Proof.Machine.execResendDone s
  | .chkStart src cont => Sys2Proof.Machine.execChkStart src cont s
  | .chkDone => Sys2Proof.Machine.execChkDone s
  | .chkError good => Sys2Proof.Machine.execChkError good s
  | .frameReceive p resent f cfg => Sys2Proof.Machine.execFrameReceive p resent f cfg s
  | .ingestCutoff n => Sys2Proof.Machine.execIngestCutoff n s
  | .codecRunEncode c flush slot src len kind dst => Sys2Proof.Machine.execCodecRunEncode c flush slot src len kind dst s
  | .codecRunDecode c flush slot src len kind dst => Sys2Proof.Machine.execCodecRunDecode c flush slot src len kind dst s
  | .codecSave c slot dst release => Sys2Proof.Machine.execCodecSave c slot dst release s
  | .codecRestore c slot src => Sys2Proof.Machine.execCodecRestore c slot src s
  | .cvuConfigure c k width poly init refIn refOut xorOut => Sys2Proof.Machine.execCvuConfigure c k width poly init refIn refOut xorOut s
  | .cvuScan c k addr len cont => Sys2Proof.Machine.execCvuScan c k addr len cont s
  | .cvuRead c k => Sys2Proof.Machine.execCvuRead c k s
  | .cvuWrite c k v => Sys2Proof.Machine.execCvuWrite c k v s
  | .traceRetire n r => Sys2Proof.Machine.execTraceRetire n r s
  | .exchangeMark n recv xid => Sys2Proof.Machine.execExchangeMark n recv xid s
  | .traceContextChange n priv secure pc => Sys2Proof.Machine.execTraceContextChange n priv secure pc s
  | .corePowerDown n => Sys2Proof.Machine.execCorePowerDown n s
  | .corePowerUp n priv secure pc => Sys2Proof.Machine.execCorePowerUp n priv secure pc s
  | .traceOverflow t => Sys2Proof.Machine.execTraceOverflow t s
  | .chunkClose t => Sys2Proof.Machine.execChunkClose t s
  | .trigInEdge lines => Sys2Proof.Machine.execTrigInEdge lines s
  | .traceStart e => Sys2Proof.Machine.execTraceStart e s
  | .traceStopEvent e => Sys2Proof.Machine.execTraceStopEvent e s
  | .traceStopDelayEnd => Sys2Proof.Machine.execTraceStopDelayEnd s
  | .trcCtlStart src => Sys2Proof.Machine.execTrcCtlStart src s
  | .trcCtlStop src => Sys2Proof.Machine.execTrcCtlStop src s
  | .trigOutPulseEnd k => Sys2Proof.Machine.execTrigOutPulseEnd k s
  | .traceBufDmaError => Sys2Proof.Machine.execTraceBufDmaError s
  | .trcAuth src v => Sys2Proof.Machine.execTrcAuth src v s
  | .authExpire => Sys2Proof.Machine.execAuthExpire s
  | .logSubmit v => Sys2Proof.Machine.execLogSubmit v s
  | .logByteConsume => Sys2Proof.Machine.execLogByteConsume s
  | .logDmaError => Sys2Proof.Machine.execLogDmaError s
  | .atuTraceCtlStart c p => Sys2Proof.Machine.execAtuTraceCtlStart c p s
  | .atuTraceCtlStop c p => Sys2Proof.Machine.execAtuTraceCtlStop c p s
  | .atuTraceCtlAuthorise c p token expiry => Sys2Proof.Machine.execAtuTraceCtlAuthorise c p token expiry s
  | .atuTraceCtlStatus c p => Sys2Proof.Machine.execAtuTraceCtlStatus c p s
  | .ageMeasure vals => Sys2Proof.Machine.execAgeMeasure vals s
  | .ageSiteFault k => Sys2Proof.Machine.execAgeSiteFault k s
  | .fitSample => Sys2Proof.Machine.execFitSample s
  | .lifeSecondsWrite v => Sys2Proof.Machine.execLifeSecondsWrite v s
  | .lifeSecondTick => Sys2Proof.Machine.execLifeSecondTick s
  | .recoatCycle => Sys2Proof.Machine.execRecoatCycle s
  | .sandDue n => Sys2Proof.Machine.execSandDue n s
  | .sandGrant mask => Sys2Proof.Machine.execSandGrant mask s
  | .sandDone n pass => Sys2Proof.Machine.execSandDone n pass s
  | .sandGrantWithdraw n => Sys2Proof.Machine.execSandGrantWithdraw n s
  | .sandRerequest n => Sys2Proof.Machine.execSandRerequest n s
  | .sandTimeout n => Sys2Proof.Machine.execSandTimeout n s
  | .sandSoftDeadline n => Sys2Proof.Machine.execSandSoftDeadline n s
  | .sandHardDeadline n => Sys2Proof.Machine.execSandHardDeadline n s
  | .sandRetest n => Sys2Proof.Machine.execSandRetest n s
  | .sandCfgWrite src v => Sys2Proof.Machine.execSandCfgWrite src v s
  | .sandTimingWrite src deadlines v => Sys2Proof.Machine.execSandTimingWrite src deadlines v s
  | .sandRunNow src mask => Sys2Proof.Machine.execSandRunNow src mask s
  | .sandClearFailed src mask => Sys2Proof.Machine.execSandClearFailed src mask s
  | .sandingPlanSet c p mask interval soft hard => Sys2Proof.Machine.execSandingPlanSet c p mask interval soft hard s
  | .sandingPlanRunNow c p mask => Sys2Proof.Machine.execSandingPlanRunNow c p mask s
  | .sandingPlanClearFailed c p mask => Sys2Proof.Machine.execSandingPlanClearFailed c p mask s
  | .sandingPlanStatus c p => Sys2Proof.Machine.execSandingPlanStatus c p s
  | .evrHostCommit v => Sys2Proof.Machine.execEvrHostCommit v s
  | .evrRdDataRead rd => Sys2Proof.Machine.execEvrRdDataRead rd s
  | .evrFlushCtl src v => Sys2Proof.Machine.execEvrFlushCtl src v s
  | .evrFaultFlush => Sys2Proof.Machine.execEvrFaultFlush s
  | .evrFlushDone => Sys2Proof.Machine.execEvrFlushDone s
  | .evrFlushErr => Sys2Proof.Machine.execEvrFlushErr s
  | .evrLoad => Sys2Proof.Machine.execEvrLoad s
  | .pwrFail asserted => Sys2Proof.Machine.execPwrFail asserted s
  | .atuPor => Sys2Proof.Machine.execAtuPor s
  | .atuRst => Sys2Proof.Machine.execAtuRst s
  | .mainPwrokLow => Sys2Proof.Machine.execMainPwrokLow s
  | .atuResetCtlWrite src v => Sys2Proof.Machine.execAtuResetCtlWrite src v s
  | .mainResetRelease dieId => Sys2Proof.Machine.execMainResetRelease dieId s
  | .atuReady => Sys2Proof.Machine.execAtuReady s
  | .atuOwnerWrite v => Sys2Proof.Machine.execAtuOwnerWrite v s
  | .registerRequest p m => Sys2Proof.Machine.execRegisterRequest p m s
  | .registerResponse p m => Sys2Proof.Machine.execRegisterResponse p m s
  | .oobReset p blocks => Sys2Proof.Machine.execOobReset p blocks s
  | .diePortFlitSend e => Sys2Proof.Machine.execDiePortFlitSend e s
  | .diePortFlitReceive e f cfg => Sys2Proof.Machine.execDiePortFlitReceive e f cfg s
  | .retryTimeout e => Sys2Proof.Machine.execRetryTimeout e s
  | .linkIdleTimeout e => Sys2Proof.Machine.execLinkIdleTimeout e s
  | .blockLockLoss e => Sys2Proof.Machine.execBlockLockLoss e s
  | .trainingStart e => Sys2Proof.Machine.execTrainingStart e s
  | .blockLock e => Sys2Proof.Machine.execBlockLock e s
  | .portIdentity p caps ident die => Sys2Proof.Machine.execPortIdentity p caps ident die s
  | .loopbackReturn p => Sys2Proof.Machine.execLoopbackReturn p s
  | .loopbackMeasure p rtt => Sys2Proof.Machine.execLoopbackMeasure p rtt s
  | .trainingFail e => Sys2Proof.Machine.execTrainingFail e s
  | .trainingWaitEnd e => Sys2Proof.Machine.execTrainingWaitEnd e s
  | .safetyBeatSend => Sys2Proof.Machine.execSafetyBeatSend s
  | .safeInChange level => Sys2Proof.Machine.execSafeInChange level s
  | .safetyFlitReceive p m => Sys2Proof.Machine.execSafetyFlitReceive p m s
  | .safetyBeatMiss p => Sys2Proof.Machine.execSafetyBeatMiss p s
  | .skimCodewordReceive k lane corrected flit => Sys2Proof.Machine.execSkimCodewordReceive k lane corrected flit s
  | .skimFlitBuild k => Sys2Proof.Machine.execSkimFlitBuild k s
  | .skimFlitReceive k f => Sys2Proof.Machine.execSkimFlitReceive k f s
  | .skimLinkTrain k lanes tray role peer variant asym0 asym1 => Sys2Proof.Machine.execSkimLinkTrain k lanes tray role peer variant asym0 asym1 s
  | .laneRemove k lane unc corr symbols lost at_ => Sys2Proof.Machine.execLaneRemove k lane unc corr symbols lost at_ s
  | .laneChange k at_ mask => Sys2Proof.Machine.execLaneChange k at_ mask s
  | .laneHoldoffEnd k lane => Sys2Proof.Machine.execLaneHoldoffEnd k lane s
  | .laneSoakEnd k lane unc corr symbols at_ => Sys2Proof.Machine.execLaneSoakEnd k lane unc corr symbols at_ s
  | .laneLockoutEnd k lane => Sys2Proof.Machine.execLaneLockoutEnd k lane s
  | .skimSafetySend => Sys2Proof.Machine.execSkimSafetySend s
  | .skimSafetyReceive k m => Sys2Proof.Machine.execSkimSafetyReceive k m s
  | .gateEntryStart => Sys2Proof.Machine.execGateEntryStart s
  | .gateCommit => Sys2Proof.Machine.execGateCommit s
  | .gateCancel => Sys2Proof.Machine.execGateCancel s
  | .tc2Expire k => Sys2Proof.Machine.execTc2Expire k s
  | .creditStall k cls => Sys2Proof.Machine.execCreditStall k cls s
  | .slotRelease k slot => Sys2Proof.Machine.execSlotRelease k slot s
  | .releaseLate k cls => Sys2Proof.Machine.execReleaseLate k cls s
  | .aggStroke => Sys2Proof.Machine.execAggStroke s
  | .roundClose => Sys2Proof.Machine.execRoundClose s
  | .partnerSelfValues r vals => Sys2Proof.Machine.execPartnerSelfValues r vals s
  | .skimUpSend r => Sys2Proof.Machine.execSkimUpSend r s
  | .skimUpReceive k m => Sys2Proof.Machine.execSkimUpReceive k m s
  | .skimMerge r => Sys2Proof.Machine.execSkimMerge r s
  | .rootExchange r x => Sys2Proof.Machine.execRootExchange r x s
  | .rootDecide r => Sys2Proof.Machine.execRootDecide r s
  | .downForward r => Sys2Proof.Machine.execDownForward r s
  | .downReceive src m => Sys2Proof.Machine.execDownReceive src m s
  | .downUse r said => Sys2Proof.Machine.execDownUse r said s
  | .abortReceive m => Sys2Proof.Machine.execAbortReceive m s
  | .roundAbortTimeout r => Sys2Proof.Machine.execRoundAbortTimeout r s
  | .treeJoin => Sys2Proof.Machine.execTreeJoin s
  | .joinReceive k depth height => Sys2Proof.Machine.execJoinReceive k depth height s
  | .joinReply k ack => Sys2Proof.Machine.execJoinReply k ack s
  | .reroute => Sys2Proof.Machine.execReroute s
  | .leaveReceive k r => Sys2Proof.Machine.execLeaveReceive k r s
  | .adoptReceive k r height => Sys2Proof.Machine.execAdoptReceive k r height s
  | .adoptReply k ack depth => Sys2Proof.Machine.execAdoptReply k ack depth s
  | .adoptRetry => Sys2Proof.Machine.execAdoptRetry s
  | .depthReceive k r depth => Sys2Proof.Machine.execDepthReceive k r depth s
  | .returnPrimaryTimer => Sys2Proof.Machine.execReturnPrimaryTimer s
  | .skimSetMetrics c setId act count addr => Sys2Proof.Machine.execSkimSetMetrics c setId act count addr s
  | .skimTreeConfigure c x => Sys2Proof.Machine.execSkimTreeConfigure c x s
  | .skimTreeReturnPrimary c => Sys2Proof.Machine.execSkimTreeReturnPrimary c s
  | .skimTreeDissolve c act => Sys2Proof.Machine.execSkimTreeDissolve c act s
  | .skimStatus c r dst => Sys2Proof.Machine.execSkimStatus c r dst s
  | .stationRun c addr count => Sys2Proof.Machine.execStationRun c addr count s
  | .stationKat c kind k own run pass cycles => Sys2Proof.Machine.execStationKat c kind k own run pass cycles s
  | .stationService c kind k inService => Sys2Proof.Machine.execStationService c kind k inService s
  | .stationStatus c w dst => Sys2Proof.Machine.execStationStatus c w dst s
  | .windowProgramStart n => Sys2Proof.Machine.execWindowProgramStart n s
  | .runComplete who cycles corrected err => Sys2Proof.Machine.execRunComplete who cycles corrected err s
  | .scoringSkip n => Sys2Proof.Machine.execScoringSkip n s
  | .stationSandDue kind k => Sys2Proof.Machine.execStationSandDue kind k s
  | .stationSandForce kind k => Sys2Proof.Machine.execStationSandForce kind k s
  | .stationTestResult kind k pass => Sys2Proof.Machine.execStationTestResult kind k pass s
  | .rankCode n => Sys2Proof.Machine.execRankCode n s
  | .stencilLookup n e t tree hits => Sys2Proof.Machine.execStencilLookup n e t tree hits s
  | .tcamBankRewrite b => Sys2Proof.Machine.execTcamBankRewrite b s
  | .entityPut c die src act => Sys2Proof.Machine.execEntityPut c die src act s
  | .entityDelete c die act => Sys2Proof.Machine.execEntityDelete c die act s
  | .entityRead c die dst => Sys2Proof.Machine.execEntityRead c die dst s
  | .entityStatus c => Sys2Proof.Machine.execEntityStatus c s
  | .stencilLoad c e addr len => Sys2Proof.Machine.execStencilLoad c e addr len s
  | .stencilActivate c e act => Sys2Proof.Machine.execStencilActivate c e act s
  | .stencilUnload c e act => Sys2Proof.Machine.execStencilUnload c e act s
  | .stencilStatus c e => Sys2Proof.Machine.execStencilStatus c e s
  | .ensembleFree n e => Sys2Proof.Machine.execEnsembleFree n e s
  | .rankDeadline r => Sys2Proof.Machine.execRankDeadline r s
  | .levelPlace => Sys2Proof.Machine.execLevelPlace s
  | .dustsheetConfigure c budget mean minMean metric allow => Sys2Proof.Machine.execDustsheetConfigure c budget mean minMean metric allow s
  | .dustsheetClearSuspect c => Sys2Proof.Machine.execDustsheetClearSuspect c s
  | .dustsheetSeed c addr => Sys2Proof.Machine.execDustsheetSeed c addr s
  | .dustsheetStatus c => Sys2Proof.Machine.execDustsheetStatus c s
  | .expelApply c die raised from_ expiry tokens count => Sys2Proof.Machine.execExpelApply c die raised from_ expiry tokens count s
  | .expelRestore c die => Sys2Proof.Machine.execExpelRestore c die s
  | .expelForwardReceive n die raised from_ expiry token => Sys2Proof.Machine.execExpelForwardReceive n die raised from_ expiry token s
  | .pairSummaryReceive m => Sys2Proof.Machine.execPairSummaryReceive m s
  | .pairSummaryLate n r => Sys2Proof.Machine.execPairSummaryLate n r s
  | .disagreeRunLogReceive n r logs => Sys2Proof.Machine.execDisagreeRunLogReceive n r logs s
  | .disagreeKatResult n r mine theirs => Sys2Proof.Machine.execDisagreeKatResult n r mine theirs s
  | .disagreeRedigestReceive n r mine theirs => Sys2Proof.Machine.execDisagreeRedigestReceive n r mine theirs s
  | .disagreeAdopt n r t records image rows => Sys2Proof.Machine.execDisagreeAdopt n r t records image rows s
  | .disagreeTimeout n r => Sys2Proof.Machine.execDisagreeTimeout n r s
  | .verdictReadRecords c die first windows dst => Sys2Proof.Machine.execVerdictReadRecords c die first windows dst s
  | .verdictReadRecs c from_ max dst => Sys2Proof.Machine.execVerdictReadRecs c from_ max dst s
  | .disagreeStatus c r => Sys2Proof.Machine.execDisagreeStatus c r s
  | .sqDoorbell n v => Sys2Proof.Machine.execSqDoorbell n v s
  | .cqHeadWrite n v => Sys2Proof.Machine.execCqHeadWrite n v s
  | .mbxRestart n => Sys2Proof.Machine.execMbxRestart n s
  | .udpSubmit addr port m => Sys2Proof.Machine.execUdpSubmit addr port m s
  | .udpAck addr port m => Sys2Proof.Machine.execUdpAck addr port m s
  | .udpResend addr port m => Sys2Proof.Machine.execUdpResend addr port m s
  | .descriptorAdmit n => Sys2Proof.Machine.execDescriptorAdmit n s
  | .nop c => Sys2Proof.Machine.execNop c s
  | .getInfo c => Sys2Proof.Machine.execGetInfo c s
  | .getCaps c => Sys2Proof.Machine.execGetCaps c s
  | .readCounters c dst => Sys2Proof.Machine.execReadCounters c dst s
  | .readGlobalCounters c dst => Sys2Proof.Machine.execReadGlobalCounters c dst s
  | .atuWrite c p off v => Sys2Proof.Machine.execAtuWrite c p off v s
  | .atuRead c p off count => Sys2Proof.Machine.execAtuRead c p off count s
  | .atuAccessTimeout p tag => Sys2Proof.Machine.execAtuAccessTimeout p tag s
  | .atuReset c p kind => Sys2Proof.Machine.execAtuReset c p kind s
  | .atuResetTimeout p => Sys2Proof.Machine.execAtuResetTimeout p s
  | .eventLogRead c source port from_ max dst => Sys2Proof.Machine.execEventLogRead c source port from_ max dst s
  | .waitforGraph c chip dst max => Sys2Proof.Machine.execWaitforGraph c chip dst max s
  | .jobCreate c tag hawk hbm bind queueMs => Sys2Proof.Machine.execJobCreate c tag hawk hbm bind queueMs s
  | .jobCreateTimeout => Sys2Proof.Machine.execJobCreateTimeout s
  | .jobAddDies c list count => Sys2Proof.Machine.execJobAddDies c list count s
  | .jobLoadModelLocal c addr len => Sys2Proof.Machine.execJobLoadModelLocal c addr len s
  | .jobLoadModelReceive c pid digest => Sys2Proof.Machine.execJobLoadModelReceive c pid digest s
  | .jobLoadModelSend c pid addr len deadline members => Sys2Proof.Machine.execJobLoadModelSend c pid addr len deadline members s
  | .jobArm c earliest hold => Sys2Proof.Machine.execJobArm c earliest hold s
  | .armExpire => Sys2Proof.Machine.execArmExpire s
  | .jobCommit c act => Sys2Proof.Machine.execJobCommit c act s
  | .jobDisarm c => Sys2Proof.Machine.execJobDisarm c s
  | .commitOutcomeReceive n code => Sys2Proof.Machine.execCommitOutcomeReceive n code s
  | .jobTeardown c last => Sys2Proof.Machine.execJobTeardown c last s
  | .jobRelease x => Sys2Proof.Machine.execJobRelease x s
  | .areaZeroed => Sys2Proof.Machine.execAreaZeroed s
  | .jobStatus c => Sys2Proof.Machine.execJobStatus c s
  | .pasteChunkReceive m => Sys2Proof.Machine.execPasteChunkReceive m s
  | .pasteHaveSend pid => Sys2Proof.Machine.execPasteHaveSend pid s
  | .pasteHaveReceive src m holds => Sys2Proof.Machine.execPasteHaveReceive src m holds s
  | .pasteDeadline pid => Sys2Proof.Machine.execPasteDeadline pid s
  | .pasteDecideReceive m => Sys2Proof.Machine.execPasteDecideReceive m s
  | .pasteFetchReceive src m => Sys2Proof.Machine.execPasteFetchReceive src m s
  | .pasteReparent pid left => Sys2Proof.Machine.execPasteReparent pid left s
  | .pasteRejoinReceive k m => Sys2Proof.Machine.execPasteRejoinReceive k m s
  | .pasteDecideProbe pid => Sys2Proof.Machine.execPasteDecideProbe pid s
  | .pasteAbandon pid => Sys2Proof.Machine.execPasteAbandon pid s
  | .pasteStagingFree => Sys2Proof.Machine.execPasteStagingFree s
  | .rdmaWrite port pkt memError => Sys2Proof.Machine.execRdmaWrite port pkt memError s
  | .rdmaRead port pkt memError => Sys2Proof.Machine.execRdmaRead port pkt memError s
  | .rdmaSend port pkt memError => Sys2Proof.Machine.execRdmaSend port pkt memError s
  | .qpContextFetched qpn ns => Sys2Proof.Machine.execQpContextFetched qpn ns s
  | .windowOpen c pd base len access qpn notify => Sys2Proof.Machine.execWindowOpen c pd base len access qpn notify s
  | .windowRevoke c w rkey => Sys2Proof.Machine.execWindowRevoke c w rkey s
  | .revokeInstant w => Sys2Proof.Machine.execRevokeInstant w s
  | .revokeDrained w => Sys2Proof.Machine.execRevokeDrained w s
  | .revokeDrainBound w => Sys2Proof.Machine.execRevokeDrainBound w s
  | .pdCreate c => Sys2Proof.Machine.execPdCreate c s
  | .pdDestroy c pd => Sys2Proof.Machine.execPdDestroy c pd s
  | .qpCreate c pd x => Sys2Proof.Machine.execQpCreate c pd x s
  | .qpReconnect c qpn x => Sys2Proof.Machine.execQpReconnect c qpn x s
  | .qpDestroy c qpn => Sys2Proof.Machine.execQpDestroy c qpn s
  | .powerSetState c st => Sys2Proof.Machine.execPowerSetState c st s
  | .powerSetCap c w => Sys2Proof.Machine.execPowerSetCap c w s
  | .powerSetMargin c d lv => Sys2Proof.Machine.execPowerSetMargin c d lv s
  | .powerStatus c => Sys2Proof.Machine.execPowerStatus c s
  | .powerStepDone => Sys2Proof.Machine.execPowerStepDone s
  | .capEvaluate mw => Sys2Proof.Machine.execCapEvaluate mw s
  | .thermalEvaluate temps => Sys2Proof.Machine.execThermalEvaluate temps s
  | .droopTrip => Sys2Proof.Machine.execDroopTrip s
  | .droopRelease => Sys2Proof.Machine.execDroopRelease s
  | .stepHoldEnd => Sys2Proof.Machine.execStepHoldEnd s
  | .vrAlert => Sys2Proof.Machine.execVrAlert s
  | .vrAlertClear => Sys2Proof.Machine.execVrAlertClear s
  | .coolantStop => Sys2Proof.Machine.execCoolantStop s
  | .aggAgeMeasure vals faults => Sys2Proof.Machine.execAggAgeMeasure vals faults s
  | .aggRecoatCycle => Sys2Proof.Machine.execAggRecoatCycle s
  | .aggFitSave ok => Sys2Proof.Machine.execAggFitSave ok s
  | .safeInPathTest fails => Sys2Proof.Machine.execSafeInPathTest fails s
  | .siEvaluate t0 t1 switches => Sys2Proof.Machine.execSiEvaluate t0 t1 switches s
  | .unknownTimeout p => Sys2Proof.Machine.execUnknownTimeout p s
  | .safeRetire p => Sys2Proof.Machine.execSafeRetire p s
  | .siSelfTest memory config clock corrected t0 t1 => Sys2Proof.Machine.execSiSelfTest memory config clock corrected t0 t1 s
  | .lockstepMismatch => Sys2Proof.Machine.execLockstepMismatch s
  | .siRailFault => Sys2Proof.Machine.execSiRailFault s
  | .cpHeartbeat => Sys2Proof.Machine.execCpHeartbeat s
  | .coreReset => Sys2Proof.Machine.execCoreReset s
  | .pairKeepaliveSend => Sys2Proof.Machine.execPairKeepaliveSend s
  | .partnerCoreLost => Sys2Proof.Machine.execPartnerCoreLost s
  | .partnerSiLost => Sys2Proof.Machine.execPartnerSiLost s
  | .checkpointWrite => Sys2Proof.Machine.execCheckpointWrite s
  | .checkpointReceive m => Sys2Proof.Machine.execCheckpointReceive m s
  | .checkpointFail => Sys2Proof.Machine.execCheckpointFail s
  | .checkpointFetch k tray partners => Sys2Proof.Machine.execCheckpointFetch k tray partners s
  | .pairSyncStart c source fallback theirs => Sys2Proof.Machine.execPairSyncStart c source fallback theirs s
  | .pairSyncStateReceive x => Sys2Proof.Machine.execPairSyncStateReceive x s
  | .pairStatus c => Sys2Proof.Machine.execPairStatus c s
  | .modulePowerOn x coolant rom switches rails prog => Sys2Proof.Machine.execModulePowerOn x coolant rom switches rails prog s
  | .moduleReset x coolant prog => Sys2Proof.Machine.execModuleReset x coolant prog s
  | .primerFetch => Sys2Proof.Machine.execPrimerFetch s
  | .primerImageCheck m => Sys2Proof.Machine.execPrimerImageCheck m s
  | .primerSourceTimeout => Sys2Proof.Machine.execPrimerSourceTimeout s
  | .primerPassWaitEnd => Sys2Proof.Machine.execPrimerPassWaitEnd s
  | .imageReqReceive => Sys2Proof.Machine.execImageReqReceive s
  | .bootStatusSend => Sys2Proof.Machine.execBootStatusSend s
  | .hbmTrainingDone ok => Sys2Proof.Machine.execHbmTrainingDone ok s
  | .atuDiscovery p => Sys2Proof.Machine.execAtuDiscovery p s
  | .discoveryRetry p => Sys2Proof.Machine.execDiscoveryRetry p s
  | .powerFail => Sys2Proof.Machine.execPowerFail s
  | .powerReturn x coolant => Sys2Proof.Machine.execPowerReturn x coolant s
  | .holdupExhausted => Sys2Proof.Machine.execHoldupExhausted s
  | .inputOvercurrent => Sys2Proof.Machine.execInputOvercurrent s
  | .atuClkStop => Sys2Proof.Machine.execAtuClkStop s
  | .atuClkRestart => Sys2Proof.Machine.execAtuClkRestart s
  | .logMatcherEnable src v => Sys2Proof.Machine.execLogMatcherEnable src v s
  | .analysisPortLinkChange port up => Sys2Proof.Machine.execAnalysisPortLinkChange port up s
  | .localAckTimeout qpn => Sys2Proof.Machine.execLocalAckTimeout qpn s
  | .requesterAckReceive qpn psn nak => Sys2Proof.Machine.execRequesterAckReceive qpn psn nak s
  | .cnpReceive port => Sys2Proof.Machine.execCnpReceive port s
  | .pairKeepaliveReceive => Sys2Proof.Machine.execPairKeepaliveReceive s
  | .skimSafetyMiss k => Sys2Proof.Machine.execSkimSafetyMiss k s
  | .pairSyncRequestReceive => Sys2Proof.Machine.execPairSyncRequestReceive s

end Sys2Proof.Machine
end

