-- ==== Sys2Proof/Machine/Egress.lean ====
section
/-!
DEFINITION. Egress.lean: what leaves an analysis port, and when: R348 and R349 of spec/09_traffic.md. A port sends at 400 Gbit/s (R603), which is
50 bytes in a nanosecond.
-/
namespace Sys2Proof.Machine

/-- The quanta of the round robin (R340, R348). -/
def apQuantum (c : Nat) : Nat := if c = 5 then 16384 else 4096

/-- Packets held back join their queues as space frees: the control class first, the others as they came. -/
def Egress.release (now : Nat) (e : Egress) : Egress :=
  let order := (e.held.filter fun h => decide (h.1 = 3)) ++ e.held.filter fun h => decide (h.1 ≠ 3)
  order.foldl (fun (e : Egress) h => e.put now h.1 h.2) { e with held := [] }

/-- The class that sends next: TC3 before all, then TC5 and TC7 in their round robin (R348). -/
def Egress.next (e : Egress) : Option Nat × Drr :=
  let ready (c : Nat) : Bool := !(e.of c).queue.isEmpty
  let d := e.drr.sync [5, 7] ready
  if ready 3 then (some 3, d) else d.pick ready apQuantum (fun c => (((e.of c).queue.map Roce.size).head?).getD 0) 6

/-- The first packet of a queue leaves. -/
def ApQueue.leave (now : Nat) (q : ApQueue) : ApQueue :=
  { q with queue := q.queue.drop 1, headAt := now, delayMax := max q.delayMax (now - q.headAt) }

/-- The wire takes one packet, if it is free: the class, the packet, the egress after it. -/
def Egress.depart (now : Nat) (e : Egress) : Option (Nat × Roce × Egress) :=
  if 50 * now < e.wireAt then none
  else match e.next with
    | (some c, d) => (e.of c).queue.head?.map fun x =>
        (c, x, ({ e with drr := d, wireAt := max e.wireAt (50 * now - 49) + x.size + Config.frameExtra }.modQueue c (·.leave now)).release now)
    | (none, _) => none

/-- Up to `n` packets leave a port now; each is counted (R351, R635) and carries 8 times its class as DSCP (R349)
and ECT(0) (R604). -/
def Agg.drainPort (port : Nat) : Nat → Agg → Agg
  | 0, g => g
  | n + 1, g =>
    match (g.egress port).depart g.now with
    | none => g
    | some (c, x, e) =>
      let g := (g.modEgress port fun _ => e).inc (apBase port + 0x04) 1
      Agg.drainPort port n ((g.setReg64 (apSent port c) ((rget64 g.regs (apSent port c) + x.size) % 2 ^ 48)).send (.packet port (8 * c) 2 x))

/-- Both analysis ports send what the wire takes in this nanosecond. -/
def Agg.drainEgress (g : Agg) : Agg :=
  if g.fwRuns then [0, 1].foldl (fun (g : Agg) p => g.drainPort p (((g.egress p).queues.toList.map fun q => q.queue.length).sum)) g else g

end Sys2Proof.Machine
end

