-- ==== Sys2Proof/Machine/Tick.lean ====
section
/-!
DEFINITION. Tick.lean: one nanosecond of both machines, which is what a step on an empty queue does (notes/assumptions/1.md).
-/
namespace Sys2Proof.Machine

/-- AGG_LIFE_SECONDS advances with each whole second under power (R660). -/
def Agg.lifeTick (g : Agg) : Agg :=
  if g.time.elapsed % second = 0 then g.setRegN 0xC0024 ((g.fld 0xC0024 31 0 + 1) % 2 ^ 32) else g

/-- One nanosecond at the aggregator: HT runs under power (R37), the analysis ports send (R348) and queue pairs drain (R625), and READY
latches when time becomes LOCKED (R716). -/
def Agg.tick (g : Agg) : Agg :=
  if g.powered then ((g.withTime AggTime.tick).lifeTick).drainEgress.qpDrains.latchReady
  else g.withTime fun t => { t with elapsed := t.elapsed + 1 }

/-- One nanosecond of both machines. -/
def State.tick (s : State) : State := { s with atu := s.atu.tick, agg := s.agg.tick }

end Sys2Proof.Machine
end

