-- ==== Sys2Proof/Safety.lean ====
section
/-!
DEFINITION. Safety.lean: what a safe state is, in the terms that claims use: sparse tables in canonical form, the loop of the Safety Island, and
the words in which frames and completions are stated.
-/
namespace Sys2Proof.Machine

/-- A byte memory is in canonical form: addresses strictly rise, and no entry holds the value an unlisted address reads as. -/
def Memory.wf (m : SMap Byte) : Bool := swf 0 m

/-- A register file is in canonical form. -/
def Regs.wf (r : SMap Word) : Bool := swf 0 r

/-- The memories of both machines are in canonical form: host memory as the ATU sees it, the aggregator's Hawk SRAM and HBM, and the module's
configuration EEPROM. -/
def State.memoryWf (s : State) : Prop := Memory.wf s.atu.hostMem = true ∧ Memory.wf s.agg.mem = true ∧ Memory.wf s.agg.eeprom = true

/-- The loop of this module is closed: both switches conduct and no release is held (R674, R680). -/
def State.loopClosed (s : State) : Prop := s.agg.si.energised = true ∧ s.agg.si.tripped = false

/-! ### Frames -/

/-- The parts of an ATU but its registers. -/
inductive AtuPart where
  | time | samp | path | trace | log | age | sand | evr | bound | safe | portA | portB | hostMem
  deriving DecidableEq, Repr

/-- The parts of an aggregator but its registers. -/
inductive AggPart where
  | mem | ident | time | ports | links | gates | mbx | acc | ap | jobs | skim | bundle | codec | cvu
  | ingest | stn | stencil | scores | verdicts | elog | pwr | si | pair | boot | eeprom | chip | chipShown | outbox
  deriving DecidableEq, Repr

/-- A part of an ATU is the same in two states of it. -/
def AtuPart.same (p : AtuPart) (a b : Atu) : Prop :=
  match p with
  | .time => a.time = b.time
  | .samp => a.samp = b.samp
  | .path => a.path = b.path
  | .trace => a.trace = b.trace
  | .log => a.log = b.log
  | .age => a.age = b.age
  | .sand => a.sand = b.sand
  | .evr => a.evr = b.evr
  | .bound => a.bound = b.bound
  | .safe => a.safe = b.safe
  | .portA => a.portA = b.portA
  | .portB => a.portB = b.portB
  | .hostMem => a.hostMem = b.hostMem

/-- A part of an aggregator is the same in two states of it. -/
def AggPart.same (p : AggPart) (a b : Agg) : Prop :=
  match p with
  | .mem => a.mem = b.mem
  | .ident => a.ident = b.ident
  | .time => a.time = b.time
  | .ports => a.ports = b.ports
  | .links => a.links = b.links
  | .gates => a.gates = b.gates
  | .mbx => a.mbx = b.mbx
  | .acc => a.acc = b.acc
  | .ap => a.ap = b.ap
  | .jobs => a.jobs = b.jobs
  | .skim => a.skim = b.skim
  | .bundle => a.bundle = b.bundle
  | .codec => a.codec = b.codec
  | .cvu => a.cvu = b.cvu
  | .ingest => a.ingest = b.ingest
  | .stn => a.stn = b.stn
  | .stencil => a.stencil = b.stencil
  | .scores => a.scores = b.scores
  | .verdicts => a.verdicts = b.verdicts
  | .elog => a.elog = b.elog
  | .pwr => a.pwr = b.pwr
  | .si => a.si = b.si
  | .pair => a.pair = b.pair
  | .boot => a.boot = b.boot
  | .eeprom => a.eeprom = b.eeprom
  | .chip => a.chip = b.chip
  | .chipShown => a.chipShown = b.chipShown
  | .outbox => a.outbox = b.outbox

/-- An offset outside every range of a list; both ends of a range belong to it. -/
def Outside (l : List (Nat × Nat)) (k : Nat) : Prop := ∀ r ∈ l, k < r.1 ∨ r.2 < k

/-- Two register files agree outside some ranges of offsets; `none`: any register may differ. -/
def regsBut (rs : Option (List (Nat × Nat))) (a b : SMap Word) : Prop := ∀ l, rs = some l → ∀ k, Outside l k → rget b k = rget a k

/-- The frame of a command of the aggregator: whatever the state, it answers a next state, which differs from the state in the named parts and in
registers of the named ranges alone. -/
def AggFrame (c : Instr) (ps : List AggPart) (rs : Option (List (Nat × Nat))) : Prop :=
  ∀ s, ∃ t, exec c s = .next t ∧ t.atu = s.atu ∧ t.pending = s.pending ∧ regsBut rs s.agg.regs t.agg.regs ∧ ∀ p, p ∉ ps → p.same s.agg t.agg

/-- The frame of a command of the ATU. -/
def AtuFrame (c : Instr) (ps : List AtuPart) (rs : Option (List (Nat × Nat))) : Prop :=
  ∀ s, ∃ t, exec c s = .next t ∧ t.agg = s.agg ∧ t.pending = s.pending ∧ t.fresh = s.fresh ∧ regsBut rs s.atu.regs t.atu.regs ∧
    ∀ p, p ∉ ps → p.same s.atu t.atu

/-! ### Completions -/

/-- A command runs to a next state of which `P` holds. -/
def Runs (c : Instr) (s : State) (P : State → Prop) : Prop := ∃ t, exec c s = .next t ∧ P t

/-- What R519 and R537 ask of every command on a ring before its own checks: the Control Processor runs its firmware and does not stall, the
descriptor shows no fault, its CTX may be addressed from its ring, and no CHAIN ends it. -/
def Agg.takes (g : Agg) (c : Caller) : Prop :=
  g.admits = true ∧ ((g.inflightOf (who c)).map (·.codes)).getD [] = [] ∧ g.isChained c = false ∧ g.ctxCodes c = []

/-- A command on a ring completed with OK: its completion carries these results (width and value of each), and what was done before it stands. -/
def Agg.Completed (t : Agg) (c : Caller) (op : Nat) (res : List (Nat × Nat)) : Prop := ∃ h : Agg, t = h.done c op res

/-- A command starts register accesses on a die port: its job joins the others, and the port's jobs are looked through (R551). -/
def Agg.Started (t g : Agg) (c : Caller) (op p : Nat) (use : RegUse) (ops : List RegOp) : Prop :=
  ∃ h : Agg, t = h.kick p ∧
    h.acc.jobs = g.acc.jobs ++ [{ ident := g.acc.nextId, port := p, ring := c.ring.val, tag := c.tag.toNat, opcode := op, use := use, todo := ops }]

/-- A command may reach the die on a port (R557, R558, R718): ring 0, or a context that holds a die there; the port is in UP, and READY is set. -/
def Agg.mayReach (g : Agg) (c : Caller) (p : Nat) : Prop :=
  (c.ring.val = 0 ∨ g.portOfJob c.ring.val p = true) ∧ g.portUp p = true ∧ g.boot.ready = true

/-- One more message waits in a class of a skim link: a structured one, of a kind and with these numbers (R294, R375 to R391). -/
def Agg.Queued (t g : Agg) (k c : Nat) (kind : CtlKind) (nums : List Nat) : Prop :=
  ∃ q m, ((t.link k).txOf c).queue = ((g.link k).txOf c).queue ++ [q] ∧ q.ctl = some m ∧ m.kind = kind ∧ m.nums = nums

/-- A request to a peer is queued, or waits while 16 are outstanding to the peer or while older ones wait (R355). -/
def Agg.Asked (t g : Agg) (k : Nat) (kind : CtlKind) (nums : List Nat) : Prop :=
  (g.peerReqs k < 16 → (∀ j ∈ g.peerLinks k, (g.link j).reqWait = []) → t.Queued g k 3 kind nums) ∧
  (16 ≤ g.peerReqs k → ∃ q m, (t.link k).reqWait = (g.link k).reqWait ++ [q] ∧ q.ctl = some m ∧ m.kind = kind ∧ m.nums = nums)

/-- The side of the register window that an access comes from (R278). -/
def sideOf : RegFrom → Side
  | .host => .host
  | .port _ _ => .agg

/-- An ATU serves an access at once and refuses it with no code (R266, R276 to R279, R295, R751). -/
def Atu.accepts (a : Atu) (src : RegFrom) (wr : Bool) (off : Nat) (v : Word) (strb : Nat) : Prop :=
  a.bound.ready = true ∧ a.bound.inReset = false ∧ a.bound.clkRun = true ∧ (∀ p tag, src = .port p tag → a.outstanding p < 16) ∧
    a.accessCodes (sideOf src) wr off v strb = []

/-- A trace source emits a packet of at most `len` bytes as it stands (R174, R178 to R181, R192): it is live, no outcome waits, no SYNC or TIMESTAMP
is due, no branch was filtered, nothing is being discarded, and the open chunk, the only one in the queue, has room. -/
def Atu.plainEmit (a : Atu) (n : Fin 16) (len : Nat) : Prop :=
  a.srcLive n = true ∧ a.bound.clkRun = true ∧ (a.src n).atoms = [] ∧ a.syncDue (a.src n) = false ∧ (a.src n).filtered = false ∧ a.fld 0x3000 31 24 = 0 ∧
    (a.src n).stream.dropping = none ∧ (a.src n).stream.chunks = [] ∧ (a.src n).stream.dat.length + len < 56

/-- A number of idle steps in a row. -/
def State.idle : Nat → State → State
  | 0, s => s
  | n + 1, s => State.idle n s.tick

end Sys2Proof.Machine
end

