-- ==== Sys2Proof/Certificates/Slice0/Obligations.lean ====
section
/-!
DEFINITION. Obligations.lean: the statements, each a proposition about every state it names.
-/
open Sys2Proof Sys2Proof.Machine

/-- A step runs the command at the front of the queue, on the state with the rest of the queue. -/
def Obligations.StepRunsFront : Prop :=
  ∀ (s : State) (c : Instr) (rest : List Instr), s.pending = c :: rest → step s = exec c { s with pending := rest }

/-- With no command waiting, one nanosecond passes: a step answers a next state in which both machines' clocks have counted it, nothing waits
still, and no free value has been used. The instant of a command is the model's choice (notes/assumptions/1.md and 3.md). -/
def Obligations.IdleStepIsOneNanosecond : Prop :=
  ∀ s : State, s.pending = [] → ∃ t, step s = .next t ∧ t.pending = [] ∧ t.fresh = s.fresh ∧ t.atu.time.elapsed = s.atu.time.elapsed + 1 ∧
    t.agg.time.elapsed = s.agg.time.elapsed + 1 ∧
    (s.agg.powered = true → s.agg.time.slew = 0 → t.agg.time.ht = (s.agg.time.ht + 1) % 2 ^ 64) ∧
    (s.atu.time.state ≠ .unset → s.atu.time.slew = 0 → t.atu.time.ht = (s.atu.time.ht + 1) % 2 ^ 64) ∧
    (s.atu.time.state = .unset → t.atu.time.ht = s.atu.time.ht)

/-- Every command answers a next state, whatever the state, and leaves the queue alone: nothing in this block stops it. -/
def Obligations.EveryCommandAnswers : Prop := ∀ (c : Instr) (s : State), ∃ t, exec c s = .next t ∧ t.pending = s.pending

/-- Right after reset the memories are in canonical form, the module is unpowered with its loop open, the ATU is UNSET with HT 0, no stroke
schedule is known on either side, and nothing waits. -/
def Obligations.ResetState : Prop :=
  State.reset.memoryWf ∧ State.reset.agg.powered = false ∧ State.reset.agg.si.energised = false ∧ State.reset.atu.time.state = .unset ∧
    State.reset.atu.time.ht = 0 ∧ State.reset.atu.time.sched = none ∧ State.reset.agg.time.sched = none ∧ State.reset.pending = []

/-- Every step keeps every memory in canonical form. -/
def Obligations.MemoryStaysCanonical : Prop := ∀ s t : State, s.memoryWf → step s = .next t → t.memoryWf

/-- Nothing but MODULE_POWER_ON closes the loop: a step after which the switches conduct either began with them conducting, or ran that command
on an unpowered module whose ROM check, safety block and switch test were good (R671, R681, R703). -/
def Obligations.OnlyPowerOnClosesLoop : Prop :=
  ∀ s t : State, step s = .next t → t.agg.si.energised = true → s.agg.si.energised = true ∨
    ∃ x coolant rails prog rest, s.pending = .modulePowerOn x coolant true true rails prog :: rest ∧ s.agg.powered = false ∧
      blockGood (s.agg.program prog).eeprom 0x400 128 = true

/-- Slewing changes a time base by at most 50 ppm (R45, R60): over n idle nanoseconds, HT of a powered aggregator advances by n, give or take
one nanosecond for each 20,000 and one more. -/
def Obligations.SlewIsBounded : Prop :=
  ∀ (n : Nat) (s : State), s.agg.powered = true → 1000000 ≤ s.agg.time.ht → s.agg.time.ht + 2 * n < 2 ^ 64 →
    s.agg.time.ht + n ≤ (State.idle n s).agg.time.ht + (n / 20000 + 1) ∧
    (State.idle n s).agg.time.ht ≤ s.agg.time.ht + n + (n / 20000 + 1)

/-- R677: SAFE_RETIRE takes a port out of the watch set only while it is DOWN and watched; RETIRED is set and a RETIRE record made; otherwise it
has no effect. -/
def Obligations.SafeRetireRule : Prop :=
  (∀ (s : State) (p : BitVec 6), s.agg.fwRuns = true → (s.agg.port p.toNat).link.state = .down → (s.agg.watch p.toNat).watched = true →
    Runs (.safeRetire p) s fun t => (t.agg.watch p.toNat).watched = false ∧ wbit (t.agg.reg 0xD0004) 9 = true ∧
      ∃ r : EvrRec, r.typ = 0x28 ∧ r.source = p.toNat ∧ t.agg.elog.recs = trimLog 262144 (s.agg.elog.recs ++ [r])) ∧
  (∀ (s : State) (p : BitVec 6), (s.agg.port p.toNat).link.state ≠ .down ∨ (s.agg.watch p.toNat).watched = false →
    Runs (.safeRetire p) s fun t => t.agg = s.agg)

/-- R234: a test that overruns TEST_MAX_US ends as a failure with TIMEOUT set; SAND_DONE while SAND_RUN is deasserted is ignored. -/
def Obligations.SandTimeoutRule : Prop :=
  (∀ (s : State) (n : Fin 16), s.atu.bound.clkRun = true → (s.atu.sand[n]).run = true →
    (s.atu.sand[n]).runSince + 1000 * s.atu.fld 0x5A0C 19 0 ≤ s.atu.time.elapsed →
    Runs (.sandTimeout n) s fun t => t.atu.bit 0x5A10 4 = true ∧ (t.atu.sand[n]).run = false ∧
      ((s.atu.sand[n]).retest = true → (t.atu.sand[n]).failed = true) ∧
      ((s.atu.sand[n]).retest = false → (t.atu.sand[n]).retestAt = some (s.atu.life + s.atu.fld 0x5A0C 31 20))) ∧
  (∀ (s : State) (n : Fin 16) (pass : Bool), (s.atu.sand[n]).run = false → Runs (.sandDone n pass) s fun t => t.atu = s.atu)

/-- R214: a host memory error in a buffer skips the rest of it, as if it had END set, and sets DMA_ERR. -/
def Obligations.LogDmaErrorRule : Prop :=
  ∀ (s : State) (b : LogBuf) (rest : List LogBuf), s.atu.bit 0x3800 17 = true → s.atu.bound.clkRun = true → s.atu.log.queue = b :: rest →
    Runs .logDmaError s fun t => t.atu.log.queue = rest ∧ t.atu.log.off = 0 ∧ t.atu.bit 0x3810 10 = true ∧
      t.atu.log = (s.atu.logBufDone { b with last := true }).log

/-- What the sampling and frame commands leave as it is: each answers a next state that differs from the state in the named parts and in registers of the
named ranges alone; the other machine, the queue and every other register and memory are unchanged. Where no range is named (`none`), the command
is a register write or a reset, whose registers the statement about its effect names. -/
def Obligations.SamplingFrames : Prop :=
  (∀ pdom, AtuFrame (.powerDomainChange pdom) [.samp] (some [(0x18, 0x18), (0x400, 0x400), (0x450, 0x450)])) ∧
  (∀ b vals, AtuFrame (.blockCapture b vals) [.samp] (some [(0x404, 0x404)])) ∧
  (AtuFrame .snapshotComplete [.samp, .path, .portA, .portB] (some [(0x704, 0x704), (0x740, 0x740)])) ∧
  (∀ b, AtuFrame (.blockStall b) [.samp, .evr] (some [(0x400, 0x404), (0x444, 0x444), (0x6004, 0x6004), (0x6024, 0x6024), (0x6048, 0x604C)])) ∧
  (∀ b, AtuFrame (.lateCaptureRelease b) [.samp] (some [])) ∧
  (∀ src mask, AtuFrame (.chCommit src mask) [.time, .samp, .path, .trace, .log, .age, .sand, .evr, .bound, .safe, .portA, .portB, .hostMem] (none)) ∧
  (∀ src mask, AtuFrame (.chCommitCancel src mask) [.time, .samp, .path, .trace, .log, .age, .sand, .evr, .bound, .safe, .portA, .portB, .hostMem] (none)) ∧
  (AtuFrame .spillWriteDone [.path, .hostMem] (some [])) ∧
  (AtuFrame .spillDmaError [.path] (some [(0x704, 0x704), (0x718, 0x718), (0x740, 0x744), (0x800, 0x81F)])) ∧
  (∀ v, AtuFrame (.spillCfgWrite v) [.time, .samp, .path, .trace, .log, .age, .sand, .evr, .bound, .safe, .portA, .portB, .hostMem] (none)) ∧
  (∀ src mask, AtuFrame (.chFlush src mask) [.time, .samp, .path, .trace, .log, .age, .sand, .evr, .bound, .safe, .portA, .portB, .hostMem] (none)) ∧
  (∀ src mask, AtuFrame (.resendStart src mask) [.time, .samp, .path, .trace, .log, .age, .sand, .evr, .bound, .safe, .portA, .portB, .hostMem] (none)) ∧
  (AtuFrame .resendDone [.path] (some [(0x704, 0x704), (0x748, 0x748), (0x774, 0x774)])) ∧
  (∀ src cont, AtuFrame (.chkStart src cont) [.time, .samp, .path, .trace, .log, .age, .sand, .evr, .bound, .safe, .portA, .portB, .hostMem] (none)) ∧
  (AtuFrame .chkDone [.path] (some [(0x704, 0x704), (0x74C, 0x74C), (0x794, 0x7A4), (0x800, 0x81F)])) ∧
  (∀ good, AtuFrame (.chkError good) [.path] (some [(0x704, 0x704), (0x74C, 0x750), (0x794, 0x798), (0x7A4, 0x7A4), (0x800, 0x81F)]))

/-- What the trace and log commands leave as it is: each answers a next state that differs from the state in the named parts and in registers of the
named ranges alone; the other machine, the queue and every other register and memory are unchanged. Where no range is named (`none`), the command
is a register write or a reset, whose registers the statement about its effect names. -/
def Obligations.TraceFrames : Prop :=
  (∀ n r, AtuFrame (.traceRetire n r) [.trace, .hostMem] (some [(0x3008, 0x3008), (0x3044, 0x3044), (0x3050, 0x3054), (0x3100, 0x317F)])) ∧
  (∀ n recv xid, AtuFrame (.exchangeMark n recv xid) [.trace, .hostMem] (some [(0x3008, 0x3008), (0x3044, 0x3044), (0x3054, 0x3054)])) ∧
  (∀ n priv secure pc, AtuFrame (.traceContextChange n priv secure pc) [.trace, .hostMem] (some [(0x3008, 0x3008), (0x3044, 0x3044), (0x3054, 0x3054), (0x3100, 0x317F)])) ∧
  (∀ n, AtuFrame (.corePowerDown n) [.trace, .hostMem] (some [(0x3008, 0x3008), (0x3044, 0x3044), (0x3054, 0x3054), (0x3100, 0x317F)])) ∧
  (∀ n priv secure pc, AtuFrame (.corePowerUp n priv secure pc) [.trace, .hostMem] (some [(0x3008, 0x3008), (0x3044, 0x3044), (0x3054, 0x3054), (0x3100, 0x317F)])) ∧
  (∀ t, AtuFrame (.traceOverflow t) [.trace, .hostMem] (some [(0x3008, 0x3008), (0x3040, 0x3044), (0x3054, 0x3054), (0x3100, 0x317F)])) ∧
  (∀ t, AtuFrame (.chunkClose t) [.trace, .hostMem] (some [(0x3008, 0x3008), (0x3044, 0x3044), (0x3054, 0x3054)])) ∧
  (∀ lines, AtuFrame (.trigInEdge lines) [.trace, .hostMem] (some [(0x3008, 0x3008), (0x3044, 0x3044), (0x3050, 0x3054), (0x3100, 0x317F)])) ∧
  (∀ e, AtuFrame (.traceStart e) [.trace, .hostMem] (some [(0x3008, 0x3008), (0x3044, 0x3044), (0x3050, 0x3054), (0x3100, 0x317F)])) ∧
  (∀ e, AtuFrame (.traceStopEvent e) [.trace, .hostMem] (some [(0x3008, 0x3008), (0x3044, 0x3044), (0x3050, 0x3054), (0x3100, 0x317F)])) ∧
  (AtuFrame .traceStopDelayEnd [.trace, .hostMem] (some [(0x3008, 0x3008), (0x3044, 0x3044), (0x3054, 0x3054)])) ∧
  (∀ src, AtuFrame (.trcCtlStart src) [.time, .samp, .path, .trace, .log, .age, .sand, .evr, .bound, .safe, .portA, .portB, .hostMem] (none)) ∧
  (∀ src, AtuFrame (.trcCtlStop src) [.time, .samp, .path, .trace, .log, .age, .sand, .evr, .bound, .safe, .portA, .portB, .hostMem] (none)) ∧
  (∀ k, AtuFrame (.trigOutPulseEnd k) [.trace] (some [])) ∧
  (AtuFrame .traceBufDmaError [] (some [(0x800, 0x81F), (0x3000, 0x3000), (0x3008, 0x3008), (0x3048, 0x3048)])) ∧
  (∀ src v, AtuFrame (.trcAuth src v) [.time, .samp, .path, .trace, .log, .age, .sand, .evr, .bound, .safe, .portA, .portB, .hostMem] (none)) ∧
  (AtuFrame .authExpire [.trace, .hostMem] (some [(0x3008, 0x3008), (0x3044, 0x3044), (0x3054, 0x3058), (0x3100, 0x317F)])) ∧
  (∀ v, AtuFrame (.logSubmit v) [.time, .samp, .path, .trace, .log, .age, .sand, .evr, .bound, .safe, .portA, .portB, .hostMem] (none)) ∧
  (AtuFrame .logByteConsume [.trace, .log, .hostMem] (some [(0x3008, 0x3008), (0x3044, 0x3044), (0x3050, 0x3054), (0x3100, 0x317F), (0x3810, 0x3814), (0x3840, 0x3844), (0x4000, 0x4FFF)])) ∧
  (AtuFrame .logDmaError [.trace, .log, .hostMem] (some [(0x3008, 0x3008), (0x3044, 0x3044), (0x3050, 0x3054), (0x3100, 0x317F), (0x3810, 0x3814), (0x3840, 0x3848), (0x4000, 0x4FFF)])) ∧
  (∀ src v, AtuFrame (.logMatcherEnable src v) [.time, .samp, .path, .trace, .log, .age, .sand, .evr, .bound, .safe, .portA, .portB, .hostMem] (none))

/-- What the ageing, sanding and safety-input commands leave as it is: each answers a next state that differs from the state in the named parts and in registers of the
named ranges alone; the other machine, the queue and every other register and memory are unchanged. Where no range is named (`none`), the command
is a register write or a reset, whose registers the statement about its effect names. -/
def Obligations.HealthFrames : Prop :=
  (∀ vals, AtuFrame (.ageMeasure vals) [.age] (some [(0x5100, 0x58FF)])) ∧
  (∀ k, AtuFrame (.ageSiteFault k) [.evr] (some [(0x5008, 0x500C), (0x5048, 0x5048), (0x6004, 0x6004), (0x6024, 0x6024), (0x6048, 0x604C)])) ∧
  (AtuFrame .fitSample [.age, .evr] (some [(0x5008, 0x5008), (0x5044, 0x5044), (0x5100, 0x58FF), (0x6004, 0x6004), (0x6024, 0x6024), (0x6048, 0x604C)])) ∧
  (∀ v, AtuFrame (.lifeSecondsWrite v) [.time, .samp, .path, .trace, .log, .age, .sand, .evr, .bound, .safe, .portA, .portB, .hostMem] (none)) ∧
  (AtuFrame .lifeSecondTick [] (some [(0x6008, 0x6008)])) ∧
  (AtuFrame .recoatCycle [.samp, .age, .evr] (some [(0x5008, 0x5008), (0x5010, 0x5018), (0x5040, 0x5040), (0x504C, 0x5050), (0x6004, 0x6004), (0x6024, 0x6024), (0x6048, 0x604C)])) ∧
  (∀ n, AtuFrame (.sandDue n) [.sand] (some [])) ∧
  (∀ mask, AtuFrame (.sandGrant mask) [.trace, .sand, .hostMem] (some [(0x3008, 0x3008), (0x3044, 0x3044), (0x3054, 0x3054), (0x3100, 0x317F)])) ∧
  (∀ n pass, AtuFrame (.sandDone n pass) [.samp, .trace, .age, .sand, .evr, .hostMem] (some [(0x3008, 0x3008), (0x3044, 0x3044), (0x3054, 0x3054), (0x3100, 0x317F), (0x5008, 0x5008), (0x5010, 0x5018), (0x504C, 0x5050), (0x5A10, 0x5A10), (0x5A48, 0x5A48), (0x5A54, 0x5A54), (0x6004, 0x6004), (0x6024, 0x6024), (0x6048, 0x604C)])) ∧
  (∀ n, AtuFrame (.sandGrantWithdraw n) [.trace, .sand, .hostMem] (some [(0x3008, 0x3008), (0x3044, 0x3044), (0x3054, 0x3054), (0x3100, 0x317F), (0x5A10, 0x5A10), (0x5A4C, 0x5A4C)])) ∧
  (∀ n, AtuFrame (.sandRerequest n) [.sand] (some [])) ∧
  (∀ n, AtuFrame (.sandTimeout n) [.samp, .trace, .age, .sand, .evr, .hostMem] (some [(0x3008, 0x3008), (0x3044, 0x3044), (0x3054, 0x3054), (0x3100, 0x317F), (0x5008, 0x5008), (0x5010, 0x5018), (0x504C, 0x5050), (0x5A10, 0x5A10), (0x5A48, 0x5A48), (0x5A50, 0x5A50), (0x6004, 0x6004), (0x6024, 0x6024), (0x6048, 0x604C)])) ∧
  (∀ n, AtuFrame (.sandSoftDeadline n) [.sand, .evr] (some [(0x5A10, 0x5A10), (0x5A40, 0x5A40), (0x6004, 0x6004), (0x6024, 0x6024), (0x6048, 0x604C)])) ∧
  (∀ n, AtuFrame (.sandHardDeadline n) [.sand, .evr] (some [(0x5A10, 0x5A10), (0x5A44, 0x5A44), (0x6004, 0x6004), (0x6024, 0x6024), (0x6048, 0x604C)])) ∧
  (∀ n, AtuFrame (.sandRetest n) [.sand] (some [])) ∧
  (∀ src v, AtuFrame (.sandCfgWrite src v) [.time, .samp, .path, .trace, .log, .age, .sand, .evr, .bound, .safe, .portA, .portB, .hostMem] (none)) ∧
  (∀ src deadlines v, AtuFrame (.sandTimingWrite src deadlines v) [.time, .samp, .path, .trace, .log, .age, .sand, .evr, .bound, .safe, .portA, .portB, .hostMem] (none)) ∧
  (∀ src mask, AtuFrame (.sandRunNow src mask) [.time, .samp, .path, .trace, .log, .age, .sand, .evr, .bound, .safe, .portA, .portB, .hostMem] (none)) ∧
  (∀ src mask, AtuFrame (.sandClearFailed src mask) [.time, .samp, .path, .trace, .log, .age, .sand, .evr, .bound, .safe, .portA, .portB, .hostMem] (none)) ∧
  (AtuFrame .safetyBeatSend [.safe, .portA, .portB] (some [(0x6800, 0x6800), (0x6808, 0x6808), (0x6860, 0x6860)])) ∧
  (∀ level, AtuFrame (.safeInChange level) [.samp, .trace, .evr, .safe, .portA, .portB, .hostMem] (some [(0x3008, 0x3008), (0x3044, 0x3044), (0x3050, 0x3054), (0x3100, 0x317F), (0x6004, 0x6004), (0x6024, 0x6024), (0x6048, 0x604C), (0x6800, 0x68FF)])) ∧
  (∀ fails, AtuFrame (.safeInPathTest fails) [] (some [(0x6800, 0x6800), (0x6808, 0x6808), (0x6860, 0x6860)])) ∧
  (∀ p, AtuFrame (.loopbackReturn p) [.time, .safe, .portA, .portB] (some [(0x7000, 0x70FF)])) ∧
  (∀ p blocks, AtuFrame (.oobReset p blocks) [.time, .samp, .path, .trace, .log, .age, .sand, .bound, .safe, .portA, .portB] (none))

/-- What the time commands leave as it is: each answers a next state that differs from the state in the named parts and in registers of the
named ranges alone; the other machine, the queue and every other register and memory are unchanged. Where no range is named (`none`), the command
is a register write or a reset, whose registers the statement about its effect names. -/
def Obligations.TimeFrames : Prop :=
  (∀ m, AggFrame (.todMessage m) [.time] (some [(0x1000, 0x1000), (0x1044, 0x1044)])) ∧
  (AggFrame .htPpsEdge [.time] (some [(0x1000, 0x1000), (0x1040, 0x1044)])) ∧
  (AggFrame .htPpsLoss [.time] (some [(0x1000, 0x1000), (0x1048, 0x1048)])) ∧
  (AggFrame .htRefLoss [.time] (some [(0x1000, 0x1000), (0x1048, 0x1048)])) ∧
  (∀ pps ref, AggFrame (.rootInputsReturn pps ref) [.time] (some [(0x1000, 0x1000), (0x1040, 0x1044)])) ∧
  (∀ alt, AggFrame (.timeExchangeStart alt) [.time, .links] (some [(0x1000, 0x1000), (0x1048, 0x104C)])) ∧
  (∀ k m, AggFrame (.timeExchangeRequest k m) [.links] (some [])) ∧
  (∀ k m, AggFrame (.timeExchangeReply k m) [.time] (some [(0x1000, 0x1000), (0x1048, 0x104C), (0x1054, 0x1054)])) ∧
  (∀ alt, AggFrame (.timeExchangeFail alt) [.time] (some [(0x1000, 0x1000), (0x1048, 0x104C)])) ∧
  (∀ theirs, AggFrame (.partnerHtCompare theirs) [.links] (some [(0x1000, 0x1000), (0x1050, 0x1050)])) ∧
  (AggFrame .plumbBeatDue [.time, .ports] (some [])) ∧
  (∀ c source force, AggFrame (.setTimeSourceSelect c source force) [.time, .mbx, .ap, .jobs, .outbox] (some [(0x1000, 0x1000), (0x1048, 0x1048), (0x43000, 0x431FF), (0x90000, 0x90000), (0x90040, 0x90040), (0xB0000, 0xB01FF)])) ∧
  (∀ c epoch period, AggFrame (.scheduleInit c epoch period) [.time, .mbx, .ap, .jobs, .outbox] (some [(0x43000, 0x431FF), (0x90000, 0x90000), (0x90040, 0x90040), (0xB0000, 0xB01FF)])) ∧
  (∀ c win period, AggFrame (.scheduleChange c win period) [.time, .mbx, .ap, .jobs, .outbox] (some [(0x43000, 0x431FF), (0x90000, 0x90000), (0x90040, 0x90040), (0xB0000, 0xB01FF)])) ∧
  (∀ c k ps, AggFrame (.linkAsym c k ps) [.links, .mbx, .ap, .jobs, .outbox] (some [(0x43000, 0x431FF), (0x90000, 0x90000), (0x90040, 0x90040), (0xB0000, 0xB01FF)])) ∧
  (∀ c p ps, AggFrame (.dieportAsym c p ps) [.ports, .mbx, .ap, .jobs, .outbox] (some [(0x43000, 0x431FF), (0x90000, 0x90000), (0x90040, 0x90040), (0xB0000, 0xB01FF)])) ∧
  (∀ c target, AggFrame (.getTimeStatus c target) [.ports, .mbx, .acc, .ap, .jobs, .outbox] (some [(0x43000, 0x431FF), (0x90000, 0x90000), (0x90040, 0x90040), (0xB0000, 0xB01FF)])) ∧
  (∀ p w, AtuFrame (.plumbBeatReceive p w) [.time, .samp, .evr] (some [(0x108, 0x118), (0x144, 0x154), (0x400, 0x400), (0x448, 0x448), (0x6004, 0x6004), (0x6024, 0x6024), (0x6048, 0x604C)])) ∧
  (∀ p, AtuFrame (.beatMissed p) [.time, .evr] (some [(0x108, 0x108), (0x114, 0x118), (0x140, 0x144), (0x6004, 0x6004), (0x6024, 0x6024), (0x6048, 0x604C)])) ∧
  (AtuFrame .stroke [.time, .samp, .trace, .sand, .evr, .hostMem] (some [(0x108, 0x108), (0x150, 0x150), (0x400, 0x404), (0x440, 0x44C), (0x3008, 0x3008), (0x3044, 0x3044), (0x3050, 0x3058), (0x3100, 0x317F), (0x5A10, 0x5A10), (0x5A44, 0x5A44), (0x6004, 0x6004), (0x6024, 0x6024), (0x6048, 0x604C)])) ∧
  (∀ r pin asserted, AtuFrame (.clkRegionEdge r pin asserted) [.samp] (some [(0x404, 0x404)]))

/-- What the die-port and register commands leave as it is: each answers a next state that differs from the state in the named parts and in registers of the
named ranges alone; the other machine, the queue and every other register and memory are unchanged. Where no range is named (`none`), the command
is a register write or a reset, whose registers the statement about its effect names. -/
def Obligations.PortsFrames : Prop :=
  (∀ e, AtuFrame (.diePortFlitSend (.atu e)) [.trace, .safe, .portA, .portB] (some [(0x6804, 0x6804), (0x7000, 0x70FF)])) ∧
  (∀ e, AggFrame (.diePortFlitSend (.agg e)) [.ports, .acc] (some [(0x20000, 0x23FFF)])) ∧
  (∀ e f cfg, AtuFrame (.diePortFlitReceive (.atu e) f cfg) [.time, .samp, .path, .trace, .log, .sand, .evr, .bound, .safe, .portA, .portB, .hostMem] (none)) ∧
  (∀ e f cfg, AggFrame (.diePortFlitReceive (.agg e) f cfg) [.mem, .ports, .links, .mbx, .acc, .ap, .jobs, .bundle, .ingest, .scores, .elog, .si, .boot, .chip, .outbox] (none)) ∧
  (∀ e, AtuFrame (.retryTimeout (.atu e)) [.time, .portA, .portB] (some [(0x7000, 0x70FF)])) ∧
  (∀ e, AggFrame (.retryTimeout (.agg e)) [.mem, .ports, .links, .mbx, .acc, .ap, .jobs, .skim, .bundle, .elog, .boot, .outbox] (some [(0x20000, 0x23FFF), (0x30000, 0x31FFF), (0x43000, 0x431FF), (0x90000, 0x90000), (0x90040, 0x90040), (0xA0000, 0xA0000), (0xA004C, 0xA004C), (0xB0000, 0xB01FF), (0xE0000, 0xE0000), (0xE0008, 0xE000F), (0xE004C, 0xE004C)])) ∧
  (∀ e, AggFrame (.retryTimeout (.skim e)) [.mem, .ports, .links, .mbx, .acc, .ap, .jobs, .skim, .bundle, .elog, .boot, .outbox] (some [(0x20000, 0x23FFF), (0x30000, 0x31FFF), (0x43000, 0x431FF), (0x90000, 0x90000), (0x90040, 0x90040), (0xA0000, 0xA0000), (0xA004C, 0xA004C), (0xB0000, 0xB01FF), (0xE0000, 0xE0000), (0xE0008, 0xE000F), (0xE004C, 0xE004C)])) ∧
  (∀ e, AtuFrame (.linkIdleTimeout (.atu e)) [.time, .portA, .portB] (some [(0x7000, 0x70FF)])) ∧
  (∀ e, AggFrame (.linkIdleTimeout (.agg e)) [.mem, .ports, .links, .mbx, .acc, .ap, .jobs, .skim, .bundle, .elog, .boot, .outbox] (some [(0x20000, 0x23FFF), (0x30000, 0x31FFF), (0x43000, 0x431FF), (0x90000, 0x90000), (0x90040, 0x90040), (0xA0000, 0xA0000), (0xA004C, 0xA004C), (0xB0000, 0xB01FF), (0xE0000, 0xE0000), (0xE0008, 0xE000F), (0xE004C, 0xE004C)])) ∧
  (∀ e, AggFrame (.linkIdleTimeout (.skim e)) [.mem, .ports, .links, .mbx, .acc, .ap, .jobs, .skim, .bundle, .elog, .boot, .outbox] (some [(0x20000, 0x23FFF), (0x30000, 0x31FFF), (0x43000, 0x431FF), (0x90000, 0x90000), (0x90040, 0x90040), (0xA0000, 0xA0000), (0xA004C, 0xA004C), (0xB0000, 0xB01FF), (0xE0000, 0xE0000), (0xE0008, 0xE000F), (0xE004C, 0xE004C)])) ∧
  (∀ e, AtuFrame (.blockLockLoss (.atu e)) [.time, .portA, .portB] (some [(0x7000, 0x70FF)])) ∧
  (∀ e, AggFrame (.blockLockLoss (.agg e)) [.mem, .ports, .links, .mbx, .acc, .ap, .jobs, .skim, .bundle, .elog, .boot, .outbox] (some [(0x20000, 0x23FFF), (0x30000, 0x31FFF), (0x43000, 0x431FF), (0x90000, 0x90000), (0x90040, 0x90040), (0xA0000, 0xA0000), (0xA004C, 0xA004C), (0xB0000, 0xB01FF), (0xE0000, 0xE0000), (0xE0008, 0xE000F), (0xE004C, 0xE004C)])) ∧
  (∀ e, AggFrame (.blockLockLoss (.skim e)) [.mem, .ports, .links, .mbx, .acc, .ap, .jobs, .skim, .bundle, .elog, .boot, .outbox] (some [(0x20000, 0x23FFF), (0x30000, 0x31FFF), (0x43000, 0x431FF), (0x90000, 0x90000), (0x90040, 0x90040), (0xA0000, 0xA0000), (0xA004C, 0xA004C), (0xB0000, 0xB01FF), (0xE0000, 0xE0000), (0xE0008, 0xE000F), (0xE004C, 0xE004C)])) ∧
  (∀ e, AtuFrame (.trainingStart (.atu e)) [.portA, .portB] (some [])) ∧
  (∀ e, AggFrame (.trainingStart (.agg e)) [.ports, .links] (some [])) ∧
  (∀ e, AggFrame (.trainingStart (.skim e)) [.ports, .links] (some [])) ∧
  (∀ e, AtuFrame (.blockLock (.atu e)) [.portA, .portB] (some [])) ∧
  (∀ e, AggFrame (.blockLock (.agg e)) [.ports, .links] (some [])) ∧
  (∀ e, AggFrame (.blockLock (.skim e)) [.ports, .links] (some [])) ∧
  (∀ p caps ident die, AggFrame (.portIdentity p caps ident die) [.ports, .ingest] (some [(0x20000, 0x23FFF)])) ∧
  (∀ p rtt, AggFrame (.loopbackMeasure p rtt) [.ports, .acc, .jobs, .si] (some [(0x20000, 0x23FFF)])) ∧
  (∀ e, AtuFrame (.trainingFail (.atu e)) [.portA, .portB] (some [])) ∧
  (∀ e, AggFrame (.trainingFail (.agg e)) [.ports, .links] (some [])) ∧
  (∀ e, AggFrame (.trainingFail (.skim e)) [.ports, .links] (some [])) ∧
  (∀ e, AtuFrame (.trainingWaitEnd (.atu e)) [.portA, .portB] (some [])) ∧
  (∀ e, AggFrame (.trainingWaitEnd (.agg e)) [.ports, .links] (some [])) ∧
  (∀ e, AggFrame (.trainingWaitEnd (.skim e)) [.ports, .links] (some [])) ∧
  (∀ p m, AggFrame (.safetyFlitReceive p m) [.ports, .elog, .si] (some [(0xD0004, 0xD0004), (0xD0044, 0xD0044)])) ∧
  (∀ p, AggFrame (.safetyBeatMiss p) [.ports, .elog, .si] (some [(0x20000, 0x23FFF), (0xD0004, 0xD0004), (0xD0044, 0xD0044)])) ∧
  (∀ t off v cycle, AtuFrame (.registerWrite (.atu t) off v cycle) [.time, .samp, .path, .trace, .log, .age, .sand, .evr, .bound, .safe, .portA, .portB, .hostMem] (none)) ∧
  (∀ off v cycle, AggFrame (.registerWrite .agg off v cycle) [.gates, .mbx, .ap, .elog, .pwr, .si, .chip, .outbox] (none)) ∧
  (∀ t rd, AtuFrame (.latchedRead (.atu t) rd) [.time, .samp, .path, .trace, .log, .age, .sand, .evr, .bound, .safe, .portA, .portB, .hostMem] (none)) ∧
  (∀ rd, AggFrame (.latchedRead .agg rd) [.stencil] (none))

/-- What the skim-link and traffic commands leave as it is: each answers a next state that differs from the state in the named parts and in registers of the
named ranges alone; the other machine, the queue and every other register and memory are unchanged. Where no range is named (`none`), the command
is a register write or a reset, whose registers the statement about its effect names. -/
def Obligations.SkimLinksFrames : Prop :=
  (∀ k lane corrected flit, AggFrame (.skimCodewordReceive k lane corrected flit) [.time, .links, .skim, .bundle, .elog, .si] (some [(0x1000, 0x1000), (0x1048, 0x1054), (0x30000, 0x31FFF), (0x43000, 0x431FF), (0x50000, 0x5000C), (0x50040, 0x50050), (0x80000, 0x8005C), (0x90000, 0x90000), (0x90040, 0x90040), (0xA0000, 0xA0000), (0xA0040, 0xA007F), (0xB0000, 0xB01FF), (0xD0004, 0xD0004), (0xD005C, 0xD005C)])) ∧
  (∀ k, AggFrame (.skimFlitBuild k) [.time, .links, .skim, .bundle] (some [(0x1000, 0x1000), (0x1048, 0x104C), (0x30000, 0x31FFF), (0x40088, 0x40088), (0x400C8, 0x400C8)])) ∧
  (∀ k f, AggFrame (.skimFlitReceive k f) [.time, .links, .skim, .bundle, .elog, .si] (some [(0x1000, 0x1000), (0x1048, 0x1054), (0x30000, 0x31FFF), (0x43000, 0x431FF), (0x50000, 0x5000C), (0x50040, 0x50050), (0x80000, 0x8005C), (0x90000, 0x90000), (0x90040, 0x90040), (0xA0000, 0xA0000), (0xA0040, 0xA007F), (0xB0000, 0xB01FF), (0xD0004, 0xD0004), (0xD005C, 0xD005C)])) ∧
  (∀ k lanes tray role peer variant asym0 asym1, AggFrame (.skimLinkTrain k lanes tray role peer variant asym0 asym1) [.links, .skim] (some [(0x30000, 0x31FFF)])) ∧
  (∀ k lane unc corr symbols lost at_, AggFrame (.laneRemove k lane unc corr symbols lost at_) [.links, .skim, .bundle] (some [(0x30000, 0x31FFF)])) ∧
  (∀ k at_ mask, AggFrame (.laneChange k at_ mask) [.time, .links, .skim, .bundle] (some [(0x1000, 0x1000), (0x1048, 0x104C), (0x30000, 0x31FFF)])) ∧
  (∀ k lane, AggFrame (.laneHoldoffEnd k lane) [.links] (some [])) ∧
  (∀ k lane unc corr symbols at_, AggFrame (.laneSoakEnd k lane unc corr symbols at_) [.links] (some [(0x30000, 0x31FFF)])) ∧
  (∀ k lane, AggFrame (.laneLockoutEnd k lane) [.links] (some [])) ∧
  (AggFrame .skimSafetySend [.links] (some [])) ∧
  (∀ k m, AggFrame (.skimSafetyReceive k m) [.links, .elog, .si] (some [(0xD0004, 0xD0004), (0xD005C, 0xD005C)])) ∧
  (∀ k, AggFrame (.skimSafetyMiss k) [.links, .elog, .si] (some [(0x30000, 0x31FFF), (0xD0004, 0xD0004), (0xD005C, 0xD005C)])) ∧
  (AggFrame .gateEntryStart [.links, .gates] (some [(0x40040, 0x4007F), (0x40084, 0x40088), (0x400C0, 0x400C0), (0x40180, 0x401FF)])) ∧
  (AggFrame .gateCommit [.gates] (some [(0x40084, 0x40088), (0x400C4, 0x400C4)])) ∧
  (AggFrame .gateCancel [.gates] (some [(0x40084, 0x40084)])) ∧
  (∀ k, AggFrame (.tc2Expire k) [.links] (some [(0x40088, 0x40088), (0x400C8, 0x400C8)])) ∧
  (∀ k cls, AggFrame (.creditStall k cls) [.links] (some [(0x40088, 0x4008C), (0x400CC, 0x400CC)])) ∧
  (∀ k slot, AggFrame (.slotRelease k slot) [.mem, .links, .mbx, .ap, .jobs, .skim, .bundle, .stencil, .scores, .verdicts, .elog, .pair, .chip, .outbox] (some [(0x43000, 0x431FF), (0x50000, 0x50000), (0x50008, 0x5000C), (0x50040, 0x50048), (0x50050, 0x50050), (0x80000, 0x80000), (0x80010, 0x8002C), (0x80040, 0x8004C), (0x80054, 0x80054), (0x8005C, 0x8005C), (0x90000, 0x90000), (0x90040, 0x90040), (0xA0000, 0xA0000), (0xA0040, 0xA007F), (0xB0000, 0xB01FF)])) ∧
  (∀ k cls, AggFrame (.releaseLate k cls) [.links] (some [(0x40088, 0x40088), (0x400D0, 0x400D0)]))

/-- What the skim commands leave as it is: each answers a next state that differs from the state in the named parts and in registers of the
named ranges alone; the other machine, the queue and every other register and memory are unchanged. Where no range is named (`none`), the command
is a register write or a reset, whose registers the statement about its effect names. -/
def Obligations.SkimFrames : Prop :=
  (AggFrame .aggStroke [.mem, .time, .ports, .links, .mbx, .acc, .ap, .jobs, .skim, .bundle, .stencil, .scores, .elog, .pair, .chipShown, .outbox] (some [(0x1000, 0x1000), (0x1054, 0x1054), (0x43000, 0x431FF), (0x70000, 0x70000), (0x7004C, 0x70054), (0x90000, 0x90000), (0x90040, 0x90040), (0xA0000, 0xA0000), (0xA004C, 0xA004C), (0xB0000, 0xB01FF), (0xD0030, 0xD0034)])) ∧
  (AggFrame .roundClose [.mem, .links, .mbx, .ap, .jobs, .skim, .bundle, .scores, .verdicts, .chip, .outbox] (some [(0x43000, 0x431FF), (0x50000, 0x50000), (0x50008, 0x5000C), (0x50044, 0x50044), (0x90000, 0x90000), (0x90040, 0x90040), (0xB0000, 0xB01FF)])) ∧
  (∀ r vals, AggFrame (.partnerSelfValues r vals) [.skim] (some [])) ∧
  (∀ r, AggFrame (.skimUpSend r) [.links, .skim] (some [])) ∧
  (∀ k m, AggFrame (.skimUpReceive k m) [.links, .skim] (some [(0x50000, 0x50000), (0x50048, 0x50048), (0x50050, 0x50050)])) ∧
  (∀ r, AggFrame (.skimMerge r) [.skim] (some [(0x50000, 0x50000), (0x5004C, 0x5004C), (0x5005C, 0x5005C)])) ∧
  (∀ r x, AggFrame (.rootExchange r x) [.links, .skim, .bundle] (some [])) ∧
  (∀ r, AggFrame (.rootDecide r) [.mem, .links, .mbx, .ap, .jobs, .skim, .bundle, .verdicts, .chip, .outbox] (some [(0x43000, 0x431FF), (0x50000, 0x50000), (0x50008, 0x5000C), (0x50044, 0x50044), (0x90000, 0x90000), (0x90040, 0x90040), (0xB0000, 0xB01FF)])) ∧
  (∀ r, AggFrame (.downForward r) [.links, .skim, .bundle] (some [])) ∧
  (∀ src m, AggFrame (.downReceive src m) [.mem, .links, .mbx, .ap, .jobs, .skim, .bundle, .verdicts, .chip, .outbox] (some [(0x43000, 0x431FF), (0x50000, 0x50000), (0x50008, 0x5000C), (0x50040, 0x50040), (0x90000, 0x90000), (0x90040, 0x90040), (0xB0000, 0xB01FF)])) ∧
  (∀ r said, AggFrame (.downUse r said) [.mem, .links, .mbx, .ap, .jobs, .skim, .bundle, .verdicts, .chip, .outbox] (some [(0x43000, 0x431FF), (0x50000, 0x50000), (0x50008, 0x5000C), (0x50040, 0x50040), (0x90000, 0x90000), (0x90040, 0x90040), (0xB0000, 0xB01FF)])) ∧
  (∀ m, AggFrame (.abortReceive m) [.mem, .links, .mbx, .ap, .jobs, .skim, .verdicts, .chip, .outbox] (some [(0x43000, 0x431FF), (0x50000, 0x50000), (0x50008, 0x5000C), (0x50044, 0x50044), (0x90000, 0x90000), (0x90040, 0x90040), (0xB0000, 0xB01FF)])) ∧
  (∀ r, AggFrame (.roundAbortTimeout r) [.mem, .mbx, .ap, .jobs, .skim, .verdicts, .chip, .outbox] (some [(0x43000, 0x431FF), (0x50000, 0x50000), (0x50008, 0x5000C), (0x50044, 0x50044), (0x90000, 0x90000), (0x90040, 0x90040), (0xB0000, 0xB01FF)])) ∧
  (AggFrame .treeJoin [.links, .skim] (some [])) ∧
  (∀ k depth height, AggFrame (.joinReceive k depth height) [.links, .skim] (some [(0x50000, 0x50000), (0x50058, 0x50058)])) ∧
  (∀ k ack, AggFrame (.joinReply k ack) [.links, .skim] (some [(0x50000, 0x50000), (0x50054, 0x50058)])) ∧
  (AggFrame .reroute [.links, .skim] (some [])) ∧
  (∀ k r, AggFrame (.leaveReceive k r) [.links, .skim] (some [])) ∧
  (∀ k r height, AggFrame (.adoptReceive k r height) [.links, .skim] (some [])) ∧
  (∀ k ack depth, AggFrame (.adoptReply k ack depth) [.links, .skim] (some [(0x50000, 0x50000), (0x50054, 0x50058)])) ∧
  (AggFrame .adoptRetry [.links, .skim] (some [])) ∧
  (∀ k r depth, AggFrame (.depthReceive k r depth) [.links, .skim] (some [])) ∧
  (AggFrame .returnPrimaryTimer [.links, .skim] (some [])) ∧
  (∀ c setId act count addr, AggFrame (.skimSetMetrics c setId act count addr) [.mbx, .ap, .jobs, .skim, .outbox] (some [(0x43000, 0x431FF), (0x90000, 0x90000), (0x90040, 0x90040), (0xB0000, 0xB01FF)])) ∧
  (∀ c x, AggFrame (.skimTreeConfigure c x) [.mbx, .ap, .jobs, .skim, .outbox] (some [(0x43000, 0x431FF), (0x90000, 0x90000), (0x90040, 0x90040), (0xB0000, 0xB01FF)])) ∧
  (∀ c, AggFrame (.skimTreeReturnPrimary c) [.links, .mbx, .ap, .jobs, .skim, .outbox] (some [(0x43000, 0x431FF), (0x90000, 0x90000), (0x90040, 0x90040), (0xB0000, 0xB01FF)])) ∧
  (∀ c act, AggFrame (.skimTreeDissolve c act) [.mbx, .ap, .jobs, .skim, .outbox] (some [(0x43000, 0x431FF), (0x90000, 0x90000), (0x90040, 0x90040), (0xB0000, 0xB01FF)])) ∧
  (∀ c r dst, AggFrame (.skimStatus c r dst) [.mem, .mbx, .ap, .jobs, .skim, .outbox] (some [(0x43000, 0x431FF), (0x90000, 0x90000), (0x90040, 0x90040), (0xB0000, 0xB01FF)]))

/-- What the mailbox-window and window-program commands leave as it is: each answers a next state that differs from the state in the named parts and in registers of the
named ranges alone; the other machine, the queue and every other register and memory are unchanged. Where no range is named (`none`), the command
is a register write or a reset, whose registers the statement about its effect names. -/
def Obligations.WindowsFrames : Prop :=
  (AtuFrame .atuPor [.time, .samp, .path, .trace, .log, .age, .sand, .evr, .bound, .safe, .portA, .portB] (none)) ∧
  (AtuFrame .atuRst [.time, .samp, .path, .trace, .log, .age, .sand, .bound, .safe, .portA, .portB] (none)) ∧
  (AtuFrame .mainPwrokLow [.time, .samp, .path, .trace, .log, .age, .sand, .bound, .safe, .portA, .portB] (none)) ∧
  (∀ src v, AtuFrame (.atuResetCtlWrite src v) [.time, .samp, .path, .trace, .log, .age, .sand, .evr, .bound, .safe, .portA, .portB, .hostMem] (none)) ∧
  (∀ dieId, AtuFrame (.mainResetRelease dieId) [.time, .bound] (some [(0x8, 0x8), (0x30, 0x30)])) ∧
  (AtuFrame .atuReady [.bound] (some [(0x30, 0x30), (0x48, 0x48)])) ∧
  (∀ v, AtuFrame (.atuOwnerWrite v) [.time, .samp, .path, .trace, .log, .age, .sand, .evr, .bound, .safe, .portA, .portB, .hostMem] (none)) ∧
  (∀ p m, AtuFrame (.registerRequest p m) [.time, .samp, .path, .trace, .log, .age, .sand, .evr, .bound, .safe, .portA, .portB, .hostMem] (none)) ∧
  (AtuFrame .atuClkStop [.bound] (some [])) ∧
  (AtuFrame .atuClkRestart [.time, .samp, .path, .trace, .log, .age, .sand, .evr, .bound, .safe, .portA, .portB, .hostMem] (none)) ∧
  (∀ v, AtuFrame (.evrHostCommit v) [.time, .samp, .path, .trace, .log, .age, .sand, .evr, .bound, .safe, .portA, .portB, .hostMem] (none)) ∧
  (∀ rd, AtuFrame (.evrRdDataRead rd) [.time, .samp, .path, .trace, .log, .age, .sand, .evr, .bound, .safe, .portA, .portB, .hostMem] (none)) ∧
  (∀ src v, AtuFrame (.evrFlushCtl src v) [.time, .samp, .path, .trace, .log, .age, .sand, .evr, .bound, .safe, .portA, .portB, .hostMem] (none)) ∧
  (AtuFrame .evrFaultFlush [.age, .sand, .evr] (some [(0x6004, 0x600C), (0x6024, 0x6028), (0x6048, 0x604C)])) ∧
  (AtuFrame .evrFlushDone [.evr] (some [(0x6004, 0x6004), (0x6028, 0x6028), (0x6040, 0x6044)])) ∧
  (AtuFrame .evrFlushErr [.evr] (some [(0x6004, 0x6004), (0x6044, 0x6044)])) ∧
  (AtuFrame .evrLoad [.age, .sand, .evr] (some [(0x6004, 0x600C), (0x6024, 0x6028), (0x6048, 0x604C)])) ∧
  (∀ asserted, AtuFrame (.pwrFail asserted) [.trace, .age, .sand, .evr, .hostMem] (some [(0x18, 0x18), (0x3008, 0x3008), (0x3044, 0x3044), (0x3054, 0x3054), (0x3100, 0x317F), (0x5A10, 0x5A10), (0x5A4C, 0x5A4C), (0x6004, 0x600C), (0x6024, 0x6028), (0x6048, 0x604C)])) ∧
  (∀ port pkt memError, AggFrame (.rdmaWrite port pkt memError) [.mem, .gates, .mbx, .ap, .jobs, .stencil, .elog, .pwr, .si, .chip, .outbox] (none)) ∧
  (∀ port pkt memError, AggFrame (.rdmaRead port pkt memError) [.mem, .gates, .mbx, .ap, .jobs, .stencil, .elog, .pwr, .si, .chip, .outbox] (none)) ∧
  (∀ port pkt memError, AggFrame (.rdmaSend port pkt memError) [.mem, .gates, .mbx, .ap, .jobs, .stencil, .elog, .pwr, .si, .chip, .outbox] (none)) ∧
  (∀ qpn ns, AggFrame (.qpContextFetched qpn ns) [.mem, .gates, .mbx, .ap, .jobs, .stencil, .elog, .pwr, .si, .chip, .outbox] (none)) ∧
  (∀ c pd base len access qpn notify, AggFrame (.windowOpen c pd base len access qpn notify) [.mbx, .ap, .jobs, .outbox] (some [(0x43000, 0x431FF), (0x90000, 0x90000), (0x90040, 0x90040), (0xB0000, 0xB01FF)])) ∧
  (∀ c w rkey, AggFrame (.windowRevoke c w rkey) [.mbx, .ap, .jobs, .outbox] (some [(0x43000, 0x431FF), (0x90000, 0x90000), (0x90040, 0x90040), (0xB0000, 0xB01FF)])) ∧
  (∀ w, AggFrame (.revokeInstant w) [.ap] (some [])) ∧
  (∀ w, AggFrame (.revokeDrained w) [.mbx, .ap, .jobs, .outbox] (some [(0x43000, 0x431FF), (0x90000, 0x90000), (0x90040, 0x90040), (0xB0000, 0xB01FF)])) ∧
  (∀ w, AggFrame (.revokeDrainBound w) [.mbx, .ap, .jobs, .outbox] (some [(0x43000, 0x431FF), (0x90000, 0x90000), (0x90040, 0x90040), (0xB0000, 0xB01FF)])) ∧
  (∀ c, AggFrame (.pdCreate c) [.mbx, .ap, .jobs, .outbox] (some [(0x43000, 0x431FF), (0x90000, 0x90000), (0x90040, 0x90040), (0xB0000, 0xB01FF)])) ∧
  (∀ c pd, AggFrame (.pdDestroy c pd) [.mbx, .ap, .jobs, .outbox] (some [(0x43000, 0x431FF), (0x90000, 0x90000), (0x90040, 0x90040), (0xB0000, 0xB01FF)])) ∧
  (∀ c pd x, AggFrame (.qpCreate c pd x) [.mbx, .ap, .jobs, .outbox] (some [(0x43000, 0x431FF), (0x90000, 0x90000), (0x90040, 0x90040), (0xB0000, 0xB01FF)])) ∧
  (∀ c qpn x, AggFrame (.qpReconnect c qpn x) [.mbx, .ap, .jobs, .outbox] (some [(0x43000, 0x431FF), (0x90000, 0x90000), (0x90040, 0x90040), (0xB0000, 0xB01FF)])) ∧
  (∀ c qpn, AggFrame (.qpDestroy c qpn) [.mbx, .ap, .jobs, .outbox] (some [(0x43000, 0x431FF), (0x90000, 0x90000), (0x90040, 0x90040), (0xB0000, 0xB01FF)])) ∧
  (∀ port up, AggFrame (.analysisPortLinkChange port up) [.ap] (some [(0xB0000, 0xB007F)])) ∧
  (∀ qpn, AggFrame (.localAckTimeout qpn) [.ap] (some [(0x43000, 0x431FF), (0xB0000, 0xB01FF)])) ∧
  (∀ qpn psn nak, AggFrame (.requesterAckReceive qpn psn nak) [.ap] (some [(0x43000, 0x431FF), (0xB0000, 0xB01FF)])) ∧
  (∀ port, AggFrame (.cnpReceive port) [] (some [(0xB0000, 0xB01FF)]))

/-- What the station and stencil commands leave as it is: each answers a next state that differs from the state in the named parts and in registers of the
named ranges alone; the other machine, the queue and every other register and memory are unchanged. Where no range is named (`none`), the command
is a register write or a reset, whose registers the statement about its effect names. -/
def Obligations.StationsFrames : Prop :=
  (∀ c addr count, AggFrame (.stationRun c addr count) [.mem, .mbx, .ap, .jobs, .stn, .outbox] (some [(0x43000, 0x431FF), (0x90000, 0x90000), (0x90040, 0x90040), (0xB0000, 0xB01FF)])) ∧
  (∀ c kind k own run pass cycles, AggFrame (.stationKat c kind k own run pass cycles) [.mbx, .ap, .jobs, .outbox] (some [(0x43000, 0x431FF), (0x90000, 0x90000), (0x90040, 0x90040), (0xB0000, 0xB01FF)])) ∧
  (∀ c kind k inService, AggFrame (.stationService c kind k inService) [.mem, .mbx, .ap, .jobs, .stn, .outbox] (some [(0x43000, 0x431FF), (0x60000, 0x60007), (0x60100, 0x602FF), (0x90000, 0x90000), (0x90040, 0x90040), (0xB0000, 0xB01FF)])) ∧
  (∀ c w dst, AggFrame (.stationStatus c w dst) [.mem, .mbx, .ap, .jobs, .outbox] (some [(0x43000, 0x431FF), (0x90000, 0x90000), (0x90040, 0x90040), (0xB0000, 0xB01FF)])) ∧
  (∀ n, AggFrame (.windowProgramStart n) [.mem, .mbx, .jobs, .stn, .scores] (some [(0x60010, 0x60010), (0x60058, 0x60058), (0x90000, 0x90000), (0x90040, 0x90040)])) ∧
  (∀ who cycles corrected err, AggFrame (.runComplete who cycles corrected err) [.mem, .mbx, .ap, .jobs, .stn, .scores, .outbox] (some [(0x43000, 0x431FF), (0x60000, 0x60007), (0x60010, 0x60010), (0x60028, 0x60030), (0x60048, 0x60058), (0x60100, 0x602FF), (0x90000, 0x90000), (0x90040, 0x90040), (0xB0000, 0xB01FF)])) ∧
  (∀ n, AggFrame (.scoringSkip n) [.scores] (some [])) ∧
  (∀ kind k, AggFrame (.stationSandDue kind k) [.stn] (some [(0x60000, 0x60007), (0x60100, 0x602FF)])) ∧
  (∀ kind k, AggFrame (.stationSandForce kind k) [.mem, .stn] (some [(0x60000, 0x60007), (0x60100, 0x602FF)])) ∧
  (∀ kind k pass, AggFrame (.stationTestResult kind k pass) [.mem, .stn] (some [(0x60000, 0x60007), (0x60010, 0x60010), (0x60040, 0x60044), (0x60100, 0x602FF)])) ∧
  (∀ n, AggFrame (.rankCode n) [.stencil, .scores] (some [])) ∧
  (∀ n e t tree hits, AggFrame (.stencilLookup n e t tree hits) [.mem, .jobs, .stencil, .scores] (some [(0x70000, 0x70000), (0x70040, 0x70048)])) ∧
  (∀ b, AggFrame (.tcamBankRewrite b) [.stencil] (some [])) ∧
  (∀ c die src act, AggFrame (.entityPut c die src act) [.mbx, .ap, .jobs, .stencil, .outbox] (some [(0x43000, 0x431FF), (0x90000, 0x90000), (0x90040, 0x90040), (0xB0000, 0xB01FF)])) ∧
  (∀ c die act, AggFrame (.entityDelete c die act) [.mbx, .ap, .jobs, .stencil, .outbox] (some [(0x43000, 0x431FF), (0x90000, 0x90000), (0x90040, 0x90040), (0xB0000, 0xB01FF)])) ∧
  (∀ c die dst, AggFrame (.entityRead c die dst) [.mem, .mbx, .ap, .jobs, .outbox] (some [(0x43000, 0x431FF), (0x90000, 0x90000), (0x90040, 0x90040), (0xB0000, 0xB01FF)])) ∧
  (∀ c, AggFrame (.entityStatus c) [.mbx, .ap, .jobs, .outbox] (some [(0x43000, 0x431FF), (0x90000, 0x90000), (0x90040, 0x90040), (0xB0000, 0xB01FF)])) ∧
  (∀ c e addr len, AggFrame (.stencilLoad c e addr len) [.mbx, .ap, .jobs, .stencil, .outbox] (some [(0x43000, 0x431FF), (0x90000, 0x90000), (0x90040, 0x90040), (0xB0000, 0xB01FF)])) ∧
  (∀ c e act, AggFrame (.stencilActivate c e act) [.mbx, .ap, .jobs, .stencil, .outbox] (some [(0x43000, 0x431FF), (0x90000, 0x90000), (0x90040, 0x90040), (0xB0000, 0xB01FF)])) ∧
  (∀ c e act, AggFrame (.stencilUnload c e act) [.mbx, .ap, .jobs, .stencil, .outbox] (some [(0x43000, 0x431FF), (0x90000, 0x90000), (0x90040, 0x90040), (0xB0000, 0xB01FF)])) ∧
  (∀ c e, AggFrame (.stencilStatus c e) [.mbx, .ap, .jobs, .outbox] (some [(0x43000, 0x431FF), (0x90000, 0x90000), (0x90040, 0x90040), (0xB0000, 0xB01FF)])) ∧
  (∀ n e, AggFrame (.ensembleFree n e) [.stencil] (some []))

/-- What the verdict and ingest commands leave as it is: each answers a next state that differs from the state in the named parts and in registers of the
named ranges alone; the other machine, the queue and every other register and memory are unchanged. Where no range is named (`none`), the command
is a register write or a reset, whose registers the statement about its effect names. -/
def Obligations.VerdictsFrames : Prop :=
  (∀ r, AggFrame (.rankDeadline r) [.skim] (some [])) ∧
  (AggFrame .levelPlace [.mem, .links, .jobs, .skim, .bundle, .scores, .verdicts] (some [(0x80000, 0x80000), (0x80010, 0x8002C), (0x80040, 0x8004C), (0x80054, 0x80060)])) ∧
  (∀ c budget mean minMean metric allow, AggFrame (.dustsheetConfigure c budget mean minMean metric allow) [.mbx, .ap, .jobs, .verdicts, .outbox] (some [(0x43000, 0x431FF), (0x90000, 0x90000), (0x90040, 0x90040), (0xB0000, 0xB01FF)])) ∧
  (∀ c, AggFrame (.dustsheetClearSuspect c) [.mbx, .ap, .jobs, .verdicts, .outbox] (some [(0x43000, 0x431FF), (0x90000, 0x90000), (0x90040, 0x90040), (0xB0000, 0xB01FF)])) ∧
  (∀ c addr, AggFrame (.dustsheetSeed c addr) [.mbx, .ap, .jobs, .verdicts, .outbox] (some [(0x43000, 0x431FF), (0x90000, 0x90000), (0x90040, 0x90040), (0xB0000, 0xB01FF)])) ∧
  (∀ c, AggFrame (.dustsheetStatus c) [.mbx, .ap, .jobs, .outbox] (some [(0x43000, 0x431FF), (0x90000, 0x90000), (0x90040, 0x90040), (0xB0000, 0xB01FF)])) ∧
  (∀ c die raised from_ expiry tokens count, AggFrame (.expelApply c die raised from_ expiry tokens count) [.links, .mbx, .ap, .jobs, .bundle, .scores, .verdicts, .outbox] (some [(0x43000, 0x431FF), (0x80000, 0x80000), (0x80064, 0x80064), (0x90000, 0x90000), (0x90040, 0x90040), (0xB0000, 0xB01FF)])) ∧
  (∀ c die, AggFrame (.expelRestore c die) [.mbx, .ap, .jobs, .scores, .verdicts, .outbox] (some [(0x43000, 0x431FF), (0x90000, 0x90000), (0x90040, 0x90040), (0xB0000, 0xB01FF)])) ∧
  (∀ n die raised from_ expiry token, AggFrame (.expelForwardReceive n die raised from_ expiry token) [.jobs, .scores, .verdicts] (some [(0x80000, 0x80000), (0x80064, 0x80064)])) ∧
  (∀ m, AggFrame (.pairSummaryReceive m) [.mem, .links, .jobs, .bundle, .scores, .verdicts] (some [(0x80000, 0x80000), (0x80010, 0x8002C), (0x80040, 0x8004C), (0x80054, 0x80054), (0x8005C, 0x8005C)])) ∧
  (∀ n r, AggFrame (.pairSummaryLate n r) [.mem, .jobs, .scores, .verdicts] (some [(0x80000, 0x80000), (0x80010, 0x8001C), (0x80050, 0x80050), (0x8005C, 0x8005C)])) ∧
  (∀ n r logs, AggFrame (.disagreeRunLogReceive n r logs) [.mem, .jobs, .scores, .verdicts] (some [(0x80000, 0x80000), (0x80010, 0x8001C), (0x8002C, 0x8002C), (0x80044, 0x80044), (0x8005C, 0x8005C)])) ∧
  (∀ n r mine theirs, AggFrame (.disagreeKatResult n r mine theirs) [.mem, .links, .jobs, .bundle, .stn, .scores, .verdicts] (some [(0x60000, 0x60007), (0x60010, 0x60010), (0x60040, 0x60044), (0x60100, 0x602FF), (0x80000, 0x80000), (0x80010, 0x8001C), (0x8002C, 0x8002C), (0x80044, 0x80048), (0x8005C, 0x8005C)])) ∧
  (∀ n r fault theirs, AggFrame (.disagreeRedigestReceive n r fault theirs) [.mem, .links, .jobs, .bundle, .stn, .scores, .verdicts] (some [(0x60000, 0x60007), (0x60100, 0x602FF), (0x80000, 0x80000), (0x80010, 0x8001C), (0x8002C, 0x8002C), (0x80044, 0x80048), (0x8005C, 0x8005C)])) ∧
  (∀ n r t records image rows, AggFrame (.disagreeAdopt n r t records image rows) [.mem, .jobs, .scores, .verdicts] (some [(0x80000, 0x80000), (0x80010, 0x8001C), (0x8005C, 0x8005C)])) ∧
  (∀ n r, AggFrame (.disagreeTimeout n r) [.mem, .jobs, .scores, .verdicts] (some [(0x80000, 0x80000), (0x80010, 0x8001C), (0x8002C, 0x8002C), (0x80044, 0x80044), (0x8005C, 0x8005C)])) ∧
  (∀ c die first windows dst, AggFrame (.verdictReadRecords c die first windows dst) [.mem, .mbx, .ap, .jobs, .outbox] (some [(0x43000, 0x431FF), (0x90000, 0x90000), (0x90040, 0x90040), (0xB0000, 0xB01FF)])) ∧
  (∀ c from_ max dst, AggFrame (.verdictReadRecs c from_ max dst) [.mem, .mbx, .ap, .jobs, .outbox] (some [(0x43000, 0x431FF), (0x90000, 0x90000), (0x90040, 0x90040), (0xB0000, 0xB01FF)])) ∧
  (∀ c r, AggFrame (.disagreeStatus c r) [.mbx, .ap, .jobs, .outbox] (some [(0x43000, 0x431FF), (0x90000, 0x90000), (0x90040, 0x90040), (0xB0000, 0xB01FF)])) ∧
  (∀ p resent f cfg, AggFrame (.frameReceive p resent f cfg) [.mem, .ports, .acc, .jobs, .ingest, .scores, .chip] (some [(0x40088, 0x40088), (0x400D4, 0x400D4)])) ∧
  (∀ n, AggFrame (.ingestCutoff n) [.mem, .scores] (some [(0x70000, 0x70000), (0x7004C, 0x7004C)])) ∧
  (∀ c flush slot src len kind dst, AggFrame (.codecRunEncode c flush slot src len kind dst) [.mem, .mbx, .ap, .jobs, .codec, .outbox] (some [(0x43000, 0x431FF), (0x90000, 0x90000), (0x90040, 0x90040), (0xB0000, 0xB01FF)])) ∧
  (∀ c flush slot src len kind dst, AggFrame (.codecRunDecode c flush slot src len kind dst) [.mem, .mbx, .ap, .jobs, .codec, .outbox] (some [(0x43000, 0x431FF), (0x90000, 0x90000), (0x90040, 0x90040), (0xB0000, 0xB01FF)])) ∧
  (∀ c slot dst release, AggFrame (.codecSave c slot dst release) [.mem, .mbx, .ap, .jobs, .codec, .outbox] (some [(0x43000, 0x431FF), (0x90000, 0x90000), (0x90040, 0x90040), (0xB0000, 0xB01FF)])) ∧
  (∀ c slot src, AggFrame (.codecRestore c slot src) [.mbx, .ap, .jobs, .codec, .outbox] (some [(0x43000, 0x431FF), (0x90000, 0x90000), (0x90040, 0x90040), (0xB0000, 0xB01FF)])) ∧
  (∀ c k width poly init refIn refOut xorOut, AggFrame (.cvuConfigure c k width poly init refIn refOut xorOut) [.mbx, .ap, .jobs, .cvu, .outbox] (some [(0x43000, 0x431FF), (0x90000, 0x90000), (0x90040, 0x90040), (0xB0000, 0xB01FF)])) ∧
  (∀ c k addr len cont, AggFrame (.cvuScan c k addr len cont) [.mbx, .ap, .jobs, .cvu, .outbox] (some [(0x43000, 0x431FF), (0x90000, 0x90000), (0x90040, 0x90040), (0xB0000, 0xB01FF)])) ∧
  (∀ c k, AggFrame (.cvuRead c k) [.mbx, .ap, .jobs, .outbox] (some [(0x43000, 0x431FF), (0x90000, 0x90000), (0x90040, 0x90040), (0xB0000, 0xB01FF)])) ∧
  (∀ c k v, AggFrame (.cvuWrite c k v) [.mbx, .ap, .jobs, .cvu, .outbox] (some [(0x43000, 0x431FF), (0x90000, 0x90000), (0x90040, 0x90040), (0xB0000, 0xB01FF)])) ∧
  (∀ c p, AggFrame (.atuTraceCtlStart c p) [.ports, .mbx, .acc, .ap, .jobs, .outbox] (some [(0x43000, 0x431FF), (0x90000, 0x90000), (0x90040, 0x90040), (0xB0000, 0xB01FF)])) ∧
  (∀ c p, AggFrame (.atuTraceCtlStop c p) [.ports, .mbx, .acc, .ap, .jobs, .outbox] (some [(0x43000, 0x431FF), (0x90000, 0x90000), (0x90040, 0x90040), (0xB0000, 0xB01FF)])) ∧
  (∀ c p token expiry, AggFrame (.atuTraceCtlAuthorise c p token expiry) [.ports, .mbx, .acc, .ap, .jobs, .outbox] (some [(0x43000, 0x431FF), (0x90000, 0x90000), (0x90040, 0x90040), (0xB0000, 0xB01FF)])) ∧
  (∀ c p, AggFrame (.atuTraceCtlStatus c p) [.ports, .mbx, .acc, .ap, .jobs, .outbox] (some [(0x43000, 0x431FF), (0x90000, 0x90000), (0x90040, 0x90040), (0xB0000, 0xB01FF)])) ∧
  (∀ c p mask interval soft hard, AggFrame (.sandingPlanSet c p mask interval soft hard) [.ports, .mbx, .acc, .ap, .jobs, .outbox] (some [(0x43000, 0x431FF), (0x90000, 0x90000), (0x90040, 0x90040), (0xB0000, 0xB01FF)])) ∧
  (∀ c p mask, AggFrame (.sandingPlanRunNow c p mask) [.ports, .mbx, .acc, .ap, .jobs, .outbox] (some [(0x43000, 0x431FF), (0x90000, 0x90000), (0x90040, 0x90040), (0xB0000, 0xB01FF)])) ∧
  (∀ c p mask, AggFrame (.sandingPlanClearFailed c p mask) [.ports, .mbx, .acc, .ap, .jobs, .outbox] (some [(0x43000, 0x431FF), (0x90000, 0x90000), (0x90040, 0x90040), (0xB0000, 0xB01FF)])) ∧
  (∀ c p, AggFrame (.sandingPlanStatus c p) [.ports, .mbx, .acc, .ap, .jobs, .outbox] (some [(0x43000, 0x431FF), (0x90000, 0x90000), (0x90040, 0x90040), (0xB0000, 0xB01FF)])) ∧
  (∀ p m, AggFrame (.registerResponse p m) [.mem, .ports, .links, .mbx, .acc, .ap, .jobs, .bundle, .elog, .boot, .outbox] (some [(0x43000, 0x431FF), (0x90000, 0x90000), (0x90040, 0x90040), (0xA0000, 0xA0000), (0xA004C, 0xA004C), (0xB0000, 0xB01FF), (0xE0000, 0xE0000), (0xE0008, 0xE000F), (0xE004C, 0xE004C)]))

/-- What the mailbox and job commands leave as it is: each answers a next state that differs from the state in the named parts and in registers of the
named ranges alone; the other machine, the queue and every other register and memory are unchanged. Where no range is named (`none`), the command
is a register write or a reset, whose registers the statement about its effect names. -/
def Obligations.MailboxFrames : Prop :=
  (∀ n v, AggFrame (.sqDoorbell n v) [.mbx, .ap, .chip, .outbox] (some [(0x43000, 0x431FF), (0x90000, 0x90000), (0x90048, 0x90048), (0xB0000, 0xB01FF), (0x20000000, 0x2010FFFF)])) ∧
  (∀ n v, AggFrame (.cqHeadWrite n v) [.mbx] (some [])) ∧
  (∀ n, AggFrame (.mbxRestart n) [.mbx] (some [])) ∧
  (∀ addr port m, AggFrame (.udpSubmit addr port m) [.mbx, .jobs, .chip, .outbox] (some [(0x90000, 0x90000), (0x90040, 0x90044)])) ∧
  (∀ addr port m, AggFrame (.udpAck addr port m) [.mbx, .jobs, .chip, .outbox] (some [(0x90000, 0x90000), (0x90040, 0x90044)])) ∧
  (∀ addr port m, AggFrame (.udpResend addr port m) [.mbx, .jobs, .chip, .outbox] (some [(0x90000, 0x90000), (0x90040, 0x90044)])) ∧
  (∀ n, AggFrame (.descriptorAdmit n) [.mem, .time, .ports, .links, .mbx, .acc, .ap, .jobs, .skim, .bundle, .codec, .cvu, .stn, .stencil, .scores, .verdicts, .elog, .pwr, .pair, .eeprom, .chip, .outbox] (some [(0x1000, 0x1000), (0x1048, 0x1048), (0x20000, 0x23FFF), (0x43000, 0x431FF), (0x60000, 0x60007), (0x60100, 0x602FF), (0x80000, 0x80000), (0x80064, 0x80064), (0x90000, 0x90000), (0x90040, 0x90040), (0x9004C, 0x90050), (0xA0000, 0xA0000), (0xA0040, 0xA007F), (0xB0000, 0xB01FF), (0xC0000, 0xC0000), (0xC0008, 0xC0008), (0xC0038, 0xC0038), (0xC0044, 0xC0044), (0xE0000, 0xE0000), (0xE0054, 0xE0054), (0x20000000, 0x2010FFFF)])) ∧
  (∀ c, AggFrame (.nop c) [.mbx, .ap, .jobs, .outbox] (some [(0x43000, 0x431FF), (0x90000, 0x90000), (0x90040, 0x90040), (0xB0000, 0xB01FF)])) ∧
  (∀ c, AggFrame (.getInfo c) [.mbx, .ap, .jobs, .outbox] (some [(0x43000, 0x431FF), (0x90000, 0x90000), (0x90040, 0x90040), (0xB0000, 0xB01FF)])) ∧
  (∀ c, AggFrame (.getCaps c) [.mbx, .ap, .jobs, .outbox] (some [(0x43000, 0x431FF), (0x90000, 0x90000), (0x90040, 0x90040), (0xB0000, 0xB01FF)])) ∧
  (∀ c dst, AggFrame (.readCounters c dst) [.mem, .mbx, .ap, .jobs, .outbox] (some [(0x43000, 0x431FF), (0x90000, 0x90000), (0x90040, 0x90040), (0xB0000, 0xB01FF)])) ∧
  (∀ c dst, AggFrame (.readGlobalCounters c dst) [.mem, .mbx, .ap, .jobs, .outbox] (some [(0x43000, 0x431FF), (0x90000, 0x90000), (0x90040, 0x90040), (0xB0000, 0xB01FF)])) ∧
  (∀ c p off v, AggFrame (.atuWrite c p off v) [.ports, .mbx, .acc, .ap, .jobs, .outbox] (some [(0x43000, 0x431FF), (0x90000, 0x90000), (0x90040, 0x90040), (0xB0000, 0xB01FF)])) ∧
  (∀ c p off count, AggFrame (.atuRead c p off count) [.ports, .mbx, .acc, .ap, .jobs, .outbox] (some [(0x43000, 0x431FF), (0x90000, 0x90000), (0x90040, 0x90040), (0xB0000, 0xB01FF)])) ∧
  (∀ p tag, AggFrame (.atuAccessTimeout p tag) [.mem, .ports, .links, .mbx, .acc, .ap, .jobs, .bundle, .elog, .boot, .outbox] (some [(0x43000, 0x431FF), (0x90000, 0x90000), (0x90040, 0x90040), (0xA0000, 0xA0000), (0xA004C, 0xA004C), (0xB0000, 0xB01FF), (0xE0000, 0xE0000), (0xE0008, 0xE000F), (0xE004C, 0xE004C)])) ∧
  (∀ c p kind, AggFrame (.atuReset c p kind) [.ports, .mbx, .acc, .ap, .jobs, .outbox] (some [(0x20000, 0x23FFF), (0x43000, 0x431FF), (0x90000, 0x90000), (0x90040, 0x90040), (0xB0000, 0xB01FF)])) ∧
  (∀ p, AggFrame (.atuResetTimeout p) [.mbx, .acc, .ap, .jobs, .outbox] (some [(0x43000, 0x431FF), (0x90000, 0x90000), (0x90040, 0x90040), (0xB0000, 0xB01FF)])) ∧
  (∀ c source port from_ max dst, AggFrame (.eventLogRead c source port from_ max dst) [.mem, .ports, .mbx, .acc, .ap, .jobs, .outbox] (some [(0x43000, 0x431FF), (0x90000, 0x90000), (0x90040, 0x90040), (0xB0000, 0xB01FF)])) ∧
  (∀ c chip dst max, AggFrame (.waitforGraph c chip dst max) [.mem, .mbx, .ap, .jobs, .elog, .outbox] (some [(0x43000, 0x431FF), (0x90000, 0x90000), (0x90040, 0x90040), (0x9004C, 0x90050), (0xB0000, 0xB01FF), (0x20000000, 0x2010FFFF)])) ∧
  (∀ c tag hawk hbm bind queueMs, AggFrame (.jobCreate c tag hawk hbm bind queueMs) [.mem, .mbx, .ap, .jobs, .scores, .outbox] (some [(0x43000, 0x431FF), (0x90000, 0x90000), (0x90040, 0x90040), (0xA0000, 0xA0000), (0xA0040, 0xA0040), (0xB0000, 0xB01FF)])) ∧
  (AggFrame .jobCreateTimeout [.mem, .mbx, .ap, .jobs, .scores, .outbox] (some [(0x43000, 0x431FF), (0x90000, 0x90000), (0x90040, 0x90040), (0xB0000, 0xB01FF)])) ∧
  (∀ c list count, AggFrame (.jobAddDies c list count) [.mbx, .ap, .jobs, .outbox] (some [(0x43000, 0x431FF), (0x90000, 0x90000), (0x90040, 0x90040), (0xB0000, 0xB01FF)])) ∧
  (∀ c addr len, AggFrame (.jobLoadModelLocal c addr len) [.mem, .mbx, .ap, .jobs, .stencil, .pair, .outbox] (some [(0x43000, 0x431FF), (0x90000, 0x90000), (0x90040, 0x90040), (0xB0000, 0xB01FF)])) ∧
  (∀ c earliest hold, AggFrame (.jobArm c earliest hold) [.ports, .mbx, .acc, .ap, .jobs, .outbox] (some [(0x43000, 0x431FF), (0x90000, 0x90000), (0x90040, 0x90040), (0xB0000, 0xB01FF)])) ∧
  (AggFrame .armExpire [.jobs] (some [(0xA0000, 0xA0000), (0xA0048, 0xA0048)])) ∧
  (∀ c act, AggFrame (.jobCommit c act) [.ports, .links, .mbx, .acc, .ap, .jobs, .bundle, .outbox] (some [(0x43000, 0x431FF), (0x90000, 0x90000), (0x90040, 0x90040), (0xA0000, 0xA0000), (0xA004C, 0xA004C), (0xB0000, 0xB01FF)])) ∧
  (∀ c, AggFrame (.jobDisarm c) [.mbx, .ap, .jobs, .outbox] (some [(0x43000, 0x431FF), (0x90000, 0x90000), (0x90040, 0x90040), (0xB0000, 0xB01FF)])) ∧
  (∀ n code, AggFrame (.commitOutcomeReceive n code) [.mbx, .ap, .jobs, .outbox] (some [(0x43000, 0x431FF), (0x90000, 0x90000), (0x90040, 0x90040), (0xA0000, 0xA0000), (0xA004C, 0xA004C), (0xB0000, 0xB01FF)])) ∧
  (∀ c last, AggFrame (.jobTeardown c last) [.mem, .ports, .mbx, .acc, .ap, .jobs, .skim, .codec, .cvu, .stn, .stencil, .scores, .outbox] (some [(0x43000, 0x431FF), (0x90000, 0x90000), (0x90040, 0x90040), (0xA0000, 0xA0000), (0xA0044, 0xA0044), (0xB0000, 0xB01FF)])) ∧
  (∀ x, AggFrame (.jobRelease x) [.mem, .mbx, .acc, .ap, .jobs, .skim, .codec, .cvu, .stn, .stencil, .scores, .outbox] (some [(0x43000, 0x431FF), (0x90000, 0x90000), (0x90040, 0x90040), (0xA0000, 0xA0000), (0xA0044, 0xA0044), (0xB0000, 0xB01FF)])) ∧
  (AggFrame .areaZeroed [.mem, .mbx, .ap, .jobs, .scores, .outbox] (some [(0x43000, 0x431FF), (0x90000, 0x90000), (0x90040, 0x90040), (0xB0000, 0xB01FF)])) ∧
  (∀ c, AggFrame (.jobStatus c) [.mbx, .ap, .jobs, .outbox] (some [(0x43000, 0x431FF), (0x90000, 0x90000), (0x90040, 0x90040), (0xB0000, 0xB01FF)]))

/-- What the paste and pair commands leave as it is: each answers a next state that differs from the state in the named parts and in registers of the
named ranges alone; the other machine, the queue and every other register and memory are unchanged. Where no range is named (`none`), the command
is a register write or a reset, whose registers the statement about its effect names. -/
def Obligations.PairFrames : Prop :=
  (∀ c pid digest, AggFrame (.jobLoadModelReceive c pid digest) [.mem, .mbx, .ap, .jobs, .stencil, .pair, .outbox] (some [(0x43000, 0x431FF), (0x90000, 0x90000), (0x90040, 0x90040), (0xB0000, 0xB01FF)])) ∧
  (∀ c pid addr len deadline members, AggFrame (.jobLoadModelSend c pid addr len deadline members) [.mem, .links, .mbx, .ap, .jobs, .bundle, .stencil, .pair, .outbox] (some [(0x43000, 0x431FF), (0x90000, 0x90000), (0x90040, 0x90040), (0xA0000, 0xA0000), (0xA0040, 0xA007F), (0xB0000, 0xB01FF)])) ∧
  (∀ m, AggFrame (.pasteChunkReceive m) [.mem, .links, .mbx, .ap, .jobs, .bundle, .stencil, .pair, .outbox] (some [(0x43000, 0x431FF), (0x90000, 0x90000), (0x90040, 0x90040), (0xA0000, 0xA0000), (0xA0040, 0xA007F), (0xB0000, 0xB01FF)])) ∧
  (∀ pid, AggFrame (.pasteHaveSend pid) [.mem, .links, .mbx, .ap, .jobs, .bundle, .stencil, .pair, .outbox] (some [(0x43000, 0x431FF), (0x90000, 0x90000), (0x90040, 0x90040), (0xA0000, 0xA0000), (0xA0040, 0xA007F), (0xB0000, 0xB01FF)])) ∧
  (∀ src m holds, AggFrame (.pasteHaveReceive src m holds) [.mem, .links, .mbx, .ap, .jobs, .stencil, .pair, .outbox] (some [(0x43000, 0x431FF), (0x90000, 0x90000), (0x90040, 0x90040), (0xA0000, 0xA0000), (0xA0040, 0xA007F), (0xB0000, 0xB01FF)])) ∧
  (∀ pid, AggFrame (.pasteDeadline pid) [.mem, .links, .mbx, .ap, .jobs, .stencil, .pair, .outbox] (some [(0x43000, 0x431FF), (0x90000, 0x90000), (0x90040, 0x90040), (0xA0000, 0xA0000), (0xA0040, 0xA007F), (0xB0000, 0xB01FF)])) ∧
  (∀ m, AggFrame (.pasteDecideReceive m) [.mem, .links, .mbx, .ap, .jobs, .stencil, .elog, .pair, .outbox] (some [(0x43000, 0x431FF), (0x90000, 0x90000), (0x90040, 0x90040), (0xA0000, 0xA0000), (0xA0040, 0xA007F), (0xB0000, 0xB01FF)])) ∧
  (∀ src m, AggFrame (.pasteFetchReceive src m) [.links, .jobs, .bundle] (some [(0xA0000, 0xA0000), (0xA005C, 0xA005C)])) ∧
  (∀ pid left, AggFrame (.pasteReparent pid left) [.links, .jobs] (some [(0xA0000, 0xA0000), (0xA0058, 0xA0058)])) ∧
  (∀ k m, AggFrame (.pasteRejoinReceive k m) [.links, .jobs, .bundle] (some [])) ∧
  (∀ pid, AggFrame (.pasteDecideProbe pid) [.links, .jobs, .bundle] (some [])) ∧
  (∀ pid, AggFrame (.pasteAbandon pid) [.mbx, .ap, .jobs, .outbox] (some [(0x43000, 0x431FF), (0x90000, 0x90000), (0x90040, 0x90040), (0xA0000, 0xA0000), (0xA0054, 0xA0054), (0xB0000, 0xB01FF)])) ∧
  (AggFrame .pasteStagingFree [.jobs] (some [])) ∧
  (AggFrame .pairKeepaliveSend [.links, .bundle, .pair] (some [])) ∧
  (AggFrame .partnerCoreLost [.mem, .ports, .links, .mbx, .acc, .ap, .jobs, .bundle, .codec, .stencil, .scores, .verdicts, .elog, .pair, .outbox] (some [(0x43000, 0x431FF), (0x90000, 0x90000), (0x90040, 0x90040), (0xA0000, 0xA0000), (0xA0040, 0xA007F), (0xB0000, 0xB01FF), (0xD0004, 0xD0004), (0xD0058, 0xD0058)])) ∧
  (AggFrame .partnerSiLost [.elog, .si] (some [(0xD0004, 0xD0004), (0xD005C, 0xD005C)])) ∧
  (AggFrame .checkpointWrite [.mem, .links, .elog, .pair] (some [(0xD0030, 0xD0034)])) ∧
  (∀ m, AggFrame (.checkpointReceive m) [.pair] (some [])) ∧
  (AggFrame .checkpointFail [.elog, .pair] (some [(0xD0004, 0xD0004), (0xD0030, 0xD0034), (0xD0060, 0xD0060)])) ∧
  (∀ k tray partners, AggFrame (.checkpointFetch k tray partners) [.links] (some [])) ∧
  (∀ c source fallback theirs, AggFrame (.pairSyncStart c source fallback theirs) [.links, .mbx, .ap, .jobs, .bundle, .pair, .outbox] (some [(0x43000, 0x431FF), (0x90000, 0x90000), (0x90040, 0x90040), (0xB0000, 0xB01FF)])) ∧
  (∀ x, AggFrame (.pairSyncStateReceive x) [.mem, .ports, .links, .mbx, .acc, .ap, .jobs, .skim, .codec, .stencil, .scores, .verdicts, .pair, .outbox] (some [(0x40040, 0x4007F), (0x40180, 0x401FF), (0x43000, 0x431FF), (0x90000, 0x90000), (0x90040, 0x90040), (0xB0000, 0xB01FF)])) ∧
  (∀ c, AggFrame (.pairStatus c) [.mbx, .ap, .jobs, .outbox] (some [(0x43000, 0x431FF), (0x90000, 0x90000), (0x90040, 0x90040), (0xB0000, 0xB01FF)])) ∧
  (AggFrame .pairKeepaliveReceive [.pair] (some [])) ∧
  (AggFrame .pairSyncRequestReceive [.pair] (some []))

/-- What the power and Safety Island commands leave as it is: each answers a next state that differs from the state in the named parts and in registers of the
named ranges alone; the other machine, the queue and every other register and memory are unchanged. Where no range is named (`none`), the command
is a register write or a reset, whose registers the statement about its effect names. -/
def Obligations.PowerFrames : Prop :=
  (∀ c st, AggFrame (.powerSetState c st) [.mbx, .ap, .jobs, .pwr, .outbox] (some [(0x43000, 0x431FF), (0x90000, 0x90000), (0x90040, 0x90040), (0xB0000, 0xB01FF), (0xC0000, 0xC0000), (0xC0044, 0xC0044)])) ∧
  (∀ c w, AggFrame (.powerSetCap c w) [.mbx, .ap, .jobs, .outbox] (some [(0x43000, 0x431FF), (0x90000, 0x90000), (0x90040, 0x90040), (0xB0000, 0xB01FF), (0xC0008, 0xC0008)])) ∧
  (∀ c d lv, AggFrame (.powerSetMargin c d lv) [.mbx, .ap, .jobs, .pwr, .eeprom, .outbox] (some [(0x43000, 0x431FF), (0x90000, 0x90000), (0x90040, 0x90040), (0xB0000, 0xB01FF), (0xC0000, 0xC0000), (0xC0038, 0xC0038), (0xC0044, 0xC0044), (0xE0000, 0xE0000), (0xE0054, 0xE0054)])) ∧
  (∀ c, AggFrame (.powerStatus c) [.mbx, .ap, .jobs, .outbox] (some [(0x43000, 0x431FF), (0x90000, 0x90000), (0x90040, 0x90040), (0xB0000, 0xB01FF)])) ∧
  (AggFrame .powerStepDone [.pwr] (some [(0xC0000, 0xC0000), (0xC0044, 0xC0044)])) ∧
  (∀ mw, AggFrame (.capEvaluate mw) [.pwr] (some [(0xC0000, 0xC0000), (0xC0018, 0xC0018), (0xC0044, 0xC0044), (0xC004C, 0xC004C)])) ∧
  (∀ temps, AggFrame (.thermalEvaluate temps) [.pwr] (some [(0xC0000, 0xC0000), (0xC001C, 0xC001C), (0xC0044, 0xC0044), (0xC0050, 0xC0054)])) ∧
  (AggFrame .droopTrip [.pwr] (some [(0xC0000, 0xC0000), (0xC0020, 0xC0020), (0xC0040, 0xC0044)])) ∧
  (AggFrame .droopRelease [.pwr] (some [])) ∧
  (AggFrame .stepHoldEnd [.pwr] (some [(0xC0000, 0xC0000), (0xC0044, 0xC0044)])) ∧
  (AggFrame .vrAlert [.pwr] (some [(0xC0000, 0xC0000), (0xC0048, 0xC0048)])) ∧
  (AggFrame .vrAlertClear [.pwr] (some [(0xC0000, 0xC0000), (0xC0044, 0xC0044)])) ∧
  (AggFrame .coolantStop [.mem, .ident, .time, .ports, .links, .gates, .mbx, .acc, .ap, .jobs, .skim, .codec, .cvu, .ingest, .stn, .stencil, .scores, .verdicts, .pwr, .si, .pair, .boot, .chip, .chipShown] (none)) ∧
  (∀ vals faults, AggFrame (.aggAgeMeasure vals faults) [.elog, .pwr] (some [(0xC0000, 0xC0000), (0xC0058, 0xC0058), (0xC0100, 0xC06FF)])) ∧
  (AggFrame .aggRecoatCycle [.elog, .pwr, .eeprom] (some [(0xC0000, 0xC0000), (0xC0038, 0xC0038), (0xC0044, 0xC0044), (0xC0060, 0xC0060), (0xE0000, 0xE0000), (0xE0054, 0xE0054)])) ∧
  (∀ ok, AggFrame (.aggFitSave ok) [.elog, .pwr, .eeprom] (some [(0xC0000, 0xC0000), (0xC005C, 0xC005C), (0xC0100, 0xC06FF), (0xE0000, 0xE0000), (0xE0054, 0xE0054)])) ∧
  (∀ t0 t1 switches, AggFrame (.siEvaluate t0 t1 switches) [.elog, .si] (some [(0xD0004, 0xD0004), (0xD0040, 0xD0040), (0xD0048, 0xD004C)])) ∧
  (∀ p, AggFrame (.unknownTimeout p) [.elog, .si] (some [(0xD0004, 0xD0004), (0xD0044, 0xD0044)])) ∧
  (∀ p, AggFrame (.safeRetire p) [.elog, .si] (some [(0xD0004, 0xD0004), (0xD0064, 0xD0064)])) ∧
  (∀ memory config clock corrected t0 t1, AggFrame (.siSelfTest memory config clock corrected t0 t1) [.elog, .si] (some [(0xD0004, 0xD0004), (0xD0050, 0xD0050)])) ∧
  (AggFrame .lockstepMismatch [.elog, .si] (some [])) ∧
  (AggFrame .siRailFault [.elog, .si] (some [])) ∧
  (AggFrame .cpHeartbeat [.time, .links, .mbx, .ap, .jobs, .boot, .outbox] (some [(0x90000, 0x90000), (0x90040, 0x90040)])) ∧
  (AggFrame .coreReset [.mem, .ident, .time, .ports, .links, .gates, .mbx, .acc, .ap, .jobs, .skim, .codec, .cvu, .ingest, .stn, .stencil, .scores, .verdicts, .elog, .pwr, .pair, .boot, .chip, .chipShown] (none))

/-- What the bring-up commands leave as it is: each answers a next state that differs from the state in the named parts and in registers of the
named ranges alone; the other machine, the queue and every other register and memory are unchanged. Where no range is named (`none`), the command
is a register write or a reset, whose registers the statement about its effect names. -/
def Obligations.BootFrames : Prop :=
  (∀ x coolant rom switches rails prog, AggFrame (.modulePowerOn x coolant rom switches rails prog) [.mem, .ident, .time, .ports, .links, .gates, .mbx, .acc, .ap, .jobs, .skim, .bundle, .codec, .cvu, .ingest, .stn, .stencil, .scores, .verdicts, .elog, .pwr, .si, .pair, .boot, .eeprom, .chip, .chipShown, .outbox] (none)) ∧
  (∀ x coolant prog, AggFrame (.moduleReset x coolant prog) [.mem, .ident, .time, .ports, .links, .gates, .mbx, .acc, .ap, .jobs, .skim, .bundle, .codec, .cvu, .ingest, .stn, .stencil, .scores, .verdicts, .elog, .pwr, .si, .pair, .boot, .eeprom, .chip, .chipShown] (none)) ∧
  (AggFrame .primerFetch [.links, .bundle, .boot, .outbox] (some [])) ∧
  (∀ m, AggFrame (.primerImageCheck m) [.ident, .mbx, .stn, .pwr, .boot] (some [(0xC0000, 0xC0000), (0xC0024, 0xC0024), (0xC0038, 0xC0038), (0xC0044, 0xC0044), (0xC0100, 0xC06FF), (0xE0000, 0xE0000), (0xE0040, 0xE0044), (0xE0050, 0xE0050)])) ∧
  (AggFrame .primerSourceTimeout [.boot] (some [(0xE0000, 0xE0000), (0xE0040, 0xE0040)])) ∧
  (AggFrame .primerPassWaitEnd [.boot] (some [])) ∧
  (AggFrame .imageReqReceive [.links, .bundle] (some [])) ∧
  (AggFrame .bootStatusSend [.boot, .outbox] (some [])) ∧
  (∀ ok, AggFrame (.hbmTrainingDone ok) [.boot] (some [(0xE0000, 0xE0000), (0xE0048, 0xE0048)])) ∧
  (∀ p, AggFrame (.atuDiscovery p) [.ports, .acc] (some [])) ∧
  (∀ p, AggFrame (.discoveryRetry p) [.ports, .acc] (some [])) ∧
  (AggFrame .powerFail [.mem, .ident, .time, .ports, .links, .gates, .mbx, .acc, .ap, .jobs, .skim, .codec, .cvu, .ingest, .stn, .stencil, .scores, .verdicts, .pwr, .pair, .boot, .chip, .chipShown] (none)) ∧
  (∀ x coolant, AggFrame (.powerReturn x coolant) [.mem, .ident, .time, .ports, .links, .gates, .mbx, .acc, .ap, .jobs, .skim, .bundle, .codec, .cvu, .ingest, .stn, .stencil, .scores, .verdicts, .elog, .pwr, .si, .pair, .boot, .chip, .chipShown] (none)) ∧
  (AggFrame .holdupExhausted [.mem, .ident, .time, .ports, .links, .gates, .mbx, .acc, .ap, .jobs, .skim, .bundle, .codec, .cvu, .ingest, .stn, .stencil, .scores, .verdicts, .elog, .pwr, .si, .pair, .boot, .eeprom, .chip, .chipShown, .outbox] (none)) ∧
  (AggFrame .inputOvercurrent [.mem, .ident, .time, .ports, .links, .gates, .mbx, .acc, .ap, .jobs, .skim, .bundle, .codec, .cvu, .ingest, .stn, .stencil, .scores, .verdicts, .elog, .pwr, .si, .pair, .boot, .eeprom, .chip, .chipShown, .outbox] (none))

/-- The commands of the sampling unit do what R91 to R113 say. Where these rules leave a point open, a clause follows the model's choice (log
entries 16 to 24 and 119). -/
def Obligations.SamplingCommands : Prop :=
  -- POWER_DOMAIN_CHANGE (R91): PDOM_ON takes the inputs; a block that powers on takes its last counts as bases, and REPOWERED is set
  (∀ (s : State) (pdom : BitVec 16), Runs (.powerDomainChange pdom) s fun t => t.atu.fld 0x0018 15 0 = pdom.toNat ∧
    ∀ (b : Fin 16) (l : List Nat), s.atu.bound.inReset = false → s.atu.blockPresent b.val = true → wbit (s.atu.info b.val) 12 = false →
      s.atu.bit 0x0018 (wfld (s.atu.info b.val) 11 8) = false → pdom.toNat.testBit (wfld (s.atu.info b.val) 11 8) = true →
      s.atu.samp.blocks[b].last = some l → t.atu.bit 0x0400 4 = true ∧
        ∀ i, i < 256 → s.atu.isGauge (256 * b.val + i) = false → sget 0 t.atu.samp.blocks[b].bases i = l.getD i 0) ∧
  -- BLOCK_CAPTURE (R93): a free bank takes every value, bank A first, and the fill toggle flips
  (∀ (s : State) (b : Fin 16) (vals : List (BitVec 48)) (n : Nat), s.atu.samp.blocks[b].awaiting = some n → s.atu.blockStopped b.val = false →
    s.atu.samp.blocks[b].bankA = .free ∨ s.atu.samp.blocks[b].bankB = .free →
    Runs (.blockCapture b vals) s fun t =>
      (s.atu.samp.blocks[b].bankA = .free → t.atu.samp.blocks[b].bankA = .full n vals) ∧
      (s.atu.samp.blocks[b].bankA ≠ .free → t.atu.samp.blocks[b].bankB = .full n vals) ∧
      t.atu.samp.blocks[b].awaiting = none ∧ t.atu.samp.blocks[b].fillToggle = !s.atu.samp.blocks[b].fillToggle) ∧
  -- SNAPSHOT_COMPLETE (R92): the oldest snapshot is read out, and the blocks it needed keep what they reported
  (∀ (s : State) (sn : Snap) (rest : List Snap), s.atu.samp.snaps = sn :: rest → s.atu.bound.clkRun = true → s.atu.snapReady sn = true →
    Runs .snapshotComplete s fun t => t.atu.samp.snaps = rest ∧
      ∀ b : Fin 16, sn.need.testBit b.val = true →
        t.atu.samp.blocks[b].last = some (s.atu.blockReport b sn) ∧ t.atu.samp.blocks[b].capturedFor sn.stroke = none) ∧
  -- BLOCK_STALL (R96): 2 microseconds after the stroke a block without a capture is stalled, and SNAPSHOT_STALL is set
  (∀ (s : State) (b : Fin 16) (n : Nat) (sn : Snap), s.atu.samp.blocks[b].awaiting = some n →
    s.atu.samp.snaps.find? (fun x => decide (x.stroke = n)) = some sn → sn.atTime + 2000 ≤ s.atu.time.elapsed → s.atu.blockStopped b.val = false →
    Runs (.blockStall b) s fun t => t.atu.samp.blocks[b].awaiting = none ∧ t.atu.samp.blocks[b].late = some n ∧ t.atu.bit 0x0404 b.val = true ∧
      t.atu.bit 0x0400 1 = true) ∧
  -- LATE_CAPTURE_RELEASE (R97): the late bank is filled and released unread, so the fill toggle alone shows it; what a snapshot still needs stays
  (∀ (s : State) (b : Fin 16) (n : Nat), s.atu.samp.blocks[b].late = some n → s.atu.bound.clkRun = true →
    Runs (.lateCaptureRelease b) s fun t => t.atu.samp.blocks[b].late = none ∧ t.atu.samp.blocks[b].fillToggle = !s.atu.samp.blocks[b].fillToggle ∧
      t.atu.samp.blocks[b].bankA ≠ .late ∧ t.atu.samp.blocks[b].bankB ≠ .late ∧
      ∀ sn ∈ s.atu.samp.snaps, t.atu.samp.blocks[b].capturedFor sn.stroke = s.atu.samp.blocks[b].capturedFor sn.stroke) ∧
  -- CH_COMMIT (R109 to R111): the shadow sets of the mask wait, to take effect at the window of ACT_WIN
  (∀ (s : State) (src : RegFrom) (mask : BitVec 8), s.atu.accepts src true 0x0608 (w32 mask.toNat) 0xF →
    Runs (.chCommit src mask) s fun t => ∃ cm, t.atu.samp.commits = s.atu.samp.commits ++ [cm] ∧
      cm.sets = (maskChans mask.toNat).map (fun n => (n, s.atu.shadow n)) ∧
      cm.actWin = s.atu.actWindow ((s.atu.sideRegs (sideOf src)).actWinLo.toNat + 2 ^ 32 * (s.atu.sideRegs (sideOf src)).actWinHi.toNat)) ∧
  -- CH_COMMIT_CANCEL (R113): with no commit within 2 microseconds of its stroke, the masked channels have no pending set
  (∀ (s : State) (src : RegFrom) (mask : BitVec 8), s.atu.accepts src true 0x0608 (w32 (0x100 + mask.toNat)) 0xF →
    s.atu.samp.commits.filter s.atu.cancelLate = [] →
    Runs (.chCommitCancel src mask) s fun t => ∀ n, mask.toNat.testBit n = true → n ∉ t.atu.pendingMask)

/-- The commands of the frame path do what R141 to R156 and R749 say. Where these rules leave a point open, a clause follows the model's choice (log
entries 27 to 29 and 121). -/
def Obligations.FrameCommands : Prop :=
  -- SPILL_WRITE_DONE (R141 to R143): the oldest frame lies in the ring at SPILL_WR and its entry in the index; then both positions advance
  (∀ (s : State) (f : List Byte) (rest : List (List Byte)), s.atu.path.spillQ = f :: rest → s.atu.spillOn = true → s.atu.bound.clkRun = true →
    Runs .spillWriteDone s fun t => t.atu.path.spillQ = rest ∧ t.atu.path.spillWr = s.atu.path.spillWr + f.length ∧
      t.atu.path.spillIdx = s.atu.path.spillIdx + 1 ∧
      t.atu.hostMem = mwrite (ringWrite s.atu.hostMem s.atu.spillBase s.atu.spillSize s.atu.path.spillWr f)
        (s.atu.idxBase + 16 * (s.atu.path.spillIdx % s.atu.idxCount)) (indexEntry f s.atu.path.spillWr)) ∧
  -- SPILL_DMA_ERROR (R749): spill is disabled, the frames on their way are dropped, and both flags are set
  (∀ (s : State), s.atu.path.spillQ ≠ [] → s.atu.spillOn = true → s.atu.bound.clkRun = true →
    Runs .spillDmaError s fun t => t.atu.spillOn = false ∧ t.atu.path.spillQ = [] ∧ t.atu.bit 0x0704 0 = true ∧ t.atu.bit 0x0704 1 = true) ∧
  -- SPILL_CFG_WRITE (R141, R286): enabling starts both positions at 0 and claims the lowest free DMA channel; disabling drops what is on its way
  (∀ (s : State) (v : Word), s.atu.accepts .host true 0x0718 v 0xF →
    Runs (.spillCfgWrite v) s fun t =>
      (wbit v 8 = true → s.atu.spillOn = false → t.atu.path.spillWr = 0 ∧ t.atu.path.spillIdx = 0 ∧ t.atu.path.spillQ = [] ∧ t.atu.spillOn = true) ∧
      (wbit v 8 = false → s.atu.spillOn = true → t.atu.path.spillQ = [] ∧ t.atu.spillOn = false)) ∧
  -- CH_FLUSH (R149)
  (∀ (s : State) (src : RegFrom) (mask : BitVec 8), s.atu.accepts src true 0x0700 (w32 mask.toNat) 0xF →
    Runs (.chFlush src mask) s fun t => ∀ n : Fin 8, mask.toNat.testBit n.val = true → t.atu.samp.chans[n].flush = true) ∧
  -- RESEND_START (R146): the resend runs, and shows RUNNING
  (∀ (s : State) (src : RegFrom) (mask : BitVec 8), s.atu.accepts src true 0x0770 (w32 (0x100 + mask.toNat)) 0xF →
    Runs (.resendStart src mask) s fun t => t.atu.path.resend.isSome = true ∧ t.atu.bit 0x0774 0 = true) ∧
  -- RESEND_DONE (R148): with no resent frame left, or cut short, the resend ends with its code and RESEND_DONE is set
  (∀ (s : State) (r : Resend), s.atu.path.resend = some r → s.atu.bound.clkRun = true →
    r.code = .aborted ∨ (s.atu.portA.hasKind 1 = false ∧ s.atu.portB.hasKind 1 = false) →
    Runs .resendDone s fun t => t.atu.path.resend = none ∧ t.atu.fld 0x0774 0 0 = 0 ∧ t.atu.fld 0x0774 15 8 = statusCode r.code ∧
      t.atu.bit 0x0704 2 = true) ∧
  -- CHK_START (R154): the scan is busy with the range its registers name, from the initial value of its algorithm unless CONTINUE is set
  (∀ (s : State) (src : RegFrom) (cont : Bool), s.atu.accepts src true 0x0790 (w32 (1 + 2 * b2n cont)) 0xF →
    Runs (.chkStart src cont) s fun t => t.atu.path.chkBusy = true ∧ t.atu.bit 0x07A4 0 = true ∧ t.atu.path.chkAddr = s.atu.chkAddr ∧
      t.atu.path.chkLen = s.atu.chkLen ∧
      (cont = false → t.atu.reg 0x0794 = w32 s.atu.chkParams.init ∧ t.atu.reg 0x0798 = w32 (s.atu.chkParams.init / 2 ^ 32))) ∧
  -- CHK_DONE (R154): running value and result over the whole range
  (∀ (s : State), s.atu.path.chkBusy = true → s.atu.bound.clkRun = true →
    Runs .chkDone s fun t => t.atu.path.chkBusy = false ∧ t.atu.reg 0x0794 = w32 (s.atu.chkRun s.atu.path.chkLen) ∧
      t.atu.reg 0x079C = w32 (crcResult s.atu.chkParams (s.atu.chkRun s.atu.path.chkLen)) ∧ t.atu.bit 0x0704 3 = true) ∧
  -- CHK_ERROR (R156): the scan stops after the good bytes, and CHK_ERR and CHK_DONE are set
  (∀ (s : State) (good : Nat), s.atu.path.chkBusy = true → s.atu.bound.clkRun = true → good < s.atu.path.chkLen →
    Runs (.chkError good) s fun t => t.atu.path.chkBusy = false ∧ t.atu.reg 0x0794 = w32 (s.atu.chkRun good) ∧ t.atu.bit 0x0704 4 = true ∧
      t.atu.bit 0x0704 3 = true)

/-- The commands of Hall Time at the ATU do what R56 to R77 and R744 say. Where these rules leave a point open, a clause follows the model's choice
(log entries 12 to 17 and 119). -/
def Obligations.AtuTimeCommands : Prop :=
  -- PLUMB_BEAT_RECEIVE (R56, R61, R744): a good beat in order on a port in UP is counted, and ends the run of missed beats
  (∀ (s : State) (p : PortId) (w : List Byte), (s.atu.port p).state = .up → beatWordGood w = true →
    beatSeqGood (s.atu.time.track p).lastSeq (leAt w 4 2) = true →
    Runs (.plumbBeatReceive p w) s fun t => (t.atu.time.track p).lastSeq = some (leAt w 4 2) ∧ (t.atu.time.track p).since = s.atu.time.elapsed ∧
      (t.atu.time.track p).counted = 0 ∧ (t.atu.time.track p).missedRun = 0 ∧ t.atu.time.lastGood = s.atu.time.elapsed) ∧
  -- and from UNSET the beat of the followed port A sets HT and enters ACQUIRING (R63)
  (∀ (s : State) (w : List Byte), s.atu.portA.state = .up → s.atu.time.follow = .a → s.atu.time.state = .unset → beatWordGood w = true →
    beatSeqGood s.atu.time.trackA.lastSeq (leAt w 4 2) = true →
    Runs (.plumbBeatReceive .a w) s fun t => t.atu.time.ht = leAt w 8 8 ∧ t.atu.time.state = .acquiring) ∧
  -- in LOCKED the correction is slewed, whatever it is (R66), while good beats have not stopped for 1.1 ms
  (∀ (s : State) (w : List Byte), s.atu.portA.state = .up → s.atu.time.follow = .a → s.atu.time.state = .locked → beatWordGood w = true →
    beatSeqGood s.atu.time.trackA.lastSeq (leAt w 4 2) = true → s.atu.time.elapsed < s.atu.time.lastGood + 1100000 →
    Runs (.plumbBeatReceive .a w) s fun t => t.atu.time.slew = (leAt w 8 8 : Int) - s.atu.time.ht ∧ t.atu.time.ht = s.atu.time.ht ∧
      t.atu.time.state = .locked) ∧
  -- the beat that ends a silence in HOLDOVER, on either port, is slewed up to 25 µs and steps HT beyond (R66, R67)
  (∀ (s : State) (p : PortId) (w : List Byte), (s.atu.port p).state = .up → s.atu.time.state = .holdover → beatWordGood w = true →
    beatSeqGood (s.atu.time.track p).lastSeq (leAt w 4 2) = true → s.atu.time.lastGood + 1100000 ≤ s.atu.time.elapsed →
    Runs (.plumbBeatReceive p w) s fun t => t.atu.time.state = .holdover ∧
      (((leAt w 8 8 : Int) - s.atu.time.ht).natAbs ≤ 25000 → t.atu.time.slew = (leAt w 8 8 : Int) - s.atu.time.ht ∧ t.atu.time.ht = s.atu.time.ht) ∧
      (25000 < ((leAt w 8 8 : Int) - s.atu.time.ht).natAbs → t.atu.time.ht = leAt w 8 8 ∧ t.atu.bit 0x0108 10 = true)) ∧
  -- BEAT_MISSED (R744): an overdue beat is counted; on the followed port BEAT_MISS is set (R79)
  (∀ (s : State) (p : PortId), s.atu.bound.inReset = false → (s.atu.time.track p).overdue s.atu.time.elapsed = true →
    (p = .a ∨ s.atu.hasPortB = true) →
    Runs (.beatMissed p) s fun t => (t.atu.time.track p).counted = (s.atu.time.track p).counted + 1 ∧
      (t.atu.time.track p).missedRun = (s.atu.time.track p).missedRun + 1 ∧ (t.atu.time.track p).goodRun = 0 ∧
      (s.atu.time.follow = p → t.atu.bit 0x0108 8 = true)) ∧
  -- and LOCKED ends in HOLDOVER 1.1 ms after the last good beat (R63)
  (∀ (s : State) (p : PortId), s.atu.bound.inReset = false → s.atu.time.state = .locked → s.atu.time.lastGood + 1100000 ≤ s.atu.time.elapsed →
    Runs (.beatMissed p) s fun t => t.atu.time.state = .holdover ∧ t.atu.bit 0x0108 9 = true) ∧
  -- STROKE (R63, R68): in LOCKED and in HOLDOVER the next stroke fires once HT has reached it
  (∀ (s : State) (d : Sched), s.atu.time.sched = some d → firesStrokes s.atu.time.state = true →
    schedHtPending d s.atu.time.pending (s.atu.time.nextStroke d) ≤ s.atu.time.ht →
    Runs .stroke s fun t => t.atu.time.lastFired = some (s.atu.time.nextStroke d)) ∧
  -- CLK_REGION_EDGE (R77): the level of the input and the HT of its last edge
  (∀ (s : State) (r : Fin 16) (asserted : Bool) (taps : List (List (BitVec 48))),
    Runs (.clkRegionEdge r (.stop taps) asserted) s fun t =>
      t.atu.samp.regions[r].stop = asserted ∧ t.atu.samp.regions[r].stopHt = s.atu.time.ht) ∧
  (∀ (s : State) (r : Fin 16) (asserted : Bool),
    Runs (.clkRegionEdge r .stretch asserted) s fun t =>
      t.atu.samp.regions[r].stretch = asserted ∧ t.atu.samp.regions[r].stretchHt = s.atu.time.ht) ∧
  -- and a stop completes the capture that a block of the region awaits (R99)
  (∀ (s : State) (r b : Fin 16) (n : Nat) (taps : List (List (BitVec 48))), s.atu.bound.clkRun = true → s.atu.blockIn b.val r.val = true →
    s.atu.samp.blocks[b].awaiting = some n → s.atu.samp.blocks[b].hasFree = true →
    Runs (.clkRegionEdge r (.stop taps) true) s fun t => t.atu.samp.blocks[b].awaiting = none ∧
      (t.atu.samp.blocks[b].capturedFor n).isSome = true ∧ t.atu.bit 0x0404 (16 + b.val) = true)

/-- The commands of the trace sources and triggers do what R172 to R203 say. Where these rules leave a point open, a clause follows the model's
choice (log entries 31 to 35). -/
def Obligations.TraceCommands : Prop :=
  -- TRACE_RETIRE (R178, R179): an indirect branch inside the ranges gives INDIRECT with the low bytes that changed, and the PC is its target
  (∀ (s : State) (n : Fin 16) (pc tgt : BitVec 64), s.atu.hasTrace = true → modeBranch (s.atu.srcMode n) = true → s.atu.branchTraced n.val pc.toNat = true →
    s.atu.rangeEvents n.val pc.toNat = [] → s.atu.plainEmit n 10 →
    Runs (.traceRetire n (.indirect pc tgt)) s fun t => (t.atu.src n).pc = tgt.toNat ∧
      (t.atu.src n).stream.dat = (s.atu.src n).stream.dat ++ (leBytes 1 3 ++ leBytes 1 (max 1 (lowBytes pc.toNat tgt.toNat)) ++
        leBytes (max 1 (lowBytes pc.toNat tgt.toNat)) tgt.toNat)) ∧
  -- outcomes of conditional branches are gathered, up to 6 (R177)
  (∀ (s : State) (n : Fin 16) (pc : BitVec 64) (os : List Bool), s.atu.hasTrace = true → modeBranch (s.atu.srcMode n) = true →
    s.atu.branchTraced n.val pc.toNat = true → s.atu.rangeEvents n.val pc.toNat = [] → s.atu.plainEmit n 0 → os.length < 6 →
    Runs (.traceRetire n (.cond pc os)) s fun t => (t.atu.src n).atoms = os ∧ (t.atu.src n).pc = pc.toNat) ∧
  -- an exception gives EXCEPTION with its cause, the new context and the return address
  (∀ (s : State) (n : Fin 16) (pc : BitVec 64) (cause : BitVec 16) (priv : BitVec 2) (secure : Bool) (ret : BitVec 64), s.atu.hasTrace = true →
    modeBranch (s.atu.srcMode n) = true → s.atu.branchTraced n.val pc.toNat = true → s.atu.rangeEvents n.val pc.toNat = [] → s.atu.plainEmit n 12 →
    Runs (.traceRetire n (.exception pc cause priv secure ret)) s fun t => (t.atu.src n).pc = ret.toNat ∧
      (t.atu.src n).stream.dat = (s.atu.src n).stream.dat ++ (leBytes 1 4 ++ leBytes 2 cause.toNat ++ leBytes 1 (priv.toNat + 4 * b2n secure) ++
        leBytes 8 ret.toNat)) ∧
  -- a data access that range m selects gives DATA with the low address bytes that changed, and the value where the range asks for it (R189)
  (∀ (s : State) (n : Fin 16) (addr value : BitVec 64) (sz : Fin 4) (wr : Bool) (m : Nat), s.atu.hasTrace = true → modeData (s.atu.srcMode n) = true →
    s.atu.dataRange n.val addr.toNat value.toNat = some m → s.atu.fld 0x3010 11 6 = 0 → s.atu.plainEmit n 19 →
    Runs (.traceRetire n (.access addr value sz wr)) s fun t => (t.atu.src n).dataAddr = addr.toNat ∧
      (t.atu.src n).stream.dat = (s.atu.src n).stream.dat ++ (leBytes 1 12 ++
        leBytes 1 (sz.val + 4 * b2n wr + 8 * m + 64 * b2n (s.atu.bit (rangeBase m + 0x10) 2)) ++
        leBytes 1 (lowBytes (s.atu.src n).dataAddr addr.toNat) ++ leBytes (lowBytes (s.atu.src n).dataAddr addr.toNat) addr.toNat ++
        leBytes (if s.atu.bit (rangeBase m + 0x10) 2 then 2 ^ sz.val else 0) value.toNat)) ∧
  -- EXCHANGE_MARK (R182): EXCH_SEND or EXCH_RECV with the exchange's number and HT
  (∀ (s : State) (n : Fin 16) (recv : Bool) (xid : BitVec 32), s.atu.plainEmit n 13 →
    Runs (.exchangeMark n recv xid) s fun t =>
      (t.atu.src n).stream.dat = (s.atu.src n).stream.dat ++ (leBytes 1 (6 + b2n recv) ++ leBytes 4 xid.toNat ++ leBytes 8 s.atu.time.ht)) ∧
  -- TRACE_CONTEXT_CHANGE (R184): the source has the new context, and SRCn_STATUS says whether it is excluded
  (∀ (s : State) (n : Fin 16) (priv : BitVec 2) (secure : Bool) (pc : BitVec 64), s.atu.hasTrace = true → s.atu.bound.clkRun = true →
    s.atu.bound.inReset = false → s.atu.traceOn = false →
    Runs (.traceContextChange n priv secure pc) s fun t => (t.atu.src n).priv = priv.toNat ∧ (t.atu.src n).secure = secure ∧ (t.atu.src n).pc = pc.toNat ∧
      t.atu.bit (0x3104 + 8 * n.val) 3 = (t.atu.exclusion n).isSome) ∧
  -- CORE_POWER_DOWN and CORE_POWER_UP (R190)
  (∀ (s : State) (n : Fin 16), s.atu.hasTrace = true → s.atu.bound.clkRun = true → s.atu.bound.inReset = false → (s.atu.src n).powered = true →
    Runs (.corePowerDown n) s fun t => (t.atu.src n).powered = false ∧ t.atu.bit (0x3104 + 8 * n.val) 2 = true) ∧
  (∀ (s : State) (n : Fin 16) (priv : BitVec 2) (secure : Bool) (pc : BitVec 64), s.atu.hasTrace = true → s.atu.bound.clkRun = true →
    s.atu.bound.inReset = false → (s.atu.src n).powered = false →
    Runs (.corePowerUp n priv secure pc) s fun t => (t.atu.src n).powered = true ∧ t.atu.bit (0x3104 + 8 * n.val) 2 = false) ∧
  -- TRACE_OVERFLOW (R192): with 256 bytes free again the discarded bytes are counted, and OVERFLOW is set
  (∀ (s : State) (n : Fin 16) (bytes marks : Nat), s.atu.bound.clkRun = true → s.atu.srcLive n = true →
    (s.atu.src n).atoms = [] → (s.atu.src n).stream.dropping = some (bytes, marks) →
    streamUsed (s.atu.src n).stream + 256 ≤ 2048 →
    Runs (.traceOverflow ⟨n.val, by omega⟩) s fun t => t.atu.bit 0x3008 8 = true ∧ (t.atu.src n).dataAddr = 0 ∧
      (t.atu.src n).stream.lostBytes = (s.atu.src n).stream.lostBytes + bytes) ∧
  -- CHUNK_CLOSE (R174): a chunk open for 10 microseconds is closed, and the next one takes the next number
  (∀ (s : State) (n : Fin 16) (h : Nat), s.atu.bound.clkRun = true → s.atu.bit 0x3000 3 = false → (s.atu.src n).stream.openedAt = some h →
    h + 10000 ≤ s.atu.time.elapsed → (s.atu.src n).stream.dat ≠ [] →
    Runs (.chunkClose ⟨n.val, by omega⟩) s fun t => (t.atu.src n).stream.dat = [] ∧
      (t.atu.src n).stream.seq = ((s.atu.src n).stream.seq + 1) % 65536) ∧
  -- TRIG_IN_EDGE (R194, R198): line k is event k + 1; of lines that rise in one cycle the starting event starts trace, unless one of them stops it
  (∀ (s : State) (lines : BitVec 4) (k : Nat), s.atu.hasTrace = true → s.atu.bound.clkRun = true → lines.toNat.testBit k = true →
    s.atu.fld 0x3010 5 0 = k + 1 → (∀ j, lines.toNat.testBit j = true → s.atu.fld 0x3010 11 6 ≠ j + 1) → s.atu.traceOn = false →
    Runs (.trigInEdge lines) s fun t => t.atu.trace.running = true) ∧
  (∀ (s : State) (lines : BitVec 4) (k : Nat), s.atu.hasTrace = true → s.atu.bound.clkRun = true → lines.toNat.testBit k = true →
    s.atu.fld 0x3010 11 6 = k + 1 → s.atu.trace.running = true → s.atu.trace.stopAt = none →
    Runs (.trigInEdge lines) s fun t => t.atu.trace.running = false) ∧
  -- TRACE_START (R196)
  (∀ (s : State) (e : BitVec 6), s.atu.hasTrace = true → s.atu.bound.clkRun = true → e ≠ 0 → s.atu.fld 0x3010 5 0 = e.toNat → s.atu.fld 0x3010 11 6 ≠ e.toNat →
    s.atu.traceOn = false → Runs (.traceStart e) s fun t => t.atu.trace.running = true ∧ t.atu.bit 0x3008 12 = true) ∧
  -- TRACE_STOP_EVENT (R197): with a delay trace is STOPPING until it ends, without one it stops at once
  (∀ (s : State) (e : BitVec 6), s.atu.hasTrace = true → s.atu.bound.clkRun = true → e ≠ 0 → s.atu.fld 0x3010 11 6 = e.toNat → s.atu.trace.running = true →
    s.atu.trace.stopAt = none →
    Runs (.traceStopEvent e) s fun t => t.atu.trace.running = false ∧
      t.atu.trace.stopAt = if s.atu.fld 0x3010 31 16 = 0 then none else some (s.atu.time.ht + 1000 * s.atu.fld 0x3010 31 16)) ∧
  -- TRACE_STOP_DELAY_END (R197)
  (∀ (s : State) (h : Nat), s.atu.bound.clkRun = true → s.atu.trace.stopAt = some h → h ≤ s.atu.time.ht →
    Runs .traceStopDelayEnd s fun t => t.atu.traceOn = false ∧ t.atu.bit 0x3008 13 = true) ∧
  -- TRIG_OUT_PULSE_END (R200)
  (∀ (s : State) (k : Fin 4), s.atu.bound.clkRun = true → s.atu.trace.pulse[k] ≤ s.atu.time.elapsed → Runs (.trigOutPulseEnd k) s fun t => t.atu.trace.pulse[k] = 0) ∧
  -- TRACE_BUF_DMA_ERROR (R203): DEST bit 2 clears
  (∀ (s : State), s.atu.bound.clkRun = true → s.atu.bit 0x3000 2 = true → Runs .traceBufDmaError s fun t => t.atu.bit 0x3000 2 = false ∧ t.atu.bit 0x3008 10 = true)

/-- The commands of trace control, authorisation and the log matcher do what R185 to R214 say. Where these rules leave a point open, a clause
follows the model's choice (log entries 36 and 37). -/
def Obligations.TraceControlCommands : Prop :=
  -- TRC_CTL_START and TRC_CTL_STOP (R196, R197)
  (∀ (s : State) (src : RegFrom), s.atu.accepts src true 0x3004 1 0xF → s.atu.hasTrace = true → s.atu.traceOn = false →
    Runs (.trcCtlStart src) s fun t => t.atu.trace.running = true) ∧
  (∀ (s : State) (src : RegFrom), s.atu.accepts src true 0x3004 2 0xF → Runs (.trcCtlStop src) s fun t => t.atu.traceOn = false) ∧
  -- TRC_AUTH (R185): the key's token authorises until the expiry window
  (∀ (s : State) (src : RegFrom) (v : Word), s.atu.accepts src true 0x302C v 0xF → s.atu.trace.auth.keyLoSet = true → s.atu.trace.auth.keyHiSet = true →
    s.atu.bit 0x3008 3 = false → (s.atu.sideRegs (sideOf src)).authLo.toNat + 2 ^ 32 * v.toNat = s.atu.trace.auth.key →
    Runs (.trcAuth src v) s fun t =>
      t.atu.trace.auth.expiry = some ((s.atu.sideRegs (sideOf src)).authExpLo.toNat + 2 ^ 32 * (s.atu.sideRegs (sideOf src)).authExpHi.toNat)) ∧
  -- AUTH_EXPIRE (R187)
  (∀ (s : State) (e n : Nat), s.atu.trace.auth.expiry = some e → s.atu.time.lastFired = some n → e ≤ n → s.atu.bound.clkRun = true →
    Runs .authExpire s fun t => t.atu.trace.auth.expiry = none) ∧
  -- LOG_SUBMIT (R206): the buffer waits with its number and HT
  (∀ (s : State) (v : Word), s.atu.accepts .host true 0x380C v 0xF →
    Runs (.logSubmit v) s fun t =>
      t.atu.log.queue = s.atu.log.queue ++ [⟨rget64 s.atu.regs 0x3804, wfld v 23 0, wbit v 24, s.atu.time.ht, s.atu.log.nextSeq⟩]) ∧
  -- LOG_BYTE_CONSUME (R209): the next byte of the front buffer joins the history of 32 bytes
  (∀ (s : State) (b : LogBuf) (rest : List LogBuf), s.atu.bit 0x3800 17 = true → s.atu.bound.clkRun = true → s.atu.log.queue = b :: rest →
    s.atu.bit 0x3800 16 = false → s.atu.log.partChar = [] → s.atu.log.off + 1 ≠ b.len →
    Runs .logByteConsume s fun t => t.atu.log.off = s.atu.log.off + 1 ∧
      t.atu.log.hist = (some (mget s.atu.hostMem (b.addr + s.atu.log.off)) :: s.atu.log.hist).take 32) ∧
  -- LOG_DMA_ERROR (R214): the rest of the buffer is skipped, as if it had END set
  (∀ (s : State) (b : LogBuf) (rest : List LogBuf), s.atu.bit 0x3800 17 = true → s.atu.bound.clkRun = true → s.atu.log.queue = b :: rest →
    Runs .logDmaError s fun t => t.atu.log.queue = rest ∧ t.atu.log.off = 0 ∧ t.atu.log.hist = [] ∧ t.atu.bit 0x3810 10 = true) ∧
  -- LOG_MATCHER_ENABLE (R206): setting ENABLE restarts the numbering and clears the queue; clearing it leaves the queue
  (∀ (s : State) (src : RegFrom) (v : Word), s.atu.accepts src true 0x3800 v 0xF →
    Runs (.logMatcherEnable src v) s fun t => (wbit v 17 = true → s.atu.bit 0x3800 17 = false → t.atu.log.queue = [] ∧ t.atu.log.nextSeq = 0) ∧
      (wbit v 17 = false → s.atu.bit 0x3800 17 = true → t.atu.log.queue = s.atu.log.queue ∧ t.atu.bit 0x3800 17 = false))

/-- The commands of the ageing unit do what R219 to R249 say. Where these rules leave a point open, a clause follows the model's choice (log entries
41 to 43). -/
def Obligations.AgeingCommands : Prop :=
  -- AGE_MEASURE (R219): VALUE of every enabled site in a domain that is on
  (∀ (s : State) (vals : List (BitVec 16)), s.atu.bit 0x5000 0 = true → s.atu.inRun = true → s.atu.powerFailing = false → s.atu.bound.clkRun = true →
    s.atu.age.lastMeas + s.atu.fld 0x5000 31 16 ≤ s.atu.life →
    Runs (.ageMeasure vals) s fun t => t.atu.age.lastMeas = s.atu.life ∧
      ∀ k : Fin 32, s.atu.siteEnabled k.val = true → s.atu.pdomOn (s.atu.sitePdom k.val) = true → t.atu.siteValue k.val = (vals.getD k.val 0).toNat) ∧
  -- AGE_SITE_FAULT (R220)
  (∀ (s : State) (k : Fin 32), s.atu.siteEnabled k.val = true → s.atu.bit 0x5000 0 = true → s.atu.inRun = true → s.atu.powerFailing = false →
    s.atu.bound.clkRun = true →
    Runs (.ageSiteFault k) s fun t => t.atu.siteFaulty k.val = true ∧ t.atu.bit 0x5008 2 = true) ∧
  -- FIT_SAMPLE (R221): one more sample for every active site whose domain has margin level 0
  (∀ (s : State), s.atu.age.lastFit + 3600 * s.atu.fld 0x5000 15 8 ≤ s.atu.life → s.atu.fitAllowed = true →
    Runs .fitSample s fun t => t.atu.age.lastFit = s.atu.life ∧
      ∀ k : Fin 32, s.atu.siteActive k.val = true → s.atu.marginLevel (s.atu.sitePdom k.val) = 0 →
        t.atu.fld (siteBase k.val + 0x14) 19 0 = (s.atu.fld (siteBase k.val + 0x14) 19 0 + 1) % 2 ^ 20) ∧
  -- LIFE_SECONDS_WRITE (R224): without an event recorder the host seeds LIFE_SECONDS
  (∀ (s : State) (v : Word), s.atu.accepts .host true 0x6008 v 0xF → s.atu.hasEvr = false →
    Runs (.lifeSecondsWrite v) s fun t => t.atu.life = v.toNat ∧ t.atu.evr.lifeSet = true) ∧
  -- LIFE_SECOND_TICK (R249): LIFE_SECONDS counts up and saturates
  (∀ (s : State), Runs .lifeSecondTick s fun t => t.atu.life = if s.atu.life = 0xFFFFFFFF then 0xFFFFFFFF else s.atu.life + 1) ∧
  -- RECOAT_CYCLE (R227): every site counts the cycles in a row above GUARD_HIGH
  (∀ (s : State), s.atu.fld 0x5004 15 0 ≠ 0 → s.atu.inRun = true → s.atu.bound.clkRun = true →
    s.atu.age.lastRecoat + s.atu.fld 0x5004 15 0 ≤ s.atu.life →
    Runs .recoatCycle s fun t => t.atu.age.lastRecoat = s.atu.life ∧
      ∀ k : Fin 32, (t.atu.age.sites[k]).highRun =
        if s.atu.siteActive k.val = true ∧ s.atu.siteHigh k.val = true then min 3 ((s.atu.age.sites[k]).highRun + 1) else 0)

/-- The commands of the sanding unit do what R230 to R241 say. Where these rules leave a point open, a clause follows the model's choice (log entry
44). -/
def Obligations.SandingCommands : Prop :=
  -- SAND_DUE (R231, R235) and SAND_RETEST (R240): a core whose request stands asks for a test while none runs
  (∀ (s : State) (n : Fin 16), s.atu.bound.clkRun = true → s.atu.sandBusy = false → s.atu.sandWants n = true →
    Runs (.sandDue n) s (fun t => (t.atu.sand[n]).req = true) ∧ Runs (.sandRetest n) s (fun t => (t.atu.sand[n]).req = true)) ∧
  -- SAND_GRANT (R231, R232): the lowest requested core of those granted is tested
  (∀ (s : State) (mask : BitVec 16) (n : Fin 16), s.atu.bound.clkRun = true → s.atu.sandBusy = false →
    (List.finRange 16).find? (fun m => mask.toNat.testBit m.val && (s.atu.sand[m]).req) = some n →
    Runs (.sandGrant mask) s fun t => (t.atu.sand[n]).run = true ∧ (t.atu.sand[n]).gnt = true ∧ (t.atu.sand[n]).runSince = s.atu.time.elapsed) ∧
  -- SAND_DONE (R231, R235): a pass sets LAST_PASS and the next due time
  (∀ (s : State) (n : Fin 16), s.atu.bound.clkRun = true → (s.atu.sand[n]).run = true →
    Runs (.sandDone n true) s fun t => (t.atu.sand[n]).run = false ∧ (t.atu.sand[n]).lastPass = some s.atu.life ∧
      (t.atu.sand[n]).dueSec = s.atu.life + s.atu.sandInterval ∧ (t.atu.sand[n]).passes = ((s.atu.sand[n]).passes + 1) % 2 ^ 32) ∧
  -- and a failure is tested again RETEST_S later; a retest that fails makes the core FAILED (R240)
  (∀ (s : State) (n : Fin 16), s.atu.bound.clkRun = true → (s.atu.sand[n]).run = true →
    Runs (.sandDone n false) s fun t => (t.atu.sand[n]).run = false ∧
      ((s.atu.sand[n]).retest = false → (t.atu.sand[n]).retestAt = some (s.atu.life + s.atu.fld 0x5A0C 31 20)) ∧
      ((s.atu.sand[n]).retest = true → (t.atu.sand[n]).failed = true)) ∧
  -- SAND_GRANT_WITHDRAW (R233): the test is aborted and asked for again 100 ms later
  (∀ (s : State) (n : Fin 16), s.atu.bound.clkRun = true → (s.atu.sand[n]).run = true →
    Runs (.sandGrantWithdraw n) s fun t => (t.atu.sand[n]).run = false ∧ (t.atu.sand[n]).againAt = some (s.atu.time.elapsed + 100000000) ∧
      (t.atu.sand[n]).aborts = min 0xFFFF ((s.atu.sand[n]).aborts + 1) ∧ t.atu.bit 0x5A10 3 = true) ∧
  -- SAND_REREQUEST (R233)
  (∀ (s : State) (n : Fin 16) (h : Nat), s.atu.bound.clkRun = true → (s.atu.sand[n]).againAt = some h → h ≤ s.atu.time.elapsed →
    Runs (.sandRerequest n) s fun t => (t.atu.sand[n]).againAt = none) ∧
  -- SAND_TIMEOUT (R234)
  (∀ (s : State) (n : Fin 16), s.atu.bound.clkRun = true → (s.atu.sand[n]).run = true →
    (s.atu.sand[n]).runSince + 1000 * s.atu.fld 0x5A0C 19 0 ≤ s.atu.time.elapsed →
    Runs (.sandTimeout n) s fun t => (t.atu.sand[n]).run = false ∧ ((s.atu.sand[n]).retest = true → (t.atu.sand[n]).failed = true) ∧
      ((s.atu.sand[n]).retest = false → (t.atu.sand[n]).retestAt = some (s.atu.life + s.atu.fld 0x5A0C 31 20))) ∧
  -- SAND_SOFT_DEADLINE (R236): TEST_URGENT
  (∀ (s : State) (n : Fin 16), s.atu.bound.clkRun = true → s.atu.inRun = true → s.atu.sandEnabled n.val = true →
    (s.atu.sand[n]).softSeen = false →
    (s.atu.sand[n]).dueSec + s.atu.sandSoft ≤ s.atu.life →
    Runs (.sandSoftDeadline n) s fun t => (t.atu.sand[n]).urgent = true ∧ t.atu.bit 0x5A10 0 = true) ∧
  -- SAND_HARD_DEADLINE (R237): UNTESTED from the stroke at or after the deadline
  (∀ (s : State) (n : Fin 16), s.atu.atStroke = true → s.atu.sandUntestedNow n = true →
    Runs (.sandHardDeadline n) s fun t => (t.atu.sand[n]).untested = true ∧ ((s.atu.sand[n]).untested = false → t.atu.bit 0x5A10 1 = true)) ∧
  -- SAND_CFG_WRITE (R235, R239): ENABLE_MASK; a core without a pass that is enabled now is due now
  (∀ (s : State) (src : RegFrom) (v : Word), s.atu.accepts src true 0x5A00 v 0xF →
    Runs (.sandCfgWrite src v) s fun t => t.atu.fld 0x5A00 15 0 = wfld v 15 0 ∧
      ∀ n : Fin 16, wbit v n.val = true → s.atu.bit 0x5A00 n.val = false → (s.atu.sand[n]).lastPass = none → (t.atu.sand[n]).dueSec = s.atu.life) ∧
  -- SAND_TIMING_WRITE (R235): every due time is computed anew
  (∀ (s : State) (src : RegFrom) (deadlines : Bool) (v : Word), s.atu.accepts src true (if deadlines then 0x5A08 else 0x5A04) v 0xF →
    Runs (.sandTimingWrite src deadlines v) s fun t => t.atu.reg (if deadlines then 0x5A08 else 0x5A04) = v ∧
      ∀ n : Fin 16, (t.atu.sand[n]).dueSec = match (s.atu.sand[n]).lastPass with
        | some p => p + t.atu.sandInterval
        | none => (s.atu.sand[n]).enabledAt) ∧
  -- SAND_RUN_NOW (R230) and SAND_CLEAR_FAILED (R241)
  (∀ (s : State) (src : RegFrom) (mask : BitVec 16), s.atu.accepts src true 0x5A14 (w32 mask.toNat) 0xF →
    Runs (.sandRunNow src mask) s fun t => ∀ n : Fin 16, mask.toNat.testBit n.val = true → (t.atu.sand[n]).dueSec ≤ s.atu.life) ∧
  (∀ (s : State) (src : RegFrom) (mask : BitVec 16), s.atu.accepts src true 0x5A14 (w32 (0x10000 * mask.toNat)) 0xF →
    Runs (.sandClearFailed src mask) s fun t => ∀ n : Fin 16, mask.toNat.testBit n.val = true → (t.atu.sand[n]).failed = false)

/-- The commands of the Safety Island do what R670 to R684 say. Where these rules leave a point open, a clause follows the model's choice (log
entries 57 to 61). -/
def Obligations.SafetyCommands : Prop :=
  -- SI_EVALUATE (R674, R680, R682): a fresh SAFE_IN input, the coolant pin, a temperature above TRIP_C or a switch that does not read back opens the loop
  (∀ (s : State) (t0 t1 : Int) (switches : Bool), s.agg.powered = true →
    Runs (.siEvaluate t0 t1 switches) s fun t => t.agg.si.coolSeen = false ∧
      ((∃ p, p < 64 ∧ (s.agg.watch p).fresh ≠ 0) ∨ s.agg.si.coolSeen = true ∨ s.agg.si.tripC < t0 ∨ s.agg.si.tripC < t1 ∨ switches = false →
        t.agg.si.energised = false)) ∧
  -- UNKNOWN_TIMEOUT (R679): with SAFE_MODE 1 the loop is released; with SAFE_MODE 0 UNKNOWN is set and it is not
  (∀ (s : State) (p : Fin 64) (since : Nat), s.agg.powered = true → (s.agg.watch p.val).traySince = some since → (s.agg.watch p.val).timedOut = false →
    since + 1000000 * s.agg.si.unknownMs ≤ s.agg.now →
    Runs (.unknownTimeout p) s fun t => (t.agg.watch p.val).timedOut = true ∧ (s.agg.ident.safeMode = true → t.agg.si.energised = false) ∧
      (s.agg.ident.safeMode = false → wbit (t.agg.reg 0xD0004) 1 = true ∧ t.agg.si.energised = s.agg.si.energised)) ∧
  -- SAFE_RETIRE (R677): a port that is DOWN and watched leaves the watch set, and RETIRED is set
  (∀ (s : State) (p : BitVec 6), s.agg.fwRuns = true → (s.agg.port p.toNat).link.state = .down → (s.agg.watch p.toNat).watched = true →
    Runs (.safeRetire p) s fun t => (t.agg.watch p.toNat).watched = false ∧ wbit (t.agg.reg 0xD0004) 9 = true) ∧
  -- SI_SELF_TEST (R682): every fault of the diagnostics releases the loop; a corrected memory error sets its flag
  (∀ (s : State) (memory config clock corrected : Bool) (t0 t1 : Int), s.agg.powered = true →
    Runs (.siSelfTest memory config clock corrected t0 t1) s fun t => (corrected = true → wbit (t.agg.reg 0xD0004) 4 = true) ∧
      (memory = true ∨ config = true ∨ clock = true ∨ 10 < (t0 - t1).natAbs → t.agg.si.energised = false)) ∧
  -- LOCKSTEP_MISMATCH and SI_RAIL_FAULT (R682)
  (∀ (s : State), s.agg.powered = true → Runs .lockstepMismatch s (fun t => t.agg.si.energised = false) ∧ Runs .siRailFault s (fun t => t.agg.si.energised = false)) ∧
  -- CP_HEARTBEAT (R683)
  (∀ (s : State), s.agg.boot.core = .fw → Runs .cpHeartbeat s fun t => t.agg.boot.heartbeat = some s.agg.now) ∧
  -- CORE_RESET (R683): 10 ms without a heartbeat; a second reset within 600 s holds the core
  (∀ (s : State) (h : Nat), s.agg.boot.core = .fw → s.agg.boot.heartbeat = some h → h + 10000000 ≤ s.agg.now →
    Runs .coreReset s fun t => t.agg.boot.core = (if s.agg.secondReset then .held else .primer) ∧ wbit (t.agg.reg 0xD0004) 5 = true ∧
      t.agg.si = s.agg.si)

/-- The commands of the gates, the credit and the receive buffers do what R330 to R357 say. Where these rules leave a point open, a clause follows
the model's choice (log entries 64 and 122). -/
def Obligations.TrafficCommands : Prop :=
  -- GATE_ENTRY_START (R330, R335): the entry in force follows the round, and AGG_GATE_STATUS shows it
  (∀ (s : State) (r : Nat) (c : TreeCfg), s.agg.fwRuns = true → s.agg.lastClose = some r → s.agg.skim.cfg = some c →
    Runs .gateEntryStart s fun t => t.agg.gates.closeHt = s.agg.closeOf c r ∧ wfld (t.agg.reg 0x40084) 7 4 = t.agg.gates.entry % 16) ∧
  -- GATE_COMMIT (R335): a good set is pending for a later round; a bad one is refused and changes no set
  (∀ (s : State), s.agg.fwRuns = true → gateSetBad s.agg.shadowSet = false →
    Runs .gateCommit s fun t => t.agg.gates.pending = some (s.agg.shadowSet, gateEpoch s.agg.ht) ∧ wbit (t.agg.reg 0x40084) 0 = true ∧
      wfld (t.agg.reg 0x40084) 15 8 = 0) ∧
  (∀ (s : State), s.agg.fwRuns = true → gateSetBad s.agg.shadowSet = true →
    Runs .gateCommit s fun t => t.agg.gates.pending = s.agg.gates.pending ∧ wbit (t.agg.reg 0x40088) 1 = true ∧
      wfld (t.agg.reg 0x40084) 15 8 = statusCode .badParam) ∧
  -- GATE_CANCEL (R335)
  (∀ (s : State), s.agg.fwRuns = true → Runs .gateCancel s fun t => t.agg.gates.pending = none ∧ wbit (t.agg.reg 0x40084) 0 = false) ∧
  -- TC2_EXPIRE (R336): no message of TC2 whose deadline has passed stays queued, but for the one whose first slot has left
  (∀ (s : State) (k : Fin 32), (expiredMsgs s.agg.ht ((s.agg.link k.val).txOf 2)).isEmpty = false → ((s.agg.link k.val).txOf 2).off = 0 →
    Runs (.tc2Expire k) s fun t => (∀ m ∈ ((t.agg.link k.val).txOf 2).queue, ∀ d, m.deadline = some d → s.agg.ht ≤ d) ∧ wbit (t.agg.reg 0x40088) 2 = true) ∧
  -- CREDIT_STALL (R357): reported once, with the link and the class
  (∀ (s : State) (k : Fin 32) (cls : Fin 8) (since : Nat), ((s.agg.link k.val).txOf cls.val).stalled = some since →
    ((s.agg.link k.val).txOf cls.val).reported = false → since + 100000 ≤ s.agg.now →
    Runs (.creditStall k cls) s fun t => ((t.agg.link k.val).txOf cls.val).reported = true ∧ wbit (t.agg.reg 0x40088) 3 = true ∧
      (t.agg.reg 0x4008C).toNat = k.val + 32 * cls.val) ∧
  -- SLOT_RELEASE (R353): the oldest slot held is given back; a message of TC5 or TC7 that is discarded, whole or in part, is counted
  (∀ (s : State) (k : Fin 32) (cls : Fin 8) (x : HeldSlot) (rest : List HeldSlot), ((s.agg.link k.val).rxOf cls.val).left = [] →
    ((s.agg.link k.val).rxOf cls.val).held = x :: rest → x.msg = none →
    Runs (.slotRelease k ⟨cls, false⟩) s fun t => ((t.agg.link k.val).rxOf cls.val).held = rest) ∧
  (∀ (s : State) (k : Fin 32) (cls : Fin 8) (x : HeldSlot) (rest : List HeldSlot), ((s.agg.link k.val).rxOf cls.val).left = [] →
    ((s.agg.link k.val).rxOf cls.val).held = x :: rest → x.last = true → x.msg.isSome = true → cls = 5 ∨ cls = 7 →
    Runs (.slotRelease k ⟨cls, true⟩) s fun t => ((t.agg.link k.val).rxOf cls.val).held = rest ∧
      ((t.agg.link k.val).rxOf cls.val).discards = ((s.agg.link k.val).rxOf cls.val).discards + 1) ∧
  (∀ (s : State) (k : Fin 32) (cls : Fin 8) (x : HeldSlot) (rest : List HeldSlot), ((s.agg.link k.val).rxOf cls.val).left = [] →
    ((s.agg.link k.val).rxOf cls.val).held = x :: rest → (x :: rest).all (fun y => !y.last && y.msg.isNone) = true →
    ((s.agg.link k.val).rxOf cls.val).part ≠ [] → cls = 5 ∨ cls = 7 →
    Runs (.slotRelease k ⟨cls, true⟩) s fun t => ((t.agg.link k.val).rxOf cls.val).held = rest ∧ ((t.agg.link k.val).rxOf cls.val).part = [] ∧
      ((t.agg.link k.val).rxOf cls.val).discards = ((s.agg.link k.val).rxOf cls.val).discards + 1) ∧
  -- RELEASE_LATE (R353)
  (∀ (s : State) (k : Fin 32) (cls : Fin 8) (x : HeldSlot) (rest : List HeldSlot), ((s.agg.link k.val).rxOf cls.val).held = x :: rest →
    ((s.agg.link k.val).rxOf cls.val).late = false → x.since + releaseBounds.getD cls.val 0 < s.agg.now →
    Runs (.releaseLate k cls) s fun t => ((t.agg.link k.val).rxOf cls.val).late = true ∧ wbit (t.agg.reg 0x40088) 4 = true)

/-- The commands of the aggregator's time plane do what R39 to R84 say. Where these rules leave a point open, a clause follows the model's choice
(log entries 66 to 72 and 113 to 118). -/
def Obligations.TimeCommands : Prop :=
  -- TOD_MESSAGE (R39): a good message waits for the next edge; one that fails its checks is reported
  (∀ (s : State) (m : List Byte), s.agg.onInputs = true →
    Runs (.todMessage m) s fun t => (todGood m = true → t.agg.time.tod = s.agg.time.tod ++ [(leAt m 8 8, s.agg.time.elapsed)]) ∧
      (todGood m = false → wbit (t.agg.reg 0x1000) 17 = true ∧ t.agg.time = s.agg.time)) ∧
  -- HT_PPS_EDGE (R41): the edge is taken, and the time of day that waited is judged
  (∀ (s : State), s.agg.onInputs = true → s.agg.time.ppsAt = none ∨ s.agg.time.ppsLost = true →
    Runs .htPpsEdge s fun t => t.agg.time.ppsAt = some s.agg.now ∧ t.agg.time.ppsLost = false ∧ t.agg.time.tod = []) ∧
  -- HT_PPS_LOSS (R42): no edge by 1.000001 s after the last
  (∀ (s : State) (p : Nat), s.agg.onInputs = true → s.agg.time.ppsAt = some p → s.agg.time.ppsLost = false → p + 1000001000 ≤ s.agg.now →
    Runs .htPpsLoss s fun t => t.agg.time.ppsLost = true ∧ (s.agg.time.state = .locked → t.agg.time.state = .holdover)) ∧
  -- HT_REF_LOSS (R43, R44)
  (∀ (s : State), s.agg.powered = true → s.agg.time.refLost = false →
    Runs .htRefLoss s fun t => t.agg.time.refLost = true ∧ (s.agg.onInputs = true → s.agg.time.state = .locked → t.agg.time.state = .holdover)) ∧
  -- ROOT_INPUTS_RETURN (R45)
  (∀ (s : State) (pps : Bool), s.agg.powered = true → Runs (.rootInputsReturn pps true) s fun t => t.agg.time.refLost = false) ∧
  -- TIME_EXCHANGE_START (R46): one request a millisecond to the parent
  (∀ (s : State) (alt : Bool) (k : Nat), s.agg.fwRuns = true → s.agg.parentLink alt = some k → s.agg.isRoot = false → (s.agg.link k).state = .up →
    (∀ n, (s.agg.time.parent alt).started = some n → n + 1000000 ≤ s.agg.ht) →
    Runs (.timeExchangeStart alt) s fun t => (t.agg.time.parent alt).waiting = true ∧ (t.agg.time.parent alt).started = some s.agg.ht ∧
      (t.agg.link k).timeDue = (s.agg.link k).timeDue ++ [.request (s.agg.time.parent alt).seq]) ∧
  -- TIME_EXCHANGE_REQUEST (R314): a parent answers with the instant of the request
  (∀ (s : State) (k : Fin 32) (m : List Byte), s.agg.linksLive = true → (s.agg.link k.val).state = .up → timeSlotGood m = true → leAt m 1 1 % 2 = 0 →
    Runs (.timeExchangeRequest k m) s fun t => (t.agg.link k.val).timeDue = (s.agg.link k.val).timeDue ++ [.reply (leAt m 2 2) s.agg.ht]) ∧
  -- TIME_EXCHANGE_REPLY (R47, R48): the exchange ends; the delay of the parent in use is measured, in quarters of a nanosecond
  (∀ (s : State) (k : Fin 32) (m : List Byte) (t1 : Nat), s.agg.linksLive = true → (s.agg.link k.val).state = .up → s.agg.parentLink false = some k.val →
    (s.agg.time.parent false).t1 = some t1 → (s.agg.time.parent false).waiting = true → s.agg.isRoot = false → timeSlotGood m = true →
    leAt m 1 1 % 2 = 1 → (leAt m 2 2 + 1) % 65536 = (s.agg.time.parent false).seq → leAt m 4 1 % 8 ≠ 0 → s.agg.time.useAlt = false →
    Runs (.timeExchangeReply k m) s fun t => (t.agg.time.parent false).waiting = false ∧ (t.agg.time.parent false).fails = 0 ∧
      t.agg.time.delayPs = ((((s.agg.stampHt : Int) - t1) - (4 * (leAt m 16 8 : Int) - 4 * (leAt m 8 8 : Int))) * 125).toNat) ∧
  -- TIME_EXCHANGE_FAIL (R315)
  (∀ (s : State) (alt : Bool), s.agg.fwRuns = true → s.agg.isRoot = false → (s.agg.time.parent alt).waiting = true →
    Runs (.timeExchangeFail alt) s fun t => (t.agg.time.parent alt).waiting = false ∧ (t.agg.time.parent alt).fails = (s.agg.time.parent alt).fails + 1) ∧
  -- PARTNER_HT_COMPARE (R53)
  (∀ (s : State) (theirs : BitVec 64), s.agg.linksLive = true → s.agg.partnerUp = true → 24 < ((theirs.toNat : Int) - (s.agg.ht : Int)).natAbs →
    Runs (.partnerHtCompare theirs) s fun t => wbit (t.agg.reg 0x1000) 20 = true) ∧
  -- PLUMB_BEAT_DUE (R56): once a millisecond, on every die port that is UP
  (∀ (s : State), s.agg.linksLive = true → (∀ m, s.agg.time.lastBeat = some m → m < s.agg.ht / 1000000) →
    s.agg.time.state = .locked ∨ s.agg.time.state = .holdover →
    Runs .plumbBeatDue s fun t => t.agg.time.lastBeat = some (s.agg.ht / 1000000) ∧
      ∀ p, p < 64 → (s.agg.port p).link.state = .up → (t.agg.port p).link.timeDue = some (1000000 * (s.agg.ht / 1000000))) ∧
  -- SET_TIME_SOURCE SELECT (R83): a source that changes is in force, and a change to FREE_RUN locks at once
  (∀ (s : State) (c : Caller) (source : BitVec 8) (force : Bool), s.agg.takes c → c.ring.val = 0 → source.toNat ≤ 2 →
    (source.toNat = 2 → s.agg.time.sched = none) →
    Runs (.setTimeSourceSelect c source force) s fun t => t.agg.Completed c 0x05 [] ∧ t.agg.time.source = source.toNat ∧
      (source.toNat = 2 → s.agg.time.source ≠ 2 → t.agg.time.state = .locked)) ∧
  -- SCHEDULE INIT and CHANGE (R71, R72)
  (∀ (s : State) (c : Caller) (epoch : BitVec 64) (period : BitVec 20), s.agg.takes c → c.ring.val = 0 → s.agg.isRoot = true →
    s.agg.time.state = .locked → s.agg.time.sched = none → epoch.toNat % 1000 = 0 → s.agg.ht + 20000000 ≤ epoch.toNat →
    50 ≤ period.toNat → period.toNat ≤ 1000000 →
    Runs (.scheduleInit c epoch period) s fun t => t.agg.Completed c 0x05 [] ∧ t.agg.time.sched = some ⟨0, epoch.toNat, period.toNat⟩) ∧
  (∀ (s : State) (c : Caller) (win : BitVec 48) (period : BitVec 20) (o : Sched), s.agg.takes c → c.ring.val = 0 → s.agg.isRoot = true →
    s.agg.time.sched = some o → s.agg.time.pending = none → o.anchorWin ≤ win.toNat → s.agg.ht + 20000000 ≤ schedHt o win.toNat →
    (∀ w, s.agg.roundWindows = some w → win.toNat % w = 0 ∧ 250 ≤ w * period.toNat) → 50 ≤ period.toNat → period.toNat ≤ 1000000 →
    Runs (.scheduleChange c win period) s fun t => t.agg.Completed c 0x05 [] ∧ t.agg.time.pending = some (win.toNat, period.toNat)) ∧
  -- LINK_ASYM and DIEPORT_ASYM (R49, R58)
  (∀ (s : State) (c : Caller) (k : BitVec 5) (ps : BitVec 32), s.agg.takes c → c.ring.val = 0 → k.toNat < s.agg.skimLinks →
    Runs (.linkAsym c k ps) s fun t => t.agg.Completed c 0x05 [] ∧ (t.agg.link k.toNat).asymPs = ps.toInt) ∧
  (∀ (s : State) (c : Caller) (p : BitVec 6) (ps : BitVec 32), s.agg.takes c → c.ring.val = 0 →
    Runs (.dieportAsym c p ps) s fun t => t.agg.Completed c 0x05 [] ∧ (t.agg.port p.toNat).asymPs = ps.toInt) ∧
  -- GET_TIME_STATUS (R84): of the module at once; of a die by register reads on its port
  (∀ (s : State) (c : Caller), s.agg.takes c → Runs (.getTimeStatus c 0xFF) s fun t => t.agg.Completed c 0x06 s.agg.timeResults) ∧
  (∀ (s : State) (c : Caller) (target : BitVec 8), s.agg.takes c → target.toNat < 64 → s.agg.portUp target.toNat = true → s.agg.boot.ready = true →
    Runs (.getTimeStatus c target) s fun t => t.agg.Started s.agg c 0x06 target.toNat .timeStatus
      [rd 0x0100, rd 0x0104, rd 0x0108, rd 0x010C, rd 0x0114, rd 0x0118, rd 0x0120, rd 0x0124, rd 0x0128, rd 0x012C, rd 0x0130, rd 0x0138, rd 0x013C])

/-- The commands of the die ports do what R293 to R310 say, at either end; those that skim links share, at theirs too. Where these rules leave a
point open, a clause follows the model's choice (log entries 50 to 56 and 111). -/
def Obligations.DiePortCommands : Prop :=
  -- DIE_PORT_FLIT_SEND of an ATU (R294, R302): SAFETY first; then the replay; then DATA, register responses before all else
  (∀ (s : State) (p : PortId), (s.atu.port p).state = .up → (s.atu.port p).safetyDue = true →
    Runs (.diePortFlitSend (.atu p)) s fun t => (t.atu.port p).safetyDue = false ∧ (t.atu.port p).safetySeq = ((s.atu.port p).safetySeq + 1) % 65536) ∧
  (∀ (s : State) (p : PortId) (m : List Byte) (rest : List (Nat × List Byte)), (s.atu.port p).state = .up → (s.atu.port p).safetyDue = false →
    s.atu.bound.clkRun = true → (s.atu.port p).retry.replayLeft = 0 → (s.atu.port p).retry.held.length < 128 → (s.atu.port p).current = [] →
    (s.atu.port p).waiting = (4, m) :: rest →
    Runs (.diePortFlitSend (.atu p)) s fun t => (t.atu.port p).retry.held = (s.atu.port p).retry.held ++
        [⟨(s.atu.port p).retry.nextSeq, 4, true, (m.drop 116).isEmpty, m.take 116, s.atu.time.elapsed⟩] ∧ (t.atu.port p).waiting = rest) ∧
  -- DIE_PORT_FLIT_SEND of the aggregator (R304): the reset sequence; a LOOPBACK flit in CALIBRATE; the plumb beat; DATA
  (∀ (s : State) (p : Fin 64), (s.agg.port p.val).oob = true →
    Runs (.diePortFlitSend (.agg p)) s fun t => (t.agg.port p.val).oob = false ∧ (t.agg.port p.val).link.lastTx = some resetSequence) ∧
  (∀ (s : State) (p : Fin 64) (due : Nat), (s.agg.port p.val).oob = false → (s.agg.port p.val).link.state = .up → (s.agg.port p.val).link.timeDue = some due →
    Runs (.diePortFlitSend (.agg p)) s fun t => (t.agg.port p.val).link.timeDue = none ∧
      (t.agg.port p.val).link.beatSeq = ((s.agg.port p.val).link.beatSeq + 1) % 65536) ∧
  -- DIE_PORT_FLIT_RECEIVE (R293, R297): a flit whose CRC fails raises CRC_ERR at either end
  (∀ (s : State) (p : PortId) (f : List Byte) (cfg : Option ChanCfg), (s.atu.port p).state ≠ .down → flitGood f = false →
    Runs (.diePortFlitReceive (.atu p) f cfg) s fun t => wbit (t.atu.reg (portBase p)) 9 = true) ∧
  (∀ (s : State) (p : Fin 64) (f : List Byte) (cfg : Option ChanCfg), (s.agg.port p.val).link.state ≠ .down → flitGood f = false →
    Runs (.diePortFlitReceive (.agg p) f cfg) s fun t => wbit (t.agg.reg (dportBase p.val)) 9 = true) ∧
  -- and a good IDLE flit restarts the 2 µs of R305
  (∀ (s : State) (p : PortId) (f : List Byte) (cfg : Option ChanCfg), (s.atu.port p).state ≠ .down → flitGood f = true → flitType f = 0 →
    (leAt f 4 2).testBit 13 = false →
    Runs (.diePortFlitReceive (.atu p) f cfg) s fun t => (t.atu.port p).lastGood = s.atu.time.elapsed) ∧
  -- RETRY_TIMEOUT (R297, R298): every held flit is sent again, or after 8 replays the link goes DOWN
  (∀ (s : State) (p : PortId), (s.atu.port p).state = .up → (s.atu.port p).retry.timedOut s.atu.time.elapsed = true →
    Runs (.retryTimeout (.atu p)) s fun t => ((s.atu.port p).retry.replays < 8 → (t.atu.port p).retry.replayLeft = (s.atu.port p).retry.held.length) ∧
      (8 ≤ (s.atu.port p).retry.replays → (t.atu.port p).state = .down)) ∧
  (∀ (s : State) (p : Fin 64), (s.agg.port p.val).link.state = .up → (s.agg.port p.val).link.retry.timedOut s.agg.now = true →
    Runs (.retryTimeout (.agg p)) s fun t =>
      ((s.agg.port p.val).link.retry.replays < 8 → (t.agg.port p.val).link.retry.replayLeft = (s.agg.port p.val).link.retry.held.length) ∧
      (8 ≤ (s.agg.port p.val).link.retry.replays → (t.agg.port p.val).link.state = .down)) ∧
  (∀ (s : State) (k : Fin 32), (s.agg.link k.val).state = .up → (s.agg.link k.val).retry.timedOut s.agg.now = true →
    Runs (.retryTimeout (.skim k)) s fun t => ((s.agg.link k.val).retry.replays < 8 → (t.agg.link k.val).retry.replayLeft = (s.agg.link k.val).retry.held.length) ∧
      (8 ≤ (s.agg.link k.val).retry.replays → (t.agg.link k.val).state = .down)) ∧
  -- LINK_IDLE_TIMEOUT (R305): 2 µs without a good flit
  (∀ (s : State) (p : PortId), (s.atu.port p).state = .up → (s.atu.port p).lastGood + 2000 ≤ s.atu.time.elapsed →
    Runs (.linkIdleTimeout (.atu p)) s fun t => (t.atu.port p).state = .down) ∧
  (∀ (s : State) (p : Fin 64), (s.agg.port p.val).link.state = .up → (s.agg.port p.val).link.lastGood + 2000 ≤ s.agg.now →
    Runs (.linkIdleTimeout (.agg p)) s fun t => (t.agg.port p.val).link.state = .down) ∧
  (∀ (s : State) (k : Fin 32), (s.agg.link k.val).state = .up → (s.agg.link k.val).lastGood + 2000 ≤ s.agg.now →
    Runs (.linkIdleTimeout (.skim k)) s fun t => (t.agg.link k.val).state = .down) ∧
  -- BLOCK_LOCK_LOSS (R305)
  (∀ (s : State) (p : PortId), (s.atu.port p).state = .up → Runs (.blockLockLoss (.atu p)) s fun t => (t.atu.port p).state = .down) ∧
  (∀ (s : State) (p : Fin 64), (s.agg.port p.val).link.state = .up → Runs (.blockLockLoss (.agg p)) s fun t => (t.agg.port p.val).link.state = .down) ∧
  (∀ (s : State) (k : Fin 32), (s.agg.link k.val).state = .up → Runs (.blockLockLoss (.skim k)) s fun t => (t.agg.link k.val).state = .down)

/-- The commands that train a link do what R304 and R305 say, and what a trained port learns and sends follows R302, R306 and R673. Where these
rules leave a point open, a clause follows the model's choice (log entries 50 to 52). -/
def Obligations.TrainingCommands : Prop :=
  -- TRAINING_START (R304)
  (∀ (s : State) (p : PortId), s.atu.bound.inReset = false → (p = .b → s.atu.hasPortB = true) → (s.atu.port p).state = .down →
    (∀ w, (s.atu.port p).training.idleUntil = some w → w ≤ s.atu.time.elapsed) →
    Runs (.trainingStart (.atu p)) s fun t => (t.atu.port p).state = .train) ∧
  (∀ (s : State) (p : Fin 64), s.agg.boot.linkOn = true → (s.agg.port p.val).link.state = .down →
    (∀ w, (s.agg.port p.val).link.training.idleUntil = some w → w ≤ s.agg.now) →
    Runs (.trainingStart (.agg p)) s fun t => (t.agg.port p.val).link.state = .train) ∧
  (∀ (s : State) (k : Fin 32), s.agg.boot.linkOn = true → k.val < s.agg.skimLinks → (s.agg.link k.val).state = .down →
    (∀ w, (s.agg.link k.val).training.idleUntil = some w → w ≤ s.agg.now) →
    Runs (.trainingStart (.skim k)) s fun t => (t.agg.link k.val).state = .train) ∧
  -- BLOCK_LOCK (R304 step 2): an ATU answers at once and is in CALIBRATE
  (∀ (s : State) (p : PortId), (s.atu.port p).state = .train → Runs (.blockLock (.atu p)) s fun t => (t.atu.port p).state = .calibrate) ∧
  (∀ (s : State) (p : Fin 64), (s.agg.port p.val).link.state = .train → Runs (.blockLock (.agg p)) s fun t => (t.agg.port p.val).link.training.blockLock = true) ∧
  (∀ (s : State) (k : Fin 32), (s.agg.link k.val).state = .train → Runs (.blockLock (.skim k)) s fun t => (t.agg.link k.val).training.blockLock = true) ∧
  -- PORT_IDENTITY (R304 steps 3 and 4)
  (∀ (s : State) (p : Fin 64) (caps ident die : Word), (s.agg.port p.val).link.state = .train → (s.agg.port p.val).link.training.idleGood = true →
    Runs (.portIdentity p caps ident die) s fun t => (t.agg.port p.val).link.state = .calibrate ∧ (t.agg.port p.val).caps = caps ∧
      (t.agg.port p.val).atuId = ident ∧ (t.agg.port p.val).learned = true) ∧
  -- LOOPBACK_MEASURE (R301, R304 step 5): the least of 64 round trips; the port is then UP
  (∀ (s : State) (p : Fin 64) (rtt : BitVec 32), (s.agg.port p.val).link.state = .calibrate → (s.agg.port p.val).link.training.loops < 63 →
    Runs (.loopbackMeasure p rtt) s fun t => (t.agg.port p.val).link.training.loops = (s.agg.port p.val).link.training.loops + 1 ∧
      ((s.agg.port p.val).link.training.loops ≠ 0 →
        (t.agg.port p.val).link.training.loopMin = min (rtt.toNat / 250 * 250) (s.agg.port p.val).link.training.loopMin)) ∧
  (∀ (s : State) (p : Fin 64) (rtt : BitVec 32), (s.agg.port p.val).link.state = .calibrate → (s.agg.port p.val).link.training.loops = 63 →
    Runs (.loopbackMeasure p rtt) s fun t => (t.agg.port p.val).link.state = .up) ∧
  -- TRAINING_FAIL (R305)
  (∀ (s : State) (p : PortId) (b : Nat), (s.atu.port p).state = .train → (s.atu.port p).training.startedAt = some b → b + 2000000 ≤ s.atu.time.elapsed →
    Runs (.trainingFail (.atu p)) s fun t => (t.atu.port p).state = .down ∧ (t.atu.port p).training.failures = (s.atu.port p).training.failures + 1) ∧
  (∀ (s : State) (p : Fin 64) (b : Nat), (s.agg.port p.val).link.state = .train → (s.agg.port p.val).link.training.startedAt = some b → b + 2000000 ≤ s.agg.now →
    Runs (.trainingFail (.agg p)) s fun t => (t.agg.port p.val).link.state = .down ∧
      (t.agg.port p.val).link.training.failures = (s.agg.port p.val).link.training.failures + 1) ∧
  (∀ (s : State) (k : Fin 32) (b : Nat), (s.agg.link k.val).state = .train → (s.agg.link k.val).training.startedAt = some b → b + 20000000 ≤ s.agg.now →
    Runs (.trainingFail (.skim k)) s fun t => (t.agg.link k.val).state = .down ∧ (t.agg.link k.val).training.failures = (s.agg.link k.val).training.failures + 1) ∧
  -- TRAINING_WAIT_END (R305)
  (∀ (s : State) (p : PortId) (w : Nat), (s.atu.port p).state = .down → (s.atu.port p).training.idleUntil = some w → w ≤ s.atu.time.elapsed →
    Runs (.trainingWaitEnd (.atu p)) s fun t => (t.atu.port p).training.idleUntil = none) ∧
  (∀ (s : State) (p : Fin 64) (w : Nat), (s.agg.port p.val).link.state = .down → (s.agg.port p.val).link.training.idleUntil = some w → w ≤ s.agg.now →
    Runs (.trainingWaitEnd (.agg p)) s fun t => (t.agg.port p.val).link.training.idleUntil = none) ∧
  (∀ (s : State) (k : Fin 32) (w : Nat), (s.agg.link k.val).state = .down → (s.agg.link k.val).training.idleUntil = some w → w ≤ s.agg.now →
    Runs (.trainingWaitEnd (.skim k)) s fun t => (t.agg.link k.val).training.idleUntil = none) ∧
  -- SAFETY_FLIT_RECEIVE and SAFETY_BEAT_MISS (R302, R303)
  (∀ (s : State) (p : Fin 64) (m : List Byte), s.agg.powered = true → s.agg.portUp p.val = true → m.length = 16 → leAt m 0 2 = 0x015E →
    leAt m 12 4 = crcOf crc32c (m.take 12) → leAt m 8 4 = s.agg.dieOn p.val →
    Runs (.safetyFlitReceive p m) s fun t => (t.agg.port p.val).safeAt = s.agg.now ∧ (t.agg.port p.val).safeSeq = leAt m 2 2 ∧
      (t.agg.port p.val).safeNow = leAt m 4 1 ∧ (t.agg.port p.val).safeState = leAt m 6 1) ∧
  (∀ (s : State) (p : Fin 64), s.agg.powered = true → (s.agg.port p.val).safeAt + 110000 ≤ s.agg.now →
    Runs (.safetyBeatMiss p) s fun t => (t.agg.port p.val).safeAt = (s.agg.port p.val).safeAt + 100000 ∧ wbit (t.agg.reg (dportBase p.val)) 11 = true)

/-- The commands of the skim links do what R311 to R321, R678 and R685 say. Where these rules leave a point open, a clause follows the model's
choice (log entries 61 to 63, 112 and 133). -/
def Obligations.SkimLinkCommands : Prop :=
  -- SKIM_CODEWORD_RECEIVE (R311, R312): an uncorrectable codeword is counted, and takes the place of one that was due on its lane
  (∀ (s : State) (k : Fin 32) (lane : Fin 2) (corrected : BitVec 16), (s.agg.link k.val).state = .up → (s.agg.link k.val).laneMask.testBit lane.val = true →
    (s.agg.link k.val).deskew = [] →
    Runs (.skimCodewordReceive k lane corrected none) s fun t => wbit (t.agg.reg (sklinkBase k.val)) 11 = true ∧
      (t.agg.link k.val).rxCodeword = if (s.agg.link k.val).rxLane = lane.val then ((s.agg.link k.val).rxCodeword + 1) % 65536 else (s.agg.link k.val).rxCodeword) ∧
  -- and one that is ahead of the codeword due waits for it
  (∀ (s : State) (k : Fin 32) (lane : Fin 2) (corrected : BitVec 16) (f : List Byte) (n : Nat), (s.agg.link k.val).state = .up →
    (s.agg.link k.val).laneMask.testBit lane.val = true → (s.agg.link k.val).deskew = [] → (s.agg.link k.val).rxCodeword < n → n < 65536 →
    n < (s.agg.link k.val).rxCodeword + 32768 →
    Runs (.skimCodewordReceive k lane corrected (some (f, n))) s fun t => (t.agg.link k.val).deskew = [(n, f, s.agg.now)] ∧
      (t.agg.link k.val).rxCodeword = (s.agg.link k.val).rxCodeword) ∧
  -- SKIM_FLIT_BUILD (R316, R328): a SAFETY flit goes before all else
  (∀ (s : State) (k : Fin 32) (w : List Byte), (s.agg.link k.val).state = .up → (s.agg.link k.val).safetyDue = some w → (s.agg.link k.val).laneChange = none →
    Runs (.skimFlitBuild k) s fun t => (t.agg.link k.val).safetyDue = none ∧
      (t.agg.link k.val).lastTx = some (skimFlit 3 0 0 (s.agg.link k.val).retry.ackField (s.agg.link k.val).creditField [] w) ∧
      (t.agg.link k.val).codeword = ((s.agg.link k.val).codeword + 1) % 65536) ∧
  -- and a replay before new DATA (R297, R328)
  (∀ (s : State) (k : Fin 32), (s.agg.link k.val).state = .up → (s.agg.link k.val).safetyDue = none → (s.agg.link k.val).timeDue = [] →
    (s.agg.link k.val).retry.replayLeft ≠ 0 → (s.agg.link k.val).laneChange = none →
    Runs (.skimFlitBuild k) s fun t => (t.agg.reg (sklinkBase k.val + 0x24)).toNat = ((s.agg.reg (sklinkBase k.val + 0x24)).toNat + 1) % 2 ^ 32) ∧
  -- SKIM_FLIT_RECEIVE (R312, R313, R344): a good IDLE flit brings the credit of every class; one whose CRC fails is counted
  (∀ (s : State) (k : Fin 32) (f : List Byte), s.agg.linksLive = true → (s.agg.link k.val).state = .up → skimFlitGood f = true →
    (leAt f 4 2).testBit 13 = false → leAt f 0 1 % 16 = 0 →
    Runs (.skimFlitReceive k f) s fun t => (t.agg.link k.val).lastGood = s.agg.now ∧
      ∀ c : Fin 8, (t.agg.link k.val).tx[c].granted = leAt f (8 + 2 * c.val) 2) ∧
  (∀ (s : State) (k : Fin 32) (f : List Byte), (s.agg.link k.val).state = .up → skimFlitGood f = false →
    Runs (.skimFlitReceive k f) s fun t => t.agg.reg (sklinkBase k.val + 0x20) = s.agg.reg (sklinkBase k.val + 0x20) + 1) ∧
  -- SKIM_LINK_TRAIN (R317): the link records its peer; it measures in CALIBRATE, and after 64 round trips enters UP on the lanes that trained
  (∀ (s : State) (k : Fin 32) (lanes : BitVec 2) (tray : BitVec 12) (role : Fin 2) (peer : Fin 32) (variant : BitVec 4) (trips : BitVec 8)
    (asym0 asym1 : Word), k.val < s.agg.skimLinks → (s.agg.link k.val).state = .train ∨ (s.agg.link k.val).state = .calibrate → lanes ≠ 0 →
    trips.toNat < 64 →
    Runs (.skimLinkTrain k ⟨lanes, trips⟩ tray role peer variant asym0 asym1) s fun t => (t.agg.link k.val).state = .calibrate ∧
      t.agg.reg (sklinkBase k.val + 0x04) = BitVec.ofNat 32 (tray.toNat + 0x1000 * role.val + 0x2000 * peer.val)) ∧
  (∀ (s : State) (k : Fin 32) (lanes : BitVec 2) (tray : BitVec 12) (role : Fin 2) (peer : Fin 32) (variant : BitVec 4) (trips : BitVec 8)
    (asym0 asym1 : Word), k.val < s.agg.skimLinks → (s.agg.link k.val).state = .train ∨ (s.agg.link k.val).state = .calibrate → lanes ≠ 0 →
    64 ≤ trips.toNat →
    Runs (.skimLinkTrain k ⟨lanes, trips⟩ tray role peer variant asym0 asym1) s fun t => (t.agg.link k.val).state = .up ∧
      (∀ j : Fin 2, (t.agg.link k.val).lanes[j].state.isActive = lanes.toNat.testBit j.val) ∧
      t.agg.reg (sklinkBase k.val + 0x04) = BitVec.ofNat 32 (tray.toNat + 0x1000 * role.val + 0x2000 * peer.val)) ∧
  -- LANE_REMOVE (R318): both ends are told the codeword from which the other lane alone is active; the last lane takes the link DOWN
  (∀ (s : State) (k : Fin 32) (lane : Fin 2) (unc corr symbols : BitVec 32) (lost : Bool) (at_ : BitVec 16), (s.agg.link k.val).state = .up →
    laneBad unc.toNat corr.toNat symbols.toNat lost = true → (s.agg.link k.val).laneMask = 3 →
    Runs (.laneRemove k lane unc corr symbols lost at_) s fun t => (t.agg.link k.val).changeDue = some (at_.toNat, 3 - 2 ^ lane.val) ∧
      (t.agg.link k.val).laneChange = some (at_.toNat, 3 - 2 ^ lane.val)) ∧
  (∀ (s : State) (k : Fin 32) (lane : Fin 2) (unc corr symbols : BitVec 32) (lost : Bool) (at_ : BitVec 16), (s.agg.link k.val).state = .up →
    laneBad unc.toNat corr.toNat symbols.toNat lost = true → (s.agg.link k.val).laneMask = 2 ^ lane.val →
    Runs (.laneRemove k lane unc corr symbols lost at_) s fun t => (t.agg.link k.val).state = .down) ∧
  -- LANE_CHANGE (R318, R319): the lanes named are active from the codeword named
  (∀ (s : State) (k : Fin 32) (at_ : BitVec 16) (mask : BitVec 2), (s.agg.link k.val).state = .up → mask ≠ 0 → (s.agg.link k.val).codeword = at_.toNat →
    (s.agg.link k.val).retry.replays < 8 →
    Runs (.laneChange k at_ mask) s fun t => (t.agg.link k.val).laneChange = none ∧
      ∀ j : Fin 2, (t.agg.link k.val).lanes[j].state.isActive = mask.toNat.testBit j.val) ∧
  (∀ (s : State) (k : Fin 32) (at_ : BitVec 16) (mask : BitVec 2), (s.agg.link k.val).state = .up → (s.agg.link k.val).codeword ≠ at_.toNat →
    Runs (.laneChange k at_ mask) s fun t => (t.agg.link k.val).laneChange = some (at_.toNat, mask.toNat) ∧ (t.agg.link k.val).lanes = (s.agg.link k.val).lanes) ∧
  -- LANE_HOLDOFF_END, LANE_LOCKOUT_END, LANE_SOAK_END (R319, R320)
  (∀ (s : State) (k : Fin 32) (lane : Fin 2) (e : Nat), (s.agg.link k.val).lanes[lane].state = .holdoff e → e ≤ s.agg.now →
    Runs (.laneHoldoffEnd k lane) s fun t => (t.agg.link k.val).lanes[lane].state = .soak s.agg.now) ∧
  (∀ (s : State) (k : Fin 32) (lane : Fin 2) (e : Nat), (s.agg.link k.val).lanes[lane].state = .lockout e → e ≤ s.agg.now →
    Runs (.laneLockoutEnd k lane) s fun t => (t.agg.link k.val).lanes[lane].state = .soak s.agg.now ∧ (t.agg.link k.val).lanes[lane].chain = 0) ∧
  (∀ (s : State) (k : Fin 32) (lane : Fin 2) (b : Nat) (unc corr symbols : BitVec 32) (at_ : BitVec 16), (s.agg.link k.val).lanes[lane].state = .soak b →
    b + 1000000000 ≤ s.agg.now →
    Runs (.laneSoakEnd k lane unc corr symbols at_) s fun t =>
      (unc = 0 → 300 * corr.toNat ≤ symbols.toNat →
        (t.agg.link k.val).laneChange = some (at_.toNat, (s.agg.link k.val).laneMask ||| 2 ^ lane.val)) ∧
      (unc ≠ 0 → (t.agg.link k.val).lanes[lane].state = .holdoff (s.agg.now + holdOff (s.agg.link k.val).lanes[lane].chain))) ∧
  -- SKIM_SAFETY_SEND (R316): 100 microseconds after the last, on every link in UP
  (∀ (s : State) (k : Fin 32), (s.agg.link k.val).state = .up → (s.agg.link k.val).safetyAt + 100000 ≤ s.agg.now →
    Runs .skimSafetySend s fun t => (t.agg.link k.val).safetyDue.isSome = true ∧ (t.agg.link k.val).safetyAt = s.agg.now ∧
      (t.agg.link k.val).safetySeq = ((s.agg.link k.val).safetySeq + 1) % 65536) ∧
  -- SKIM_SAFETY_RECEIVE (R316, R678): the partner's unknowns, alarms and watch set
  (∀ (s : State) (k : Fin 32) (m : List Byte), (s.agg.link k.val).state = .up → leAt m 0 2 = 0x015F → leAt m 10 4 = crcOf crc32c (m.take 10) →
    s.agg.partnerMembers.contains k.val = true → leAt m 4 2 % 8192 = s.agg.ident.trayId % 4096 + 4096 * (1 - s.agg.ident.role) → leAt m 6 4 % 2 = 1 →
    leAt (m.drop 64) 24 4 = crcOf crc32c (padTo 24 (m.drop 64)) →
    Runs (.skimSafetyReceive k m) s fun t => (t.agg.link k.val).safeAt = s.agg.now ∧ (t.agg.link k.val).safeMiss = 0 ∧ t.agg.si.pSiOk = true ∧
      t.agg.si.pUnknown = leAt (m.drop 64) 0 8 ∧ t.agg.si.pAlarm = leAt (m.drop 64) 8 8 ∧ t.agg.si.pWatch = leAt (m.drop 64) 16 8) ∧
  -- SKIM_SAFETY_MISS (R685)
  (∀ (s : State) (k : Fin 32), (s.agg.link k.val).state = .up → (s.agg.link k.val).safeAt + 110000 ≤ s.agg.now →
    Runs (.skimSafetyMiss k) s fun t => (t.agg.link k.val).safeMiss = (s.agg.link k.val).safeMiss + 1 ∧
      (t.agg.link k.val).safeAt = (s.agg.link k.val).safeAt + 100000 ∧ wbit (t.agg.reg (sklinkBase k.val)) 13 = true)

/-- Register accesses do what R12, R80, R266 to R285, R295 and R309 say. Where these rules leave a point open, a clause follows the model's choice
(log entries 8, 47 and 134). -/
def Obligations.RegisterCommands : Prop :=
  -- REGISTER_WRITE (R12): RW fields of ATU_STROKE_OUT take the value
  (∀ (s : State) (v same : Word), s.atu.accepts .host true 0x0050 v 0xF →
    Runs (.registerWrite (.atu .host) 0x0050 v ⟨0xF, same⟩) s fun t => t.atu.fld 0x0050 31 16 = wfld v 31 16 ∧ t.atu.bit 0x0050 0 = wbit v 0 ∧
      t.atu.bound.answer.code = .ok) ∧
  -- W1C flags of ATU_SNAP_STATUS are cleared by ones, kept by zeros, and kept where hardware sets them in the same cycle (R12, R15)
  (∀ (s : State) (v same : Word), s.atu.accepts .host true 0x0400 v 0xF →
    Runs (.registerWrite (.atu .host) 0x0400 v ⟨0xF, same⟩) s fun t =>
      ∀ k, k < 5 → t.atu.bit 0x0400 k = (s.atu.bit 0x0400 k && (!wbit v k || wbit same k))) ∧
  -- before ATU_READY an access is answered with BUSY_RETRY (R266); out of reset it is logged as refused (R284); but for that and the event
  -- recorder's ring nothing changes
  (∀ (s : State) (off : BitVec 32) (v same : Word) (strb : BitVec 4), s.atu.bound.clkRun = true → s.atu.bound.ready = false →
    Runs (.registerWrite (.atu .host) off v ⟨strb, same⟩) s fun t => t.atu.bound = { s.atu.bound with answer := ⟨.busyRetry, 0⟩, refusal := t.atu.bound.refusal } ∧
      (s.atu.bound.inReset = false → t.atu.bit 0x0030 0 = true) ∧
      ∀ p : AtuPart, p ∉ [AtuPart.bound, AtuPart.evr] → p.same s.atu t.atu) ∧
  -- in the aggregator (R12): AGG_STN_SAND takes its RW fields, and AGG_SI_STATUS loses the flags written with ones
  (∀ (s : State) (v same : Word) (r : RegRow), s.agg.fwRuns = true → aggRow 0x60020 = some r →
    Runs (.registerWrite .agg 0x60020 v ⟨0xF, same⟩) s fun t => t.agg.reg 0x60020 = r.merge (s.agg.reg 0x60020) v) ∧
  (∀ (s : State) (v same : Word), s.agg.fwRuns = true →
    Runs (.registerWrite .agg 0xD0004 v ⟨0xF, same⟩) s fun t =>
      ∀ k, k < 10 → wbit (t.agg.reg 0xD0004) k = (wbit (s.agg.reg 0xD0004) k && (!wbit v k || wbit same k))) ∧
  -- LATCHED_READ (R80): reading the LO half of HT latches its HI half
  (∀ (s : State), s.atu.accepts .host false 0x0100 0 0xF →
    Runs (.latchedRead (.atu .host) ⟨0x0100, 0xF⟩) s fun t => t.atu.reg 0x0104 = w32 (s.atu.time.ht / 2 ^ 32) ∧ t.atu.bound.answer.code = .ok) ∧
  (∀ (s : State) (strb : BitVec 4), s.agg.fwRuns = true →
    Runs (.latchedRead .agg ⟨0x1008, strb⟩) s fun t => t.agg.reg (latchKey 0x1008) = BitVec.ofNat 32 (s.agg.wide 0x1008 / 2 ^ 32)) ∧
  -- ATU_RESET_CTL_WRITE (R268): the key asserts the main reset, and RESET_CAUSE names it
  (∀ (s : State) (src : RegFrom) (v : Word), s.atu.accepts src true 0x0010 v 0xF →
    Runs (.atuResetCtlWrite src v) s fun t => t.atu.bound.inReset = true ∧ t.atu.time.state = .unset ∧ t.atu.reg 0x0014 = 8) ∧
  -- ATU_OWNER_WRITE (R282)
  (∀ (s : State) (v : Word), s.atu.accepts .host true 0x000C v 0xF →
    Runs (.atuOwnerWrite v) s fun t => t.atu.fld 0x000C 15 0 = wfld v 15 0) ∧
  -- REGISTER_REQUEST (R295): a read is answered with the word, at once, on the port it came by
  (∀ (s : State) (p : PortId) (m : List Byte), s.atu.accepts (.port p (BitVec.ofNat 16 (leAt m 0 2))) false (leAt m 4 2) (w32 (leAt m 8 4)) 0xF →
    (s.atu.port p).state = .up → m.length = 12 → (leAt m 2 1).testBit 0 = false →
    Runs (.registerRequest p m) s fun t => (t.atu.port p).waiting =
      (s.atu.port p).waiting ++ [(4, regResponse (leAt m 0 2) ⟨.ok, s.atu.readWord .agg (leAt m 4 2)⟩ false)]) ∧
  -- while the ATU is in reset it is discarded (R266)
  (∀ (s : State) (p : PortId) (m : List Byte), s.atu.bound.inReset = true → Runs (.registerRequest p m) s fun t => t.atu = s.atu) ∧
  -- REGISTER_RESPONSE (R556): a word that was read joins the sequence that asked for it; a refusal ends a command's writes
  (∀ (s : State) (p : Fin 64) (m : List Byte) (j : RegJob) (o : RegOp), s.agg.linksLive = true → s.agg.portUp p.val = true → m.length = 12 →
    s.agg.acc.jobs = [j] → j.port = p.val → j.now = some (o, leAt m 0 2) → o.wr = false → j.todo ≠ [] → leAt m 2 1 = statusCode .ok →
    Runs (.registerResponse p m) s fun t => ∃ j' ∈ t.agg.acc.jobs, j'.ident = j.ident ∧ j'.got = j.got ++ [BitVec.ofNat 32 (leAt m 8 4)]) ∧
  (∀ (s : State) (p : Fin 64) (m : List Byte) (j : RegJob) (o : RegOp), s.agg.linksLive = true → s.agg.portUp p.val = true → m.length = 12 →
    s.agg.acc.jobs = [j] → j.port = p.val → j.now = some (o, leAt m 0 2) → j.use = .write → leAt m 2 1 = statusCode .privilege →
    Runs (.registerResponse p m) s fun t => t.agg.acc.jobs = []) ∧
  -- OOB_RESET (R309, R310): 32 reset blocks in a row on a port in block lock assert the main reset; fewer do nothing
  (∀ (s : State) (p : PortId) (blocks : List LineBlock), (s.atu.port p).training.blockLock = true → oobRun 0 blocks = true →
    Runs (.oobReset p blocks) s fun t => t.atu.bound.inReset = true ∧ t.atu.bound.sources.testBit 4 = true) ∧
  (∀ (s : State) (p : PortId) (blocks : List LineBlock), (s.atu.port p).training.blockLock = false ∨ blocks.length < 32 →
    Runs (.oobReset p blocks) s fun t => t.atu = s.atu)

/-- Resets, readiness, clock and the safety inputs of the ATU do what R264 to R275, R301, R302, R673 and R751 say. Where these rules leave a point
open, a clause follows the model's choice (log entries 19 and 48). -/
def Obligations.DomainCommands : Prop :=
  -- ATU_POR and ATU_RST (R264): the main reset is asserted, with its cause; the time base is UNSET and the ports are DOWN
  (∀ (s : State), s.atu.bound.inReset = false →
    Runs .atuPor s fun t => t.atu.bound.inReset = true ∧ t.atu.reg 0x0014 = 1 ∧ t.atu.time.state = .unset ∧ t.atu.portA.state = .down ∧ t.atu.portB.state = .down ∧
      t.atu.evr.recs = [] ∧ t.atu.evr.nv = s.atu.evr.nv) ∧
  (∀ (s : State), s.atu.bound.inReset = false →
    Runs .atuRst s fun t => t.atu.bound.inReset = true ∧ t.atu.reg 0x0014 = 2 ∧ t.atu.time.state = .unset ∧ t.atu.portA.state = .down ∧ t.atu.portB.state = .down ∧
      t.atu.evr = s.atu.evr ∧ t.atu.age = { s.atu.age with strobeAt := none } ∧ t.atu.bound.rstLow = true) ∧
  -- MAIN_PWROK_LOW (R264): a reset source while ATU_RST_N is deasserted, alone or with those that hold the reset already
  (∀ (s : State), s.atu.bound.rstLow = false →
    Runs .mainPwrokLow s fun t => t.atu.bound.inReset = true ∧ t.atu.bound.mainPwrOk = false ∧ t.atu.bound.sources.testBit 2 = true ∧
      (s.atu.bound.inReset = false → t.atu.reg 0x0014 = 4)) ∧
  (∀ (s : State), s.atu.bound.rstLow = true → Runs .mainPwrokLow s fun t => t.atu.regs = s.atu.regs ∧ t.atu.bound.mainPwrOk = false) ∧
  -- MAIN_RESET_RELEASE (R265, R274, R275): after 2 microseconds; DIE_ID is sampled, and one with its low bits set is invalid
  (∀ (s : State) (dieId : Word), s.atu.bound.inReset = true → s.atu.bound.resetAt + 2000 ≤ s.atu.time.elapsed →
    Runs (.mainResetRelease dieId) s fun t => t.atu.bound.inReset = false ∧ t.atu.reg 0x0008 = dieId ∧ t.atu.bit 0x0030 8 = decide (wfld dieId 5 0 ≠ 0) ∧
      t.atu.bound.releaseAt = some s.atu.time.elapsed) ∧
  -- ATU_READY (R266): 2 microseconds after the release
  (∀ (s : State) (b : Nat), s.atu.bound.releaseAt = some b → s.atu.bound.inReset = false → s.atu.bound.ready = false → b + 2000 ≤ s.atu.time.elapsed →
    Runs .atuReady s fun t => t.atu.bound.ready = true ∧ wbit (t.atu.reg (bndFlag 2).stat) 2 = true) ∧
  (∀ (s : State) (b : Nat), s.atu.bound.releaseAt = some b → s.atu.time.elapsed < b + 2000 → Runs .atuReady s fun t => t.atu = s.atu) ∧
  -- ATU_CLK_STOP (R751): an access of the host waits from then on
  (∀ (s : State), s.atu.bound.clkRun = true →
    Runs .atuClkStop s fun t => t.atu.bound.clkRun = false ∧ t.atu.bound.clkStopAt = s.atu.time.elapsed ∧ t.atu.time = s.atu.time ∧ t.atu.samp = s.atu.samp) ∧
  -- ATU_CLK_RESTART (R751): what ATU_CLK times had stood still
  (∀ (s : State), s.atu.bound.clkRun = false → s.atu.bound.held = [] → s.atu.powerFailing = false →
    Runs .atuClkRestart s fun t => t.atu.bound.clkRun = true ∧
      ∀ n : Fin 16, t.atu.sand[n].runSince = s.atu.sand[n].runSince + (s.atu.time.elapsed - s.atu.bound.clkStopAt)) ∧
  -- LOOPBACK_RETURN (R301): the payload goes back unchanged; after the 64th the port enters UP
  (∀ (s : State) (p : PortId) (w : List Byte), (s.atu.port p).loopDue = some w → (s.atu.port p).training.loops < 63 →
    Runs (.loopbackReturn p) s fun t => (t.atu.port p).loopDue = none ∧ (t.atu.port p).training.loops = (s.atu.port p).training.loops + 1 ∧
      (t.atu.port p).lastTx = some (dieFlit 4 0 0 (s.atu.port p).retry.ackField 116 w)) ∧
  (∀ (s : State) (p : PortId) (w : List Byte), (s.atu.port p).loopDue = some w → (s.atu.port p).training.loops = 63 → (s.atu.port p).state = .calibrate →
    Runs (.loopbackReturn p) s fun t => (t.atu.port p).state = .up) ∧
  -- SAFETY_BEAT_SEND (R302): every 100 microseconds on every port in UP
  (∀ (s : State), s.atu.portA.state = .up → s.atu.safe.beatA + 100000 ≤ s.atu.time.elapsed →
    Runs .safetyBeatSend s fun t => t.atu.portA.safetyDue = true ∧ t.atu.safe.beatA = s.atu.time.elapsed) ∧
  (∀ (s : State), s.atu.portB.state = .up → s.atu.safe.beatB + 100000 ≤ s.atu.time.elapsed →
    Runs .safetyBeatSend s fun t => t.atu.portB.safetyDue = true ∧ t.atu.safe.beatB = s.atu.time.elapsed) ∧
  -- SAFE_IN_CHANGE (R302): the recognised level, what was asserted since the last flit, and an extra SAFETY flit on every port in UP
  (∀ (s : State) (level : BitVec 8), s.atu.bound.inReset = false → level.toNat ≠ s.atu.safe.now →
    Runs (.safeInChange level) s fun t => t.atu.safe.now = level.toNat ∧ t.atu.safe.sinceA = s.atu.safe.sinceA ||| level.toNat ∧
      t.atu.safe.sinceB = s.atu.safe.sinceB ||| level.toNat ∧ (s.atu.portA.state = .up → t.atu.portA.safetyDue = true) ∧
      (s.atu.portB.state = .up → t.atu.portB.safetyDue = true)) ∧
  -- SAFE_IN_PATH_TEST (R673): each test is counted, and an input whose test fails shows a self-check fault
  (∀ (s : State), s.atu.inRun = true → Runs (.safeInPathTest 0) s fun t => t.atu.fld 0x6808 31 16 = (s.atu.fld 0x6808 31 16 + 1) % 65536 ∧ t.atu.fld 0x6808 7 0 = s.atu.fld 0x6808 7 0) ∧
  (∀ (s : State) (fails : BitVec 8), s.atu.inRun = true → fails ≠ 0 →
    Runs (.safeInPathTest fails) s fun t => (∀ k, k < 8 → wbit (t.atu.reg 0x6808) k = (wbit (s.atu.reg 0x6808) k || fails.getLsbD k)) ∧ t.atu.bit 0x6800 8 = true)

/-- The event recorder does what R244 to R257 say. Where these rules leave a point open, a clause follows the model's choice (log entries 45, 46 and
120). -/
def Obligations.RecorderCommands : Prop :=
  -- EVR_RD_DATA_READ (R247): 4 bytes of the ring at RD_POS, which moves on
  (∀ (s : State), s.atu.accepts .host false 0x601C 0 0xF →
    Runs (.evrRdDataRead ⟨.host, 0xF⟩) s fun t => t.atu.bound.answer = ⟨.ok, s.atu.readWord .host 0x601C⟩ ∧
      (t.atu.sideRegs .host).evrRdPos.toNat = ((s.atu.sideRegs .host).evrRdPos.toNat + 4) % 65536) ∧
  -- EVR_HOST_COMMIT (R248): with no flush in the way, a record of type 0x0D at the write position
  (∀ (s : State) (v : Word), s.atu.accepts .host true 0x6100 v 0xF → s.atu.bit 0x6000 0 = true → s.atu.bit 0x6004 0 = false →
    s.atu.evr.flush = none →
    Runs (.evrHostCommit v) s fun t => ∃ kept r, t.atu.evr.recs = kept ++ [r] ∧ r.typ = 0x0D ∧ r.sev = wfld v 2 0 ∧ r.source = wfld v 15 8 ∧ r.pos = s.atu.evr.wr ∧
      r.detail.length = 8 * (wfld v 20 16 - 4)) ∧
  -- EVR_FLUSH_CTL (R251): a command flush runs, and shows BUSY
  (∀ (s : State) (src : RegFrom) (v : Word), s.atu.accepts src true 0x6020 v 0xF → wbit v 0 = true →
    Runs (.evrFlushCtl src v) s fun t => ∃ f, t.atu.evr.flush = some f ∧ f.reason = 3 ∧ f.slot = 1 - t.atu.evr.slot ∧ t.atu.bit 0x6004 1 = true) ∧
  -- EVR_FAULT_FLUSH (R252)
  (∀ (s : State), s.atu.faultFlushReady = true →
    Runs .evrFaultFlush s fun t => ∃ f, t.atu.evr.flush = some f ∧ f.reason = 2 ∧ t.atu.evr.faultDue = false ∧ t.atu.bit 0x6004 1 = true) ∧
  (∀ (s : State), s.atu.faultFlushReady = false → Runs .evrFaultFlush s fun t => t.atu = s.atu) ∧
  -- EVR_FLUSH_DONE (R253, R257): records and, last, the header lie in the other slot, which is then the newest
  (∀ (s : State) (f : EvrFlush), s.atu.evr.flush = some f → s.atu.holdUpOver f = false →
    Runs .evrFlushDone s fun t => t.atu.evr.flush = none ∧ t.atu.evr.slot = f.slot ∧ t.atu.evr.lastEnd = some s.atu.time.elapsed ∧
      t.atu.bit 0x6004 1 = false ∧
      t.atu.evr.nv = mwrite (mwrite s.atu.evr.nv (nvSlot f.slot + 64) f.body) (nvSlot f.slot) (s.atu.flushHeader f)) ∧
  -- but a power-fail flush that is unfinished when the hold-up ends fails (R257)
  (∀ (s : State) (f : EvrFlush), s.atu.evr.flush = some f → s.atu.holdUpOver f = true →
    Runs .evrFlushDone s fun t => t.atu.evr.flush = none ∧ t.atu.evr.slot = s.atu.evr.slot ∧ t.atu.bit 0x6004 9 = true) ∧
  -- EVR_FLUSH_ERR (R257): the slot keeps no valid image
  (∀ (s : State) (f : EvrFlush), s.atu.evr.flush = some f →
    Runs .evrFlushErr s fun t => t.atu.evr.flush = none ∧ t.atu.evr.slot = s.atu.evr.slot ∧ t.atu.bit 0x6004 1 = false ∧
      t.atu.evr.nv = mwrite s.atu.evr.nv (nvSlot f.slot) (zeros 64)) ∧
  -- EVR_LOAD (R250): the life counters come from the newest valid image, one more power cycle being counted; with none they start at 0 and 1
  (∀ (s : State) (k : Nat), s.atu.hasEvr = true → s.atu.evr.loaded = false → nvNewest s.atu.evr.nv = some k →
    Runs .evrLoad s fun t => t.atu.evr.loaded = true ∧ t.atu.evr.slot = k ∧ t.atu.reg 0x6008 = BitVec.ofNat 32 (mreadNat s.atu.evr.nv (nvSlot k + 8) 4) ∧
      (t.atu.reg 0x600C).toNat = min 0xFFFFFFFF (mreadNat s.atu.evr.nv (nvSlot k + 12) 4 + 1)) ∧
  (∀ (s : State), s.atu.hasEvr = true → s.atu.evr.loaded = false → nvNewest s.atu.evr.nv = none →
    Runs .evrLoad s fun t => t.atu.evr.loaded = true ∧ t.atu.reg 0x6008 = 0 ∧ t.atu.reg 0x600C = 1) ∧
  -- PWR_FAIL (R219, R234, R255): no test runs on, and the power-fail flush starts
  (∀ (s : State), s.atu.powerFailing = false → s.atu.hasEvr = true → s.atu.bound.clkRun = true →
    Runs (.pwrFail true) s fun t => t.atu.bit 0x0018 16 = true ∧ (∀ n : Fin 16, t.atu.sand[n].run = false) ∧
      ∃ f, t.atu.evr.flush = some f ∧ f.reason = 1)

/-- The commands that reach a die through its port do what R216, R243, R269 and R551 to R558 say. Where these rules leave a point open, a clause
follows the model's choice (log entries 47 and 110). -/
def Obligations.AccessCommands : Prop :=
  -- ATU_WRITE (R555 to R557): a context may not write at or below 0x0050
  (∀ (s : State) (c : Caller) (p : BitVec 6) (off : BitVec 16) (v : Word), s.agg.takes c → s.agg.mayReach c p.toNat → (c.ring.val ≠ 0 → 0x50 < off.toNat) →
    Runs (.atuWrite c p off v) s fun t => t.agg.Started s.agg c 0x20 p.toNat .write [wrOp off.toNat v.toNat]) ∧
  -- ATU_READ (R555): 1 to 16 words
  (∀ (s : State) (c : Caller) (p : BitVec 6) (off : BitVec 16) (count : BitVec 5), s.agg.takes c → s.agg.mayReach c p.toNat → 1 ≤ count.toNat → count.toNat ≤ 16 →
    off.toNat + 4 * (count.toNat - 1) ≤ 0xFFFF →
    Runs (.atuRead c p off count) s fun t =>
      t.agg.Started s.agg c 0x21 p.toNat .read ((List.range count.toNat).map fun k => rd (off.toNat + 4 * k))) ∧
  -- ATU_ACCESS_TIMEOUT (R558): 100 microseconds after its departure the access is given up, and its sequence with it
  (∀ (s : State) (p : Fin 64) (tag : BitVec 16) (j : RegJob) (o : RegOp) (l : Nat), s.agg.acc.jobs = [j] → j.port = p.val → j.now = some (o, tag.toNat) →
    j.leftAt = some l → j.use = .write →
    Runs (.atuAccessTimeout p tag) s fun t => (l + 100000 ≤ s.agg.now → t.agg.acc.jobs = []) ∧ (s.agg.now < l + 100000 → t.agg = s.agg)) ∧
  -- ATU_RESET (R269, R308): KIND 1 sends the reset sequence, KIND 0 writes the key on a port in UP; the command waits
  (∀ (s : State) (c : Caller) (p : BitVec 6), s.agg.takes c → c.ring.val = 0 → s.agg.boot.ready = true →
    Runs (.atuReset c p true) s fun t => (t.agg.port p.toNat).oob = true ∧
      t.agg.acc.resets = s.agg.acc.resets ++ [{ ring := 0, tag := c.tag.toNat, port := p.toNat, since := s.agg.now, left := !s.agg.portUp p.toNat }]) ∧
  (∀ (s : State) (c : Caller) (p : BitVec 6), s.agg.takes c → c.ring.val = 0 → s.agg.boot.ready = true → s.agg.portUp p.toNat = true →
    Runs (.atuReset c p false) s fun t =>
      t.agg.acc.resets = s.agg.acc.resets ++ [{ ring := 0, tag := c.tag.toNat, port := p.toNat, since := s.agg.now, left := false }] ∧
      t.agg.Started s.agg c 0x22 p.toNat .resetWrite [wrOp 0x0010 0xA5C3]) ∧
  -- ATU_RESET_TIMEOUT (R269): after 10 ms no reset of the port waits any more
  (∀ (s : State) (p : Fin 64), s.agg.fwRuns = true →
    Runs (.atuResetTimeout p) s fun t =>
      t.agg.acc.resets = s.agg.acc.resets.filter fun r => !(decide (r.port = p.val) && decide (r.since + 10000000 ≤ s.agg.now))) ∧
  -- ATU_TRACE_CTL (R216)
  (∀ (s : State) (c : Caller) (p : BitVec 6), s.agg.takes c → s.agg.mayReach c p.toNat → s.agg.dieLacks p.toNat 4 = false →
    Runs (.atuTraceCtlStart c p) s fun t => t.agg.Started s.agg c 0x23 p.toNat (.traceCtl true) [rd 0x3000]) ∧
  (∀ (s : State) (c : Caller) (p : BitVec 6), s.agg.takes c → s.agg.mayReach c p.toNat → s.agg.dieLacks p.toNat 4 = false →
    Runs (.atuTraceCtlStop c p) s fun t => t.agg.Started s.agg c 0x23 p.toNat (.traceCtl false) [wrOp 0x3004 2, rd 0x3008]) ∧
  (∀ (s : State) (c : Caller) (p : BitVec 6), s.agg.takes c → s.agg.mayReach c p.toNat → s.agg.dieLacks p.toNat 4 = false →
    Runs (.atuTraceCtlStatus c p) s fun t => t.agg.Started s.agg c 0x23 p.toNat (.traceCtl false) [rd 0x3008]) ∧
  (∀ (s : State) (c : Caller) (p : BitVec 6) (token : BitVec 64) (expiry : BitVec 48), s.agg.takes c → s.agg.mayReach c p.toNat → c.ring.val = 0 →
    s.agg.dieLacks p.toNat 4 = false → s.agg.time.window < expiry.toNat →
    Runs (.atuTraceCtlAuthorise c p token expiry) s fun t => t.agg.Started s.agg c 0x23 p.toNat (.traceCtl false)
      [wrOp 0x3030 (expiry.toNat % 2 ^ 32), wrOp 0x3034 (expiry.toNat / 2 ^ 32), wrOp 0x3028 (token.toNat % 2 ^ 32), wrOp 0x302C (token.toNat / 2 ^ 32), rd 0x3008]) ∧
  -- ATU_SANDING_PLAN (R243, R21): the owner and the wired cores are read first, and the writes follow
  (∀ (s : State) (c : Caller) (p : BitVec 6) (mask : BitVec 16) (interval : BitVec 32) (soft hard : BitVec 16), s.agg.takes c → s.agg.mayReach c p.toNat →
    Runs (.sandingPlanSet c p mask interval soft hard) s fun t => t.agg.Started s.agg c 0x24 p.toNat
      (.sandPlan mask.toNat (some [(0x5A04, interval.toNat), (0x5A08, soft.toNat + 65536 * hard.toNat), (0x5A00, mask.toNat)])
        (decide (hard.toNat ≤ soft.toNat ∨ interval.toNat = 0))) [rd 0x000C, rd 0x5A00]) ∧
  (∀ (s : State) (c : Caller) (p : BitVec 6) (mask : BitVec 16), s.agg.takes c → s.agg.mayReach c p.toNat →
    Runs (.sandingPlanRunNow c p mask) s fun t => t.agg.Started s.agg c 0x24 p.toNat (.sandPlan mask.toNat (some [(0x5A14, mask.toNat)]) false)
      [rd 0x000C, rd 0x5A00]) ∧
  (∀ (s : State) (c : Caller) (p : BitVec 6) (mask : BitVec 16), s.agg.takes c → s.agg.mayReach c p.toNat → c.ring.val = 0 →
    Runs (.sandingPlanClearFailed c p mask) s fun t => t.agg.Started s.agg c 0x24 p.toNat (.sandPlan mask.toNat (some [(0x5A14, 65536 * mask.toNat)]) false)
      [rd 0x000C, rd 0x5A00]) ∧
  (∀ (s : State) (c : Caller) (p : BitVec 6), s.agg.takes c → s.agg.mayReach c p.toNat →
    Runs (.sandingPlanStatus c p) s fun t => t.agg.Started s.agg c 0x24 p.toNat (.sandPlan 0 (some []) false) [rd 0x000C, rd 0x5A00])

/-- Frames at the aggregator, the codec engine, the check-value unit and the aggregator's strokes do what R157 to R170, R352, R363, R405 and R454
say. Where these rules leave a point open, a clause follows the model's choice (log entries 73 to 76). -/
def Obligations.CodecCommands : Prop :=
  -- FRAME_RECEIVE (R161, R363): a good frame of a known channel is decoded, and becomes the channel's reference
  (∀ (s : State) (p : Fin 64) (f : List Byte) (x : ChanCfg) (vs : List Nat), s.agg.linksLive = true → s.agg.fwRuns = true → s.agg.portUp p.val = true →
    (s.agg.port p.val).link.partRx = [] → f.length ≤ 131072 → frameGood f = true →
    x.serial = (parseHdr f).cfgSerial → x.taps.length = (parseHdr f).tapCount →
    decodeFrame (x.taps.map (·.2)) (sget [] s.agg.ingest.refs (chanKey p.val (parseHdr f).chan)) f = .ok vs →
    Runs (.frameReceive p false f (some x)) s fun t =>
      sget [] t.agg.ingest.refs (chanKey p.val (parseHdr f).chan) = rawOf (x.taps.map (·.2)) f vs ∧
      ∃ y ∈ t.agg.ingest.frames, y.port = p.val ∧ y.chan = (parseHdr f).chan ∧ y.window = (parseHdr f).window ∧
        y.vals = (x.taps.zip vs).map fun q => (q.1.1, q.1.2, q.2)) ∧
  -- INGEST_CUTOFF (R24, R454): past the cut-off the next window's rows are built, and it moves on
  (∀ (s : State) (n : Fin 17), 0 < n.val → s.agg.fwRuns = true → (s.agg.job n.val).scores = true → s.agg.time.sched.isSome = true →
    s.agg.strokeHt ((s.agg.score n.val).nextCut + 1) + 1000 * (s.agg.levelOf n.val (s.agg.score n.val).nextCut).cutoffUs ≤ s.agg.ht →
    ((s.agg.job n.val).state = .draining → (s.agg.score n.val).nextCut ≤ (s.agg.job n.val).lastWin) →
    Runs (.ingestCutoff n) s fun t => (t.agg.score n.val).nextCut = (s.agg.score n.val).nextCut + 1 ∧
      ∃ w ∈ (t.agg.score n.val).wins, w.window = (s.agg.score n.val).nextCut ∧ w.stage = .built) ∧
  -- CODEC_RUN (R159 to R164): in a slot that no other context holds, with source, map and destinations inside the caller's windows; where every
  -- frame of an ENCODE fell back to raw nothing is written (R163); with no frame done the slot is only claimed
  (∀ (s : State) (c : Caller) (flush : Bool) (slot : BitVec 4) (src : BitVec 48) (len : BitVec 32) (kind dst : BitVec 48) (bufs : List (Nat × Nat))
    (x : CodecSlot), s.agg.takes c → claimedByOther (s.agg.slotOf slot.toNat).owner (ctxOf c) = false → readChain s.agg.mem 256 dst.toNat = some bufs →
    s.agg.outsideAll c.ring.val ((src.toNat, len.toNat) ::
      (if (s.agg.slotOf slot.toNat).frame.isEmpty || flush then [(kind.toNat, 512)] else []) ++ (dst.toNat, 16 * max 1 bufs.length) :: bufs) = none →
    x = (if (s.agg.slotOf slot.toNat).frame.isEmpty || flush then
      { frame := if flush then [] else (s.agg.slotOf slot.toNat).frame, kinds := s.agg.read kind.toNat 512, owner := some (ctxOf c) }
      else { s.agg.slotOf slot.toNat with owner := some (ctxOf c) }) →
    Runs (.codecRunEncode c flush slot src len kind dst) s fun t =>
      let run (room : Nat) := codecLoop true room (len.toNat + 1) flush (s.agg.read src.toNat len.toNat) { slot := x }
      let r := if (run (2 ^ 64)).noShrink then { run (2 ^ 64) with out := [] } else run ((bufs.map (·.2)).sum)
      t.agg.mem = writeChain s.agg.mem bufs r.out ∧
        t.agg.slotOf slot.toNat = if r.done = 0 then { s.agg.slotOf slot.toNat with owner := some (ctxOf c) } else r.slot) ∧
  (∀ (s : State) (c : Caller) (flush : Bool) (slot : BitVec 4) (src : BitVec 48) (len : BitVec 32) (kind dst : BitVec 48) (bufs : List (Nat × Nat))
    (x : CodecSlot), s.agg.takes c → claimedByOther (s.agg.slotOf slot.toNat).owner (ctxOf c) = false → readChain s.agg.mem 256 dst.toNat = some bufs →
    s.agg.outsideAll c.ring.val ((src.toNat, len.toNat) ::
      (if (s.agg.slotOf slot.toNat).frame.isEmpty || flush then [(kind.toNat, 512)] else []) ++ (dst.toNat, 16 * max 1 bufs.length) :: bufs) = none →
    x = (if (s.agg.slotOf slot.toNat).frame.isEmpty || flush then
      { frame := if flush then [] else (s.agg.slotOf slot.toNat).frame, kinds := s.agg.read kind.toNat 512, owner := some (ctxOf c) }
      else { s.agg.slotOf slot.toNat with owner := some (ctxOf c) }) →
    Runs (.codecRunDecode c flush slot src len kind dst) s fun t =>
      let r := codecLoop false ((bufs.map (·.2)).sum) (len.toNat + 1) flush (s.agg.read src.toNat len.toNat) { slot := x }
      t.agg.mem = writeChain s.agg.mem bufs r.out ∧
        t.agg.slotOf slot.toNat = if r.done = 0 then { s.agg.slotOf slot.toNat with owner := some (ctxOf c) } else r.slot) ∧
  -- CODEC_SAVE and CODEC_RESTORE (R165): the record of a slot, and the slot of a record
  (∀ (s : State) (c : Caller) (slot : BitVec 4) (dst : BitVec 48) (release : Bool), s.agg.takes c →
    (c.ring.val ≠ 0 → claimedByOther (s.agg.slotOf slot.toNat).owner (ctxOf c) = false) → s.agg.outside c.ring.val dst.toNat (slotRecord (s.agg.slotOf slot.toNat)).length = none →
    Runs (.codecSave c slot dst release) s fun t => t.agg.Completed c 0x72 [] ∧
      t.agg.mem = (s.agg.write dst.toNat (slotRecord (s.agg.slotOf slot.toNat))).mem ∧
      t.agg.slotOf slot.toNat = if release then {} else s.agg.slotOf slot.toNat) ∧
  (∀ (s : State) (c : Caller) (slot : BitVec 4) (src : BitVec 48) (n : Nat), s.agg.takes c →
    (c.ring.val ≠ 0 → claimedByOther (s.agg.slotOf slot.toNat).owner (ctxOf c) = false) →
    s.agg.readNat (src.toNat + 4) 4 = n → 576 ≤ n → n ≤ 131072 → s.agg.outside c.ring.val src.toNat 576 = none → s.agg.outside c.ring.val src.toNat n = none →
    leAt (s.agg.read src.toNat n) 0 1 = 0xA3 →
    leAt (s.agg.read src.toNat n) 60 4 = crcOf crc32c ((s.agg.read src.toNat n).take 60 ++ (s.agg.read src.toNat n).drop 64) →
    Runs (.codecRestore c slot src) s fun t => t.agg.Completed c 0x73 [] ∧ (t.agg.slotOf slot.toNat).owner = some (ctxOf c) ∧
      (t.agg.slotOf slot.toNat).kinds = bytesAt (s.agg.read src.toNat n) 64 512) ∧
  -- CVU_RUN (R167 to R169): CONFIGURE, SCAN, READ and WRITE
  (∀ (s : State) (c : Caller) (k : BitVec 4) (width : BitVec 7) (poly init : BitVec 64) (refIn refOut : Bool) (xorOut : BitVec 64), s.agg.takes c →
    claimedByOther (s.agg.cvuOf k.toNat).owner (ctxOf c) = false → 8 ≤ width.toNat → width.toNat ≤ 64 → poly.toNat < 2 ^ width.toNat → init.toNat < 2 ^ width.toNat →
    xorOut.toNat < 2 ^ width.toNat →
    Runs (.cvuConfigure c k width poly init refIn refOut xorOut) s fun t => t.agg.Completed c 0x70 [] ∧
      t.agg.cvuOf k.toNat = { owner := some (ctxOf c), params := some ⟨width.toNat, poly.toNat, init.toNat, refIn, refOut, xorOut.toNat⟩, run := init.toNat }) ∧
  (∀ (s : State) (c : Caller) (k : BitVec 4) (addr : BitVec 48) (len : BitVec 32) (cont : Bool) (p : CrcParams), s.agg.takes c →
    claimedByOther (s.agg.cvuOf k.toNat).owner (ctxOf c) = false → (s.agg.cvuOf k.toNat).params = some p → s.agg.outside c.ring.val addr.toNat len.toNat = none →
    Runs (.cvuScan c k addr len cont) s fun t =>
      let v := crcRun p (if cont then (s.agg.cvuOf k.toNat).run else p.init) (s.agg.read addr.toNat len.toNat)
      (t.agg.cvuOf k.toNat).run = v ∧ t.agg.Completed c 0x70 [(64, v), (64, crcResult p v)]) ∧
  (∀ (s : State) (c : Caller) (k : BitVec 4) (p : CrcParams), s.agg.takes c → claimedByOther (s.agg.cvuOf k.toNat).owner (ctxOf c) = false →
    (s.agg.cvuOf k.toNat).params = some p →
    Runs (.cvuRead c k) s fun t => t.agg.Completed c 0x70 [(64, (s.agg.cvuOf k.toNat).run), (64, crcResult p (s.agg.cvuOf k.toNat).run)] ∧ t.agg.cvu = s.agg.cvu) ∧
  (∀ (s : State) (c : Caller) (k : BitVec 4) (v : BitVec 64), s.agg.takes c → claimedByOther (s.agg.cvuOf k.toNat).owner (ctxOf c) = false →
    (s.agg.cvuOf k.toNat).params = none → Runs (.cvuWrite c k v) s fun t => (t.agg.cvuOf k.toNat).run = v.toNat) ∧
  (∀ (s : State) (c : Caller) (k : BitVec 4) (v : BitVec 64) (p : CrcParams), s.agg.takes c → claimedByOther (s.agg.cvuOf k.toNat).owner (ctxOf c) = false →
    (s.agg.cvuOf k.toNat).params = some p →
    Runs (.cvuWrite c k v) s fun t => (t.agg.cvuOf k.toNat).run = v.toNat % 2 ^ p.width ∧
      t.agg.Completed c 0x70 [(64, v.toNat % 2 ^ p.width), (64, crcResult p (v.toNat % 2 ^ p.width))]) ∧
  -- AGG_STROKE (R352): the next stroke fires when HT has reached it
  (∀ (s : State) (sc : Sched), s.agg.powered = true → s.agg.time.sched = some sc → s.agg.time.state = .locked ∨ s.agg.time.state = .holdover →
    schedHtPending sc s.agg.time.pending (s.agg.time.nextStroke sc) ≤ s.agg.ht →
    Runs .aggStroke s fun t => t.agg.time.lastFired = some (s.agg.time.nextStroke sc)) ∧
  (∀ (s : State) (sc : Sched), s.agg.time.sched = some sc → s.agg.ht < schedHtPending sc s.agg.time.pending (s.agg.time.nextStroke sc) →
    Runs .aggStroke s fun t => t.agg = s.agg)

/-- The rounds of the skim tree do what R363 and R372 to R386 say. Where these rules leave a point open, a clause follows the model's choice (log
entry 77). -/
def Obligations.SkimRoundCommands : Prop :=
  -- ROUND_CLOSE (R376): at its close the next round opens with its sealed sketches
  (∀ (s : State) (c c' : TreeCfg) (n : Nat), s.agg.fwRuns = true → s.agg.skim.cfg = some c → s.agg.time.sched.isSome = true →
    s.agg.skim.lastClosed = some n → (∀ d, s.agg.skim.dissolve = some d → n + 1 < d) → s.agg.cfgFor (n + 1) = some c' → s.agg.closeOf c' (n + 1) ≤ s.agg.ht → s.agg.skim.rounds.length < 10 →
    Runs .roundClose s fun t => t.agg.skim.lastClosed = some (n + 1) ∧
      ∃ y ∈ t.agg.skim.rounds, y.num = n + 1 ∧ y.closeHt = s.agg.closeOf c' (n + 1) ∧ y.merged = none ∧ y.discarded = false) ∧
  -- PARTNER_SELF_VALUES (R363): module B counts module A's values once, in the round that waits for them, or keeps them for one not closed yet
  (∀ (s : State) (r : BitVec 40) (vals : List (List (Option Nat))) (x : Round), s.agg.linksLive = true → s.agg.partnerUp = true → s.agg.paired = true →
    s.agg.ident.role = 1 → s.agg.roundOf r.toNat = some x → x.merged = none →
    Runs (.partnerSelfValues r vals) s fun t => ∃ y, t.agg.roundOf r.toNat = some y ∧ y.selfDone = true) ∧
  (∀ (s : State) (r : BitVec 40) (vals : List (List (Option Nat))), s.agg.linksLive = true → s.agg.partnerUp = true → s.agg.paired = true →
    s.agg.ident.role = 1 → s.agg.roundOf r.toNat = none → (∀ n, s.agg.skim.lastClosed = some n → n < r.toNat) →
    Runs (.partnerSelfValues r vals) s fun t => (r.toNat, vals) ∈ t.agg.skim.partnerVals) ∧
  -- SKIM_UP_SEND (R376, R389): at T_up(d) the merged result waits on the parent link, once
  (∀ (s : State) (r : BitVec 40) (x : Round) (m : SkimUpDown) (k : Fin 32), s.agg.fwRuns = true → s.agg.roundOf r.toNat = some x → x.merged = some m →
    x.parent = some k.val → x.discarded = false → x.sent = false → x.cfg.root = false → x.upAt x.depth ≤ s.agg.ht → (s.agg.link k.val).state = .up →
    Runs (.skimUpSend r) s fun t => (∃ y, t.agg.roundOf r.toNat = some y ∧ y.sent = true) ∧
      ∃ q, ((t.agg.link k.val).txOf 2).queue = ((s.agg.link k.val).txOf 2).queue ++ [q] ∧ q.bytes = skimBytes m ∧ q.deadline = some m.deadline) ∧
  -- SKIM_UP_RECEIVE (R377): an UP of a child, in time and of the round's set, is kept; one that comes too late spoils the round (R379)
  (∀ (s : State) (k : Fin 32) (b : List Byte) (m : SkimUpDown) (x : Round), s.agg.linksLive = true → (s.agg.link k.val).state = .up → readSkim b = some m →
    m.kind = 1 → s.agg.roundOf m.round = some x → x.discarded = false → (s.agg.childrenFor m.round).any (·.link = k.val) = true →
    x.ups.any (·.1 = k.val) = false → s.agg.ht + 20000 ≤ x.upAt x.depth → x.merged = none → m.setId = x.setId → m.setCrc = x.setCrc →
    Runs (.skimUpReceive k b) s fun t => ∃ y, t.agg.roundOf m.round = some y ∧ y.ups = x.ups ++ [(k.val, m)]) ∧
  (∀ (s : State) (k : Fin 32) (b : List Byte) (m : SkimUpDown) (x : Round), s.agg.linksLive = true → (s.agg.link k.val).state = .up → readSkim b = some m →
    m.kind = 1 → s.agg.roundOf m.round = some x → x.discarded = false → (s.agg.childrenFor m.round).any (·.link = k.val) = true →
    x.ups.any (·.1 = k.val) = false → x.upAt x.depth < s.agg.ht + 20000 →
    Runs (.skimUpReceive k b) s fun t => t.agg.skim.lateUps = s.agg.skim.lateUps + 1 ∧ wbit (t.agg.reg 0x50000) 2 = true ∧
      ∃ y, t.agg.roundOf m.round = some y ∧ y.spoiled = true) ∧
  -- SKIM_MERGE (R378): at T_up(d) less MERGE the round's UPs and its own sketches become one result
  (∀ (s : State) (r : BitVec 40) (x : Round), s.agg.fwRuns = true → s.agg.roundOf r.toNat = some x → x.discarded = false → x.merged = none →
    x.upAt x.depth ≤ s.agg.ht + 20000 →
    Runs (.skimMerge r) s fun t => ∃ y m, t.agg.roundOf r.toNat = some y ∧ y.merged = some m ∧ y.ups = [] ∧ m.kind = 1 ∧ m.round = r.toNat ∧
      m.sender = s.agg.ident.trayId ∧ m.setId = x.setId) ∧
  -- ROOT_EXCHANGE (R380): the two roots agree at once where members and digest are the same; the whole result of the other is adopted
  (∀ (s : State) (r : BitVec 40) (a : BitVec 12) (d : BitVec 64) (x : Round) (m : SkimUpDown), s.agg.fwRuns = true → s.agg.roundOf r.toNat = some x →
    x.discarded = false → x.cfg.root = true → s.agg.paired = true → s.agg.ht < x.rootAt → x.merged = some m → x.adopted = none →
    m.said = (a.toNat, d.toNat) →
    Runs (.rootExchange r (.said a d)) s fun t => ∃ y, t.agg.roundOf r.toNat = some y ∧ y.adopted = some m) ∧
  (∀ (s : State) (r : BitVec 40) (x : Round) (m : SkimUpDown), s.agg.fwRuns = true → s.agg.roundOf r.toNat = some x →
    x.discarded = false → x.cfg.root = true → s.agg.paired = true → s.agg.ht < x.rootAt → x.upAt 0 ≤ s.agg.ht → x.merged = some m → x.adopted = none →
    x.rootSaid = some m.said →
    Runs (.rootExchange r .moment) s fun t => ∃ y, t.agg.roundOf r.toNat = some y ∧ y.adopted = some m) ∧
  (∀ (s : State) (r : BitVec 40) (k : Fin 32) (b : List Byte) (x : Round), s.agg.fwRuns = true → s.agg.roundOf r.toNat = some x →
    x.discarded = false → x.cfg.root = true → s.agg.paired = true → s.agg.ht < x.rootAt →
    Runs (.rootExchange r (.whole k b)) s fun t =>
      (∀ m, readSkim b = some m → m.round = r.toNat → ∃ y, t.agg.roundOf r.toNat = some y ∧ y.adopted = some m) ∧
      (readSkim b = none → (t.agg.link k.val).integrity = (s.agg.link k.val).integrity + 1)) ∧
  -- ROOT_DECIDE (R380, R381): with a quorum the DOWN is made and sent on; without one the round is discarded
  (∀ (s : State) (r : BitVec 40) (x : Round) (m : SkimUpDown), s.agg.fwRuns = true → s.agg.roundOf r.toNat = some x →
    x.adopted = some m ∨ (x.adopted = none ∧ x.merged = some m) → x.discarded = false → x.cfg.root = true → x.down = none → x.rootAt ≤ s.agg.ht →
    Runs (.rootDecide r) s fun t => ∃ y, t.agg.roundOf r.toNat = some y ∧
      (x.cfg.quorumPm * x.cfg.hallNodes ≤ m.body.trays.length * 1000 → m.body.trays.length ≤ x.cfg.hallNodes →
        y.forwarded = true ∧ ∃ d, y.down = some d ∧ d.kind = 2 ∧ d.expected = x.cfg.hallNodes ∧ d.body = m.body ∧
          d.flags.part = decide (m.body.trays.length < x.cfg.hallNodes)) ∧
      (m.body.trays.length * 1000 < x.cfg.quorumPm * x.cfg.hallNodes ∨ x.cfg.hallNodes < m.body.trays.length → y.discarded = true ∧ y.down = none)) ∧
  -- DOWN_FORWARD (R382)
  (∀ (s : State) (r : BitVec 40) (x : Round) (m : SkimUpDown), s.agg.fwRuns = true → s.agg.roundOf r.toNat = some x → x.down = some m → x.discarded = false →
    x.downAt x.depth ≤ s.agg.ht →
    Runs (.downForward r) s fun t => ∃ y, t.agg.roundOf r.toNat = some y ∧ y.forwarded = true ∧ y.down = some m) ∧
  -- DOWN_RECEIVE (R372, R382, R383): from the parent of the round, in time or late; whole from the partner; one that fails its checks is counted
  (∀ (s : State) (k : Fin 32) (b : List Byte) (m : SkimUpDown) (x : Round), s.agg.linksLive = true → (s.agg.link k.val).state = .up → readSkim b = some m →
    m.kind = 2 → s.agg.roundOf m.round = some x → x.discarded = false → x.down = none → x.parent = some k.val →
    Runs (.downReceive ⟨k, false⟩ b) s fun t => ∃ y, t.agg.roundOf m.round = some y ∧ y.down = some m) ∧
  (∀ (s : State) (k : Fin 32) (b : List Byte) (m : SkimUpDown) (x : Round), s.agg.linksLive = true → (s.agg.link k.val).state = .up → readSkim b = some m →
    m.kind = 2 → s.agg.roundOf m.round = some x → x.discarded = false → x.other = none →
    Runs (.downReceive ⟨k, true⟩ b) s fun t => ∃ y, t.agg.roundOf m.round = some y ∧ y.other = some m) ∧
  (∀ (s : State) (k : Fin 32) (partner : Bool) (b : List Byte), s.agg.linksLive = true → (s.agg.link k.val).state = .up → readSkim b = none →
    Runs (.downReceive ⟨k, partner⟩ b) s fun t => (t.agg.link k.val).integrity = (s.agg.link k.val).integrity + 1) ∧
  -- DOWN_USE (R382, R400): a module that runs as a single uses the DOWN it holds, and the round is the last finished
  (∀ (s : State) (r : BitVec 40) (said : Option (BitVec 64 × BitVec 32)) (x : Round) (m : SkimUpDown), s.agg.fwRuns = true → s.agg.roundOf r.toNat = some x →
    s.agg.paired = false → x.down = some m → x.discarded = false → x.used = none → x.downAt x.depth + 20000 ≤ s.agg.ht →
    Runs (.downUse r said) s fun t => (∃ y, t.agg.roundOf r.toNat = some y ∧ y.used = some m) ∧ t.agg.skim.finished.getLast? = some (r.toNat, some m)) ∧
  -- ABORT_RECEIVE and ROUND_ABORT_TIMEOUT (R384 to R386): the round is discarded
  (∀ (s : State) (m : List Byte) (x : Round), s.agg.linksLive = true → m.length = 16 → leAt m 0 2 = 0x01B2 → leAt m 12 4 = crcOf crc32c (m.take 12) →
    s.agg.roundOf (leAt m 2 5) = some x →
    Runs (.abortReceive m) s fun t => ∃ y, t.agg.roundOf (leAt m 2 5) = some y ∧ y.discarded = true) ∧
  (∀ (s : State) (r : BitVec 40) (x : Round), s.agg.fwRuns = true → s.agg.roundOf r.toNat = some x → x.used = none → x.abortAt ≤ s.agg.ht →
    Runs (.roundAbortTimeout r) s fun t => ∃ y, t.agg.roundOf r.toNat = some y ∧ y.discarded = true)

/-- The messages and timers of the skim tree do what R374, R375 and R387 to R392 say. Where these rules leave a point open, a clause follows the
model's choice (log entries 78 and 131). -/
def Obligations.TreeCommands : Prop :=
  -- TREE_JOIN (R375): once, to the primary parent; a root is in the tree at once
  (∀ (s : State) (c : TreeCfg) (k : Fin 32), s.agg.fwRuns = true → s.agg.skim.cfg = some c → s.agg.skim.joinSent = false → s.agg.skim.state ≠ 0 → c.root = false →
    c.primary = some k.val →
    Runs .treeJoin s fun t => t.agg.skim.joinSent = true ∧ t.agg.Asked s.agg k.val .join [s.agg.ident.trayId, c.depth, s.agg.height c.act]) ∧
  (∀ (s : State) (c : TreeCfg), s.agg.fwRuns = true → s.agg.skim.cfg = some c → s.agg.skim.joinSent = false → s.agg.skim.state ≠ 0 → c.root = true →
    Runs .treeJoin s fun t => t.agg.skim.joinSent = true ∧ t.agg.skim.state = 2) ∧
  -- JOIN_RECEIVE (R375): a child of the mask at the next depth, with fewer than 8 others, is entered and told so; any other is turned away
  (∀ (s : State) (c : TreeCfg) (k : Fin 32) (depth height : BitVec 8), s.agg.linksLive = true → (s.agg.link k.val).state = .up → s.agg.skim.cfg = some c →
    c.childMask.testBit k.val = true → depth.toNat = s.agg.depthFor (s.agg.joinRound c) + 1 →
    ((s.agg.childrenFor (s.agg.joinRound c)).filter (·.link ≠ k.val)).length < 8 →
    Runs (.joinReceive k depth height) s fun t => t.agg.Queued s.agg k.val 3 .joinAck [] ∧
      ∃ x ∈ t.agg.skim.children, x.link = k.val ∧ x.height = height.toNat ∧ x.since = s.agg.joinRound c) ∧
  (∀ (s : State) (c : TreeCfg) (k : Fin 32) (depth height : BitVec 8), s.agg.linksLive = true → (s.agg.link k.val).state = .up → s.agg.skim.cfg = some c →
    c.childMask.testBit k.val = false →
    Runs (.joinReceive k depth height) s fun t => t.agg.Queued s.agg k.val 3 .joinNak [] ∧ t.agg.skim.children = s.agg.skim.children ∧
      wbit (t.agg.reg 0x50000) 6 = true) ∧
  -- JOIN_REPLY (R375): JOIN_ACK brings the module into the tree, JOIN_NAK leaves it with TREE_ERR
  (∀ (s : State) (c : TreeCfg) (k : Fin 32), s.agg.linksLive = true → (s.agg.link k.val).state = .up → s.agg.skim.cfg = some c → c.primary = some k.val →
    s.agg.skim.joinSent = true → s.agg.skim.returning = false → s.agg.skim.state = 1 →
    Runs (.joinReply k true) s fun t => t.agg.skim.state = 2) ∧
  (∀ (s : State) (c : TreeCfg) (k : Fin 32), s.agg.linksLive = true → (s.agg.link k.val).state = .up → s.agg.skim.cfg = some c → c.primary = some k.val →
    s.agg.skim.joinSent = true → s.agg.skim.returning = false → s.agg.skim.state = 1 →
    Runs (.joinReply k false) s fun t => t.agg.skim.state = 4 ∧ wbit (t.agg.reg 0x50000) 6 = true) ∧
  -- and the answer to a return puts the primary parent back in force (R392)
  (∀ (s : State) (c : TreeCfg) (k : Fin 32), s.agg.linksLive = true → (s.agg.link k.val).state = .up → s.agg.skim.cfg = some c → c.primary = some k.val →
    s.agg.skim.joinSent = true → s.agg.skim.returning = true →
    Runs (.joinReply k true) s fun t => t.agg.skim.returning = false ∧ t.agg.skim.primFrom = some (s.agg.aheadRound c) ∧ t.agg.skim.state = 2) ∧
  -- REROUTE (R387, R388): with the primary parent link not in UP, ADOPT goes to the alternate parent
  (∀ (s : State) (c : TreeCfg) (k a : Fin 32), s.agg.fwRuns = true → s.agg.skim.cfg = some c → c.primary = some k.val → c.alt = some a.val → c.root = false →
    (s.agg.link k.val).state ≠ .up → s.agg.skim.adopting = none → s.agg.skim.state = 2 → s.agg.skim.onAlt (s.agg.aheadRound c) = false →
    Runs .reroute s fun t => t.agg.skim.adopting = some (s.agg.now, s.agg.aheadRound c, false) ∧
      t.agg.Asked s.agg a.val .adopt [s.agg.aheadRound c, s.agg.height (s.agg.aheadRound c)]) ∧
  -- LEAVE_RECEIVE (R387, R392): from the primary parent it reroutes the module; a child counts up to the round it names
  (∀ (s : State) (c : TreeCfg) (k a : Fin 32) (r : BitVec 40), s.agg.linksLive = true → (s.agg.link k.val).state = .up → s.agg.skim.cfg = some c →
    c.primary = some k.val → c.alt = some a.val → c.root = false → s.agg.skim.adopting = none → s.agg.skim.state = 2 →
    s.agg.skim.onAlt (s.agg.aheadRound c) = false →
    Runs (.leaveReceive k r) s fun t => t.agg.skim.adopting = some (s.agg.now, s.agg.aheadRound c, false) ∧
      t.agg.Asked s.agg a.val .adopt [s.agg.aheadRound c, s.agg.height (s.agg.aheadRound c)]) ∧
  (∀ (s : State) (k : Fin 32) (r : BitVec 40) (x : Child), s.agg.linksLive = true → (s.agg.link k.val).state = .up → s.agg.skim.cfg.bind (·.primary) ≠ some k.val →
    x ∈ s.agg.skim.children → x.link = k.val →
    Runs (.leaveReceive k r) s fun t => { x with until_ := some r.toNat } ∈ t.agg.skim.children) ∧
  -- ADOPT_RECEIVE (R374, R388, R390)
  (∀ (s : State) (c : TreeCfg) (k : Fin 32) (r : BitVec 40) (height : BitVec 8), s.agg.linksLive = true → (s.agg.link k.val).state = .up →
    s.agg.cfgFor r.toNat = some c → ((s.agg.childrenFor r.toNat).filter (·.link ≠ k.val)).length < 8 →
    s.agg.depthFor r.toNat + 1 + height.toNat ≤ c.schedDepth → s.agg.skim.state ≠ 0 →
    Runs (.adoptReceive k r height) s fun t => t.agg.Queued s.agg k.val 3 .adoptAck [s.agg.depthFor r.toNat] ∧
      ∃ x ∈ t.agg.skim.children, x.link = k.val ∧ x.since = r.toNat ∧ x.adopted = true) ∧
  (∀ (s : State) (k : Fin 32) (r : BitVec 40) (height : BitVec 8), s.agg.linksLive = true → (s.agg.link k.val).state = .up → s.agg.cfgFor r.toNat = none →
    Runs (.adoptReceive k r height) s fun t => t.agg.Queued s.agg k.val 3 .adoptNak []) ∧
  -- ADOPT_REPLY (R388, R391)
  (∀ (s : State) (c : TreeCfg) (k : Fin 32) (depth : BitVec 8) (b : Nat) (r : Nat) (n : Bool), s.agg.linksLive = true → (s.agg.link k.val).state = .up →
    s.agg.skim.cfg = some c → s.agg.skim.adopting = some (b, r, n) → c.alt = some k.val →
    Runs (.adoptReply k true depth) s fun t => t.agg.skim.adopting = none ∧ t.agg.skim.altFrom = some r ∧ t.agg.skim.state = 3 ∧
      t.agg.skim.depthAt = s.agg.skim.depthAt ++ [(r, depth.toNat + 1)] ∧ wbit (t.agg.reg 0x50000) 5 = true) ∧
  (∀ (s : State) (c : TreeCfg) (k : Fin 32) (depth : BitVec 8) (b : Nat) (r : Nat) (n : Bool), s.agg.linksLive = true → (s.agg.link k.val).state = .up →
    s.agg.skim.cfg = some c → s.agg.skim.adopting = some (b, r, n) → c.alt = some k.val →
    Runs (.adoptReply k false depth) s fun t => t.agg.skim.adopting = some (s.agg.now, r, true) ∧ wbit (t.agg.reg 0x50000) 6 = true) ∧
  -- ADOPT_RETRY (R388): 10 ms after the last
  (∀ (s : State) (c : TreeCfg) (a : Fin 32) (b r : Nat) (n : Bool), s.agg.fwRuns = true → s.agg.skim.cfg = some c → s.agg.skim.adopting = some (b, r, n) →
    c.alt = some a.val → b + 10000000 ≤ s.agg.now →
    Runs .adoptRetry s fun t => t.agg.skim.adopting = some (s.agg.now, s.agg.aheadRound c, false) ∧
      t.agg.Asked (s.agg.answered a.val) a.val .adopt [s.agg.aheadRound c, s.agg.height (s.agg.aheadRound c)]) ∧
  -- DEPTH_RECEIVE (R391): from the parent of that round
  (∀ (s : State) (k : Fin 32) (r : BitVec 40) (depth : BitVec 8), s.agg.linksLive = true → (s.agg.link k.val).state = .up → s.agg.parentFor r.toNat = some k.val →
    Runs (.depthReceive k r depth) s fun t => t.agg.skim.depthAt = s.agg.skim.depthAt ++ [(r.toNat, depth.toNat + 1)]) ∧
  -- RETURN_PRIMARY_TIMER (R392): after 10 s of the primary link in UP, JOIN goes to it
  (∀ (s : State) (c : TreeCfg) (k : Fin 32) (b : Nat), s.agg.fwRuns = true → s.agg.skim.primUpAt = some b → b + 10000000000 ≤ s.agg.now → s.agg.skim.cfg = some c →
    c.primary = some k.val → s.agg.skim.state = 3 → s.agg.skim.returning = false → (s.agg.link k.val).state = .up →
    Runs .returnPrimaryTimer s fun t => t.agg.skim.returning = true ∧
      t.agg.Asked s.agg k.val .join [s.agg.ident.trayId, c.depth, s.agg.height (s.agg.aheadRound c)])

/-- The skim tree's commands do what R392 and R395 to R399 say. Where these rules leave a point open, a clause follows the model's choice (log entry
80). -/
def Obligations.SkimControlCommands : Prop :=
  -- SKIM_SET_METRICS (R395, R396): a good table waits for its round
  (∀ (s : State) (c : Caller) (setId : BitVec 32) (act : BitVec 40) (count : BitVec 11) (addr : BitVec 48), s.agg.takes c → c.ring.val = 0 → s.agg.boot.ready = true →
    count.toNat ≤ 1024 → s.agg.outside 0 addr.toNat (16 * count.toNat) = none →
    metricsBad ((List.range count.toNat).map fun i => bytesAt (s.agg.read addr.toNat (16 * count.toNat)) (16 * i) 16) = false →
    staleRound (s.agg.skim.cfg.bind fun x => s.agg.roundNow x.windows) act.toNat = false → s.agg.skim.pendSet = none →
    Runs (.skimSetMetrics c setId act count addr) s fun t => t.agg.Completed c 0x30 [] ∧ ∃ x, t.agg.skim.pendSet = some x ∧ x.setId = setId.toNat ∧ x.act = act.toNat ∧
      x.crc = crcOf crc32c (s.agg.read addr.toNat (16 * count.toNat)) ∧
      x.defs = (List.range count.toNat).map fun i => readMetric (bytesAt (s.agg.read addr.toNat (16 * count.toNat)) (16 * i) 16)) ∧
  -- SKIM_TREE_SET (R397, R398)
  (∀ (s : State) (c : Caller) (x : TreeArgs), s.agg.takes c → c.ring.val = 0 → s.agg.boot.ready = true → (∀ k ∈ (TreeCfg.ofArgs x).links, k < s.agg.skimLinks) →
    s.agg.treeBad (TreeCfg.ofArgs x) = false → staleRound (s.agg.roundNow (TreeCfg.ofArgs x).windows) (TreeCfg.ofArgs x).act = false →
    (∀ k, k < 32 → (TreeCfg.ofArgs x).childMask.testBit k = true → (TreeCfg.ofArgs x).primary ≠ some k ∧ (TreeCfg.ofArgs x).alt ≠ some k ∧
      s.agg.partnerMembers.contains k = false) →
    (∀ o, s.agg.skim.cfg = some o → o.windows = (TreeCfg.ofArgs x).windows) →
    Runs (.skimTreeConfigure c x) s fun t => t.agg.Completed c 0x31 [] ∧ t.agg.skim.pendCfg = some (TreeCfg.ofArgs x)) ∧
  (∀ (s : State) (c : Caller), s.agg.takes c → c.ring.val = 0 → s.agg.boot.ready = true →
    Runs (.skimTreeReturnPrimary c) s fun t => t.agg.Completed c 0x31 [] ∧
      ∀ (x : TreeCfg) (k : Fin 32), s.agg.skim.cfg = some x → x.primary = some k.val → s.agg.skim.state = 3 → (s.agg.link k.val).state = .up →
        t.agg.skim.returning = true) ∧
  (∀ (s : State) (c : Caller) (act : BitVec 40), s.agg.takes c → c.ring.val = 0 → s.agg.boot.ready = true →
    Runs (.skimTreeDissolve c act) s fun t => t.agg.Completed c 0x31 [] ∧ (s.agg.skim.cfg.isSome = true → t.agg.skim.dissolve = some act.toNat)) ∧
  -- SKIM_STATUS (R386, R399): the DOWN of a round used, written where the caller asks; a round still open is waited for
  (∀ (s : State) (c : Caller) (r : BitVec 40) (dst : BitVec 48) (n : Nat) (m : SkimUpDown), s.agg.takes c → s.agg.boot.ready = true →
    (if r = 0 then s.agg.skim.finished.getLast? else s.agg.finishedOf r.toNat) = some (n, some m) →
    (dst ≠ 0 → s.agg.outside c.ring.val dst.toNat (skimBytes m).length = none) →
    Runs (.skimStatus c r dst) s fun t => t.agg.Completed c 0x32 (s.agg.skimResults n (some m) true) ∧
      t.agg.mem = if dst = 0 then s.agg.mem else (s.agg.write dst.toNat (skimBytes m)).mem) ∧
  (∀ (s : State) (c : Caller) (r : BitVec 40) (dst : BitVec 48), s.agg.takes c → s.agg.boot.ready = true → r ≠ 0 →
    s.agg.finishedOf r.toNat = none → (s.agg.roundOf r.toNat).isSome = true →
    Runs (.skimStatus c r dst) s fun t =>
      t.agg.skim.asks = s.agg.skim.asks ++ [{ round := r.toNat, ring := c.ring.val, tag := c.tag.toNat, dst := dst.toNat }])

/-- Stations, their runs and their tests do what R406, R434 to R447 and R640 say. Where these rules leave a point open, a clause follows the model's
choice (log entries 81 to 83). -/
def Obligations.StationCommands : Prop :=
  -- STATION_RUN RUN (R434, R435): a chain of intact descriptors inside the caller's windows joins the runs
  (∀ (s : State) (c : Caller) (addr : BitVec 48) (count : BitVec 7) (ds : List (List Byte)), s.agg.takes c → s.agg.boot.ready = true → 1 ≤ count.toNat →
    count.toNat ≤ 64 → s.agg.outside c.ring.val addr.toNat (128 * count.toNat) = none →
    ds = (List.range count.toNat).map (fun i => s.agg.read (addr.toNat + 128 * i) 128) → (∀ d ∈ ds, (readRun d).intact = true) →
    (∀ d ∈ ds, (readRun d).outside (asAreas (s.agg.windowsOf c.ring.val)) [] 0 = none) → (∀ d ∈ ds, s.agg.descCodes (readRun d) = []) →
    (∀ r ∈ s.agg.stn.runs, r.who ≠ .command c.ring c.tag) →
    Runs (.stationRun c addr count) s fun t => ∃ r ∈ t.agg.stn.runs, r.who = .command c.ring c.tag ∧ r.ctx = ctxOf c ∧ r.descs = ds ∧ r.idx = 0) ∧
  -- STATION_RUN KAT (R436): the given set, or a run of the context's own program, on one station; digest, tiles done and flags are the station's
  (∀ (s : State) (c : Caller) (kind : BitVec 3) (k : BitVec 8) (own : Bool) (run : BitVec 4) (pass : Bool) (cycles : BitVec 32), s.agg.takes c →
    s.agg.boot.ready = true → k.toNat ≠ 0xFF → k.toNat < s.agg.builtOf kind.toNat →
    (own = true → ctxOf c ≠ 0 ∧ ∃ m, ((s.agg.job (ctxOf c)).active = some m ∨ ((s.agg.job (ctxOf c)).active = none ∧ (s.agg.job (ctxOf c)).pending = some m)) ∧
      run.toNat < m.program.length) →
    Runs (.stationKat c kind k own run pass cycles) s fun t => ∃ f : Nat → Nat,
      t.agg.Completed c 0x40 (runResults (if own then run.toNat else 0) kind.toNat k.toNat (f 0) cycles.toNat (f 2 % 16 + 64 * b2n pass) (f 1 % 2 ^ 64))) ∧
  -- STATION_RUN SERVICE (R437, R447)
  (∀ (s : State) (c : Caller) (kind : BitVec 3) (k : BitVec 8) (on : Bool), s.agg.takes c → c.ring.val = 0 → s.agg.boot.ready = true →
    kind.toNat = 2 ∨ kind.toNat = 3 → k.toNat < s.agg.builtOf kind.toNat → k.toNat < 24 →
    Runs (.stationService c kind k on) s fun t => t.agg.Completed c 0x40 (runResults 0 0 0 0 0 0 0) ∧
      (on = false → (t.agg.station kind.toNat k.toNat).state = 3) ∧
      (on = true → (s.agg.station kind.toNat k.toNat).state = 3 → (t.agg.station kind.toNat k.toNat).state = 0 ∧ (t.agg.station kind.toNat k.toNat).due = true)) ∧
  -- STATION_RUN STATUS (R438): the run log of a window, padded to 256 bytes
  (∀ (s : State) (c : Caller) (w dst : BitVec 48), s.agg.takes c → s.agg.boot.ready = true → ctxOf c ≠ 0 → (s.agg.score (ctxOf c)).nextCut ≤ w.toNat + 64 →
    s.agg.outside c.ring.val dst.toNat 256 = none →
    Runs (.stationStatus c w dst) s fun t => t.agg.Completed c 0x40 (runResults 0 0 0 0 0 0 0) ∧
      t.agg.mem = (s.agg.write dst.toNat (padTo 256 ((((s.agg.score (ctxOf c)).runLog.find? (·.1 = w.toNat)).map (·.2)).getD []).flatten)).mem) ∧
  -- WINDOW_PROGRAM_START (R406): the oldest built window, once no window before it is still in its program
  (∀ (s : State) (n : Fin 17) (x : WinState), 0 < n.val → s.agg.fwRuns = true → (s.agg.score n.val).wins.find? (fun x => decide (x.stage = .built)) = some x →
    ((s.agg.score n.val).wins.any fun y => decide (y.stage = .running ∨ y.stage = .programmed)) = false → ((s.agg.job n.val).modelAt x.window).program ≠ [] →
    (∀ d ∈ ((s.agg.job n.val).modelAt x.window).program, (readRun d).outside (asAreas (s.agg.jobAreas n.val)) [] (s.agg.job n.val).dies.length = none) →
    (∀ r ∈ s.agg.stn.runs, r.who ≠ .program n) →
    Runs (.windowProgramStart n) s fun t => ∃ r ∈ t.agg.stn.runs, r.who = .program n ∧ r.ctx = n.val ∧ r.window = x.window ∧
      r.descs = ((s.agg.job n.val).modelAt x.window).program ∧ r.idx = 0) ∧
  -- a program that would leave the job's areas fails without a run (R415, R440)
  (∀ (s : State) (n : Fin 17) (x : WinState), 0 < n.val → s.agg.fwRuns = true → (s.agg.score n.val).wins.find? (fun x => decide (x.stage = .built)) = some x →
    ((s.agg.score n.val).wins.any fun y => decide (y.stage = .running ∨ y.stage = .programmed)) = false →
    (∃ d ∈ ((s.agg.job n.val).modelAt x.window).program, (readRun d).outside (asAreas (s.agg.jobAreas n.val)) [] (s.agg.job n.val).dies.length ≠ none) →
    Runs (.windowProgramStart n) s fun t => wbit (t.agg.reg 0x60010) 6 = true ∧ ∀ y ∈ (t.agg.score n.val).wins, y.window = x.window → y.stage = .programmed) ∧
  (∀ (s : State) (n : Fin 17) (x : WinState), 0 < n.val → s.agg.fwRuns = true → (s.agg.score n.val).wins.find? (fun x => decide (x.stage = .built)) = some x →
    ((s.agg.score n.val).wins.any fun y => decide (y.stage = .running ∨ y.stage = .programmed)) = false → ((s.agg.job n.val).modelAt x.window).program = [] →
    Runs (.windowProgramStart n) s fun t => ∀ y ∈ (t.agg.score n.val).wins, y.window = x.window → y.stage = .programmed) ∧
  -- RUN_COMPLETE (R404, R435): the chain goes on with its next run or ends, and the result of a run that is alone lies in memory
  (∀ (s : State) (ref : RunRef) (cycles corrected : BitVec 32) (r : RunJob) (k : Nat), s.agg.fwRuns = true →
    s.agg.stn.runs.find? (fun x => decide (x.who = ref)) = some r → r.station = some k → s.agg.hasStation r k = true → r.idx + 1 < r.descs.length →
    Runs (.runComplete ref cycles corrected none) s fun t =>
      (s.agg.stn.runs = [r] → t.agg.mem = (runFrom r.desc r.window (r.desc.count (s.agg.job r.ctx).dies.length) r.part s.agg.mem).mem) ∧
      ∃ r' ∈ t.agg.stn.runs, r'.who = ref ∧ r'.idx = r.idx + 1 ∧ r'.descs = r.descs) ∧
  (∀ (s : State) (ring : Fin 17) (tag : BitVec 16) (cycles corrected : BitVec 32) (r : RunJob) (k : Nat), s.agg.fwRuns = true →
    s.agg.stn.runs.find? (fun x => decide (x.who = .command ring tag)) = some r → r.station = some k → s.agg.hasStation r k = true → r.descs.length ≤ r.idx + 1 →
    Runs (.runComplete (.command ring tag) cycles corrected none) s fun t =>
      (s.agg.stn.runs = [r] → t.agg.mem = (runFrom r.desc r.window (r.desc.count (s.agg.job r.ctx).dies.length) r.part s.agg.mem).mem) ∧
      ∀ r' ∈ t.agg.stn.runs, r'.who ≠ .command ring tag) ∧
  -- SCORING_SKIP (R640): 32 windows behind, the window is scored as missing
  (∀ (s : State) (n : Fin 17) (x : WinState), 0 < n.val → s.agg.fwRuns = true → (s.agg.score n.val).wins.find? (fun x => decide (x.stage = .built)) = some x →
    x.window + 32 ≤ (s.agg.score n.val).nextCut →
    Runs (.scoringSkip n) s fun t => ∀ y ∈ (t.agg.score n.val).dieWins, y.window = x.window → y.scores = List.replicate 8 qNan) ∧
  -- STATION_SAND_DUE (R445): a due, idle station goes under test where another of its kind is in service
  (∀ (s : State) (kind : BitVec 3) (k : BitVec 8) (j : Nat), kind.toNat = 2 ∨ kind.toNat = 3 → k.toNat < s.agg.builtOf kind.toNat → k.toNat < 24 →
    (s.agg.station kind.toNat k.toNat).state = 0 → s.agg.fwRuns = true → s.agg.sandOn = true →
    (s.agg.station kind.toNat k.toNat).due = true ∨ (s.agg.station kind.toNat k.toNat).lastPass + s.agg.sandInterval ≤ s.agg.life →
    s.agg.anyUnderTest = false → s.agg.stationBusy kind.toNat k.toNat = false → (s.agg.station kind.toNat k.toNat).again = false → j ∈ s.agg.stationList kind.toNat → j ≠ k.toNat →
    Runs (.stationSandDue kind k) s fun t => (t.agg.station kind.toNat k.toNat).state = 1) ∧
  -- STATION_SAND_FORCE (R446): at twice the interval whatever work it has; that work is another's
  (∀ (s : State) (kind : BitVec 3) (k : BitVec 8), kind.toNat = 2 ∨ kind.toNat = 3 → k.toNat < s.agg.builtOf kind.toNat → k.toNat < 24 →
    (s.agg.station kind.toNat k.toNat).state = 0 → s.agg.fwRuns = true → s.agg.sandOn = true →
    (s.agg.station kind.toNat k.toNat).lastPass + 2 * s.agg.sandInterval ≤ s.agg.life → s.agg.anyUnderTest = false →
    (s.agg.station kind.toNat k.toNat).again = false →
    Runs (.stationSandForce kind k) s fun t => (t.agg.station kind.toNat k.toNat).state = 1) ∧
  -- STATION_TEST_RESULT (R447): pass; a first fail is tested again; a second takes the station out of service
  (∀ (s : State) (kind : BitVec 3) (k : BitVec 8) (pass : Bool), s.agg.fwRuns = true → (s.agg.station kind.toNat k.toNat).state = 1 →
    (s.agg.station kind.toNat k.toNat).must = false →
    Runs (.stationTestResult kind k pass) s fun t =>
      (pass = true → (t.agg.station kind.toNat k.toNat).state = 0 ∧ (t.agg.station kind.toNat k.toNat).lastPass = s.agg.life ∧
        (t.agg.station kind.toNat k.toNat).due = false) ∧
      (pass = false → (t.agg.station kind.toNat k.toNat).state = 2)) ∧
  (∀ (s : State) (kind : BitVec 3) (k : BitVec 8) (pass : Bool), s.agg.fwRuns = true → (s.agg.station kind.toNat k.toNat).state = 2 →
    (s.agg.station kind.toNat k.toNat).must = false →
    Runs (.stationTestResult kind k pass) s fun t => (t.agg.station kind.toNat k.toNat).state = if pass then 0 else 3)

/-- Ensembles, samples and the Entity Table do what R455 to R480 say. Where these rules leave a point open, a clause follows the model's choice (log
entry 84). -/
def Obligations.StencilCommands : Prop :=
  -- RANK_CODE (R461): each die-window of the oldest programmed window waits as a sample of every ensemble in force for it
  (∀ (s : State) (n : Fin 17) (x : WinState) (d : DieWin) (e : Fin 4) (c : EnsCopy), s.agg.fwRuns = true →
    (s.agg.score n.val).wins.find? (fun x => decide (x.stage = .programmed)) = some x → d ∈ (s.agg.score n.val).dieWins → d.window = x.window →
    (s.agg.ensSlot n.val e.val).copyFor x.window = some c →
    Runs (.rankCode n) s fun t => ∃ y ∈ t.agg.stencil.samples, y.ctx = n.val ∧ y.slot = e.val ∧ y.window = x.window ∧ y.pos = d.pos ∧ y.image = c.image ∧
      y.sum = (imageOf c.image).base ∧ y.feats = d.coded (readFeatures ((s.agg.job n.val).modelAt x.window).feature) (s.agg.rowOf n.val d)) ∧
  -- STENCIL_LOOKUP (R470 to R474): the result of the compiled entries, or of a faulty bank: one that is a leaf adds to SUM, and the last of them
  -- completes the sample, whose record is written; one that is no leaf leads on; no result is a fault of the sample and of its bank
  (∀ (s : State) (n : Fin 17) (e : Fin 4) (t tree : BitVec 16) (hits : Option (List (Nat × Bool))) (y : Sample) (node r : Nat), s.agg.fwRuns = true →
    s.agg.inFlight.find? (fun y => decide (y.ctx = n.val ∧ y.slot = e.val ∧ y.pos = t.toNat) && y.walks.any (·.1 = tree.toNat)) = some y →
    y.walks.find? (·.1 = tree.toNat) = some (tree.toNat, node) → hits.getD (y.results tree.toNat node) = [(r, false)] → r.testBit 24 = true →
    Runs (.stencilLookup n e t tree hits) s fun u =>
      let z : Sample := { y with lookups := y.lookups + 1, walks := y.walks.filter (·.1 ≠ tree.toNat), sum := y.sum + signedOf 24 r }
      (z.walks ≠ [] → z ∈ u.agg.stencil.samples) ∧
      (z.walks = [] → u.agg.mem = (s.agg.write (((s.agg.job y.ctx).modelAt y.window).base 2 + 1024 * y.slot + 16 * y.pos) z.bytes).mem)) ∧
  (∀ (s : State) (n : Fin 17) (e : Fin 4) (t tree : BitVec 16) (hits : Option (List (Nat × Bool))) (y : Sample) (node r : Nat), s.agg.fwRuns = true →
    s.agg.inFlight.find? (fun y => decide (y.ctx = n.val ∧ y.slot = e.val ∧ y.pos = t.toNat) && y.walks.any (·.1 = tree.toNat)) = some y →
    y.walks.find? (·.1 = tree.toNat) = some (tree.toNat, node) → hits.getD (y.results tree.toNat node) = [(r, false)] → r.testBit 24 = false →
    Runs (.stencilLookup n e t tree hits) s fun u =>
      { y with lookups := y.lookups + 1, walks := (tree.toNat, r % 65536) :: y.walks.filter (·.1 ≠ tree.toNat) } ∈ u.agg.stencil.samples) ∧
  (∀ (s : State) (n : Fin 17) (e : Fin 4) (t tree : BitVec 16) (hits : Option (List (Nat × Bool))) (y : Sample) (node : Nat), s.agg.fwRuns = true →
    s.agg.inFlight.find? (fun y => decide (y.ctx = n.val ∧ y.slot = e.val ∧ y.pos = t.toNat) && y.walks.any (·.1 = tree.toNat)) = some y →
    y.walks.find? (·.1 = tree.toNat) = some (tree.toNat, node) → y.walks.filter (·.1 ≠ tree.toNat) ≠ [] → hits.getD (y.results tree.toNat node) = [] →
    Runs (.stencilLookup n e t tree hits) s fun u => wbit (u.agg.reg 0x70000) 0 = true ∧ s.agg.bankOf y tree.toNat ∈ u.agg.stencil.faulty ∧
      { y with lookups := y.lookups + 1, walks := y.walks.filter (·.1 ≠ tree.toNat), flags := y.flags ||| 2 } ∈ u.agg.stencil.samples) ∧
  -- TCAM_BANK_REWRITE (R474)
  (∀ (s : State) (b : BitVec 8), s.agg.fwRuns = true → Runs (.tcamBankRewrite b) s fun t => b.toNat ∉ t.agg.stencil.faulty) ∧
  -- ENTITY_WRITE (R456 to R458): PUT, DELETE, READ and STATUS complete with the count and the digest of the table in force
  (∀ (s : State) (c : Caller) (die : BitVec 32) (src act : BitVec 48), s.agg.takes c → c.ring.val = 0 → s.agg.outside 0 src.toNat 256 = none →
    entryBad die.toNat (s.agg.read src.toNat 256) = false → s.agg.actStale act.toNat = false → s.agg.entityPending < 256 →
    s.agg.entityDies.contains die.toNat = true ∨ s.agg.entityDies.length < 4096 →
    Runs (.entityPut c die src act) s fun t => t.agg.stencil.entities =
        insertWrite { die := die.toNat, act := s.agg.actWindow act.toNat, entry := some (s.agg.read src.toNat 256) } s.agg.stencil.entities ∧
      t.agg.Completed c 0x42 [(13, (t.agg.entitiesAt s.agg.openWindow).length), (64, t.agg.tableDigest s.agg.openWindow)]) ∧
  (∀ (s : State) (c : Caller) (die : BitVec 32) (act : BitVec 48), s.agg.takes c → c.ring.val = 0 → s.agg.actStale act.toNat = false → s.agg.entityPending < 256 →
    Runs (.entityDelete c die act) s fun t => t.agg.stencil.entities =
        insertWrite { die := die.toNat, act := s.agg.actWindow act.toNat, entry := none } s.agg.stencil.entities ∧
      t.agg.Completed c 0x42 [(13, (t.agg.entitiesAt s.agg.openWindow).length), (64, t.agg.tableDigest s.agg.openWindow)]) ∧
  (∀ (s : State) (c : Caller) (die : BitVec 32) (dst : BitVec 48) (e : List Byte), s.agg.takes c → c.ring.val = 0 →
    s.agg.entityAt die.toNat s.agg.openWindow = some e → s.agg.outside 0 dst.toNat 256 = none →
    Runs (.entityRead c die dst) s fun t => t.agg.mem = (s.agg.write dst.toNat e).mem ∧
      t.agg.Completed c 0x42 [(13, (s.agg.entitiesAt s.agg.openWindow).length), (64, s.agg.tableDigest s.agg.openWindow)]) ∧
  (∀ (s : State) (c : Caller), s.agg.takes c → c.ring.val = 0 →
    Runs (.entityStatus c) s fun t => t.agg.Completed c 0x42 [(13, (s.agg.entitiesAt s.agg.openWindow).length), (64, s.agg.tableDigest s.agg.openWindow)]) ∧
  -- STENCIL_LOAD (R477, R478): a good image is the pending copy; ACTIVATE and UNLOAD set the window of the change
  (∀ (s : State) (c : Caller) (e : BitVec 2) (addr : BitVec 48) (len : BitVec 32) (g : Agg), s.agg.takes c → s.agg.boot.ready = true → ctxOf c ≠ 0 →
    s.agg.outside c.ring.val addr.toNat len.toNat = none → s.agg.loadChecked (ctxOf c) e.toNat (s.agg.read addr.toNat len.toNat) = .ok g →
    Runs (.stencilLoad c e addr len) s fun t => ∃ x, (t.agg.ensSlot (ctxOf c) e.toNat).pending = some x ∧ x.image = s.agg.read addr.toNat len.toNat ∧
      (t.agg.ensSlot (ctxOf c) e.toNat).acts = (s.agg.ensSlot (ctxOf c) e.toNat).acts.filter (·.2)) ∧
  (∀ (s : State) (c : Caller) (e : BitVec 2) (act : BitVec 48), s.agg.takes c → s.agg.boot.ready = true → ctxOf c ≠ 0 →
    (s.agg.ensSlot (ctxOf c) e.toNat).pending.isSome = true → s.agg.actStale act.toNat = false →
    Runs (.stencilActivate c e act) s fun t => (t.agg.ensSlot (ctxOf c) e.toNat).acts = insertAct (s.agg.actWindow act.toNat, false) (s.agg.ensSlot (ctxOf c) e.toNat).acts) ∧
  (∀ (s : State) (c : Caller) (e : BitVec 2) (act : BitVec 48), s.agg.takes c → s.agg.boot.ready = true → ctxOf c ≠ 0 →
    s.agg.actStale act.toNat = false →
    Runs (.stencilUnload c e act) s fun t => t.agg.Completed c 0x41 (t.agg.stencilResults (ctxOf c) e.toNat) ∧
      ((s.agg.ensSlot (ctxOf c) e.toNat).active.isSome = true ∨ (s.agg.ensSlot (ctxOf c) e.toNat).pending.isSome = true →
        (t.agg.ensSlot (ctxOf c) e.toNat).acts = insertAct (s.agg.actWindow act.toNat, true) (s.agg.ensSlot (ctxOf c) e.toNat).acts)) ∧
  (∀ (s : State) (c : Caller) (e : BitVec 2), s.agg.takes c → s.agg.boot.ready = true → ctxOf c ≠ 0 →
    Runs (.stencilStatus c e) s fun t => t.agg.Completed c 0x41 (s.agg.stencilResults (ctxOf c) e.toNat)) ∧
  -- ENSEMBLE_FREE (R478): with no window before the change still open, the old copy is gone
  (∀ (s : State) (n : Fin 17) (e : Fin 4), s.agg.fwRuns = true →
    ((s.agg.job n.val).state = .active ∨ (s.agg.job n.val).state = .draining → (s.agg.ensSlot n.val e.val).since ≤ (s.agg.score n.val).nextCut ∧
      ∀ x ∈ (s.agg.score n.val).wins, x.window < (s.agg.ensSlot n.val e.val).since → x.stage = .scored) →
    Runs (.ensembleFree n e) s fun t => (t.agg.ensSlot n.val e.val).old = [])

/-- Rank deadlines, placing and the Dust Sheet do what R483 to R502 say. Where these rules leave a point open, a clause follows the model's choice
(log entries 85, 86 and 124). -/
def Obligations.LevelCommands : Prop :=
  -- RANK_DEADLINE (R484): once it has passed, a round with no DOWN in use is unranked
  (∀ (s : State) (r : BitVec 40) (x : Round), s.agg.fwRuns = true → s.agg.roundOf r.toNat = some x → x.rankAt ≤ s.agg.ht →
    Runs (.rankDeadline r) s fun t => ∃ y, t.agg.roundOf r.toNat = some y ∧ y.deadlined = true ∧ (x.used = none → x.placed = false → y.unranked = true)) ∧
  -- LEVEL_PLACE (R486): the oldest round whose ranks and scores are in is placed
  (∀ (s : State) (x : Round), s.agg.fwRuns = true → s.agg.skim.rounds.find? (fun x => !x.placed) = some x → x.used.isSome = true ∨ x.unranked = true →
    (∀ n ∈ jobNumbers, s.agg.jobReady x n = true) →
    Runs .levelPlace s fun t => t.agg.skim.rounds = s.agg.skim.rounds.map fun y => if y.num = x.num then { y with placed := true } else y) ∧
  -- DUSTSHEET_SET (R502): a change waits for the first close at least 2 ms ahead
  (∀ (s : State) (c : Caller) (budget : BitVec 16) (mean : BitVec 5) (minMean : BitVec 16) (metric : Option (BitVec 10)) (allow : Bool),
    s.agg.takes c → c.ring.val = 0 → 1 ≤ mean.toNat → mean.toNat ≤ 24 →
    (∀ m, metric = some m → ∃ d ∈ s.agg.skim.set.defs ++ ((s.agg.skim.pendSet.map (·.defs)).getD []), d.ident = m.toNat ∧ d.source = 1 ∧ d.tag = 1088) →
    Runs (.dustsheetConfigure c budget mean minMean metric allow) s fun t => t.agg.verdicts.dust.waiting = s.agg.verdicts.dust.waiting ++
        [(s.agg.ht + 2000000, .configure ⟨budget.toNat, mean.toNat, minMean.toNat, metric.map (·.toNat), allow⟩)] ∧
      t.agg.Completed c 0x51 s.agg.dustResults) ∧
  (∀ (s : State) (c : Caller), s.agg.takes c → c.ring.val = 0 → s.agg.verdicts.dust.suspect = true →
    Runs (.dustsheetClearSuspect c) s fun t => t.agg.verdicts.dust.waiting = s.agg.verdicts.dust.waiting ++ [(s.agg.ht + 2000000, .clear)] ∧
      t.agg.Completed c 0x51 s.agg.dustResults) ∧
  (∀ (s : State) (c : Caller) (addr : BitVec 48), s.agg.takes c → c.ring.val = 0 → s.agg.outside c.ring.val addr.toNat 48 = none →
    Runs (.dustsheetSeed c addr) s fun t => t.agg.verdicts.dust.waiting = s.agg.verdicts.dust.waiting ++
        [(s.agg.ht + 2000000, .seed ((List.range 24).map fun i => s.agg.readNat (addr.toNat + 2 * i) 2))] ∧
      t.agg.Completed c 0x51 s.agg.dustResults) ∧
  (∀ (s : State) (c : Caller), s.agg.takes c → c.ring.val = 0 → Runs (.dustsheetStatus c) s fun t => t.agg.Completed c 0x51 s.agg.dustResults)

/-- Expulsions and the reading of records do what R506, R507 and R516 say. Where these rules leave a point open, a clause follows the model's
choice (log entries 86 and 124). -/
def Obligations.ExpulsionCommands : Prop :=
  -- EXPEL_APPLY (R506, R507): the die is EXPELLED from FROM_WINDOW, on this module and on the partner alike
  (∀ (s : State) (c : Caller) (die : BitVec 32) (raised frm expiry tokens : BitVec 48) (count : BitVec 3) (t : Nat), s.agg.takes c →
    s.agg.outside c.ring.val tokens.toNat (40 * count.toNat) = none → s.agg.posOf (ctxOf c) die.toNat = some t →
    s.agg.expelCodes (ctxOf c) (decide (c.ring.val ≠ 0)) die.toNat raised.toNat frm.toNat expiry.toNat count.toNat true
      (s.agg.read tokens.toNat (40 * count.toNat)) = [] →
    Runs (.expelApply c die raised frm expiry tokens count) s fun u => u.agg.Completed c 0x52 [] ∧
      u.agg.imageAt (ctxOf c) t = (if (s.agg.imageAt (ctxOf c) t).action = 3 then s.agg.imageAt (ctxOf c) t
        else { s.agg.imageAt (ctxOf c) t with action := 3, expelFrom := s.agg.actWindow frm.toNat })) ∧
  (∀ (s : State) (n : Fin 17) (die : BitVec 32) (raised frm expiry : BitVec 48) (token : List Byte) (t : Nat), s.agg.linksLive = true → s.agg.partnerUp = true →
    0 < n.val → s.agg.posOf n.val die.toNat = some t →
    s.agg.expelCodes n.val false die.toNat raised.toNat frm.toNat expiry.toNat (token.length / 40) true token = [] →
    Runs (.expelForwardReceive n die raised frm expiry token) s fun u =>
      u.agg.imageAt n.val t = (if (s.agg.imageAt n.val t).action = 3 then s.agg.imageAt n.val t
        else { s.agg.imageAt n.val t with action := 3, expelFrom := s.agg.actWindow frm.toNat })) ∧
  (∀ (s : State) (c : Caller) (die : BitVec 32) (t : Nat), s.agg.takes c → c.ring.val = 0 → ctxOf c ≠ 0 → s.agg.posOf (ctxOf c) die.toNat = some t →
    Runs (.expelRestore c die) s fun u => u.agg.Completed c 0x52 [] ∧
      (u.agg.score (ctxOf c)).restores = (s.agg.score (ctxOf c)).restores ++
        (if (s.agg.imageAt (ctxOf c) t).action = 3 then [(t, s.agg.openWindow + 2)] else [])) ∧
  -- VERDICT_READ (R516): the records of the windows and dies asked for, and the entries of the recommendation ring from a SEQ on
  (∀ (s : State) (c : Caller) (die : BitVec 32) (first : BitVec 48) (windows : BitVec 16) (dst : BitVec 48) (ts : List Nat) (cells : List (Nat × Nat)),
    s.agg.takes c → ctxOf c ≠ 0 →
    ts = (if die.toNat = 0 then List.range (s.agg.job (ctxOf c)).dies.length else (s.agg.posOf (ctxOf c) die.toNat).toList) → (die ≠ 0 → ts ≠ []) →
    cells = ((List.range windows.toNat).map (first.toNat + ·)).flatMap (fun w => ts.map fun t => (w, t)) →
    (windows ≠ 0 → ∃ v, (s.agg.score (ctxOf c)).vWritten = some v ∧ first.toNat + windows.toNat - 1 ≤ v ∧ (s.agg.job (ctxOf c)).firstAct ≤ first.toNat) →
    (∀ v, (s.agg.score (ctxOf c)).vWritten = some v → v < first.toNat + (s.agg.job (ctxOf c)).recordWindows) →
    (∀ x ∈ cells, (s.agg.recordFlags (ctxOf c) x.1 x.2).testBit 7 = false) →
    s.agg.outside c.ring.val dst.toNat (40 * cells.length) = none →
    Runs (.verdictReadRecords c die first windows dst) s fun u =>
      (∃ h : Agg, u.agg = h.complete (who c) 0x50 (if cells.any (fun x => (s.agg.recordFlags (ctxOf c) x.1 x.2).testBit 8) then .contested else .ok)
        [(32, cells.length), (48, first.toNat + windows.toNat)]) ∧
      u.agg.mem = (s.agg.write dst.toNat (cells.flatMap fun x => s.agg.read ((s.agg.job (ctxOf c)).recordAddr x.1 x.2) 40)).mem) ∧
  (∀ (s : State) (c : Caller) (frm : BitVec 32) (mx : BitVec 16) (dst : BitVec 48) (l : List RecEntry), s.agg.takes c →
    (s.agg.verdicts.nextRec + 2 ^ 32 - frm.toNat) % 2 ^ 32 ≤ s.agg.verdicts.recs.length →
    l = s.agg.verdicts.recs.filter (fun e => decide ((s.agg.verdicts.nextRec + 2 ^ 32 - e.seq) % 2 ^ 32 ≤ (s.agg.verdicts.nextRec + 2 ^ 32 - frm.toNat) % 2 ^ 32 ∧
      (s.agg.verdicts.nextRec + 2 ^ 32 - e.seq) % 2 ^ 32 ≠ 0 ∧ (c.ring.val = 0 ∨ e.ctx = c.ring.val))) →
    s.agg.outside c.ring.val dst.toNat (32 * mx.toNat) = none →
    Runs (.verdictReadRecs c frm mx dst) s fun u =>
      u.agg.Completed c 0x50 [(32, (l.take mx.toNat).length), (48, ((l[mx.toNat]?).map (·.seq)).getD s.agg.verdicts.nextRec)] ∧
      u.agg.mem = (s.agg.write dst.toNat ((l.take mx.toNat).flatMap (·.bytes))).mem)

/-- Pair summaries and the end of a dispute do what R510, R511, R513, R515 and R517 say. Where these rules leave a point open, a clause follows
the model's choice (log entry 87). -/
def Obligations.PairCheckCommands : Prop :=
  -- PAIR_SUMMARY_RECEIVE (R510, R511): before the round is placed it waits; a digest that differs opens a dispute
  (∀ (s : State) (m : List Byte), s.agg.linksLive = true → s.agg.partnerUp = true → summaryGood m = true → s.agg.placedOf (leAt m 2 1) (leAt m 4 5) = none →
    Runs (.pairSummaryReceive m) s fun t => (leAt m 2 1, leAt m 4 5, m) ∈ t.agg.verdicts.summaries) ∧
  (∀ (s : State) (m : List Byte) (p : PlacedRound), s.agg.linksLive = true → s.agg.partnerUp = true → summaryGood m = true →
    s.agg.placedOf (leAt m 2 1) (leAt m 4 5) = some p → p.checked = false →
    Runs (.pairSummaryReceive m) s fun t => t.agg.reg 0x80020 = BitVec.ofNat 32 (leAt m 4 5) ∧
      (leAt m 16 8 = p.digest → t.agg.verdicts.disputes = s.agg.verdicts.disputes) ∧
      (leAt m 16 8 ≠ p.digest → ∃ d ∈ t.agg.verdicts.disputes, d.ctx = leAt m 2 1 ∧ d.round = leAt m 4 5 ∧ d.localDigest = p.digest ∧
        d.partnerDigest = leAt m 16 8 ∧ d.late = p.unchecked)) ∧
  -- PAIR_SUMMARY_LATE (R511): 150 microseconds after the rank deadline the round is UNCHECKED
  (∀ (s : State) (n : Fin 17) (r : BitVec 40) (p : PlacedRound), s.agg.fwRuns = true → s.agg.placedOf n.val r.toNat = some p → p.checked = false →
    p.unchecked = false → p.deadline + 150000 ≤ s.agg.ht →
    Runs (.pairSummaryLate n r) s fun t => wbit (t.agg.reg 0x80000) 4 = true) ∧
  -- DISAGREE_ADOPT (R513): the partner's state image and feature rows of the die replace this side's
  (∀ (s : State) (n : Fin 17) (r t : BitVec 40) (records image rows : List Byte) (d : Dispute), s.agg.linksLive = true → s.agg.partnerUp = true → 0 < n.val →
    s.agg.disputeOf n.val r.toNat = some d → t.toNat ∈ d.adopts →
    Runs (.disagreeAdopt n r t records image rows) s fun u =>
      (d.openDies ≠ [] ∨ d.adopts.filter (· ≠ t.toNat) ≠ [] → u.agg.imageAt n.val t.toNat = readLevelImg image ∧
        u.agg.disputeOf n.val r.toNat = some { d with adopts := d.adopts.filter (· ≠ t.toNat) } ∧
        u.agg.mem = (s.agg.write (s.agg.rowsBase n.val d.first t.toNat) (rows.take 65536)).mem) ∧
      (d.openDies = [] → d.adopts.filter (· ≠ t.toNat) = [] →
        u.agg.disputeOf n.val r.toNat = some { d with adopts := [], outcome := if d.outcome = 0 then 1 else d.outcome })) ∧
  -- DISAGREE_TIMEOUT (R515): what is still open ends CONTESTED
  (∀ (s : State) (n : Fin 17) (r : BitVec 40) (d : Dispute), s.agg.fwRuns = true → s.agg.disputeOf n.val r.toNat = some d →
    d.first + 60 ≤ s.agg.openWindow ∨ s.agg.partnerUp = false → d.openDies ≠ [] ∨ d.adopts ≠ [] →
    Runs (.disagreeTimeout n r) s fun t => ∃ d', t.agg.disputeOf n.val r.toNat = some d' ∧ d'.outcome = 4 ∧ d'.openDies = [] ∧ d'.adopts = []) ∧
  -- DISAGREE_STATUS (R517): the newest of the last 64 disputes that match
  (∀ (s : State) (c : Caller) (r : BitVec 40) (d : Dispute), s.agg.takes c →
    ((s.agg.verdicts.disputes.drop (s.agg.verdicts.disputes.length - 64)).filter fun d => (decide (ctxOf c = 0) || decide (d.ctx = ctxOf c)) && (decide (r.toNat = 0) || decide (d.round = r.toNat))).getLast? = some d →
    Runs (.disagreeStatus c r) s fun t => t.agg.Completed c 0x53 [(40, d.round), (5, d.ctx), (3, d.outcome), (2, d.step % 4), (8, d.station), (4, d.runNo),
      (48, d.window), (64, (d.dies.map (2 ^ ·)).sum), (64, d.localDigest), (64, d.partnerDigest), (1, b2n d.late)])

/-- Steps 2 and 3 of the disagreement procedure go as R512 and R515 say. Where these rules leave a point open, a clause follows the model's choice
(log entries 87 and 139). -/
def Obligations.DisputeCommands : Prop :=
  -- DISAGREE_RUN_LOG_RECEIVE (R512): the first run whose digests differ names a station; where none differs, the Stencil is tested
  (∀ (s : State) (n : Fin 17) (r : BitVec 40) (logs : List Byte) (d : Dispute) (p : PlacedRound), s.agg.linksLive = true → s.agg.partnerUp = true →
    s.agg.disputeOf n.val r.toNat = some d → s.agg.placedOf n.val r.toNat = some p → d.step = 2 → d.station = 0xFF → d.openDies ≠ [] →
    Runs (.disagreeRunLogReceive n r (some logs)) s fun t =>
      (∀ i, firstDiffer (s.agg.roundLogs n.val p) logs p.count = some i → t.agg.disputeOf n.val r.toNat = some { d with
        station := 32 * leAt (s.agg.roundLogs n.val p) (16 * i + 1) 1 + leAt (s.agg.roundLogs n.val p) (16 * i + 2) 1 % 32, runNo := i % 16, window := p.first + i / 16 }) ∧
      (firstDiffer (s.agg.roundLogs n.val p) logs p.count = none → t.agg.disputeOf n.val r.toNat = some { d with station := 128, window := p.first })) ∧
  -- (R515) the second CRC failure ends the dispute
  (∀ (s : State) (n : Fin 17) (r : BitVec 40) (d : Dispute) (p : PlacedRound), s.agg.linksLive = true → s.agg.partnerUp = true →
    s.agg.disputeOf n.val r.toNat = some d → s.agg.placedOf n.val r.toNat = some p → d.openDies ≠ [] →
    Runs (.disagreeRunLogReceive n r none) s fun t => ∃ d', t.agg.disputeOf n.val r.toNat = some d' ∧ d'.crcFails = d.crcFails + 1 ∧
      (1 ≤ d.crcFails → d'.outcome = 4 ∧ d'.openDies = []) ∧ (d.crcFails = 0 → d'.openDies = d.openDies)) ∧
  -- DISAGREE_KAT_RESULT (R512): the side whose test fails is wrong; when both pass, the Level station is tested after the Stencil, or step 3 begins
  (∀ (s : State) (n : Fin 17) (r : BitVec 40) (mine theirs : Bool) (d : Dispute), s.agg.fwRuns = true → s.agg.disputeOf n.val r.toNat = some d → d.step = 2 →
    d.station ≠ 0xFF → d.openDies ≠ [] →
    Runs (.disagreeKatResult n r mine theirs) s fun t => ∃ d', t.agg.disputeOf n.val r.toNat = some d' ∧
      (mine = true → theirs = true → (if d.station = 128 then d'.step = 2 ∧ d'.station = 160 else d'.step = 3) ∧ d'.openDies = d.openDies) ∧
      (mine = false → theirs = true → d'.outcome = 2 ∧ d'.openDies = []) ∧
      (mine = true → theirs = false → d'.outcome = 3 ∧ d'.openDies = []) ∧ (mine = false → theirs = false → d'.outcome = 4 ∧ d'.openDies = [])) ∧
  -- DISAGREE_REDIGEST_RECEIVE (R512): both sides computed what this side had: the partner was wrong; what the partner had: this side was wrong;
  -- anything else is contested
  (∀ (s : State) (n : Fin 17) (r : BitVec 40) (fault : Option (BitVec 64)) (theirs : BitVec 64) (d : Dispute) (p : PlacedRound) (mine : Nat),
    s.agg.linksLive = true → s.agg.partnerUp = true →
    s.agg.disputeOf n.val r.toNat = some d → s.agg.placedOf n.val r.toNat = some p → d.step = 3 → d.openDies ≠ [] →
    mine = (fault.map (·.toNat)).getD (s.agg.newDigest n.val p d.openDies) →
    Runs (.disagreeRedigestReceive n r fault theirs) s fun t => ∃ d', t.agg.disputeOf n.val r.toNat = some d' ∧ d'.openDies = [] ∧
      (mine = theirs.toNat → d.localDigest = mine → d.partnerDigest ≠ mine → d'.outcome = 3) ∧
      (mine = theirs.toNat → d.localDigest ≠ mine → d.partnerDigest = mine → d'.outcome = 2) ∧
      (mine ≠ theirs.toNat ∨ (d.localDigest = mine ↔ d.partnerDigest = mine) → d'.outcome = 4))

/-- Doorbell pages and datagrams do what R522 to R530 and R540 say. Where these rules leave a point open, a clause follows the model's choice (log
entry 90). -/
def Obligations.RingCommands : Prop :=
  -- SQ_DOORBELL (R524): a tail between the old one and 256 past the head is taken; any other faults the ring (R540)
  (∀ (s : State) (n : Fin 17) (v : Word), s.agg.fwRuns = true → n ≠ 0 → (s.agg.ring n.val).bound = true → (s.agg.ring n.val).rdma = true →
    s.agg.ringQp n.val = true →
    Runs (.sqDoorbell n v) s fun t =>
      ((v.toNat + 2 ^ 32 - (s.agg.ring n.val).sqHead) % 2 ^ 32 ≤ 256 →
        ((s.agg.ring n.val).sqTail + 2 ^ 32 - (s.agg.ring n.val).sqHead) % 2 ^ 32 ≤ (v.toNat + 2 ^ 32 - (s.agg.ring n.val).sqHead) % 2 ^ 32 →
        (t.agg.ring n.val).sqTail = v.toNat) ∧
      (256 < (v.toNat + 2 ^ 32 - (s.agg.ring n.val).sqHead) % 2 ^ 32 ∨ (v.toNat + 2 ^ 32 - (s.agg.ring n.val).sqHead) % 2 ^ 32 <
          ((s.agg.ring n.val).sqTail + 2 ^ 32 - (s.agg.ring n.val).sqHead) % 2 ^ 32 →
        (t.agg.ring n.val).faulted = true ∧ (t.agg.ring n.val).sqTail = (s.agg.ring n.val).sqTail)) ∧
  -- and the page of a ring that is not on RDMA takes nothing (R522, R530)
  (∀ (s : State) (n : Fin 17) (v : Word), s.agg.fwRuns = true → n = 0 ∨ (s.agg.ring n.val).bound = false ∨ (s.agg.ring n.val).rdma = false ∨
      s.agg.ringQp n.val = false →
    Runs (.sqDoorbell n v) s fun t => t = s) ∧
  -- CQ_HEAD_WRITE (R12, R525): the field takes what is written, and the completions before it are consumed; a page that is shut takes nothing (R530)
  (∀ (s : State) (n : Fin 17) (v : Word), s.agg.fwRuns = true →
    Runs (.cqHeadWrite n v) s fun t =>
      (s.agg.pageShut n.val = false → (t.agg.ring n.val).cqHead = v.toNat ∧
        (t.agg.ring n.val).cqKept = (s.agg.ring n.val).cqKept.drop ((v.toNat + 2 ^ 32 - (s.agg.ring n.val).cqHead) % 2 ^ 32)) ∧
      (s.agg.pageShut n.val = true → t = s)) ∧
  -- MBX_RESTART (R540)
  (∀ (s : State) (n : Fin 17), s.agg.fwRuns = true →
    Runs (.mbxRestart n) s fun t =>
      (s.agg.pageShut n.val = false → t.agg.ring n.val = ({ s.agg.ring n.val with faulted := false } : Ring)) ∧ (s.agg.pageShut n.val = true → t = s)) ∧
  -- UDP_SUBMIT (R529): in session, in sequence and with room, the descriptors are appended, and the peer's sequence moves on
  (∀ (s : State) (addr : BitVec 128) (port : BitVec 16) (m : List Byte) (n i : Nat) (p : Peer), s.agg.admits = true → n = leAt m 3 1 → n ≤ 16 →
    (s.agg.ring n).peerIndex addr.toNat port.toNat = some i → (s.agg.ring n).peers[i]? = some p → datagramGood (s.agg.ring n).key m = true → leAt m 2 1 = 1 →
    leAt m 4 4 = s.agg.mbx.session → leAt m 8 4 = (p.lastSeq + 1) % 2 ^ 32 →
    ((s.agg.ring n).sqTail + 2 ^ 32 - (s.agg.ring n).sqHead) % 2 ^ 32 + leAt m 12 2 ≤ 256 →
    Runs (.udpSubmit addr port m) s fun t => (t.agg.ring n).peers[i]? = some ({ p with lastSeq := leAt m 8 4 } : Peer) ∧
      (0 < leAt m 12 2 → (t.agg.ring n).sqTail = ((s.agg.ring n).sqTail + leAt m 12 2) % 2 ^ 32) ∧
      ∀ k < leAt m 12 2, (t.agg.ring n).descriptor ((s.agg.ring n).sqTail + k) = bytesAt m (32 + 64 * k) 64) ∧
  -- UDP_ACK and UDP_RESEND (R530)
  (∀ (s : State) (addr : BitVec 128) (port : BitVec 16) (m : List Byte) (n i : Nat) (p : Peer), s.agg.admits = true → n = leAt m 3 1 → n ≤ 16 →
    (s.agg.ring n).peerIndex addr.toNat port.toNat = some i → (s.agg.ring n).peers[i]? = some p → datagramGood (s.agg.ring n).key m = true →
    leAt m 4 4 = s.agg.mbx.session → leAt m 2 1 = 3 →
    Runs (.udpAck addr port m) s fun t => (t.agg.ring n).peers[i]? = some ({ p with kept := p.kept.filter fun k => decide (leAt m 8 4 < k.1) } : Peer)) ∧
  (∀ (s : State) (addr : BitVec 128) (port : BitVec 16) (m : List Byte) (n i : Nat) (p : Peer), s.agg.admits = true → n = leAt m 3 1 → n ≤ 16 →
    (s.agg.ring n).peerIndex addr.toNat port.toNat = some i → (s.agg.ring n).peers[i]? = some p → datagramGood (s.agg.ring n).key m = true →
    leAt m 4 4 = s.agg.mbx.session → leAt m 2 1 = 4 →
    Runs (.udpResend addr port m) s fun t => t.agg.outbox = s.agg.outbox ++ (p.kept.filter fun k => decide (leAt m 8 4 ≤ k.1)).map fun k =>
      Out.datagram p.addr p.port (mbxDatagram (s.agg.ring n).key 2 n s.agg.mbx.session k.1 (k.2.length / 32) k.2))

/-- The head descriptor of a ring is admitted, run or refused as R532 to R542 say. Where these rules leave a point open, a clause follows the
model's choice (log entry 90). -/
def Obligations.DescriptorCommands : Prop :=
  -- DESCRIPTOR_ADMIT: a descriptor whose check value fails completes with INTEGRITY, one of no opcode with BAD_OPCODE; it takes one slot and no tag
  (∀ (s : State) (n : Fin 17) (d : List Byte), s.agg.admits = true → (s.agg.ring n.val).faulted = false →
    (s.agg.ring n.val).sqHead ≠ (s.agg.ring n.val).sqTail → (s.agg.ring n.val).ahead = [] → d = (s.agg.ring n.val).descriptor (s.agg.ring n.val).sqHead →
    crcGood crc32c d = false ∨ leAt d 1 1 ≠ 1 ∨ opInfo (leAt d 0 1) = none →
    leAt d 4 1 % 4 = 0 ∨ s.agg.earlierOpen n.val (s.agg.ring n.val).sqHead = false → s.agg.cqUsed n.val + 2 ≤ 256 →
    Runs (.descriptorAdmit n) s fun t => (t.agg.ring n.val).sqHead = ((s.agg.ring n.val).sqHead + 1) % 2 ^ 32 ∧ t.agg.mbx.inflight = s.agg.mbx.inflight ∧
      sget 0 (t.agg.ring n.val).outcomes (s.agg.ring n.val).sqHead = statusCode (if crcGood crc32c d then .badOpcode else .integrity)) ∧
  -- a NOP with room for its completion and a tag runs, completes with OK and leaves flight
  (∀ (s : State) (n : Fin 17) (d : List Byte) (i : OpInfo), s.agg.admits = true → (s.agg.ring n.val).faulted = false →
    (s.agg.ring n.val).sqHead ≠ (s.agg.ring n.val).sqTail → (s.agg.ring n.val).ahead = [] → d = (s.agg.ring n.val).descriptor (s.agg.ring n.val).sqHead →
    crcGood crc32c d = true → leAt d 1 1 = 1 → leAt d 0 1 = 0 → opInfo 0 = some i → s.agg.descrCodes n.val d i = [] →
    (∀ j ∈ s.agg.mbx.inflight, ¬(j.ring = n.val ∧ j.tag = leAt d 2 2)) →
    leAt d 4 1 % 4 = 0 ∨ s.agg.earlierOpen n.val (s.agg.ring n.val).sqHead = false → s.agg.chainedAt n.val (s.agg.ring n.val).sqHead d = false →
    s.agg.cqUsed n.val + 2 ≤ 256 → (s.agg.freeTag n.val 0).isSome = true →
    Runs (.descriptorAdmit n) s fun t => (t.agg.ring n.val).sqHead = ((s.agg.ring n.val).sqHead + 1) % 2 ^ 32 ∧ t.agg.mbx.inflight = s.agg.mbx.inflight ∧
      sget 0 (t.agg.ring n.val).outcomes (s.agg.ring n.val).sqHead = statusCode .ok) ∧
  -- any command that passes its own checks enters flight with its tag and runs with the parameters of its descriptor
  (∀ (s : State) (n : Fin 17) (d : List Byte) (i : OpInfo) (sh : Bool) (pos : Nat) (trial g : Agg), s.agg.admits = true → (s.agg.ring n.val).faulted = false →
    (s.agg.ring n.val).sqHead ≠ (s.agg.ring n.val).sqTail → pos = (s.agg.ring n.val).sqHead → d = (s.agg.ring n.val).descriptor pos →
    crcGood crc32c d = true → leAt d 1 1 = 1 → opInfo (leAt d 0 1) = some i → .privilege ∉ s.agg.descrCodes n.val d i →
    leAt d 4 1 % 4 = 0 ∨ s.agg.earlierOpen n.val pos = false →
    trial = (s.agg.enter n.val pos d 1 false false (s.agg.descrCodes n.val d i) (s.agg.chainedAt n.val pos d)).runParams n.val d (freeNumber s) →
    trial.mbx.begins ≠ s.agg.mbx.begins → s.agg.cqUsed n.val + i.slots + 1 ≤ 256 → s.agg.freeTag n.val (leAt d 0 1) = some sh →
    needsRow (leAt d 0 1) (leAt d 5 1) = false → g = (s.agg.enter n.val pos d i.slots sh true [] false).runParams n.val d (freeNumber s) →
    Runs (.descriptorAdmit n) s fun t => t.agg = if (g.ring n.val).sqHead = pos then g.advanceHead n.val else g) ∧
  -- and one whose effect needs what comes with its own row waits in flight for that row
  (∀ (s : State) (n : Fin 17) (d : List Byte) (i : OpInfo) (sh : Bool) (pos : Nat) (trial : Agg), s.agg.admits = true → (s.agg.ring n.val).faulted = false →
    (s.agg.ring n.val).sqHead ≠ (s.agg.ring n.val).sqTail → (s.agg.ring n.val).ahead = [] → pos = (s.agg.ring n.val).sqHead →
    d = (s.agg.ring n.val).descriptor pos → crcGood crc32c d = true → leAt d 1 1 = 1 → opInfo (leAt d 0 1) = some i → .privilege ∉ s.agg.descrCodes n.val d i →
    leAt d 4 1 % 4 = 0 ∨ s.agg.earlierOpen n.val pos = false →
    trial = (s.agg.enter n.val pos d 1 false false (s.agg.descrCodes n.val d i) (s.agg.chainedAt n.val pos d)).runParams n.val d (freeNumber s) →
    trial.mbx.begins ≠ s.agg.mbx.begins → s.agg.cqUsed n.val + i.slots + 1 ≤ 256 → s.agg.freeTag n.val (leAt d 0 1) = some sh →
    needsRow (leAt d 0 1) (leAt d 5 1) = true →
    Runs (.descriptorAdmit n) s fun t => (t.agg.ring n.val).sqHead = (pos + 1) % 2 ^ 32 ∧
      ∃ x : Inflight, t.agg.mbx.inflight = s.agg.mbx.inflight ++ [x] ∧ x.ring = n.val ∧ x.tag = leAt d 2 2 ∧ x.opcode = leAt d 0 1 ∧ x.ctx = leAt d 6 1 ∧
        x.sqPos = pos ∧ x.codes = [] ∧ x.chained = false ∧ x.tagged = true ∧ x.shared = sh ∧ x.begun = false)

/-- The information commands do what R550 to R566 say. Where these rules leave a point open, a clause follows the model's choice (log entries 91 to
93 and 141). -/
def Obligations.InformationCommands : Prop :=
  -- NOP, GET_INFO, GET_CAPS (R550, R551)
  (∀ (s : State) (c : Caller), s.agg.takes c → Runs (.nop c) s fun t => t.agg.Completed c 0x00 []) ∧
  (∀ (s : State) (c : Caller), s.agg.takes c → Runs (.getInfo c) s fun t => t.agg.Completed c 0x01 [(16, 0x0A40), (8, 1), (32, s.agg.ident.fwVersion),
    (64, s.agg.ident.fwDigest), (12, s.agg.ident.trayId), (1, s.agg.ident.role), (5, c.ring.val), (64, s.agg.ht)]) ∧
  (∀ (s : State) (c : Caller), s.agg.takes c → Runs (.getCaps c) s fun t => ∃ links ports, t.agg.Completed c 0x02 [(32, (s.agg.reg 0x10).toNat),
      (24, s.agg.fld 0x60000 23 0), (24, s.agg.fld 0x60004 23 0), (32, links), (64, ports), (1, b2n s.agg.partnerUp)] ∧
    (∀ k < 32, links.testBit k = decide ((s.agg.link k).state = .up)) ∧ ∀ p < 64, ports.testBit p = s.agg.portUp p) ∧
  -- READ_COUNTERS and READ_GLOBAL_COUNTERS (R552, R553)
  (∀ (s : State) (c : Caller) (dst : BitVec 48), s.agg.takes c → ctxOf c ≠ 0 → s.agg.outside c.ring.val dst.toNat 256 = none →
    Runs (.readCounters c dst) s fun t => t.agg.mem = (s.agg.write dst.toNat (counterBlock (s.agg.job (ctxOf c)).shown)).mem ∧
      t.agg.Completed c 0x03 [(48, s.agg.closedWindow), (32, 256)]) ∧
  (∀ (s : State) (c : Caller) (dst : BitVec 48), s.agg.takes c → c.ring.val = 0 → s.agg.outside c.ring.val dst.toNat 4352 = none →
    Runs (.readGlobalCounters c dst) s fun t => t.agg.mem = (s.agg.write dst.toNat (s.agg.chipBlock ++ jobNumbers.flatMap fun n =>
        if (s.agg.job n).state = .free then zeros 256 else counterBlock (s.agg.job n).shown)).mem ∧
      t.agg.Completed c 0x04 [(48, s.agg.closedWindow), (32, 4352)]) ∧
  -- EVENT_LOG_READ (R560): what is recorded from a SEQ on, where it fits; an ATU's recorder is read over its port
  (∀ (s : State) (c : Caller) (port : BitVec 6) (frm : BitVec 64) (mx : BitVec 32) (dst : BitVec 48) (l : List EvrRec), s.agg.takes c → c.ring.val = 0 →
    (∀ r ∈ s.agg.elog.recs.head?, r.pos ≤ frm.toNat) → (s.agg.elog.recs = [] → s.agg.elog.next ≤ frm.toNat) →
    l = s.agg.elog.recs.filter (fun r => decide (frm.toNat ≤ r.pos)) → s.agg.outside c.ring.val dst.toNat mx.toNat = none →
    Runs (.eventLogRead c 0 port frm mx dst) s fun t => t.agg.mem = (s.agg.write dst.toNat (takeWhole mx.toNat (l.map evrBytes)).1).mem ∧
      t.agg.Completed c 0x78 [(32, (takeWhole mx.toNat (l.map evrBytes)).1.length),
        (64, ((l[(takeWhole mx.toNat (l.map evrBytes)).2]?).map (·.pos)).getD (max frm.toNat s.agg.elog.next))]) ∧
  (∀ (s : State) (c : Caller) (port : BitVec 6) (mx : BitVec 32) (dst : BitVec 48) (frm : BitVec 64) (oldest : Nat) (es : List VEntry), s.agg.takes c →
    oldest = ((s.agg.mbx.vlog.head?).map (·.seq)).getD s.agg.mbx.vnext →
    (frm.toNat % 2 ^ 32 + 2 ^ 32 - oldest) % 2 ^ 32 ≤ (s.agg.mbx.vnext + 2 ^ 32 - oldest) % 2 ^ 32 →
    es = (s.agg.vlogFor c.ring.val).filter (fun e => decide ((frm.toNat % 2 ^ 32 + 2 ^ 32 - oldest) % 2 ^ 32 ≤ (e.seq + 2 ^ 32 - oldest) % 2 ^ 32)) →
    s.agg.outside c.ring.val dst.toNat mx.toNat = none →
    Runs (.eventLogRead c 1 port frm mx dst) s fun t => t.agg.mem = (s.agg.write dst.toNat (takeWhole mx.toNat (es.map vlogBytes)).1).mem ∧
      t.agg.Completed c 0x78 [(32, (takeWhole mx.toNat (es.map vlogBytes)).1.length),
        (64, ((es[(takeWhole mx.toNat (es.map vlogBytes)).2]?).map (·.seq)).getD s.agg.mbx.vnext)]) ∧
  (∀ (s : State) (c : Caller) (port : BitVec 6) (frm : BitVec 64) (mx : BitVec 32) (dst : BitVec 48), s.agg.takes c → s.agg.mayReach c port.toNat →
    s.agg.dieLacks port.toNat 7 = false → s.agg.outside c.ring.val dst.toNat mx.toNat = none →
    Runs (.eventLogRead c 2 port frm mx dst) s fun t =>
      t.agg.Started s.agg c 0x78 port.toNat (.evrRead dst.toNat mx.toNat frm.toNat 0) [rd 0x6010, rd 0x6014]) ∧
  -- WAITFOR_GRAPH (R562 to R566): a whole number of nodes and edges that fits in MAX_BYTES
  (∀ (s : State) (c : Caller) (chip : Bool) (dst : BitVec 48) (mx : BitVec 32), s.agg.takes c → (chip = true → c.ring.val = 0) → 32 ≤ mx.toNat →
    s.agg.outside c.ring.val dst.toNat mx.toNat = none →
    Runs (.waitforGraph c chip dst mx) s fun t => ∃ (nodes edges cycles : Nat) (trunc : Bool), 32 + 16 * nodes + 8 * edges ≤ mx.toNat ∧
      t.agg.Completed c 0x7A [(16, nodes), (16, edges), (16, cycles), (64, s.agg.ht), (32, 32 + 16 * nodes + 8 * edges), (1, b2n trunc)])

/-- Job contexts are created, armed, committed, torn down and released as R571 to R590 say. Where these rules leave a point open, a clause follows
the model's choice (log entries 94, 95, 126 and 127). -/
def Obligations.JobCommands : Prop :=
  -- JOB_CREATE (R571, R573): where it fits, the context is in use with a new epoch and its areas; else it queues (R572)
  (∀ (s : State) (c : Caller) (tag : BitVec 32) (hawk : BitVec 8) (hbm : BitVec 6) (bind : BitVec 48) (ms : BitVec 16) (r : List Byte),
    s.agg.admits = true → ((s.agg.inflightOf (who c)).map (·.codes)).getD [] = [] → s.agg.isChained c = false → c.ring.val = 0 → s.agg.boot.ready = true →
    s.agg.outside 0 bind.toNat 96 = none → r = s.agg.read bind.toNat 96 → leAt r 0 2 = 0x013D → leAt r 92 4 = crcOf crc32c (r.take 92) → bindBad r = false →
    tag ≠ 0 → 1 ≤ hawk.toNat → hawk.toNat ≤ (if s.agg.isT then 116 else 136) → hbm.toNat ≤ 32 → (hbm = 0 ∨ s.agg.hasHbm = true) →
    (∀ n ∈ jobNumbers, (s.agg.job n).state ≠ .free → (s.agg.job n).tag ≠ tag.toNat) →
    (∀ n a b, s.agg.jobs.queue = [] → s.agg.fitCreate c.ctx.val hawk.toNat hbm.toNat = some (n, a, b) →
      Runs (.jobCreate c tag hawk hbm bind ms) s fun t => t.agg.Completed c 0x10 [(5, n), (32, (s.agg.jobs.epoch + 1) % 2 ^ 32), (48, a), (48, b), (32, 0)] ∧
        (t.agg.job n).state = .created ∧ (t.agg.job n).epoch = (s.agg.jobs.epoch + 1) % 2 ^ 32 ∧ (t.agg.job n).tag = tag.toNat ∧
        (t.agg.job n).hawk = ⟨a, hawk.toNat * 2 ^ 20⟩ ∧ (t.agg.job n).hbm = ⟨b, hbm.toNat * 2 ^ 30⟩ ∧ (t.agg.job n).dies = []) ∧
    ((s.agg.jobs.queue ≠ [] ∨ s.agg.fitCreate c.ctx.val hawk.toNat hbm.toNat = none) → ms ≠ 0 → s.agg.jobs.queue.length < 16 →
      Runs (.jobCreate c tag hawk hbm bind ms) s fun t => ∃ q, t.agg.jobs.queue = s.agg.jobs.queue ++ [q] ∧ q.jobTag = tag.toNat ∧ q.hawkMib = hawk.toNat ∧
        q.hbmGib = hbm.toNat ∧ q.since = s.agg.now ∧ q.limitMs = ms.toNat)) ∧
  -- JOB_CREATE_TIMEOUT (R571): no create waits beyond its QUEUE_MS
  (∀ (s : State), s.agg.fwRuns = true →
    Runs .jobCreateTimeout s fun t => ∀ q ∈ t.agg.jobs.queue, q ∈ s.agg.jobs.queue ∧ s.agg.now < q.since + 1000000 * q.limitMs) ∧
  -- JOB_ADD_DIES (R574, R575): the dies join the job, and it claims their channels
  (∀ (s : State) (c : Caller) (list : BitVec 48) (count : BitVec 7) (es : List (List Byte)) (n : Nat), s.agg.takes c → c.ring.val = 0 → n = ctxOf c → n ≠ 0 →
    s.agg.boot.ready = true → 1 ≤ count.toNat → count.toNat ≤ 64 → s.agg.outside 0 list.toNat (8 * count.toNat) = none →
    es = (List.range count.toNat).map (fun i => s.agg.read (list.toNat + 8 * i) 8) → (∀ e ∈ es, leAt e 6 2 = 0) →
    (∀ d ∈ es.map readDie, d.port ≤ 63 ∧ s.agg.dieOn d.port = d.die ∧ d.die % 64 = 0 ∧ d.mask ≠ 0 ∧ d.port ∈ s.agg.boot.passed ∧
      (s.agg.ident.role = 1 → wbit (s.agg.port d.port).caps 9 = true) ∧ ∀ k < 8, d.mask.testBit k = true → s.agg.claimClash n d.port k = false) →
    hasDup (((s.agg.job n).dies ++ es.map readDie).map (·.die)) = false → (s.agg.job n).state = .created → (s.agg.job n).dies.length + count.toNat ≤ 64 →
    Runs (.jobAddDies c list count) s fun t => t.agg.Completed c 0x11 [(7, (s.agg.job n).dies.length + count.toNat)] ∧
      (t.agg.job n).dies = (s.agg.job n).dies ++ es.map readDie ∧
      ∀ d ∈ es.map readDie, ∀ k < 8, d.mask.testBit k = true → ∃ x ∈ t.agg.jobs.claims, x.port = d.port ∧ x.chan = k ∧ (x.holder = n ∨ x.next = some n)) ∧
  -- JOB_LOAD_MODEL LOCAL (R578, R580): a good image is the pending model
  (∀ (s : State) (c : Caller) (addr : BitVec 48) (len : BitVec 32) (g : Agg) (st : Nat), s.agg.takes c → ctxOf c ≠ 0 → s.agg.boot.ready = true →
    s.agg.outside c.ring.val addr.toNat len.toNat = none → (s.agg.job (ctxOf c)).held_ = false →
    s.agg.loadModel (ctxOf c) (s.agg.read addr.toNat len.toNat) = .ok (g, st) →
    Runs (.jobLoadModelLocal c addr len) s fun t => t.agg.Completed c 0x12 [(2, st), (64, crcOf crc64ecma (s.agg.read addr.toNat len.toNat))] ∧
      ∃ m, (t.agg.job (ctxOf c)).pending = some m ∧ m.digest = crcOf crc64ecma (s.agg.read addr.toNat len.toNat)) ∧
  -- JOB_ARM (R582): the owner of every channel is read on the ports in UP; with none in UP the arm holds at once
  (∀ (s : State) (c : Caller) (earliest : BitVec 48) (hold : BitVec 16) (ports : List Nat) (n : Nat), s.agg.takes c → n = ctxOf c → n ≠ 0 → s.agg.boot.ready = true →
    1 ≤ hold.toNat → hold.toNat ≤ 60000 → (s.agg.job n).dies ≠ [] → (s.agg.job n).pending.isSome = true → (s.agg.job n).state ≠ .draining →
    (s.agg.job n).held_ = false → s.agg.time.sched.isSome = true → ports = ((s.agg.job n).dies.map (·.port)).filter s.agg.portUp →
    (ports ≠ [] → Runs (.jobArm c earliest hold) s fun t => ∃ h : Agg, (h.job n).armer = some (c.ring.val, c.tag.toNat, earliest.toNat, hold.toNat) ∧
      (h.job n).openWrites = ports.length ∧
      t.agg = ports.foldl (fun g p => g.startReg c.ring.val c.tag.toNat 0x13 p (.ownerCheck n) [rd 0x000C]) h) ∧
    (∀ w, ports = [] → s.agg.readyWindow n earliest.toNat = some w →
      Runs (.jobArm c earliest hold) s fun t => t.agg.Completed c 0x13 [(48, w)] ∧ (t.agg.job n).armed = some (w, s.agg.now + 1000000 * hold.toNat) ∧
        (t.agg.job n).readyWin = w)) ∧
  -- ARM_EXPIRE and DISARM (R583)
  (∀ (s : State), s.agg.fwRuns = true → Runs .armExpire s fun t => ∀ n ∈ jobNumbers, ∀ w e, (s.agg.job n).armed = some (w, e) →
    (e ≤ s.agg.now → (s.agg.job n).committer = none → (t.agg.job n).armed = none) ∧ (s.agg.now < e → t.agg.job n = s.agg.job n)) ∧
  (∀ (s : State) (c : Caller), s.agg.takes c → ctxOf c ≠ 0 → s.agg.boot.ready = true → (s.agg.job (ctxOf c)).armed.isSome = true →
    (s.agg.job (ctxOf c)).committer = none →
    Runs (.jobDisarm c) s fun t => t.agg.Completed c 0x14 [] ∧ (t.agg.job (ctxOf c)).armed = none ∧
      (t.agg.job (ctxOf c)).state = if (s.agg.job (ctxOf c)).state = .armed then .created else (s.agg.job (ctxOf c)).state) ∧
  -- JOB_COMMIT (R584 to R587): the window is fixed; the module that writes the ATUs starts, the other one waits for the outcome
  (∀ (s : State) (c : Caller) (act : BitVec 48) (n : Nat) (up torn : List Nat), s.agg.takes c → n = ctxOf c → n ≠ 0 → s.agg.boot.ready = true →
    s.agg.isEpoch act.toNat = true → (s.agg.job n).readyWin ≤ act.toNat → s.agg.ht + 5000000 ≤ s.agg.strokeHt act.toNat → (s.agg.job n).armed.isSome = true →
    (s.agg.job n).committer = none → torn = ((s.agg.job n).dies.map (·.port)).filter (s.agg.stillTorn n) →
    up = ((s.agg.job n).dies.map (·.port)).filter (fun p => s.agg.portUp p && !s.agg.stillTorn n p) →
    (s.agg.writesAtus = false → (s.agg.job n).farOutcome = none →
      Runs (.jobCommit c act) s fun t => (t.agg.job n).committer = some (who c) ∧ (t.agg.job n).committing = act.toNat) ∧
    (s.agg.writesAtus = false → (s.agg.job n).farOutcome = some 0 →
      Runs (.jobCommit c act) s fun t => t.agg.Completed c 0x14 [] ∧ (t.agg.job n).commit = some act.toNat ∧ (t.agg.job n).armed = none) ∧
    (s.agg.writesAtus = true → up ≠ [] ∨ torn ≠ [] → Runs (.jobCommit c act) s fun t => ∃ h : Agg, (h.job n).committer = some (who c) ∧
      (h.job n).committing = act.toNat ∧ (h.job n).delayed = torn ∧ t.agg = up.foldl (fun g p => g.commitPort n p act.toNat (who c)) h) ∧
    (s.agg.writesAtus = true → up = [] → torn = [] → Runs (.jobCommit c act) s fun t => t.agg.Completed c 0x14 [] ∧ (t.agg.job n).commit = some act.toNat ∧
      (t.agg.job n).armed = none ∧ (t.agg.job n).state = if (s.agg.job n).state = .armed then .committed else (s.agg.job n).state)) ∧
  (∀ (s : State) (n : Fin 17) (code : BitVec 8) (w : Nat × Nat), s.agg.linksLive = true → s.agg.partnerUp = true → 0 < n.val → (s.agg.job n.val).committer = some w →
    Runs (.commitOutcomeReceive n code) s fun t => (t.agg.job n.val).committer = none ∧
      (code = 0 → (t.agg.job n.val).commit = some (s.agg.job n.val).committing) ∧ (code ≠ 0 → (t.agg.job n.val).commit = (s.agg.job n.val).commit)) ∧
  (∀ (s : State) (n : Fin 17) (code : BitVec 8), s.agg.linksLive = true → s.agg.partnerUp = true → 0 < n.val → (s.agg.job n.val).committer = none →
    (s.agg.job n.val).state ≠ .free → Runs (.commitOutcomeReceive n code) s fun t => (t.agg.job n.val).farOutcome = some code.toNat) ∧
  -- JOB_TEARDOWN (R588): a running job drains through LAST_WINDOW; another is released at once
  (∀ (s : State) (c : Caller) (last : BitVec 48), s.agg.takes c → ctxOf c ≠ 0 → s.agg.boot.ready = true → s.agg.actStale last.toNat = false →
    ((s.agg.job (ctxOf c)).state = .active ∨ (s.agg.job (ctxOf c)).state = .committed →
      Runs (.jobTeardown c last) s fun t => (t.agg.job (ctxOf c)).state = .draining ∧
        (t.agg.job (ctxOf c)).lastWin = s.agg.roundUpLast (s.agg.actWindow last.toNat) ∧ (t.agg.job (ctxOf c)).teardown = some (who c)) ∧
    ((s.agg.job (ctxOf c)).state = .created ∨ (s.agg.job (ctxOf c)).state = .armed → s.agg.jobs.queue = [] →
      Runs (.jobTeardown c last) s fun t => (t.agg.job (ctxOf c)).state = .free)) ∧
  -- JOB_RELEASE and AREA_ZEROED (R589, R573): the context is free, its areas are zeroed, and then they are free
  (∀ (s : State) (n : Fin 17), s.agg.fwRuns = true → 0 < n.val → (s.agg.job n.val).state = .draining → s.agg.drained n.val = true → s.agg.jobs.queue = [] →
    Runs (.jobRelease n) s fun t => (t.agg.job n.val).state = .free ∧
      ∀ a ∈ [(s.agg.job n.val).hawk, (s.agg.job n.val).hbm], a.len ≠ 0 → (a, s.agg.now) ∈ t.agg.jobs.zeroing) ∧
  (∀ (s : State) (a : Area) (since : Nat) (rest : List (Area × Nat)), s.agg.fwRuns = true → s.agg.jobs.zeroing = (a, since) :: rest → s.agg.jobs.queue = [] →
    Runs .areaZeroed s fun t => t.agg.jobs.zeroing = rest ∧ ∀ x, a.base ≤ x → x < a.base + a.len → t.agg.read x 1 = [0]) ∧
  -- JOB_STATUS (R590)
  (∀ (s : State) (c : Caller) (j : Job), s.agg.admits = true → ((s.agg.inflightOf (who c)).map (·.codes)).getD [] = [] → s.agg.isChained c = false →
    (c.ring.val = 0 ∨ c.ctx.val = 0 ∨ c.ctx.val = c.ring.val) → ctxOf c ≠ 0 → s.agg.boot.ready = true → j = s.agg.job (ctxOf c) →
    Runs (.jobStatus c) s fun t => ∃ waiting, t.agg.Completed c 0x16 [(3, jobStateCode j.state),
      (4, b2n j.armed.isSome + 2 * b2n j.commit.isSome + 4 * b2n j.pending.isSome + 8 * b2n ((j.pending.map (·.deferred)).getD false)),
      (32, j.epoch), (32, j.tag), (48, j.actWin), (48, j.readyWin), (48, j.lastWin), (7, j.dies.length), (64, (j.active.map (·.digest)).getD 0),
      (64, (j.pending.map (·.digest)).getD 0), (5, waiting)])

/-- A model image is pasted down the tree as R591 to R601 say. Where these rules leave a point open, a clause follows the model's choice (log entry
96). -/
def Obligations.PasteCommands : Prop :=
  -- JOB_LOAD_MODEL SEND and RECEIVE (R591, R601)
  (∀ (s : State) (c : Caller) (i : BitVec 32) (addr members : BitVec 48) (len : BitVec 32) (deadline : BitVec 64), s.agg.takes c → c.ring.val = 0 → s.agg.boot.ready = true →
    s.agg.outsideAll 0 [(addr.toNat, len.toNat), (members.toNat, 256)] = none → 1 ≤ len.toNat → len.toNat ≤ 2 ^ 31 → s.agg.ht + 10000000 ≤ deadline.toNat →
    deadline.toNat ≤ s.agg.ht + 60 * second → (∀ p ∈ s.agg.jobs.pastes, p.ident = i.toNat → p.inUse = false) → s.agg.stagingFits len.toNat = true →
    (s.agg.jobs.pastes.filter (·.outcome.isNone)).length < 4 →
    Runs (.jobLoadModelSend c i addr len deadline members) s fun t => ∃ q, t.agg.pasteOf i.toNat = some q ∧ q.chunks = ceilDiv len.toNat 32768 ∧
      q.len = len.toNat ∧ q.digest = crcOf crc64ecma (s.agg.read addr.toNat len.toNat) ∧ q.deadline = deadline.toNat ∧ q.run = q.chunks) ∧
  (∀ (s : State) (c : Caller) (i : BitVec 32) (digest : BitVec 64), s.agg.takes c → ctxOf c ≠ 0 → s.agg.boot.ready = true → (s.agg.job (ctxOf c)).held_ = false →
    (∀ p, s.agg.pasteOf i.toNat = some p → p.outcome = none) →
    Runs (.jobLoadModelReceive c i digest) s fun t => t.agg.jobs.waits = s.agg.jobs.waits ++ [{ ring := c.ring.val, tag := c.tag.toNat, ctx := ctxOf c, paste := i.toNat, digest := digest.toNat }]) ∧
  (∀ (s : State) (c : Caller) (i : BitVec 32) (digest : BitVec 64) (p : Paste) (o : Bool), s.agg.takes c → ctxOf c ≠ 0 → s.agg.boot.ready = true →
    (s.agg.job (ctxOf c)).held_ = false → s.agg.pasteOf i.toNat = some p → p.outcome = some o →
    Runs (.jobLoadModelReceive c i digest) s fun t => t.agg.jobs.waits = s.agg.jobs.waits ∧
      (digest.toNat ≠ p.digest → ∃ h : Agg, t.agg = h.complete (who c) 0x12 .integrity []) ∧
      (digest.toNat = p.digest → o = false → ∃ h : Agg, t.agg = h.complete (who c) 0x12 .aborted [])) ∧
  -- PASTE_CHUNK_RECEIVE (R594): a new, good chunk is staged, and the contiguous part advances
  (∀ (s : State) (m : List Byte) (p : Paste), s.agg.linksLive = true → chunkGood m = true → s.agg.pasteOf (leAt m 4 4) = some p → p.outcome = none → p.sender = none →
    (p.held.any fun e => decide (e.1 = leAt m 8 4)) = false → p.run ≤ leAt m 8 4 → leAt m 8 4 < p.chunks → p.staged = true → s.agg.canHold p.len = true →
    Runs (.pasteChunkReceive m) s fun t => ∃ q, t.agg.pasteOf (leAt m 4 4) = some q ∧ q.digest = p.digest ∧ p.run ≤ q.run ∧
      (p.run = leAt m 8 4 → p.run < q.run) ∧ (q.failed = p.failed → q.staged = true → sget [] q.held (leAt m 8 4) = m.drop 64) ∧
      t.agg.mem = (s.agg.stageBytes p (leAt m 8 4) (m.drop 64)).mem) ∧
  -- PASTE_HAVE_SEND and PASTE_HAVE_RECEIVE (R595): what is held goes up; full coverage lets the decider commit (R596)
  (∀ (s : State) (i : BitVec 32) (p : Paste), s.agg.fwRuns = true → s.agg.pasteOf i.toNat = some p → p.outcome = none → s.agg.haveDue p = true →
    Runs (.pasteHaveSend i) s fun t => ∃ q, t.agg.pasteOf i.toNat = some q ∧ q.haveAt = some s.agg.now ∧ q.haveMap = s.agg.haveMap p ∧
      (p.sender = none → q.outcome = none)) ∧
  (∀ (s : State) (k : Fin 32) (m : List Byte) (holds : Bool) (i : Nat) (p : Paste), s.agg.linksLive = true → (s.agg.link k.val).state = .up →
    readPasteCtl 1 m = some i → m.length = 268 → s.agg.pasteOf i = some p → p.outcome = none →
    Runs (.pasteHaveReceive (some k) m holds) s fun t => ∃ q, t.agg.pasteOf i = some q ∧ q.children = sset [] p.children k.val (bytesAt m 8 256) ∧
      (p.sender = none → q.outcome = none) ∧
      (p.sender.isSome = true → s.agg.plane = 0 → s.agg.covers { p with children := sset [] p.children k.val (bytesAt m 8 256) } = true → q.outcome = some true)) ∧
  (∀ (s : State) (m : List Byte) (holds : Bool) (i : Nat) (p : Paste), s.agg.linksLive = true → s.agg.partnerUp = true → readPasteCtl 1 m = some i → m.length = 268 →
    s.agg.pasteOf i = some p → p.outcome = none →
    Runs (.pasteHaveReceive none m holds) s fun t => ∃ q, t.agg.pasteOf i = some q ∧ q.partner = bytesAt m 8 256 ∧ q.partnerHas = holds) ∧
  -- PASTE_DEADLINE and PASTE_DECIDE_RECEIVE (R596): the first decision stands; a later one that differs sets a flag
  (∀ (s : State) (i : BitVec 32) (p : Paste), s.agg.fwRuns = true → s.agg.pasteOf i.toNat = some p → p.outcome = none → s.agg.decides p = true → p.deadline ≤ s.agg.ht →
    Runs (.pasteDeadline i) s fun t => ∃ q, t.agg.pasteOf i.toNat = some q ∧ q.outcome = some (s.agg.covers p) ∧ q.freeAt = some (s.agg.now + 10 * second)) ∧
  (∀ (s : State) (m : List Byte) (i : Nat), s.agg.linksLive = true → readPasteCtl 3 m = some i → m.length = 21 → leAt m 8 1 = 1 ∨ leAt m 8 1 = 2 →
    Runs (.pasteDecideReceive m) s fun t =>
      ((∀ p, s.agg.pasteOf i = some p → p.outcome = none) → ∃ q, t.agg.pasteOf i = some q ∧ q.outcome = some (decide (leAt m 8 1 = 1)) ∧ q.digest = leAt m 9 8) ∧
      (∀ p, s.agg.pasteOf i = some p → p.outcome = some (decide (leAt m 8 1 = 2)) → wbit (t.agg.reg 0xA0000) 9 = true ∧ t.agg.pasteOf i = some p)) ∧
  -- PASTE_FETCH_RECEIVE (R597, R600): COUNT 0 asks for the decision; chunks held are sent again
  (∀ (s : State) (k : Fin 32) (m : List Byte) (i : Nat) (p : Paste) (o : Bool), s.agg.linksLive = true → (s.agg.link k.val).state = .up → readPasteCtl 2 m = some i →
    m.length = 18 → leAt m 12 2 = 0 → s.agg.pasteOf i = some p → p.outcome = some o →
    Runs (.pasteFetchReceive (some k) m) s fun t => ∃ q, ((t.agg.link k.val).txOf 3).queue = ((s.agg.link k.val).txOf 3).queue ++ [q] ∧
      q.bytes = pasteCtlMsg 3 i (leBytes 1 (if o then 1 else 2) ++ leBytes 8 p.digest)) ∧
  (∀ (s : State) (k : Fin 32) (m : List Byte) (i seq : Nat) (p : Paste) (bytes : List Byte), s.agg.linksLive = true → (s.agg.link k.val).state = .up →
    readPasteCtl 2 m = some i → m.length = 18 → leAt m 12 2 = 1 → leAt m 8 4 = seq → s.agg.pasteOf i = some p → seq < p.chunks → p.held.filter (·.1 = seq) = [(seq, bytes)] →
    Runs (.pasteFetchReceive (some k) m) s fun t => ∃ q, ((t.agg.link k.val).txOf 4).queue = ((s.agg.link k.val).txOf 4).queue ++ [q] ∧
      q.bytes = chunkHead true s.agg.ident.trayId p seq bytes ++ bytes) ∧
  -- PASTE_REPARENT and PASTE_REJOIN_RECEIVE (R598)
  (∀ (s : State) (i : BitVec 32) (left : Bool) (p : Paste) (par k : Nat), s.agg.fwRuns = true → s.agg.pasteOf i.toNat = some p → p.outcome = none → p.useAlt = false →
    p.sender = none → s.agg.pasteParent p = some par → (left = true ∨ (s.agg.link par).state ≠ .up) → s.agg.skim.cfg.bind (·.alt) = some k → k < 32 →
    Runs (.pasteReparent i left) s fun t => t.agg.pasteOf i.toNat = some { p with useAlt := true } ∧ wbit (t.agg.reg 0xA0000) 6 = true ∧
      ∃ q, ((t.agg.link k).txOf 3).queue = ((s.agg.link k).txOf 3).queue ++ [q] ∧ q.bytes = pasteCtlMsg 4 i.toNat (leBytes 4 p.run)) ∧
  (∀ (s : State) (k : Fin 32) (m : List Byte) (i : Nat) (p : Paste), s.agg.linksLive = true → (s.agg.link k.val).state = .up → readPasteCtl 4 m = some i → m.length = 16 →
    s.agg.pasteOf i = some p →
    Runs (.pasteRejoinReceive k m) s fun t => ∃ q, t.agg.pasteOf i = some q ∧ k.val ∈ q.rejoined ∧
      ((t.agg.link k.val).txOf 4).queue.length = ((s.agg.link k.val).txOf 4).queue.length + (p.held.filter fun e => decide (leAt m 8 4 ≤ e.1)).length) ∧
  -- PASTE_DECIDE_PROBE, PASTE_ABANDON, PASTE_STAGING_FREE (R600)
  (∀ (s : State) (i : BitVec 32) (p : Paste), s.agg.fwRuns = true → s.agg.pasteOf i.toNat = some p → p.outcome = none → p.deadline + 5000000 ≤ s.agg.ht →
    (∀ a, p.probeAt = some a → a + 1000000 ≤ s.agg.now) →
    Runs (.pasteDecideProbe i) s fun t => t.agg.pasteOf i.toNat = some { p with probeAt := some s.agg.now }) ∧
  (∀ (s : State) (i : BitVec 32) (p : Paste), s.agg.fwRuns = true → s.agg.pasteOf i.toNat = some p → p.outcome = none → p.deadline + 50000000 ≤ s.agg.ht →
    Runs (.pasteAbandon i) s fun t => t.agg.pasteOf i.toNat = none ∧ (∀ x ∈ t.agg.jobs.waits, x.paste ≠ i.toNat) ∧ wbit (t.agg.reg 0xA0000) 5 = true) ∧
  (∀ (s : State), s.agg.fwRuns = true →
    Runs .pasteStagingFree s fun t => t.agg.jobs.pastes = s.agg.jobs.pastes.filter fun p => match p.freeAt with | some a => decide (s.agg.now < a) | none => true)

/-- Packets on the analysis ports, memory windows, protection domains and queue pairs do what R603 to R627 say. Where these rules leave a point
open, a clause follows the model's choice (log entries 97, 98 and 128). -/
def Obligations.WindowCommands : Prop :=
  -- RDMA_WRITE (R609, R613): a packet in order that a window admits writes its bytes and is acknowledged; the last one ends the message
  (∀ (s : State) (port : Fin 2) (p : RocePkt) (err : Bool) (q : Qp) (w : Window), s.agg.fwRuns = true → (if port.val = 0 then s.agg.ap.up0 else s.agg.ap.up1) = true →
    s.agg.qp p.qpn = some q → q.cached = true → q.error = false → q.msg = none → q.drain = none → p.psn = q.rqPsn →
    (p.op = 3 ∧ p.dat.length = p.dmaLen ∨ p.op = 0 ∧ p.dat.length = pmtuOf q ∧ pmtuOf q < p.dmaLen) → p.dmaLen ≤ 2 ^ 31 →
    p.rkey.testBit 31 = false → w = s.agg.window (p.rkey % 1024) → w.opened = true → w.instant = none → w.gen = p.rkey / 1024 % 2 ^ 21 → w.pd = q.pd → (∀ n, w.qpn = some n → n = p.qpn) →
    w.base ≤ p.va → p.va + p.dmaLen ≤ w.base + w.len → w.access.testBit 1 = true → 0x40000000 ≤ w.base →
    Runs (.rdmaWrite port p err) s fun t => t.agg.mem = (s.agg.write p.va p.dat).mem ∧
      (p.ce = false → t.agg.egress q.port = (s.agg.egress q.port).put s.agg.now 3 (.ack p.qpn p.psn)) ∧
      ∃ q' : Qp, t.agg.qp p.qpn = some q' ∧ q'.rqPsn = (q.rqPsn + 1) % 2 ^ 24 ∧ q'.error = false ∧
        q'.msg = (if p.op = 3 then none else some { window := some (p.rkey % 1024), va := p.va, len := p.dmaLen, done := p.dat.length })) ∧
  (∀ (s : State) (port : Fin 2) (p : RocePkt) (err : Bool) (q : Qp) (m : RdmaMsg), s.agg.fwRuns = true → (if port.val = 0 then s.agg.ap.up0 else s.agg.ap.up1) = true →
    s.agg.qp p.qpn = some q → q.cached = true → q.error = false → q.msg = some m → m.cut = false → p.psn = q.rqPsn →
    (p.op = 2 ∧ m.done + p.dat.length = m.len ∨ p.op = 1 ∧ p.dat.length = pmtuOf q ∧ m.done + pmtuOf q < m.len) → 0x40000000 ≤ m.va →
    Runs (.rdmaWrite port p err) s fun t => t.agg.mem = (s.agg.write (m.va + m.done) p.dat).mem ∧
      (p.ce = false → t.agg.egress q.port = (s.agg.egress q.port).put s.agg.now 3 (.ack p.qpn p.psn)) ∧
      ∃ q' : Qp, t.agg.qp p.qpn = some q' ∧ q'.rqPsn = (q.rqPsn + 1) % 2 ^ 24 ∧ q'.error = false ∧
        q'.msg = (if p.op = 2 then none else some ({ m with done := m.done + p.dat.length } : RdmaMsg))) ∧
  -- and through a window that is closed it is answered with a remote-access NAK, and the queue pair is in ERROR (R618)
  (∀ (s : State) (port : Fin 2) (p : RocePkt) (err : Bool) (q : Qp), s.agg.fwRuns = true → (if port.val = 0 then s.agg.ap.up0 else s.agg.ap.up1) = true →
    s.agg.qp p.qpn = some q → q.cached = true → q.error = false → q.msg = none → q.drain = none → p.psn = q.rqPsn →
    (p.op = 3 ∧ p.dat.length = p.dmaLen ∨ p.op = 0 ∧ p.dat.length = pmtuOf q ∧ pmtuOf q < p.dmaLen) → p.dmaLen ≤ 2 ^ 31 →
    p.rkey.testBit 31 = false → (s.agg.window (p.rkey % 1024)).opened = false →
    Runs (.rdmaWrite port p err) s fun t => t.agg.mem = s.agg.mem ∧ (p.ce = false → t.agg.egress q.port = ((s.agg.egress q.port).silence p.qpn [5, 7]).put s.agg.now 3 (.nak p.qpn p.psn 2)) ∧
      ∃ q' : Qp, t.agg.qp p.qpn = some q' ∧ q'.error = true) ∧
  -- RDMA_READ (R609, R618): its responses leave in PSN order; a memory error is answered with a remote-operational NAK
  (∀ (s : State) (port : Fin 2) (p : RocePkt) (err : Bool) (q : Qp) (w : Window), s.agg.fwRuns = true → (if port.val = 0 then s.agg.ap.up0 else s.agg.ap.up1) = true →
    s.agg.qp p.qpn = some q → q.cached = true → q.error = false → q.msg = none → q.drain = none → p.psn = q.rqPsn → p.op = 4 → p.dmaLen ≤ 2 ^ 31 →
    p.rkey.testBit 31 = false → w = s.agg.window (p.rkey % 1024) → w.opened = true → w.instant = none → w.gen = p.rkey / 1024 % 2 ^ 21 → w.pd = q.pd → (∀ n, w.qpn = some n → n = p.qpn) →
    w.base ≤ p.va → p.va + p.dmaLen ≤ w.base + w.len → w.access.testBit 0 = true → 0x40000000 ≤ w.base →
    Runs (.rdmaRead port p err) s fun t => t.agg.mem = s.agg.mem ∧
      (p.ce = false → err = false → t.agg.egress q.port =
        (readResponses q p.qpn p.psn (s.agg.read p.va p.dmaLen)).foldl (fun e x => e.put s.agg.now 5 x) (s.agg.egress q.port)) ∧
      (p.ce = false → err = true → t.agg.egress q.port = ((s.agg.egress q.port).silence p.qpn [5, 7]).put s.agg.now 3 (.nak p.qpn p.psn 3))) ∧
  -- RDMA_SEND (R627): a doorbell of the bound ring
  (∀ (s : State) (port : Fin 2) (p : RocePkt) (err : Bool) (q : Qp) (n : Nat), s.agg.fwRuns = true → (if port.val = 0 then s.agg.ap.up0 else s.agg.ap.up1) = true →
    s.agg.qp p.qpn = some q → q.cached = true → q.error = false → q.drain = none → p.psn = q.rqPsn → p.op = 8 → s.agg.boundRing p.qpn = some n → n ≠ 0 →
    4 ≤ p.dat.length → p.dat.length ≤ 8 → (leAt p.dat 0 4 + 2 ^ 32 - (s.agg.ring n).sqHead) % 2 ^ 32 ≤ 256 →
    ((s.agg.ring n).sqTail + 2 ^ 32 - (s.agg.ring n).sqHead) % 2 ^ 32 ≤ (leAt p.dat 0 4 + 2 ^ 32 - (s.agg.ring n).sqHead) % 2 ^ 32 →
    Runs (.rdmaSend port p err) s fun t => (t.agg.ring n).sqTail = leAt p.dat 0 4 ∧
      (p.ce = false → t.agg.egress q.port = (s.agg.egress q.port).put s.agg.now 3 (.ack p.qpn p.psn))) ∧
  -- a packet whose queue pair is not cached is parked while the port has room (R622)
  (∀ (s : State) (port : Fin 2) (p : RocePkt) (err : Bool) (q : Qp), s.agg.fwRuns = true → (if port.val = 0 then s.agg.ap.up0 else s.agg.ap.up1) = true →
    s.agg.qp p.qpn = some q → q.cached = false → (s.agg.parked port.val).length < 64 → ∀ i ∈ [Instr.rdmaWrite port p err, .rdmaRead port p err, .rdmaSend port p err],
    Runs i s fun t => t.agg.parked port.val = s.agg.parked port.val ++ [{ p with memErr := err }]) ∧
  -- QP_CONTEXT_FETCHED (R621, R622): with room in the cache, the parked packets of the queue pair are processed in their order
  (∀ (s : State) (qpn : BitVec 24) (ns : BitVec 32) (q : Qp), s.agg.fwRuns = true → s.agg.qp qpn.toNat = some q → q.cached = false → s.agg.cacheRoom.2 = true →
    Runs (.qpContextFetched qpn ns) s fun t => ∃ h : Agg, h.qp qpn.toNat = some ({ q with cached := true, lastUse := s.agg.now } : Qp) ∧
      h.ap.parked0 = s.agg.ap.parked0.filter (fun p => decide (p.qpn ≠ qpn.toNat)) ∧ h.ap.parked1 = s.agg.ap.parked1.filter (fun p => decide (p.qpn ≠ qpn.toNat)) ∧
      t.agg = ((s.agg.ap.parked0 ++ s.agg.ap.parked1).filter fun p => decide (p.qpn = qpn.toNat)).foldl (fun g p => g.processPkt p p.memErr) h) ∧
  -- WINDOW_OPEN (R610): the lowest free window, with its next generation
  (∀ (s : State) (c : Caller) (pd : BitVec 6) (base : BitVec 48) (len : BitVec 40) (access : BitVec 2) (qpn : Option (BitVec 24)) (notify : Bool) (w : Nat),
    s.agg.takes c → (c.ring.val = 0 ∨ pd.toNat = c.ring.val ∧ 0x40000000 ≤ base.toNat) → (base.toNat < 0x40000000 → pd = 0 ∨ 16 < pd.toNat) →
    pd.toNat ∈ s.agg.ap.pds → base.toNat % 64 = 0 → len.toNat % 64 = 0 → len ≠ 0 →
    access ≠ 0 → (∀ n, qpn = some n → ∃ q : Qp, s.agg.qp n.toNat = some q ∧ q.pd = pd.toNat) → (base.toNat + len.toNat ≤ 0x40000000 ∨ s.agg.outside c.ring.val base.toNat len.toNat = none) →
    w < 1024 → (s.agg.window w).opened = false → (∀ v < w, (s.agg.window v).opened = true) →
    Runs (.windowOpen c pd base len access qpn notify) s fun t =>
      t.agg.Completed c 0x60 [(10, w), (32, w + 1024 * (((s.agg.window w).gen + 1) % 2 ^ 21))] ∧
      t.agg.window w = { opened := true, gen := ((s.agg.window w).gen + 1) % 2 ^ 21, pd := pd.toNat, base := base.toNat, len := len.toNat, access := access.toNat, qpn := qpn.map (·.toNat), notify := notify }) ∧
  -- WINDOW_REVOKE, REVOKE_INSTANT, REVOKE_DRAINED, REVOKE_DRAIN_BOUND (R612, R613)
  (∀ (s : State) (c : Caller) (w : BitVec 10) (rkey : BitVec 32), s.agg.takes c → (s.agg.window w.toNat).opened = true →
    rkey.toNat = w.toNat + 1024 * (s.agg.window w.toNat).gen → (c.ring.val = 0 ∨ (s.agg.window w.toNat).pd = c.ring.val) → (s.agg.window w.toNat).draining = none →
    Runs (.windowRevoke c w rkey) s fun t => t.agg.window w.toNat = { s.agg.window w.toNat with draining := some s.agg.now, revoker := some (who c), drained := 0 }) ∧
  (∀ (s : State) (w : BitVec 10), s.agg.fwRuns = true → (s.agg.window w.toNat).opened = true → (s.agg.window w.toNat).draining.isSome = true → (s.agg.window w.toNat).instant = none →
    Runs (.revokeInstant w) s fun t => t.agg.window w.toNat = { s.agg.window w.toNat with instant := some (s.agg.now, s.agg.ht) }) ∧
  (∀ (s : State) (w : BitVec 10), s.agg.fwRuns = true → (s.agg.window w.toNat).opened = true → (s.agg.window w.toNat).instant.isSome = true → s.agg.openMessages w.toNat = [] →
    s.agg.openReads w.toNat = [] → Runs (.revokeDrained w) s fun t => (t.agg.window w.toNat).opened = false ∧ (t.agg.window w.toNat).gen = (s.agg.window w.toNat).gen) ∧
  (∀ (s : State) (w : BitVec 10) (at_ ht : Nat), s.agg.fwRuns = true → (s.agg.window w.toNat).opened = true → (s.agg.window w.toNat).instant = some (at_, ht) →
    at_ + 20000 ≤ s.agg.now →
    Runs (.revokeDrainBound w) s fun t => (t.agg.window w.toNat).opened = false ∧ (s.agg.openMessages w.toNat ≠ [] ∨ s.agg.openReads w.toNat ≠ [] → wbit (t.agg.reg 0xB0000) 6 = true)) ∧
  -- PD_CREATE (R626)
  (∀ (s : State) (c : Caller) (n : Nat), s.agg.takes c → c.ring.val = 0 → 17 ≤ n → n ≤ 63 → n ∉ s.agg.ap.pds → (∀ k, 17 ≤ k → k < n → k ∈ s.agg.ap.pds) →
    Runs (.pdCreate c) s fun t => t.agg.ap.pds = s.agg.ap.pds ++ [n] ∧ t.agg.Completed c 0x62 [(6, n)]) ∧
  (∀ (s : State) (c : Caller) (pd : BitVec 6), s.agg.takes c → c.ring.val = 0 → 17 ≤ pd.toNat → pd.toNat ∈ s.agg.ap.pds →
    (∀ w ∈ s.agg.ap.windows, w.2.opened = true → w.2.pd ≠ pd.toNat) → (∀ q ∈ s.agg.liveQps, q.2.pd ≠ pd.toNat) →
    Runs (.pdDestroy c pd) s fun t => t.agg.ap.pds = s.agg.ap.pds.filter (· ≠ pd.toNat) ∧ t.agg.Completed c 0x62 []) ∧
  -- QP_CREATE and QP_DESTROY (R624, R625)
  (∀ (s : State) (c : Caller) (pd : BitVec 6) (x : QpParams) (n : Nat), s.agg.takes c → c.ring.val = 0 → pd.toNat ∈ s.agg.ap.pds → x.pmtu.toNat ≠ 3 →
    0x1000 ≤ n → n < 0x1000 + (if s.agg.isT then 256 else 4096) → s.agg.qp n = none → (∀ k, 0x1000 ≤ k → k < n → (s.agg.qp k).isSome = true) →
    Runs (.qpCreate c pd x) s fun t => t.agg.Completed c 0x63 [(24, n)] ∧ ∃ q : Qp, t.agg.qp n = some q ∧ q.pd = pd.toNat ∧ q.port = x.port.toNat ∧ q.pmtu = x.pmtu.toNat ∧
      q.dest = x.dest.toNat ∧ q.rqPsn = x.rqPsn.toNat ∧ q.timeout = x.timeout.toNat ∧ q.retry = x.retry.toNat ∧ q.error = false ∧ q.msg = none) ∧
  (∀ (s : State) (c : Caller) (qpn : BitVec 24) (x : QpParams) (q : Qp), s.agg.takes c → c.ring.val = 0 → x.pmtu.toNat ≠ 3 → s.agg.qp qpn.toNat = some q → q.drain = none →
    Runs (.qpReconnect c qpn x) s fun t =>
      (s.agg.qpBusy qpn.toNat q = false → t.agg.Completed c 0x63 [(24, qpn.toNat)] ∧ ∃ q' : Qp, t.agg.qp qpn.toNat = some q' ∧ q'.pd = q.pd ∧ q'.port = x.port.toNat ∧
        q'.dest = x.dest.toNat ∧ q'.rqPsn = x.rqPsn.toNat ∧ q'.error = false ∧ q'.msg = none) ∧
      (s.agg.qpBusy qpn.toNat q = true →
        t.agg.qp qpn.toNat = some ({ q with drain := some ⟨s.agg.now, c.ring.val, c.tag.toNat, 0x63, some (qpArgs x)⟩ } : Qp))) ∧
  (∀ (s : State) (c : Caller) (qpn : BitVec 24) (q : Qp), s.agg.takes c → c.ring.val = 0 → s.agg.qp qpn.toNat = some q → q.drain = none → s.agg.boundRing qpn.toNat = none →
    Runs (.qpDestroy c qpn) s fun t =>
      (s.agg.qpBusy qpn.toNat q = false → t.agg.qp qpn.toNat = none ∧ t.agg.Completed c 0x64 []) ∧
      (s.agg.qpBusy qpn.toNat q = true → t.agg.qp qpn.toNat = some ({ q with drain := some ⟨s.agg.now, c.ring.val, c.tag.toNat, 0x64, none⟩ } : Qp))) ∧
  -- ANALYSIS_PORT_LINK_CHANGE (R603)
  (∀ (s : State) (port : Fin 2) (up : Bool), s.agg.powered = true →
    Runs (.analysisPortLinkChange port up) s fun t => (if port.val = 0 then t.agg.ap.up0 else t.agg.ap.up1) = up ∧
      ((if port.val = 0 then s.agg.ap.up0 else s.agg.ap.up1) = true → up = false → wbit (t.agg.reg 0xB0000) port.val = true)) ∧
  -- LOCAL_ACK_TIMEOUT and REQUESTER_ACK_RECEIVE (R605)
  (∀ (s : State) (qpn : BitVec 24) (q : Qp), s.agg.fwRuns = true → s.agg.qp qpn.toNat = some q → q.error = false → q.unacked ≠ [] →
    q.sentAt + (if q.timeout = 0 then 1000000 else 4096 * 2 ^ q.timeout) ≤ s.agg.now →
    Runs (.localAckTimeout qpn) s fun t => (q.retry ≤ q.tries → ∃ q' : Qp, t.agg.qp qpn.toNat = some q' ∧ q'.error = true) ∧
      (q.tries < q.retry → t.agg.qp qpn.toNat = some ({ q with tries := q.tries + 1, sentAt := s.agg.now } : Qp) ∧
        t.agg.egress q.port = q.unacked.foldl (fun e r => e.put s.agg.now (if r.send then 7 else 3)
          (if r.send then .rdmaSend qpn.toNat r.psn r.bytes else .rdmaWrite qpn.toNat r.psn r.va r.rkey r.bytes)) (s.agg.egress q.port))) ∧
  (∀ (s : State) (qpn psn : BitVec 24) (q : Qp), s.agg.fwRuns = true → s.agg.qp qpn.toNat = some q → q.error = false →
    Runs (.requesterAckReceive qpn psn none) s fun t => ∃ q' : Qp, t.agg.qp qpn.toNat = some q' ∧ q'.tries = 0 ∧
      q'.unacked = q.unacked.filter fun r => decide ((r.psn + 2 ^ 24 - psn.toNat) % 2 ^ 24 < 2 ^ 23 ∧ (r.psn + 2 ^ 24 - psn.toNat) % 2 ^ 24 ≠ 0)) ∧
  (∀ (s : State) (qpn psn : BitVec 24) (code : BitVec 8) (q : Qp), s.agg.fwRuns = true → s.agg.qp qpn.toNat = some q → q.error = false →
    Runs (.requesterAckReceive qpn psn (some code)) s fun t => ∃ q' : Qp, t.agg.qp qpn.toNat = some q' ∧
      (code ≠ 0 → q'.error = true ∧ q'.unacked = []) ∧
      (code = 0 → q'.error = false ∧ q'.unacked = q.unacked.filter fun r => decide ((r.psn + 2 ^ 24 - psn.toNat) % 2 ^ 24 < 2 ^ 23))) ∧
  -- CNP_RECEIVE (R604)
  (∀ (s : State) (port : Fin 2), s.agg.fwRuns = true →
    Runs (.cnpReceive port) s fun t => t.agg.fld (apBase port.val + 0x20) 31 16 = min 0xFFFF (s.agg.fld (apBase port.val + 0x20) 31 16 + 1))

/-- Power states, governors, the droop clamp, the alarms and the aggregator's own ageing do what R637 to R664 and R654 say. Where these rules leave
a point open, a clause follows the model's choice (log entries 100, 102 and 129). -/
def Obligations.PowerCommands : Prop :=
  -- POWER_SET (R664): every function returns the figures as they stand after it
  (∀ (s : State) (c : Caller) (st : BitVec 3), s.agg.takes c → c.ring.val = 0 →
    Runs (.powerSetState c st) s fun t => t.agg.pwr.requested = st.toNat ∧ t.agg.Completed c 0x7C t.agg.powerResults) ∧
  (∀ (s : State) (c : Caller) (w : BitVec 9), s.agg.takes c → c.ring.val = 0 → 120 ≤ w.toNat → w.toNat ≤ 300 →
    Runs (.powerSetCap c w) s fun t => t.agg.fld 0xC0008 8 0 = w.toNat ∧ t.agg.Completed c 0x7C t.agg.powerResults) ∧
  (∀ (s : State) (c : Caller) (d : BitVec 1) (lv : BitVec 3), s.agg.takes c → c.ring.val = 0 → lv.toNat ≤ s.agg.aggLevel d.toNat →
    Runs (.powerSetMargin c d lv) s fun t => t.agg.acts d.toNat = (s.agg.acts d.toNat).drop (s.agg.aggLevel d.toNat - lv.toNat) ∧
      t.agg.Completed c 0x7C t.agg.powerResults) ∧
  (∀ (s : State) (c : Caller), s.agg.takes c → c.ring.val = 0 → Runs (.powerStatus c) s fun t => t.agg.Completed c 0x7C s.agg.powerResults) ∧
  -- POWER_STEP_DONE (R641, R642): one step moves the clock or the issue rate
  (∀ (s : State) (p : PwrStep), s.agg.pwr.step = some p → s.agg.pwr.holding = false ∨ s.agg.pwr.exempt p = true →
    Runs .powerStepDone s fun t => (p = .freqUp → t.agg.pwr.cur = s.agg.pwr.cur - 1) ∧ (p = .freqDown → t.agg.pwr.cur = s.agg.pwr.cur + 1) ∧
      (p = .issueDown → s.agg.pwr.half = false → t.agg.pwr.cur = s.agg.pwr.cur + 1) ∧ (p = .issueDown → s.agg.pwr.half = true → t.agg.pwr.half = false ∧ t.agg.pwr.cur = s.agg.pwr.cur) ∧
      (p = .issueUp → s.agg.pwr.cur = 7 → s.agg.pwr.half = false → t.agg.pwr.half = true ∧ t.agg.pwr.cur = 7) ∧
      (p = .issueUp → s.agg.pwr.cur ≠ 7 ∨ s.agg.pwr.half = true → t.agg.pwr.half = false ∧ t.agg.pwr.cur = s.agg.pwr.cur - 1)) ∧
  -- CAP_EVALUATE (R645, R657): ten samples beyond the cap raise CAP_STATE; every sample adds to the energy
  (∀ (s : State) (mw : BitVec 20), s.agg.powered = true →
    Runs (.capEvaluate mw) s fun t => t.agg.reg 0xC0018 = BitVec.ofNat 32 mw.toNat ∧ t.agg.pwr.samples = (mw.toNat :: s.agg.pwr.samples).take 10 ∧
      t.agg.pwr.energy = (s.agg.pwr.energy + (s.agg.pwr.energyRem + mw.toNat) / 1000) % 2 ^ 64 ∧
      (9 ≤ s.agg.pwr.samples.length → 10000 * s.agg.fld 0xC0008 8 0 < ((mw.toNat :: s.agg.pwr.samples).take 10).sum →
        (∀ a, s.agg.pwr.capMoved = some a → a + 10000000 ≤ s.agg.now) →
        t.agg.pwr.capState = min 7 (s.agg.pwr.capState + 1) ∧ t.agg.pwr.capMoved = some s.agg.now ∧ wbit (t.agg.reg 0xC0000) 3 = true)) ∧
  -- THERMAL_EVALUATE (R646): above 110 degrees P7 at once, above 100 one state further
  (∀ (s : State) (temps : Vector Int 12), s.agg.powered = true →
    Runs (.thermalEvaluate temps) s fun t =>
      ((∃ x ∈ temps.toList, 110 < x) → t.agg.pwr.thermal = 7 ∧ wbit (t.agg.reg 0xC0000) 5 = true ∧ wbit (t.agg.reg 0xC0000) 4 = true) ∧
      ((∃ x ∈ temps.toList, 100 < x) → (∀ x ∈ temps.toList, x ≤ 110) → t.agg.pwr.thermal = min 7 (s.agg.pwr.thermal + 1) ∧ wbit (t.agg.reg 0xC0000) 4 = true)) ∧
  -- DROOP_TRIP, DROOP_RELEASE, STEP_HOLD_END (R648 to R650)
  (∀ (s : State), s.agg.coreRuns = true →
    Runs .droopTrip s fun t => t.agg.pwr.tripAt = some s.agg.now ∧ t.agg.pwr.holdEnd = none ∧
      (s.agg.pwr.tripAt = none → t.agg.reg 0xC0020 = s.agg.reg 0xC0020 + 1 ∧ wbit (t.agg.reg 0xC0000) 0 = true)) ∧
  (∀ (s : State) (a : Nat), s.agg.pwr.tripAt = some a → a + 1000 * s.agg.fld 0xC0008 23 16 ≤ s.agg.now →
    Runs .droopRelease s fun t => t.agg.pwr.tripAt = none ∧ t.agg.pwr.holdEnd = some (s.agg.now + 1000 * s.agg.fld 0xC0008 31 24)) ∧
  (∀ (s : State) (a : Nat), s.agg.pwr.holdEnd = some a → a ≤ s.agg.now → Runs .stepHoldEnd s fun t => t.agg.pwr.holdEnd = none) ∧
  -- VR_ALERT and VR_ALERT_CLEAR (R652, R653)
  (∀ (s : State), s.agg.powered = true →
    Runs .vrAlert s fun t => t.agg.pwr.forced = true ∧ t.agg.pwr.cur = 7 ∧ t.agg.pwr.half = false ∧ t.agg.pwr.step = none ∧ wbit (t.agg.reg 0xC0000) 2 = true) ∧
  (∀ (s : State), s.agg.powered = true → Runs .vrAlertClear s fun t => t.agg.pwr.forced = false) ∧
  -- COOLANT_STOP (R654): the core region stops; the loop stays as it is
  (∀ (s : State), s.agg.powered = true →
    Runs .coolantStop s fun t => t.agg.boot.core = .coolant ∧ t.agg.si.coolSeen = true ∧ t.agg.si.energised = s.agg.si.energised) ∧
  -- AGG_AGE_MEASURE (R659, R220): every active site takes its value, or is faulty
  (∀ (s : State) (vals : List (BitVec 16)) (faults : BitVec 24), s.agg.bit 0xC0030 0 = true → s.agg.coreRuns = true →
    s.agg.pwr.lastMeas + s.agg.fld 0xC0030 31 16 ≤ s.agg.life →
    Runs (.aggAgeMeasure vals faults) s fun t => t.agg.pwr.lastMeas = s.agg.life ∧ ∀ k < 24, s.agg.aggSiteActive k = true →
      (faults.toNat.testBit k = false → t.agg.fld (aggSiteBase k + 0x0C) 15 0 = ((vals[k]?).getD 0).toNat) ∧
      (faults.toNat.testBit k = true → (t.agg.aggSite k).fault = true)) ∧
  -- AGG_RECOAT_CYCLE (R661): a core site below its LOW makes a margin step where one is left
  (∀ (s : State) (k : Nat), s.agg.fwRuns = true → s.agg.fld 0xC0034 15 0 ≠ 0 → s.agg.pwr.lastRecoat + s.agg.fld 0xC0034 15 0 ≤ s.agg.life →
    k ∈ s.agg.domainActive 0 → s.agg.fld (aggSiteBase k + 0x0C) 15 0 < s.agg.fld (aggSiteBase k + 0x08) 15 0 → s.agg.aggLevel 0 < 7 → s.agg.volts 0 < 4 →
    Runs .aggRecoatCycle s fun t => t.agg.pwr.lastRecoat = s.agg.life ∧ t.agg.aggLevel 0 = s.agg.aggLevel 0 + 1) ∧
  -- AGG_FIT_SAVE (R660, R708): a life copy with the life count goes to the EEPROM, or the flag says that it did not
  (∀ (s : State) (ok : Bool), s.agg.fwRuns = true → s.agg.pwr.lastFit + 3600 * s.agg.fld 0xC0030 15 8 ≤ s.agg.life →
    Runs (.aggFitSave ok) s fun t => t.agg.pwr.lastFit = s.agg.life ∧
      (ok = true → ∃ k < 2, lifeGood t.agg.eeprom k = true ∧ mreadNat t.agg.eeprom (lifeBase k + 4) 4 = s.agg.life) ∧
      (ok = false → t.agg.eeprom = s.agg.eeprom ∧ wbit (t.agg.reg 0xE0000) 21 = true))

/-- The partner watch, checkpoints and pair sync do what R685 to R694 say. Where these rules leave a point open, a clause follows the model's choice
(log entries 99, 123, 130 and 132). -/
def Obligations.PairCommands : Prop :=
  -- PAIR_KEEPALIVE_SEND, PAIR_KEEPALIVE_RECEIVE, PARTNER_CORE_LOST (R685)
  (∀ (s : State), s.agg.linksLive = true → s.agg.paired = true → s.agg.pair.sentAt + 1000000 ≤ s.agg.now →
    Runs .pairKeepaliveSend s fun t => t.agg.pair.sentAt = s.agg.now ∧
      (s.agg.partnerUp = true → s.agg.bundle.waiting = [] → s.agg.unackedTc6 < 64 → t.agg.bundle.nextSeq = (s.agg.bundle.nextSeq + 1) % 2 ^ 32) ∧
      (s.agg.partnerUp = true → s.agg.bundle.waiting ≠ [] ∨ 64 ≤ s.agg.unackedTc6 → t.agg.bundle.waiting.length = s.agg.bundle.waiting.length + 1)) ∧
  (∀ (s : State), s.agg.linksLive = true → s.agg.partnerUp = true →
    Runs .pairKeepaliveReceive s fun t => t.agg.pair.keptAt = s.agg.now ∧ t.agg.pair.lost = false) ∧
  (∀ (s : State), s.agg.fwRuns = true → s.agg.paired = true → s.agg.pair.lost = false → s.agg.pair.keptAt + 3000000 ≤ s.agg.now →
    Runs .partnerCoreLost s fun t => t.agg.pair.lost = true ∧ wbit (t.agg.reg 0xD0004) 6 = true) ∧
  -- PARTNER_SI_LOST (R685): 30 misses in a row on every partner link
  (∀ (s : State), s.agg.powered = true → s.agg.partnerMembers ≠ [] → (∀ k ∈ s.agg.partnerMembers, 30 ≤ (s.agg.link k).safeMiss) → s.agg.si.pSiOk = true →
    Runs .partnerSiLost s fun t => t.agg.si.pSiOk = false ∧ wbit (t.agg.reg 0xD0004) 7 = true) ∧
  -- CHECKPOINT_WRITE (R687): one for each epoch window whose verdicts are final; it goes to the keeper whole
  (∀ (s : State) (k : Nat), s.agg.fwRuns = true → s.agg.boot.ready = true → s.agg.time.sched.isSome = true → s.agg.pair.ckpt ≠ some s.agg.epochWindow →
    s.agg.strokeHt s.agg.epochWindow ≤ s.agg.ht → (∀ n ∈ s.agg.usedJobs, s.agg.finalBefore s.agg.epochWindow n = true) → s.agg.keeperLink = some k → k < 32 →
    Runs .checkpointWrite s fun t => t.agg.pair.ckpt = some s.agg.epochWindow ∧ t.agg.pair.ckptOk = false ∧
      ∃ q, ((t.agg.link k).txOf 5).queue = ((s.agg.link k).txOf 5).queue ++ [q] ∧ ckptGood q.bytes = true) ∧
  -- CHECKPOINT_FAIL (R687): it still waits to leave when the next epoch comes
  (∀ (s : State) (w : Nat), s.agg.fwRuns = true → s.agg.pair.ckpt = some w → s.agg.pair.ckptOk = false → s.agg.ckptQueued w = true → w < s.agg.epochWindow →
    Runs .checkpointFail s fun t => t.agg.pair.ckpt = none ∧ t.agg.pair.ckptFails = (s.agg.pair.ckptFails + 1) % 2 ^ 32 ∧ wbit (t.agg.reg 0xD0004) 8 = true) ∧
  -- CHECKPOINT_RECEIVE and CHECKPOINT_FETCH (R688)
  (∀ (s : State) (m : List Byte), s.agg.linksLive = true → ckptGood m = true →
    (∀ x ∈ s.agg.pair.kept, x.tray = leAt m 4 2 % 4096 → x.role = leAt m 2 1 % 2 → x.window ≤ leAt m 6 6) →
    Runs (.checkpointReceive m) s fun t => ∃ x ∈ t.agg.pair.kept, x.tray = leAt m 4 2 % 4096 ∧ x.role = leAt m 2 1 % 2 ∧ x.bytes = m) ∧
  (∀ (s : State) (k : Fin 32) (tray : BitVec 12) (partners : Option (List Byte)), s.agg.linksLive = true → (s.agg.link k.val).state = .up →
    Runs (.checkpointFetch k tray partners) s fun t => t.agg.Queued s.agg k.val 5 .checkpointReply [tray.toNat]) ∧
  -- PAIR_SYNC_START (R689): from the partner, or from the keeper where the partner is lost
  (∀ (s : State) (c : Caller) (source : BitVec 1) (fallback : Bool) (theirs : Option (List Byte)), s.agg.takes c → c.ring.val = 0 → s.agg.ident.paired = true →
    s.agg.otherVariant = false → s.agg.usedJobs = [] → (∀ d, theirs = some d → d = s.agg.keyDigest) → s.agg.pair.sync ≠ 1 → s.agg.boot.ready = true →
    Runs (.pairSyncStart c source fallback theirs) s fun t =>
      (source = 0 ∧ s.agg.pair.lost = false ∨ (source ≠ 0 ∨ fallback = true) ∧ s.agg.fetchLinks ≠ [] →
        t.agg.pair.sync = 1 ∧ t.agg.pair.starter = some (who c) ∧ t.agg.pair.source = (if source = 0 ∧ s.agg.pair.lost = false then 0 else 1)) ∧
      (source = 0 → s.agg.pair.lost = true → fallback = false → ∃ h : Agg, t.agg = h.complete (who c) 0x7E .aborted [])) ∧
  -- PAIR_SYNC_STATE_RECEIVE (R690): the partner's state is installed
  (∀ (s : State) (x : PairContent), s.agg.linksLive = true → s.agg.partnerUp = true → s.agg.pair.sync = 1 → s.agg.pair.source = 0 → s.agg.pair.missing = [] →
    Runs (.pairSyncStateReceive (some x)) s fun t => t.agg.pair.sync = 2 ∧ t.agg.pair.base = x.window ∧ t.agg.pair.starter = none ∧
      t.agg.verdicts.dust = x.dust ∧ t.agg.stencil.entities = x.entities) ∧
  -- or the keeper's checkpoint is (R692); without one the sync ends
  (∀ (s : State) (x : PairContent), s.agg.linksLive = true → s.agg.pair.sync = 1 → s.agg.pair.source = 1 →
    Runs (.pairSyncStateReceive (some x)) s fun t => t.agg.pair.sync = (if t.agg.pair.missing = [] then 2 else 3) ∧ t.agg.pair.base = x.window ∧
      t.agg.pair.starter = none ∧ t.agg.verdicts.dust = x.dust ∧ t.agg.stencil.entities = x.entities) ∧
  (∀ (s : State), s.agg.linksLive = true → s.agg.pair.sync = 1 → s.agg.pair.source = 1 →
    Runs (.pairSyncStateReceive none) s fun t => t.agg.pair.sync = 0 ∧ t.agg.pair.starter = none) ∧
  -- PAIR_SYNC_REQUEST_RECEIVE (R690)
  (∀ (s : State), s.agg.linksLive = true → s.agg.partnerUp = true → s.agg.boot.ready = true →
    Runs .pairSyncRequestReceive s fun t => t.agg.pair.sync = 5 ∧ t.agg.pair.serveAt.isSome = true) ∧
  -- PAIR_STATUS (R694)
  (∀ (s : State) (c : Caller), s.agg.takes c →
    Runs (.pairStatus c) s fun t => ∃ tray, t.agg.Completed c 0x7F [(1, b2n (s.agg.paired && !s.agg.pair.lost)), (1, b2n s.agg.si.pSiOk),
      (4, min 15 s.agg.partnerLinks.length), (3, s.agg.pair.sync), (64, s.agg.pair.bytesDone), (48, rget64 s.agg.regs 0xD0030), (12, tray), (32, s.agg.pair.ckptFails)])

/-- Power, resets, the Primer and bring-up do what R654, R700 to R719 and R732 to R754 say. Where these rules leave a point open, a clause follows
the model's choice (log entries 101, 103 to 106 and 131). -/
def Obligations.BootCommands : Prop :=
  -- MODULE_POWER_ON (R703, R704): checks passed, the loop closes and the Primer starts, or the coolant stop is entered
  (∀ (s : State) (x : Straps) (coolant : Bool) (prog : List (Nat × List Byte)), s.agg.powered = false →
    blockGood (prog.foldl (fun m w => mwrite m w.1 w.2) s.agg.eeprom) 0x400 128 = true →
    Runs (.modulePowerOn x coolant true true true prog) s fun t => t.agg.si.energised = true ∧ t.agg.boot.inputOn = true ∧ t.agg.boot.linkOn = true ∧
      t.agg.boot.core = (if coolant then .coolant else .primer) ∧ t.agg.ident.trayId = x.trayId.toNat ∧ t.agg.ident.paired = x.paired ∧
      t.agg.eeprom = prog.foldl (fun m w => mwrite m w.1 w.2) s.agg.eeprom) ∧
  (∀ (s : State) (x : Straps) (coolant switches rails : Bool) (prog : List (Nat × List Byte)), s.agg.powered = false →
    Runs (.modulePowerOn x coolant false switches rails prog) s fun t => t.agg.si.energised = false ∧ t.agg.boot.core = .held) ∧
  -- MODULE_RESET (R700, R737): the loop is kept; in a power fail the reset waits for the input
  (∀ (s : State) (x : Straps) (coolant : Bool) (prog : List (Nat × List Byte)), s.agg.powered = true →
    Runs (.moduleReset x coolant prog) s fun t => t.agg.si.energised = s.agg.si.energised ∧
      (s.agg.boot.linkOn = true → s.agg.boot.inputOn = true →
        t.agg.boot.core = (if coolant then .coolant else .primer) ∧ t.agg.jobs = {} ∧ t.agg.ident.trayId = x.trayId.toNat) ∧
      (s.agg.boot.linkOn = true → s.agg.boot.inputOn = false → t.agg.boot.rstSeen = true ∧ t.agg.boot.core = s.agg.boot.core) ∧
      (s.agg.boot.linkOn = false → t.agg.boot.core = s.agg.boot.core)) ∧
  -- PRIMER_FETCH (R710): a TFTP request to the server, or IMAGE_REQ to the partner
  (∀ (s : State), s.agg.boot.core = .primer → s.agg.boot.stopped = false → s.agg.boot.fetching = false → s.agg.boot.waitEnd = none →
    Runs .primerFetch s fun t => t.agg.boot.fetching = true ∧ t.agg.boot.progressAt = s.agg.now ∧
      (((imageSources s.agg.boot.bootSrc)[s.agg.boot.tried]?).getD 0 = 0 →
        t.agg.outbox = s.agg.outbox ++ [Out.datagram (mreadNat s.agg.eeprom 0x8C 16) (mreadNat s.agg.eeprom 0x9C 2) s.agg.tftpRequest])) ∧
  -- PRIMER_IMAGE_CHECK (R711, R713): a good image starts; a bad one says which check failed; none is a failed source
  (∀ (s : State) (m : List Byte), s.agg.boot.core = .primer → s.agg.boot.fetching = true → s.agg.imageError m = none →
    Runs (.primerImageCheck (some m)) s fun t => t.agg.boot.core = .fw ∧ t.agg.boot.image = m ∧ t.agg.ident.fwVersion = leAt m 4 4 ∧
      t.agg.ident.fwDigest = crcOf crc64ecma m ∧ (t.agg.ring 0).key = mread s.agg.eeprom 0x1A4 32) ∧
  (∀ (s : State) (m : List Byte) (e : Nat), s.agg.boot.core = .primer → s.agg.boot.fetching = true → s.agg.imageError m = some e →
    Runs (.primerImageCheck (some m)) s fun t => t.agg.boot.core = .primer ∧ t.agg.boot.fetching = false ∧ t.agg.fld 0xE0000 15 8 = e ∧ wbit (t.agg.reg 0xE0000) 17 = true) ∧
  (∀ (s : State), s.agg.boot.core = .primer → s.agg.boot.fetching = true →
    Runs (.primerImageCheck none) s fun t => t.agg.boot.core = .primer ∧ t.agg.boot.fetching = false ∧ wbit (t.agg.reg 0xE0000) 16 = true) ∧
  -- PRIMER_SOURCE_TIMEOUT and PRIMER_PASS_WAIT_END (R711)
  (∀ (s : State), s.agg.boot.core = .primer → s.agg.boot.fetching = true → s.agg.boot.progressAt + 100000000 ≤ s.agg.now →
    Runs .primerSourceTimeout s fun t => t.agg.boot.fetching = false ∧ wbit (t.agg.reg 0xE0000) 16 = true ∧
      (s.agg.boot.tried + 1 < (imageSources s.agg.boot.bootSrc).length → t.agg.boot.tried = s.agg.boot.tried + 1 ∧ t.agg.boot.waitEnd = s.agg.boot.waitEnd) ∧
      ((imageSources s.agg.boot.bootSrc).length ≤ s.agg.boot.tried + 1 → t.agg.boot.tried = 0 ∧ t.agg.boot.passes = s.agg.boot.passes + 1 ∧
        t.agg.boot.waitEnd = some (s.agg.now + min (30 * second) (second * 2 ^ min 10 s.agg.boot.passes)))) ∧
  (∀ (s : State) (a : Nat), s.agg.boot.waitEnd = some a → a ≤ s.agg.now → Runs .primerPassWaitEnd s fun t => t.agg.boot.waitEnd = none) ∧
  -- IMAGE_REQ_RECEIVE (R705, R710): the running image goes to the partner, and a Primer answers NONE
  (∀ (s : State), s.agg.fwRuns = true ∨ s.agg.boot.core = .primer → s.agg.partnerUp = true → s.agg.bundle.waiting = [] → s.agg.unackedTc6 < 64 →
    Runs .imageReqReceive s fun t => ∃ k ∈ s.agg.partnerLinks, ∃ q rest m, ((t.agg.link k).txOf 6).queue = ((s.agg.link k).txOf 6).queue ++ q :: rest ∧
      q.ctl = some m ∧ m.kind = (if s.agg.fwRuns then .image else .imageNone)) ∧
  -- BOOT_STATUS_SEND (R715): to every peer, once a second
  (∀ (s : State), s.agg.boot.core = .primer → (∀ a, s.agg.boot.statusAt = some a → a + second ≤ s.agg.now) → managementGood s.agg.eeprom = true →
    Runs .bootStatusSend s fun t => t.agg.outbox = s.agg.outbox ++ s.agg.peersOf.map (fun p => .datagram p.addr 7303 s.agg.bootStatus) ∧
      t.agg.boot.statusAt = some s.agg.now) ∧
  -- HBM_TRAINING_DONE (R717): the third failure is BOOT_ERR 8
  (∀ (s : State) (ok : Bool), s.agg.linksLive = true → s.agg.hasHbm = true → s.agg.boot.hbmDone = false →
    Runs (.hbmTrainingDone ok) s fun t => (ok = true → t.agg.boot.hbmDone = true) ∧
      (ok = false → t.agg.boot.hbmFails = s.agg.boot.hbmFails + 1 ∧ wbit (t.agg.reg 0xE0000) 18 = true ∧
        (2 ≤ s.agg.boot.hbmFails → t.agg.fld 0xE0000 15 8 = 8 ∧ t.agg.boot.core = .halted))) ∧
  -- ATU_DISCOVERY and DISCOVERY_RETRY (R719, R754): the firmware makes the four reads
  (∀ (s : State) (p : Fin 64), s.agg.linksLive = true → s.agg.portUp p.val = true → p.val ∉ s.agg.boot.checked → s.agg.discovering p.val = false →
    (∀ a ∈ s.agg.boot.attempts, a.1 ≠ p.val) →
    Runs (.atuDiscovery p) s fun t => ∃ h : Agg, t.agg = h.kick p.val ∧ h.acc.jobs = s.agg.acc.jobs ++ [{ ident := s.agg.acc.nextId, port := p.val, ring := fwRing, tag := 0, opcode := 0x21, use := .discovery, todo := [rd 0x0000, rd 0x0004, rd 0x0008, rd 0x000C] }]) ∧
  (∀ (s : State) (p : Fin 64) (n a : Nat), s.agg.linksLive = true → s.agg.portUp p.val = true → s.agg.discovering p.val = false →
    (p.val, n, a) ∈ s.agg.boot.attempts → a + 1000000 ≤ s.agg.now →
    Runs (.discoveryRetry p) s fun t => ∃ h : Agg, t.agg = h.kick p.val ∧ h.acc.jobs = s.agg.acc.jobs ++ [{ ident := s.agg.acc.nextId, port := p.val, ring := fwRing, tag := 0, opcode := 0x21, use := .discovery, todo := [rd 0x0000, rd 0x0004, rd 0x0008, rd 0x000C] }]) ∧
  -- POWER_FAIL and POWER_RETURN (R733, R735): the core stops and starts again; the loop and the links hold
  (∀ (s : State), s.agg.powered = true → s.agg.boot.inputOn = true →
    Runs .powerFail s fun t => t.agg.boot.inputOn = false ∧ t.agg.si.energised = s.agg.si.energised ∧ t.agg.fld 0xE0000 15 8 = 9 ∧
      t.agg.boot.core = (if s.agg.boot.core = .coolant ∨ s.agg.boot.core = .held then s.agg.boot.core else .holdUp)) ∧
  (∀ (s : State) (x : Straps) (coolant : Bool), s.agg.boot.core = .holdUp → s.agg.boot.inputOn = false → s.agg.boot.rstSeen = false →
    Runs (.powerReturn x coolant) s fun t => t.agg.boot.inputOn = true ∧ t.agg.boot.core = (if coolant then .coolant else .primer) ∧
      t.agg.si.energised = s.agg.si.energised) ∧
  -- HOLDUP_EXHAUSTED and INPUT_OVERCURRENT (R736, R732): every rail falls and the loop is released; the EEPROM stays
  (∀ (s : State), s.agg.powered = true → s.agg.boot.inputOn = false →
    Runs .holdupExhausted s fun t => t.agg.powered = false ∧ t.agg.si.energised = false ∧ t.agg.mem = [] ∧ t.agg.eeprom = s.agg.eeprom) ∧
  (∀ (s : State), s.agg.powered = true →
    Runs .inputOvercurrent s fun t => t.agg.powered = false ∧ t.agg.si.energised = false ∧ t.agg.mem = [] ∧ t.agg.eeprom = s.agg.eeprom)
end

