-- ==== Sys2Proof/Laws/State.lean ====
section
/-!
SUPPORT. State.lean: the laws of the sparse tables that memories and register files are: what was put is read, elsewhere nothing changes, the
canonical form is kept.
-/
namespace Sys2Proof.Machine
theorem sget_serase_self {α : Type} (d : α) (m : SMap α) (k : Nat) : sget d (serase m k) k = d := by
  unfold serase
  induction m with
  | nil => rfl
  | cons a t ih =>
    obtain ⟨i, w⟩ := a
    by_cases h : i = k <;> simp_all [sget]

theorem sget_serase_ne {α : Type} (d : α) (m : SMap α) (k j : Nat) (h : j ≠ k) : sget d (serase m k) j = sget d m j := by
  unfold serase
  induction m with
  | nil => rfl
  | cons a t ih =>
    obtain ⟨i, w⟩ := a
    by_cases hi : i = k
    · subst hi; simp_all [sget, Ne.symm h]
    · simp_all [sget]

/-- What was put is read. -/
@[simp] theorem sget_sset_self {α : Type} [DecidableEq α] (d : α) (m : SMap α) (k : Nat) (v : α) : sget d (sset d m k v) k = v := by
  induction m with
  | nil => by_cases h : v = d <;> simp [sset, sget, h]
  | cons a t ih =>
    obtain ⟨i, w⟩ := a
    simp only [sset]
    split
    · split
      · next h1 h => rw [sget, if_neg (by omega), sget_serase_self, h]
      · simp [sget]
    · split
      · split
        · next h => rw [sget_serase_self, h]
        · simp [sget]
      · next h => rw [sget, if_neg (Ne.symm h), ih]

/-- Elsewhere nothing changes. -/
theorem sget_sset_ne {α : Type} [DecidableEq α] (d : α) (m : SMap α) (k j : Nat) (v : α) (h : j ≠ k) : sget d (sset d m k v) j = sget d m j := by
  induction m with
  | nil => by_cases hv : v = d <;> simp [sset, sget, hv, Ne.symm h]
  | cons a t ih =>
    obtain ⟨i, w⟩ := a
    simp only [sset]
    split
    · split
      · simp only [sget, sget_serase_ne d t k j h]
      · rw [sget, if_neg (Ne.symm h)]
    · split
      · next hk =>
        subst hk
        split
        · rw [sget_serase_ne d t _ j h, sget, if_neg (Ne.symm h)]
        · simp only [sget, if_neg (Ne.symm h)]
      · simp only [sget, ih]

theorem swfFrom_mono {α : Type} [DecidableEq α] (d : α) (m : SMap α) (a b : Nat) (h : b ≤ a) (w : swfFrom d a m = true) : swfFrom d b m = true := by
  cases m with
  | nil => rfl
  | cons x t => simp only [swfFrom, Bool.and_eq_true, decide_eq_true_eq] at *; exact ⟨⟨by omega, w.1.2⟩, w.2⟩
theorem swfFrom_serase {α : Type} [DecidableEq α] (d : α) (m : SMap α) (a k : Nat) (w : swfFrom d a m = true) : swfFrom d a (serase m k) = true := by
  unfold serase
  induction m generalizing a with
  | nil => rfl
  | cons x t ih =>
    simp only [swfFrom, Bool.and_eq_true, decide_eq_true_eq] at w
    rw [List.filter_cons]
    split
    · simp only [swfFrom, Bool.and_eq_true, decide_eq_true_eq]; exact ⟨w.1, ih _ w.2⟩
    · exact swfFrom_mono d _ _ _ (by omega) (ih _ w.2)

theorem swfFrom_sset {α : Type} [DecidableEq α] (d : α) (m : SMap α) (a k : Nat) (v : α) (hk : a ≤ k) (w : swfFrom d a m = true) :
    swfFrom d a (sset d m k v) = true := by
  induction m generalizing a with
  | nil => by_cases hv : v = d <;> simp [sset, swfFrom, hk, hv]
  | cons x t ih =>
    obtain ⟨i, u⟩ := x
    simp only [swfFrom, Bool.and_eq_true, decide_eq_true_eq] at w
    simp only [sset]
    split
    · next h =>
      split
      · simp only [swfFrom, Bool.and_eq_true, decide_eq_true_eq]; exact ⟨w.1, swfFrom_serase d t _ k w.2⟩
      · next hv => simp [swfFrom, hk, hv, w.1.2, w.2]; omega
    · split
      · next h =>
        split
        · exact swfFrom_mono d _ _ _ (by omega) (swfFrom_serase d t _ k w.2)
        · next hv => subst h; simp [swfFrom, hv, w.1.1, w.2]
      · simp only [swfFrom, Bool.and_eq_true, decide_eq_true_eq]; exact ⟨w.1, ih _ (by omega) w.2⟩

/-- Putting a value keeps the canonical form. -/
@[simp] theorem swf_sset {α : Type} [DecidableEq α] (d : α) (m : SMap α) (k : Nat) (v : α) (w : swf d m = true) : swf d (sset d m k v) = true :=
  swfFrom_sset d m 0 k v (Nat.zero_le k) w

/-- A write of bytes keeps the canonical form of a memory. -/
@[simp] theorem swf_mwrite (m : SMap Byte) (a : Nat) (bs : List Byte) (w : swf 0 m = true) : swf 0 (mwrite m a bs) = true := by
  induction bs generalizing m a with
  | nil => exact w
  | cons b t ih => exact ih _ _ (swf_sset 0 m a b w)
@[simp] theorem swf_ringWrite (m : SMap Byte) (base size p : Nat) (bs : List Byte) (w : swf 0 m = true) : swf 0 (ringWrite m base size p bs) = true := by
  induction bs generalizing m p with
  | nil => exact w
  | cons b t ih => exact ih _ _ (swf_sset 0 m _ b w)
/-- So does a write into the parts of a place. -/
@[simp] theorem swf_writeParts (l : List (Nat × Nat)) (o : Nat) (bs : List Byte) (m : SMap Byte) (w : swf 0 m = true) : swf 0 (writeParts l o bs m) = true := by
  induction l generalizing o bs m with
  | nil => exact w
  | cons x l ih =>
    unfold writeParts
    split
    · exact ih _ _ _ w
    · exact ih _ _ _ (swf_mwrite m _ _ w)

/-- A write of bytes leaves every other byte alone. -/
theorem mget_mwrite_out (m : SMap Byte) (a k : Nat) (bs : List Byte) (h : k < a ∨ a + bs.length ≤ k) : mget (mwrite m a bs) k = mget m k := by
  induction bs generalizing m a with
  | nil => rfl
  | cons b t ih =>
    simp only [List.length_cons] at h
    rw [mwrite, ih _ _ (by omega)]
    exact sget_sset_ne 0 m a k b (by omega)
/-- A byte that was written is read. -/
theorem mget_mwrite_in (m : SMap Byte) (a i : Nat) (bs : List Byte) (h : i < bs.length) : mget (mwrite m a bs) (a + i) = bs[i] := by
  induction bs generalizing m a i with
  | nil => simp at h
  | cons b t ih =>
    cases i with
    | zero => rw [mwrite, mget_mwrite_out _ _ _ _ (by omega)]; exact sget_sset_self 0 m a b
    | succ j => rw [mwrite, show a + (j + 1) = a + 1 + j by omega, ih]; rfl
@[simp] theorem mread_length (m : SMap Byte) (a n : Nat) : (mread m a n).length = n := by
  induction n generalizing a with
  | zero => rfl
  | succ n ih => simp [mread, ih]
/-- What was written is read back. -/
@[simp] theorem mread_mwrite (m : SMap Byte) (a : Nat) (bs : List Byte) : mread (mwrite m a bs) a bs.length = bs := by
  apply List.ext_getElem (by simp)
  intro i h1 h2
  have hm : ∀ (m : SMap Byte) (n a i : Nat) (h : i < (mread m a n).length), (mread m a n)[i] = mget m (a + i) := by
    intro m n
    induction n with
    | zero => intro a i h; simp [mread] at h
    | succ n ih => intro a i h; cases i with
      | zero => rfl
      | succ j => simp only [mread, List.getElem_cons_succ]; rw [ih]; congr 1; omega
  rw [hm]; exact mget_mwrite_in m a i bs h2

/-! ### Registers -/

@[simp] theorem rget_rset_self (r : SMap Word) (o : Nat) (v : Word) : rget (rset r o v) o = v := sget_sset_self 0 r o v
theorem rget_rset_ne (r : SMap Word) (o k : Nat) (v : Word) (h : k ≠ o) : rget (rset r o v) k = rget r k := sget_sset_ne 0 r o k v h
@[simp] theorem rget_rsetN_self (r : SMap Word) (o v : Nat) : rget (rsetN r o v) o = BitVec.ofNat 32 v := rget_rset_self r o _
@[simp] theorem swf_rset (r : SMap Word) (o : Nat) (v : Word) (w : swf 0 r = true) : swf 0 (rset r o v) = true := swf_sset 0 r o v w

theorem step_front (s : State) (c : Instr) (rest : List Instr) (h : s.pending = c :: rest) : step s = exec c { s with pending := rest } := by
  simp [step, h]

end Sys2Proof.Machine
end

