-- ==== Sys2Proof/Laws/PartFields.lean ====
section
/-!
SUPPORT. PartFields.lean: a part of a machine as a function of the machine, and that function under an update of one field, a choice and a fold. The lemmas of the
files that follow are stated in it: `AtuPart.get` and `AggPart.get` of what an operation answers, for every part outside a list.
-/
namespace Sys2Proof.Machine
set_option linter.all false

/-! ### The parts of an ATU -/

/-- The type of a part of an ATU. -/
abbrev AtuPart.Ty : AtuPart → Type
  | .time => AtuTime
  | .samp => Sampling
  | .path => FramePath
  | .trace => TraceUnit
  | .log => LogUnit
  | .age => AgeUnit
  | .sand => Vector SandCore 16
  | .evr => EvrUnit
  | .bound => Boundary
  | .safe => SafeFwd
  | .portA => PortEnd
  | .portB => PortEnd
  | .hostMem => SMap Byte

/-- A part of an ATU, its registers apart. -/
def AtuPart.get : (q : AtuPart) → Atu → q.Ty
  | .time, m => m.time
  | .samp, m => m.samp
  | .path, m => m.path
  | .trace, m => m.trace
  | .log, m => m.log
  | .age, m => m.age
  | .sand, m => m.sand
  | .evr, m => m.evr
  | .bound, m => m.bound
  | .safe, m => m.safe
  | .portA, m => m.portA
  | .portB, m => m.portB
  | .hostMem, m => m.hostMem

/-- The words of the frame statements, in those of the lemmas. -/
theorem AtuPart.same_iff (q : AtuPart) (a b : Atu) : q.same a b ↔ q.get a = q.get b := by cases q <;> rfl
@[simp] theorem AtuPart.get_ite (q : AtuPart) {c : Prop} [Decidable c] (x y : Atu) : q.get (if c then x else y) = if c then q.get x else q.get y := by split <;> rfl
@[simp] theorem AtuPart.get_foldl (q : AtuPart) {α : Type} (l : List α) (f : Atu → α → Atu) (h : ∀ b x, q.get (f b x) = q.get b) (a : Atu) : q.get (l.foldl f a) = q.get a := by
  induction l generalizing a with
  | nil => rfl
  | cons x l ih => simp only [List.foldl_cons, ih, h]
@[simp] theorem AtuPart.get_foldl1 (q : AtuPart) {α β : Type} (l : List α) (f : Atu × β → α → Atu × β) (h : ∀ b x, q.get (f b x).1 = q.get b.1) (a : Atu × β) : q.get (l.foldl f a).1 = q.get a.1 := by
  induction l generalizing a with
  | nil => rfl
  | cons x l ih => simp only [List.foldl_cons, ih, h]
@[simp] theorem Atu.regs_foldl {α : Type} (l : List α) (f : Atu → α → Atu) (h : ∀ b x, (f b x).regs = b.regs) (a : Atu) : (l.foldl f a).regs = a.regs := by
  induction l generalizing a with
  | nil => rfl
  | cons x l ih => simp only [List.foldl_cons, ih, h]
@[simp] theorem Atu.regs_foldl1 {α β : Type} (l : List α) (f : Atu × β → α → Atu × β) (h : ∀ b x, (f b x).1.regs = b.1.regs) (a : Atu × β) : (l.foldl f a).1.regs = a.1.regs := by
  induction l generalizing a with
  | nil => rfl
  | cons x l ih => simp only [List.foldl_cons, ih, h]
@[simp] theorem Atu.regs_ite {c : Prop} [Decidable c] (x y : Atu) : (if c then x else y).regs = if c then x.regs else y.regs := by split <;> rfl

/-- An update of one field leaves every other part. -/
@[simp] theorem AtuPart.get_setRegs (q : AtuPart) (m : Atu) (v : SMap Word) : q.get { m with regs := v } = q.get m := by cases q <;> rfl
@[simp] theorem AtuPart.get_setTime (q : AtuPart) (m : Atu) (v : AtuTime) (h : q ≠ .time) : q.get { m with time := v } = q.get m := by cases q <;> first | rfl | exact absurd rfl h
@[simp] theorem AtuPart.get_setSamp (q : AtuPart) (m : Atu) (v : Sampling) (h : q ≠ .samp) : q.get { m with samp := v } = q.get m := by cases q <;> first | rfl | exact absurd rfl h
@[simp] theorem AtuPart.get_setPath (q : AtuPart) (m : Atu) (v : FramePath) (h : q ≠ .path) : q.get { m with path := v } = q.get m := by cases q <;> first | rfl | exact absurd rfl h
@[simp] theorem AtuPart.get_setTrace (q : AtuPart) (m : Atu) (v : TraceUnit) (h : q ≠ .trace) : q.get { m with trace := v } = q.get m := by cases q <;> first | rfl | exact absurd rfl h
@[simp] theorem AtuPart.get_setLog (q : AtuPart) (m : Atu) (v : LogUnit) (h : q ≠ .log) : q.get { m with log := v } = q.get m := by cases q <;> first | rfl | exact absurd rfl h
@[simp] theorem AtuPart.get_setAge (q : AtuPart) (m : Atu) (v : AgeUnit) (h : q ≠ .age) : q.get { m with age := v } = q.get m := by cases q <;> first | rfl | exact absurd rfl h
@[simp] theorem AtuPart.get_setSand (q : AtuPart) (m : Atu) (v : Vector SandCore 16) (h : q ≠ .sand) : q.get { m with sand := v } = q.get m := by cases q <;> first | rfl | exact absurd rfl h
@[simp] theorem AtuPart.get_setEvr (q : AtuPart) (m : Atu) (v : EvrUnit) (h : q ≠ .evr) : q.get { m with evr := v } = q.get m := by cases q <;> first | rfl | exact absurd rfl h
@[simp] theorem AtuPart.get_setBound (q : AtuPart) (m : Atu) (v : Boundary) (h : q ≠ .bound) : q.get { m with bound := v } = q.get m := by cases q <;> first | rfl | exact absurd rfl h
@[simp] theorem AtuPart.get_setSafe (q : AtuPart) (m : Atu) (v : SafeFwd) (h : q ≠ .safe) : q.get { m with safe := v } = q.get m := by cases q <;> first | rfl | exact absurd rfl h
@[simp] theorem AtuPart.get_setPortA (q : AtuPart) (m : Atu) (v : PortEnd) (h : q ≠ .portA) : q.get { m with portA := v } = q.get m := by cases q <;> first | rfl | exact absurd rfl h
@[simp] theorem AtuPart.get_setPortB (q : AtuPart) (m : Atu) (v : PortEnd) (h : q ≠ .portB) : q.get { m with portB := v } = q.get m := by cases q <;> first | rfl | exact absurd rfl h
@[simp] theorem AtuPart.get_setHostMem (q : AtuPart) (m : Atu) (v : SMap Byte) (h : q ≠ .hostMem) : q.get { m with hostMem := v } = q.get m := by cases q <;> first | rfl | exact absurd rfl h

/-- A part that an update of several fields takes over is what it was. -/
@[simp] theorem AtuPart.get_keepTime (m : Atu) {x0 : SMap Word} {x2 : Sampling} {x3 : FramePath} {x4 : TraceUnit} {x5 : LogUnit} {x6 : AgeUnit} {x7 : Vector SandCore 16} {x8 : EvrUnit} {x9 : Boundary} {x10 : SafeFwd} {x11 : PortEnd} {x12 : PortEnd} {x13 : SMap Byte} : AtuPart.get .time (Atu.mk x0 (Atu.time m) x2 x3 x4 x5 x6 x7 x8 x9 x10 x11 x12 x13) = AtuPart.get .time m := rfl
@[simp] theorem AtuPart.get_keepSamp (m : Atu) {x0 : SMap Word} {x1 : AtuTime} {x3 : FramePath} {x4 : TraceUnit} {x5 : LogUnit} {x6 : AgeUnit} {x7 : Vector SandCore 16} {x8 : EvrUnit} {x9 : Boundary} {x10 : SafeFwd} {x11 : PortEnd} {x12 : PortEnd} {x13 : SMap Byte} : AtuPart.get .samp (Atu.mk x0 x1 (Atu.samp m) x3 x4 x5 x6 x7 x8 x9 x10 x11 x12 x13) = AtuPart.get .samp m := rfl
@[simp] theorem AtuPart.get_keepPath (m : Atu) {x0 : SMap Word} {x1 : AtuTime} {x2 : Sampling} {x4 : TraceUnit} {x5 : LogUnit} {x6 : AgeUnit} {x7 : Vector SandCore 16} {x8 : EvrUnit} {x9 : Boundary} {x10 : SafeFwd} {x11 : PortEnd} {x12 : PortEnd} {x13 : SMap Byte} : AtuPart.get .path (Atu.mk x0 x1 x2 (Atu.path m) x4 x5 x6 x7 x8 x9 x10 x11 x12 x13) = AtuPart.get .path m := rfl
@[simp] theorem AtuPart.get_keepTrace (m : Atu) {x0 : SMap Word} {x1 : AtuTime} {x2 : Sampling} {x3 : FramePath} {x5 : LogUnit} {x6 : AgeUnit} {x7 : Vector SandCore 16} {x8 : EvrUnit} {x9 : Boundary} {x10 : SafeFwd} {x11 : PortEnd} {x12 : PortEnd} {x13 : SMap Byte} : AtuPart.get .trace (Atu.mk x0 x1 x2 x3 (Atu.trace m) x5 x6 x7 x8 x9 x10 x11 x12 x13) = AtuPart.get .trace m := rfl
@[simp] theorem AtuPart.get_keepLog (m : Atu) {x0 : SMap Word} {x1 : AtuTime} {x2 : Sampling} {x3 : FramePath} {x4 : TraceUnit} {x6 : AgeUnit} {x7 : Vector SandCore 16} {x8 : EvrUnit} {x9 : Boundary} {x10 : SafeFwd} {x11 : PortEnd} {x12 : PortEnd} {x13 : SMap Byte} : AtuPart.get .log (Atu.mk x0 x1 x2 x3 x4 (Atu.log m) x6 x7 x8 x9 x10 x11 x12 x13) = AtuPart.get .log m := rfl
@[simp] theorem AtuPart.get_keepAge (m : Atu) {x0 : SMap Word} {x1 : AtuTime} {x2 : Sampling} {x3 : FramePath} {x4 : TraceUnit} {x5 : LogUnit} {x7 : Vector SandCore 16} {x8 : EvrUnit} {x9 : Boundary} {x10 : SafeFwd} {x11 : PortEnd} {x12 : PortEnd} {x13 : SMap Byte} : AtuPart.get .age (Atu.mk x0 x1 x2 x3 x4 x5 (Atu.age m) x7 x8 x9 x10 x11 x12 x13) = AtuPart.get .age m := rfl
@[simp] theorem AtuPart.get_keepSand (m : Atu) {x0 : SMap Word} {x1 : AtuTime} {x2 : Sampling} {x3 : FramePath} {x4 : TraceUnit} {x5 : LogUnit} {x6 : AgeUnit} {x8 : EvrUnit} {x9 : Boundary} {x10 : SafeFwd} {x11 : PortEnd} {x12 : PortEnd} {x13 : SMap Byte} : AtuPart.get .sand (Atu.mk x0 x1 x2 x3 x4 x5 x6 (Atu.sand m) x8 x9 x10 x11 x12 x13) = AtuPart.get .sand m := rfl
@[simp] theorem AtuPart.get_keepEvr (m : Atu) {x0 : SMap Word} {x1 : AtuTime} {x2 : Sampling} {x3 : FramePath} {x4 : TraceUnit} {x5 : LogUnit} {x6 : AgeUnit} {x7 : Vector SandCore 16} {x9 : Boundary} {x10 : SafeFwd} {x11 : PortEnd} {x12 : PortEnd} {x13 : SMap Byte} : AtuPart.get .evr (Atu.mk x0 x1 x2 x3 x4 x5 x6 x7 (Atu.evr m) x9 x10 x11 x12 x13) = AtuPart.get .evr m := rfl
@[simp] theorem AtuPart.get_keepBound (m : Atu) {x0 : SMap Word} {x1 : AtuTime} {x2 : Sampling} {x3 : FramePath} {x4 : TraceUnit} {x5 : LogUnit} {x6 : AgeUnit} {x7 : Vector SandCore 16} {x8 : EvrUnit} {x10 : SafeFwd} {x11 : PortEnd} {x12 : PortEnd} {x13 : SMap Byte} : AtuPart.get .bound (Atu.mk x0 x1 x2 x3 x4 x5 x6 x7 x8 (Atu.bound m) x10 x11 x12 x13) = AtuPart.get .bound m := rfl
@[simp] theorem AtuPart.get_keepSafe (m : Atu) {x0 : SMap Word} {x1 : AtuTime} {x2 : Sampling} {x3 : FramePath} {x4 : TraceUnit} {x5 : LogUnit} {x6 : AgeUnit} {x7 : Vector SandCore 16} {x8 : EvrUnit} {x9 : Boundary} {x11 : PortEnd} {x12 : PortEnd} {x13 : SMap Byte} : AtuPart.get .safe (Atu.mk x0 x1 x2 x3 x4 x5 x6 x7 x8 x9 (Atu.safe m) x11 x12 x13) = AtuPart.get .safe m := rfl
@[simp] theorem AtuPart.get_keepPortA (m : Atu) {x0 : SMap Word} {x1 : AtuTime} {x2 : Sampling} {x3 : FramePath} {x4 : TraceUnit} {x5 : LogUnit} {x6 : AgeUnit} {x7 : Vector SandCore 16} {x8 : EvrUnit} {x9 : Boundary} {x10 : SafeFwd} {x12 : PortEnd} {x13 : SMap Byte} : AtuPart.get .portA (Atu.mk x0 x1 x2 x3 x4 x5 x6 x7 x8 x9 x10 (Atu.portA m) x12 x13) = AtuPart.get .portA m := rfl
@[simp] theorem AtuPart.get_keepPortB (m : Atu) {x0 : SMap Word} {x1 : AtuTime} {x2 : Sampling} {x3 : FramePath} {x4 : TraceUnit} {x5 : LogUnit} {x6 : AgeUnit} {x7 : Vector SandCore 16} {x8 : EvrUnit} {x9 : Boundary} {x10 : SafeFwd} {x11 : PortEnd} {x13 : SMap Byte} : AtuPart.get .portB (Atu.mk x0 x1 x2 x3 x4 x5 x6 x7 x8 x9 x10 x11 (Atu.portB m) x13) = AtuPart.get .portB m := rfl
@[simp] theorem AtuPart.get_keepHostMem (m : Atu) {x0 : SMap Word} {x1 : AtuTime} {x2 : Sampling} {x3 : FramePath} {x4 : TraceUnit} {x5 : LogUnit} {x6 : AgeUnit} {x7 : Vector SandCore 16} {x8 : EvrUnit} {x9 : Boundary} {x10 : SafeFwd} {x11 : PortEnd} {x12 : PortEnd} : AtuPart.get .hostMem (Atu.mk x0 x1 x2 x3 x4 x5 x6 x7 x8 x9 x10 x11 x12 (Atu.hostMem m)) = AtuPart.get .hostMem m := rfl

/-! ### The parts of an aggregator -/

/-- The type of a part of an aggregator. -/
abbrev AggPart.Ty : AggPart → Type
  | .mem => SMap Byte
  | .ident => Ident
  | .time => AggTime
  | .ports => Vector DiePort 64
  | .links => Vector SkimLink 32
  | .gates => GateUnit
  | .mbx => Mailbox
  | .acc => RegUnit
  | .ap => ApUnit
  | .jobs => JobUnit
  | .skim => SkimUnit
  | .bundle => Bundle
  | .codec => Vector CodecSlot 16
  | .cvu => Vector CvuCtx 16
  | .ingest => IngestUnit
  | .stn => StnUnit
  | .stencil => StencilUnit
  | .scores => Vector JobScore 16
  | .verdicts => VerdictUnit
  | .elog => EventLog
  | .pwr => PwrUnit
  | .si => SafeUnit
  | .pair => PairUnit
  | .boot => BootUnit
  | .eeprom => SMap Byte
  | .chip => SMap Nat
  | .chipShown => SMap Nat
  | .outbox => List Out

/-- A part of an aggregator, its registers apart. -/
def AggPart.get : (q : AggPart) → Agg → q.Ty
  | .mem, m => m.mem
  | .ident, m => m.ident
  | .time, m => m.time
  | .ports, m => m.ports
  | .links, m => m.links
  | .gates, m => m.gates
  | .mbx, m => m.mbx
  | .acc, m => m.acc
  | .ap, m => m.ap
  | .jobs, m => m.jobs
  | .skim, m => m.skim
  | .bundle, m => m.bundle
  | .codec, m => m.codec
  | .cvu, m => m.cvu
  | .ingest, m => m.ingest
  | .stn, m => m.stn
  | .stencil, m => m.stencil
  | .scores, m => m.scores
  | .verdicts, m => m.verdicts
  | .elog, m => m.elog
  | .pwr, m => m.pwr
  | .si, m => m.si
  | .pair, m => m.pair
  | .boot, m => m.boot
  | .eeprom, m => m.eeprom
  | .chip, m => m.chip
  | .chipShown, m => m.chipShown
  | .outbox, m => m.outbox

/-- The words of the frame statements, in those of the lemmas. -/
theorem AggPart.same_iff (q : AggPart) (a b : Agg) : q.same a b ↔ q.get a = q.get b := by cases q <;> rfl
@[simp] theorem AggPart.get_ite (q : AggPart) {c : Prop} [Decidable c] (x y : Agg) : q.get (if c then x else y) = if c then q.get x else q.get y := by split <;> rfl
@[simp] theorem AggPart.get_foldl (q : AggPart) {α : Type} (l : List α) (f : Agg → α → Agg) (h : ∀ b x, q.get (f b x) = q.get b) (a : Agg) : q.get (l.foldl f a) = q.get a := by
  induction l generalizing a with
  | nil => rfl
  | cons x l ih => simp only [List.foldl_cons, ih, h]
@[simp] theorem AggPart.get_foldl1 (q : AggPart) {α β : Type} (l : List α) (f : Agg × β → α → Agg × β) (h : ∀ b x, q.get (f b x).1 = q.get b.1) (a : Agg × β) : q.get (l.foldl f a).1 = q.get a.1 := by
  induction l generalizing a with
  | nil => rfl
  | cons x l ih => simp only [List.foldl_cons, ih, h]
@[simp] theorem Agg.regs_foldl {α : Type} (l : List α) (f : Agg → α → Agg) (h : ∀ b x, (f b x).regs = b.regs) (a : Agg) : (l.foldl f a).regs = a.regs := by
  induction l generalizing a with
  | nil => rfl
  | cons x l ih => simp only [List.foldl_cons, ih, h]
@[simp] theorem Agg.regs_foldl1 {α β : Type} (l : List α) (f : Agg × β → α → Agg × β) (h : ∀ b x, (f b x).1.regs = b.1.regs) (a : Agg × β) : (l.foldl f a).1.regs = a.1.regs := by
  induction l generalizing a with
  | nil => rfl
  | cons x l ih => simp only [List.foldl_cons, ih, h]
@[simp] theorem Agg.regs_ite {c : Prop} [Decidable c] (x y : Agg) : (if c then x else y).regs = if c then x.regs else y.regs := by split <;> rfl

/-- An update of one field leaves every other part. -/
@[simp] theorem AggPart.get_setRegs (q : AggPart) (m : Agg) (v : SMap Word) : q.get { m with regs := v } = q.get m := by cases q <;> rfl
@[simp] theorem AggPart.get_setMem (q : AggPart) (m : Agg) (v : SMap Byte) (h : q ≠ .mem) : q.get { m with mem := v } = q.get m := by cases q <;> first | rfl | exact absurd rfl h
@[simp] theorem AggPart.get_setIdent (q : AggPart) (m : Agg) (v : Ident) (h : q ≠ .ident) : q.get { m with ident := v } = q.get m := by cases q <;> first | rfl | exact absurd rfl h
@[simp] theorem AggPart.get_setTime (q : AggPart) (m : Agg) (v : AggTime) (h : q ≠ .time) : q.get { m with time := v } = q.get m := by cases q <;> first | rfl | exact absurd rfl h
@[simp] theorem AggPart.get_setPorts (q : AggPart) (m : Agg) (v : Vector DiePort 64) (h : q ≠ .ports) : q.get { m with ports := v } = q.get m := by cases q <;> first | rfl | exact absurd rfl h
@[simp] theorem AggPart.get_setLinks (q : AggPart) (m : Agg) (v : Vector SkimLink 32) (h : q ≠ .links) : q.get { m with links := v } = q.get m := by cases q <;> first | rfl | exact absurd rfl h
@[simp] theorem AggPart.get_setGates (q : AggPart) (m : Agg) (v : GateUnit) (h : q ≠ .gates) : q.get { m with gates := v } = q.get m := by cases q <;> first | rfl | exact absurd rfl h
@[simp] theorem AggPart.get_setMbx (q : AggPart) (m : Agg) (v : Mailbox) (h : q ≠ .mbx) : q.get { m with mbx := v } = q.get m := by cases q <;> first | rfl | exact absurd rfl h
@[simp] theorem AggPart.get_setAcc (q : AggPart) (m : Agg) (v : RegUnit) (h : q ≠ .acc) : q.get { m with acc := v } = q.get m := by cases q <;> first | rfl | exact absurd rfl h
@[simp] theorem AggPart.get_setAp (q : AggPart) (m : Agg) (v : ApUnit) (h : q ≠ .ap) : q.get { m with ap := v } = q.get m := by cases q <;> first | rfl | exact absurd rfl h
@[simp] theorem AggPart.get_setJobs (q : AggPart) (m : Agg) (v : JobUnit) (h : q ≠ .jobs) : q.get { m with jobs := v } = q.get m := by cases q <;> first | rfl | exact absurd rfl h
@[simp] theorem AggPart.get_setSkim (q : AggPart) (m : Agg) (v : SkimUnit) (h : q ≠ .skim) : q.get { m with skim := v } = q.get m := by cases q <;> first | rfl | exact absurd rfl h
@[simp] theorem AggPart.get_setBundle (q : AggPart) (m : Agg) (v : Bundle) (h : q ≠ .bundle) : q.get { m with bundle := v } = q.get m := by cases q <;> first | rfl | exact absurd rfl h
@[simp] theorem AggPart.get_setCodec (q : AggPart) (m : Agg) (v : Vector CodecSlot 16) (h : q ≠ .codec) : q.get { m with codec := v } = q.get m := by cases q <;> first | rfl | exact absurd rfl h
@[simp] theorem AggPart.get_setCvu (q : AggPart) (m : Agg) (v : Vector CvuCtx 16) (h : q ≠ .cvu) : q.get { m with cvu := v } = q.get m := by cases q <;> first | rfl | exact absurd rfl h
@[simp] theorem AggPart.get_setIngest (q : AggPart) (m : Agg) (v : IngestUnit) (h : q ≠ .ingest) : q.get { m with ingest := v } = q.get m := by cases q <;> first | rfl | exact absurd rfl h
@[simp] theorem AggPart.get_setStn (q : AggPart) (m : Agg) (v : StnUnit) (h : q ≠ .stn) : q.get { m with stn := v } = q.get m := by cases q <;> first | rfl | exact absurd rfl h
@[simp] theorem AggPart.get_setStencil (q : AggPart) (m : Agg) (v : StencilUnit) (h : q ≠ .stencil) : q.get { m with stencil := v } = q.get m := by cases q <;> first | rfl | exact absurd rfl h
@[simp] theorem AggPart.get_setScores (q : AggPart) (m : Agg) (v : Vector JobScore 16) (h : q ≠ .scores) : q.get { m with scores := v } = q.get m := by cases q <;> first | rfl | exact absurd rfl h
@[simp] theorem AggPart.get_setVerdicts (q : AggPart) (m : Agg) (v : VerdictUnit) (h : q ≠ .verdicts) : q.get { m with verdicts := v } = q.get m := by cases q <;> first | rfl | exact absurd rfl h
@[simp] theorem AggPart.get_setElog (q : AggPart) (m : Agg) (v : EventLog) (h : q ≠ .elog) : q.get { m with elog := v } = q.get m := by cases q <;> first | rfl | exact absurd rfl h
@[simp] theorem AggPart.get_setPwr (q : AggPart) (m : Agg) (v : PwrUnit) (h : q ≠ .pwr) : q.get { m with pwr := v } = q.get m := by cases q <;> first | rfl | exact absurd rfl h
@[simp] theorem AggPart.get_setSi (q : AggPart) (m : Agg) (v : SafeUnit) (h : q ≠ .si) : q.get { m with si := v } = q.get m := by cases q <;> first | rfl | exact absurd rfl h
@[simp] theorem AggPart.get_setPair (q : AggPart) (m : Agg) (v : PairUnit) (h : q ≠ .pair) : q.get { m with pair := v } = q.get m := by cases q <;> first | rfl | exact absurd rfl h
@[simp] theorem AggPart.get_setBoot (q : AggPart) (m : Agg) (v : BootUnit) (h : q ≠ .boot) : q.get { m with boot := v } = q.get m := by cases q <;> first | rfl | exact absurd rfl h
@[simp] theorem AggPart.get_setEeprom (q : AggPart) (m : Agg) (v : SMap Byte) (h : q ≠ .eeprom) : q.get { m with eeprom := v } = q.get m := by cases q <;> first | rfl | exact absurd rfl h
@[simp] theorem AggPart.get_setChip (q : AggPart) (m : Agg) (v : SMap Nat) (h : q ≠ .chip) : q.get { m with chip := v } = q.get m := by cases q <;> first | rfl | exact absurd rfl h
@[simp] theorem AggPart.get_setChipShown (q : AggPart) (m : Agg) (v : SMap Nat) (h : q ≠ .chipShown) : q.get { m with chipShown := v } = q.get m := by cases q <;> first | rfl | exact absurd rfl h
@[simp] theorem AggPart.get_setOutbox (q : AggPart) (m : Agg) (v : List Out) (h : q ≠ .outbox) : q.get { m with outbox := v } = q.get m := by cases q <;> first | rfl | exact absurd rfl h

/-- A part that an update of several fields takes over is what it was. -/
@[simp] theorem AggPart.get_keepMem (m : Agg) {x0 : SMap Word} {x2 : Ident} {x3 : AggTime} {x4 : Vector DiePort 64} {x5 : Vector SkimLink 32} {x6 : GateUnit} {x7 : Mailbox} {x8 : RegUnit} {x9 : ApUnit} {x10 : JobUnit} {x11 : SkimUnit} {x12 : Bundle} {x13 : Vector CodecSlot 16} {x14 : Vector CvuCtx 16} {x15 : IngestUnit} {x16 : StnUnit} {x17 : StencilUnit} {x18 : Vector JobScore 16} {x19 : VerdictUnit} {x20 : EventLog} {x21 : PwrUnit} {x22 : SafeUnit} {x23 : PairUnit} {x24 : BootUnit} {x25 : SMap Byte} {x26 : SMap Nat} {x27 : SMap Nat} {x28 : List Out} : AggPart.get .mem (Agg.mk x0 (Agg.mem m) x2 x3 x4 x5 x6 x7 x8 x9 x10 x11 x12 x13 x14 x15 x16 x17 x18 x19 x20 x21 x22 x23 x24 x25 x26 x27 x28) = AggPart.get .mem m := rfl
@[simp] theorem AggPart.get_keepIdent (m : Agg) {x0 : SMap Word} {x1 : SMap Byte} {x3 : AggTime} {x4 : Vector DiePort 64} {x5 : Vector SkimLink 32} {x6 : GateUnit} {x7 : Mailbox} {x8 : RegUnit} {x9 : ApUnit} {x10 : JobUnit} {x11 : SkimUnit} {x12 : Bundle} {x13 : Vector CodecSlot 16} {x14 : Vector CvuCtx 16} {x15 : IngestUnit} {x16 : StnUnit} {x17 : StencilUnit} {x18 : Vector JobScore 16} {x19 : VerdictUnit} {x20 : EventLog} {x21 : PwrUnit} {x22 : SafeUnit} {x23 : PairUnit} {x24 : BootUnit} {x25 : SMap Byte} {x26 : SMap Nat} {x27 : SMap Nat} {x28 : List Out} : AggPart.get .ident (Agg.mk x0 x1 (Agg.ident m) x3 x4 x5 x6 x7 x8 x9 x10 x11 x12 x13 x14 x15 x16 x17 x18 x19 x20 x21 x22 x23 x24 x25 x26 x27 x28) = AggPart.get .ident m := rfl
@[simp] theorem AggPart.get_keepTime (m : Agg) {x0 : SMap Word} {x1 : SMap Byte} {x2 : Ident} {x4 : Vector DiePort 64} {x5 : Vector SkimLink 32} {x6 : GateUnit} {x7 : Mailbox} {x8 : RegUnit} {x9 : ApUnit} {x10 : JobUnit} {x11 : SkimUnit} {x12 : Bundle} {x13 : Vector CodecSlot 16} {x14 : Vector CvuCtx 16} {x15 : IngestUnit} {x16 : StnUnit} {x17 : StencilUnit} {x18 : Vector JobScore 16} {x19 : VerdictUnit} {x20 : EventLog} {x21 : PwrUnit} {x22 : SafeUnit} {x23 : PairUnit} {x24 : BootUnit} {x25 : SMap Byte} {x26 : SMap Nat} {x27 : SMap Nat} {x28 : List Out} : AggPart.get .time (Agg.mk x0 x1 x2 (Agg.time m) x4 x5 x6 x7 x8 x9 x10 x11 x12 x13 x14 x15 x16 x17 x18 x19 x20 x21 x22 x23 x24 x25 x26 x27 x28) = AggPart.get .time m := rfl
@[simp] theorem AggPart.get_keepPorts (m : Agg) {x0 : SMap Word} {x1 : SMap Byte} {x2 : Ident} {x3 : AggTime} {x5 : Vector SkimLink 32} {x6 : GateUnit} {x7 : Mailbox} {x8 : RegUnit} {x9 : ApUnit} {x10 : JobUnit} {x11 : SkimUnit} {x12 : Bundle} {x13 : Vector CodecSlot 16} {x14 : Vector CvuCtx 16} {x15 : IngestUnit} {x16 : StnUnit} {x17 : StencilUnit} {x18 : Vector JobScore 16} {x19 : VerdictUnit} {x20 : EventLog} {x21 : PwrUnit} {x22 : SafeUnit} {x23 : PairUnit} {x24 : BootUnit} {x25 : SMap Byte} {x26 : SMap Nat} {x27 : SMap Nat} {x28 : List Out} : AggPart.get .ports (Agg.mk x0 x1 x2 x3 (Agg.ports m) x5 x6 x7 x8 x9 x10 x11 x12 x13 x14 x15 x16 x17 x18 x19 x20 x21 x22 x23 x24 x25 x26 x27 x28) = AggPart.get .ports m := rfl
@[simp] theorem AggPart.get_keepLinks (m : Agg) {x0 : SMap Word} {x1 : SMap Byte} {x2 : Ident} {x3 : AggTime} {x4 : Vector DiePort 64} {x6 : GateUnit} {x7 : Mailbox} {x8 : RegUnit} {x9 : ApUnit} {x10 : JobUnit} {x11 : SkimUnit} {x12 : Bundle} {x13 : Vector CodecSlot 16} {x14 : Vector CvuCtx 16} {x15 : IngestUnit} {x16 : StnUnit} {x17 : StencilUnit} {x18 : Vector JobScore 16} {x19 : VerdictUnit} {x20 : EventLog} {x21 : PwrUnit} {x22 : SafeUnit} {x23 : PairUnit} {x24 : BootUnit} {x25 : SMap Byte} {x26 : SMap Nat} {x27 : SMap Nat} {x28 : List Out} : AggPart.get .links (Agg.mk x0 x1 x2 x3 x4 (Agg.links m) x6 x7 x8 x9 x10 x11 x12 x13 x14 x15 x16 x17 x18 x19 x20 x21 x22 x23 x24 x25 x26 x27 x28) = AggPart.get .links m := rfl
@[simp] theorem AggPart.get_keepGates (m : Agg) {x0 : SMap Word} {x1 : SMap Byte} {x2 : Ident} {x3 : AggTime} {x4 : Vector DiePort 64} {x5 : Vector SkimLink 32} {x7 : Mailbox} {x8 : RegUnit} {x9 : ApUnit} {x10 : JobUnit} {x11 : SkimUnit} {x12 : Bundle} {x13 : Vector CodecSlot 16} {x14 : Vector CvuCtx 16} {x15 : IngestUnit} {x16 : StnUnit} {x17 : StencilUnit} {x18 : Vector JobScore 16} {x19 : VerdictUnit} {x20 : EventLog} {x21 : PwrUnit} {x22 : SafeUnit} {x23 : PairUnit} {x24 : BootUnit} {x25 : SMap Byte} {x26 : SMap Nat} {x27 : SMap Nat} {x28 : List Out} : AggPart.get .gates (Agg.mk x0 x1 x2 x3 x4 x5 (Agg.gates m) x7 x8 x9 x10 x11 x12 x13 x14 x15 x16 x17 x18 x19 x20 x21 x22 x23 x24 x25 x26 x27 x28) = AggPart.get .gates m := rfl
@[simp] theorem AggPart.get_keepMbx (m : Agg) {x0 : SMap Word} {x1 : SMap Byte} {x2 : Ident} {x3 : AggTime} {x4 : Vector DiePort 64} {x5 : Vector SkimLink 32} {x6 : GateUnit} {x8 : RegUnit} {x9 : ApUnit} {x10 : JobUnit} {x11 : SkimUnit} {x12 : Bundle} {x13 : Vector CodecSlot 16} {x14 : Vector CvuCtx 16} {x15 : IngestUnit} {x16 : StnUnit} {x17 : StencilUnit} {x18 : Vector JobScore 16} {x19 : VerdictUnit} {x20 : EventLog} {x21 : PwrUnit} {x22 : SafeUnit} {x23 : PairUnit} {x24 : BootUnit} {x25 : SMap Byte} {x26 : SMap Nat} {x27 : SMap Nat} {x28 : List Out} : AggPart.get .mbx (Agg.mk x0 x1 x2 x3 x4 x5 x6 (Agg.mbx m) x8 x9 x10 x11 x12 x13 x14 x15 x16 x17 x18 x19 x20 x21 x22 x23 x24 x25 x26 x27 x28) = AggPart.get .mbx m := rfl
@[simp] theorem AggPart.get_keepAcc (m : Agg) {x0 : SMap Word} {x1 : SMap Byte} {x2 : Ident} {x3 : AggTime} {x4 : Vector DiePort 64} {x5 : Vector SkimLink 32} {x6 : GateUnit} {x7 : Mailbox} {x9 : ApUnit} {x10 : JobUnit} {x11 : SkimUnit} {x12 : Bundle} {x13 : Vector CodecSlot 16} {x14 : Vector CvuCtx 16} {x15 : IngestUnit} {x16 : StnUnit} {x17 : StencilUnit} {x18 : Vector JobScore 16} {x19 : VerdictUnit} {x20 : EventLog} {x21 : PwrUnit} {x22 : SafeUnit} {x23 : PairUnit} {x24 : BootUnit} {x25 : SMap Byte} {x26 : SMap Nat} {x27 : SMap Nat} {x28 : List Out} : AggPart.get .acc (Agg.mk x0 x1 x2 x3 x4 x5 x6 x7 (Agg.acc m) x9 x10 x11 x12 x13 x14 x15 x16 x17 x18 x19 x20 x21 x22 x23 x24 x25 x26 x27 x28) = AggPart.get .acc m := rfl
@[simp] theorem AggPart.get_keepAp (m : Agg) {x0 : SMap Word} {x1 : SMap Byte} {x2 : Ident} {x3 : AggTime} {x4 : Vector DiePort 64} {x5 : Vector SkimLink 32} {x6 : GateUnit} {x7 : Mailbox} {x8 : RegUnit} {x10 : JobUnit} {x11 : SkimUnit} {x12 : Bundle} {x13 : Vector CodecSlot 16} {x14 : Vector CvuCtx 16} {x15 : IngestUnit} {x16 : StnUnit} {x17 : StencilUnit} {x18 : Vector JobScore 16} {x19 : VerdictUnit} {x20 : EventLog} {x21 : PwrUnit} {x22 : SafeUnit} {x23 : PairUnit} {x24 : BootUnit} {x25 : SMap Byte} {x26 : SMap Nat} {x27 : SMap Nat} {x28 : List Out} : AggPart.get .ap (Agg.mk x0 x1 x2 x3 x4 x5 x6 x7 x8 (Agg.ap m) x10 x11 x12 x13 x14 x15 x16 x17 x18 x19 x20 x21 x22 x23 x24 x25 x26 x27 x28) = AggPart.get .ap m := rfl
@[simp] theorem AggPart.get_keepJobs (m : Agg) {x0 : SMap Word} {x1 : SMap Byte} {x2 : Ident} {x3 : AggTime} {x4 : Vector DiePort 64} {x5 : Vector SkimLink 32} {x6 : GateUnit} {x7 : Mailbox} {x8 : RegUnit} {x9 : ApUnit} {x11 : SkimUnit} {x12 : Bundle} {x13 : Vector CodecSlot 16} {x14 : Vector CvuCtx 16} {x15 : IngestUnit} {x16 : StnUnit} {x17 : StencilUnit} {x18 : Vector JobScore 16} {x19 : VerdictUnit} {x20 : EventLog} {x21 : PwrUnit} {x22 : SafeUnit} {x23 : PairUnit} {x24 : BootUnit} {x25 : SMap Byte} {x26 : SMap Nat} {x27 : SMap Nat} {x28 : List Out} : AggPart.get .jobs (Agg.mk x0 x1 x2 x3 x4 x5 x6 x7 x8 x9 (Agg.jobs m) x11 x12 x13 x14 x15 x16 x17 x18 x19 x20 x21 x22 x23 x24 x25 x26 x27 x28) = AggPart.get .jobs m := rfl
@[simp] theorem AggPart.get_keepSkim (m : Agg) {x0 : SMap Word} {x1 : SMap Byte} {x2 : Ident} {x3 : AggTime} {x4 : Vector DiePort 64} {x5 : Vector SkimLink 32} {x6 : GateUnit} {x7 : Mailbox} {x8 : RegUnit} {x9 : ApUnit} {x10 : JobUnit} {x12 : Bundle} {x13 : Vector CodecSlot 16} {x14 : Vector CvuCtx 16} {x15 : IngestUnit} {x16 : StnUnit} {x17 : StencilUnit} {x18 : Vector JobScore 16} {x19 : VerdictUnit} {x20 : EventLog} {x21 : PwrUnit} {x22 : SafeUnit} {x23 : PairUnit} {x24 : BootUnit} {x25 : SMap Byte} {x26 : SMap Nat} {x27 : SMap Nat} {x28 : List Out} : AggPart.get .skim (Agg.mk x0 x1 x2 x3 x4 x5 x6 x7 x8 x9 x10 (Agg.skim m) x12 x13 x14 x15 x16 x17 x18 x19 x20 x21 x22 x23 x24 x25 x26 x27 x28) = AggPart.get .skim m := rfl
@[simp] theorem AggPart.get_keepBundle (m : Agg) {x0 : SMap Word} {x1 : SMap Byte} {x2 : Ident} {x3 : AggTime} {x4 : Vector DiePort 64} {x5 : Vector SkimLink 32} {x6 : GateUnit} {x7 : Mailbox} {x8 : RegUnit} {x9 : ApUnit} {x10 : JobUnit} {x11 : SkimUnit} {x13 : Vector CodecSlot 16} {x14 : Vector CvuCtx 16} {x15 : IngestUnit} {x16 : StnUnit} {x17 : StencilUnit} {x18 : Vector JobScore 16} {x19 : VerdictUnit} {x20 : EventLog} {x21 : PwrUnit} {x22 : SafeUnit} {x23 : PairUnit} {x24 : BootUnit} {x25 : SMap Byte} {x26 : SMap Nat} {x27 : SMap Nat} {x28 : List Out} : AggPart.get .bundle (Agg.mk x0 x1 x2 x3 x4 x5 x6 x7 x8 x9 x10 x11 (Agg.bundle m) x13 x14 x15 x16 x17 x18 x19 x20 x21 x22 x23 x24 x25 x26 x27 x28) = AggPart.get .bundle m := rfl
@[simp] theorem AggPart.get_keepCodec (m : Agg) {x0 : SMap Word} {x1 : SMap Byte} {x2 : Ident} {x3 : AggTime} {x4 : Vector DiePort 64} {x5 : Vector SkimLink 32} {x6 : GateUnit} {x7 : Mailbox} {x8 : RegUnit} {x9 : ApUnit} {x10 : JobUnit} {x11 : SkimUnit} {x12 : Bundle} {x14 : Vector CvuCtx 16} {x15 : IngestUnit} {x16 : StnUnit} {x17 : StencilUnit} {x18 : Vector JobScore 16} {x19 : VerdictUnit} {x20 : EventLog} {x21 : PwrUnit} {x22 : SafeUnit} {x23 : PairUnit} {x24 : BootUnit} {x25 : SMap Byte} {x26 : SMap Nat} {x27 : SMap Nat} {x28 : List Out} : AggPart.get .codec (Agg.mk x0 x1 x2 x3 x4 x5 x6 x7 x8 x9 x10 x11 x12 (Agg.codec m) x14 x15 x16 x17 x18 x19 x20 x21 x22 x23 x24 x25 x26 x27 x28) = AggPart.get .codec m := rfl
@[simp] theorem AggPart.get_keepCvu (m : Agg) {x0 : SMap Word} {x1 : SMap Byte} {x2 : Ident} {x3 : AggTime} {x4 : Vector DiePort 64} {x5 : Vector SkimLink 32} {x6 : GateUnit} {x7 : Mailbox} {x8 : RegUnit} {x9 : ApUnit} {x10 : JobUnit} {x11 : SkimUnit} {x12 : Bundle} {x13 : Vector CodecSlot 16} {x15 : IngestUnit} {x16 : StnUnit} {x17 : StencilUnit} {x18 : Vector JobScore 16} {x19 : VerdictUnit} {x20 : EventLog} {x21 : PwrUnit} {x22 : SafeUnit} {x23 : PairUnit} {x24 : BootUnit} {x25 : SMap Byte} {x26 : SMap Nat} {x27 : SMap Nat} {x28 : List Out} : AggPart.get .cvu (Agg.mk x0 x1 x2 x3 x4 x5 x6 x7 x8 x9 x10 x11 x12 x13 (Agg.cvu m) x15 x16 x17 x18 x19 x20 x21 x22 x23 x24 x25 x26 x27 x28) = AggPart.get .cvu m := rfl
@[simp] theorem AggPart.get_keepIngest (m : Agg) {x0 : SMap Word} {x1 : SMap Byte} {x2 : Ident} {x3 : AggTime} {x4 : Vector DiePort 64} {x5 : Vector SkimLink 32} {x6 : GateUnit} {x7 : Mailbox} {x8 : RegUnit} {x9 : ApUnit} {x10 : JobUnit} {x11 : SkimUnit} {x12 : Bundle} {x13 : Vector CodecSlot 16} {x14 : Vector CvuCtx 16} {x16 : StnUnit} {x17 : StencilUnit} {x18 : Vector JobScore 16} {x19 : VerdictUnit} {x20 : EventLog} {x21 : PwrUnit} {x22 : SafeUnit} {x23 : PairUnit} {x24 : BootUnit} {x25 : SMap Byte} {x26 : SMap Nat} {x27 : SMap Nat} {x28 : List Out} : AggPart.get .ingest (Agg.mk x0 x1 x2 x3 x4 x5 x6 x7 x8 x9 x10 x11 x12 x13 x14 (Agg.ingest m) x16 x17 x18 x19 x20 x21 x22 x23 x24 x25 x26 x27 x28) = AggPart.get .ingest m := rfl
@[simp] theorem AggPart.get_keepStn (m : Agg) {x0 : SMap Word} {x1 : SMap Byte} {x2 : Ident} {x3 : AggTime} {x4 : Vector DiePort 64} {x5 : Vector SkimLink 32} {x6 : GateUnit} {x7 : Mailbox} {x8 : RegUnit} {x9 : ApUnit} {x10 : JobUnit} {x11 : SkimUnit} {x12 : Bundle} {x13 : Vector CodecSlot 16} {x14 : Vector CvuCtx 16} {x15 : IngestUnit} {x17 : StencilUnit} {x18 : Vector JobScore 16} {x19 : VerdictUnit} {x20 : EventLog} {x21 : PwrUnit} {x22 : SafeUnit} {x23 : PairUnit} {x24 : BootUnit} {x25 : SMap Byte} {x26 : SMap Nat} {x27 : SMap Nat} {x28 : List Out} : AggPart.get .stn (Agg.mk x0 x1 x2 x3 x4 x5 x6 x7 x8 x9 x10 x11 x12 x13 x14 x15 (Agg.stn m) x17 x18 x19 x20 x21 x22 x23 x24 x25 x26 x27 x28) = AggPart.get .stn m := rfl
@[simp] theorem AggPart.get_keepStencil (m : Agg) {x0 : SMap Word} {x1 : SMap Byte} {x2 : Ident} {x3 : AggTime} {x4 : Vector DiePort 64} {x5 : Vector SkimLink 32} {x6 : GateUnit} {x7 : Mailbox} {x8 : RegUnit} {x9 : ApUnit} {x10 : JobUnit} {x11 : SkimUnit} {x12 : Bundle} {x13 : Vector CodecSlot 16} {x14 : Vector CvuCtx 16} {x15 : IngestUnit} {x16 : StnUnit} {x18 : Vector JobScore 16} {x19 : VerdictUnit} {x20 : EventLog} {x21 : PwrUnit} {x22 : SafeUnit} {x23 : PairUnit} {x24 : BootUnit} {x25 : SMap Byte} {x26 : SMap Nat} {x27 : SMap Nat} {x28 : List Out} : AggPart.get .stencil (Agg.mk x0 x1 x2 x3 x4 x5 x6 x7 x8 x9 x10 x11 x12 x13 x14 x15 x16 (Agg.stencil m) x18 x19 x20 x21 x22 x23 x24 x25 x26 x27 x28) = AggPart.get .stencil m := rfl
@[simp] theorem AggPart.get_keepScores (m : Agg) {x0 : SMap Word} {x1 : SMap Byte} {x2 : Ident} {x3 : AggTime} {x4 : Vector DiePort 64} {x5 : Vector SkimLink 32} {x6 : GateUnit} {x7 : Mailbox} {x8 : RegUnit} {x9 : ApUnit} {x10 : JobUnit} {x11 : SkimUnit} {x12 : Bundle} {x13 : Vector CodecSlot 16} {x14 : Vector CvuCtx 16} {x15 : IngestUnit} {x16 : StnUnit} {x17 : StencilUnit} {x19 : VerdictUnit} {x20 : EventLog} {x21 : PwrUnit} {x22 : SafeUnit} {x23 : PairUnit} {x24 : BootUnit} {x25 : SMap Byte} {x26 : SMap Nat} {x27 : SMap Nat} {x28 : List Out} : AggPart.get .scores (Agg.mk x0 x1 x2 x3 x4 x5 x6 x7 x8 x9 x10 x11 x12 x13 x14 x15 x16 x17 (Agg.scores m) x19 x20 x21 x22 x23 x24 x25 x26 x27 x28) = AggPart.get .scores m := rfl
@[simp] theorem AggPart.get_keepVerdicts (m : Agg) {x0 : SMap Word} {x1 : SMap Byte} {x2 : Ident} {x3 : AggTime} {x4 : Vector DiePort 64} {x5 : Vector SkimLink 32} {x6 : GateUnit} {x7 : Mailbox} {x8 : RegUnit} {x9 : ApUnit} {x10 : JobUnit} {x11 : SkimUnit} {x12 : Bundle} {x13 : Vector CodecSlot 16} {x14 : Vector CvuCtx 16} {x15 : IngestUnit} {x16 : StnUnit} {x17 : StencilUnit} {x18 : Vector JobScore 16} {x20 : EventLog} {x21 : PwrUnit} {x22 : SafeUnit} {x23 : PairUnit} {x24 : BootUnit} {x25 : SMap Byte} {x26 : SMap Nat} {x27 : SMap Nat} {x28 : List Out} : AggPart.get .verdicts (Agg.mk x0 x1 x2 x3 x4 x5 x6 x7 x8 x9 x10 x11 x12 x13 x14 x15 x16 x17 x18 (Agg.verdicts m) x20 x21 x22 x23 x24 x25 x26 x27 x28) = AggPart.get .verdicts m := rfl
@[simp] theorem AggPart.get_keepElog (m : Agg) {x0 : SMap Word} {x1 : SMap Byte} {x2 : Ident} {x3 : AggTime} {x4 : Vector DiePort 64} {x5 : Vector SkimLink 32} {x6 : GateUnit} {x7 : Mailbox} {x8 : RegUnit} {x9 : ApUnit} {x10 : JobUnit} {x11 : SkimUnit} {x12 : Bundle} {x13 : Vector CodecSlot 16} {x14 : Vector CvuCtx 16} {x15 : IngestUnit} {x16 : StnUnit} {x17 : StencilUnit} {x18 : Vector JobScore 16} {x19 : VerdictUnit} {x21 : PwrUnit} {x22 : SafeUnit} {x23 : PairUnit} {x24 : BootUnit} {x25 : SMap Byte} {x26 : SMap Nat} {x27 : SMap Nat} {x28 : List Out} : AggPart.get .elog (Agg.mk x0 x1 x2 x3 x4 x5 x6 x7 x8 x9 x10 x11 x12 x13 x14 x15 x16 x17 x18 x19 (Agg.elog m) x21 x22 x23 x24 x25 x26 x27 x28) = AggPart.get .elog m := rfl
@[simp] theorem AggPart.get_keepPwr (m : Agg) {x0 : SMap Word} {x1 : SMap Byte} {x2 : Ident} {x3 : AggTime} {x4 : Vector DiePort 64} {x5 : Vector SkimLink 32} {x6 : GateUnit} {x7 : Mailbox} {x8 : RegUnit} {x9 : ApUnit} {x10 : JobUnit} {x11 : SkimUnit} {x12 : Bundle} {x13 : Vector CodecSlot 16} {x14 : Vector CvuCtx 16} {x15 : IngestUnit} {x16 : StnUnit} {x17 : StencilUnit} {x18 : Vector JobScore 16} {x19 : VerdictUnit} {x20 : EventLog} {x22 : SafeUnit} {x23 : PairUnit} {x24 : BootUnit} {x25 : SMap Byte} {x26 : SMap Nat} {x27 : SMap Nat} {x28 : List Out} : AggPart.get .pwr (Agg.mk x0 x1 x2 x3 x4 x5 x6 x7 x8 x9 x10 x11 x12 x13 x14 x15 x16 x17 x18 x19 x20 (Agg.pwr m) x22 x23 x24 x25 x26 x27 x28) = AggPart.get .pwr m := rfl
@[simp] theorem AggPart.get_keepSi (m : Agg) {x0 : SMap Word} {x1 : SMap Byte} {x2 : Ident} {x3 : AggTime} {x4 : Vector DiePort 64} {x5 : Vector SkimLink 32} {x6 : GateUnit} {x7 : Mailbox} {x8 : RegUnit} {x9 : ApUnit} {x10 : JobUnit} {x11 : SkimUnit} {x12 : Bundle} {x13 : Vector CodecSlot 16} {x14 : Vector CvuCtx 16} {x15 : IngestUnit} {x16 : StnUnit} {x17 : StencilUnit} {x18 : Vector JobScore 16} {x19 : VerdictUnit} {x20 : EventLog} {x21 : PwrUnit} {x23 : PairUnit} {x24 : BootUnit} {x25 : SMap Byte} {x26 : SMap Nat} {x27 : SMap Nat} {x28 : List Out} : AggPart.get .si (Agg.mk x0 x1 x2 x3 x4 x5 x6 x7 x8 x9 x10 x11 x12 x13 x14 x15 x16 x17 x18 x19 x20 x21 (Agg.si m) x23 x24 x25 x26 x27 x28) = AggPart.get .si m := rfl
@[simp] theorem AggPart.get_keepPair (m : Agg) {x0 : SMap Word} {x1 : SMap Byte} {x2 : Ident} {x3 : AggTime} {x4 : Vector DiePort 64} {x5 : Vector SkimLink 32} {x6 : GateUnit} {x7 : Mailbox} {x8 : RegUnit} {x9 : ApUnit} {x10 : JobUnit} {x11 : SkimUnit} {x12 : Bundle} {x13 : Vector CodecSlot 16} {x14 : Vector CvuCtx 16} {x15 : IngestUnit} {x16 : StnUnit} {x17 : StencilUnit} {x18 : Vector JobScore 16} {x19 : VerdictUnit} {x20 : EventLog} {x21 : PwrUnit} {x22 : SafeUnit} {x24 : BootUnit} {x25 : SMap Byte} {x26 : SMap Nat} {x27 : SMap Nat} {x28 : List Out} : AggPart.get .pair (Agg.mk x0 x1 x2 x3 x4 x5 x6 x7 x8 x9 x10 x11 x12 x13 x14 x15 x16 x17 x18 x19 x20 x21 x22 (Agg.pair m) x24 x25 x26 x27 x28) = AggPart.get .pair m := rfl
@[simp] theorem AggPart.get_keepBoot (m : Agg) {x0 : SMap Word} {x1 : SMap Byte} {x2 : Ident} {x3 : AggTime} {x4 : Vector DiePort 64} {x5 : Vector SkimLink 32} {x6 : GateUnit} {x7 : Mailbox} {x8 : RegUnit} {x9 : ApUnit} {x10 : JobUnit} {x11 : SkimUnit} {x12 : Bundle} {x13 : Vector CodecSlot 16} {x14 : Vector CvuCtx 16} {x15 : IngestUnit} {x16 : StnUnit} {x17 : StencilUnit} {x18 : Vector JobScore 16} {x19 : VerdictUnit} {x20 : EventLog} {x21 : PwrUnit} {x22 : SafeUnit} {x23 : PairUnit} {x25 : SMap Byte} {x26 : SMap Nat} {x27 : SMap Nat} {x28 : List Out} : AggPart.get .boot (Agg.mk x0 x1 x2 x3 x4 x5 x6 x7 x8 x9 x10 x11 x12 x13 x14 x15 x16 x17 x18 x19 x20 x21 x22 x23 (Agg.boot m) x25 x26 x27 x28) = AggPart.get .boot m := rfl
@[simp] theorem AggPart.get_keepEeprom (m : Agg) {x0 : SMap Word} {x1 : SMap Byte} {x2 : Ident} {x3 : AggTime} {x4 : Vector DiePort 64} {x5 : Vector SkimLink 32} {x6 : GateUnit} {x7 : Mailbox} {x8 : RegUnit} {x9 : ApUnit} {x10 : JobUnit} {x11 : SkimUnit} {x12 : Bundle} {x13 : Vector CodecSlot 16} {x14 : Vector CvuCtx 16} {x15 : IngestUnit} {x16 : StnUnit} {x17 : StencilUnit} {x18 : Vector JobScore 16} {x19 : VerdictUnit} {x20 : EventLog} {x21 : PwrUnit} {x22 : SafeUnit} {x23 : PairUnit} {x24 : BootUnit} {x26 : SMap Nat} {x27 : SMap Nat} {x28 : List Out} : AggPart.get .eeprom (Agg.mk x0 x1 x2 x3 x4 x5 x6 x7 x8 x9 x10 x11 x12 x13 x14 x15 x16 x17 x18 x19 x20 x21 x22 x23 x24 (Agg.eeprom m) x26 x27 x28) = AggPart.get .eeprom m := rfl
@[simp] theorem AggPart.get_keepChip (m : Agg) {x0 : SMap Word} {x1 : SMap Byte} {x2 : Ident} {x3 : AggTime} {x4 : Vector DiePort 64} {x5 : Vector SkimLink 32} {x6 : GateUnit} {x7 : Mailbox} {x8 : RegUnit} {x9 : ApUnit} {x10 : JobUnit} {x11 : SkimUnit} {x12 : Bundle} {x13 : Vector CodecSlot 16} {x14 : Vector CvuCtx 16} {x15 : IngestUnit} {x16 : StnUnit} {x17 : StencilUnit} {x18 : Vector JobScore 16} {x19 : VerdictUnit} {x20 : EventLog} {x21 : PwrUnit} {x22 : SafeUnit} {x23 : PairUnit} {x24 : BootUnit} {x25 : SMap Byte} {x27 : SMap Nat} {x28 : List Out} : AggPart.get .chip (Agg.mk x0 x1 x2 x3 x4 x5 x6 x7 x8 x9 x10 x11 x12 x13 x14 x15 x16 x17 x18 x19 x20 x21 x22 x23 x24 x25 (Agg.chip m) x27 x28) = AggPart.get .chip m := rfl
@[simp] theorem AggPart.get_keepChipShown (m : Agg) {x0 : SMap Word} {x1 : SMap Byte} {x2 : Ident} {x3 : AggTime} {x4 : Vector DiePort 64} {x5 : Vector SkimLink 32} {x6 : GateUnit} {x7 : Mailbox} {x8 : RegUnit} {x9 : ApUnit} {x10 : JobUnit} {x11 : SkimUnit} {x12 : Bundle} {x13 : Vector CodecSlot 16} {x14 : Vector CvuCtx 16} {x15 : IngestUnit} {x16 : StnUnit} {x17 : StencilUnit} {x18 : Vector JobScore 16} {x19 : VerdictUnit} {x20 : EventLog} {x21 : PwrUnit} {x22 : SafeUnit} {x23 : PairUnit} {x24 : BootUnit} {x25 : SMap Byte} {x26 : SMap Nat} {x28 : List Out} : AggPart.get .chipShown (Agg.mk x0 x1 x2 x3 x4 x5 x6 x7 x8 x9 x10 x11 x12 x13 x14 x15 x16 x17 x18 x19 x20 x21 x22 x23 x24 x25 x26 (Agg.chipShown m) x28) = AggPart.get .chipShown m := rfl
@[simp] theorem AggPart.get_keepOutbox (m : Agg) {x0 : SMap Word} {x1 : SMap Byte} {x2 : Ident} {x3 : AggTime} {x4 : Vector DiePort 64} {x5 : Vector SkimLink 32} {x6 : GateUnit} {x7 : Mailbox} {x8 : RegUnit} {x9 : ApUnit} {x10 : JobUnit} {x11 : SkimUnit} {x12 : Bundle} {x13 : Vector CodecSlot 16} {x14 : Vector CvuCtx 16} {x15 : IngestUnit} {x16 : StnUnit} {x17 : StencilUnit} {x18 : Vector JobScore 16} {x19 : VerdictUnit} {x20 : EventLog} {x21 : PwrUnit} {x22 : SafeUnit} {x23 : PairUnit} {x24 : BootUnit} {x25 : SMap Byte} {x26 : SMap Nat} {x27 : SMap Nat} : AggPart.get .outbox (Agg.mk x0 x1 x2 x3 x4 x5 x6 x7 x8 x9 x10 x11 x12 x13 x14 x15 x16 x17 x18 x19 x20 x21 x22 x23 x24 x25 x26 x27 (Agg.outbox m)) = AggPart.get .outbox m := rfl

end Sys2Proof.Machine
end

