-- ==== Sys2Proof/Laws/PartsAgg.lean ====
section
/-!
SUPPORT. PartsAgg.lean: one lemma per operation of the aggregator that says which parts of it the operation may change (registers, mailbox and links).
-/
namespace Sys2Proof.Machine
set_option linter.all false
@[simp] theorem Agg.setReg_only (pt : AggPart) (g : Agg) (off : Nat) (v : Word) : pt.get (Agg.setReg g off v) = pt.get g := by
  unfold Agg.setReg
  (try dsimp only) <;> (repeat' split) <;> first | (simp; done) | (cases pt <;> simp)
@[simp] theorem Agg.setRegN_only (pt : AggPart) (g : Agg) (off : Nat) (v : Nat) : pt.get (Agg.setRegN g off v) = pt.get g := by
  unfold Agg.setRegN
  (try dsimp only) <;> (repeat' split) <;> first | (simp; done) | (cases pt <;> simp)
@[simp] theorem Agg.setReg64_only (pt : AggPart) (g : Agg) (off : Nat) (v : Nat) : pt.get (Agg.setReg64 g off v) = pt.get g := by
  unfold Agg.setReg64
  (try dsimp only) <;> (repeat' split) <;> first | (simp; done) | (cases pt <;> simp)
@[simp] theorem Agg.setFld_only (pt : AggPart) (g : Agg) (off : Nat) (hi : Nat) (lo : Nat) (v : Nat) : pt.get (Agg.setFld g off hi lo v) = pt.get g := by
  unfold Agg.setFld
  (try dsimp only) <;> (repeat' split) <;> first | (simp; done) | (cases pt <;> simp)
@[simp] theorem Agg.setBit_only (pt : AggPart) (g : Agg) (off : Nat) (k : Nat) (b : Bool) : pt.get (Agg.setBit g off k b) = pt.get g := by
  unfold Agg.setBit
  (try dsimp only) <;> (repeat' split) <;> first | (simp; done) | (cases pt <;> simp)
@[simp] theorem Agg.inc_only (pt : AggPart) (g : Agg) (off : Nat) (n : Nat) : pt.get (Agg.inc g off n) = pt.get g := by
  unfold Agg.inc
  (try dsimp only) <;> (repeat' split) <;> first | (simp; done) | (cases pt <;> simp)
@[simp] theorem Agg.incFldSat_only (pt : AggPart) (g : Agg) (off : Nat) (hi : Nat) (lo : Nat) : pt.get (Agg.incFldSat g off hi lo) = pt.get g := by
  unfold Agg.incFldSat
  (try dsimp only) <;> (repeat' split) <;> first | (simp; done) | (cases pt <;> simp)
@[simp] theorem Agg.flag_only (pt : AggPart) (g : Agg) (f : Flag) : pt.get (Agg.flag g f) = pt.get g := by
  unfold Agg.flag
  (try dsimp only) <;> (repeat' split) <;> first | (simp; done) | (cases pt <;> simp)
@[simp] theorem Agg.modPort_only (pt : AggPart) (hpt : pt ∉ [AggPart.ports]) (g : Agg) (p : Nat) (f : DiePort → DiePort) : pt.get (Agg.modPort g p f) = pt.get g := by
  simp at hpt
  unfold Agg.modPort
  (try dsimp only) <;> (repeat' split) <;> first | (simp [hpt]; done) | (cases pt <;> simp at hpt ⊢)
@[simp] theorem Agg.modPort_regs (g : Agg) (p : Nat) (f : DiePort → DiePort) : (Agg.modPort g p f).regs = g.regs := by
  unfold Agg.modPort
  (try dsimp only) <;> (repeat' split) <;> simp
@[simp] theorem Agg.modLink_only (pt : AggPart) (hpt : pt ∉ [AggPart.links]) (g : Agg) (k : Nat) (f : SkimLink → SkimLink) : pt.get (Agg.modLink g k f) = pt.get g := by
  simp at hpt
  unfold Agg.modLink
  (try dsimp only) <;> (repeat' split) <;> first | (simp [hpt]; done) | (cases pt <;> simp at hpt ⊢)
@[simp] theorem Agg.modLink_regs (g : Agg) (k : Nat) (f : SkimLink → SkimLink) : (Agg.modLink g k f).regs = g.regs := by
  unfold Agg.modLink
  (try dsimp only) <;> (repeat' split) <;> simp
@[simp] theorem Agg.modRing_only (pt : AggPart) (hpt : pt ∉ [AggPart.mbx]) (g : Agg) (n : Nat) (f : Ring → Ring) : pt.get (Agg.modRing g n f) = pt.get g := by
  simp at hpt
  unfold Agg.modRing
  (try dsimp only) <;> (repeat' split) <;> first | (simp [hpt]; done) | (cases pt <;> simp at hpt ⊢)
@[simp] theorem Agg.modRing_regs (g : Agg) (n : Nat) (f : Ring → Ring) : (Agg.modRing g n f).regs = g.regs := by
  unfold Agg.modRing
  (try dsimp only) <;> (repeat' split) <;> simp
@[simp] theorem Agg.modJob_only (pt : AggPart) (hpt : pt ∉ [AggPart.jobs]) (g : Agg) (n : Nat) (f : Job → Job) : pt.get (Agg.modJob g n f) = pt.get g := by
  simp at hpt
  unfold Agg.modJob
  (try dsimp only) <;> (repeat' split) <;> first | (simp [hpt]; done) | (cases pt <;> simp at hpt ⊢)
@[simp] theorem Agg.modJob_regs (g : Agg) (n : Nat) (f : Job → Job) : (Agg.modJob g n f).regs = g.regs := by
  unfold Agg.modJob
  (try dsimp only) <;> (repeat' split) <;> simp
@[simp] theorem Agg.count_only (pt : AggPart) (hpt : pt ∉ [AggPart.jobs]) (g : Agg) (ctx : Nat) (k : Nat) (n : Nat) : pt.get (Agg.count g ctx k n) = pt.get g := by
  simp at hpt
  unfold Agg.count
  (try dsimp only) <;> (repeat' split) <;> first | (simp [hpt]; done) | (cases pt <;> simp at hpt ⊢)
@[simp] theorem Agg.count_regs (g : Agg) (ctx : Nat) (k : Nat) (n : Nat) : (Agg.count g ctx k n).regs = g.regs := by
  unfold Agg.count
  (try dsimp only) <;> (repeat' split) <;> simp
@[simp] theorem Agg.countChip_only (pt : AggPart) (hpt : pt ∉ [AggPart.chip]) (g : Agg) (k : Nat) (n : Nat) : pt.get (Agg.countChip g k n) = pt.get g := by
  simp at hpt
  unfold Agg.countChip
  (try dsimp only) <;> (repeat' split) <;> first | (simp [hpt]; done) | (cases pt <;> simp at hpt ⊢)
@[simp] theorem Agg.countChip_regs (g : Agg) (k : Nat) (n : Nat) : (Agg.countChip g k n).regs = g.regs := by
  unfold Agg.countChip
  (try dsimp only) <;> (repeat' split) <;> simp
@[simp] theorem Agg.event_only (pt : AggPart) (hpt : pt ∉ [AggPart.elog]) (g : Agg) (typ : Nat) (sev : Nat) (source : Nat) (detail : List Byte) : pt.get (Agg.event g typ sev source detail) = pt.get g := by
  simp at hpt
  unfold Agg.event
  (try dsimp only) <;> (repeat' split) <;> first | (simp [hpt]; done) | (cases pt <;> simp at hpt ⊢)
@[simp] theorem Agg.event_regs (g : Agg) (typ : Nat) (sev : Nat) (source : Nat) (detail : List Byte) : (Agg.event g typ sev source detail).regs = g.regs := by
  unfold Agg.event
  (try dsimp only) <;> (repeat' split) <;> simp
@[simp] theorem Agg.write_only (pt : AggPart) (hpt : pt ∉ [AggPart.mem]) (g : Agg) (a : Nat) (bs : List Byte) : pt.get (Agg.write g a bs) = pt.get g := by
  simp at hpt
  unfold Agg.write
  (try dsimp only) <;> (repeat' split) <;> first | (simp [hpt]; done) | (cases pt <;> simp at hpt ⊢)
@[simp] theorem Agg.write_regs (g : Agg) (a : Nat) (bs : List Byte) : (Agg.write g a bs).regs = g.regs := by
  unfold Agg.write
  (try dsimp only) <;> (repeat' split) <;> simp
@[simp] theorem Agg.send_only (pt : AggPart) (hpt : pt ∉ [AggPart.outbox]) (g : Agg) (o : Out) : pt.get (Agg.send g o) = pt.get g := by
  simp at hpt
  unfold Agg.send
  (try dsimp only) <;> (repeat' split) <;> first | (simp [hpt]; done) | (cases pt <;> simp at hpt ⊢)
@[simp] theorem Agg.send_regs (g : Agg) (o : Out) : (Agg.send g o).regs = g.regs := by
  unfold Agg.send
  (try dsimp only) <;> (repeat' split) <;> simp
@[simp] theorem Agg.setQp_only (pt : AggPart) (hpt : pt ∉ [AggPart.ap]) (g : Agg) (qpn : Nat) (q : Qp) : pt.get (Agg.setQp g qpn q) = pt.get g := by
  simp at hpt
  unfold Agg.setQp
  (try dsimp only) <;> (repeat' split) <;> first | (simp [hpt]; done) | (cases pt <;> simp at hpt ⊢)
@[simp] theorem Agg.setQp_regs (g : Agg) (qpn : Nat) (q : Qp) : (Agg.setQp g qpn q).regs = g.regs := by
  unfold Agg.setQp
  (try dsimp only) <;> (repeat' split) <;> simp
@[simp] theorem Agg.modEgress_only (pt : AggPart) (hpt : pt ∉ [AggPart.ap]) (g : Agg) (port : Nat) (f : Egress → Egress) : pt.get (Agg.modEgress g port f) = pt.get g := by
  simp at hpt
  unfold Agg.modEgress
  (try dsimp only) <;> (repeat' split) <;> first | (simp [hpt]; done) | (cases pt <;> simp at hpt ⊢)
@[simp] theorem Agg.modEgress_regs (g : Agg) (port : Nat) (f : Egress → Egress) : (Agg.modEgress g port f).regs = g.regs := by
  unfold Agg.modEgress
  (try dsimp only) <;> (repeat' split) <;> simp
@[simp] theorem Agg.sendAp_only (pt : AggPart) (hpt : pt ∉ [AggPart.ap]) (g : Agg) (port : Nat) (cls : Nat) (x : Roce) : pt.get (Agg.sendAp g port cls x) = pt.get g := by
  simp at hpt
  unfold Agg.sendAp
  (try dsimp only) <;> (repeat' split) <;> first | (simp [hpt]; done) | (cases pt <;> simp at hpt ⊢)
@[simp] theorem Agg.sendAp_regs (g : Agg) (port : Nat) (cls : Nat) (x : Roce) : (Agg.sendAp g port cls x).regs = g.regs := by
  unfold Agg.sendAp
  (try dsimp only) <;> (repeat' split) <;> simp
@[simp] theorem Agg.push_only (pt : AggPart) (hpt : pt ∉ [AggPart.ap]) (g : Agg) (qpn : Nat) (va : Nat) (rkey : Nat) (bytes : List Byte) (send : Bool) : pt.get (Agg.push g qpn va rkey bytes send) = pt.get g := by
  simp at hpt
  unfold Agg.push
  (try dsimp only) <;> (repeat' split) <;> first | (simp [hpt]; done) | (cases pt <;> simp at hpt ⊢)
@[simp] theorem Agg.push_regs (g : Agg) (qpn : Nat) (va : Nat) (rkey : Nat) (bytes : List Byte) (send : Bool) : (Agg.push g qpn va rkey bytes send).regs = g.regs := by
  unfold Agg.push
  (try dsimp only) <;> (repeat' split) <;> simp
@[simp] theorem Agg.toPeer_only (pt : AggPart) (hpt : pt ∉ [AggPart.outbox]) (g : Agg) (n : Nat) (p : Peer) (kind : Nat) (seq : Nat) (count : Nat) (body : List Byte) : pt.get (Agg.toPeer g n p kind seq count body) = pt.get g := by
  simp at hpt
  unfold Agg.toPeer
  (try dsimp only) <;> (repeat' split) <;> first | (simp [hpt]; done) | (cases pt <;> simp at hpt ⊢)
@[simp] theorem Agg.toPeer_regs (g : Agg) (n : Nat) (p : Peer) (kind : Nat) (seq : Nat) (count : Nat) (body : List Byte) : (Agg.toPeer g n p kind seq count body).regs = g.regs := by
  unfold Agg.toPeer
  (try dsimp only) <;> (repeat' split) <;> simp
@[simp] theorem Agg.writeSlot_only (pt : AggPart) (hpt : pt ∉ [AggPart.mbx, .ap]) (g : Agg) (n : Nat) (s : List Byte) : pt.get (Agg.writeSlot g n s) = pt.get g := by
  simp at hpt
  unfold Agg.writeSlot
  (try dsimp only) <;> (repeat' split) <;> first | (simp [hpt]; done) | (cases pt <;> simp at hpt ⊢)
@[simp] theorem Agg.writeSlot_regs (g : Agg) (n : Nat) (s : List Byte) : (Agg.writeSlot g n s).regs = g.regs := by
  unfold Agg.writeSlot
  (try dsimp only) <;> (repeat' split) <;> simp
@[simp] theorem Agg.setPeer_only (pt : AggPart) (hpt : pt ∉ [AggPart.mbx]) (g : Agg) (n : Nat) (i : Nat) (p : Peer) : pt.get (Agg.setPeer g n i p) = pt.get g := by
  simp at hpt
  unfold Agg.setPeer
  (try dsimp only) <;> (repeat' split) <;> first | (simp [hpt]; done) | (cases pt <;> simp at hpt ⊢)
@[simp] theorem Agg.setPeer_regs (g : Agg) (n : Nat) (i : Nat) (p : Peer) : (Agg.setPeer g n i p).regs = g.regs := by
  unfold Agg.setPeer
  (try dsimp only) <;> (repeat' split) <;> simp
@[simp] theorem Agg.deliver_only (pt : AggPart) (hpt : pt ∉ [AggPart.mbx, .ap, .outbox]) (g : Agg) (n : Nat) (peer : Nat) (ss : List (List Byte)) : pt.get (Agg.deliver g n peer ss) = pt.get g := by
  simp at hpt
  unfold Agg.deliver
  (try dsimp only) <;> (repeat' split) <;> first | (simp [hpt]; done) | (cases pt <;> simp at hpt ⊢)
@[simp] theorem Agg.deliver_regs (g : Agg) (n : Nat) (peer : Nat) (ss : List (List Byte)) : (Agg.deliver g n peer ss).regs = g.regs := by
  unfold Agg.deliver
  (try dsimp only) <;> (repeat' split) <;> simp
@[simp] theorem Agg.violation_only (pt : AggPart) (hpt : pt ∉ [AggPart.mbx, .jobs]) (g : Agg) (ring : Nat) (op : Nat) (status : Nat) (tag : Nat) (source : Nat) (addr : Nat) : pt.get (Agg.violation g ring op status tag source addr) = pt.get g := by
  simp at hpt
  unfold Agg.violation
  (try dsimp only) <;> (repeat' split) <;> first | (simp [hpt]; done) | (cases pt <;> simp at hpt ⊢)
@[simp] theorem Agg.release_only (pt : AggPart) (hpt : pt ∉ [AggPart.mbx]) (g : Agg) (w : Nat × Nat) (i : Inflight) (st : Status) : pt.get (Agg.release g w i st) = pt.get g := by
  simp at hpt
  unfold Agg.release
  (try dsimp only) <;> (repeat' split) <;> first | (simp [hpt]; done) | (cases pt <;> simp at hpt ⊢)
@[simp] theorem Agg.release_regs (g : Agg) (w : Nat × Nat) (i : Inflight) (st : Status) : (Agg.release g w i st).regs = g.regs := by
  unfold Agg.release
  (try dsimp only) <;> (repeat' split) <;> simp
@[simp] theorem Agg.settleAs_only (pt : AggPart) (hpt : pt ∉ [AggPart.mbx, .ap, .outbox]) (g : Agg) (entry : Option Inflight) (w : Nat × Nat) (op : Nat) (st : Status) (res : List Byte) : pt.get (Agg.settleAs g entry w op st res) = pt.get g := by
  simp at hpt
  unfold Agg.settleAs
  (try dsimp only) <;> (repeat' split) <;> first | (simp [hpt]; done) | (cases pt <;> simp at hpt ⊢)
@[simp] theorem Agg.settleAs_regs (g : Agg) (entry : Option Inflight) (w : Nat × Nat) (op : Nat) (st : Status) (res : List Byte) : (Agg.settleAs g entry w op st res).regs = g.regs := by
  unfold Agg.settleAs
  (try dsimp only) <;> (repeat' split) <;> simp
@[simp] theorem Agg.settle_only (pt : AggPart) (hpt : pt ∉ [AggPart.mbx, .ap, .outbox]) (g : Agg) (w : Nat × Nat) (op : Nat) (st : Status) (res : List Byte) : pt.get (Agg.settle g w op st res) = pt.get g := by
  simp at hpt
  unfold Agg.settle
  (try dsimp only) <;> (repeat' split) <;> first | (simp [hpt]; done) | (cases pt <;> simp at hpt ⊢)
@[simp] theorem Agg.settle_regs (g : Agg) (w : Nat × Nat) (op : Nat) (st : Status) (res : List Byte) : (Agg.settle g w op st res).regs = g.regs := by
  unfold Agg.settle
  (try dsimp only) <;> (repeat' split) <;> simp
@[simp] theorem Agg.completeNow_only (pt : AggPart) (hpt : pt ∉ [AggPart.mbx, .ap, .jobs, .outbox]) (g : Agg) (w : Nat × Nat) (op : Nat) (st : Status) (res : List Byte) (addr : Nat) : pt.get (Agg.completeNow g w op st res addr) = pt.get g := by
  simp at hpt
  unfold Agg.completeNow
  (try dsimp only) <;> (repeat' split) <;> first | (simp [hpt]; done) | (cases pt <;> simp at hpt ⊢)
@[simp] theorem Agg.completeAt_only (pt : AggPart) (hpt : pt ∉ [AggPart.mbx, .ap, .jobs, .outbox]) (g : Agg) (w : Nat × Nat) (op : Nat) (st : Status) (res : List Byte) (addr : Nat) : pt.get (Agg.completeAt g w op st res addr) = pt.get g := by
  simp at hpt
  unfold Agg.completeAt
  (try dsimp only) <;> (repeat' split) <;> first | (simp [hpt]; done) | (cases pt <;> simp at hpt ⊢)
@[simp] theorem Agg.complete_only (pt : AggPart) (hpt : pt ∉ [AggPart.mbx, .ap, .jobs, .outbox]) (g : Agg) (w : Nat × Nat) (op : Nat) (st : Status) (res : List (Nat × Nat)) : pt.get (Agg.complete g w op st res) = pt.get g := by
  simp at hpt
  unfold Agg.complete
  (try dsimp only) <;> (repeat' split) <;> first | (simp [hpt]; done) | (cases pt <;> simp at hpt ⊢)
@[simp] theorem Agg.refuse_only (pt : AggPart) (hpt : pt ∉ [AggPart.mbx, .ap, .jobs, .outbox]) (g : Agg) (w : Nat × Nat) (op : Nat) (st : Status) (addr : Nat) : pt.get (Agg.refuse g w op st addr) = pt.get g := by
  simp at hpt
  unfold Agg.refuse
  (try dsimp only) <;> (repeat' split) <;> first | (simp [hpt]; done) | (cases pt <;> simp at hpt ⊢)
@[simp] theorem Agg.begin_only (pt : AggPart) (hpt : pt ∉ [AggPart.mbx]) (g : Agg) (w : Nat × Nat) : pt.get (Agg.begin g w) = pt.get g := by
  simp at hpt
  unfold Agg.begin
  (try dsimp only) <;> (repeat' split) <;> first | (simp [hpt]; done) | (cases pt <;> simp at hpt ⊢)
@[simp] theorem Agg.begin_regs (g : Agg) (w : Nat × Nat) : (Agg.begin g w).regs = g.regs := by
  unfold Agg.begin
  (try dsimp only) <;> (repeat' split) <;> simp
@[simp] theorem Agg.checked_only (pt : AggPart) (hpt : pt ∉ [AggPart.mbx, .ap, .jobs, .outbox]) (g : Agg) (c : Caller) (op : Nat) (codes : List Status) (bad : Option Nat) (f : Agg → Agg) (h : ∀ x, pt.get (f x) = pt.get x) : pt.get (Agg.checked g c op codes bad f) = pt.get g := by
  simp at hpt
  unfold Agg.checked
  (try dsimp only) <;> (repeat' split) <;> first | (simp [hpt, h]; done) | (cases pt <;> simp [h] at hpt ⊢)
@[simp] theorem Agg.command_only (pt : AggPart) (hpt : pt ∉ [AggPart.mbx, .ap, .jobs, .outbox]) (g : Agg) (c : Caller) (op : Nat) (codes : List Status) (bad : Option Nat) (f : Agg → Agg) (h : ∀ x, pt.get (f x) = pt.get x) : pt.get (Agg.command g c op codes bad f) = pt.get g := by
  simp at hpt
  unfold Agg.command
  (try dsimp only) <;> (repeat' split) <;> first | (simp [hpt, h]; done) | (cases pt <;> simp [h] at hpt ⊢)
@[simp] theorem Agg.done_only (pt : AggPart) (hpt : pt ∉ [AggPart.mbx, .ap, .jobs, .outbox]) (g : Agg) (c : Caller) (op : Nat) (res : List (Nat × Nat)) : pt.get (Agg.done g c op res) = pt.get g := by
  simp at hpt
  unfold Agg.done
  (try dsimp only) <;> (repeat' split) <;> first | (simp [hpt]; done) | (cases pt <;> simp at hpt ⊢)
@[simp] theorem Agg.setSlot_only (pt : AggPart) (hpt : pt ∉ [AggPart.codec]) (g : Agg) (s : Nat) (x : CodecSlot) : pt.get (Agg.setSlot g s x) = pt.get g := by
  simp at hpt
  unfold Agg.setSlot
  (try dsimp only) <;> (repeat' split) <;> first | (simp [hpt]; done) | (cases pt <;> simp at hpt ⊢)
@[simp] theorem Agg.setSlot_regs (g : Agg) (s : Nat) (x : CodecSlot) : (Agg.setSlot g s x).regs = g.regs := by
  unfold Agg.setSlot
  (try dsimp only) <;> (repeat' split) <;> simp
@[simp] theorem Agg.setCvu_only (pt : AggPart) (hpt : pt ∉ [AggPart.cvu]) (g : Agg) (k : Nat) (x : CvuCtx) : pt.get (Agg.setCvu g k x) = pt.get g := by
  simp at hpt
  unfold Agg.setCvu
  (try dsimp only) <;> (repeat' split) <;> first | (simp [hpt]; done) | (cases pt <;> simp at hpt ⊢)
@[simp] theorem Agg.setCvu_regs (g : Agg) (k : Nat) (x : CvuCtx) : (Agg.setCvu g k x).regs = g.regs := by
  unfold Agg.setCvu
  (try dsimp only) <;> (repeat' split) <;> simp
@[simp] theorem Agg.codecRun_only (pt : AggPart) (hpt : pt ∉ [AggPart.mem, .mbx, .ap, .jobs, .codec, .outbox]) (g : Agg) (c : Caller) (encode : Bool) (flush : Bool) (slot : Nat) (src : Nat) (len : Nat) (kind : Nat) (dst : Nat) : pt.get (Agg.codecRun g c encode flush slot src len kind dst) = pt.get g := by
  simp at hpt
  unfold Agg.codecRun
  (try dsimp only) <;> (repeat' split) <;> first | (simp [hpt]; done) | (cases pt <;> simp at hpt ⊢)
@[simp] theorem Agg.codecSave_only (pt : AggPart) (hpt : pt ∉ [AggPart.mem, .mbx, .ap, .jobs, .codec, .outbox]) (g : Agg) (c : Caller) (slot : Nat) (dst : Nat) (release : Bool) : pt.get (Agg.codecSave g c slot dst release) = pt.get g := by
  simp at hpt
  unfold Agg.codecSave
  (try dsimp only) <;> (repeat' split) <;> first | (simp [hpt]; done) | (cases pt <;> simp at hpt ⊢)
@[simp] theorem Agg.codecRestore_only (pt : AggPart) (hpt : pt ∉ [AggPart.mbx, .ap, .jobs, .codec, .outbox]) (g : Agg) (c : Caller) (slot : Nat) (src : Nat) : pt.get (Agg.codecRestore g c slot src) = pt.get g := by
  simp at hpt
  unfold Agg.codecRestore
  (try dsimp only) <;> (repeat' split) <;> first | (simp [hpt]; done) | (cases pt <;> simp at hpt ⊢)
@[simp] theorem Agg.cvuDone_only (pt : AggPart) (hpt : pt ∉ [AggPart.mbx, .ap, .jobs, .outbox]) (g : Agg) (c : Caller) (k : Nat) : pt.get (Agg.cvuDone g c k) = pt.get g := by
  simp at hpt
  unfold Agg.cvuDone
  (try dsimp only) <;> (repeat' split) <;> first | (simp [hpt]; done) | (cases pt <;> simp at hpt ⊢)
@[simp] theorem Agg.cvuConfigure_only (pt : AggPart) (hpt : pt ∉ [AggPart.mbx, .ap, .jobs, .cvu, .outbox]) (g : Agg) (c : Caller) (k : Nat) (width : Nat) (poly : Nat) (init : Nat) (refIn : Bool) (refOut : Bool) (xorOut : Nat) : pt.get (Agg.cvuConfigure g c k width poly init refIn refOut xorOut) = pt.get g := by
  simp at hpt
  unfold Agg.cvuConfigure
  (try dsimp only) <;> (repeat' split) <;> first | (simp [hpt]; done) | (cases pt <;> simp at hpt ⊢)
@[simp] theorem Agg.cvuScan_only (pt : AggPart) (hpt : pt ∉ [AggPart.mbx, .ap, .jobs, .cvu, .outbox]) (g : Agg) (c : Caller) (k : Nat) (a : Nat) (n : Nat) (cont : Bool) : pt.get (Agg.cvuScan g c k a n cont) = pt.get g := by
  simp at hpt
  unfold Agg.cvuScan
  (try dsimp only) <;> (repeat' split) <;> (first | (simp (maxDischargeDepth := 5) [hpt]; done) | (rw [Agg.command_only pt (by simp [hpt])]; (repeat' intro _); (try dsimp only) <;> (repeat' split) <;> (first | (simp [hpt]; done) | (cases pt <;> simp at hpt ⊢)); done) | (rw [Agg.checked_only pt (by simp [hpt])]; (repeat' intro _); (try dsimp only) <;> (repeat' split) <;> (first | (simp [hpt]; done) | (cases pt <;> simp at hpt ⊢)); done) | (rw [AggPart.get_foldl]; (repeat' intro _); (try dsimp only) <;> (repeat' split) <;> (first | (simp [hpt]; done) | (cases pt <;> simp at hpt ⊢)); done))
@[simp] theorem Agg.cvuRead_only (pt : AggPart) (hpt : pt ∉ [AggPart.mbx, .ap, .jobs, .outbox]) (g : Agg) (c : Caller) (k : Nat) : pt.get (Agg.cvuRead g c k) = pt.get g := by
  simp at hpt
  unfold Agg.cvuRead
  (try dsimp only) <;> (repeat' split) <;> first | (simp [hpt]; done) | (cases pt <;> simp at hpt ⊢)
@[simp] theorem Agg.cvuWrite_only (pt : AggPart) (hpt : pt ∉ [AggPart.mbx, .ap, .jobs, .cvu, .outbox]) (g : Agg) (c : Caller) (k : Nat) (v : Nat) : pt.get (Agg.cvuWrite g c k v) = pt.get g := by
  simp at hpt
  unfold Agg.cvuWrite
  (try dsimp only) <;> (repeat' split) <;> first | (simp [hpt]; done) | (cases pt <;> simp at hpt ⊢)
@[simp] theorem Agg.withTime_only (pt : AggPart) (hpt : pt ∉ [AggPart.time]) (g : Agg) (f : AggTime → AggTime) : pt.get (Agg.withTime g f) = pt.get g := by
  simp at hpt
  unfold Agg.withTime
  (try dsimp only) <;> (repeat' split) <;> first | (simp [hpt]; done) | (cases pt <;> simp at hpt ⊢)
@[simp] theorem Agg.withTime_regs (g : Agg) (f : AggTime → AggTime) : (Agg.withTime g f).regs = g.regs := by
  unfold Agg.withTime
  (try dsimp only) <;> (repeat' split) <;> simp
@[simp] theorem Agg.enterHoldover_only (pt : AggPart) (hpt : pt ∉ [AggPart.time]) (g : Agg) : pt.get (Agg.enterHoldover g) = pt.get g := by
  simp at hpt
  unfold Agg.enterHoldover
  (try dsimp only) <;> (repeat' split) <;> first | (simp [hpt]; done) | (cases pt <;> simp at hpt ⊢)
@[simp] theorem Agg.loseReference_only (pt : AggPart) (hpt : pt ∉ [AggPart.time]) (g : Agg) : pt.get (Agg.loseReference g) = pt.get g := by
  simp at hpt
  unfold Agg.loseReference
  (try dsimp only) <;> (repeat' split) <;> first | (simp [hpt]; done) | (cases pt <;> simp at hpt ⊢)
@[simp] theorem Agg.enterLocked_only (pt : AggPart) (hpt : pt ∉ [AggPart.time]) (g : Agg) : pt.get (Agg.enterLocked g) = pt.get g := by
  simp at hpt
  unfold Agg.enterLocked
  (try dsimp only) <;> (repeat' split) <;> first | (simp [hpt]; done) | (cases pt <;> simp at hpt ⊢)
@[simp] theorem Agg.enterLocked_regs (g : Agg) : (Agg.enterLocked g).regs = g.regs := by
  unfold Agg.enterLocked
  (try dsimp only) <;> (repeat' split) <;> simp
@[simp] theorem Agg.todMessage_only (pt : AggPart) (hpt : pt ∉ [AggPart.time]) (g : Agg) (m : List Byte) : pt.get (Agg.todMessage g m) = pt.get g := by
  simp at hpt
  unfold Agg.todMessage
  (try dsimp only) <;> (repeat' split) <;> first | (simp [hpt]; done) | (cases pt <;> simp at hpt ⊢)
@[simp] theorem Agg.judgeTod_only (pt : AggPart) (hpt : pt ∉ [AggPart.time]) (g : Agg) : pt.get ((Agg.judgeTod g).2) = pt.get g := by
  simp at hpt
  unfold Agg.judgeTod
  (try dsimp only) <;> (repeat' split) <;> first | (simp [hpt]; done) | (cases pt <;> simp at hpt ⊢)
@[simp] theorem Agg.stepHt_only (pt : AggPart) (hpt : pt ∉ [AggPart.time]) (g : Agg) (ht : Nat) : pt.get (Agg.stepHt g ht) = pt.get g := by
  simp at hpt
  unfold Agg.stepHt
  (try dsimp only) <;> (repeat' split) <;> first | (simp [hpt]; done) | (cases pt <;> simp at hpt ⊢)
@[simp] theorem Agg.stepHt_regs (g : Agg) (ht : Nat) : (Agg.stepHt g ht).regs = g.regs := by
  unfold Agg.stepHt
  (try dsimp only) <;> (repeat' split) <;> simp
@[simp] theorem Agg.slewBy_only (pt : AggPart) (hpt : pt ∉ [AggPart.time]) (g : Agg) (off : Int) : pt.get (Agg.slewBy g off) = pt.get g := by
  simp at hpt
  unfold Agg.slewBy
  (try dsimp only) <;> (repeat' split) <;> first | (simp [hpt]; done) | (cases pt <;> simp at hpt ⊢)
@[simp] theorem Agg.slewBy_regs (g : Agg) (off : Int) : (Agg.slewBy g off).regs = g.regs := by
  unfold Agg.slewBy
  (try dsimp only) <;> (repeat' split) <;> simp
@[simp] theorem Agg.countEdge_only (pt : AggPart) (hpt : pt ∉ [AggPart.time]) (g : Agg) : pt.get (Agg.countEdge g) = pt.get g := by
  simp at hpt
  unfold Agg.countEdge
  (try dsimp only) <;> (repeat' split) <;> first | (simp [hpt]; done) | (cases pt <;> simp at hpt ⊢)
@[simp] theorem Agg.countEdge_regs (g : Agg) : (Agg.countEdge g).regs = g.regs := by
  unfold Agg.countEdge
  (try dsimp only) <;> (repeat' split) <;> simp
@[simp] theorem Agg.slewEdge_only (pt : AggPart) (hpt : pt ∉ [AggPart.time]) (g : Agg) (off : Int) : pt.get (Agg.slewEdge g off) = pt.get g := by
  simp at hpt
  unfold Agg.slewEdge
  (try dsimp only) <;> (repeat' split) <;> first | (simp [hpt]; done) | (cases pt <;> simp at hpt ⊢)
@[simp] theorem Agg.slewEdge_regs (g : Agg) (off : Int) : (Agg.slewEdge g off).regs = g.regs := by
  unfold Agg.slewEdge
  (try dsimp only) <;> (repeat' split) <;> simp
@[simp] theorem Agg.holdoverEdge_only (pt : AggPart) (hpt : pt ∉ [AggPart.time]) (g : Agg) (off : Int) : pt.get (Agg.holdoverEdge g off) = pt.get g := by
  simp at hpt
  unfold Agg.holdoverEdge
  (try dsimp only) <;> (repeat' split) <;> first | (simp [hpt]; done) | (cases pt <;> simp at hpt ⊢)
@[simp] theorem Agg.edgePhase_only (pt : AggPart) (hpt : pt ∉ [AggPart.time]) (g : Agg) (named : Option Nat) : pt.get (Agg.edgePhase g named) = pt.get g := by
  simp at hpt
  unfold Agg.edgePhase
  (try dsimp only) <;> (repeat' split) <;> first | (simp [hpt]; done) | (cases pt <;> simp at hpt ⊢)
@[simp] theorem Agg.ppsEdge_only (pt : AggPart) (hpt : pt ∉ [AggPart.time]) (g : Agg) : pt.get (Agg.ppsEdge g) = pt.get g := by
  simp at hpt
  unfold Agg.ppsEdge
  (try dsimp only) <;> (repeat' split) <;> first | (simp [hpt]; done) | (cases pt <;> simp at hpt ⊢)
@[simp] theorem Agg.ppsLoss_only (pt : AggPart) (hpt : pt ∉ [AggPart.time]) (g : Agg) : pt.get (Agg.ppsLoss g) = pt.get g := by
  simp at hpt
  unfold Agg.ppsLoss
  (try dsimp only) <;> (repeat' split) <;> first | (simp [hpt]; done) | (cases pt <;> simp at hpt ⊢)
@[simp] theorem Agg.refLoss_only (pt : AggPart) (hpt : pt ∉ [AggPart.time]) (g : Agg) : pt.get (Agg.refLoss g) = pt.get g := by
  simp at hpt
  unfold Agg.refLoss
  (try dsimp only) <;> (repeat' split) <;> first | (simp [hpt]; done) | (cases pt <;> simp at hpt ⊢)
@[simp] theorem Agg.inputsReturn_only (pt : AggPart) (hpt : pt ∉ [AggPart.time]) (g : Agg) (pps : Bool) (ref : Bool) : pt.get (Agg.inputsReturn g pps ref) = pt.get g := by
  simp at hpt
  unfold Agg.inputsReturn
  (try dsimp only) <;> (repeat' split) <;> first | (simp [hpt]; done) | (cases pt <;> simp at hpt ⊢)
@[simp] theorem Agg.exchangeFail_only (pt : AggPart) (hpt : pt ∉ [AggPart.time]) (g : Agg) (alt : Bool) : pt.get (Agg.exchangeFail g alt) = pt.get g := by
  simp at hpt
  unfold Agg.exchangeFail
  (try dsimp only) <;> (repeat' split) <;> first | (simp [hpt]; done) | (cases pt <;> simp at hpt ⊢)
@[simp] theorem Agg.exchangeStart_only (pt : AggPart) (hpt : pt ∉ [AggPart.time, .links]) (g : Agg) (alt : Bool) : pt.get (Agg.exchangeStart g alt) = pt.get g := by
  simp at hpt
  unfold Agg.exchangeStart
  (try dsimp only) <;> (repeat' split) <;> first | (simp [hpt]; done) | (cases pt <;> simp at hpt ⊢)
@[simp] theorem Agg.exchangeRequest_only (pt : AggPart) (hpt : pt ∉ [AggPart.links]) (g : Agg) (k : Nat) (m : List Byte) : pt.get (Agg.exchangeRequest g k m) = pt.get g := by
  simp at hpt
  unfold Agg.exchangeRequest
  (try dsimp only) <;> (repeat' split) <;> first | (simp [hpt]; done) | (cases pt <;> simp at hpt ⊢)
@[simp] theorem Agg.exchangeRequest_regs (g : Agg) (k : Nat) (m : List Byte) : (Agg.exchangeRequest g k m).regs = g.regs := by
  unfold Agg.exchangeRequest
  (try dsimp only) <;> (repeat' split) <;> simp
@[simp] theorem Agg.learnSched_only (pt : AggPart) (hpt : pt ∉ [AggPart.time]) (g : Agg) (s : Sched) (p : Option (Nat × Nat)) : pt.get (Agg.learnSched g s p) = pt.get g := by
  simp at hpt
  unfold Agg.learnSched
  (try dsimp only) <;> (repeat' split) <;> first | (simp [hpt]; done) | (cases pt <;> simp at hpt ⊢)
@[simp] theorem Agg.applyOffset_only (pt : AggPart) (hpt : pt ∉ [AggPart.time]) (g : Agg) (ps : Int) : pt.get (Agg.applyOffset g ps) = pt.get g := by
  simp at hpt
  unfold Agg.applyOffset
  (try dsimp only) <;> (repeat' split) <;> first | (simp [hpt]; done) | (cases pt <;> simp at hpt ⊢)
@[simp] theorem Agg.applyOffset_regs (g : Agg) (ps : Int) : (Agg.applyOffset g ps).regs = g.regs := by
  unfold Agg.applyOffset
  (try dsimp only) <;> (repeat' split) <;> simp
@[simp] theorem Agg.preferOther_only (pt : AggPart) (hpt : pt ∉ [AggPart.time]) (g : Agg) : pt.get (Agg.preferOther g) = pt.get g := by
  simp at hpt
  unfold Agg.preferOther
  (try dsimp only) <;> (repeat' split) <;> first | (simp [hpt]; done) | (cases pt <;> simp at hpt ⊢)
@[simp] theorem Agg.stamped_only (pt : AggPart) (hpt : pt ∉ [AggPart.time]) (g : Agg) : pt.get (Agg.stamped g) = pt.get g := by
  simp at hpt
  unfold Agg.stamped
  (try dsimp only) <;> (repeat' split) <;> first | (simp [hpt]; done) | (cases pt <;> simp at hpt ⊢)
@[simp] theorem Agg.stamped_regs (g : Agg) : (Agg.stamped g).regs = g.regs := by
  unfold Agg.stamped
  (try dsimp only) <;> (repeat' split) <;> simp
@[simp] theorem Agg.exchangeReply_only (pt : AggPart) (hpt : pt ∉ [AggPart.time]) (g : Agg) (k : Nat) (m : List Byte) : pt.get (Agg.exchangeReply g k m) = pt.get g := by
  simp at hpt
  unfold Agg.exchangeReply
  (try dsimp only) <;> (repeat' split) <;> first | (simp [hpt]; done) | (cases pt <;> simp at hpt ⊢)
@[simp] theorem Agg.partnerHt_only (pt : AggPart) (g : Agg) (theirs : Nat) : pt.get (Agg.partnerHt g theirs) = pt.get g := by
  unfold Agg.partnerHt
  (try dsimp only) <;> (repeat' split) <;> first | (simp; done) | (cases pt <;> simp)
@[simp] theorem Agg.beatDue_only (pt : AggPart) (hpt : pt ∉ [AggPart.time, .ports]) (g : Agg) : pt.get (Agg.beatDue g) = pt.get g := by
  simp at hpt
  unfold Agg.beatDue
  (try dsimp only) <;> (repeat' split) <;> first | (simp [hpt]; done) | (cases pt <;> simp at hpt ⊢)
@[simp] theorem Agg.beatDue_regs (g : Agg) : (Agg.beatDue g).regs = g.regs := by
  unfold Agg.beatDue
  (try dsimp only) <;> (repeat' split) <;> simp
@[simp] theorem Agg.selectSource_only (pt : AggPart) (hpt : pt ∉ [AggPart.time, .mbx, .ap, .jobs, .outbox]) (g : Agg) (c : Caller) (source : Nat) (force : Bool) : pt.get (Agg.selectSource g c source force) = pt.get g := by
  simp at hpt
  unfold Agg.selectSource
  (try dsimp only) <;> (repeat' split) <;> first | (simp [hpt]; done) | (cases pt <;> simp at hpt ⊢)
@[simp] theorem Agg.scheduleInit_only (pt : AggPart) (hpt : pt ∉ [AggPart.time, .mbx, .ap, .jobs, .outbox]) (g : Agg) (c : Caller) (epoch : Nat) (period : Nat) : pt.get (Agg.scheduleInit g c epoch period) = pt.get g := by
  simp at hpt
  unfold Agg.scheduleInit
  (try dsimp only) <;> (repeat' split) <;> first | (simp [hpt]; done) | (cases pt <;> simp at hpt ⊢)
@[simp] theorem Agg.scheduleChange_only (pt : AggPart) (hpt : pt ∉ [AggPart.time, .mbx, .ap, .jobs, .outbox]) (g : Agg) (c : Caller) (win : Nat) (period : Nat) : pt.get (Agg.scheduleChange g c win period) = pt.get g := by
  simp at hpt
  unfold Agg.scheduleChange
  (try dsimp only) <;> (repeat' split) <;> first | (simp [hpt]; done) | (cases pt <;> simp at hpt ⊢)
@[simp] theorem Agg.linkAsym_only (pt : AggPart) (hpt : pt ∉ [AggPart.links, .mbx, .ap, .jobs, .outbox]) (g : Agg) (c : Caller) (k : Nat) (ps : Int) : pt.get (Agg.linkAsym g c k ps) = pt.get g := by
  simp at hpt
  unfold Agg.linkAsym
  (try dsimp only) <;> (repeat' split) <;> first | (simp [hpt]; done) | (cases pt <;> simp at hpt ⊢)
@[simp] theorem Agg.dieportAsym_only (pt : AggPart) (hpt : pt ∉ [AggPart.ports, .mbx, .ap, .jobs, .outbox]) (g : Agg) (c : Caller) (p : Nat) (ps : Int) : pt.get (Agg.dieportAsym g c p ps) = pt.get g := by
  simp at hpt
  unfold Agg.dieportAsym
  (try dsimp only) <;> (repeat' split) <;> first | (simp [hpt]; done) | (cases pt <;> simp at hpt ⊢)
@[simp] theorem Agg.kickJob_only (pt : AggPart) (hpt : pt ∉ [AggPart.ports, .acc]) (g : Agg) (j : RegJob) : pt.get (Agg.kickJob g j) = pt.get g := by
  simp at hpt
  unfold Agg.kickJob
  (try dsimp only) <;> (repeat' split) <;> first | (simp [hpt]; done) | (cases pt <;> simp at hpt ⊢)
@[simp] theorem Agg.kickJob_regs (g : Agg) (j : RegJob) : (Agg.kickJob g j).regs = g.regs := by
  unfold Agg.kickJob
  (try dsimp only) <;> (repeat' split) <;> simp
@[simp] theorem Agg.kick_only (pt : AggPart) (hpt : pt ∉ [AggPart.ports, .acc]) (g : Agg) (p : Nat) : pt.get (Agg.kick g p) = pt.get g := by
  simp at hpt
  unfold Agg.kick
  (try dsimp only) <;> (repeat' split) <;> first | (simp [hpt]; done) | (cases pt <;> simp at hpt ⊢)
@[simp] theorem Agg.kick_regs (g : Agg) (p : Nat) : (Agg.kick g p).regs = g.regs := by
  unfold Agg.kick
  (try dsimp only) <;> (repeat' split) <;> simp
@[simp] theorem Agg.startReg_only (pt : AggPart) (hpt : pt ∉ [AggPart.ports, .acc]) (g : Agg) (ring : Nat) (tag : Nat) (opcode : Nat) (p : Nat) (use : RegUse) (ops : List RegOp) : pt.get (Agg.startReg g ring tag opcode p use ops) = pt.get g := by
  simp at hpt
  unfold Agg.startReg
  (try dsimp only) <;> (repeat' split) <;> first | (simp [hpt]; done) | (cases pt <;> simp at hpt ⊢)
@[simp] theorem Agg.startReg_regs (g : Agg) (ring : Nat) (tag : Nat) (opcode : Nat) (p : Nat) (use : RegUse) (ops : List RegOp) : (Agg.startReg g ring tag opcode p use ops).regs = g.regs := by
  unfold Agg.startReg
  (try dsimp only) <;> (repeat' split) <;> simp
@[simp] theorem Agg.stampReg_only (pt : AggPart) (hpt : pt ∉ [AggPart.acc]) (g : Agg) (p : Nat) (tag : Nat) : pt.get (Agg.stampReg g p tag) = pt.get g := by
  simp at hpt
  unfold Agg.stampReg
  (try dsimp only) <;> (repeat' split) <;> first | (simp [hpt]; done) | (cases pt <;> simp at hpt ⊢)
@[simp] theorem Agg.stampReg_regs (g : Agg) (p : Nat) (tag : Nat) : (Agg.stampReg g p tag).regs = g.regs := by
  unfold Agg.stampReg
  (try dsimp only) <;> (repeat' split) <;> simp
@[simp] theorem Agg.dropJob_only (pt : AggPart) (hpt : pt ∉ [AggPart.acc]) (g : Agg) (j : RegJob) : pt.get (Agg.dropJob g j) = pt.get g := by
  simp at hpt
  unfold Agg.dropJob
  (try dsimp only) <;> (repeat' split) <;> first | (simp [hpt]; done) | (cases pt <;> simp at hpt ⊢)
@[simp] theorem Agg.dropJob_regs (g : Agg) (j : RegJob) : (Agg.dropJob g j).regs = g.regs := by
  unfold Agg.dropJob
  (try dsimp only) <;> (repeat' split) <;> simp
@[simp] theorem Agg.putJob_only (pt : AggPart) (hpt : pt ∉ [AggPart.acc]) (g : Agg) (j : RegJob) : pt.get (Agg.putJob g j) = pt.get g := by
  simp at hpt
  unfold Agg.putJob
  (try dsimp only) <;> (repeat' split) <;> first | (simp [hpt]; done) | (cases pt <;> simp at hpt ⊢)
@[simp] theorem Agg.putJob_regs (g : Agg) (j : RegJob) : (Agg.putJob g j).regs = g.regs := by
  unfold Agg.putJob
  (try dsimp only) <;> (repeat' split) <;> simp
@[simp] theorem Agg.jobAnswer_only (pt : AggPart) (hpt : pt ∉ [AggPart.acc]) (g : Agg) (j : RegJob) (st : Status) (dat : Word) : pt.get (Agg.jobAnswer g j st dat).1 = pt.get g := by
  simp at hpt
  unfold Agg.jobAnswer
  (try dsimp only) <;> (repeat' split) <;> first | (simp [hpt]; done) | (cases pt <;> simp at hpt ⊢)
@[simp] theorem Agg.jobAnswer_regs (g : Agg) (j : RegJob) (st : Status) (dat : Word) : (Agg.jobAnswer g j st dat).1.regs = g.regs := by
  unfold Agg.jobAnswer
  (try dsimp only) <;> (repeat' split) <;> simp
@[simp] theorem Agg.regAnswer_only (pt : AggPart) (hpt : pt ∉ [AggPart.ports, .acc]) (g : Agg) (p : Nat) (m : List Byte) : pt.get (Agg.regAnswer g p m).1 = pt.get g := by
  simp at hpt
  unfold Agg.regAnswer
  (try dsimp only) <;> (repeat' split) <;> first | (simp [hpt]; done) | (cases pt <;> simp at hpt ⊢)
@[simp] theorem Agg.regAnswer_regs (g : Agg) (p : Nat) (m : List Byte) : (Agg.regAnswer g p m).1.regs = g.regs := by
  unfold Agg.regAnswer
  (try dsimp only) <;> (repeat' split) <;> simp
@[simp] theorem Agg.regTimeout_only (pt : AggPart) (hpt : pt ∉ [AggPart.ports, .acc]) (g : Agg) (p : Nat) (tag : Nat) : pt.get (Agg.regTimeout g p tag).1 = pt.get g := by
  simp at hpt
  unfold Agg.regTimeout
  (try dsimp only) <;> (repeat' split) <;> first | (simp [hpt]; done) | (cases pt <;> simp at hpt ⊢)
@[simp] theorem Agg.regTimeout_regs (g : Agg) (p : Nat) (tag : Nat) : (Agg.regTimeout g p tag).1.regs = g.regs := by
  unfold Agg.regTimeout
  (try dsimp only) <;> (repeat' split) <;> simp
@[simp] theorem Agg.regDown_only (pt : AggPart) (hpt : pt ∉ [AggPart.acc]) (g : Agg) (p : Nat) : pt.get (Agg.regDown g p).1 = pt.get g := by
  simp at hpt
  unfold Agg.regDown
  (try dsimp only) <;> (repeat' split) <;> first | (simp [hpt]; done) | (cases pt <;> simp at hpt ⊢)
@[simp] theorem Agg.regDown_regs (g : Agg) (p : Nat) : (Agg.regDown g p).1.regs = g.regs := by
  unfold Agg.regDown
  (try dsimp only) <;> (repeat' split) <;> simp
@[simp] theorem Agg.atuWrite_only (pt : AggPart) (hpt : pt ∉ [AggPart.ports, .mbx, .acc, .ap, .jobs, .outbox]) (g : Agg) (c : Caller) (p : Nat) (off : Nat) (v : Nat) : pt.get (Agg.atuWrite g c p off v) = pt.get g := by
  simp at hpt
  unfold Agg.atuWrite
  (try dsimp only) <;> (repeat' split) <;> first | (simp [hpt]; done) | (cases pt <;> simp at hpt ⊢)
@[simp] theorem Agg.atuRead_only (pt : AggPart) (hpt : pt ∉ [AggPart.ports, .mbx, .acc, .ap, .jobs, .outbox]) (g : Agg) (c : Caller) (p : Nat) (off : Nat) (count : Nat) : pt.get (Agg.atuRead g c p off count) = pt.get g := by
  simp at hpt
  unfold Agg.atuRead
  (try dsimp only) <;> (repeat' split) <;> first | (simp [hpt]; done) | (cases pt <;> simp at hpt ⊢)
@[simp] theorem Agg.getTimeStatus_only (pt : AggPart) (hpt : pt ∉ [AggPart.ports, .mbx, .acc, .ap, .jobs, .outbox]) (g : Agg) (c : Caller) (target : Nat) : pt.get (Agg.getTimeStatus g c target) = pt.get g := by
  simp at hpt
  unfold Agg.getTimeStatus
  (try dsimp only) <;> (repeat' split) <;> first | (simp [hpt]; done) | (cases pt <;> simp at hpt ⊢)
@[simp] theorem Agg.traceCtlStart_only (pt : AggPart) (hpt : pt ∉ [AggPart.ports, .mbx, .acc, .ap, .jobs, .outbox]) (g : Agg) (c : Caller) (p : Nat) : pt.get (Agg.traceCtlStart g c p) = pt.get g := by
  simp at hpt
  unfold Agg.traceCtlStart
  (try dsimp only) <;> (repeat' split) <;> first | (simp [hpt]; done) | (cases pt <;> simp at hpt ⊢)
@[simp] theorem Agg.traceCtlStop_only (pt : AggPart) (hpt : pt ∉ [AggPart.ports, .mbx, .acc, .ap, .jobs, .outbox]) (g : Agg) (c : Caller) (p : Nat) : pt.get (Agg.traceCtlStop g c p) = pt.get g := by
  simp at hpt
  unfold Agg.traceCtlStop
  (try dsimp only) <;> (repeat' split) <;> first | (simp [hpt]; done) | (cases pt <;> simp at hpt ⊢)
@[simp] theorem Agg.traceCtlAuth_only (pt : AggPart) (hpt : pt ∉ [AggPart.ports, .mbx, .acc, .ap, .jobs, .outbox]) (g : Agg) (c : Caller) (p : Nat) (token : Nat) (expiry : Nat) : pt.get (Agg.traceCtlAuth g c p token expiry) = pt.get g := by
  simp at hpt
  unfold Agg.traceCtlAuth
  (try dsimp only) <;> (repeat' split) <;> first | (simp [hpt]; done) | (cases pt <;> simp at hpt ⊢)
@[simp] theorem Agg.traceCtlStatus_only (pt : AggPart) (hpt : pt ∉ [AggPart.ports, .mbx, .acc, .ap, .jobs, .outbox]) (g : Agg) (c : Caller) (p : Nat) : pt.get (Agg.traceCtlStatus g c p) = pt.get g := by
  simp at hpt
  unfold Agg.traceCtlStatus
  (try dsimp only) <;> (repeat' split) <;> first | (simp [hpt]; done) | (cases pt <;> simp at hpt ⊢)
@[simp] theorem Agg.sandPlan_only (pt : AggPart) (hpt : pt ∉ [AggPart.ports, .mbx, .acc, .ap, .jobs, .outbox]) (g : Agg) (c : Caller) (p : Nat) (codes : List Status) (bad : Bool) (mask : Nat) (ws : List (Nat × Nat)) : pt.get (Agg.sandPlan g c p codes bad mask ws) = pt.get g := by
  simp at hpt
  unfold Agg.sandPlan
  (try dsimp only) <;> (repeat' split) <;> first | (simp [hpt]; done) | (cases pt <;> simp at hpt ⊢)
@[simp] theorem Agg.sandSet_only (pt : AggPart) (hpt : pt ∉ [AggPart.ports, .mbx, .acc, .ap, .jobs, .outbox]) (g : Agg) (c : Caller) (p : Nat) (mask : Nat) (interval : Nat) (soft : Nat) (hard : Nat) : pt.get (Agg.sandSet g c p mask interval soft hard) = pt.get g := by
  simp at hpt
  unfold Agg.sandSet
  (try dsimp only) <;> (repeat' split) <;> first | (simp [hpt]; done) | (cases pt <;> simp at hpt ⊢)
@[simp] theorem Agg.sandRunNow_only (pt : AggPart) (hpt : pt ∉ [AggPart.ports, .mbx, .acc, .ap, .jobs, .outbox]) (g : Agg) (c : Caller) (p : Nat) (mask : Nat) : pt.get (Agg.sandRunNow g c p mask) = pt.get g := by
  simp at hpt
  unfold Agg.sandRunNow
  (try dsimp only) <;> (repeat' split) <;> first | (simp [hpt]; done) | (cases pt <;> simp at hpt ⊢)
@[simp] theorem Agg.sandClear_only (pt : AggPart) (hpt : pt ∉ [AggPart.ports, .mbx, .acc, .ap, .jobs, .outbox]) (g : Agg) (c : Caller) (p : Nat) (mask : Nat) : pt.get (Agg.sandClear g c p mask) = pt.get g := by
  simp at hpt
  unfold Agg.sandClear
  (try dsimp only) <;> (repeat' split) <;> first | (simp [hpt]; done) | (cases pt <;> simp at hpt ⊢)
@[simp] theorem Agg.sandStatus_only (pt : AggPart) (hpt : pt ∉ [AggPart.ports, .mbx, .acc, .ap, .jobs, .outbox]) (g : Agg) (c : Caller) (p : Nat) : pt.get (Agg.sandStatus g c p) = pt.get g := by
  simp at hpt
  unfold Agg.sandStatus
  (try dsimp only) <;> (repeat' split) <;> first | (simp [hpt]; done) | (cases pt <;> simp at hpt ⊢)
@[simp] theorem Agg.atuReset_only (pt : AggPart) (hpt : pt ∉ [AggPart.ports, .mbx, .acc, .ap, .jobs, .outbox]) (g : Agg) (c : Caller) (p : Nat) (kind : Bool) : pt.get (Agg.atuReset g c p kind) = pt.get g := by
  simp at hpt
  unfold Agg.atuReset
  (try dsimp only) <;> (repeat' split) <;> first | (simp [hpt]; done) | (cases pt <;> simp at hpt ⊢)
@[simp] theorem Agg.resetTimeout_only (pt : AggPart) (hpt : pt ∉ [AggPart.mbx, .acc, .ap, .jobs, .outbox]) (g : Agg) (p : Nat) : pt.get (Agg.resetTimeout g p) = pt.get g := by
  simp at hpt
  unfold Agg.resetTimeout
  (try dsimp only) <;> (repeat' split) <;> first | (simp [hpt]; done) | (cases pt <;> simp at hpt ⊢)
@[simp] theorem Agg.resetPortDown_only (pt : AggPart) (hpt : pt ∉ [AggPart.acc]) (g : Agg) (p : Nat) : pt.get (Agg.resetPortDown g p) = pt.get g := by
  simp at hpt
  unfold Agg.resetPortDown
  (try dsimp only) <;> (repeat' split) <;> first | (simp [hpt]; done) | (cases pt <;> simp at hpt ⊢)
@[simp] theorem Agg.resetPortDown_regs (g : Agg) (p : Nat) : (Agg.resetPortDown g p).regs = g.regs := by
  unfold Agg.resetPortDown
  (try dsimp only) <;> (repeat' split) <;> simp
@[simp] theorem Agg.resetPortUp_only (pt : AggPart) (hpt : pt ∉ [AggPart.ports, .acc]) (g : Agg) (p : Nat) : pt.get (Agg.resetPortUp g p) = pt.get g := by
  simp at hpt
  unfold Agg.resetPortUp
  (try dsimp only) <;> (repeat' split) <;> first | (simp [hpt]; done) | (cases pt <;> simp at hpt ⊢)
@[simp] theorem Agg.resetPortUp_regs (g : Agg) (p : Nat) : (Agg.resetPortUp g p).regs = g.regs := by
  unfold Agg.resetPortUp
  (try dsimp only) <;> (repeat' split) <;> simp
@[simp] theorem Agg.resetAnswer_only (pt : AggPart) (hpt : pt ∉ [AggPart.ports, .mbx, .acc, .ap, .jobs, .outbox]) (g : Agg) (p : Nat) (st : Status) : pt.get (Agg.resetAnswer g p st) = pt.get g := by
  simp at hpt
  unfold Agg.resetAnswer
  (try dsimp only) <;> (repeat' split) <;> first | (simp [hpt]; done) | (cases pt <;> simp at hpt ⊢)
@[simp] theorem Agg.evrDone_only (pt : AggPart) (hpt : pt ∉ [AggPart.mem, .mbx, .ap, .jobs, .outbox]) (g : Agg) (j : RegJob) (dst : Nat) (mx : Nat) (pos : Nat) (len : Nat) : pt.get (Agg.evrDone g j dst mx pos len) = pt.get g := by
  simp at hpt
  unfold Agg.evrDone
  (try dsimp only) <;> (repeat' split) <;> first | (simp [hpt]; done) | (cases pt <;> simp at hpt ⊢)
@[simp] theorem Agg.regEnds_only (pt : AggPart) (hpt : pt ∉ [AggPart.mbx, .ap, .jobs, .outbox]) (g : Agg) (j : RegJob) (st : Status) (res : List (Nat × Nat)) : pt.get (Agg.regEnds g j st res) = pt.get g := by
  simp at hpt
  unfold Agg.regEnds
  (try dsimp only) <;> (repeat' split) <;> first | (simp [hpt]; done) | (cases pt <;> simp at hpt ⊢)
@[simp] theorem Agg.regDone_only (pt : AggPart) (hpt : pt ∉ [AggPart.mem, .ports, .mbx, .acc, .ap, .jobs, .outbox]) (g : Agg) (j : RegJob) (st : Status) : pt.get (Agg.regDone g j st) = pt.get g := by
  simp at hpt
  unfold Agg.regDone
  (try dsimp only) <;> (repeat' split) <;> first | (simp [hpt]; done) | (cases pt <;> simp at hpt ⊢)
@[simp] theorem Agg.modScore_only (pt : AggPart) (hpt : pt ∉ [AggPart.scores]) (g : Agg) (n : Nat) (f : JobScore → JobScore) : pt.get (Agg.modScore g n f) = pt.get g := by
  simp at hpt
  unfold Agg.modScore
  (try dsimp only) <;> (repeat' split) <;> first | (simp [hpt]; done) | (cases pt <;> simp at hpt ⊢)
@[simp] theorem Agg.modScore_regs (g : Agg) (n : Nat) (f : JobScore → JobScore) : (Agg.modScore g n f).regs = g.regs := by
  unfold Agg.modScore
  (try dsimp only) <;> (repeat' split) <;> simp
@[simp] theorem Agg.refreshDir_only (pt : AggPart) (hpt : pt ∉ [AggPart.mem]) (g : Agg) (n : Nat) : pt.get (Agg.refreshDir g n) = pt.get g := by
  simp at hpt
  unfold Agg.refreshDir
  (try dsimp only) <;> (repeat' split) <;> first | (simp [hpt]; done) | (cases pt <;> simp at hpt ⊢)
@[simp] theorem Agg.refreshDir_regs (g : Agg) (n : Nat) : (Agg.refreshDir g n).regs = g.regs := by
  unfold Agg.refreshDir
  (try dsimp only) <;> (repeat' split) <;> simp
@[simp] theorem Agg.storeFrame_only (pt : AggPart) (hpt : pt ∉ [AggPart.mem, .scores]) (g : Agg) (n : Nat) (t : Nat) (f : List Byte) (late : Bool) (resent : Bool) : pt.get (Agg.storeFrame g n t f late resent) = pt.get g := by
  simp at hpt
  unfold Agg.storeFrame
  (try dsimp only) <;> (repeat' split) <;> first | (simp [hpt]; done) | (cases pt <;> simp at hpt ⊢)
@[simp] theorem Agg.storeFrame_regs (g : Agg) (n : Nat) (t : Nat) (f : List Byte) (late : Bool) (resent : Bool) : (Agg.storeFrame g n t f late resent).regs = g.regs := by
  unfold Agg.storeFrame
  (try dsimp only) <;> (repeat' split) <;> simp
@[simp] theorem Agg.storeChunk_only (pt : AggPart) (hpt : pt ∉ [AggPart.mem, .jobs, .scores]) (g : Agg) (n : Nat) (t : Nat) (c : List Byte) : pt.get (Agg.storeChunk g n t c) = pt.get g := by
  simp at hpt
  unfold Agg.storeChunk
  (try dsimp only) <;> (repeat' split) <;> first | (simp [hpt]; done) | (cases pt <;> simp at hpt ⊢)
@[simp] theorem Agg.storeChunk_regs (g : Agg) (n : Nat) (t : Nat) (c : List Byte) : (Agg.storeChunk g n t c).regs = g.regs := by
  unfold Agg.storeChunk
  (try dsimp only) <;> (repeat' split) <;> simp
@[simp] theorem Agg.withIngest_only (pt : AggPart) (hpt : pt ∉ [AggPart.ingest]) (g : Agg) (f : IngestUnit → IngestUnit) : pt.get (Agg.withIngest g f) = pt.get g := by
  simp at hpt
  unfold Agg.withIngest
  (try dsimp only) <;> (repeat' split) <;> first | (simp [hpt]; done) | (cases pt <;> simp at hpt ⊢)
@[simp] theorem Agg.withIngest_regs (g : Agg) (f : IngestUnit → IngestUnit) : (Agg.withIngest g f).regs = g.regs := by
  unfold Agg.withIngest
  (try dsimp only) <;> (repeat' split) <;> simp
@[simp] theorem Agg.takeFrame_only (pt : AggPart) (hpt : pt ∉ [AggPart.ingest]) (g : Agg) (p : Nat) (cfg : ChanCfg) (f : List Byte) (vs : List Nat) (late : Bool) : pt.get (Agg.takeFrame g p cfg f vs late) = pt.get g := by
  simp at hpt
  unfold Agg.takeFrame
  (try dsimp only) <;> (repeat' split) <;> first | (simp [hpt]; done) | (cases pt <;> simp at hpt ⊢)
@[simp] theorem Agg.takeFrame_regs (g : Agg) (p : Nat) (cfg : ChanCfg) (f : List Byte) (vs : List Nat) (late : Bool) : (Agg.takeFrame g p cfg f vs late).regs = g.regs := by
  unfold Agg.takeFrame
  (try dsimp only) <;> (repeat' split) <;> simp
@[simp] theorem Agg.frameBad_only (pt : AggPart) (hpt : pt ∉ [AggPart.ingest]) (g : Agg) (p : Nat) : pt.get (Agg.frameBad g p) = pt.get g := by
  simp at hpt
  unfold Agg.frameBad
  (try dsimp only) <;> (repeat' split) <;> first | (simp [hpt]; done) | (cases pt <;> simp at hpt ⊢)
@[simp] theorem Agg.frameBad_regs (g : Agg) (p : Nat) : (Agg.frameBad g p).regs = g.regs := by
  unfold Agg.frameBad
  (try dsimp only) <;> (repeat' split) <;> simp
@[simp] theorem Agg.backFrame_only (pt : AggPart) (hpt : pt ∉ [AggPart.ingest]) (g : Agg) (p : Nat) (f : List Byte) : pt.get (Agg.backFrame g p f) = pt.get g := by
  simp at hpt
  unfold Agg.backFrame
  (try dsimp only) <;> (repeat' split) <;> first | (simp [hpt]; done) | (cases pt <;> simp at hpt ⊢)
@[simp] theorem Agg.backFrame_regs (g : Agg) (p : Nat) (f : List Byte) : (Agg.backFrame g p f).regs = g.regs := by
  unfold Agg.backFrame
  (try dsimp only) <;> (repeat' split) <;> simp
@[simp] theorem Agg.frameIn_only (pt : AggPart) (hpt : pt ∉ [AggPart.mem, .ports, .acc, .jobs, .ingest, .scores, .chip]) (g : Agg) (p : Nat) (resent : Bool) (f : List Byte) (cfg : Option ChanCfg) : pt.get (Agg.frameIn g p resent f cfg) = pt.get g := by
  simp at hpt
  unfold Agg.frameIn
  (try dsimp only) <;> (repeat' split) <;> first | (simp [hpt]; done) | (cases pt <;> simp at hpt ⊢)
@[simp] theorem Agg.buildDie_only (pt : AggPart) (hpt : pt ∉ [AggPart.mem, .scores]) (n : Nat) (w : Nat) (g : Agg) (d : JobDie) : pt.get (Agg.buildDie n w g d) = pt.get g := by
  simp at hpt
  unfold Agg.buildDie
  (try dsimp only) <;> (repeat' split) <;> first | (simp [hpt]; done) | (cases pt <;> simp at hpt ⊢)
@[simp] theorem Agg.keepRows_only (pt : AggPart) (hpt : pt ∉ [AggPart.scores]) (g : Agg) (n : Nat) (w : Nat) : pt.get (Agg.keepRows g n w) = pt.get g := by
  simp at hpt
  unfold Agg.keepRows
  (try dsimp only) <;> (repeat' split) <;> first | (simp [hpt]; done) | (cases pt <;> simp at hpt ⊢)
@[simp] theorem Agg.keepRows_regs (g : Agg) (n : Nat) (w : Nat) : (Agg.keepRows g n w).regs = g.regs := by
  unfold Agg.keepRows
  (try dsimp only) <;> (repeat' split) <;> simp
@[simp] theorem Agg.buildAt_only (pt : AggPart) (hpt : pt ∉ [AggPart.mem, .scores]) (n : Nat) (w : Nat) (g : Agg) (t : Nat) : pt.get (Agg.buildAt n w g t) = pt.get g := by
  simp at hpt
  unfold Agg.buildAt
  (try dsimp only) <;> (repeat' split) <;> first | (simp [hpt]; done) | (cases pt <;> simp at hpt ⊢)
@[simp] theorem Agg.ingestCutoff_only (pt : AggPart) (hpt : pt ∉ [AggPart.mem, .scores]) (g : Agg) (n : Nat) : pt.get (Agg.ingestCutoff g n) = pt.get g := by
  simp at hpt
  unfold Agg.ingestCutoff
  (try dsimp only) <;> (repeat' split) <;> first | (simp [hpt]; done) | (cases pt <;> simp at hpt ⊢)
@[simp] theorem Agg.withPwr_only (pt : AggPart) (hpt : pt ∉ [AggPart.pwr]) (g : Agg) (f : PwrUnit → PwrUnit) : pt.get (Agg.withPwr g f) = pt.get g := by
  simp at hpt
  unfold Agg.withPwr
  (try dsimp only) <;> (repeat' split) <;> first | (simp [hpt]; done) | (cases pt <;> simp at hpt ⊢)
@[simp] theorem Agg.withPwr_regs (g : Agg) (f : PwrUnit → PwrUnit) : (Agg.withPwr g f).regs = g.regs := by
  unfold Agg.withPwr
  (try dsimp only) <;> (repeat' split) <;> simp
@[simp] theorem Agg.holdStep_only (pt : AggPart) (hpt : pt ∉ [AggPart.pwr]) (g : Agg) : pt.get (Agg.holdStep g) = pt.get g := by
  simp at hpt
  unfold Agg.holdStep
  (try dsimp only) <;> (repeat' split) <;> first | (simp [hpt]; done) | (cases pt <;> simp at hpt ⊢)
@[simp] theorem Agg.startStep_only (pt : AggPart) (hpt : pt ∉ [AggPart.pwr]) (g : Agg) : pt.get (Agg.startStep g) = pt.get g := by
  simp at hpt
  unfold Agg.startStep
  (try dsimp only) <;> (repeat' split) <;> first | (simp [hpt]; done) | (cases pt <;> simp at hpt ⊢)
@[simp] theorem Agg.stepDone_only (pt : AggPart) (hpt : pt ∉ [AggPart.pwr]) (g : Agg) : pt.get (Agg.stepDone g) = pt.get g := by
  simp at hpt
  unfold Agg.stepDone
  (try dsimp only) <;> (repeat' split) <;> first | (simp [hpt]; done) | (cases pt <;> simp at hpt ⊢)
@[simp] theorem Agg.capEvaluate_only (pt : AggPart) (hpt : pt ∉ [AggPart.pwr]) (g : Agg) (mw : Nat) : pt.get (Agg.capEvaluate g mw) = pt.get g := by
  simp at hpt
  unfold Agg.capEvaluate
  (try dsimp only) <;> (repeat' split) <;> first | (simp [hpt]; done) | (cases pt <;> simp at hpt ⊢)
@[simp] theorem Agg.thermalEvaluate_only (pt : AggPart) (hpt : pt ∉ [AggPart.pwr]) (g : Agg) (temps : Vector Int 12) : pt.get (Agg.thermalEvaluate g temps) = pt.get g := by
  simp at hpt
  unfold Agg.thermalEvaluate
  (try dsimp only) <;> (repeat' split) <;> first | (simp [hpt]; done) | (cases pt <;> simp at hpt ⊢)
@[simp] theorem Agg.droopTrip_only (pt : AggPart) (hpt : pt ∉ [AggPart.pwr]) (g : Agg) : pt.get (Agg.droopTrip g) = pt.get g := by
  simp at hpt
  unfold Agg.droopTrip
  (try dsimp only) <;> (repeat' split) <;> first | (simp [hpt]; done) | (cases pt <;> simp at hpt ⊢)
@[simp] theorem Agg.droopRelease_only (pt : AggPart) (hpt : pt ∉ [AggPart.pwr]) (g : Agg) : pt.get (Agg.droopRelease g) = pt.get g := by
  simp at hpt
  unfold Agg.droopRelease
  (try dsimp only) <;> (repeat' split) <;> first | (simp [hpt]; done) | (cases pt <;> simp at hpt ⊢)
@[simp] theorem Agg.droopRelease_regs (g : Agg) : (Agg.droopRelease g).regs = g.regs := by
  unfold Agg.droopRelease
  (try dsimp only) <;> (repeat' split) <;> simp
@[simp] theorem Agg.stepHoldEnd_only (pt : AggPart) (hpt : pt ∉ [AggPart.pwr]) (g : Agg) : pt.get (Agg.stepHoldEnd g) = pt.get g := by
  simp at hpt
  unfold Agg.stepHoldEnd
  (try dsimp only) <;> (repeat' split) <;> first | (simp [hpt]; done) | (cases pt <;> simp at hpt ⊢)
@[simp] theorem Agg.vrAlert_only (pt : AggPart) (hpt : pt ∉ [AggPart.pwr]) (g : Agg) : pt.get (Agg.vrAlert g) = pt.get g := by
  simp at hpt
  unfold Agg.vrAlert
  (try dsimp only) <;> (repeat' split) <;> first | (simp [hpt]; done) | (cases pt <;> simp at hpt ⊢)
@[simp] theorem Agg.vrAlertClear_only (pt : AggPart) (hpt : pt ∉ [AggPart.pwr]) (g : Agg) : pt.get (Agg.vrAlertClear g) = pt.get g := by
  simp at hpt
  unfold Agg.vrAlertClear
  (try dsimp only) <;> (repeat' split) <;> first | (simp [hpt]; done) | (cases pt <;> simp at hpt ⊢)
@[simp] theorem Agg.modAggSite_only (pt : AggPart) (hpt : pt ∉ [AggPart.pwr]) (g : Agg) (k : Nat) (f : AggSite → AggSite) : pt.get (Agg.modAggSite g k f) = pt.get g := by
  simp at hpt
  unfold Agg.modAggSite
  (try dsimp only) <;> (repeat' split) <;> first | (simp [hpt]; done) | (cases pt <;> simp at hpt ⊢)
@[simp] theorem Agg.modAggSite_regs (g : Agg) (k : Nat) (f : AggSite → AggSite) : (Agg.modAggSite g k f).regs = g.regs := by
  unfold Agg.modAggSite
  (try dsimp only) <;> (repeat' split) <;> simp
@[simp] theorem Agg.setActs_only (pt : AggPart) (hpt : pt ∉ [AggPart.pwr]) (g : Agg) (d : Nat) (l : List Bool) : pt.get (Agg.setActs g d l) = pt.get g := by
  simp at hpt
  unfold Agg.setActs
  (try dsimp only) <;> (repeat' split) <;> first | (simp [hpt]; done) | (cases pt <;> simp at hpt ⊢)
@[simp] theorem Agg.setActs_regs (g : Agg) (d : Nat) (l : List Bool) : (Agg.setActs g d l).regs = g.regs := by
  unfold Agg.setActs
  (try dsimp only) <;> (repeat' split) <;> simp
@[simp] theorem Agg.showMargins_only (pt : AggPart) (hpt : pt ∉ [AggPart.pwr]) (g : Agg) : pt.get (Agg.showMargins g) = pt.get g := by
  simp at hpt
  unfold Agg.showMargins
  (try dsimp only) <;> (repeat' split) <;> first | (simp [hpt]; done) | (cases pt <;> simp at hpt ⊢)
@[simp] theorem Agg.aggSiteFault_only (pt : AggPart) (hpt : pt ∉ [AggPart.elog, .pwr]) (g : Agg) (k : Nat) : pt.get (Agg.aggSiteFault g k) = pt.get g := by
  simp at hpt
  unfold Agg.aggSiteFault
  (try dsimp only) <;> (repeat' split) <;> first | (simp [hpt]; done) | (cases pt <;> simp at hpt ⊢)
@[simp] theorem Agg.measureSite_only (pt : AggPart) (hpt : pt ∉ [AggPart.elog, .pwr]) (vals : List (BitVec 16)) (faults : BitVec 24) (g : Agg) (k : Nat) : pt.get (Agg.measureSite vals faults g k) = pt.get g := by
  simp at hpt
  unfold Agg.measureSite
  (try dsimp only) <;> (repeat' split) <;> first | (simp [hpt]; done) | (cases pt <;> simp at hpt ⊢)
@[simp] theorem Agg.ageMeasure_only (pt : AggPart) (hpt : pt ∉ [AggPart.elog, .pwr]) (g : Agg) (vals : List (BitVec 16)) (faults : BitVec 24) : pt.get (Agg.ageMeasure g vals faults) = pt.get g := by
  simp at hpt
  unfold Agg.ageMeasure
  (try dsimp only) <;> (repeat' split) <;> first | (simp [hpt]; done) | (cases pt <;> simp at hpt ⊢)
@[simp] theorem Agg.aggProject_only (pt : AggPart) (hpt : pt ∉ [AggPart.elog, .pwr]) (g : Agg) (k : Nat) : pt.get (Agg.aggProject g k) = pt.get g := by
  simp at hpt
  unfold Agg.aggProject
  (try dsimp only) <;> (repeat' split) <;> first | (simp [hpt]; done) | (cases pt <;> simp at hpt ⊢)
@[simp] theorem Agg.aggFitSite_only (pt : AggPart) (hpt : pt ∉ [AggPart.elog, .pwr]) (g : Agg) (k : Nat) : pt.get (Agg.aggFitSite g k) = pt.get g := by
  simp at hpt
  unfold Agg.aggFitSite
  (try dsimp only) <;> (repeat' split) <;> first | (simp [hpt]; done) | (cases pt <;> simp at hpt ⊢)
@[simp] theorem Agg.aggFitEvent_only (pt : AggPart) (hpt : pt ∉ [AggPart.elog]) (g : Agg) (k : Nat) : pt.get (Agg.aggFitEvent g k) = pt.get g := by
  simp at hpt
  unfold Agg.aggFitEvent
  (try dsimp only) <;> (repeat' split) <;> first | (simp [hpt]; done) | (cases pt <;> simp at hpt ⊢)
@[simp] theorem Agg.aggFitEvent_regs (g : Agg) (k : Nat) : (Agg.aggFitEvent g k).regs = g.regs := by
  unfold Agg.aggFitEvent
  (try dsimp only) <;> (repeat' split) <;> simp
@[simp] theorem Agg.saveLife_only (pt : AggPart) (hpt : pt ∉ [AggPart.eeprom]) (g : Agg) (ok : Bool) : pt.get (Agg.saveLife g ok) = pt.get g := by
  simp at hpt
  unfold Agg.saveLife
  (try dsimp only) <;> (repeat' split) <;> first | (simp [hpt]; done) | (cases pt <;> simp at hpt ⊢)
@[simp] theorem Agg.loadSite_only (pt : AggPart) (e : SMap Byte) (b : Nat) (g : Agg) (k : Nat) : pt.get (Agg.loadSite e b g k) = pt.get g := by
  unfold Agg.loadSite
  (try dsimp only) <;> (repeat' split) <;> first | (simp; done) | (cases pt <;> simp)
@[simp] theorem Agg.loadLife_only (pt : AggPart) (hpt : pt ∉ [AggPart.stn, .pwr]) (g : Agg) : pt.get (Agg.loadLife g) = pt.get g := by
  simp at hpt
  unfold Agg.loadLife
  (try dsimp only) <;> (repeat' split) <;> first | (simp [hpt]; done) | (cases pt <;> simp at hpt ⊢)
@[simp] theorem Agg.fitSave_only (pt : AggPart) (hpt : pt ∉ [AggPart.elog, .pwr, .eeprom]) (g : Agg) (ok : Bool) : pt.get (Agg.fitSave g ok) = pt.get g := by
  simp at hpt
  unfold Agg.fitSave
  (try dsimp only) <;> (repeat' split) <;> first | (simp [hpt]; done) | (cases pt <;> simp at hpt ⊢)
@[simp] theorem Agg.marginStep_only (pt : AggPart) (hpt : pt ∉ [AggPart.elog, .pwr]) (g : Agg) (d : Nat) (site : Nat) (lower : Bool) : pt.get (Agg.marginStep g d site lower) = pt.get g := by
  simp at hpt
  unfold Agg.marginStep
  (try dsimp only) <;> (repeat' split) <;> first | (simp [hpt]; done) | (cases pt <;> simp at hpt ⊢)
@[simp] theorem Agg.relax_only (pt : AggPart) (hpt : pt ∉ [AggPart.pwr]) (g : Agg) (d : Nat) : pt.get (Agg.relax g d) = pt.get g := by
  simp at hpt
  unfold Agg.relax
  (try dsimp only) <;> (repeat' split) <;> first | (simp [hpt]; done) | (cases pt <;> simp at hpt ⊢)
@[simp] theorem Agg.recoatDom_only (pt : AggPart) (hpt : pt ∉ [AggPart.elog, .pwr]) (g : Agg) (d : Nat) : pt.get (Agg.recoatDom g d) = pt.get g := by
  simp at hpt
  unfold Agg.recoatDom
  (try dsimp only) <;> (repeat' split) <;> first | (simp [hpt]; done) | (cases pt <;> simp at hpt ⊢)
@[simp] theorem Agg.saveMargins_only (pt : AggPart) (hpt : pt ∉ [AggPart.eeprom]) (g : Agg) (before : Agg) : pt.get (Agg.saveMargins g before) = pt.get g := by
  simp at hpt
  unfold Agg.saveMargins
  (try dsimp only) <;> (repeat' split) <;> first | (simp [hpt]; done) | (cases pt <;> simp at hpt ⊢)
@[simp] theorem Agg.recoatCycle_only (pt : AggPart) (hpt : pt ∉ [AggPart.elog, .pwr, .eeprom]) (g : Agg) : pt.get (Agg.recoatCycle g) = pt.get g := by
  simp at hpt
  unfold Agg.recoatCycle
  (try dsimp only) <;> (repeat' split) <;> first | (simp [hpt]; done) | (cases pt <;> simp at hpt ⊢)
@[simp] theorem Agg.powerSetState_only (pt : AggPart) (hpt : pt ∉ [AggPart.mbx, .ap, .jobs, .pwr, .outbox]) (g : Agg) (c : Caller) (st : Nat) : pt.get (Agg.powerSetState g c st) = pt.get g := by
  simp at hpt
  unfold Agg.powerSetState
  (try dsimp only) <;> (repeat' split) <;> first | (simp [hpt]; done) | (cases pt <;> simp at hpt ⊢)
@[simp] theorem Agg.powerSetCap_only (pt : AggPart) (hpt : pt ∉ [AggPart.mbx, .ap, .jobs, .outbox]) (g : Agg) (c : Caller) (w : Nat) : pt.get (Agg.powerSetCap g c w) = pt.get g := by
  simp at hpt
  unfold Agg.powerSetCap
  (try dsimp only) <;> (repeat' split) <;> first | (simp [hpt]; done) | (cases pt <;> simp at hpt ⊢)
@[simp] theorem Agg.powerSetMargin_only (pt : AggPart) (hpt : pt ∉ [AggPart.mbx, .ap, .jobs, .pwr, .eeprom, .outbox]) (g : Agg) (c : Caller) (d : Nat) (lv : Nat) : pt.get (Agg.powerSetMargin g c d lv) = pt.get g := by
  simp at hpt
  unfold Agg.powerSetMargin
  (try dsimp only) <;> (repeat' split) <;> (first | (simp (maxDischargeDepth := 5) [hpt]; done) | (rw [Agg.command_only pt (by simp [hpt])]; (repeat' intro _); (try dsimp only) <;> (repeat' split) <;> (first | (simp [hpt]; done) | (cases pt <;> simp at hpt ⊢)); done) | (rw [Agg.checked_only pt (by simp [hpt])]; (repeat' intro _); (try dsimp only) <;> (repeat' split) <;> (first | (simp [hpt]; done) | (cases pt <;> simp at hpt ⊢)); done) | (rw [AggPart.get_foldl]; (repeat' intro _); (try dsimp only) <;> (repeat' split) <;> (first | (simp [hpt]; done) | (cases pt <;> simp at hpt ⊢)); done))
@[simp] theorem Agg.powerStatus_only (pt : AggPart) (hpt : pt ∉ [AggPart.mbx, .ap, .jobs, .outbox]) (g : Agg) (c : Caller) : pt.get (Agg.powerStatus g c) = pt.get g := by
  simp at hpt
  unfold Agg.powerStatus
  (try dsimp only) <;> (repeat' split) <;> first | (simp [hpt]; done) | (cases pt <;> simp at hpt ⊢)
@[simp] theorem Agg.showStation_only (pt : AggPart) (g : Agg) (kind : Nat) (k : Nat) : pt.get (Agg.showStation g kind k) = pt.get g := by
  unfold Agg.showStation
  (try dsimp only) <;> (repeat' split) <;> first | (simp; done) | (cases pt <;> simp)
@[simp] theorem Agg.modStation_only (pt : AggPart) (hpt : pt ∉ [AggPart.stn]) (g : Agg) (kind : Nat) (k : Nat) (f : Station → Station) : pt.get (Agg.modStation g kind k f) = pt.get g := by
  simp at hpt
  unfold Agg.modStation
  (try dsimp only) <;> (repeat' split) <;> first | (simp [hpt]; done) | (cases pt <;> simp at hpt ⊢)
@[simp] theorem Agg.putRun_only (pt : AggPart) (hpt : pt ∉ [AggPart.stn]) (g : Agg) (r : RunJob) : pt.get (Agg.putRun g r) = pt.get g := by
  simp at hpt
  unfold Agg.putRun
  (try dsimp only) <;> (repeat' split) <;> first | (simp [hpt]; done) | (cases pt <;> simp at hpt ⊢)
@[simp] theorem Agg.putRun_regs (g : Agg) (r : RunJob) : (Agg.putRun g r).regs = g.regs := by
  unfold Agg.putRun
  (try dsimp only) <;> (repeat' split) <;> simp
@[simp] theorem Agg.dropRun_only (pt : AggPart) (hpt : pt ∉ [AggPart.stn]) (g : Agg) (w : RunRef) : pt.get (Agg.dropRun g w) = pt.get g := by
  simp at hpt
  unfold Agg.dropRun
  (try dsimp only) <;> (repeat' split) <;> first | (simp [hpt]; done) | (cases pt <;> simp at hpt ⊢)
@[simp] theorem Agg.dropRun_regs (g : Agg) (w : RunRef) : (Agg.dropRun g w).regs = g.regs := by
  unfold Agg.dropRun
  (try dsimp only) <;> (repeat' split) <;> simp
@[simp] theorem Agg.runPart_only (pt : AggPart) (hpt : pt ∉ [AggPart.mem, .stn]) (g : Agg) (r : RunJob) (n : Nat) : pt.get (Agg.runPart g r n) = pt.get g := by
  simp at hpt
  unfold Agg.runPart
  (try dsimp only) <;> (repeat' split) <;> first | (simp [hpt]; done) | (cases pt <;> simp at hpt ⊢)
@[simp] theorem Agg.runPart_regs (g : Agg) (r : RunJob) (n : Nat) : (Agg.runPart g r n).regs = g.regs := by
  unfold Agg.runPart
  (try dsimp only) <;> (repeat' split) <;> simp
@[simp] theorem Agg.takeStation_only (pt : AggPart) (hpt : pt ∉ [AggPart.mem, .stn]) (g : Agg) (r : RunJob) (k : Nat) : pt.get (Agg.takeStation g r k) = pt.get g := by
  simp at hpt
  unfold Agg.takeStation
  (try dsimp only) <;> (repeat' split) <;> first | (simp [hpt]; done) | (cases pt <;> simp at hpt ⊢)
@[simp] theorem Agg.takeStation_regs (g : Agg) (r : RunJob) (k : Nat) : (Agg.takeStation g r k).regs = g.regs := by
  unfold Agg.takeStation
  (try dsimp only) <;> (repeat' split) <;> simp
@[simp] theorem Agg.startRun_only (pt : AggPart) (hpt : pt ∉ [AggPart.mem, .stn]) (g : Agg) (r : RunJob) : pt.get (Agg.startRun g r) = pt.get g := by
  simp at hpt
  unfold Agg.startRun
  (try dsimp only) <;> (repeat' split) <;> first | (simp [hpt]; done) | (cases pt <;> simp at hpt ⊢)
@[simp] theorem Agg.startRun_regs (g : Agg) (r : RunJob) : (Agg.startRun g r).regs = g.regs := by
  unfold Agg.startRun
  (try dsimp only) <;> (repeat' split) <;> simp
@[simp] theorem Agg.startRuns_only (pt : AggPart) (hpt : pt ∉ [AggPart.mem, .stn]) (g : Agg) : pt.get (Agg.startRuns g) = pt.get g := by
  simp at hpt
  unfold Agg.startRuns
  (try dsimp only) <;> (repeat' split) <;> first | (simp [hpt]; done) | (cases pt <;> simp at hpt ⊢)
@[simp] theorem Agg.startRuns_regs (g : Agg) : (Agg.startRuns g).regs = g.regs := by
  unfold Agg.startRuns
  (try dsimp only) <;> (repeat' split) <;> simp
@[simp] theorem Agg.clearScores_only (pt : AggPart) (hpt : pt ∉ [AggPart.mem]) (g : Agg) (n : Nat) (w : Nat) : pt.get (Agg.clearScores g n w) = pt.get g := by
  simp at hpt
  unfold Agg.clearScores
  (try dsimp only) <;> (repeat' split) <;> first | (simp [hpt]; done) | (cases pt <;> simp at hpt ⊢)
@[simp] theorem Agg.clearScores_regs (g : Agg) (n : Nat) (w : Nat) : (Agg.clearScores g n w).regs = g.regs := by
  unfold Agg.clearScores
  (try dsimp only) <;> (repeat' split) <;> simp
@[simp] theorem Agg.setStage_only (pt : AggPart) (hpt : pt ∉ [AggPart.scores]) (g : Agg) (n : Nat) (w : Nat) (st : WinStage) (fail : Bool) : pt.get (Agg.setStage g n w st fail) = pt.get g := by
  simp at hpt
  unfold Agg.setStage
  (try dsimp only) <;> (repeat' split) <;> first | (simp [hpt]; done) | (cases pt <;> simp at hpt ⊢)
@[simp] theorem Agg.setStage_regs (g : Agg) (n : Nat) (w : Nat) (st : WinStage) (fail : Bool) : (Agg.setStage g n w st fail).regs = g.regs := by
  unfold Agg.setStage
  (try dsimp only) <;> (repeat' split) <;> simp
@[simp] theorem Agg.readScores_only (pt : AggPart) (hpt : pt ∉ [AggPart.scores]) (g : Agg) (n : Nat) (w : Nat) : pt.get (Agg.readScores g n w) = pt.get g := by
  simp at hpt
  unfold Agg.readScores
  (try dsimp only) <;> (repeat' split) <;> first | (simp [hpt]; done) | (cases pt <;> simp at hpt ⊢)
@[simp] theorem Agg.readScores_regs (g : Agg) (n : Nat) (w : Nat) : (Agg.readScores g n w).regs = g.regs := by
  unfold Agg.readScores
  (try dsimp only) <;> (repeat' split) <;> simp
@[simp] theorem Agg.programEnd_only (pt : AggPart) (hpt : pt ∉ [AggPart.mem, .stn, .scores]) (g : Agg) (r : RunJob) (fail : Bool) : pt.get (Agg.programEnd g r fail) = pt.get g := by
  simp at hpt
  unfold Agg.programEnd
  (try dsimp only) <;> (repeat' split) <;> first | (simp [hpt]; done) | (cases pt <;> simp at hpt ⊢)
@[simp] theorem Agg.programStart_only (pt : AggPart) (hpt : pt ∉ [AggPart.mem, .mbx, .jobs, .stn, .scores]) (g : Agg) (n : Nat) : pt.get (Agg.programStart g n) = pt.get g := by
  simp at hpt
  unfold Agg.programStart
  (try dsimp only) <;> (repeat' split) <;> first | (simp [hpt]; done) | (cases pt <;> simp at hpt ⊢)
@[simp] theorem Agg.logRun_only (pt : AggPart) (hpt : pt ∉ [AggPart.scores]) (g : Agg) (n : Nat) (w : Nat) (run : Nat) (e : List Byte) : pt.get (Agg.logRun g n w run e) = pt.get g := by
  simp at hpt
  unfold Agg.logRun
  (try dsimp only) <;> (repeat' split) <;> first | (simp [hpt]; done) | (cases pt <;> simp at hpt ⊢)
@[simp] theorem Agg.logRun_regs (g : Agg) (n : Nat) (w : Nat) (run : Nat) (e : List Byte) : (Agg.logRun g n w run e).regs = g.regs := by
  unfold Agg.logRun
  (try dsimp only) <;> (repeat' split) <;> simp
@[simp] theorem Agg.scoringSkip_only (pt : AggPart) (hpt : pt ∉ [AggPart.scores]) (g : Agg) (n : Nat) : pt.get (Agg.scoringSkip g n) = pt.get g := by
  simp at hpt
  unfold Agg.scoringSkip
  (try dsimp only) <;> (repeat' split) <;> first | (simp [hpt]; done) | (cases pt <;> simp at hpt ⊢)
@[simp] theorem Agg.scoringSkip_regs (g : Agg) (n : Nat) : (Agg.scoringSkip g n).regs = g.regs := by
  unfold Agg.scoringSkip
  (try dsimp only) <;> (repeat' split) <;> simp
@[simp] theorem Agg.countRun_only (pt : AggPart) (hpt : pt ∉ [AggPart.jobs]) (g : Agg) (ctx : Nat) (d : RunDesc) (dies : Nat) (cycles : Nat) : pt.get (Agg.countRun g ctx d dies cycles) = pt.get g := by
  simp at hpt
  unfold Agg.countRun
  (try dsimp only) <;> (repeat' split) <;> first | (simp [hpt]; done) | (cases pt <;> simp at hpt ⊢)
@[simp] theorem Agg.countRun_regs (g : Agg) (ctx : Nat) (d : RunDesc) (dies : Nat) (cycles : Nat) : (Agg.countRun g ctx d dies cycles).regs = g.regs := by
  unfold Agg.countRun
  (try dsimp only) <;> (repeat' split) <;> simp
@[simp] theorem Agg.dueForTest_only (pt : AggPart) (hpt : pt ∉ [AggPart.stn]) (g : Agg) (kind : Nat) (k : Nat) : pt.get (Agg.dueForTest g kind k) = pt.get g := by
  simp at hpt
  unfold Agg.dueForTest
  (try dsimp only) <;> (repeat' split) <;> first | (simp [hpt]; done) | (cases pt <;> simp at hpt ⊢)
@[simp] theorem Agg.runNext_only (pt : AggPart) (hpt : pt ∉ [AggPart.mem, .mbx, .ap, .jobs, .stn, .scores, .outbox]) (g : Agg) (r : RunJob) (res : List (Nat × Nat)) : pt.get (Agg.runNext g r res) = pt.get g := by
  simp at hpt
  unfold Agg.runNext
  (try dsimp only) <;> (repeat' split) <;> first | (simp [hpt]; done) | (cases pt <;> simp at hpt ⊢)
@[simp] theorem Agg.retryRun_only (pt : AggPart) (hpt : pt ∉ [AggPart.mem, .stn]) (g : Agg) (r : RunJob) (k : Nat) : pt.get (Agg.retryRun g r k) = pt.get g := by
  simp at hpt
  unfold Agg.retryRun
  (try dsimp only) <;> (repeat' split) <;> first | (simp [hpt]; done) | (cases pt <;> simp at hpt ⊢)
@[simp] theorem Agg.retryRun_regs (g : Agg) (r : RunJob) (k : Nat) : (Agg.retryRun g r k).regs = g.regs := by
  unfold Agg.retryRun
  (try dsimp only) <;> (repeat' split) <;> simp
@[simp] theorem Agg.moveRuns_only (pt : AggPart) (hpt : pt ∉ [AggPart.mem, .stn]) (g : Agg) (kind : Nat) (k : Nat) : pt.get (Agg.moveRuns g kind k) = pt.get g := by
  simp at hpt
  unfold Agg.moveRuns
  (try dsimp only) <;> (repeat' split) <;> first | (simp [hpt]; done) | (cases pt <;> simp at hpt ⊢)
@[simp] theorem Agg.moveRuns_regs (g : Agg) (kind : Nat) (k : Nat) : (Agg.moveRuns g kind k).regs = g.regs := by
  unfold Agg.moveRuns
  (try dsimp only) <;> (repeat' split) <;> simp
@[simp] theorem Agg.takeForTest_only (pt : AggPart) (hpt : pt ∉ [AggPart.mem, .stn]) (g : Agg) (kind : Nat) (k : Nat) : pt.get (Agg.takeForTest g kind k) = pt.get g := by
  simp at hpt
  unfold Agg.takeForTest
  (try dsimp only) <;> (repeat' split) <;> first | (simp [hpt]; done) | (cases pt <;> simp at hpt ⊢)
@[simp] theorem Agg.suspectStation_only (pt : AggPart) (hpt : pt ∉ [AggPart.mem, .stn]) (g : Agg) (kind : Nat) (k : Nat) : pt.get (Agg.suspectStation g kind k) = pt.get g := by
  simp at hpt
  unfold Agg.suspectStation
  (try dsimp only) <;> (repeat' split) <;> first | (simp [hpt]; done) | (cases pt <;> simp at hpt ⊢)
@[simp] theorem Agg.runComplete_only (pt : AggPart) (hpt : pt ∉ [AggPart.mem, .mbx, .ap, .jobs, .stn, .scores, .outbox]) (g : Agg) (who : RunRef) (cycles : Nat) (corr : Nat) (err : Option (Nat × Nat)) : pt.get (Agg.runComplete g who cycles corr err) = pt.get g := by
  simp at hpt
  unfold Agg.runComplete
  (try dsimp only) <;> (repeat' split) <;> first | (simp [hpt]; done) | (cases pt <;> simp at hpt ⊢)
@[simp] theorem Agg.stationRun_only (pt : AggPart) (hpt : pt ∉ [AggPart.mem, .mbx, .ap, .jobs, .stn, .outbox]) (g : Agg) (c : Caller) (addr : Nat) (count : Nat) : pt.get (Agg.stationRun g c addr count) = pt.get g := by
  simp at hpt
  unfold Agg.stationRun
  (try dsimp only) <;> (repeat' split) <;> first | (simp [hpt]; done) | (cases pt <;> simp at hpt ⊢)
@[simp] theorem Agg.stationKat_only (pt : AggPart) (hpt : pt ∉ [AggPart.mbx, .ap, .jobs, .outbox]) (g : Agg) (c : Caller) (kind : Nat) (k : Nat) (own : Bool) (run : Nat) (pass : Bool) (cycles : Nat) (free : Nat → Nat) : pt.get (Agg.stationKat g c kind k own run pass cycles free) = pt.get g := by
  simp at hpt
  unfold Agg.stationKat
  (try dsimp only) <;> (repeat' split) <;> first | (simp [hpt]; done) | (cases pt <;> simp at hpt ⊢)
@[simp] theorem Agg.takeNext_only (pt : AggPart) (hpt : pt ∉ [AggPart.mem, .stn]) (g : Agg) : pt.get (Agg.takeNext g) = pt.get g := by
  simp at hpt
  unfold Agg.takeNext
  (try dsimp only) <;> (repeat' split) <;> first | (simp [hpt]; done) | (cases pt <;> simp at hpt ⊢)
@[simp] theorem Agg.stationService_only (pt : AggPart) (hpt : pt ∉ [AggPart.mem, .mbx, .ap, .jobs, .stn, .outbox]) (g : Agg) (c : Caller) (kind : Nat) (k : Nat) (inService : Bool) : pt.get (Agg.stationService g c kind k inService) = pt.get g := by
  simp at hpt
  unfold Agg.stationService
  (try dsimp only) <;> (repeat' split) <;> first | (simp [hpt]; done) | (cases pt <;> simp at hpt ⊢)
@[simp] theorem Agg.stationStatus_only (pt : AggPart) (hpt : pt ∉ [AggPart.mem, .mbx, .ap, .jobs, .outbox]) (g : Agg) (c : Caller) (w : Nat) (dst : Nat) : pt.get (Agg.stationStatus g c w dst) = pt.get g := by
  simp at hpt
  unfold Agg.stationStatus
  (try dsimp only) <;> (repeat' split) <;> first | (simp [hpt]; done) | (cases pt <;> simp at hpt ⊢)
@[simp] theorem Agg.stationDue_only (pt : AggPart) (hpt : pt ∉ [AggPart.stn]) (g : Agg) (kind : Nat) (k : Nat) : pt.get (Agg.stationDue g kind k) = pt.get g := by
  simp at hpt
  unfold Agg.stationDue
  (try dsimp only) <;> (repeat' split) <;> first | (simp [hpt]; done) | (cases pt <;> simp at hpt ⊢)
@[simp] theorem Agg.stationForce_only (pt : AggPart) (hpt : pt ∉ [AggPart.mem, .stn]) (g : Agg) (kind : Nat) (k : Nat) : pt.get (Agg.stationForce g kind k) = pt.get g := by
  simp at hpt
  unfold Agg.stationForce
  (try dsimp only) <;> (repeat' split) <;> first | (simp [hpt]; done) | (cases pt <;> simp at hpt ⊢)
@[simp] theorem Agg.stationOut_only (pt : AggPart) (hpt : pt ∉ [AggPart.stn]) (g : Agg) (kind : Nat) (k : Nat) : pt.get (Agg.stationOut g kind k) = pt.get g := by
  simp at hpt
  unfold Agg.stationOut
  (try dsimp only) <;> (repeat' split) <;> first | (simp [hpt]; done) | (cases pt <;> simp at hpt ⊢)
@[simp] theorem Agg.stationTested_only (pt : AggPart) (hpt : pt ∉ [AggPart.mem, .stn]) (g : Agg) (kind : Nat) (k : Nat) (pass : Bool) : pt.get (Agg.stationTested g kind k pass) = pt.get g := by
  simp at hpt
  unfold Agg.stationTested
  (try dsimp only) <;> (repeat' split) <;> first | (simp [hpt]; done) | (cases pt <;> simp at hpt ⊢)
@[simp] theorem Agg.withStencil_only (pt : AggPart) (hpt : pt ∉ [AggPart.stencil]) (g : Agg) (f : StencilUnit → StencilUnit) : pt.get (Agg.withStencil g f) = pt.get g := by
  simp at hpt
  unfold Agg.withStencil
  (try dsimp only) <;> (repeat' split) <;> first | (simp [hpt]; done) | (cases pt <;> simp at hpt ⊢)
@[simp] theorem Agg.withStencil_regs (g : Agg) (f : StencilUnit → StencilUnit) : (Agg.withStencil g f).regs = g.regs := by
  unfold Agg.withStencil
  (try dsimp only) <;> (repeat' split) <;> simp
@[simp] theorem Agg.setEnsSlot_only (pt : AggPart) (hpt : pt ∉ [AggPart.stencil]) (g : Agg) (n : Nat) (e : Nat) (x : EnsSlot) : pt.get (Agg.setEnsSlot g n e x) = pt.get g := by
  simp at hpt
  unfold Agg.setEnsSlot
  (try dsimp only) <;> (repeat' split) <;> first | (simp [hpt]; done) | (cases pt <;> simp at hpt ⊢)
@[simp] theorem Agg.setEnsSlot_regs (g : Agg) (n : Nat) (e : Nat) (x : EnsSlot) : (Agg.setEnsSlot g n e x).regs = g.regs := by
  unfold Agg.setEnsSlot
  (try dsimp only) <;> (repeat' split) <;> simp
@[simp] theorem Agg.noteInFlight_only (pt : AggPart) (hpt : pt ∉ [AggPart.stencil]) (g : Agg) : pt.get (Agg.noteInFlight g) = pt.get g := by
  simp at hpt
  unfold Agg.noteInFlight
  (try dsimp only) <;> (repeat' split) <;> first | (simp [hpt]; done) | (cases pt <;> simp at hpt ⊢)
@[simp] theorem Agg.noteInFlight_regs (g : Agg) : (Agg.noteInFlight g).regs = g.regs := by
  unfold Agg.noteInFlight
  (try dsimp only) <;> (repeat' split) <;> simp
@[simp] theorem Agg.rankCode_only (pt : AggPart) (hpt : pt ∉ [AggPart.stencil, .scores]) (g : Agg) (n : Nat) : pt.get (Agg.rankCode g n) = pt.get g := by
  simp at hpt
  unfold Agg.rankCode
  (try dsimp only) <;> (repeat' split) <;> first | (simp [hpt]; done) | (cases pt <;> simp at hpt ⊢)
@[simp] theorem Agg.rankCode_regs (g : Agg) (n : Nat) : (Agg.rankCode g n).regs = g.regs := by
  unfold Agg.rankCode
  (try dsimp only) <;> (repeat' split) <;> simp
@[simp] theorem Agg.sampleDone_only (pt : AggPart) (hpt : pt ∉ [AggPart.mem, .stencil, .scores]) (g : Agg) (s : Sample) : pt.get (Agg.sampleDone g s) = pt.get g := by
  simp at hpt
  unfold Agg.sampleDone
  (try dsimp only) <;> (repeat' split) <;> first | (simp [hpt]; done) | (cases pt <;> simp at hpt ⊢)
@[simp] theorem Agg.sampleDone_regs (g : Agg) (s : Sample) : (Agg.sampleDone g s).regs = g.regs := by
  unfold Agg.sampleDone
  (try dsimp only) <;> (repeat' split) <;> simp
@[simp] theorem Agg.bankFault_only (pt : AggPart) (hpt : pt ∉ [AggPart.stencil]) (g : Agg) (b : Nat) (parity : Bool) : pt.get (Agg.bankFault g b parity) = pt.get g := by
  simp at hpt
  unfold Agg.bankFault
  (try dsimp only) <;> (repeat' split) <;> first | (simp [hpt]; done) | (cases pt <;> simp at hpt ⊢)
@[simp] theorem Agg.bankFault_regs (g : Agg) (b : Nat) (parity : Bool) : (Agg.bankFault g b parity).regs = g.regs := by
  unfold Agg.bankFault
  (try dsimp only) <;> (repeat' split) <;> simp
set_option maxHeartbeats 1000000 in
@[simp] theorem Agg.stencilLookup_only (pt : AggPart) (hpt : pt ∉ [AggPart.mem, .jobs, .stencil, .scores]) (g : Agg) (n : Nat) (e : Nat) (t : Nat) (tree : Nat) (hits : Option (List (Nat × Bool))) : pt.get (Agg.stencilLookup g n e t tree hits) = pt.get g := by
  simp at hpt
  unfold Agg.stencilLookup
  (try dsimp only) <;> (repeat' split) <;> first | (simp [hpt]; done) | (cases pt <;> simp at hpt ⊢)
@[simp] theorem Agg.bankRewrite_only (pt : AggPart) (hpt : pt ∉ [AggPart.stencil]) (g : Agg) (b : Nat) : pt.get (Agg.bankRewrite g b) = pt.get g := by
  simp at hpt
  unfold Agg.bankRewrite
  (try dsimp only) <;> (repeat' split) <;> first | (simp [hpt]; done) | (cases pt <;> simp at hpt ⊢)
@[simp] theorem Agg.bankRewrite_regs (g : Agg) (b : Nat) : (Agg.bankRewrite g b).regs = g.regs := by
  unfold Agg.bankRewrite
  (try dsimp only) <;> (repeat' split) <;> simp
@[simp] theorem Agg.entityDone_only (pt : AggPart) (hpt : pt ∉ [AggPart.mbx, .ap, .jobs, .outbox]) (g : Agg) (c : Caller) : pt.get (Agg.entityDone g c) = pt.get g := by
  simp at hpt
  unfold Agg.entityDone
  (try dsimp only) <;> (repeat' split) <;> first | (simp [hpt]; done) | (cases pt <;> simp at hpt ⊢)
@[simp] theorem Agg.scheduleEntity_only (pt : AggPart) (hpt : pt ∉ [AggPart.stencil]) (g : Agg) (die : Nat) (act : Nat) (e : Option (List Byte)) : pt.get (Agg.scheduleEntity g die act e) = pt.get g := by
  simp at hpt
  unfold Agg.scheduleEntity
  (try dsimp only) <;> (repeat' split) <;> first | (simp [hpt]; done) | (cases pt <;> simp at hpt ⊢)
@[simp] theorem Agg.scheduleEntity_regs (g : Agg) (die : Nat) (act : Nat) (e : Option (List Byte)) : (Agg.scheduleEntity g die act e).regs = g.regs := by
  unfold Agg.scheduleEntity
  (try dsimp only) <;> (repeat' split) <;> simp
@[simp] theorem Agg.entityPut_only (pt : AggPart) (hpt : pt ∉ [AggPart.mbx, .ap, .jobs, .stencil, .outbox]) (g : Agg) (c : Caller) (die : Nat) (src : Nat) (act : Nat) : pt.get (Agg.entityPut g c die src act) = pt.get g := by
  simp at hpt
  unfold Agg.entityPut
  (try dsimp only) <;> (repeat' split) <;> first | (simp [hpt]; done) | (cases pt <;> simp at hpt ⊢)
@[simp] theorem Agg.entityDelete_only (pt : AggPart) (hpt : pt ∉ [AggPart.mbx, .ap, .jobs, .stencil, .outbox]) (g : Agg) (c : Caller) (die : Nat) (act : Nat) : pt.get (Agg.entityDelete g c die act) = pt.get g := by
  simp at hpt
  unfold Agg.entityDelete
  (try dsimp only) <;> (repeat' split) <;> first | (simp [hpt]; done) | (cases pt <;> simp at hpt ⊢)
@[simp] theorem Agg.entityRead_only (pt : AggPart) (hpt : pt ∉ [AggPart.mem, .mbx, .ap, .jobs, .outbox]) (g : Agg) (c : Caller) (die : Nat) (dst : Nat) : pt.get (Agg.entityRead g c die dst) = pt.get g := by
  simp at hpt
  unfold Agg.entityRead
  (try dsimp only) <;> (repeat' split) <;> first | (simp [hpt]; done) | (cases pt <;> simp at hpt ⊢)
@[simp] theorem Agg.entityStatus_only (pt : AggPart) (hpt : pt ∉ [AggPart.mbx, .ap, .jobs, .outbox]) (g : Agg) (c : Caller) : pt.get (Agg.entityStatus g c) = pt.get g := by
  simp at hpt
  unfold Agg.entityStatus
  (try dsimp only) <;> (repeat' split) <;> first | (simp [hpt]; done) | (cases pt <;> simp at hpt ⊢)
@[simp] theorem Agg.entityStroke_only (pt : AggPart) (hpt : pt ∉ [AggPart.stencil]) (g : Agg) (w : Nat) : pt.get (Agg.entityStroke g w) = pt.get g := by
  simp at hpt
  unfold Agg.entityStroke
  (try dsimp only) <;> (repeat' split) <;> first | (simp [hpt]; done) | (cases pt <;> simp at hpt ⊢)
theorem Agg.loadEnsemble_only (pt : AggPart) (hpt : pt ∉ [AggPart.stencil]) {g : Agg} {n e : Nat} {im : List Byte} {g' : Agg} (h : g.loadEnsemble n e im = .ok g') : pt.get g' = pt.get g := by
  simp at hpt
  unfold Agg.loadEnsemble at h
  (try dsimp only at h)
  repeat' split at h
  all_goals first | (cases h; done) | (injection h with h; subst h; first | (simp [hpt]; done) | (cases pt <;> simp at hpt ⊢))
theorem Agg.loadEnsemble_regs {g : Agg} {n e : Nat} {im : List Byte} {g' : Agg} (h : g.loadEnsemble n e im = .ok g') : g'.regs = g.regs := by
  unfold Agg.loadEnsemble at h
  (try dsimp only at h)
  repeat' split at h
  all_goals first | (cases h; done) | (injection h with h; subst h; simp)

@[simp] theorem Agg.afterTeardowns_only (pt : AggPart) (hpt : pt ∉ [AggPart.stencil]) (g : Agg) (n : Nat) : pt.get (Agg.afterTeardowns g n) = pt.get g := by
  simp at hpt
  unfold Agg.afterTeardowns
  (try dsimp only) <;> (repeat' split) <;> first | (simp [hpt]; done) | (cases pt <;> simp at hpt ⊢)
@[simp] theorem Agg.afterTeardowns_regs (g : Agg) (n : Nat) : (Agg.afterTeardowns g n).regs = g.regs := by
  unfold Agg.afterTeardowns
  (try dsimp only) <;> (repeat' split) <;> simp

theorem Agg.loadChecked_ok {g : Agg} {n e : Nat} {image : List Byte} {g' : Agg} (h : g.loadChecked n e image = .ok g') : g.loadEnsemble n e image = .ok g' := by
  unfold Agg.loadChecked at h
  repeat' split at h
  all_goals simp_all
@[simp] theorem Agg.stencilTake_only (pt : AggPart) (hpt : pt ∉ [AggPart.mbx, .ap, .jobs, .stencil, .outbox]) (g : Agg) (c : Caller) (n : Nat) (e : Nat) (image : List Byte) : pt.get (Agg.stencilTake g c n e image) = pt.get g := by
  simp at hpt
  unfold Agg.stencilTake
  split
  · next h => have b := Agg.loadEnsemble_only pt (by simp [hpt]) (Agg.loadChecked_ok h); first | (simp [hpt, b]; done) | (cases pt <;> simp [b] at hpt ⊢)
  · first | (simp [hpt]; done) | (cases pt <;> simp at hpt ⊢)
@[simp] theorem Agg.stencilLoad_only (pt : AggPart) (hpt : pt ∉ [AggPart.mbx, .ap, .jobs, .stencil, .outbox]) (g : Agg) (c : Caller) (e : Nat) (addr : Nat) (len : Nat) : pt.get (Agg.stencilLoad g c e addr len) = pt.get g := by
  simp at hpt
  unfold Agg.stencilLoad
  (try dsimp only) <;> (repeat' split) <;> first | (simp [hpt]; done) | (cases pt <;> simp at hpt ⊢)
@[simp] theorem Agg.stencilActivate_only (pt : AggPart) (hpt : pt ∉ [AggPart.mbx, .ap, .jobs, .stencil, .outbox]) (g : Agg) (c : Caller) (e : Nat) (act : Nat) : pt.get (Agg.stencilActivate g c e act) = pt.get g := by
  simp at hpt
  unfold Agg.stencilActivate
  (try dsimp only) <;> (repeat' split) <;> first | (simp [hpt]; done) | (cases pt <;> simp at hpt ⊢)
@[simp] theorem Agg.stencilUnload_only (pt : AggPart) (hpt : pt ∉ [AggPart.mbx, .ap, .jobs, .stencil, .outbox]) (g : Agg) (c : Caller) (e : Nat) (act : Nat) : pt.get (Agg.stencilUnload g c e act) = pt.get g := by
  simp at hpt
  unfold Agg.stencilUnload
  (try dsimp only) <;> (repeat' split) <;> first | (simp [hpt]; done) | (cases pt <;> simp at hpt ⊢)
@[simp] theorem Agg.stencilStatus_only (pt : AggPart) (hpt : pt ∉ [AggPart.mbx, .ap, .jobs, .outbox]) (g : Agg) (c : Caller) (e : Nat) : pt.get (Agg.stencilStatus g c e) = pt.get g := by
  simp at hpt
  unfold Agg.stencilStatus
  (try dsimp only) <;> (repeat' split) <;> first | (simp [hpt]; done) | (cases pt <;> simp at hpt ⊢)
@[simp] theorem Agg.applyEns_only (pt : AggPart) (hpt : pt ∉ [AggPart.stencil]) (g : Agg) (n : Nat) (e : Nat) (w : Nat) : pt.get (Agg.applyEns g n e w) = pt.get g := by
  simp at hpt
  unfold Agg.applyEns
  (try dsimp only) <;> (repeat' split) <;> first | (simp [hpt]; done) | (cases pt <;> simp at hpt ⊢)
@[simp] theorem Agg.ensembleStroke_only (pt : AggPart) (hpt : pt ∉ [AggPart.stencil]) (g : Agg) (w : Nat) : pt.get (Agg.ensembleStroke g w) = pt.get g := by
  simp at hpt
  unfold Agg.ensembleStroke
  (try dsimp only) <;> (repeat' split) <;> (first | (simp (maxDischargeDepth := 5) [hpt]; done) | (rw [Agg.command_only pt (by simp [hpt])]; (repeat' intro _); (try dsimp only) <;> (repeat' split) <;> (first | (simp [hpt]; done) | (cases pt <;> simp at hpt ⊢)); done) | (rw [Agg.checked_only pt (by simp [hpt])]; (repeat' intro _); (try dsimp only) <;> (repeat' split) <;> (first | (simp [hpt]; done) | (cases pt <;> simp at hpt ⊢)); done) | (rw [AggPart.get_foldl]; (repeat' intro _); (try dsimp only) <;> (repeat' split) <;> (first | (simp [hpt]; done) | (cases pt <;> simp at hpt ⊢)); done))
@[simp] theorem Agg.ensembleFree_only (pt : AggPart) (hpt : pt ∉ [AggPart.stencil]) (g : Agg) (n : Nat) (e : Nat) : pt.get (Agg.ensembleFree g n e) = pt.get g := by
  simp at hpt
  unfold Agg.ensembleFree
  (try dsimp only) <;> (repeat' split) <;> first | (simp [hpt]; done) | (cases pt <;> simp at hpt ⊢)
@[simp] theorem Agg.ensembleFree_regs (g : Agg) (n : Nat) (e : Nat) : (Agg.ensembleFree g n e).regs = g.regs := by
  unfold Agg.ensembleFree
  (try dsimp only) <;> (repeat' split) <;> simp
@[simp] theorem Agg.queueOn_only (pt : AggPart) (hpt : pt ∉ [AggPart.links]) (g : Agg) (k : Nat) (c : Nat) (m : SkimMsg) : pt.get (Agg.queueOn g k c m) = pt.get g := by
  simp at hpt
  unfold Agg.queueOn
  (try dsimp only) <;> (repeat' split) <;> first | (simp [hpt]; done) | (cases pt <;> simp at hpt ⊢)
@[simp] theorem Agg.queueOn_regs (g : Agg) (k : Nat) (c : Nat) (m : SkimMsg) : (Agg.queueOn g k c m).regs = g.regs := by
  unfold Agg.queueOn
  (try dsimp only) <;> (repeat' split) <;> simp
@[simp] theorem Agg.queueBytes_only (pt : AggPart) (hpt : pt ∉ [AggPart.links]) (g : Agg) (k : Nat) (c : Nat) (bytes : List Byte) (deadline : Option Nat) : pt.get (Agg.queueBytes g k c bytes deadline) = pt.get g := by
  simp at hpt
  unfold Agg.queueBytes
  (try dsimp only) <;> (repeat' split) <;> first | (simp [hpt]; done) | (cases pt <;> simp at hpt ⊢)
@[simp] theorem Agg.queueBytes_regs (g : Agg) (k : Nat) (c : Nat) (bytes : List Byte) (deadline : Option Nat) : (Agg.queueBytes g k c bytes deadline).regs = g.regs := by
  unfold Agg.queueBytes
  (try dsimp only) <;> (repeat' split) <;> simp
@[simp] theorem Agg.queueCtl_only (pt : AggPart) (hpt : pt ∉ [AggPart.links]) (g : Agg) (k : Nat) (c : Nat) (m : Ctl) : pt.get (Agg.queueCtl g k c m) = pt.get g := by
  simp at hpt
  unfold Agg.queueCtl
  (try dsimp only) <;> (repeat' split) <;> first | (simp [hpt]; done) | (cases pt <;> simp at hpt ⊢)
@[simp] theorem Agg.queueCtl_regs (g : Agg) (k : Nat) (c : Nat) (m : Ctl) : (Agg.queueCtl g k c m).regs = g.regs := by
  unfold Agg.queueCtl
  (try dsimp only) <;> (repeat' split) <;> simp
@[simp] theorem Agg.placeTc6_only (pt : AggPart) (hpt : pt ∉ [AggPart.links, .bundle]) (g : Agg) (m : SkimMsg) : pt.get (Agg.placeTc6 g m) = pt.get g := by
  simp at hpt
  unfold Agg.placeTc6
  (try dsimp only) <;> (repeat' split) <;> first | (simp [hpt]; done) | (cases pt <;> simp at hpt ⊢)
@[simp] theorem Agg.placeTc6_regs (g : Agg) (m : SkimMsg) : (Agg.placeTc6 g m).regs = g.regs := by
  unfold Agg.placeTc6
  (try dsimp only) <;> (repeat' split) <;> simp
@[simp] theorem Agg.sendTc6_only (pt : AggPart) (hpt : pt ∉ [AggPart.links, .bundle]) (g : Agg) (m : SkimMsg) : pt.get (Agg.sendTc6 g m) = pt.get g := by
  simp at hpt
  unfold Agg.sendTc6
  (try dsimp only) <;> (repeat' split) <;> first | (simp [hpt]; done) | (cases pt <;> simp at hpt ⊢)
@[simp] theorem Agg.sendTc6_regs (g : Agg) (m : SkimMsg) : (Agg.sendTc6 g m).regs = g.regs := by
  unfold Agg.sendTc6
  (try dsimp only) <;> (repeat' split) <;> simp
@[simp] theorem Agg.toPartnerMsg_only (pt : AggPart) (hpt : pt ∉ [AggPart.links, .bundle]) (g : Agg) (m : SkimMsg) : pt.get (Agg.toPartnerMsg g m) = pt.get g := by
  simp at hpt
  unfold Agg.toPartnerMsg
  (try dsimp only) <;> (repeat' split) <;> first | (simp [hpt]; done) | (cases pt <;> simp at hpt ⊢)
@[simp] theorem Agg.toPartnerMsg_regs (g : Agg) (m : SkimMsg) : (Agg.toPartnerMsg g m).regs = g.regs := by
  unfold Agg.toPartnerMsg
  (try dsimp only) <;> (repeat' split) <;> simp
@[simp] theorem Agg.toPartner_only (pt : AggPart) (hpt : pt ∉ [AggPart.links, .bundle]) (g : Agg) (m : Ctl) : pt.get (Agg.toPartner g m) = pt.get g := by
  simp at hpt
  unfold Agg.toPartner
  (try dsimp only) <;> (repeat' split) <;> first | (simp [hpt]; done) | (cases pt <;> simp at hpt ⊢)
@[simp] theorem Agg.toPartner_regs (g : Agg) (m : Ctl) : (Agg.toPartner g m).regs = g.regs := by
  unfold Agg.toPartner
  (try dsimp only) <;> (repeat' split) <;> simp
@[simp] theorem Agg.toPartnerRaw_only (pt : AggPart) (hpt : pt ∉ [AggPart.links, .bundle]) (g : Agg) (bytes : List Byte) : pt.get (Agg.toPartnerRaw g bytes) = pt.get g := by
  simp at hpt
  unfold Agg.toPartnerRaw
  (try dsimp only) <;> (repeat' split) <;> first | (simp [hpt]; done) | (cases pt <;> simp at hpt ⊢)
@[simp] theorem Agg.toPartnerRaw_regs (g : Agg) (bytes : List Byte) : (Agg.toPartnerRaw g bytes).regs = g.regs := by
  unfold Agg.toPartnerRaw
  (try dsimp only) <;> (repeat' split) <;> simp
@[simp] theorem Agg.fillBuckets_only (pt : AggPart) (hpt : pt ∉ [AggPart.links]) (g : Agg) (k : Nat) : pt.get (Agg.fillBuckets g k) = pt.get g := by
  simp at hpt
  unfold Agg.fillBuckets
  (try dsimp only) <;> (repeat' split) <;> first | (simp [hpt]; done) | (cases pt <;> simp at hpt ⊢)
@[simp] theorem Agg.fillBuckets_regs (g : Agg) (k : Nat) : (Agg.fillBuckets g k).regs = g.regs := by
  unfold Agg.fillBuckets
  (try dsimp only) <;> (repeat' split) <;> simp
@[simp] theorem Agg.fillAll_only (pt : AggPart) (hpt : pt ∉ [AggPart.links]) (g : Agg) : pt.get (Agg.fillAll g) = pt.get g := by
  simp at hpt
  unfold Agg.fillAll
  (try dsimp only) <;> (repeat' split) <;> first | (simp [hpt]; done) | (cases pt <;> simp at hpt ⊢)
@[simp] theorem Agg.fillAll_regs (g : Agg) : (Agg.fillAll g).regs = g.regs := by
  unfold Agg.fillAll
  (try dsimp only) <;> (repeat' split) <;> simp
@[simp] theorem Agg.tc2Expire_only (pt : AggPart) (hpt : pt ∉ [AggPart.links]) (g : Agg) (k : Nat) : pt.get (Agg.tc2Expire g k) = pt.get g := by
  simp at hpt
  unfold Agg.tc2Expire
  (try dsimp only) <;> (repeat' split) <;> first | (simp [hpt]; done) | (cases pt <;> simp at hpt ⊢)
@[simp] theorem Agg.stampRequest_only (pt : AggPart) (hpt : pt ∉ [AggPart.time]) (g : Agg) (k : Nat) (t : TimeTx) : pt.get (Agg.stampRequest g k t) = pt.get g := by
  simp at hpt
  unfold Agg.stampRequest
  (try dsimp only) <;> (repeat' split) <;> first | (simp [hpt]; done) | (cases pt <;> simp at hpt ⊢)
@[simp] theorem Agg.stampRequest_regs (g : Agg) (k : Nat) (t : TimeTx) : (Agg.stampRequest g k t).regs = g.regs := by
  unfold Agg.stampRequest
  (try dsimp only) <;> (repeat' split) <;> simp
@[simp] theorem Agg.buildData_only (pt : AggPart) (hpt : pt ∉ [AggPart.links]) (g : Agg) (k : Nat) (free : Nat → Byte) : pt.get (Agg.buildData g k free) = pt.get g := by
  simp at hpt
  unfold Agg.buildData
  (try dsimp only) <;> (repeat' split) <;> first | (simp [hpt]; done) | (cases pt <;> simp at hpt ⊢)
@[simp] theorem Agg.flitBuild_only (pt : AggPart) (hpt : pt ∉ [AggPart.time, .links]) (g : Agg) (k : Nat) (free : Nat → Byte) : pt.get (Agg.flitBuild g k free) = pt.get g := by
  simp at hpt
  unfold Agg.flitBuild
  (try dsimp only) <;> (repeat' split) <;> first | (simp [hpt]; done) | (cases pt <;> simp at hpt ⊢)
@[simp] theorem Agg.moveBundle_only (pt : AggPart) (hpt : pt ∉ [AggPart.links, .bundle]) (g : Agg) (k : Nat) : pt.get (Agg.moveBundle g k) = pt.get g := by
  simp at hpt
  unfold Agg.moveBundle
  (try dsimp only) <;> (repeat' split) <;> first | (simp [hpt]; done) | (cases pt <;> simp at hpt ⊢)
@[simp] theorem Agg.moveBundle_regs (g : Agg) (k : Nat) : (Agg.moveBundle g k).regs = g.regs := by
  unfold Agg.moveBundle
  (try dsimp only) <;> (repeat' split) <;> simp
@[simp] theorem Agg.linkDown_only (pt : AggPart) (hpt : pt ∉ [AggPart.links, .skim, .bundle]) (g : Agg) (k : Nat) : pt.get (Agg.linkDown g k) = pt.get g := by
  simp at hpt
  unfold Agg.linkDown
  (try dsimp only) <;> (repeat' split) <;> first | (simp [hpt]; done) | (cases pt <;> simp at hpt ⊢)
@[simp] theorem Agg.linkTrain_only (pt : AggPart) (hpt : pt ∉ [AggPart.links, .skim]) (g : Agg) (k : Nat) (lanes : Nat) (tray : Nat) (role : Nat) (peerLink : Nat) (variant : Nat) (trips : Nat) (asym0 : Nat) (asym1 : Nat) : pt.get (Agg.linkTrain g k lanes tray role peerLink variant trips asym0 asym1) = pt.get g := by
  simp at hpt
  unfold Agg.linkTrain
  (try dsimp only) <;> (repeat' split) <;> first | (simp [hpt]; done) | (cases pt <;> simp at hpt ⊢)
@[simp] theorem Agg.replayLink_only (pt : AggPart) (hpt : pt ∉ [AggPart.links, .skim, .bundle]) (g : Agg) (k : Nat) : pt.get (Agg.replayLink g k) = pt.get g := by
  simp at hpt
  unfold Agg.replayLink
  (try dsimp only) <;> (repeat' split) <;> first | (simp [hpt]; done) | (cases pt <;> simp at hpt ⊢)
@[simp] theorem Agg.noteHold_only (pt : AggPart) (g : Agg) (k : Nat) : pt.get (Agg.noteHold g k) = pt.get g := by
  unfold Agg.noteHold
  (try dsimp only) <;> (repeat' split) <;> first | (simp; done) | (cases pt <;> simp)
@[simp] theorem Agg.setLanes_only (pt : AggPart) (hpt : pt ∉ [AggPart.time, .links, .skim, .bundle]) (g : Agg) (k : Nat) (mask : Nat) : pt.get (Agg.setLanes g k mask) = pt.get g := by
  simp at hpt
  unfold Agg.setLanes
  (try dsimp only) <;> (repeat' split) <;> first | (simp [hpt]; done) | (cases pt <;> simp at hpt ⊢)
@[simp] theorem Agg.laneRemove_only (pt : AggPart) (hpt : pt ∉ [AggPart.links, .skim, .bundle]) (g : Agg) (k : Nat) (lane : Nat) (unc : Nat) (corr : Nat) (symbols : Nat) (lost : Bool) (at_ : Nat) : pt.get (Agg.laneRemove g k lane unc corr symbols lost at_) = pt.get g := by
  simp at hpt
  unfold Agg.laneRemove
  (try dsimp only) <;> (repeat' split) <;> first | (simp [hpt]; done) | (cases pt <;> simp at hpt ⊢)
@[simp] theorem Agg.reachChange_only (pt : AggPart) (hpt : pt ∉ [AggPart.time, .links, .skim, .bundle]) (g : Agg) (k : Nat) : pt.get (Agg.reachChange g k) = pt.get g := by
  simp at hpt
  unfold Agg.reachChange
  (try dsimp only) <;> (repeat' split) <;> first | (simp [hpt]; done) | (cases pt <;> simp at hpt ⊢)
@[simp] theorem Agg.laneChange_only (pt : AggPart) (hpt : pt ∉ [AggPart.time, .links, .skim, .bundle]) (g : Agg) (k : Nat) (at_ : Nat) (mask : Nat) : pt.get (Agg.laneChange g k at_ mask) = pt.get g := by
  simp at hpt
  unfold Agg.laneChange
  (try dsimp only) <;> (repeat' split) <;> first | (simp [hpt]; done) | (cases pt <;> simp at hpt ⊢)
@[simp] theorem Agg.modLane_only (pt : AggPart) (hpt : pt ∉ [AggPart.links]) (g : Agg) (k : Nat) (lane : Nat) (f : Lane → Lane) : pt.get (Agg.modLane g k lane f) = pt.get g := by
  simp at hpt
  unfold Agg.modLane
  (try dsimp only) <;> (repeat' split) <;> first | (simp [hpt]; done) | (cases pt <;> simp at hpt ⊢)
@[simp] theorem Agg.modLane_regs (g : Agg) (k : Nat) (lane : Nat) (f : Lane → Lane) : (Agg.modLane g k lane f).regs = g.regs := by
  unfold Agg.modLane
  (try dsimp only) <;> (repeat' split) <;> simp
@[simp] theorem Agg.laneRetrain_only (pt : AggPart) (hpt : pt ∉ [AggPart.links]) (g : Agg) (k : Nat) (lane : Nat) (lockout : Bool) : pt.get (Agg.laneRetrain g k lane lockout) = pt.get g := by
  simp at hpt
  unfold Agg.laneRetrain
  (try dsimp only) <;> (repeat' split) <;> first | (simp [hpt]; done) | (cases pt <;> simp at hpt ⊢)
@[simp] theorem Agg.laneRetrain_regs (g : Agg) (k : Nat) (lane : Nat) (lockout : Bool) : (Agg.laneRetrain g k lane lockout).regs = g.regs := by
  unfold Agg.laneRetrain
  (try dsimp only) <;> (repeat' split) <;> simp
@[simp] theorem Agg.laneSoakEnd_only (pt : AggPart) (hpt : pt ∉ [AggPart.links]) (g : Agg) (k : Nat) (lane : Nat) (unc : Nat) (corr : Nat) (symbols : Nat) (at_ : Nat) : pt.get (Agg.laneSoakEnd g k lane unc corr symbols at_) = pt.get g := by
  simp at hpt
  unfold Agg.laneSoakEnd
  (try dsimp only) <;> (repeat' split) <;> first | (simp [hpt]; done) | (cases pt <;> simp at hpt ⊢)
@[simp] theorem Agg.releaseLate_only (pt : AggPart) (hpt : pt ∉ [AggPart.links]) (g : Agg) (k : Nat) (c : Nat) : pt.get (Agg.releaseLate g k c) = pt.get g := by
  simp at hpt
  unfold Agg.releaseLate
  (try dsimp only) <;> (repeat' split) <;> first | (simp [hpt]; done) | (cases pt <;> simp at hpt ⊢)
@[simp] theorem Agg.creditStall_only (pt : AggPart) (hpt : pt ∉ [AggPart.links]) (g : Agg) (k : Nat) (c : Nat) : pt.get (Agg.creditStall g k c) = pt.get g := by
  simp at hpt
  unfold Agg.creditStall
  (try dsimp only) <;> (repeat' split) <;> first | (simp [hpt]; done) | (cases pt <;> simp at hpt ⊢)
@[simp] theorem Agg.gateStatus_only (pt : AggPart) (g : Agg) (code : Nat) : pt.get (Agg.gateStatus g code) = pt.get g := by
  unfold Agg.gateStatus
  (try dsimp only) <;> (repeat' split) <;> first | (simp; done) | (cases pt <;> simp)
@[simp] theorem Agg.gateCommit_only (pt : AggPart) (hpt : pt ∉ [AggPart.gates]) (g : Agg) : pt.get (Agg.gateCommit g) = pt.get g := by
  simp at hpt
  unfold Agg.gateCommit
  (try dsimp only) <;> (repeat' split) <;> first | (simp [hpt]; done) | (cases pt <;> simp at hpt ⊢)
@[simp] theorem Agg.gateCancel_only (pt : AggPart) (hpt : pt ∉ [AggPart.gates]) (g : Agg) : pt.get (Agg.gateCancel g) = pt.get g := by
  simp at hpt
  unfold Agg.gateCancel
  (try dsimp only) <;> (repeat' split) <;> first | (simp [hpt]; done) | (cases pt <;> simp at hpt ⊢)
@[simp] theorem Agg.applyGates_only (pt : AggPart) (hpt : pt ∉ [AggPart.gates]) (g : Agg) (close : Nat) : pt.get (Agg.applyGates g close) = pt.get g := by
  simp at hpt
  unfold Agg.applyGates
  (try dsimp only) <;> (repeat' split) <;> first | (simp [hpt]; done) | (cases pt <;> simp at hpt ⊢)
@[simp] theorem Agg.gateStep_only (pt : AggPart) (hpt : pt ∉ [AggPart.links, .gates]) (g : Agg) : pt.get (Agg.gateStep g) = pt.get g := by
  simp at hpt
  unfold Agg.gateStep
  (try dsimp only) <;> (repeat' split) <;> first | (simp [hpt]; done) | (cases pt <;> simp at hpt ⊢)
@[simp] theorem Agg.withSi_only (pt : AggPart) (hpt : pt ∉ [AggPart.si]) (g : Agg) (f : SafeUnit → SafeUnit) : pt.get (Agg.withSi g f) = pt.get g := by
  simp at hpt
  unfold Agg.withSi
  (try dsimp only) <;> (repeat' split) <;> first | (simp [hpt]; done) | (cases pt <;> simp at hpt ⊢)
@[simp] theorem Agg.withSi_regs (g : Agg) (f : SafeUnit → SafeUnit) : (Agg.withSi g f).regs = g.regs := by
  unfold Agg.withSi
  (try dsimp only) <;> (repeat' split) <;> simp
@[simp] theorem Agg.modWatch_only (pt : AggPart) (hpt : pt ∉ [AggPart.si]) (g : Agg) (p : Nat) (f : Watch → Watch) : pt.get (Agg.modWatch g p f) = pt.get g := by
  simp at hpt
  unfold Agg.modWatch
  (try dsimp only) <;> (repeat' split) <;> first | (simp [hpt]; done) | (cases pt <;> simp at hpt ⊢)
@[simp] theorem Agg.modWatch_regs (g : Agg) (p : Nat) (f : Watch → Watch) : (Agg.modWatch g p f).regs = g.regs := by
  unfold Agg.modWatch
  (try dsimp only) <;> (repeat' split) <;> simp
@[simp] theorem Agg.loopRelease_only (pt : AggPart) (hpt : pt ∉ [AggPart.elog, .si]) (g : Agg) (cause : Nat) (p : Nat) (inputs : Nat) : pt.get (Agg.loopRelease g cause p inputs) = pt.get g := by
  simp at hpt
  unfold Agg.loopRelease
  (try dsimp only) <;> (repeat' split) <;> first | (simp [hpt]; done) | (cases pt <;> simp at hpt ⊢)
@[simp] theorem Agg.loopRelease_regs (g : Agg) (cause : Nat) (p : Nat) (inputs : Nat) : (Agg.loopRelease g cause p inputs).regs = g.regs := by
  unfold Agg.loopRelease
  (try dsimp only) <;> (repeat' split) <;> simp
@[simp] theorem Agg.siFault_only (pt : AggPart) (hpt : pt ∉ [AggPart.elog, .si]) (g : Agg) (row : Nat) : pt.get (Agg.siFault g row) = pt.get g := by
  simp at hpt
  unfold Agg.siFault
  (try dsimp only) <;> (repeat' split) <;> first | (simp [hpt]; done) | (cases pt <;> simp at hpt ⊢)
@[simp] theorem Agg.siFault_regs (g : Agg) (row : Nat) : (Agg.siFault g row).regs = g.regs := by
  unfold Agg.siFault
  (try dsimp only) <;> (repeat' split) <;> simp
@[simp] theorem Agg.setUnknown_only (pt : AggPart) (hpt : pt ∉ [AggPart.elog, .si]) (g : Agg) (p : Nat) : pt.get (Agg.setUnknown g p) = pt.get g := by
  simp at hpt
  unfold Agg.setUnknown
  (try dsimp only) <;> (repeat' split) <;> first | (simp [hpt]; done) | (cases pt <;> simp at hpt ⊢)
@[simp] theorem Agg.siMiss_only (pt : AggPart) (hpt : pt ∉ [AggPart.elog, .si]) (g : Agg) (p : Nat) : pt.get (Agg.siMiss g p) = pt.get g := by
  simp at hpt
  unfold Agg.siMiss
  (try dsimp only) <;> (repeat' split) <;> first | (simp [hpt]; done) | (cases pt <;> simp at hpt ⊢)
@[simp] theorem Agg.siBeat_only (pt : AggPart) (hpt : pt ∉ [AggPart.elog, .si]) (g : Agg) (p : Nat) (m : List Byte) : pt.get (Agg.siBeat g p m) = pt.get g := by
  simp at hpt
  unfold Agg.siBeat
  (try dsimp only) <;> (repeat' split) <;> first | (simp [hpt]; done) | (cases pt <;> simp at hpt ⊢)
@[simp] theorem Agg.safetyIn_only (pt : AggPart) (hpt : pt ∉ [AggPart.ports, .elog, .si]) (g : Agg) (p : Nat) (m : List Byte) : pt.get (Agg.safetyIn g p m) = pt.get g := by
  simp at hpt
  unfold Agg.safetyIn
  (try dsimp only) <;> (repeat' split) <;> first | (simp [hpt]; done) | (cases pt <;> simp at hpt ⊢)
@[simp] theorem Agg.safetyMiss_only (pt : AggPart) (hpt : pt ∉ [AggPart.ports, .elog, .si]) (g : Agg) (p : Nat) : pt.get (Agg.safetyMiss g p) = pt.get g := by
  simp at hpt
  unfold Agg.safetyMiss
  (try dsimp only) <;> (repeat' split) <;> first | (simp [hpt]; done) | (cases pt <;> simp at hpt ⊢)
@[simp] theorem Agg.siPortUp_only (pt : AggPart) (hpt : pt ∉ [AggPart.ports, .si]) (g : Agg) (p : Nat) : pt.get (Agg.siPortUp g p) = pt.get g := by
  simp at hpt
  unfold Agg.siPortUp
  (try dsimp only) <;> (repeat' split) <;> first | (simp [hpt]; done) | (cases pt <;> simp at hpt ⊢)
@[simp] theorem Agg.siPortUp_regs (g : Agg) (p : Nat) : (Agg.siPortUp g p).regs = g.regs := by
  unfold Agg.siPortUp
  (try dsimp only) <;> (repeat' split) <;> simp
@[simp] theorem Agg.safeRetire_only (pt : AggPart) (hpt : pt ∉ [AggPart.elog, .si]) (g : Agg) (p : Nat) : pt.get (Agg.safeRetire g p) = pt.get g := by
  simp at hpt
  unfold Agg.safeRetire
  (try dsimp only) <;> (repeat' split) <;> first | (simp [hpt]; done) | (cases pt <;> simp at hpt ⊢)
@[simp] theorem Agg.evalAlarm_only (pt : AggPart) (hpt : pt ∉ [AggPart.elog, .si]) (g : Agg) (p : Nat) : pt.get (Agg.evalAlarm g p) = pt.get g := by
  simp at hpt
  unfold Agg.evalAlarm
  (try dsimp only) <;> (repeat' split) <;> first | (simp [hpt]; done) | (cases pt <;> simp at hpt ⊢)
@[simp] theorem Agg.evalTray_only (pt : AggPart) (hpt : pt ∉ [AggPart.si]) (g : Agg) (p : Nat) : pt.get (Agg.evalTray g p) = pt.get g := by
  simp at hpt
  unfold Agg.evalTray
  (try dsimp only) <;> (repeat' split) <;> first | (simp [hpt]; done) | (cases pt <;> simp at hpt ⊢)
@[simp] theorem Agg.evalTray_regs (g : Agg) (p : Nat) : (Agg.evalTray g p).regs = g.regs := by
  unfold Agg.evalTray
  (try dsimp only) <;> (repeat' split) <;> simp
@[simp] theorem Agg.evalCoolant_only (pt : AggPart) (hpt : pt ∉ [AggPart.elog, .si]) (g : Agg) : pt.get (Agg.evalCoolant g) = pt.get g := by
  simp at hpt
  unfold Agg.evalCoolant
  (try dsimp only) <;> (repeat' split) <;> first | (simp [hpt]; done) | (cases pt <;> simp at hpt ⊢)
@[simp] theorem Agg.siEvaluate_only (pt : AggPart) (hpt : pt ∉ [AggPart.elog, .si]) (g : Agg) (t0 : Int) (t1 : Int) (switches : Bool) : pt.get (Agg.siEvaluate g t0 t1 switches) = pt.get g := by
  simp at hpt
  unfold Agg.siEvaluate
  (try dsimp only) <;> (repeat' split) <;> first | (simp [hpt]; done) | (cases pt <;> simp at hpt ⊢)
@[simp] theorem Agg.unknownTimeout_only (pt : AggPart) (hpt : pt ∉ [AggPart.elog, .si]) (g : Agg) (p : Nat) : pt.get (Agg.unknownTimeout g p) = pt.get g := by
  simp at hpt
  unfold Agg.unknownTimeout
  (try dsimp only) <;> (repeat' split) <;> first | (simp [hpt]; done) | (cases pt <;> simp at hpt ⊢)
@[simp] theorem Agg.siSelfTest_only (pt : AggPart) (hpt : pt ∉ [AggPart.elog, .si]) (g : Agg) (memory : Bool) (config : Bool) (clock : Bool) (corrected : Bool) (t0 : Int) (t1 : Int) : pt.get (Agg.siSelfTest g memory config clock corrected t0 t1) = pt.get g := by
  simp at hpt
  unfold Agg.siSelfTest
  (try dsimp only) <;> (repeat' split) <;> first | (simp [hpt]; done) | (cases pt <;> simp at hpt ⊢)
@[simp] theorem Agg.skimSafetySend_only (pt : AggPart) (hpt : pt ∉ [AggPart.links]) (g : Agg) : pt.get (Agg.skimSafetySend g) = pt.get g := by
  simp at hpt
  unfold Agg.skimSafetySend
  (try dsimp only) <;> (repeat' split) <;> first | (simp [hpt]; done) | (cases pt <;> simp at hpt ⊢)
@[simp] theorem Agg.skimSafetySend_regs (g : Agg) : (Agg.skimSafetySend g).regs = g.regs := by
  unfold Agg.skimSafetySend
  (try dsimp only) <;> (repeat' split) <;> simp
@[simp] theorem Agg.partnerSiLost_only (pt : AggPart) (hpt : pt ∉ [AggPart.elog, .si]) (g : Agg) : pt.get (Agg.partnerSiLost g) = pt.get g := by
  simp at hpt
  unfold Agg.partnerSiLost
  (try dsimp only) <;> (repeat' split) <;> first | (simp [hpt]; done) | (cases pt <;> simp at hpt ⊢)
@[simp] theorem Agg.skimSafetyIn_only (pt : AggPart) (hpt : pt ∉ [AggPart.links, .elog, .si]) (g : Agg) (k : Nat) (m : List Byte) : pt.get (Agg.skimSafetyIn g k m) = pt.get g := by
  simp at hpt
  unfold Agg.skimSafetyIn
  (try dsimp only) <;> (repeat' split) <;> first | (simp [hpt]; done) | (cases pt <;> simp at hpt ⊢)
@[simp] theorem Agg.skimSafetyMiss_only (pt : AggPart) (hpt : pt ∉ [AggPart.links, .elog, .si]) (g : Agg) (k : Nat) : pt.get (Agg.skimSafetyMiss g k) = pt.get g := by
  simp at hpt
  unfold Agg.skimSafetyMiss
  (try dsimp only) <;> (repeat' split) <;> first | (simp [hpt]; done) | (cases pt <;> simp at hpt ⊢)
@[simp] theorem Agg.withSkim_only (pt : AggPart) (hpt : pt ∉ [AggPart.skim]) (g : Agg) (f : SkimUnit → SkimUnit) : pt.get (Agg.withSkim g f) = pt.get g := by
  simp at hpt
  unfold Agg.withSkim
  (try dsimp only) <;> (repeat' split) <;> first | (simp [hpt]; done) | (cases pt <;> simp at hpt ⊢)
@[simp] theorem Agg.withSkim_regs (g : Agg) (f : SkimUnit → SkimUnit) : (Agg.withSkim g f).regs = g.regs := by
  unfold Agg.withSkim
  (try dsimp only) <;> (repeat' split) <;> simp
@[simp] theorem Agg.modRound_only (pt : AggPart) (hpt : pt ∉ [AggPart.skim]) (g : Agg) (r : Nat) (f : Round → Round) : pt.get (Agg.modRound g r f) = pt.get g := by
  simp at hpt
  unfold Agg.modRound
  (try dsimp only) <;> (repeat' split) <;> first | (simp [hpt]; done) | (cases pt <;> simp at hpt ⊢)
@[simp] theorem Agg.modRound_regs (g : Agg) (r : Nat) (f : Round → Round) : (Agg.modRound g r f).regs = g.regs := by
  unfold Agg.modRound
  (try dsimp only) <;> (repeat' split) <;> simp
@[simp] theorem Agg.keepCounted_only (pt : AggPart) (hpt : pt ∉ [AggPart.scores]) (g : Agg) (n : Nat) (first : Nat) (count : Nat) (defs : List MetricDef) : pt.get (Agg.keepCounted g n first count defs) = pt.get g := by
  simp at hpt
  unfold Agg.keepCounted
  (try dsimp only) <;> (repeat' split) <;> first | (simp [hpt]; done) | (cases pt <;> simp at hpt ⊢)
@[simp] theorem Agg.keepCounted_regs (g : Agg) (n : Nat) (first : Nat) (count : Nat) (defs : List MetricDef) : (Agg.keepCounted g n first count defs).regs = g.regs := by
  unfold Agg.keepCounted
  (try dsimp only) <;> (repeat' split) <;> simp
@[simp] theorem Agg.answerAsk_only (pt : AggPart) (hpt : pt ∉ [AggPart.mem, .mbx, .ap, .jobs, .outbox]) (r : Nat) (d : Option SkimUpDown) (g : Agg) (q : SkimAsk) : pt.get (Agg.answerAsk r d g q) = pt.get g := by
  simp at hpt
  unfold Agg.answerAsk
  (try dsimp only) <;> (repeat' split) <;> first | (simp [hpt]; done) | (cases pt <;> simp at hpt ⊢)
@[simp] theorem Agg.finishRound_only (pt : AggPart) (hpt : pt ∉ [AggPart.mem, .mbx, .ap, .jobs, .skim, .outbox]) (g : Agg) (r : Nat) (d : Option SkimUpDown) : pt.get (Agg.finishRound g r d) = pt.get g := by
  simp at hpt
  unfold Agg.finishRound
  (try dsimp only) <;> (repeat' split) <;> first | (simp [hpt]; done) | (cases pt <;> simp at hpt ⊢)
@[simp] theorem Agg.discardRound_only (pt : AggPart) (hpt : pt ∉ [AggPart.mem, .mbx, .ap, .jobs, .skim, .verdicts, .chip, .outbox]) (g : Agg) (r : Nat) : pt.get (Agg.discardRound g r) = pt.get g := by
  simp at hpt
  unfold Agg.discardRound
  (try dsimp only) <;> (repeat' split) <;> first | (simp [hpt]; done) | (cases pt <;> simp at hpt ⊢)
@[simp] theorem Agg.withVerdicts_only (pt : AggPart) (hpt : pt ∉ [AggPart.verdicts]) (g : Agg) (f : VerdictUnit → VerdictUnit) : pt.get (Agg.withVerdicts g f) = pt.get g := by
  simp at hpt
  unfold Agg.withVerdicts
  (try dsimp only) <;> (repeat' split) <;> first | (simp [hpt]; done) | (cases pt <;> simp at hpt ⊢)
@[simp] theorem Agg.withVerdicts_regs (g : Agg) (f : VerdictUnit → VerdictUnit) : (Agg.withVerdicts g f).regs = g.regs := by
  unfold Agg.withVerdicts
  (try dsimp only) <;> (repeat' split) <;> simp
@[simp] theorem Agg.withDust_only (pt : AggPart) (hpt : pt ∉ [AggPart.verdicts]) (g : Agg) (f : DustUnit → DustUnit) : pt.get (Agg.withDust g f) = pt.get g := by
  simp at hpt
  unfold Agg.withDust
  (try dsimp only) <;> (repeat' split) <;> first | (simp [hpt]; done) | (cases pt <;> simp at hpt ⊢)
@[simp] theorem Agg.withDust_regs (g : Agg) (f : DustUnit → DustUnit) : (Agg.withDust g f).regs = g.regs := by
  unfold Agg.withDust
  (try dsimp only) <;> (repeat' split) <;> simp
@[simp] theorem Agg.lateHall_only (pt : AggPart) (hpt : pt ∉ [AggPart.verdicts]) (g : Agg) (r : Nat) : pt.get (Agg.lateHall g r) = pt.get g := by
  simp at hpt
  unfold Agg.lateHall
  (try dsimp only) <;> (repeat' split) <;> first | (simp [hpt]; done) | (cases pt <;> simp at hpt ⊢)
@[simp] theorem Agg.lateHall_regs (g : Agg) (r : Nat) : (Agg.lateHall g r).regs = g.regs := by
  unfold Agg.lateHall
  (try dsimp only) <;> (repeat' split) <;> simp
@[simp] theorem Agg.useDown_only (pt : AggPart) (hpt : pt ∉ [AggPart.mem, .mbx, .ap, .jobs, .skim, .verdicts, .chip, .outbox]) (g : Agg) (r : Nat) (m : SkimUpDown) : pt.get (Agg.useDown g r m) = pt.get g := by
  simp at hpt
  unfold Agg.useDown
  (try dsimp only) <;> (repeat' split) <;> first | (simp [hpt]; done) | (cases pt <;> simp at hpt ⊢)
@[simp] theorem Agg.dropOldest_only (pt : AggPart) (hpt : pt ∉ [AggPart.mem, .mbx, .ap, .jobs, .skim, .verdicts, .chip, .outbox]) (g : Agg) : pt.get (Agg.dropOldest g) = pt.get g := by
  simp at hpt
  unfold Agg.dropOldest
  (try dsimp only) <;> (repeat' split) <;> first | (simp [hpt]; done) | (cases pt <;> simp at hpt ⊢)
@[simp] theorem Agg.endTree_only (pt : AggPart) (hpt : pt ∉ [AggPart.skim]) (g : Agg) : pt.get (Agg.endTree g) = pt.get g := by
  simp at hpt
  unfold Agg.endTree
  (try dsimp only) <;> (repeat' split) <;> first | (simp [hpt]; done) | (cases pt <;> simp at hpt ⊢)
@[simp] theorem Agg.endTree_regs (g : Agg) : (Agg.endTree g).regs = g.regs := by
  unfold Agg.endTree
  (try dsimp only) <;> (repeat' split) <;> simp
@[simp] theorem Agg.roundClose_only (pt : AggPart) (hpt : pt ∉ [AggPart.mem, .links, .mbx, .ap, .jobs, .skim, .bundle, .scores, .verdicts, .chip, .outbox]) (g : Agg) : pt.get (Agg.roundClose g) = pt.get g := by
  simp at hpt
  unfold Agg.roundClose
  (try dsimp only) <;> (repeat' split) <;> first | (simp [hpt]; done) | (cases pt <;> simp at hpt ⊢)
@[simp] theorem Agg.partnerSelf_only (pt : AggPart) (hpt : pt ∉ [AggPart.skim]) (g : Agg) (r : Nat) (vals : List (List (Option Nat))) : pt.get (Agg.partnerSelf g r vals) = pt.get g := by
  simp at hpt
  unfold Agg.partnerSelf
  (try dsimp only) <;> (repeat' split) <;> first | (simp [hpt]; done) | (cases pt <;> simp at hpt ⊢)
@[simp] theorem Agg.partnerSelf_regs (g : Agg) (r : Nat) (vals : List (List (Option Nat))) : (Agg.partnerSelf g r vals).regs = g.regs := by
  unfold Agg.partnerSelf
  (try dsimp only) <;> (repeat' split) <;> simp
@[simp] theorem Agg.skimMerge_only (pt : AggPart) (hpt : pt ∉ [AggPart.skim]) (g : Agg) (r : Nat) : pt.get (Agg.skimMerge g r) = pt.get g := by
  simp at hpt
  unfold Agg.skimMerge
  (try dsimp only) <;> (repeat' split) <;> first | (simp [hpt]; done) | (cases pt <;> simp at hpt ⊢)
@[simp] theorem Agg.skimUpSend_only (pt : AggPart) (hpt : pt ∉ [AggPart.links, .skim]) (g : Agg) (r : Nat) : pt.get (Agg.skimUpSend g r) = pt.get g := by
  simp at hpt
  unfold Agg.skimUpSend
  (try dsimp only) <;> (repeat' split) <;> first | (simp [hpt]; done) | (cases pt <;> simp at hpt ⊢)
@[simp] theorem Agg.skimUpSend_regs (g : Agg) (r : Nat) : (Agg.skimUpSend g r).regs = g.regs := by
  unfold Agg.skimUpSend
  (try dsimp only) <;> (repeat' split) <;> simp
@[simp] theorem Agg.skimDrop_only (pt : AggPart) (hpt : pt ∉ [AggPart.links]) (g : Agg) (k : Nat) : pt.get (Agg.skimDrop g k) = pt.get g := by
  simp at hpt
  unfold Agg.skimDrop
  (try dsimp only) <;> (repeat' split) <;> first | (simp [hpt]; done) | (cases pt <;> simp at hpt ⊢)
@[simp] theorem Agg.skimDrop_regs (g : Agg) (k : Nat) : (Agg.skimDrop g k).regs = g.regs := by
  unfold Agg.skimDrop
  (try dsimp only) <;> (repeat' split) <;> simp
@[simp] theorem Agg.skimUpReceive_only (pt : AggPart) (hpt : pt ∉ [AggPart.links, .skim]) (g : Agg) (k : Nat) (bytes : List Byte) : pt.get (Agg.skimUpReceive g k bytes) = pt.get g := by
  simp at hpt
  unfold Agg.skimUpReceive
  (try dsimp only) <;> (repeat' split) <;> first | (simp [hpt]; done) | (cases pt <;> simp at hpt ⊢)
@[simp] theorem Agg.rootCompare_only (pt : AggPart) (hpt : pt ∉ [AggPart.links, .skim, .bundle]) (g : Agg) (r : Nat) : pt.get (Agg.rootCompare g r) = pt.get g := by
  simp at hpt
  unfold Agg.rootCompare
  (try dsimp only) <;> (repeat' split) <;> first | (simp [hpt]; done) | (cases pt <;> simp at hpt ⊢)
@[simp] theorem Agg.rootCompare_regs (g : Agg) (r : Nat) : (Agg.rootCompare g r).regs = g.regs := by
  unfold Agg.rootCompare
  (try dsimp only) <;> (repeat' split) <;> simp
@[simp] theorem Agg.rootExchange_only (pt : AggPart) (hpt : pt ∉ [AggPart.links, .skim, .bundle]) (g : Agg) (r : Nat) (x : RootMsg) : pt.get (Agg.rootExchange g r x) = pt.get g := by
  simp at hpt
  unfold Agg.rootExchange
  (try dsimp only) <;> (repeat' split) <;> first | (simp [hpt]; done) | (cases pt <;> simp at hpt ⊢)
@[simp] theorem Agg.rootExchange_regs (g : Agg) (r : Nat) (x : RootMsg) : (Agg.rootExchange g r x).regs = g.regs := by
  unfold Agg.rootExchange
  (try dsimp only) <;> (repeat' split) <;> simp
@[simp] theorem Agg.toPartnerIn_only (pt : AggPart) (hpt : pt ∉ [AggPart.links]) (g : Agg) (c : Nat) (bytes : List Byte) : pt.get (Agg.toPartnerIn g c bytes) = pt.get g := by
  simp at hpt
  unfold Agg.toPartnerIn
  (try dsimp only) <;> (repeat' split) <;> first | (simp [hpt]; done) | (cases pt <;> simp at hpt ⊢)
@[simp] theorem Agg.toPartnerIn_regs (g : Agg) (c : Nat) (bytes : List Byte) : (Agg.toPartnerIn g c bytes).regs = g.regs := by
  unfold Agg.toPartnerIn
  (try dsimp only) <;> (repeat' split) <;> simp
@[simp] theorem Agg.sendAbort_only (pt : AggPart) (hpt : pt ∉ [AggPart.links]) (g : Agg) (r : Nat) (reason : Nat) : pt.get (Agg.sendAbort g r reason) = pt.get g := by
  simp at hpt
  unfold Agg.sendAbort
  (try dsimp only) <;> (repeat' split) <;> first | (simp [hpt]; done) | (cases pt <;> simp at hpt ⊢)
@[simp] theorem Agg.sendAbort_regs (g : Agg) (r : Nat) (reason : Nat) : (Agg.sendAbort g r reason).regs = g.regs := by
  unfold Agg.sendAbort
  (try dsimp only) <;> (repeat' split) <;> simp

end Sys2Proof.Machine
end

