-- ==== Sys2Proof/Laws/PartsAggUnits.lean ====
section
/-!
SUPPORT. PartsAggUnits.lean: one lemma per operation of the aggregator that says which parts of it the operation may change (units).
-/
namespace Sys2Proof.Machine
set_option linter.all false
@[simp] theorem Agg.forwardDown_only (pt : AggPart) (hpt : pt ∉ [AggPart.links, .skim, .bundle]) (g : Agg) (r : Nat) : pt.get (Agg.forwardDown g r) = pt.get g := by
  simp at hpt
  unfold Agg.forwardDown
  (try dsimp only) <;> (repeat' split) <;> first | (simp [hpt]; done) | (cases pt <;> simp at hpt ⊢)
@[simp] theorem Agg.forwardDown_regs (g : Agg) (r : Nat) : (Agg.forwardDown g r).regs = g.regs := by
  unfold Agg.forwardDown
  (try dsimp only) <;> (repeat' split) <;> simp
@[simp] theorem Agg.rootDecide_only (pt : AggPart) (hpt : pt ∉ [AggPart.mem, .links, .mbx, .ap, .jobs, .skim, .bundle, .verdicts, .chip, .outbox]) (g : Agg) (r : Nat) : pt.get (Agg.rootDecide g r) = pt.get g := by
  simp at hpt
  unfold Agg.rootDecide
  (try dsimp only) <;> (repeat' split) <;> first | (simp [hpt]; done) | (cases pt <;> simp at hpt ⊢)
@[simp] theorem Agg.downForward_only (pt : AggPart) (hpt : pt ∉ [AggPart.links, .skim, .bundle]) (g : Agg) (r : Nat) : pt.get (Agg.downForward g r) = pt.get g := by
  simp at hpt
  unfold Agg.downForward
  (try dsimp only) <;> (repeat' split) <;> first | (simp [hpt]; done) | (cases pt <;> simp at hpt ⊢)
@[simp] theorem Agg.downForward_regs (g : Agg) (r : Nat) : (Agg.downForward g r).regs = g.regs := by
  unfold Agg.downForward
  (try dsimp only) <;> (repeat' split) <;> simp
@[simp] theorem Agg.pairChoose_only (pt : AggPart) (hpt : pt ∉ [AggPart.mem, .links, .mbx, .ap, .jobs, .skim, .bundle, .verdicts, .chip, .outbox]) (g : Agg) (r : Nat) : pt.get (Agg.pairChoose g r) = pt.get g := by
  simp at hpt
  unfold Agg.pairChoose
  (try dsimp only) <;> (repeat' split) <;> first | (simp [hpt]; done) | (cases pt <;> simp at hpt ⊢)
@[simp] theorem Agg.downUse_only (pt : AggPart) (hpt : pt ∉ [AggPart.mem, .links, .mbx, .ap, .jobs, .skim, .bundle, .verdicts, .chip, .outbox]) (g : Agg) (r : Nat) (said : Option (Nat × Nat)) : pt.get (Agg.downUse g r said) = pt.get g := by
  simp at hpt
  unfold Agg.downUse
  (try dsimp only) <;> (repeat' split) <;> first | (simp [hpt]; done) | (cases pt <;> simp at hpt ⊢)
@[simp] theorem Agg.downReceive_only (pt : AggPart) (hpt : pt ∉ [AggPart.mem, .links, .mbx, .ap, .jobs, .skim, .bundle, .verdicts, .chip, .outbox]) (g : Agg) (k : Nat) (partner : Bool) (bytes : List Byte) : pt.get (Agg.downReceive g k partner bytes) = pt.get g := by
  simp at hpt
  unfold Agg.downReceive
  (try dsimp only) <;> (repeat' split) <;> first | (simp [hpt]; done) | (cases pt <;> simp at hpt ⊢)
@[simp] theorem Agg.abortReceive_only (pt : AggPart) (hpt : pt ∉ [AggPart.mem, .links, .mbx, .ap, .jobs, .skim, .verdicts, .chip, .outbox]) (g : Agg) (bytes : List Byte) : pt.get (Agg.abortReceive g bytes) = pt.get g := by
  simp at hpt
  unfold Agg.abortReceive
  (try dsimp only) <;> (repeat' split) <;> first | (simp [hpt]; done) | (cases pt <;> simp at hpt ⊢)
@[simp] theorem Agg.roundTimeout_only (pt : AggPart) (hpt : pt ∉ [AggPart.mem, .mbx, .ap, .jobs, .skim, .verdicts, .chip, .outbox]) (g : Agg) (r : Nat) : pt.get (Agg.roundTimeout g r) = pt.get g := by
  simp at hpt
  unfold Agg.roundTimeout
  (try dsimp only) <;> (repeat' split) <;> first | (simp [hpt]; done) | (cases pt <;> simp at hpt ⊢)
@[simp] theorem Agg.treeMsg_only (pt : AggPart) (hpt : pt ∉ [AggPart.links]) (g : Agg) (k : Nat) (kind : CtlKind) (nums : List Nat) : pt.get (Agg.treeMsg g k kind nums) = pt.get g := by
  simp at hpt
  unfold Agg.treeMsg
  (try dsimp only) <;> (repeat' split) <;> first | (simp [hpt]; done) | (cases pt <;> simp at hpt ⊢)
@[simp] theorem Agg.treeMsg_regs (g : Agg) (k : Nat) (kind : CtlKind) (nums : List Nat) : (Agg.treeMsg g k kind nums).regs = g.regs := by
  unfold Agg.treeMsg
  (try dsimp only) <;> (repeat' split) <;> simp
@[simp] theorem Agg.treeStroke_only (pt : AggPart) (hpt : pt ∉ [AggPart.links, .skim]) (g : Agg) (w : Nat) : pt.get (Agg.treeStroke g w) = pt.get g := by
  simp at hpt
  unfold Agg.treeStroke
  (try dsimp only) <;> (repeat' split) <;> first | (simp [hpt]; done) | (cases pt <;> simp at hpt ⊢)
@[simp] theorem Agg.treeStroke_regs (g : Agg) (w : Nat) : (Agg.treeStroke g w).regs = g.regs := by
  unfold Agg.treeStroke
  (try dsimp only) <;> (repeat' split) <;> simp
@[simp] theorem Agg.pumpReqs_only (pt : AggPart) (hpt : pt ∉ [AggPart.links]) (k : Nat) (n : Nat) (g : Agg) : pt.get (Agg.pumpReqs k n g) = pt.get g := by
  simp at hpt
  induction n generalizing g with
  | zero => rfl
  | succ n ih => unfold Agg.pumpReqs; (repeat' split) <;> first | rfl | simp [hpt, ih]
@[simp] theorem Agg.pumpReqs_regs (k : Nat) (n : Nat) (g : Agg) : (Agg.pumpReqs k n g).regs = g.regs := by
  induction n generalizing g with
  | zero => rfl
  | succ n ih => unfold Agg.pumpReqs; (repeat' split) <;> first | rfl | simp [ih]
@[simp] theorem Agg.request_only (pt : AggPart) (hpt : pt ∉ [AggPart.links]) (g : Agg) (k : Nat) (m : Ctl) : pt.get (Agg.request g k m) = pt.get g := by
  simp at hpt
  unfold Agg.request
  (try dsimp only) <;> (repeat' split) <;> first | (simp [hpt]; done) | (cases pt <;> simp at hpt ⊢)
@[simp] theorem Agg.request_regs (g : Agg) (k : Nat) (m : Ctl) : (Agg.request g k m).regs = g.regs := by
  unfold Agg.request
  (try dsimp only) <;> (repeat' split) <;> simp
@[simp] theorem Agg.treeJoin_only (pt : AggPart) (hpt : pt ∉ [AggPart.links, .skim]) (g : Agg) : pt.get (Agg.treeJoin g) = pt.get g := by
  simp at hpt
  unfold Agg.treeJoin
  (try dsimp only) <;> (repeat' split) <;> first | (simp [hpt]; done) | (cases pt <;> simp at hpt ⊢)
@[simp] theorem Agg.treeJoin_regs (g : Agg) : (Agg.treeJoin g).regs = g.regs := by
  unfold Agg.treeJoin
  (try dsimp only) <;> (repeat' split) <;> simp
@[simp] theorem Agg.joinReceive_only (pt : AggPart) (hpt : pt ∉ [AggPart.links, .skim]) (g : Agg) (k : Nat) (depth : Nat) (height : Nat) : pt.get (Agg.joinReceive g k depth height) = pt.get g := by
  simp at hpt
  unfold Agg.joinReceive
  (try dsimp only) <;> (repeat' split) <;> first | (simp [hpt]; done) | (cases pt <;> simp at hpt ⊢)
@[simp] theorem Agg.setDepth_only (pt : AggPart) (hpt : pt ∉ [AggPart.links, .skim]) (g : Agg) (r : Nat) (d : Nat) : pt.get (Agg.setDepth g r d) = pt.get g := by
  simp at hpt
  unfold Agg.setDepth
  (try dsimp only) <;> (repeat' split) <;> first | (simp [hpt]; done) | (cases pt <;> simp at hpt ⊢)
@[simp] theorem Agg.setDepth_regs (g : Agg) (r : Nat) (d : Nat) : (Agg.setDepth g r d).regs = g.regs := by
  unfold Agg.setDepth
  (try dsimp only) <;> (repeat' split) <;> simp
@[simp] theorem Agg.joinReply_only (pt : AggPart) (hpt : pt ∉ [AggPart.links, .skim]) (g : Agg) (k : Nat) (ack : Bool) : pt.get (Agg.joinReply g k ack) = pt.get g := by
  simp at hpt
  unfold Agg.joinReply
  (try dsimp only) <;> (repeat' split) <;> first | (simp [hpt]; done) | (cases pt <;> simp at hpt ⊢)
@[simp] theorem Agg.sendAdopt_only (pt : AggPart) (hpt : pt ∉ [AggPart.links, .skim]) (g : Agg) (c : TreeCfg) : pt.get (Agg.sendAdopt g c) = pt.get g := by
  simp at hpt
  unfold Agg.sendAdopt
  (try dsimp only) <;> (repeat' split) <;> first | (simp [hpt]; done) | (cases pt <;> simp at hpt ⊢)
@[simp] theorem Agg.sendAdopt_regs (g : Agg) (c : TreeCfg) : (Agg.sendAdopt g c).regs = g.regs := by
  unfold Agg.sendAdopt
  (try dsimp only) <;> (repeat' split) <;> simp
@[simp] theorem Agg.rerouteNow_only (pt : AggPart) (hpt : pt ∉ [AggPart.links, .skim]) (g : Agg) : pt.get (Agg.rerouteNow g) = pt.get g := by
  simp at hpt
  unfold Agg.rerouteNow
  (try dsimp only) <;> (repeat' split) <;> first | (simp [hpt]; done) | (cases pt <;> simp at hpt ⊢)
@[simp] theorem Agg.rerouteNow_regs (g : Agg) : (Agg.rerouteNow g).regs = g.regs := by
  unfold Agg.rerouteNow
  (try dsimp only) <;> (repeat' split) <;> simp
@[simp] theorem Agg.reroute_only (pt : AggPart) (hpt : pt ∉ [AggPart.links, .skim]) (g : Agg) : pt.get (Agg.reroute g) = pt.get g := by
  simp at hpt
  unfold Agg.reroute
  (try dsimp only) <;> (repeat' split) <;> first | (simp [hpt]; done) | (cases pt <;> simp at hpt ⊢)
@[simp] theorem Agg.reroute_regs (g : Agg) : (Agg.reroute g).regs = g.regs := by
  unfold Agg.reroute
  (try dsimp only) <;> (repeat' split) <;> simp
@[simp] theorem Agg.leaveReceive_only (pt : AggPart) (hpt : pt ∉ [AggPart.links, .skim]) (g : Agg) (k : Nat) (r : Nat) : pt.get (Agg.leaveReceive g k r) = pt.get g := by
  simp at hpt
  unfold Agg.leaveReceive
  (try dsimp only) <;> (repeat' split) <;> first | (simp [hpt]; done) | (cases pt <;> simp at hpt ⊢)
@[simp] theorem Agg.leaveReceive_regs (g : Agg) (k : Nat) (r : Nat) : (Agg.leaveReceive g k r).regs = g.regs := by
  unfold Agg.leaveReceive
  (try dsimp only) <;> (repeat' split) <;> simp
@[simp] theorem Agg.adoptReceive_only (pt : AggPart) (hpt : pt ∉ [AggPart.links, .skim]) (g : Agg) (k : Nat) (r : Nat) (height : Nat) : pt.get (Agg.adoptReceive g k r height) = pt.get g := by
  simp at hpt
  unfold Agg.adoptReceive
  (try dsimp only) <;> (repeat' split) <;> first | (simp [hpt]; done) | (cases pt <;> simp at hpt ⊢)
@[simp] theorem Agg.adoptReceive_regs (g : Agg) (k : Nat) (r : Nat) (height : Nat) : (Agg.adoptReceive g k r height).regs = g.regs := by
  unfold Agg.adoptReceive
  (try dsimp only) <;> (repeat' split) <;> simp
@[simp] theorem Agg.adoptReply_only (pt : AggPart) (hpt : pt ∉ [AggPart.links, .skim]) (g : Agg) (k : Nat) (ack : Bool) (depth : Nat) : pt.get (Agg.adoptReply g k ack depth) = pt.get g := by
  simp at hpt
  unfold Agg.adoptReply
  (try dsimp only) <;> (repeat' split) <;> first | (simp [hpt]; done) | (cases pt <;> simp at hpt ⊢)
@[simp] theorem Agg.answered_only (pt : AggPart) (hpt : pt ∉ [AggPart.links]) (g : Agg) (k : Nat) : pt.get (Agg.answered g k) = pt.get g := by
  simp at hpt
  unfold Agg.answered
  (try dsimp only) <;> (repeat' split) <;> first | (simp [hpt]; done) | (cases pt <;> simp at hpt ⊢)
@[simp] theorem Agg.answered_regs (g : Agg) (k : Nat) : (Agg.answered g k).regs = g.regs := by
  unfold Agg.answered
  (try dsimp only) <;> (repeat' split) <;> simp
@[simp] theorem Agg.adoptRetry_only (pt : AggPart) (hpt : pt ∉ [AggPart.links, .skim]) (g : Agg) : pt.get (Agg.adoptRetry g) = pt.get g := by
  simp at hpt
  unfold Agg.adoptRetry
  (try dsimp only) <;> (repeat' split) <;> first | (simp [hpt]; done) | (cases pt <;> simp at hpt ⊢)
@[simp] theorem Agg.adoptRetry_regs (g : Agg) : (Agg.adoptRetry g).regs = g.regs := by
  unfold Agg.adoptRetry
  (try dsimp only) <;> (repeat' split) <;> simp
@[simp] theorem Agg.depthReceive_only (pt : AggPart) (hpt : pt ∉ [AggPart.links, .skim]) (g : Agg) (k : Nat) (r : Nat) (depth : Nat) : pt.get (Agg.depthReceive g k r depth) = pt.get g := by
  simp at hpt
  unfold Agg.depthReceive
  (try dsimp only) <;> (repeat' split) <;> first | (simp [hpt]; done) | (cases pt <;> simp at hpt ⊢)
@[simp] theorem Agg.depthReceive_regs (g : Agg) (k : Nat) (r : Nat) (depth : Nat) : (Agg.depthReceive g k r depth).regs = g.regs := by
  unfold Agg.depthReceive
  (try dsimp only) <;> (repeat' split) <;> simp
@[simp] theorem Agg.returnPrimary_only (pt : AggPart) (hpt : pt ∉ [AggPart.links, .skim]) (g : Agg) : pt.get (Agg.returnPrimary g) = pt.get g := by
  simp at hpt
  unfold Agg.returnPrimary
  (try dsimp only) <;> (repeat' split) <;> first | (simp [hpt]; done) | (cases pt <;> simp at hpt ⊢)
@[simp] theorem Agg.returnPrimary_regs (g : Agg) : (Agg.returnPrimary g).regs = g.regs := by
  unfold Agg.returnPrimary
  (try dsimp only) <;> (repeat' split) <;> simp
@[simp] theorem Agg.returnTimer_only (pt : AggPart) (hpt : pt ∉ [AggPart.links, .skim]) (g : Agg) : pt.get (Agg.returnTimer g) = pt.get g := by
  simp at hpt
  unfold Agg.returnTimer
  (try dsimp only) <;> (repeat' split) <;> first | (simp [hpt]; done) | (cases pt <;> simp at hpt ⊢)
@[simp] theorem Agg.returnTimer_regs (g : Agg) : (Agg.returnTimer g).regs = g.regs := by
  unfold Agg.returnTimer
  (try dsimp only) <;> (repeat' split) <;> simp
@[simp] theorem Agg.setMetrics_only (pt : AggPart) (hpt : pt ∉ [AggPart.mbx, .ap, .jobs, .skim, .outbox]) (g : Agg) (c : Caller) (setId : Nat) (act : Nat) (count : Nat) (addr : Nat) : pt.get (Agg.setMetrics g c setId act count addr) = pt.get g := by
  simp at hpt
  unfold Agg.setMetrics
  (try dsimp only) <;> (repeat' split) <;> first | (simp [hpt]; done) | (cases pt <;> simp at hpt ⊢)
@[simp] theorem Agg.treeConfigure_only (pt : AggPart) (hpt : pt ∉ [AggPart.mbx, .ap, .jobs, .skim, .outbox]) (g : Agg) (c : Caller) (a : TreeArgs) : pt.get (Agg.treeConfigure g c a) = pt.get g := by
  simp at hpt
  unfold Agg.treeConfigure
  (try dsimp only) <;> (repeat' split) <;> first | (simp [hpt]; done) | (cases pt <;> simp at hpt ⊢)
@[simp] theorem Agg.treeReturn_only (pt : AggPart) (hpt : pt ∉ [AggPart.links, .mbx, .ap, .jobs, .skim, .outbox]) (g : Agg) (c : Caller) : pt.get (Agg.treeReturn g c) = pt.get g := by
  simp at hpt
  unfold Agg.treeReturn
  (try dsimp only) <;> (repeat' split) <;> first | (simp [hpt]; done) | (cases pt <;> simp at hpt ⊢)
@[simp] theorem Agg.treeDissolve_only (pt : AggPart) (hpt : pt ∉ [AggPart.mbx, .ap, .jobs, .skim, .outbox]) (g : Agg) (c : Caller) (act : Nat) : pt.get (Agg.treeDissolve g c act) = pt.get g := by
  simp at hpt
  unfold Agg.treeDissolve
  (try dsimp only) <;> (repeat' split) <;> first | (simp [hpt]; done) | (cases pt <;> simp at hpt ⊢)
@[simp] theorem Agg.skimStatus_only (pt : AggPart) (hpt : pt ∉ [AggPart.mem, .mbx, .ap, .jobs, .skim, .outbox]) (g : Agg) (c : Caller) (r : Nat) (dst : Nat) : pt.get (Agg.skimStatus g c r dst) = pt.get g := by
  simp at hpt
  unfold Agg.skimStatus
  (try dsimp only) <;> (repeat' split) <;> first | (simp [hpt]; done) | (cases pt <;> simp at hpt ⊢)
@[simp] theorem Agg.setImage_only (pt : AggPart) (hpt : pt ∉ [AggPart.scores]) (g : Agg) (n : Nat) (t : Nat) (im : LevelImg) : pt.get (Agg.setImage g n t im) = pt.get g := by
  simp at hpt
  unfold Agg.setImage
  (try dsimp only) <;> (repeat' split) <;> first | (simp [hpt]; done) | (cases pt <;> simp at hpt ⊢)
@[simp] theorem Agg.setImage_regs (g : Agg) (n : Nat) (t : Nat) (im : LevelImg) : (Agg.setImage g n t im).regs = g.regs := by
  unfold Agg.setImage
  (try dsimp only) <;> (repeat' split) <;> simp
@[simp] theorem Agg.rankDeadline_only (pt : AggPart) (hpt : pt ∉ [AggPart.skim]) (g : Agg) (r : Nat) : pt.get (Agg.rankDeadline g r) = pt.get g := by
  simp at hpt
  unfold Agg.rankDeadline
  (try dsimp only) <;> (repeat' split) <;> first | (simp [hpt]; done) | (cases pt <;> simp at hpt ⊢)
@[simp] theorem Agg.rankDeadline_regs (g : Agg) (r : Nat) : (Agg.rankDeadline g r).regs = g.regs := by
  unfold Agg.rankDeadline
  (try dsimp only) <;> (repeat' split) <;> simp
@[simp] theorem Agg.recEntry_only (pt : AggPart) (hpt : pt ∉ [AggPart.verdicts]) (g : Agg) (n : Nat) (die : Nat) (raise : Nat) (kind : Nat) (health : Nat) (classes : Nat) (event : Nat) : pt.get (Agg.recEntry g n die raise kind health classes event) = pt.get g := by
  simp at hpt
  unfold Agg.recEntry
  (try dsimp only) <;> (repeat' split) <;> first | (simp [hpt]; done) | (cases pt <;> simp at hpt ⊢)
@[simp] theorem Agg.recEntry_regs (g : Agg) (n : Nat) (die : Nat) (raise : Nat) (kind : Nat) (health : Nat) (classes : Nat) (event : Nat) : (Agg.recEntry g n die raise kind health classes event).regs = g.regs := by
  unfold Agg.recEntry
  (try dsimp only) <;> (repeat' split) <;> simp
@[simp] theorem Agg.showDust_only (pt : AggPart) (g : Agg) (w : Nat) : pt.get (Agg.showDust g w) = pt.get g := by
  unfold Agg.showDust
  (try dsimp only) <;> (repeat' split) <;> first | (simp; done) | (cases pt <;> simp)
@[simp] theorem Agg.withdrawWatches_only (pt : AggPart) (hpt : pt ∉ [AggPart.scores, .verdicts]) (g : Agg) (event : Nat) : pt.get (Agg.withdrawWatches g event) = pt.get g := by
  simp at hpt
  unfold Agg.withdrawWatches
  (try dsimp only) <;> (repeat' split) <;> (first | (simp (maxDischargeDepth := 5) [hpt]; done) | (rw [Agg.command_only pt (by simp [hpt])]; (repeat' intro _); (try dsimp only) <;> (repeat' split) <;> (first | (simp [hpt]; done) | (cases pt <;> simp at hpt ⊢)); done) | (rw [Agg.checked_only pt (by simp [hpt])]; (repeat' intro _); (try dsimp only) <;> (repeat' split) <;> (first | (simp [hpt]; done) | (cases pt <;> simp at hpt ⊢)); done) | (rw [AggPart.get_foldl]; (repeat' intro _); (try dsimp only) <;> (repeat' split) <;> (first | (simp [hpt]; done) | (cases pt <;> simp at hpt ⊢)); done))
@[simp] theorem Agg.withdrawWatches_regs (g : Agg) (event : Nat) : (Agg.withdrawWatches g event).regs = g.regs := by
  unfold Agg.withdrawWatches
  (try dsimp only) <;> (repeat' split) <;> simp
@[simp] theorem Agg.dustRound_only (pt : AggPart) (hpt : pt ∉ [AggPart.scores, .verdicts]) (g : Agg) (x : Round) : pt.get (Agg.dustRound g x) = pt.get g := by
  simp at hpt
  unfold Agg.dustRound
  (try dsimp only) <;> (repeat' split) <;> first | (simp [hpt]; done) | (cases pt <;> simp at hpt ⊢)
@[simp] theorem Agg.dueActions_only (pt : AggPart) (hpt : pt ∉ [AggPart.scores]) (g : Agg) (n : Nat) (t : Nat) (w : Nat) : pt.get (Agg.dueActions g n t w) = pt.get g := by
  simp at hpt
  unfold Agg.dueActions
  (try dsimp only) <;> (repeat' split) <;> first | (simp [hpt]; done) | (cases pt <;> simp at hpt ⊢)
@[simp] theorem Agg.dueActions_regs (g : Agg) (n : Nat) (t : Nat) (w : Nat) : (Agg.dueActions g n t w).regs = g.regs := by
  unfold Agg.dueActions
  (try dsimp only) <;> (repeat' split) <;> simp
@[simp] theorem Agg.recommend_only (pt : AggPart) (hpt : pt ∉ [AggPart.jobs, .scores, .verdicts]) (g : Agg) (n : Nat) (close : Nat) (l : Level) (late : Bool) (p : PlacedV) : pt.get (Agg.recommend g n close l late p).1 = pt.get g := by
  simp at hpt
  unfold Agg.recommend
  (try dsimp only) <;> (repeat' split) <;> first | (simp [hpt]; done) | (cases pt <;> simp at hpt ⊢)
@[simp] theorem Agg.modPlaced_only (pt : AggPart) (hpt : pt ∉ [AggPart.scores]) (g : Agg) (n : Nat) (r : Nat) (f : PlacedRound → PlacedRound) : pt.get (Agg.modPlaced g n r f) = pt.get g := by
  simp at hpt
  unfold Agg.modPlaced
  (try dsimp only) <;> (repeat' split) <;> first | (simp [hpt]; done) | (cases pt <;> simp at hpt ⊢)
@[simp] theorem Agg.modPlaced_regs (g : Agg) (n : Nat) (r : Nat) (f : PlacedRound → PlacedRound) : (Agg.modPlaced g n r f).regs = g.regs := by
  unfold Agg.modPlaced
  (try dsimp only) <;> (repeat' split) <;> simp
@[simp] theorem Agg.refreshMarks_only (pt : AggPart) (hpt : pt ∉ [AggPart.mem, .scores]) (g : Agg) (n : Nat) : pt.get (Agg.refreshMarks g n) = pt.get g := by
  simp at hpt
  unfold Agg.refreshMarks
  (try dsimp only) <;> (repeat' split) <;> first | (simp [hpt]; done) | (cases pt <;> simp at hpt ⊢)
@[simp] theorem Agg.refreshMarks_regs (g : Agg) (n : Nat) : (Agg.refreshMarks g n).regs = g.regs := by
  unfold Agg.refreshMarks
  (try dsimp only) <;> (repeat' split) <;> simp
@[simp] theorem Agg.writeRecords_only (pt : AggPart) (hpt : pt ∉ [AggPart.mem, .jobs, .scores]) (g : Agg) (n : Nat) (r : Nat) (final : Bool) : pt.get (Agg.writeRecords g n r final) = pt.get g := by
  simp at hpt
  unfold Agg.writeRecords
  (try dsimp only) <;> (repeat' split) <;> first | (simp [hpt]; done) | (cases pt <;> simp at hpt ⊢)
@[simp] theorem Agg.writeRecords_regs (g : Agg) (n : Nat) (r : Nat) (final : Bool) : (Agg.writeRecords g n r final).regs = g.regs := by
  unfold Agg.writeRecords
  (try dsimp only) <;> (repeat' split) <;> simp
@[simp] theorem Agg.settleRound_only (pt : AggPart) (hpt : pt ∉ [AggPart.mem, .jobs, .scores, .verdicts]) (g : Agg) (n : Nat) (r : Nat) : pt.get (Agg.settleRound g n r) = pt.get g := by
  simp at hpt
  unfold Agg.settleRound
  (try dsimp only) <;> (repeat' split) <;> first | (simp [hpt]; done) | (cases pt <;> simp at hpt ⊢)
@[simp] theorem Agg.settleUnchecked_only (pt : AggPart) (hpt : pt ∉ [AggPart.mem, .jobs, .scores, .verdicts]) (g : Agg) (n : Nat) (r : Nat) : pt.get (Agg.settleUnchecked g n r) = pt.get g := by
  simp at hpt
  unfold Agg.settleUnchecked
  (try dsimp only) <;> (repeat' split) <;> first | (simp [hpt]; done) | (cases pt <;> simp at hpt ⊢)
@[simp] theorem Agg.dueResets_only (pt : AggPart) (hpt : pt ∉ [AggPart.scores]) (g : Agg) (n : Nat) (t : Nat) (w : Nat) : pt.get (Agg.dueResets g n t w) = pt.get g := by
  simp at hpt
  unfold Agg.dueResets
  (try dsimp only) <;> (repeat' split) <;> first | (simp [hpt]; done) | (cases pt <;> simp at hpt ⊢)
@[simp] theorem Agg.dueResets_regs (g : Agg) (n : Nat) (t : Nat) (w : Nat) : (Agg.dueResets g n t w).regs = g.regs := by
  unfold Agg.dueResets
  (try dsimp only) <;> (repeat' split) <;> simp
@[simp] theorem Agg.placeDie_only (pt : AggPart) (hpt : pt ∉ [AggPart.jobs, .scores]) (n : Nat) (x : Round) (l : Level) (acc : Agg × List PlacedV × SMap Nat) (d : DieWin) : pt.get (Agg.placeDie n x l acc d).1 = pt.get acc.1 := by
  simp at hpt
  unfold Agg.placeDie
  (try dsimp only) <;> (repeat' split) <;> first | (simp [hpt]; done) | (cases pt <;> simp at hpt ⊢)
@[simp] theorem Agg.placeWins_only (pt : AggPart) (hpt : pt ∉ [AggPart.jobs, .scores]) (g : Agg) (x : Round) (n : Nat) (ws : List Nat) (tallies : SMap Nat) : pt.get (Agg.placeWins g x n ws tallies).1 = pt.get g := by
  simp at hpt
  unfold Agg.placeWins
  (try dsimp only) <;> (repeat' split) <;> first | (simp [hpt]; done) | (cases pt <;> simp at hpt ⊢)
@[simp] theorem Agg.placeJob_only (pt : AggPart) (hpt : pt ∉ [AggPart.jobs, .scores]) (g : Agg) (x : Round) (n : Nat) (tallies : SMap Nat) : pt.get (Agg.placeJob g x n tallies).1 = pt.get g := by
  simp at hpt
  unfold Agg.placeJob
  (try dsimp only) <;> (repeat' split) <;> first | (simp [hpt]; done) | (cases pt <;> simp at hpt ⊢)
@[simp] theorem Agg.modDispute_only (pt : AggPart) (hpt : pt ∉ [AggPart.verdicts]) (g : Agg) (n : Nat) (r : Nat) (f : Dispute → Dispute) : pt.get (Agg.modDispute g n r f) = pt.get g := by
  simp at hpt
  unfold Agg.modDispute
  (try dsimp only) <;> (repeat' split) <;> first | (simp [hpt]; done) | (cases pt <;> simp at hpt ⊢)
@[simp] theorem Agg.modDispute_regs (g : Agg) (n : Nat) (r : Nat) (f : Dispute → Dispute) : (Agg.modDispute g n r f).regs = g.regs := by
  unfold Agg.modDispute
  (try dsimp only) <;> (repeat' split) <;> simp
@[simp] theorem Agg.contestDies_only (pt : AggPart) (hpt : pt ∉ [AggPart.scores]) (g : Agg) (n : Nat) (r : Nat) (ts : List Nat) : pt.get (Agg.contestDies g n r ts) = pt.get g := by
  simp at hpt
  unfold Agg.contestDies
  (try dsimp only) <;> (repeat' split) <;> first | (simp [hpt]; done) | (cases pt <;> simp at hpt ⊢)
@[simp] theorem Agg.contestDies_regs (g : Agg) (n : Nat) (r : Nat) (ts : List Nat) : (Agg.contestDies g n r ts).regs = g.regs := by
  unfold Agg.contestDies
  (try dsimp only) <;> (repeat' split) <;> simp
@[simp] theorem Agg.endDispute_only (pt : AggPart) (hpt : pt ∉ [AggPart.mem, .jobs, .scores, .verdicts]) (g : Agg) (n : Nat) (r : Nat) : pt.get (Agg.endDispute g n r) = pt.get g := by
  simp at hpt
  unfold Agg.endDispute
  (try dsimp only) <;> (repeat' split) <;> first | (simp [hpt]; done) | (cases pt <;> simp at hpt ⊢)
@[simp] theorem Agg.contest_only (pt : AggPart) (hpt : pt ∉ [AggPart.scores, .verdicts]) (g : Agg) (n : Nat) (r : Nat) (ts : List Nat) (outcome : Nat) : pt.get (Agg.contest g n r ts outcome) = pt.get g := by
  simp at hpt
  unfold Agg.contest
  (try dsimp only) <;> (repeat' split) <;> first | (simp [hpt]; done) | (cases pt <;> simp at hpt ⊢)
@[simp] theorem Agg.contestOpen_only (pt : AggPart) (hpt : pt ∉ [AggPart.mem, .jobs, .scores, .verdicts]) (g : Agg) (n : Nat) (r : Nat) : pt.get (Agg.contestOpen g n r) = pt.get g := by
  simp at hpt
  unfold Agg.contestOpen
  (try dsimp only) <;> (repeat' split) <;> first | (simp [hpt]; done) | (cases pt <;> simp at hpt ⊢)
@[simp] theorem Agg.sendRecord_only (pt : AggPart) (hpt : pt ∉ [AggPart.links, .bundle]) (n : Nat) (r : Nat) (vs : List PlacedV) (g : Agg) (t : Nat) : pt.get (Agg.sendRecord n r vs g t) = pt.get g := by
  simp at hpt
  unfold Agg.sendRecord
  (try dsimp only) <;> (repeat' split) <;> first | (simp [hpt]; done) | (cases pt <;> simp at hpt ⊢)
@[simp] theorem Agg.sendRecord_regs (n : Nat) (r : Nat) (vs : List PlacedV) (g : Agg) (t : Nat) : (Agg.sendRecord n r vs g t).regs = g.regs := by
  unfold Agg.sendRecord
  (try dsimp only) <;> (repeat' split) <;> simp
@[simp] theorem Agg.sendRecords_only (pt : AggPart) (hpt : pt ∉ [AggPart.links, .bundle]) (g : Agg) (n : Nat) (r : Nat) (ts : List Nat) : pt.get (Agg.sendRecords g n r ts) = pt.get g := by
  simp at hpt
  unfold Agg.sendRecords
  (try dsimp only) <;> (repeat' split) <;> first | (simp [hpt]; done) | (cases pt <;> simp at hpt ⊢)
@[simp] theorem Agg.sendRecords_regs (g : Agg) (n : Nat) (r : Nat) (ts : List Nat) : (Agg.sendRecords g n r ts).regs = g.regs := by
  unfold Agg.sendRecords
  (try dsimp only) <;> (repeat' split) <;> simp
@[simp] theorem Agg.wrongSide_only (pt : AggPart) (hpt : pt ∉ [AggPart.mem, .links, .jobs, .bundle, .scores, .verdicts]) (g : Agg) (n : Nat) (r : Nat) (mine : Bool) : pt.get (Agg.wrongSide g n r mine) = pt.get g := by
  simp at hpt
  unfold Agg.wrongSide
  (try dsimp only) <;> (repeat' split) <;> first | (simp [hpt]; done) | (cases pt <;> simp at hpt ⊢)
@[simp] theorem Agg.stepTwo_only (pt : AggPart) (hpt : pt ∉ [AggPart.mem, .links, .jobs, .bundle, .scores, .verdicts]) (g : Agg) (n : Nat) (r : Nat) : pt.get (Agg.stepTwo g n r) = pt.get g := by
  simp at hpt
  unfold Agg.stepTwo
  (try dsimp only) <;> (repeat' split) <;> first | (simp [hpt]; done) | (cases pt <;> simp at hpt ⊢)
@[simp] theorem Agg.stepOne_only (pt : AggPart) (hpt : pt ∉ [AggPart.mem, .links, .jobs, .bundle, .scores, .verdicts]) (g : Agg) (n : Nat) (r : Nat) (m : List Byte) : pt.get (Agg.stepOne g n r m) = pt.get g := by
  simp at hpt
  unfold Agg.stepOne
  (try dsimp only) <;> (repeat' split) <;> first | (simp [hpt]; done) | (cases pt <;> simp at hpt ⊢)
@[simp] theorem Agg.noteAction_only (pt : AggPart) (hpt : pt ∉ [AggPart.scores]) (n : Nat) (acc : Agg × List PlacedV) (p : PlacedV) : pt.get (Agg.noteAction n acc p).1 = pt.get acc.1 := by
  simp at hpt
  unfold Agg.noteAction
  (try dsimp only) <;> (repeat' split) <;> first | (simp [hpt]; done) | (cases pt <;> simp at hpt ⊢)
@[simp] theorem Agg.noteAction_regs (n : Nat) (acc : Agg × List PlacedV) (p : PlacedV) : (Agg.noteAction n acc p).1.regs = acc.1.regs := by
  unfold Agg.noteAction
  (try dsimp only) <;> (repeat' split) <;> simp
@[simp] theorem Agg.compareRound_only (pt : AggPart) (hpt : pt ∉ [AggPart.mem, .links, .jobs, .bundle, .scores, .verdicts]) (g : Agg) (n : Nat) (r : Nat) (m : List Byte) : pt.get (Agg.compareRound g n r m) = pt.get g := by
  simp at hpt
  unfold Agg.compareRound
  (try dsimp only) <;> (repeat' split) <;> first | (simp [hpt]; done) | (cases pt <;> simp at hpt ⊢)
@[simp] theorem Agg.checkRound_only (pt : AggPart) (hpt : pt ∉ [AggPart.mem, .links, .jobs, .bundle, .scores, .verdicts]) (g : Agg) (n : Nat) (r : Nat) : pt.get (Agg.checkRound g n r) = pt.get g := by
  simp at hpt
  unfold Agg.checkRound
  (try dsimp only) <;> (repeat' split) <;> first | (simp [hpt]; done) | (cases pt <;> simp at hpt ⊢)
@[simp] theorem Agg.placeGap_only (pt : AggPart) (hpt : pt ∉ [AggPart.mem, .jobs, .scores, .verdicts]) (g : Agg) (n : Nat) : pt.get (Agg.placeGap g n) = pt.get g := by
  simp at hpt
  unfold Agg.placeGap
  (try dsimp only) <;> (repeat' split) <;> first | (simp [hpt]; done) | (cases pt <;> simp at hpt ⊢)
@[simp] theorem Agg.placeRound_only (pt : AggPart) (hpt : pt ∉ [AggPart.mem, .links, .jobs, .skim, .bundle, .scores, .verdicts]) (g : Agg) (x : Round) : pt.get (Agg.placeRound g x) = pt.get g := by
  simp at hpt
  unfold Agg.placeRound
  (try dsimp only) <;> (repeat' split) <;> first | (simp [hpt]; done) | (cases pt <;> simp at hpt ⊢)
@[simp] theorem Agg.levelPlace_only (pt : AggPart) (hpt : pt ∉ [AggPart.mem, .links, .jobs, .skim, .bundle, .scores, .verdicts]) (g : Agg) : pt.get (Agg.levelPlace g) = pt.get g := by
  simp at hpt
  unfold Agg.levelPlace
  (try dsimp only) <;> (repeat' split) <;> first | (simp [hpt]; done) | (cases pt <;> simp at hpt ⊢)
@[simp] theorem Agg.partnerCrcFail_only (pt : AggPart) (hpt : pt ∉ [AggPart.mem, .jobs, .scores, .verdicts]) (g : Agg) (n : Nat) (r : Nat) : pt.get (Agg.partnerCrcFail g n r) = pt.get g := by
  simp at hpt
  unfold Agg.partnerCrcFail
  (try dsimp only) <;> (repeat' split) <;> first | (simp [hpt]; done) | (cases pt <;> simp at hpt ⊢)
@[simp] theorem Agg.summaryReceive_only (pt : AggPart) (hpt : pt ∉ [AggPart.mem, .links, .jobs, .bundle, .scores, .verdicts]) (g : Agg) (m : List Byte) : pt.get (Agg.summaryReceive g m) = pt.get g := by
  simp at hpt
  unfold Agg.summaryReceive
  (try dsimp only) <;> (repeat' split) <;> first | (simp [hpt]; done) | (cases pt <;> simp at hpt ⊢)
@[simp] theorem Agg.summaryLate_only (pt : AggPart) (hpt : pt ∉ [AggPart.mem, .jobs, .scores, .verdicts]) (g : Agg) (n : Nat) (r : Nat) : pt.get (Agg.summaryLate g n r) = pt.get g := by
  simp at hpt
  unfold Agg.summaryLate
  (try dsimp only) <;> (repeat' split) <;> first | (simp [hpt]; done) | (cases pt <;> simp at hpt ⊢)
@[simp] theorem Agg.runLogReceive_only (pt : AggPart) (hpt : pt ∉ [AggPart.mem, .jobs, .scores, .verdicts]) (g : Agg) (n : Nat) (r : Nat) (logs : Option (List Byte)) : pt.get (Agg.runLogReceive g n r logs) = pt.get g := by
  simp at hpt
  unfold Agg.runLogReceive
  (try dsimp only) <;> (repeat' split) <;> first | (simp [hpt]; done) | (cases pt <;> simp at hpt ⊢)
@[simp] theorem Agg.failStation_only (pt : AggPart) (hpt : pt ∉ [AggPart.mem, .stn]) (g : Agg) (s : Nat) : pt.get (Agg.failStation g s) = pt.get g := by
  simp at hpt
  unfold Agg.failStation
  (try dsimp only) <;> (repeat' split) <;> first | (simp [hpt]; done) | (cases pt <;> simp at hpt ⊢)
@[simp] theorem Agg.katResult_only (pt : AggPart) (hpt : pt ∉ [AggPart.mem, .links, .jobs, .bundle, .stn, .scores, .verdicts]) (g : Agg) (n : Nat) (r : Nat) (mine : Bool) (theirs : Bool) : pt.get (Agg.katResult g n r mine theirs) = pt.get g := by
  simp at hpt
  unfold Agg.katResult
  (try dsimp only) <;> (repeat' split) <;> first | (simp [hpt]; done) | (cases pt <;> simp at hpt ⊢)
@[simp] theorem Agg.dueUsed_only (pt : AggPart) (hpt : pt ∉ [AggPart.stn]) (g : Agg) (n : Nat) (p : PlacedRound) : pt.get (Agg.dueUsed g n p) = pt.get g := by
  simp at hpt
  unfold Agg.dueUsed
  (try dsimp only) <;> (repeat' split) <;> first | (simp [hpt]; done) | (cases pt <;> simp at hpt ⊢)
@[simp] theorem Agg.redigest_only (pt : AggPart) (hpt : pt ∉ [AggPart.mem, .links, .jobs, .bundle, .stn, .scores, .verdicts]) (g : Agg) (n : Nat) (r : Nat) (fault : Option Nat) (theirs : Nat) : pt.get (Agg.redigest g n r fault theirs) = pt.get g := by
  simp at hpt
  unfold Agg.redigest
  (try dsimp only) <;> (repeat' split) <;> first | (simp [hpt]; done) | (cases pt <;> simp at hpt ⊢)
@[simp] theorem Agg.disagreeAdopt_only (pt : AggPart) (hpt : pt ∉ [AggPart.mem, .jobs, .scores, .verdicts]) (g : Agg) (n : Nat) (r : Nat) (t : Nat) (records : List Byte) (image : List Byte) (rows : List Byte) : pt.get (Agg.disagreeAdopt g n r t records image rows) = pt.get g := by
  simp at hpt
  unfold Agg.disagreeAdopt
  (try dsimp only) <;> (repeat' split) <;> first | (simp [hpt]; done) | (cases pt <;> simp at hpt ⊢)
@[simp] theorem Agg.disagreeTimeout_only (pt : AggPart) (hpt : pt ∉ [AggPart.mem, .jobs, .scores, .verdicts]) (g : Agg) (n : Nat) (r : Nat) : pt.get (Agg.disagreeTimeout g n r) = pt.get g := by
  simp at hpt
  unfold Agg.disagreeTimeout
  (try dsimp only) <;> (repeat' split) <;> first | (simp [hpt]; done) | (cases pt <;> simp at hpt ⊢)
@[simp] theorem Agg.expelNow_only (pt : AggPart) (hpt : pt ∉ [AggPart.jobs, .scores, .verdicts]) (g : Agg) (n : Nat) (die : Nat) (raise : Nat) (fromWin : Nat) : pt.get (Agg.expelNow g n die raise fromWin) = pt.get g := by
  simp at hpt
  unfold Agg.expelNow
  (try dsimp only) <;> (repeat' split) <;> first | (simp [hpt]; done) | (cases pt <;> simp at hpt ⊢)
@[simp] theorem Agg.expelApply_only (pt : AggPart) (hpt : pt ∉ [AggPart.links, .mbx, .ap, .jobs, .bundle, .scores, .verdicts, .outbox]) (g : Agg) (c : Caller) (die : Nat) (raise : Nat) (fromWin : Nat) (expiry : Nat) (addr : Nat) (count : Nat) : pt.get (Agg.expelApply g c die raise fromWin expiry addr count) = pt.get g := by
  simp at hpt
  unfold Agg.expelApply
  (try dsimp only) <;> (repeat' split) <;> first | (simp [hpt]; done) | (cases pt <;> simp at hpt ⊢)
@[simp] theorem Agg.expelRestore_only (pt : AggPart) (hpt : pt ∉ [AggPart.mbx, .ap, .jobs, .scores, .verdicts, .outbox]) (g : Agg) (c : Caller) (die : Nat) : pt.get (Agg.expelRestore g c die) = pt.get g := by
  simp at hpt
  unfold Agg.expelRestore
  (try dsimp only) <;> (repeat' split) <;> (first | (simp (maxDischargeDepth := 5) [hpt]; done) | (rw [Agg.command_only pt (by simp [hpt])]; (repeat' intro _); (try dsimp only) <;> (repeat' split) <;> (first | (simp [hpt]; done) | (cases pt <;> simp at hpt ⊢)); done) | (rw [Agg.checked_only pt (by simp [hpt])]; (repeat' intro _); (try dsimp only) <;> (repeat' split) <;> (first | (simp [hpt]; done) | (cases pt <;> simp at hpt ⊢)); done) | (rw [AggPart.get_foldl]; (repeat' intro _); (try dsimp only) <;> (repeat' split) <;> (first | (simp [hpt]; done) | (cases pt <;> simp at hpt ⊢)); done))
@[simp] theorem Agg.expelForward_only (pt : AggPart) (hpt : pt ∉ [AggPart.jobs, .scores, .verdicts]) (g : Agg) (n : Nat) (die : Nat) (raise : Nat) (fromWin : Nat) (expiry : Nat) (token : List Byte) : pt.get (Agg.expelForward g n die raise fromWin expiry token) = pt.get g := by
  simp at hpt
  unfold Agg.expelForward
  (try dsimp only) <;> (repeat' split) <;> first | (simp [hpt]; done) | (cases pt <;> simp at hpt ⊢)
@[simp] theorem Agg.dustChange_only (pt : AggPart) (hpt : pt ∉ [AggPart.mbx, .ap, .jobs, .verdicts, .outbox]) (g : Agg) (c : Caller) (x : DustChange) : pt.get (Agg.dustChange g c x) = pt.get g := by
  simp at hpt
  unfold Agg.dustChange
  (try dsimp only) <;> (repeat' split) <;> first | (simp [hpt]; done) | (cases pt <;> simp at hpt ⊢)
@[simp] theorem Agg.dustConfigure_only (pt : AggPart) (hpt : pt ∉ [AggPart.mbx, .ap, .jobs, .verdicts, .outbox]) (g : Agg) (c : Caller) (budget : Nat) (mean : Nat) (minMean : Nat) (metric : Option Nat) (allow : Bool) : pt.get (Agg.dustConfigure g c budget mean minMean metric allow) = pt.get g := by
  simp at hpt
  unfold Agg.dustConfigure
  (try dsimp only) <;> (repeat' split) <;> first | (simp [hpt]; done) | (cases pt <;> simp at hpt ⊢)
@[simp] theorem Agg.dustClear_only (pt : AggPart) (hpt : pt ∉ [AggPart.mbx, .ap, .jobs, .verdicts, .outbox]) (g : Agg) (c : Caller) : pt.get (Agg.dustClear g c) = pt.get g := by
  simp at hpt
  unfold Agg.dustClear
  (try dsimp only) <;> (repeat' split) <;> first | (simp [hpt]; done) | (cases pt <;> simp at hpt ⊢)
@[simp] theorem Agg.dustSeed_only (pt : AggPart) (hpt : pt ∉ [AggPart.mbx, .ap, .jobs, .verdicts, .outbox]) (g : Agg) (c : Caller) (addr : Nat) : pt.get (Agg.dustSeed g c addr) = pt.get g := by
  simp at hpt
  unfold Agg.dustSeed
  (try dsimp only) <;> (repeat' split) <;> first | (simp [hpt]; done) | (cases pt <;> simp at hpt ⊢)
@[simp] theorem Agg.dustStatus_only (pt : AggPart) (hpt : pt ∉ [AggPart.mbx, .ap, .jobs, .outbox]) (g : Agg) (c : Caller) : pt.get (Agg.dustStatus g c) = pt.get g := by
  simp at hpt
  unfold Agg.dustStatus
  (try dsimp only) <;> (repeat' split) <;> first | (simp [hpt]; done) | (cases pt <;> simp at hpt ⊢)
@[simp] theorem Agg.verdictRecords_only (pt : AggPart) (hpt : pt ∉ [AggPart.mem, .mbx, .ap, .jobs, .outbox]) (g : Agg) (c : Caller) (die : Nat) (first : Nat) (windows : Nat) (dst : Nat) : pt.get (Agg.verdictRecords g c die first windows dst) = pt.get g := by
  simp at hpt
  unfold Agg.verdictRecords
  (try dsimp only) <;> (repeat' split) <;> first | (simp [hpt]; done) | (cases pt <;> simp at hpt ⊢)
@[simp] theorem Agg.verdictRecs_only (pt : AggPart) (hpt : pt ∉ [AggPart.mem, .mbx, .ap, .jobs, .outbox]) (g : Agg) (c : Caller) (fromSeq : Nat) (mx : Nat) (dst : Nat) : pt.get (Agg.verdictRecs g c fromSeq mx dst) = pt.get g := by
  simp at hpt
  unfold Agg.verdictRecs
  (try dsimp only) <;> (repeat' split) <;> first | (simp [hpt]; done) | (cases pt <;> simp at hpt ⊢)
@[simp] theorem Agg.disagreeStatus_only (pt : AggPart) (hpt : pt ∉ [AggPart.mbx, .ap, .jobs, .outbox]) (g : Agg) (c : Caller) (r : Nat) : pt.get (Agg.disagreeStatus g c r) = pt.get g := by
  simp at hpt
  unfold Agg.disagreeStatus
  (try dsimp only) <;> (repeat' split) <;> first | (simp [hpt]; done) | (cases pt <;> simp at hpt ⊢)
@[simp] theorem Agg.dropPending_only (pt : AggPart) (hpt : pt ∉ [AggPart.stencil]) (g : Agg) (n : Nat) : pt.get (Agg.dropPending g n) = pt.get g := by
  simp at hpt
  unfold Agg.dropPending
  (try dsimp only) <;> (repeat' split) <;> first | (simp [hpt]; done) | (cases pt <;> simp at hpt ⊢)
@[simp] theorem Agg.dropPending_regs (g : Agg) (n : Nat) : (Agg.dropPending g n).regs = g.regs := by
  unfold Agg.dropPending
  (try dsimp only) <;> (repeat' split) <;> simp
theorem Agg.loadEnsembles_only (pt : AggPart) (hpt : pt ∉ [AggPart.stencil]) {g : Agg} {n : Nat} {l} {g' : Agg} (h : g.loadEnsembles n l = .ok g') : pt.get g' = pt.get g := by
  simp at hpt
  induction l generalizing g with
  | nil => simp only [Agg.loadEnsembles, Except.ok.injEq] at h; subst h; rfl
  | cons x l ih =>
    unfold Agg.loadEnsembles at h
    split at h
    · next h1 => exact (ih h).trans (Agg.loadEnsemble_only pt (by simp [hpt]) h1)
    · cases h
theorem Agg.loadEnsembles_regs {g : Agg} {n : Nat} {l} {g' : Agg} (h : g.loadEnsembles n l = .ok g') : g'.regs = g.regs := by
  induction l generalizing g with
  | nil => simp only [Agg.loadEnsembles, Except.ok.injEq] at h; subst h; rfl
  | cons x l ih =>
    unfold Agg.loadEnsembles at h
    split at h
    · next h1 => exact (ih h).trans (Agg.loadEnsemble_regs h1)
    · cases h
@[simp] theorem Agg.placeOne_only (pt : AggPart) (hpt : pt ∉ [AggPart.jobs, .stencil]) (g : Agg) (n : Nat) : pt.get (Agg.placeOne g n) = pt.get g := by
  simp at hpt
  unfold Agg.placeOne
  repeat' split
  · first | (simp [hpt]; done) | (cases pt <;> simp at hpt ⊢)
  · next h => have b := Agg.loadEnsembles_only pt (by simp [hpt]) h; first | (simp [hpt, b]; done) | (cases pt <;> simp [b] at hpt ⊢)
  · first | (simp [hpt]; done) | (cases pt <;> simp at hpt ⊢)
  · first | (simp [hpt]; done) | (cases pt <;> simp at hpt ⊢)
@[simp] theorem Agg.placeOne_regs (g : Agg) (n : Nat) : (Agg.placeOne g n).regs = g.regs := by
  unfold Agg.placeOne
  repeat' split
  · simp
  · next h => have b := Agg.loadEnsembles_regs h; simp [b]
  · simp
  · simp
@[simp] theorem Agg.placeDeferred_only (pt : AggPart) (hpt : pt ∉ [AggPart.jobs, .stencil]) (g : Agg) : pt.get (Agg.placeDeferred g) = pt.get g := by
  simp at hpt
  unfold Agg.placeDeferred
  (try dsimp only) <;> (repeat' split) <;> first | (simp [hpt]; done) | (cases pt <;> simp at hpt ⊢)
@[simp] theorem Agg.placeDeferred_regs (g : Agg) : (Agg.placeDeferred g).regs = g.regs := by
  unfold Agg.placeDeferred
  (try dsimp only) <;> (repeat' split) <;> simp
@[simp] theorem Agg.zeroArea_only (pt : AggPart) (hpt : pt ∉ [AggPart.mem]) (g : Agg) (a : Area) : pt.get (Agg.zeroArea g a) = pt.get g := by
  simp at hpt
  unfold Agg.zeroArea
  (try dsimp only) <;> (repeat' split) <;> first | (simp [hpt]; done) | (cases pt <;> simp at hpt ⊢)
@[simp] theorem Agg.zeroArea_regs (g : Agg) (a : Area) : (Agg.zeroArea g a).regs = g.regs := by
  unfold Agg.zeroArea
  (try dsimp only) <;> (repeat' split) <;> simp
@[simp] theorem Agg.createJob_only (pt : AggPart) (hpt : pt ∉ [AggPart.mem, .mbx, .ap, .jobs, .scores, .outbox]) (g : Agg) (q : QueuedCreate) (n : Nat) (hawk : Nat) (hbm : Nat) : pt.get (Agg.createJob g q n hawk hbm) = pt.get g := by
  simp at hpt
  unfold Agg.createJob
  (try dsimp only) <;> (repeat' split) <;> first | (simp [hpt]; done) | (cases pt <;> simp at hpt ⊢)
@[simp] theorem Agg.serveQueue_only (pt : AggPart) (hpt : pt ∉ [AggPart.mem, .mbx, .ap, .jobs, .scores, .outbox]) (g : Agg) (a : Nat) : pt.get (Agg.serveQueue g a) = pt.get g := by
  simp at hpt
  induction a generalizing g with
  | zero => rfl
  | succ n ih => unfold Agg.serveQueue; (try dsimp only); (repeat' split) <;> first | (simp [hpt, ih]; done) | (cases pt <;> simp [ih] at hpt ⊢)
@[simp] theorem Agg.jobCreate_only (pt : AggPart) (hpt : pt ∉ [AggPart.mem, .mbx, .ap, .jobs, .scores, .outbox]) (g : Agg) (c : Caller) (jobTag : Nat) (hawkMib : Nat) (hbmGib : Nat) (addr : Nat) (queueMs : Nat) : pt.get (Agg.jobCreate g c jobTag hawkMib hbmGib addr queueMs) = pt.get g := by
  simp at hpt
  unfold Agg.jobCreate
  (try dsimp only) <;> (repeat' split) <;> first | (simp [hpt]; done) | (cases pt <;> simp at hpt ⊢)
@[simp] theorem Agg.createTimeout_only (pt : AggPart) (hpt : pt ∉ [AggPart.mem, .mbx, .ap, .jobs, .scores, .outbox]) (g : Agg) : pt.get (Agg.createTimeout g) = pt.get g := by
  simp at hpt
  unfold Agg.createTimeout
  (try dsimp only) <;> (repeat' split) <;> first | (simp [hpt]; done) | (cases pt <;> simp at hpt ⊢)
@[simp] theorem Agg.areaZeroed_only (pt : AggPart) (hpt : pt ∉ [AggPart.mem, .mbx, .ap, .jobs, .scores, .outbox]) (g : Agg) : pt.get (Agg.areaZeroed g) = pt.get g := by
  simp at hpt
  unfold Agg.areaZeroed
  (try dsimp only) <;> (repeat' split) <;> first | (simp [hpt]; done) | (cases pt <;> simp at hpt ⊢)
@[simp] theorem Agg.claim_only (pt : AggPart) (hpt : pt ∉ [AggPart.jobs]) (g : Agg) (n : Nat) (p : Nat) (c : Nat) : pt.get (Agg.claim g n p c) = pt.get g := by
  simp at hpt
  unfold Agg.claim
  (try dsimp only) <;> (repeat' split) <;> first | (simp [hpt]; done) | (cases pt <;> simp at hpt ⊢)
@[simp] theorem Agg.claim_regs (g : Agg) (n : Nat) (p : Nat) (c : Nat) : (Agg.claim g n p c).regs = g.regs := by
  unfold Agg.claim
  (try dsimp only) <;> (repeat' split) <;> simp
@[simp] theorem Agg.addDies_only (pt : AggPart) (hpt : pt ∉ [AggPart.mbx, .ap, .jobs, .outbox]) (g : Agg) (c : Caller) (addr : Nat) (count : Nat) : pt.get (Agg.addDies g c addr count) = pt.get g := by
  simp at hpt
  unfold Agg.addDies
  (try dsimp only) <;> (repeat' split) <;> (first | (simp (maxDischargeDepth := 5) [hpt]; done) | (rw [Agg.command_only pt (by simp [hpt])]; (repeat' intro _); (try dsimp only) <;> (repeat' split) <;> (first | (simp [hpt]; done) | (cases pt <;> simp at hpt ⊢)); done) | (rw [Agg.checked_only pt (by simp [hpt])]; (repeat' intro _); (try dsimp only) <;> (repeat' split) <;> (first | (simp [hpt]; done) | (cases pt <;> simp at hpt ⊢)); done) | (rw [AggPart.get_foldl]; (repeat' intro _); (try dsimp only) <;> (repeat' split) <;> (first | (simp [hpt]; done) | (cases pt <;> simp at hpt ⊢)); done))
@[simp] theorem Agg.modelCame_only (pt : AggPart) (hpt : pt ∉ [AggPart.jobs, .pair]) (g : Agg) (n : Nat) : pt.get (Agg.modelCame g n) = pt.get g := by
  simp at hpt
  unfold Agg.modelCame
  (try dsimp only) <;> (repeat' split) <;> first | (simp [hpt]; done) | (cases pt <;> simp at hpt ⊢)
@[simp] theorem Agg.modelCame_regs (g : Agg) (n : Nat) : (Agg.modelCame g n).regs = g.regs := by
  unfold Agg.modelCame
  (try dsimp only) <;> (repeat' split) <;> simp
theorem Agg.placeEnsembles_ok {g : Agg} {n m g' b} (h : g.placeEnsembles n m = .ok (g', b)) : g' = g ∨ g.loadEnsembles n m.ensembles = .ok g' := by
  unfold Agg.placeEnsembles at h
  repeat' split at h
  all_goals simp_all
theorem Agg.placeEnsembles_only (pt : AggPart) (hpt : pt ∉ [AggPart.stencil]) {g : Agg} {n m g' b} (h : g.placeEnsembles n m = .ok (g', b)) : pt.get g' = pt.get g := by
  rcases Agg.placeEnsembles_ok h with rfl | h
  · rfl
  · exact Agg.loadEnsembles_only pt hpt h
theorem Agg.placeEnsembles_regs {g : Agg} {n m g' b} (h : g.placeEnsembles n m = .ok (g', b)) : g'.regs = g.regs := by
  rcases Agg.placeEnsembles_ok h with rfl | h
  · rfl
  · exact Agg.loadEnsembles_regs h
theorem Agg.loadModel_only (pt : AggPart) (hpt : pt ∉ [AggPart.mem, .jobs, .stencil]) {g : Agg} {n img g' st} (h : g.loadModel n img = .ok (g', st)) : pt.get g' = pt.get g := by
  simp at hpt
  unfold Agg.loadModel at h
  dsimp only at h
  repeat' split at h
  all_goals first | (cases h; done) | skip
  all_goals
    next h1 =>
    have b := Agg.placeEnsembles_only pt (by simp [hpt]) h1
    injection h with h; injection h with h h2; subst h
    first | (simp [hpt, b]; done) | (cases pt <;> simp [b] at hpt ⊢)
theorem Agg.loadModel_regs {g : Agg} {n img g' st} (h : g.loadModel n img = .ok (g', st)) : g'.regs = g.regs := by
  unfold Agg.loadModel at h
  dsimp only at h
  repeat' split at h
  all_goals first | (cases h; done) | skip
  all_goals
    next h1 =>
    have b := Agg.placeEnsembles_regs h1
    injection h with h; injection h with h h2; subst h
    simp [b]
@[simp] theorem Agg.loadOutcome_only (pt : AggPart) (hpt : pt ∉ [AggPart.mem, .mbx, .ap, .jobs, .stencil, .pair, .outbox]) (g : Agg) (w : Nat × Nat) (n : Nat) (img : List Byte) : pt.get (Agg.loadOutcome g w n img) = pt.get g := by
  simp at hpt
  unfold Agg.loadOutcome
  repeat' split
  · simp [hpt]
  · next h => have b := Agg.loadModel_only pt (by simp [hpt]) h; simp [hpt, b]
  · simp [hpt]
  · simp [hpt]
@[simp] theorem Agg.loadLocal_only (pt : AggPart) (hpt : pt ∉ [AggPart.mem, .mbx, .ap, .jobs, .stencil, .pair, .outbox]) (g : Agg) (c : Caller) (addr : Nat) (len : Nat) : pt.get (Agg.loadLocal g c addr len) = pt.get g := by
  simp at hpt
  unfold Agg.loadLocal
  (try dsimp only) <;> (repeat' split) <;> first | (simp [hpt]; done) | (cases pt <;> simp at hpt ⊢)
@[simp] theorem Agg.endArm_only (pt : AggPart) (hpt : pt ∉ [AggPart.mbx, .ap, .jobs, .outbox]) (g : Agg) (n : Nat) : pt.get (Agg.endArm g n) = pt.get g := by
  simp at hpt
  unfold Agg.endArm
  (try dsimp only) <;> (repeat' split) <;> first | (simp [hpt]; done) | (cases pt <;> simp at hpt ⊢)
@[simp] theorem Agg.jobArm_only (pt : AggPart) (hpt : pt ∉ [AggPart.ports, .mbx, .acc, .ap, .jobs, .outbox]) (g : Agg) (c : Caller) (earliest : Nat) (hold : Nat) : pt.get (Agg.jobArm g c earliest hold) = pt.get g := by
  simp at hpt
  unfold Agg.jobArm
  (try dsimp only) <;> (repeat' split) <;> (first | (simp (maxDischargeDepth := 5) [hpt]; done) | (rw [Agg.command_only pt (by simp [hpt])]; (repeat' intro _); (try dsimp only) <;> (repeat' split) <;> (first | (simp [hpt]; done) | (cases pt <;> simp at hpt ⊢)); done) | (rw [Agg.checked_only pt (by simp [hpt])]; (repeat' intro _); (try dsimp only) <;> (repeat' split) <;> (first | (simp [hpt]; done) | (cases pt <;> simp at hpt ⊢)); done) | (rw [AggPart.get_foldl]; (repeat' intro _); (try dsimp only) <;> (repeat' split) <;> (first | (simp [hpt]; done) | (cases pt <;> simp at hpt ⊢)); done))
@[simp] theorem Agg.expireArm_only (pt : AggPart) (hpt : pt ∉ [AggPart.jobs]) (g : Agg) (n : Nat) : pt.get (Agg.expireArm g n) = pt.get g := by
  simp at hpt
  unfold Agg.expireArm
  (try dsimp only) <;> (repeat' split) <;> first | (simp [hpt]; done) | (cases pt <;> simp at hpt ⊢)
@[simp] theorem Agg.armExpire_only (pt : AggPart) (hpt : pt ∉ [AggPart.jobs]) (g : Agg) : pt.get (Agg.armExpire g) = pt.get g := by
  simp at hpt
  unfold Agg.armExpire
  (try dsimp only) <;> (repeat' split) <;> first | (simp [hpt]; done) | (cases pt <;> simp at hpt ⊢)
@[simp] theorem Agg.commitPort_only (pt : AggPart) (hpt : pt ∉ [AggPart.ports, .acc]) (g : Agg) (n : Nat) (p : Nat) (act : Nat) (w : Nat × Nat) : pt.get (Agg.commitPort g n p act w) = pt.get g := by
  simp at hpt
  unfold Agg.commitPort
  (try dsimp only) <;> (repeat' split) <;> first | (simp [hpt]; done) | (cases pt <;> simp at hpt ⊢)
@[simp] theorem Agg.commitPort_regs (g : Agg) (n : Nat) (p : Nat) (act : Nat) (w : Nat × Nat) : (Agg.commitPort g n p act w).regs = g.regs := by
  unfold Agg.commitPort
  (try dsimp only) <;> (repeat' split) <;> simp
@[simp] theorem Agg.fixCommit_only (pt : AggPart) (hpt : pt ∉ [AggPart.jobs]) (g : Agg) (n : Nat) : pt.get (Agg.fixCommit g n) = pt.get g := by
  simp at hpt
  unfold Agg.fixCommit
  (try dsimp only) <;> (repeat' split) <;> first | (simp [hpt]; done) | (cases pt <;> simp at hpt ⊢)
@[simp] theorem Agg.fixCommit_regs (g : Agg) (n : Nat) : (Agg.fixCommit g n).regs = g.regs := by
  unfold Agg.fixCommit
  (try dsimp only) <;> (repeat' split) <;> simp
@[simp] theorem Agg.cancelPort_only (pt : AggPart) (hpt : pt ∉ [AggPart.ports, .acc]) (j : Job) (g : Agg) (p : Nat) : pt.get (Agg.cancelPort j g p) = pt.get g := by
  simp at hpt
  unfold Agg.cancelPort
  (try dsimp only) <;> (repeat' split) <;> first | (simp [hpt]; done) | (cases pt <;> simp at hpt ⊢)
@[simp] theorem Agg.cancelPort_regs (j : Job) (g : Agg) (p : Nat) : (Agg.cancelPort j g p).regs = g.regs := by
  unfold Agg.cancelPort
  (try dsimp only) <;> (repeat' split) <;> simp
@[simp] theorem Agg.endCommit_only (pt : AggPart) (hpt : pt ∉ [AggPart.ports, .links, .mbx, .acc, .ap, .jobs, .bundle, .outbox]) (g : Agg) (n : Nat) : pt.get (Agg.endCommit g n) = pt.get g := by
  simp at hpt
  unfold Agg.endCommit
  (try dsimp only) <;> (repeat' split) <;> first | (simp [hpt]; done) | (cases pt <;> simp at hpt ⊢)
@[simp] theorem Agg.commitOutcome_only (pt : AggPart) (hpt : pt ∉ [AggPart.mbx, .ap, .jobs, .outbox]) (g : Agg) (n : Nat) (code : Nat) : pt.get (Agg.commitOutcome g n code) = pt.get g := by
  simp at hpt
  unfold Agg.commitOutcome
  (try dsimp only) <;> (repeat' split) <;> first | (simp [hpt]; done) | (cases pt <;> simp at hpt ⊢)
@[simp] theorem Agg.jobCommit_only (pt : AggPart) (hpt : pt ∉ [AggPart.ports, .links, .mbx, .acc, .ap, .jobs, .bundle, .outbox]) (g : Agg) (c : Caller) (act : Nat) : pt.get (Agg.jobCommit g c act) = pt.get g := by
  simp at hpt
  unfold Agg.jobCommit
  (try dsimp only) <;> (repeat' split) <;> (first | (simp (maxDischargeDepth := 5) [hpt]; done) | (rw [Agg.command_only pt (by simp [hpt])]; (repeat' intro _); (try dsimp only) <;> (repeat' split) <;> (first | (simp [hpt]; done) | (cases pt <;> simp at hpt ⊢)); done) | (rw [Agg.checked_only pt (by simp [hpt])]; (repeat' intro _); (try dsimp only) <;> (repeat' split) <;> (first | (simp [hpt]; done) | (cases pt <;> simp at hpt ⊢)); done) | (rw [AggPart.get_foldl]; (repeat' intro _); (try dsimp only) <;> (repeat' split) <;> (first | (simp [hpt]; done) | (cases pt <;> simp at hpt ⊢)); done))
@[simp] theorem Agg.jobDisarm_only (pt : AggPart) (hpt : pt ∉ [AggPart.mbx, .ap, .jobs, .outbox]) (g : Agg) (c : Caller) : pt.get (Agg.jobDisarm g c) = pt.get g := by
  simp at hpt
  unfold Agg.jobDisarm
  (try dsimp only) <;> (repeat' split) <;> first | (simp [hpt]; done) | (cases pt <;> simp at hpt ⊢)
@[simp] theorem Agg.jobRegDone_only (pt : AggPart) (hpt : pt ∉ [AggPart.ports, .links, .mbx, .acc, .ap, .jobs, .bundle, .outbox]) (g : Agg) (x : RegJob) (st : Status) : pt.get (Agg.jobRegDone g x st) = pt.get g := by
  simp at hpt
  unfold Agg.jobRegDone
  (try dsimp only) <;> (repeat' split) <;> first | (simp [hpt]; done) | (cases pt <;> simp at hpt ⊢)
@[simp] theorem Agg.commitAbsent_only (pt : AggPart) (hpt : pt ∉ [AggPart.ports, .acc, .jobs]) (p : Nat) (g : Agg) (n : Nat) : pt.get (Agg.commitAbsent p g n) = pt.get g := by
  simp at hpt
  unfold Agg.commitAbsent
  (try dsimp only) <;> (repeat' split) <;> first | (simp [hpt]; done) | (cases pt <;> simp at hpt ⊢)
@[simp] theorem Agg.commitAbsent_regs (p : Nat) (g : Agg) (n : Nat) : (Agg.commitAbsent p g n).regs = g.regs := by
  unfold Agg.commitAbsent
  (try dsimp only) <;> (repeat' split) <;> simp
@[simp] theorem Agg.jobPortUp_only (pt : AggPart) (hpt : pt ∉ [AggPart.ports, .acc, .jobs]) (g : Agg) (p : Nat) : pt.get (Agg.jobPortUp g p) = pt.get g := by
  simp at hpt
  unfold Agg.jobPortUp
  (try dsimp only) <;> (repeat' split) <;> first | (simp [hpt]; done) | (cases pt <;> simp at hpt ⊢)
@[simp] theorem Agg.jobPortUp_regs (g : Agg) (p : Nat) : (Agg.jobPortUp g p).regs = g.regs := by
  unfold Agg.jobPortUp
  (try dsimp only) <;> (repeat' split) <;> simp
@[simp] theorem Agg.delayedCommit_only (pt : AggPart) (hpt : pt ∉ [AggPart.ports, .links, .mbx, .acc, .ap, .jobs, .bundle, .outbox]) (g : Agg) (n : Nat) : pt.get (Agg.delayedCommit g n) = pt.get g := by
  simp at hpt
  unfold Agg.delayedCommit
  (try dsimp only) <;> (repeat' split) <;> first | (simp [hpt]; done) | (cases pt <;> simp at hpt ⊢)
@[simp] theorem Agg.delayedCommits_only (pt : AggPart) (hpt : pt ∉ [AggPart.ports, .links, .mbx, .acc, .ap, .jobs, .bundle, .outbox]) (g : Agg) : pt.get (Agg.delayedCommits g) = pt.get g := by
  simp at hpt
  unfold Agg.delayedCommits
  (try dsimp only) <;> (repeat' split) <;> first | (simp [hpt]; done) | (cases pt <;> simp at hpt ⊢)
@[simp] theorem Agg.clearRows_only (pt : AggPart) (hpt : pt ∉ [AggPart.mem]) (g : Agg) (n : Nat) : pt.get (Agg.clearRows g n) = pt.get g := by
  simp at hpt
  unfold Agg.clearRows
  (try dsimp only) <;> (repeat' split) <;> first | (simp [hpt]; done) | (cases pt <;> simp at hpt ⊢)
@[simp] theorem Agg.clearRows_regs (g : Agg) (n : Nat) : (Agg.clearRows g n).regs = g.regs := by
  unfold Agg.clearRows
  (try dsimp only) <;> (repeat' split) <;> simp
@[simp] theorem Agg.gapRecord_only (pt : AggPart) (hpt : pt ∉ [AggPart.mem]) (j : Job) (w : Nat) (g : Agg) (d : JobDie) : pt.get (Agg.gapRecord j w g d) = pt.get g := by
  simp at hpt
  unfold Agg.gapRecord
  (try dsimp only) <;> (repeat' split) <;> first | (simp [hpt]; done) | (cases pt <;> simp at hpt ⊢)
@[simp] theorem Agg.gapRecord_regs (j : Job) (w : Nat) (g : Agg) (d : JobDie) : (Agg.gapRecord j w g d).regs = g.regs := by
  unfold Agg.gapRecord
  (try dsimp only) <;> (repeat' split) <;> simp
@[simp] theorem Agg.gapRecords_only (pt : AggPart) (hpt : pt ∉ [AggPart.mem, .scores]) (g : Agg) (n : Nat) (from_ : Nat) (to_ : Nat) : pt.get (Agg.gapRecords g n from_ to_) = pt.get g := by
  simp at hpt
  unfold Agg.gapRecords
  (try dsimp only) <;> (repeat' split) <;> (first | (simp (maxDischargeDepth := 5) [hpt]; done) | (rw [Agg.command_only pt (by simp [hpt])]; (repeat' intro _); (try dsimp only) <;> (repeat' split) <;> (first | (simp [hpt]; done) | (cases pt <;> simp at hpt ⊢)); done) | (rw [Agg.checked_only pt (by simp [hpt])]; (repeat' intro _); (try dsimp only) <;> (repeat' split) <;> (first | (simp [hpt]; done) | (cases pt <;> simp at hpt ⊢)); done) | (rw [AggPart.get_foldl]; (repeat' intro _); (try dsimp only) <;> (repeat' split) <;> (first | (simp [hpt]; done) | (cases pt <;> simp at hpt ⊢)); done))
@[simp] theorem Agg.gapRecords_regs (g : Agg) (n : Nat) (from_ : Nat) (to_ : Nat) : (Agg.gapRecords g n from_ to_).regs = g.regs := by
  unfold Agg.gapRecords
  (try dsimp only) <;> (repeat' split) <;> simp
set_option maxHeartbeats 1000000 in
@[simp] theorem Agg.rebuildRows_only (pt : AggPart) (hpt : pt ∉ [AggPart.mem, .scores]) (g : Agg) (n : Nat) (from_ : Nat) (to_ : Nat) : pt.get (Agg.rebuildRows g n from_ to_) = pt.get g := by
  simp at hpt
  unfold Agg.rebuildRows
  dsimp only
  rw [Agg.modScore_only pt (by simp [hpt]), AggPart.get_foldl]
  intro _ _
  rw [AggPart.get_foldl]
  intro _ _
  simp [hpt]
set_option maxHeartbeats 1000000 in
@[simp] theorem Agg.activateJob_only (pt : AggPart) (hpt : pt ∉ [AggPart.mem, .jobs, .stencil, .scores, .pair]) (g : Agg) (n : Nat) (w : Nat) : pt.get (Agg.activateJob g n w) = pt.get g := by
  simp at hpt
  unfold Agg.activateJob
  (try dsimp only) <;> (repeat' split) <;> first | (simp [hpt]; done) | (cases pt <;> simp at hpt ⊢)
@[simp] theorem Agg.jobStroke_only (pt : AggPart) (hpt : pt ∉ [AggPart.mem, .ports, .links, .mbx, .acc, .ap, .jobs, .bundle, .stencil, .scores, .pair, .outbox]) (g : Agg) (w : Nat) : pt.get (Agg.jobStroke g w) = pt.get g := by
  simp at hpt
  unfold Agg.jobStroke
  (try dsimp only) <;> (repeat' split) <;> first | (simp [hpt]; done) | (cases pt <;> simp at hpt ⊢)
@[simp] theorem Agg.disablePort_only (pt : AggPart) (hpt : pt ∉ [AggPart.ports, .acc]) (g : Agg) (n : Nat) (act : Nat) (d : JobDie) : pt.get (Agg.disablePort g n act d) = pt.get g := by
  simp at hpt
  unfold Agg.disablePort
  (try dsimp only) <;> (repeat' split) <;> first | (simp [hpt]; done) | (cases pt <;> simp at hpt ⊢)
@[simp] theorem Agg.disablePort_regs (g : Agg) (n : Nat) (act : Nat) (d : JobDie) : (Agg.disablePort g n act d).regs = g.regs := by
  unfold Agg.disablePort
  (try dsimp only) <;> (repeat' split) <;> simp
@[simp] theorem Agg.forgetCommands_only (pt : AggPart) (hpt : pt ∉ [AggPart.acc, .jobs, .skim]) (g : Agg) (gone : Nat × Nat → Bool) : pt.get (Agg.forgetCommands g gone) = pt.get g := by
  simp at hpt
  unfold Agg.forgetCommands
  (try dsimp only) <;> (repeat' split) <;> first | (simp [hpt]; done) | (cases pt <;> simp at hpt ⊢)
@[simp] theorem Agg.forgetCommands_regs (g : Agg) (gone : Nat × Nat → Bool) : (Agg.forgetCommands g gone).regs = g.regs := by
  unfold Agg.forgetCommands
  (try dsimp only) <;> (repeat' split) <;> simp
@[simp] theorem Agg.dropRuns_only (pt : AggPart) (hpt : pt ∉ [AggPart.stn]) (g : Agg) (n : Nat) : pt.get (Agg.dropRuns g n) = pt.get g := by
  simp at hpt
  unfold Agg.dropRuns
  (try dsimp only) <;> (repeat' split) <;> first | (simp [hpt]; done) | (cases pt <;> simp at hpt ⊢)
@[simp] theorem Agg.dropRuns_regs (g : Agg) (n : Nat) : (Agg.dropRuns g n).regs = g.regs := by
  unfold Agg.dropRuns
  (try dsimp only) <;> (repeat' split) <;> simp
@[simp] theorem Agg.setParked_only (pt : AggPart) (hpt : pt ∉ [AggPart.ap]) (g : Agg) (port : Nat) (l : List RocePkt) : pt.get (Agg.setParked g port l) = pt.get g := by
  simp at hpt
  unfold Agg.setParked
  (try dsimp only) <;> (repeat' split) <;> first | (simp [hpt]; done) | (cases pt <;> simp at hpt ⊢)
@[simp] theorem Agg.setParked_regs (g : Agg) (port : Nat) (l : List RocePkt) : (Agg.setParked g port l).regs = g.regs := by
  unfold Agg.setParked
  (try dsimp only) <;> (repeat' split) <;> simp
@[simp] theorem Agg.loseParked_only (pt : AggPart) (hpt : pt ∉ [AggPart.ap]) (g : Agg) (qpn : Nat) : pt.get (Agg.loseParked g qpn) = pt.get g := by
  simp at hpt
  unfold Agg.loseParked
  (try dsimp only) <;> (repeat' split) <;> first | (simp [hpt]; done) | (cases pt <;> simp at hpt ⊢)
@[simp] theorem Agg.stopRuns_only (pt : AggPart) (hpt : pt ∉ [AggPart.mem, .stn]) (g : Agg) (n : Nat) (tiles : Nat → Nat) : pt.get (Agg.stopRuns g n tiles) = pt.get g := by
  simp at hpt
  unfold Agg.stopRuns
  (try dsimp only) <;> (repeat' split) <;> first | (simp [hpt]; done) | (cases pt <;> simp at hpt ⊢)
@[simp] theorem Agg.stopRuns_regs (g : Agg) (n : Nat) (tiles : Nat → Nat) : (Agg.stopRuns g n tiles).regs = g.regs := by
  unfold Agg.stopRuns
  (try dsimp only) <;> (repeat' split) <;> simp
@[simp] theorem Agg.releaseJob_only (pt : AggPart) (hpt : pt ∉ [AggPart.mem, .mbx, .acc, .ap, .jobs, .skim, .codec, .cvu, .stn, .stencil, .scores, .outbox]) (g : Agg) (n : Nat) (tiles : Nat → Nat) : pt.get (Agg.releaseJob g n tiles) = pt.get g := by
  simp at hpt
  unfold Agg.releaseJob
  (try dsimp only) <;> (repeat' split) <;> first | (simp [hpt]; done) | (cases pt <;> simp at hpt ⊢)
@[simp] theorem Agg.endReplacement_only (pt : AggPart) (hpt : pt ∉ [AggPart.ports, .mbx, .acc, .ap, .jobs, .outbox]) (g : Agg) (n : Nat) : pt.get (Agg.endReplacement g n) = pt.get g := by
  simp at hpt
  unfold Agg.endReplacement
  (try dsimp only) <;> (repeat' split) <;> first | (simp [hpt]; done) | (cases pt <;> simp at hpt ⊢)
@[simp] theorem Agg.jobTeardown_only (pt : AggPart) (hpt : pt ∉ [AggPart.mem, .ports, .mbx, .acc, .ap, .jobs, .skim, .codec, .cvu, .stn, .stencil, .scores, .outbox]) (g : Agg) (c : Caller) (last : Nat) (tiles : Nat → Nat) : pt.get (Agg.jobTeardown g c last tiles) = pt.get g := by
  simp at hpt
  unfold Agg.jobTeardown
  (try dsimp only) <;> (repeat' split) <;> (first | (simp (maxDischargeDepth := 5) [hpt]; done) | (rw [Agg.command_only pt (by simp [hpt])]; (repeat' intro _); (try dsimp only) <;> (repeat' split) <;> (first | (simp [hpt]; done) | (cases pt <;> simp at hpt ⊢)); done) | (rw [Agg.checked_only pt (by simp [hpt])]; (repeat' intro _); (try dsimp only) <;> (repeat' split) <;> (first | (simp [hpt]; done) | (cases pt <;> simp at hpt ⊢)); done) | (rw [AggPart.get_foldl]; (repeat' intro _); (try dsimp only) <;> (repeat' split) <;> (first | (simp [hpt]; done) | (cases pt <;> simp at hpt ⊢)); done))
@[simp] theorem Agg.jobRelease_only (pt : AggPart) (hpt : pt ∉ [AggPart.mem, .mbx, .acc, .ap, .jobs, .skim, .codec, .cvu, .stn, .stencil, .scores, .outbox]) (g : Agg) (n : Nat) (tiles : Nat → Nat) : pt.get (Agg.jobRelease g n tiles) = pt.get g := by
  simp at hpt
  unfold Agg.jobRelease
  (try dsimp only) <;> (repeat' split) <;> first | (simp [hpt]; done) | (cases pt <;> simp at hpt ⊢)
@[simp] theorem Agg.jobStatus_only (pt : AggPart) (hpt : pt ∉ [AggPart.mbx, .ap, .jobs, .outbox]) (g : Agg) (c : Caller) : pt.get (Agg.jobStatus g c) = pt.get g := by
  simp at hpt
  unfold Agg.jobStatus
  (try dsimp only) <;> (repeat' split) <;> first | (simp [hpt]; done) | (cases pt <;> simp at hpt ⊢)
@[simp] theorem Agg.modPaste_only (pt : AggPart) (hpt : pt ∉ [AggPart.jobs]) (g : Agg) (i : Nat) (f : Paste → Paste) : pt.get (Agg.modPaste g i f) = pt.get g := by
  simp at hpt
  unfold Agg.modPaste
  (try dsimp only) <;> (repeat' split) <;> first | (simp [hpt]; done) | (cases pt <;> simp at hpt ⊢)
@[simp] theorem Agg.modPaste_regs (g : Agg) (i : Nat) (f : Paste → Paste) : (Agg.modPaste g i f).regs = g.regs := by
  unfold Agg.modPaste
  (try dsimp only) <;> (repeat' split) <;> simp
@[simp] theorem Agg.putPaste_only (pt : AggPart) (hpt : pt ∉ [AggPart.jobs]) (g : Agg) (p : Paste) : pt.get (Agg.putPaste g p) = pt.get g := by
  simp at hpt
  unfold Agg.putPaste
  (try dsimp only) <;> (repeat' split) <;> first | (simp [hpt]; done) | (cases pt <;> simp at hpt ⊢)
@[simp] theorem Agg.putPaste_regs (g : Agg) (p : Paste) : (Agg.putPaste g p).regs = g.regs := by
  unfold Agg.putPaste
  (try dsimp only) <;> (repeat' split) <;> simp
@[simp] theorem Agg.pasteUp_only (pt : AggPart) (hpt : pt ∉ [AggPart.links, .bundle]) (g : Agg) (p : Paste) (cls : Nat) (m : List Byte) : pt.get (Agg.pasteUp g p cls m) = pt.get g := by
  simp at hpt
  unfold Agg.pasteUp
  (try dsimp only) <;> (repeat' split) <;> first | (simp [hpt]; done) | (cases pt <;> simp at hpt ⊢)
@[simp] theorem Agg.pasteUp_regs (g : Agg) (p : Paste) (cls : Nat) (m : List Byte) : (Agg.pasteUp g p cls m).regs = g.regs := by
  unfold Agg.pasteUp
  (try dsimp only) <;> (repeat' split) <;> simp
@[simp] theorem Agg.pasteTo_only (pt : AggPart) (hpt : pt ∉ [AggPart.links, .bundle]) (g : Agg) (dst : Option Nat) (cls : Nat) (m : List Byte) : pt.get (Agg.pasteTo g dst cls m) = pt.get g := by
  simp at hpt
  unfold Agg.pasteTo
  (try dsimp only) <;> (repeat' split) <;> first | (simp [hpt]; done) | (cases pt <;> simp at hpt ⊢)
@[simp] theorem Agg.pasteTo_regs (g : Agg) (dst : Option Nat) (cls : Nat) (m : List Byte) : (Agg.pasteTo g dst cls m).regs = g.regs := by
  unfold Agg.pasteTo
  (try dsimp only) <;> (repeat' split) <;> simp
@[simp] theorem Agg.sendChunk_only (pt : AggPart) (hpt : pt ∉ [AggPart.links, .bundle]) (g : Agg) (p : Paste) (refetch : Bool) (dst : Option Nat) (seq : Nat) (bytes : List Byte) : pt.get (Agg.sendChunk g p refetch dst seq bytes) = pt.get g := by
  simp at hpt
  unfold Agg.sendChunk
  (try dsimp only) <;> (repeat' split) <;> first | (simp [hpt]; done) | (cases pt <;> simp at hpt ⊢)
@[simp] theorem Agg.sendChunk_regs (g : Agg) (p : Paste) (refetch : Bool) (dst : Option Nat) (seq : Nat) (bytes : List Byte) : (Agg.sendChunk g p refetch dst seq bytes).regs = g.regs := by
  unfold Agg.sendChunk
  (try dsimp only) <;> (repeat' split) <;> simp
@[simp] theorem Agg.endWait_only (pt : AggPart) (hpt : pt ∉ [AggPart.mem, .mbx, .ap, .jobs, .stencil, .pair, .outbox]) (g : Agg) (p : Paste) (commit : Bool) (x : PasteWait) : pt.get (Agg.endWait g p commit x) = pt.get g := by
  simp at hpt
  unfold Agg.endWait
  (try dsimp only) <;> (repeat' split) <;> first | (simp [hpt]; done) | (cases pt <;> simp at hpt ⊢)
@[simp] theorem Agg.endWaits_only (pt : AggPart) (hpt : pt ∉ [AggPart.jobs]) (g : Agg) (p : Paste) (f : Agg → PasteWait → Agg) (h : ∀ x y, pt.get (f x y) = pt.get x) : pt.get (Agg.endWaits g p f) = pt.get g := by
  simp at hpt
  unfold Agg.endWaits
  (try dsimp only) <;> (repeat' split) <;> first | (simp [hpt, h]; done) | (cases pt <;> simp [h] at hpt ⊢)
@[simp] theorem Agg.endWaits_regs (g : Agg) (p : Paste) (f : Agg → PasteWait → Agg) (h : ∀ x y, (f x y).regs = x.regs) : (Agg.endWaits g p f).regs = g.regs := by
  unfold Agg.endWaits
  (try dsimp only) <;> (repeat' split) <;> simp [h]
@[simp] theorem Agg.decidePaste_only (pt : AggPart) (hpt : pt ∉ [AggPart.mem, .links, .mbx, .ap, .jobs, .stencil, .pair, .outbox]) (g : Agg) (p : Paste) (commit : Bool) : pt.get (Agg.decidePaste g p commit) = pt.get g := by
  simp at hpt
  unfold Agg.decidePaste
  (try dsimp only) <;> (repeat' split) <;> first | (simp [hpt]; done) | (cases pt <;> simp at hpt ⊢)
@[simp] theorem Agg.tryCommit_only (pt : AggPart) (hpt : pt ∉ [AggPart.mem, .links, .mbx, .ap, .jobs, .stencil, .pair, .outbox]) (g : Agg) (i : Nat) : pt.get (Agg.tryCommit g i) = pt.get g := by
  simp at hpt
  unfold Agg.tryCommit
  (try dsimp only) <;> (repeat' split) <;> first | (simp [hpt]; done) | (cases pt <;> simp at hpt ⊢)
@[simp] theorem Agg.pasteHaveSend_only (pt : AggPart) (hpt : pt ∉ [AggPart.mem, .links, .mbx, .ap, .jobs, .bundle, .stencil, .pair, .outbox]) (g : Agg) (i : Nat) : pt.get (Agg.pasteHaveSend g i) = pt.get g := by
  simp at hpt
  unfold Agg.pasteHaveSend
  (try dsimp only) <;> (repeat' split) <;> first | (simp [hpt]; done) | (cases pt <;> simp at hpt ⊢)
@[simp] theorem Agg.pasteHaveReceive_only (pt : AggPart) (hpt : pt ∉ [AggPart.mem, .links, .mbx, .ap, .jobs, .stencil, .pair, .outbox]) (g : Agg) (src : Option Nat) (m : List Byte) (holds : Bool) : pt.get (Agg.pasteHaveReceive g src m holds) = pt.get g := by
  simp at hpt
  unfold Agg.pasteHaveReceive
  (try dsimp only) <;> (repeat' split) <;> first | (simp [hpt]; done) | (cases pt <;> simp at hpt ⊢)
@[simp] theorem Agg.pasteDeadline_only (pt : AggPart) (hpt : pt ∉ [AggPart.mem, .links, .mbx, .ap, .jobs, .stencil, .pair, .outbox]) (g : Agg) (i : Nat) : pt.get (Agg.pasteDeadline g i) = pt.get g := by
  simp at hpt
  unfold Agg.pasteDeadline
  (try dsimp only) <;> (repeat' split) <;> first | (simp [hpt]; done) | (cases pt <;> simp at hpt ⊢)
@[simp] theorem Agg.pasteDecide_only (pt : AggPart) (hpt : pt ∉ [AggPart.mem, .links, .mbx, .ap, .jobs, .stencil, .elog, .pair, .outbox]) (g : Agg) (m : List Byte) : pt.get (Agg.pasteDecide g m) = pt.get g := by
  simp at hpt
  unfold Agg.pasteDecide
  (try dsimp only) <;> (repeat' split) <;> first | (simp [hpt]; done) | (cases pt <;> simp at hpt ⊢)
@[simp] theorem Agg.fetchRun_only (pt : AggPart) (hpt : pt ∉ [AggPart.links, .bundle]) (g : Agg) (p : Paste) (a : Nat) (y3 : Nat) (y4 : Nat) : pt.get (Agg.fetchRun g p a y3 y4) = pt.get g := by
  simp at hpt
  induction a generalizing g y3 y4 with
  | zero => rfl
  | succ n ih => unfold Agg.fetchRun; (try dsimp only); (repeat' split) <;> first | (simp [hpt, ih]; done) | (cases pt <;> simp [ih] at hpt ⊢)
@[simp] theorem Agg.openPaste_only (pt : AggPart) (g : Agg) (m : List Byte) : pt.get (Agg.openPaste g m).1 = pt.get g := by
  unfold Agg.openPaste
  (try dsimp only) <;> (repeat' split) <;> first | (simp; done) | (cases pt <;> simp)
@[simp] theorem Agg.stageBytes_only (pt : AggPart) (hpt : pt ∉ [AggPart.mem]) (g : Agg) (p : Paste) (seq : Nat) (bytes : List Byte) : pt.get (Agg.stageBytes g p seq bytes) = pt.get g := by
  simp at hpt
  unfold Agg.stageBytes
  split <;> cases pt <;> simp at hpt ⊢
@[simp] theorem Agg.stageBytes_regs (g : Agg) (p : Paste) (seq : Nat) (bytes : List Byte) : (Agg.stageBytes g p seq bytes).regs = g.regs := by
  unfold Agg.stageBytes
  split <;> rfl
@[simp] theorem Agg.pasteChunk_only (pt : AggPart) (hpt : pt ∉ [AggPart.mem, .links, .mbx, .ap, .jobs, .bundle, .stencil, .pair, .outbox]) (g : Agg) (m : List Byte) : pt.get (Agg.pasteChunk g m) = pt.get g := by
  simp at hpt
  unfold Agg.pasteChunk
  (try dsimp only) <;> (repeat' split) <;> first | (simp [hpt]; done) | (cases pt <;> simp at hpt ⊢)
@[simp] theorem Agg.pasteOn_only (pt : AggPart) (hpt : pt ∉ [AggPart.links, .bundle]) (g : Agg) (p : Paste) (src : Option Nat) (m : List Byte) : pt.get (Agg.pasteOn g p src m) = pt.get g := by
  simp at hpt
  unfold Agg.pasteOn
  (try dsimp only) <;> (repeat' split) <;> first | (simp [hpt]; done) | (cases pt <;> simp at hpt ⊢)
@[simp] theorem Agg.pasteOn_regs (g : Agg) (p : Paste) (src : Option Nat) (m : List Byte) : (Agg.pasteOn g p src m).regs = g.regs := by
  unfold Agg.pasteOn
  (try dsimp only) <;> (repeat' split) <;> simp
@[simp] theorem Agg.pasteFetch_only (pt : AggPart) (hpt : pt ∉ [AggPart.links, .jobs, .bundle]) (g : Agg) (src : Option Nat) (m : List Byte) : pt.get (Agg.pasteFetch g src m) = pt.get g := by
  simp at hpt
  unfold Agg.pasteFetch
  (try dsimp only) <;> (repeat' split) <;> first | (simp [hpt]; done) | (cases pt <;> simp at hpt ⊢)
@[simp] theorem Agg.pasteReparent_only (pt : AggPart) (hpt : pt ∉ [AggPart.links, .jobs]) (g : Agg) (i : Nat) (left : Bool) : pt.get (Agg.pasteReparent g i left) = pt.get g := by
  simp at hpt
  unfold Agg.pasteReparent
  (try dsimp only) <;> (repeat' split) <;> first | (simp [hpt]; done) | (cases pt <;> simp at hpt ⊢)
@[simp] theorem Agg.pasteRejoin_only (pt : AggPart) (hpt : pt ∉ [AggPart.links, .jobs, .bundle]) (g : Agg) (k : Nat) (m : List Byte) : pt.get (Agg.pasteRejoin g k m) = pt.get g := by
  simp at hpt
  unfold Agg.pasteRejoin
  (try dsimp only) <;> (repeat' split) <;> first | (simp [hpt]; done) | (cases pt <;> simp at hpt ⊢)
@[simp] theorem Agg.pasteRejoin_regs (g : Agg) (k : Nat) (m : List Byte) : (Agg.pasteRejoin g k m).regs = g.regs := by
  unfold Agg.pasteRejoin
  (try dsimp only) <;> (repeat' split) <;> simp
@[simp] theorem Agg.pasteProbe_only (pt : AggPart) (hpt : pt ∉ [AggPart.links, .jobs, .bundle]) (g : Agg) (i : Nat) : pt.get (Agg.pasteProbe g i) = pt.get g := by
  simp at hpt
  unfold Agg.pasteProbe
  (try dsimp only) <;> (repeat' split) <;> first | (simp [hpt]; done) | (cases pt <;> simp at hpt ⊢)
@[simp] theorem Agg.pasteProbe_regs (g : Agg) (i : Nat) : (Agg.pasteProbe g i).regs = g.regs := by
  unfold Agg.pasteProbe
  (try dsimp only) <;> (repeat' split) <;> simp
@[simp] theorem Agg.pasteAbandon_only (pt : AggPart) (hpt : pt ∉ [AggPart.mbx, .ap, .jobs, .outbox]) (g : Agg) (i : Nat) : pt.get (Agg.pasteAbandon g i) = pt.get g := by
  simp at hpt
  unfold Agg.pasteAbandon
  (try dsimp only) <;> (repeat' split) <;> first | (simp [hpt]; done) | (cases pt <;> simp at hpt ⊢)
@[simp] theorem Agg.pasteFree_only (pt : AggPart) (hpt : pt ∉ [AggPart.jobs]) (g : Agg) : pt.get (Agg.pasteFree g) = pt.get g := by
  simp at hpt
  unfold Agg.pasteFree
  (try dsimp only) <;> (repeat' split) <;> first | (simp [hpt]; done) | (cases pt <;> simp at hpt ⊢)
@[simp] theorem Agg.pasteFree_regs (g : Agg) : (Agg.pasteFree g).regs = g.regs := by
  unfold Agg.pasteFree
  (try dsimp only) <;> (repeat' split) <;> simp
@[simp] theorem Agg.pasteSend_only (pt : AggPart) (hpt : pt ∉ [AggPart.mem, .links, .mbx, .ap, .jobs, .bundle, .stencil, .pair, .outbox]) (g : Agg) (c : Caller) (i : Nat) (addr : Nat) (len : Nat) (deadline : Nat) (membersAddr : Nat) : pt.get (Agg.pasteSend g c i addr len deadline membersAddr) = pt.get g := by
  simp at hpt
  unfold Agg.pasteSend
  (try dsimp only) <;> (repeat' split) <;> (first | (simp (maxDischargeDepth := 5) [hpt]; done) | (rw [Agg.command_only pt (by simp [hpt])]; (repeat' intro _); (try dsimp only) <;> (repeat' split) <;> (first | (simp [hpt]; done) | (cases pt <;> simp at hpt ⊢)); done) | (rw [Agg.checked_only pt (by simp [hpt])]; (repeat' intro _); (try dsimp only) <;> (repeat' split) <;> (first | (simp [hpt]; done) | (cases pt <;> simp at hpt ⊢)); done) | (rw [AggPart.get_foldl]; (repeat' intro _); (try dsimp only) <;> (repeat' split) <;> (first | (simp [hpt]; done) | (cases pt <;> simp at hpt ⊢)); done))
@[simp] theorem Agg.pasteReceive_only (pt : AggPart) (hpt : pt ∉ [AggPart.mem, .mbx, .ap, .jobs, .stencil, .pair, .outbox]) (g : Agg) (c : Caller) (i : Nat) (digest : Nat) : pt.get (Agg.pasteReceive g c i digest) = pt.get g := by
  simp at hpt
  unfold Agg.pasteReceive
  (try dsimp only) <;> (repeat' split) <;> (first | (simp (maxDischargeDepth := 5) [hpt]; done) | (rw [Agg.command_only pt (by simp [hpt])]; (repeat' intro _); (try dsimp only) <;> (repeat' split) <;> (first | (simp [hpt]; done) | (cases pt <;> simp at hpt ⊢)); done) | (rw [Agg.checked_only pt (by simp [hpt])]; (repeat' intro _); (try dsimp only) <;> (repeat' split) <;> (first | (simp [hpt]; done) | (cases pt <;> simp at hpt ⊢)); done) | (rw [AggPart.get_foldl]; (repeat' intro _); (try dsimp only) <;> (repeat' split) <;> (first | (simp [hpt]; done) | (cases pt <;> simp at hpt ⊢)); done))
@[simp] theorem Agg.noteWait_only (pt : AggPart) (hpt : pt ∉ [AggPart.mbx, .chip]) (g : Agg) (n : Nat) (tag : Bool) : pt.get (Agg.noteWait g n tag) = pt.get g := by
  simp at hpt
  unfold Agg.noteWait
  (try dsimp only) <;> (repeat' split) <;> first | (simp [hpt]; done) | (cases pt <;> simp at hpt ⊢)
@[simp] theorem Agg.advanceHead_only (pt : AggPart) (hpt : pt ∉ [AggPart.mbx]) (g : Agg) (n : Nat) : pt.get (Agg.advanceHead g n) = pt.get g := by
  simp at hpt
  unfold Agg.advanceHead
  (try dsimp only) <;> (repeat' split) <;> first | (simp [hpt]; done) | (cases pt <;> simp at hpt ⊢)
@[simp] theorem Agg.advanceHead_regs (g : Agg) (n : Nat) : (Agg.advanceHead g n).regs = g.regs := by
  unfold Agg.advanceHead
  (try dsimp only) <;> (repeat' split) <;> simp
@[simp] theorem Agg.enter_only (pt : AggPart) (hpt : pt ∉ [AggPart.mbx]) (g : Agg) (n : Nat) (pos : Nat) (d : List Byte) (slots : Nat) (shared : Bool) (tagged : Bool) (codes : List Status) (chained : Bool) : pt.get (Agg.enter g n pos d slots shared tagged codes chained) = pt.get g := by
  simp at hpt
  unfold Agg.enter
  (try dsimp only) <;> (repeat' split) <;> first | (simp [hpt]; done) | (cases pt <;> simp at hpt ⊢)
@[simp] theorem Agg.refuseDescr_only (pt : AggPart) (hpt : pt ∉ [AggPart.mbx, .ap, .jobs, .outbox]) (g : Agg) (n : Nat) (pos : Nat) (d : List Byte) (st : Status) : pt.get (Agg.refuseDescr g n pos d st) = pt.get g := by
  simp at hpt
  unfold Agg.refuseDescr
  (try dsimp only) <;> (repeat' split) <;> first | (simp [hpt]; done) | (cases pt <;> simp at hpt ⊢)
@[simp] theorem Agg.getInfo_only (pt : AggPart) (hpt : pt ∉ [AggPart.mbx, .ap, .jobs, .outbox]) (g : Agg) (c : Caller) : pt.get (Agg.getInfo g c) = pt.get g := by
  simp at hpt
  unfold Agg.getInfo
  (try dsimp only) <;> (repeat' split) <;> first | (simp [hpt]; done) | (cases pt <;> simp at hpt ⊢)
@[simp] theorem Agg.readCounters_only (pt : AggPart) (hpt : pt ∉ [AggPart.mem, .mbx, .ap, .jobs, .outbox]) (g : Agg) (c : Caller) (dst : Nat) : pt.get (Agg.readCounters g c dst) = pt.get g := by
  simp at hpt
  unfold Agg.readCounters
  (try dsimp only) <;> (repeat' split) <;> first | (simp [hpt]; done) | (cases pt <;> simp at hpt ⊢)
@[simp] theorem Agg.readGlobal_only (pt : AggPart) (hpt : pt ∉ [AggPart.mem, .mbx, .ap, .jobs, .outbox]) (g : Agg) (c : Caller) (dst : Nat) : pt.get (Agg.readGlobal g c dst) = pt.get g := by
  simp at hpt
  unfold Agg.readGlobal
  (try dsimp only) <;> (repeat' split) <;> first | (simp [hpt]; done) | (cases pt <;> simp at hpt ⊢)
@[simp] theorem Agg.getCaps_only (pt : AggPart) (hpt : pt ∉ [AggPart.mbx, .ap, .jobs, .outbox]) (g : Agg) (c : Caller) : pt.get (Agg.getCaps g c) = pt.get g := by
  simp at hpt
  unfold Agg.getCaps
  (try dsimp only) <;> (repeat' split) <;> first | (simp [hpt]; done) | (cases pt <;> simp at hpt ⊢)
@[simp] theorem Agg.nop_only (pt : AggPart) (hpt : pt ∉ [AggPart.mbx, .ap, .jobs, .outbox]) (g : Agg) (c : Caller) : pt.get (Agg.nop g c) = pt.get g := by
  simp at hpt
  unfold Agg.nop
  (try dsimp only) <;> (repeat' split) <;> first | (simp [hpt]; done) | (cases pt <;> simp at hpt ⊢)
@[simp] theorem Agg.runTime_only (pt : AggPart) (hpt : pt ∉ [AggPart.mem, .time, .ports, .links, .mbx, .acc, .ap, .jobs, .outbox]) (g : Agg) (c : Caller) (op : Nat) (fn : Nat) (p : Nat → Nat) : pt.get (Agg.runTime g c op fn p) = pt.get g := by
  simp at hpt
  unfold Agg.runTime
  (try dsimp only) <;> (repeat' split) <;> first | (simp [hpt]; done) | (cases pt <;> simp at hpt ⊢)
@[simp] theorem Agg.runAtu_only (pt : AggPart) (hpt : pt ∉ [AggPart.ports, .mbx, .acc, .ap, .jobs, .outbox]) (g : Agg) (c : Caller) (op : Nat) (fn : Nat) (p : Nat → Nat) : pt.get (Agg.runAtu g c op fn p) = pt.get g := by
  simp at hpt
  unfold Agg.runAtu
  (try dsimp only) <;> (repeat' split) <;> first | (simp [hpt]; done) | (cases pt <;> simp at hpt ⊢)
@[simp] theorem Agg.runVerdict_only (pt : AggPart) (hpt : pt ∉ [AggPart.mem, .links, .mbx, .ap, .jobs, .bundle, .scores, .verdicts, .outbox]) (g : Agg) (c : Caller) (op : Nat) (fn : Nat) (p : Nat → Nat) : pt.get (Agg.runVerdict g c op fn p) = pt.get g := by
  simp at hpt
  unfold Agg.runVerdict
  (try dsimp only) <;> (repeat' split) <;> first | (simp [hpt]; done) | (cases pt <;> simp at hpt ⊢)
@[simp] theorem Agg.runScore_only (pt : AggPart) (hpt : pt ∉ [AggPart.mem, .links, .mbx, .ap, .jobs, .skim, .stn, .stencil, .outbox]) (g : Agg) (c : Caller) (op : Nat) (fn : Nat) (p : Nat → Nat) (free : Nat → Nat) : pt.get (Agg.runScore g c op fn p free) = pt.get g := by
  simp at hpt
  unfold Agg.runScore
  (try dsimp only) <;> (repeat' split) <;> first | (simp [hpt]; done) | (cases pt <;> simp at hpt ⊢)
@[simp] theorem Agg.runJob_only (pt : AggPart) (hpt : pt ∉ [AggPart.mem, .ports, .links, .mbx, .acc, .ap, .jobs, .skim, .bundle, .codec, .cvu, .stn, .stencil, .scores, .pair, .outbox]) (g : Agg) (c : Caller) (op : Nat) (fn : Nat) (p : Nat → Nat) (free : Nat → Nat) : pt.get (Agg.runJob g c op fn p free) = pt.get g := by
  simp at hpt
  unfold Agg.runJob
  (try dsimp only) <;> (repeat' split) <;> first | (simp [hpt]; done) | (cases pt <;> simp at hpt ⊢)
@[simp] theorem Agg.waitGraph_only (pt : AggPart) (hpt : pt ∉ [AggPart.mem, .mbx, .ap, .jobs, .elog, .outbox]) (g : Agg) (c : Caller) (chip : Bool) (dst : Nat) (mx : Nat) : pt.get (Agg.waitGraph g c chip dst mx) = pt.get g := by
  simp at hpt
  unfold Agg.waitGraph
  (try dsimp only) <;> (repeat' split) <;> first | (simp [hpt]; done) | (cases pt <;> simp at hpt ⊢)
@[simp] theorem Agg.withAp_only (pt : AggPart) (hpt : pt ∉ [AggPart.ap]) (g : Agg) (f : ApUnit → ApUnit) : pt.get (Agg.withAp g f) = pt.get g := by
  simp at hpt
  unfold Agg.withAp
  (try dsimp only) <;> (repeat' split) <;> first | (simp [hpt]; done) | (cases pt <;> simp at hpt ⊢)
@[simp] theorem Agg.withAp_regs (g : Agg) (f : ApUnit → ApUnit) : (Agg.withAp g f).regs = g.regs := by
  unfold Agg.withAp
  (try dsimp only) <;> (repeat' split) <;> simp
@[simp] theorem Agg.setWindow_only (pt : AggPart) (hpt : pt ∉ [AggPart.ap]) (g : Agg) (w : Nat) (x : Window) : pt.get (Agg.setWindow g w x) = pt.get g := by
  simp at hpt
  unfold Agg.setWindow
  (try dsimp only) <;> (repeat' split) <;> first | (simp [hpt]; done) | (cases pt <;> simp at hpt ⊢)
@[simp] theorem Agg.setWindow_regs (g : Agg) (w : Nat) (x : Window) : (Agg.setWindow g w x).regs = g.regs := by
  unfold Agg.setWindow
  (try dsimp only) <;> (repeat' split) <;> simp
@[simp] theorem Agg.windowRevoke_only (pt : AggPart) (hpt : pt ∉ [AggPart.mbx, .ap, .jobs, .outbox]) (g : Agg) (c : Caller) (w : Nat) (rkey : Nat) : pt.get (Agg.windowRevoke g c w rkey) = pt.get g := by
  simp at hpt
  unfold Agg.windowRevoke
  (try dsimp only) <;> (repeat' split) <;> first | (simp [hpt]; done) | (cases pt <;> simp at hpt ⊢)
@[simp] theorem Agg.cacheRoom_only (pt : AggPart) (hpt : pt ∉ [AggPart.ap]) (g : Agg) : pt.get (Agg.cacheRoom g).1 = pt.get g := by
  simp at hpt
  unfold Agg.cacheRoom
  (try dsimp only) <;> (repeat' split) <;> first | (simp [hpt]; done) | (cases pt <;> simp at hpt ⊢)
@[simp] theorem Agg.cacheRoom_regs (g : Agg) : (Agg.cacheRoom g).1.regs = g.regs := by
  unfold Agg.cacheRoom
  (try dsimp only) <;> (repeat' split) <;> simp
@[simp] theorem Agg.qpCreate_only (pt : AggPart) (hpt : pt ∉ [AggPart.mbx, .ap, .jobs, .outbox]) (g : Agg) (c : Caller) (pd : Nat) (a : QpArgs) : pt.get (Agg.qpCreate g c pd a) = pt.get g := by
  simp at hpt
  unfold Agg.qpCreate
  (try dsimp only) <;> (repeat' split) <;> first | (simp [hpt]; done) | (cases pt <;> simp at hpt ⊢)
@[simp] theorem Agg.silence_only (pt : AggPart) (hpt : pt ∉ [AggPart.ap]) (g : Agg) (qpn : Nat) (port : Nat) (cs : List Nat) : pt.get (Agg.silence g qpn port cs) = pt.get g := by
  simp at hpt
  unfold Agg.silence
  (try dsimp only) <;> (repeat' split) <;> first | (simp [hpt]; done) | (cases pt <;> simp at hpt ⊢)
@[simp] theorem Agg.silence_regs (g : Agg) (qpn : Nat) (port : Nat) (cs : List Nat) : (Agg.silence g qpn port cs).regs = g.regs := by
  unfold Agg.silence
  (try dsimp only) <;> (repeat' split) <;> simp
@[simp] theorem Agg.nakQp_only (pt : AggPart) (hpt : pt ∉ [AggPart.ap]) (g : Agg) (qpn : Nat) (q : Qp) (psn : Nat) (code : Nat) (flagNo : Nat) : pt.get (Agg.nakQp g qpn q psn code flagNo) = pt.get g := by
  simp at hpt
  unfold Agg.nakQp
  (try dsimp only) <;> (repeat' split) <;> first | (simp [hpt]; done) | (cases pt <;> simp at hpt ⊢)
@[simp] theorem Agg.nakAccess_only (pt : AggPart) (hpt : pt ∉ [AggPart.mbx, .ap, .jobs]) (g : Agg) (qpn : Nat) (q : Qp) (psn : Nat) (addr : Nat) : pt.get (Agg.nakAccess g qpn q psn addr) = pt.get g := by
  simp at hpt
  unfold Agg.nakAccess
  (try dsimp only) <;> (repeat' split) <;> first | (simp [hpt]; done) | (cases pt <;> simp at hpt ⊢)
@[simp] theorem Agg.cutRead_only (pt : AggPart) (hpt : pt ∉ [AggPart.mbx, .ap, .jobs]) (g : Agg) (r : ReadOut) : pt.get (Agg.cutRead g r) = pt.get g := by
  simp at hpt
  unfold Agg.cutRead
  (try dsimp only) <;> (repeat' split) <;> first | (simp [hpt]; done) | (cases pt <;> simp at hpt ⊢)
@[simp] theorem Agg.rewriteCq_only (pt : AggPart) (hpt : pt ∉ [AggPart.ap]) (g : Agg) (qpn : Nat) : pt.get (Agg.rewriteCq g qpn) = pt.get g := by
  simp at hpt
  unfold Agg.rewriteCq
  (try dsimp only) <;> (repeat' split) <;> first | (simp [hpt]; done) | (cases pt <;> simp at hpt ⊢)
@[simp] theorem Agg.rewriteCq_regs (g : Agg) (qpn : Nat) : (Agg.rewriteCq g qpn).regs = g.regs := by
  unfold Agg.rewriteCq
  (try dsimp only) <;> (repeat' split) <;> simp
@[simp] theorem Agg.endQpDrain_only (pt : AggPart) (hpt : pt ∉ [AggPart.mbx, .ap, .jobs, .outbox]) (g : Agg) (qpn : Nat) (q : Qp) (d : QpDrain) : pt.get (Agg.endQpDrain g qpn q d) = pt.get g := by
  simp at hpt
  unfold Agg.endQpDrain
  (try dsimp only) <;> (repeat' split) <;> first | (simp [hpt]; done) | (cases pt <;> simp at hpt ⊢)
@[simp] theorem Agg.drainQp_only (pt : AggPart) (hpt : pt ∉ [AggPart.mbx, .ap, .jobs, .outbox]) (g : Agg) (qpn : Nat) (d : QpDrain) : pt.get (Agg.drainQp g qpn d) = pt.get g := by
  simp at hpt
  unfold Agg.drainQp
  (try dsimp only) <;> (repeat' split) <;> first | (simp [hpt]; done) | (cases pt <;> simp at hpt ⊢)
@[simp] theorem Agg.qpReconnect_only (pt : AggPart) (hpt : pt ∉ [AggPart.mbx, .ap, .jobs, .outbox]) (g : Agg) (c : Caller) (qpn : Nat) (a : QpArgs) : pt.get (Agg.qpReconnect g c qpn a) = pt.get g := by
  simp at hpt
  unfold Agg.qpReconnect
  (try dsimp only) <;> (repeat' split) <;> (first | (simp (maxDischargeDepth := 5) [hpt]; done) | (rw [Agg.command_only pt (by simp [hpt])]; (repeat' intro _); (try dsimp only) <;> (repeat' split) <;> (first | (simp [hpt]; done) | (cases pt <;> simp at hpt ⊢)); done) | (rw [Agg.checked_only pt (by simp [hpt])]; (repeat' intro _); (try dsimp only) <;> (repeat' split) <;> (first | (simp [hpt]; done) | (cases pt <;> simp at hpt ⊢)); done) | (rw [AggPart.get_foldl]; (repeat' intro _); (try dsimp only) <;> (repeat' split) <;> (first | (simp [hpt]; done) | (cases pt <;> simp at hpt ⊢)); done))
@[simp] theorem Agg.violationRead_only (pt : AggPart) (hpt : pt ∉ [AggPart.mem, .mbx, .ap, .jobs, .outbox]) (g : Agg) (c : Caller) (from_ : Nat) (mx : Nat) (dst : Nat) : pt.get (Agg.violationRead g c from_ mx dst) = pt.get g := by
  simp at hpt
  unfold Agg.violationRead
  (try dsimp only) <;> (repeat' split) <;> first | (simp [hpt]; done) | (cases pt <;> simp at hpt ⊢)
@[simp] theorem Agg.eventLogRead_only (pt : AggPart) (hpt : pt ∉ [AggPart.mem, .mbx, .ap, .jobs, .outbox]) (g : Agg) (c : Caller) (from_ : Nat) (mx : Nat) (dst : Nat) : pt.get (Agg.eventLogRead g c from_ mx dst) = pt.get g := by
  simp at hpt
  unfold Agg.eventLogRead
  (try dsimp only) <;> (repeat' split) <;> first | (simp [hpt]; done) | (cases pt <;> simp at hpt ⊢)
@[simp] theorem Agg.recorderRead_only (pt : AggPart) (hpt : pt ∉ [AggPart.ports, .mbx, .acc, .ap, .jobs, .outbox]) (g : Agg) (c : Caller) (port : Nat) (from_ : Nat) (mx : Nat) (dst : Nat) : pt.get (Agg.recorderRead g c port from_ mx dst) = pt.get g := by
  simp at hpt
  unfold Agg.recorderRead
  (try dsimp only) <;> (repeat' split) <;> first | (simp [hpt]; done) | (cases pt <;> simp at hpt ⊢)
@[simp] theorem Agg.logRead_only (pt : AggPart) (hpt : pt ∉ [AggPart.mem, .ports, .mbx, .acc, .ap, .jobs, .outbox]) (g : Agg) (c : Caller) (source : Nat) (port : Nat) (from_ : Nat) (mx : Nat) (dst : Nat) : pt.get (Agg.logRead g c source port from_ mx dst) = pt.get g := by
  simp at hpt
  unfold Agg.logRead
  (try dsimp only) <;> (repeat' split) <;> first | (simp [hpt]; done) | (cases pt <;> simp at hpt ⊢)
@[simp] theorem Agg.withPair_only (pt : AggPart) (hpt : pt ∉ [AggPart.pair]) (g : Agg) (f : PairUnit → PairUnit) : pt.get (Agg.withPair g f) = pt.get g := by
  simp at hpt
  unfold Agg.withPair
  (try dsimp only) <;> (repeat' split) <;> first | (simp [hpt]; done) | (cases pt <;> simp at hpt ⊢)
@[simp] theorem Agg.withPair_regs (g : Agg) (f : PairUnit → PairUnit) : (Agg.withPair g f).regs = g.regs := by
  unfold Agg.withPair
  (try dsimp only) <;> (repeat' split) <;> simp
@[simp] theorem Agg.endAsk_only (pt : AggPart) (hpt : pt ∉ [AggPart.links, .pair]) (g : Agg) : pt.get (Agg.endAsk g) = pt.get g := by
  simp at hpt
  unfold Agg.endAsk
  (try dsimp only) <;> (repeat' split) <;> first | (simp [hpt]; done) | (cases pt <;> simp at hpt ⊢)
@[simp] theorem Agg.endAsk_regs (g : Agg) : (Agg.endAsk g).regs = g.regs := by
  unfold Agg.endAsk
  (try dsimp only) <;> (repeat' split) <;> simp
@[simp] theorem Agg.failSync_only (pt : AggPart) (hpt : pt ∉ [AggPart.links, .mbx, .ap, .jobs, .pair, .outbox]) (g : Agg) (st : Status) : pt.get (Agg.failSync g st) = pt.get g := by
  simp at hpt
  unfold Agg.failSync
  (try dsimp only) <;> (repeat' split) <;> first | (simp [hpt]; done) | (cases pt <;> simp at hpt ⊢)
@[simp] theorem Agg.askKeeper_only (pt : AggPart) (hpt : pt ∉ [AggPart.links, .mbx, .ap, .jobs, .pair, .outbox]) (g : Agg) : pt.get (Agg.askKeeper g) = pt.get g := by
  simp at hpt
  unfold Agg.askKeeper
  (try dsimp only) <;> (repeat' split) <;> first | (simp [hpt]; done) | (cases pt <;> simp at hpt ⊢)
@[simp] theorem Agg.syncStart_only (pt : AggPart) (hpt : pt ∉ [AggPart.links, .mbx, .ap, .jobs, .bundle, .pair, .outbox]) (g : Agg) (c : Caller) (source : Nat) (fallback : Bool) (theirs : Option (List Byte)) : pt.get (Agg.syncStart g c source fallback theirs) = pt.get g := by
  simp at hpt
  unfold Agg.syncStart
  (try dsimp only) <;> (repeat' split) <;> first | (simp [hpt]; done) | (cases pt <;> simp at hpt ⊢)
@[simp] theorem Agg.qpDestroy_only (pt : AggPart) (hpt : pt ∉ [AggPart.mbx, .ap, .jobs, .outbox]) (g : Agg) (c : Caller) (qpn : Nat) : pt.get (Agg.qpDestroy g c qpn) = pt.get g := by
  simp at hpt
  unfold Agg.qpDestroy
  (try dsimp only) <;> (repeat' split) <;> (first | (simp (maxDischargeDepth := 5) [hpt]; done) | (rw [Agg.command_only pt (by simp [hpt])]; (repeat' intro _); (try dsimp only) <;> (repeat' split) <;> (first | (simp [hpt]; done) | (cases pt <;> simp at hpt ⊢)); done) | (rw [Agg.checked_only pt (by simp [hpt])]; (repeat' intro _); (try dsimp only) <;> (repeat' split) <;> (first | (simp [hpt]; done) | (cases pt <;> simp at hpt ⊢)); done) | (rw [AggPart.get_foldl]; (repeat' intro _); (try dsimp only) <;> (repeat' split) <;> (first | (simp [hpt]; done) | (cases pt <;> simp at hpt ⊢)); done))
@[simp] theorem Agg.pdCreate_only (pt : AggPart) (hpt : pt ∉ [AggPart.mbx, .ap, .jobs, .outbox]) (g : Agg) (c : Caller) : pt.get (Agg.pdCreate g c) = pt.get g := by
  simp at hpt
  unfold Agg.pdCreate
  (try dsimp only) <;> (repeat' split) <;> first | (simp [hpt]; done) | (cases pt <;> simp at hpt ⊢)
@[simp] theorem Agg.pdDestroy_only (pt : AggPart) (hpt : pt ∉ [AggPart.mbx, .ap, .jobs, .outbox]) (g : Agg) (c : Caller) (pd : Nat) : pt.get (Agg.pdDestroy g c pd) = pt.get g := by
  simp at hpt
  unfold Agg.pdDestroy
  (try dsimp only) <;> (repeat' split) <;> first | (simp [hpt]; done) | (cases pt <;> simp at hpt ⊢)
@[simp] theorem Agg.windowOpen_only (pt : AggPart) (hpt : pt ∉ [AggPart.mbx, .ap, .jobs, .outbox]) (g : Agg) (c : Caller) (pd : Nat) (base : Nat) (len : Nat) (access : Nat) (qpn : Option Nat) (notify : Bool) : pt.get (Agg.windowOpen g c pd base len access qpn notify) = pt.get g := by
  simp at hpt
  unfold Agg.windowOpen
  (try dsimp only) <;> (repeat' split) <;> first | (simp [hpt]; done) | (cases pt <;> simp at hpt ⊢)
@[simp] theorem Agg.pairStatus_only (pt : AggPart) (hpt : pt ∉ [AggPart.mbx, .ap, .jobs, .outbox]) (g : Agg) (c : Caller) : pt.get (Agg.pairStatus g c) = pt.get g := by
  simp at hpt
  unfold Agg.pairStatus
  (try dsimp only) <;> (repeat' split) <;> first | (simp [hpt]; done) | (cases pt <;> simp at hpt ⊢)
@[simp] theorem Agg.runUnit_only (pt : AggPart) (hpt : pt ∉ [AggPart.mem, .ports, .links, .mbx, .acc, .ap, .jobs, .bundle, .codec, .cvu, .elog, .pwr, .pair, .eeprom, .outbox]) (g : Agg) (c : Caller) (op : Nat) (fn : Nat) (p : Nat → Nat) : pt.get (Agg.runUnit g c op fn p) = pt.get g := by
  simp at hpt
  unfold Agg.runUnit
  (try dsimp only) <;> (repeat' split) <;> first | (simp [hpt]; done) | (cases pt <;> simp at hpt ⊢)
@[simp] theorem Agg.runDescr_only (pt : AggPart) (hpt : pt ∉ [AggPart.mem, .time, .ports, .links, .mbx, .acc, .ap, .jobs, .skim, .bundle, .codec, .cvu, .stn, .stencil, .scores, .verdicts, .elog, .pwr, .pair, .eeprom, .outbox]) (g : Agg) (c : Caller) (op : Nat) (fn : Nat) (p : Nat → Nat) (free : Nat → Nat) : pt.get (Agg.runDescr g c op fn p free) = pt.get g := by
  simp at hpt
  unfold Agg.runDescr
  (try dsimp only) <;> (repeat' split) <;> first | (simp [hpt]; done) | (cases pt <;> simp at hpt ⊢)
@[simp] theorem Agg.runParams_only (pt : AggPart) (hpt : pt ∉ [AggPart.mem, .time, .ports, .links, .mbx, .acc, .ap, .jobs, .skim, .bundle, .codec, .cvu, .stn, .stencil, .scores, .verdicts, .elog, .pwr, .pair, .eeprom, .outbox]) (g : Agg) (n : Nat) (d : List Byte) (free : Nat → Nat) : pt.get (Agg.runParams g n d free) = pt.get g := by
  simp at hpt
  unfold Agg.runParams
  (try dsimp only) <;> (repeat' split) <;> first | (simp [hpt]; done) | (cases pt <;> simp at hpt ⊢)
theorem Agg.admitAt_only (pt : AggPart) (hpt : pt ∉ [AggPart.mem, .time, .ports, .links, .mbx, .acc, .ap, .jobs, .skim, .bundle, .codec, .cvu, .stn, .stencil, .scores, .verdicts, .elog, .pwr, .pair, .eeprom, .chip, .outbox]) {g : Agg} {n pos : Nat} {free : Nat → Nat} {g' : Agg} (h : g.admitAt n pos free = .ok g' ∨ g.admitAt n pos free = .error g') : pt.get g' = pt.get g := by
  simp at hpt
  unfold Agg.admitAt at h
  dsimp only at h
  repeat' split at h
  all_goals simp only [Except.ok.injEq, Except.error.injEq, reduceCtorEq, or_false, false_or] at h
  all_goals subst h
  all_goals simp [hpt]
@[simp] theorem Agg.admitAhead_only (pt : AggPart) (hpt : pt ∉ [AggPart.mem, .time, .ports, .links, .mbx, .acc, .ap, .jobs, .skim, .bundle, .codec, .cvu, .stn, .stencil, .scores, .verdicts, .elog, .pwr, .pair, .eeprom, .chip, .outbox]) (g : Agg) (free : Nat → Nat) : pt.get (Agg.admitAhead g free) = pt.get g := by
  unfold Agg.admitAhead
  repeat' split
  · rfl
  · next h => have b := Agg.admitAt_only pt hpt (.inl h); simp at hpt; simp [hpt, b]
  · rfl
@[simp] theorem Agg.descriptorAdmit_only (pt : AggPart) (hpt : pt ∉ [AggPart.mem, .time, .ports, .links, .mbx, .acc, .ap, .jobs, .skim, .bundle, .codec, .cvu, .stn, .stencil, .scores, .verdicts, .elog, .pwr, .pair, .eeprom, .chip, .outbox]) (g : Agg) (n : Nat) (free : Nat → Nat) : pt.get (Agg.descriptorAdmit g n free) = pt.get g := by
  unfold Agg.descriptorAdmit
  dsimp only
  split
  · rfl
  · split
    · next h =>
      have b := Agg.admitAt_only pt hpt (.inl h); simp at hpt
      split <;> simp [hpt, b]
    · next h =>
      have b := Agg.admitAt_only pt hpt (.inr h)
      split <;> simp [hpt, b]
@[simp] theorem Agg.ringFault_only (pt : AggPart) (hpt : pt ∉ [AggPart.mbx, .ap, .chip, .outbox]) (g : Agg) (n : Nat) : pt.get (Agg.ringFault g n) = pt.get g := by
  simp at hpt
  unfold Agg.ringFault
  (try dsimp only) <;> (repeat' split) <;> first | (simp [hpt]; done) | (cases pt <;> simp at hpt ⊢)
@[simp] theorem Agg.sqDoorbell_only (pt : AggPart) (hpt : pt ∉ [AggPart.mbx, .ap, .chip, .outbox]) (g : Agg) (n : Nat) (v : Nat) : pt.get (Agg.sqDoorbell g n v) = pt.get g := by
  simp at hpt
  unfold Agg.sqDoorbell
  (try dsimp only) <;> (repeat' split) <;> first | (simp [hpt]; done) | (cases pt <;> simp at hpt ⊢)
@[simp] theorem Agg.cqHeadWrite_only (pt : AggPart) (hpt : pt ∉ [AggPart.mbx]) (g : Agg) (n : Nat) (v : Nat) : pt.get (Agg.cqHeadWrite g n v) = pt.get g := by
  simp at hpt
  unfold Agg.cqHeadWrite
  (try dsimp only) <;> (repeat' split) <;> first | (simp [hpt]; done) | (cases pt <;> simp at hpt ⊢)
@[simp] theorem Agg.cqHeadWrite_regs (g : Agg) (n : Nat) (v : Nat) : (Agg.cqHeadWrite g n v).regs = g.regs := by
  unfold Agg.cqHeadWrite
  (try dsimp only) <;> (repeat' split) <;> simp
@[simp] theorem Agg.mbxRestart_only (pt : AggPart) (hpt : pt ∉ [AggPart.mbx]) (g : Agg) (n : Nat) : pt.get (Agg.mbxRestart g n) = pt.get g := by
  simp at hpt
  unfold Agg.mbxRestart
  (try dsimp only) <;> (repeat' split) <;> first | (simp [hpt]; done) | (cases pt <;> simp at hpt ⊢)
@[simp] theorem Agg.mbxRestart_regs (g : Agg) (n : Nat) : (Agg.mbxRestart g n).regs = g.regs := by
  unfold Agg.mbxRestart
  (try dsimp only) <;> (repeat' split) <;> simp
@[simp] theorem Agg.udpDrop_only (pt : AggPart) (hpt : pt ∉ [AggPart.mbx, .jobs, .chip]) (g : Agg) (ring : Nat) : pt.get (Agg.udpDrop g ring) = pt.get g := by
  simp at hpt
  unfold Agg.udpDrop
  (try dsimp only) <;> (repeat' split) <;> first | (simp [hpt]; done) | (cases pt <;> simp at hpt ⊢)
@[simp] theorem Agg.submit_only (pt : AggPart) (hpt : pt ∉ [AggPart.mbx, .outbox]) (g : Agg) (n : Nat) (i : Nat) (p : Peer) (m : List Byte) : pt.get (Agg.submit g n i p m) = pt.get g := by
  simp at hpt
  unfold Agg.submit
  (try dsimp only) <;> (repeat' split) <;> first | (simp [hpt]; done) | (cases pt <;> simp at hpt ⊢)
@[simp] theorem Agg.submit_regs (g : Agg) (n : Nat) (i : Nat) (p : Peer) (m : List Byte) : (Agg.submit g n i p m).regs = g.regs := by
  unfold Agg.submit
  (try dsimp only) <;> (repeat' split) <;> simp
@[simp] theorem Agg.udpAck_only (pt : AggPart) (hpt : pt ∉ [AggPart.mbx]) (g : Agg) (n : Nat) (i : Nat) (p : Peer) (m : List Byte) : pt.get (Agg.udpAck g n i p m) = pt.get g := by
  simp at hpt
  unfold Agg.udpAck
  (try dsimp only) <;> (repeat' split) <;> first | (simp [hpt]; done) | (cases pt <;> simp at hpt ⊢)
@[simp] theorem Agg.udpAck_regs (g : Agg) (n : Nat) (i : Nat) (p : Peer) (m : List Byte) : (Agg.udpAck g n i p m).regs = g.regs := by
  unfold Agg.udpAck
  (try dsimp only) <;> (repeat' split) <;> simp
@[simp] theorem Agg.udpResend_only (pt : AggPart) (hpt : pt ∉ [AggPart.outbox]) (g : Agg) (n : Nat) (p : Peer) (m : List Byte) : pt.get (Agg.udpResend g n p m) = pt.get g := by
  simp at hpt
  unfold Agg.udpResend
  (try dsimp only) <;> (repeat' split) <;> first | (simp [hpt]; done) | (cases pt <;> simp at hpt ⊢)
@[simp] theorem Agg.udpResend_regs (g : Agg) (n : Nat) (p : Peer) (m : List Byte) : (Agg.udpResend g n p m).regs = g.regs := by
  unfold Agg.udpResend
  (try dsimp only) <;> (repeat' split) <;> simp
@[simp] theorem Agg.datagramIn_only (pt : AggPart) (hpt : pt ∉ [AggPart.mbx, .jobs, .chip, .outbox]) (g : Agg) (addr : Nat) (port : Nat) (m : List Byte) : pt.get (Agg.datagramIn g addr port m) = pt.get g := by
  simp at hpt
  unfold Agg.datagramIn
  (try dsimp only) <;> (repeat' split) <;> first | (simp [hpt]; done) | (cases pt <;> simp at hpt ⊢)
@[simp] theorem Agg.readReg_only (pt : AggPart) (hpt : pt ∉ [AggPart.stencil]) (g : Agg) (off : Nat) : pt.get (Agg.readReg g off).1 = pt.get g := by
  simp at hpt
  unfold Agg.readReg
  (try dsimp only) <;> (repeat' split) <;> first | (simp [hpt]; done) | (cases pt <;> simp at hpt ⊢)
@[simp] theorem Agg.triggered_only (pt : AggPart) (hpt : pt ∉ [AggPart.gates, .mbx, .ap, .elog, .pwr, .si, .chip, .outbox]) (g : Agg) (off : Nat) (old : Word) (v : Word) : pt.get (Agg.triggered g off old v) = pt.get g := by
  simp at hpt
  unfold Agg.triggered
  (try dsimp only) <;> (repeat' split) <;> first | (simp [hpt]; done) | (cases pt <;> simp at hpt ⊢)
@[simp] theorem Agg.writeReg_only (pt : AggPart) (hpt : pt ∉ [AggPart.gates, .mbx, .ap, .elog, .pwr, .si, .chip, .outbox]) (g : Agg) (off : Nat) (v : Word) : pt.get (Agg.writeReg g off v) = pt.get g := by
  simp at hpt
  unfold Agg.writeReg
  (try dsimp only) <;> (repeat' split) <;> first | (simp [hpt]; done) | (cases pt <;> simp at hpt ⊢)
@[simp] theorem Agg.withBoot_only (pt : AggPart) (hpt : pt ∉ [AggPart.boot]) (g : Agg) (f : BootUnit → BootUnit) : pt.get (Agg.withBoot g f) = pt.get g := by
  simp at hpt
  unfold Agg.withBoot
  (try dsimp only) <;> (repeat' split) <;> first | (simp [hpt]; done) | (cases pt <;> simp at hpt ⊢)
@[simp] theorem Agg.withBoot_regs (g : Agg) (f : BootUnit → BootUnit) : (Agg.withBoot g f).regs = g.regs := by
  unfold Agg.withBoot
  (try dsimp only) <;> (repeat' split) <;> simp
@[simp] theorem Agg.bootErr_only (pt : AggPart) (g : Agg) (code : Nat) : pt.get (Agg.bootErr g code) = pt.get g := by
  unfold Agg.bootErr
  (try dsimp only) <;> (repeat' split) <;> first | (simp; done) | (cases pt <;> simp)
@[simp] theorem Agg.coreLost_only (pt : AggPart) (hpt : pt ∉ [AggPart.mem, .ident, .time, .ports, .links, .gates, .mbx, .acc, .ap, .jobs, .skim, .codec, .cvu, .ingest, .stn, .stencil, .scores, .verdicts, .pwr, .pair, .boot, .chip, .chipShown]) (g : Agg) : pt.get (Agg.coreLost g) = pt.get g := by
  simp at hpt
  unfold Agg.coreLost
  (try dsimp only) <;> (repeat' split) <;> first | (simp [hpt]; done) | (cases pt <;> simp at hpt ⊢)
@[simp] theorem Agg.stopCore_only (pt : AggPart) (hpt : pt ∉ [AggPart.mem, .ident, .time, .ports, .links, .gates, .mbx, .acc, .ap, .jobs, .skim, .codec, .cvu, .ingest, .stn, .stencil, .scores, .verdicts, .pwr, .pair, .boot, .chip, .chipShown]) (g : Agg) (st : CoreState) : pt.get (Agg.stopCore g st) = pt.get g := by
  simp at hpt
  unfold Agg.stopCore
  (try dsimp only) <;> (repeat' split) <;> first | (simp [hpt]; done) | (cases pt <;> simp at hpt ⊢)
@[simp] theorem Agg.program_only (pt : AggPart) (hpt : pt ∉ [AggPart.eeprom]) (g : Agg) (prog : List (Nat × List Byte)) : pt.get (Agg.program g prog) = pt.get g := by
  simp at hpt
  unfold Agg.program
  (try dsimp only) <;> (repeat' split) <;> first | (simp [hpt]; done) | (cases pt <;> simp at hpt ⊢)
@[simp] theorem Agg.program_regs (g : Agg) (prog : List (Nat × List Byte)) : (Agg.program g prog).regs = g.regs := by
  unfold Agg.program
  (try dsimp only) <;> (repeat' split) <;> simp
@[simp] theorem Agg.startPrimer_only (pt : AggPart) (hpt : pt ∉ [AggPart.boot]) (g : Agg) : pt.get (Agg.startPrimer g) = pt.get g := by
  simp at hpt
  unfold Agg.startPrimer
  (try dsimp only) <;> (repeat' split) <;> first | (simp [hpt]; done) | (cases pt <;> simp at hpt ⊢)
@[simp] theorem Agg.restart_only (pt : AggPart) (hpt : pt ∉ [AggPart.si, .boot]) (g : Agg) (coolant : Bool) : pt.get (Agg.restart g coolant) = pt.get g := by
  simp at hpt
  unfold Agg.restart
  (try dsimp only) <;> (repeat' split) <;> first | (simp [hpt]; done) | (cases pt <;> simp at hpt ⊢)
@[simp] theorem Agg.primerFetch_only (pt : AggPart) (hpt : pt ∉ [AggPart.links, .bundle, .boot, .outbox]) (g : Agg) : pt.get (Agg.primerFetch g) = pt.get g := by
  simp at hpt
  unfold Agg.primerFetch
  (try dsimp only) <;> (repeat' split) <;> first | (simp [hpt]; done) | (cases pt <;> simp at hpt ⊢)
@[simp] theorem Agg.primerFetch_regs (g : Agg) : (Agg.primerFetch g).regs = g.regs := by
  unfold Agg.primerFetch
  (try dsimp only) <;> (repeat' split) <;> simp
@[simp] theorem Agg.sourceFail_only (pt : AggPart) (hpt : pt ∉ [AggPart.boot]) (g : Agg) : pt.get (Agg.sourceFail g) = pt.get g := by
  simp at hpt
  unfold Agg.sourceFail
  (try dsimp only) <;> (repeat' split) <;> first | (simp [hpt]; done) | (cases pt <;> simp at hpt ⊢)
@[simp] theorem Agg.sourceTimeout_only (pt : AggPart) (hpt : pt ∉ [AggPart.boot]) (g : Agg) : pt.get (Agg.sourceTimeout g) = pt.get g := by
  simp at hpt
  unfold Agg.sourceTimeout
  (try dsimp only) <;> (repeat' split) <;> first | (simp [hpt]; done) | (cases pt <;> simp at hpt ⊢)
@[simp] theorem Agg.passWaitEnd_only (pt : AggPart) (hpt : pt ∉ [AggPart.boot]) (g : Agg) : pt.get (Agg.passWaitEnd g) = pt.get g := by
  simp at hpt
  unfold Agg.passWaitEnd
  (try dsimp only) <;> (repeat' split) <;> first | (simp [hpt]; done) | (cases pt <;> simp at hpt ⊢)
@[simp] theorem Agg.passWaitEnd_regs (g : Agg) : (Agg.passWaitEnd g).regs = g.regs := by
  unfold Agg.passWaitEnd
  (try dsimp only) <;> (repeat' split) <;> simp
@[simp] theorem Agg.enableSites_only (pt : AggPart) (g : Agg) : pt.get (Agg.enableSites g) = pt.get g := by
  unfold Agg.enableSites
  (try dsimp only) <;> (repeat' split) <;> first | (simp; done) | (cases pt <;> simp)
@[simp] theorem Agg.startFirmware_only (pt : AggPart) (hpt : pt ∉ [AggPart.ident, .mbx, .stn, .pwr, .boot]) (g : Agg) (m : List Byte) (session : Nat) : pt.get (Agg.startFirmware g m session) = pt.get g := by
  simp at hpt
  unfold Agg.startFirmware
  (try dsimp only) <;> (repeat' split) <;> first | (simp [hpt]; done) | (cases pt <;> simp at hpt ⊢)
@[simp] theorem Agg.imageCheck_only (pt : AggPart) (hpt : pt ∉ [AggPart.ident, .mbx, .stn, .pwr, .boot]) (g : Agg) (m : Option (List Byte)) (free : Nat → Nat) : pt.get (Agg.imageCheck g m free) = pt.get g := by
  simp at hpt
  unfold Agg.imageCheck
  (try dsimp only) <;> (repeat' split) <;> first | (simp [hpt]; done) | (cases pt <;> simp at hpt ⊢)
@[simp] theorem Agg.imageRequest_only (pt : AggPart) (hpt : pt ∉ [AggPart.links, .bundle]) (g : Agg) : pt.get (Agg.imageRequest g) = pt.get g := by
  simp at hpt
  unfold Agg.imageRequest
  (try dsimp only) <;> (repeat' split) <;> first | (simp [hpt]; done) | (cases pt <;> simp at hpt ⊢)
@[simp] theorem Agg.imageRequest_regs (g : Agg) : (Agg.imageRequest g).regs = g.regs := by
  unfold Agg.imageRequest
  (try dsimp only) <;> (repeat' split) <;> simp
@[simp] theorem Agg.bootStatusSend_only (pt : AggPart) (hpt : pt ∉ [AggPart.boot, .outbox]) (g : Agg) : pt.get (Agg.bootStatusSend g) = pt.get g := by
  simp at hpt
  unfold Agg.bootStatusSend
  (try dsimp only) <;> (repeat' split) <;> first | (simp [hpt]; done) | (cases pt <;> simp at hpt ⊢)
@[simp] theorem Agg.bootStatusSend_regs (g : Agg) : (Agg.bootStatusSend g).regs = g.regs := by
  unfold Agg.bootStatusSend
  (try dsimp only) <;> (repeat' split) <;> simp
@[simp] theorem Agg.sampleStraps_only (pt : AggPart) (hpt : pt ∉ [AggPart.ident, .boot]) (g : Agg) (x : Straps) : pt.get (Agg.sampleStraps g x) = pt.get g := by
  simp at hpt
  unfold Agg.sampleStraps
  (try dsimp only) <;> (repeat' split) <;> first | (simp [hpt]; done) | (cases pt <;> simp at hpt ⊢)
@[simp] theorem Agg.loadSafety_only (pt : AggPart) (hpt : pt ∉ [AggPart.si]) (g : Agg) : pt.get (Agg.loadSafety g) = pt.get g := by
  simp at hpt
  unfold Agg.loadSafety
  (try dsimp only) <;> (repeat' split) <;> first | (simp [hpt]; done) | (cases pt <;> simp at hpt ⊢)
@[simp] theorem Agg.loadSafety_regs (g : Agg) : (Agg.loadSafety g).regs = g.regs := by
  unfold Agg.loadSafety
  (try dsimp only) <;> (repeat' split) <;> simp
@[simp] theorem Agg.moduleResetNow_only (pt : AggPart) (hpt : pt ∉ [AggPart.mem, .ident, .time, .ports, .links, .gates, .mbx, .acc, .ap, .jobs, .skim, .bundle, .codec, .cvu, .ingest, .stn, .stencil, .scores, .verdicts, .elog, .pwr, .si, .pair, .boot, .chip, .chipShown]) (g : Agg) (x : Straps) (coolant : Bool) : pt.get (Agg.moduleResetNow g x coolant) = pt.get g := by
  simp at hpt
  unfold Agg.moduleResetNow
  (try dsimp only) <;> (repeat' split) <;> first | (simp [hpt]; done) | (cases pt <;> simp at hpt ⊢)
@[simp] theorem Agg.moduleReset_only (pt : AggPart) (hpt : pt ∉ [AggPart.mem, .ident, .time, .ports, .links, .gates, .mbx, .acc, .ap, .jobs, .skim, .bundle, .codec, .cvu, .ingest, .stn, .stencil, .scores, .verdicts, .elog, .pwr, .si, .pair, .boot, .eeprom, .chip, .chipShown]) (g : Agg) (x : Straps) (coolant : Bool) (prog : List (Nat × List Byte)) : pt.get (Agg.moduleReset g x coolant prog) = pt.get g := by
  simp at hpt
  unfold Agg.moduleReset
  (try dsimp only) <;> (repeat' split) <;> first | (simp [hpt]; done) | (cases pt <;> simp at hpt ⊢)
@[simp] theorem Agg.coolantStop_only (pt : AggPart) (hpt : pt ∉ [AggPart.mem, .ident, .time, .ports, .links, .gates, .mbx, .acc, .ap, .jobs, .skim, .codec, .cvu, .ingest, .stn, .stencil, .scores, .verdicts, .pwr, .si, .pair, .boot, .chip, .chipShown]) (g : Agg) : pt.get (Agg.coolantStop g) = pt.get g := by
  simp at hpt
  unfold Agg.coolantStop
  (try dsimp only) <;> (repeat' split) <;> first | (simp [hpt]; done) | (cases pt <;> simp at hpt ⊢)
@[simp] theorem Agg.powerFail_only (pt : AggPart) (hpt : pt ∉ [AggPart.mem, .ident, .time, .ports, .links, .gates, .mbx, .acc, .ap, .jobs, .skim, .codec, .cvu, .ingest, .stn, .stencil, .scores, .verdicts, .pwr, .pair, .boot, .chip, .chipShown]) (g : Agg) : pt.get (Agg.powerFail g) = pt.get g := by
  simp at hpt
  unfold Agg.powerFail
  (try dsimp only) <;> (repeat' split) <;> first | (simp [hpt]; done) | (cases pt <;> simp at hpt ⊢)
@[simp] theorem Agg.powerReturn_only (pt : AggPart) (hpt : pt ∉ [AggPart.mem, .ident, .time, .ports, .links, .gates, .mbx, .acc, .ap, .jobs, .skim, .bundle, .codec, .cvu, .ingest, .stn, .stencil, .scores, .verdicts, .elog, .pwr, .si, .pair, .boot, .chip, .chipShown]) (g : Agg) (x : Straps) (coolant : Bool) : pt.get (Agg.powerReturn g x coolant) = pt.get g := by
  simp at hpt
  unfold Agg.powerReturn
  (try dsimp only) <;> (repeat' split) <;> first | (simp [hpt]; done) | (cases pt <;> simp at hpt ⊢)
@[simp] theorem Agg.latchReady_only (pt : AggPart) (hpt : pt ∉ [AggPart.boot]) (g : Agg) : pt.get (Agg.latchReady g) = pt.get g := by
  simp at hpt
  unfold Agg.latchReady
  (try dsimp only) <;> (repeat' split) <;> first | (simp [hpt]; done) | (cases pt <;> simp at hpt ⊢)
@[simp] theorem Agg.latchReady_regs (g : Agg) : (Agg.latchReady g).regs = g.regs := by
  unfold Agg.latchReady
  (try dsimp only) <;> (repeat' split) <;> simp
@[simp] theorem Agg.relockFreeRun_only (pt : AggPart) (hpt : pt ∉ [AggPart.time]) (g : Agg) : pt.get (Agg.relockFreeRun g) = pt.get g := by
  simp at hpt
  unfold Agg.relockFreeRun
  (try dsimp only) <;> (repeat' split) <;> first | (simp [hpt]; done) | (cases pt <;> simp at hpt ⊢)
@[simp] theorem Agg.relockFreeRun_regs (g : Agg) : (Agg.relockFreeRun g).regs = g.regs := by
  unfold Agg.relockFreeRun
  (try dsimp only) <;> (repeat' split) <;> simp
@[simp] theorem Agg.writeHeld_only (pt : AggPart) (hpt : pt ∉ [AggPart.mbx, .ap, .jobs, .outbox]) (g : Agg) : pt.get (Agg.writeHeld g) = pt.get g := by
  simp at hpt
  unfold Agg.writeHeld
  (try dsimp only) <;> (repeat' split) <;> first | (simp [hpt]; done) | (cases pt <;> simp at hpt ⊢)
@[simp] theorem Agg.leaveAfterReset_only (pt : AggPart) (hpt : pt ∉ [AggPart.links]) (g : Agg) : pt.get (Agg.leaveAfterReset g) = pt.get g := by
  simp at hpt
  unfold Agg.leaveAfterReset
  (try dsimp only) <;> (repeat' split) <;> first | (simp [hpt]; done) | (cases pt <;> simp at hpt ⊢)
@[simp] theorem Agg.leaveAfterReset_regs (g : Agg) : (Agg.leaveAfterReset g).regs = g.regs := by
  unfold Agg.leaveAfterReset
  (try dsimp only) <;> (repeat' split) <;> simp
@[simp] theorem Agg.cpHeartbeat_only (pt : AggPart) (hpt : pt ∉ [AggPart.time, .links, .mbx, .ap, .jobs, .boot, .outbox]) (g : Agg) : pt.get (Agg.cpHeartbeat g) = pt.get g := by
  simp at hpt
  unfold Agg.cpHeartbeat
  (try dsimp only) <;> (repeat' split) <;> first | (simp [hpt]; done) | (cases pt <;> simp at hpt ⊢)
@[simp] theorem Agg.coreReset_only (pt : AggPart) (hpt : pt ∉ [AggPart.mem, .ident, .time, .ports, .links, .gates, .mbx, .acc, .ap, .jobs, .skim, .codec, .cvu, .ingest, .stn, .stencil, .scores, .verdicts, .elog, .pwr, .pair, .boot, .chip, .chipShown]) (g : Agg) : pt.get (Agg.coreReset g) = pt.get g := by
  simp at hpt
  unfold Agg.coreReset
  (try dsimp only) <;> (repeat' split) <;> first | (simp [hpt]; done) | (cases pt <;> simp at hpt ⊢)
@[simp] theorem Agg.hbmTrained_only (pt : AggPart) (hpt : pt ∉ [AggPart.boot]) (g : Agg) (ok : Bool) : pt.get (Agg.hbmTrained g ok) = pt.get g := by
  simp at hpt
  unfold Agg.hbmTrained
  (try dsimp only) <;> (repeat' split) <;> first | (simp [hpt]; done) | (cases pt <;> simp at hpt ⊢)
@[simp] theorem Agg.startDiscovery_only (pt : AggPart) (hpt : pt ∉ [AggPart.ports, .acc]) (g : Agg) (p : Nat) : pt.get (Agg.startDiscovery g p) = pt.get g := by
  simp at hpt
  unfold Agg.startDiscovery
  (try dsimp only) <;> (repeat' split) <;> first | (simp [hpt]; done) | (cases pt <;> simp at hpt ⊢)
@[simp] theorem Agg.startDiscovery_regs (g : Agg) (p : Nat) : (Agg.startDiscovery g p).regs = g.regs := by
  unfold Agg.startDiscovery
  (try dsimp only) <;> (repeat' split) <;> simp

end Sys2Proof.Machine
end

