-- ==== Sys2Proof/Laws/PartsAggCommands.lean ====
section
/-!
SUPPORT. PartsAggCommands.lean: one lemma per operation of the aggregator that says which parts of it the operation may change (units and commands).
-/
namespace Sys2Proof.Machine
set_option linter.all false
@[simp] theorem Agg.discover_only (pt : AggPart) (hpt : pt ∉ [AggPart.ports, .acc]) (g : Agg) (p : Nat) : pt.get (Agg.discover g p) = pt.get g := by
  simp at hpt
  unfold Agg.discover
  (try dsimp only) <;> (repeat' split) <;> first | (simp [hpt]; done) | (cases pt <;> simp at hpt ⊢)
@[simp] theorem Agg.discover_regs (g : Agg) (p : Nat) : (Agg.discover g p).regs = g.regs := by
  unfold Agg.discover
  (try dsimp only) <;> (repeat' split) <;> simp
@[simp] theorem Agg.discoveryRetry_only (pt : AggPart) (hpt : pt ∉ [AggPart.ports, .acc]) (g : Agg) (p : Nat) : pt.get (Agg.discoveryRetry g p) = pt.get g := by
  simp at hpt
  unfold Agg.discoveryRetry
  (try dsimp only) <;> (repeat' split) <;> first | (simp [hpt]; done) | (cases pt <;> simp at hpt ⊢)
@[simp] theorem Agg.discoveryRetry_regs (g : Agg) (p : Nat) : (Agg.discoveryRetry g p).regs = g.regs := by
  unfold Agg.discoveryRetry
  (try dsimp only) <;> (repeat' split) <;> simp
@[simp] theorem Agg.dieChecked_only (pt : AggPart) (hpt : pt ∉ [AggPart.elog, .boot]) (g : Agg) (p : Nat) (pass : Bool) (free : Nat → Nat) : pt.get (Agg.dieChecked g p pass free) = pt.get g := by
  simp at hpt
  unfold Agg.dieChecked
  (try dsimp only) <;> (repeat' split) <;> first | (simp [hpt]; done) | (cases pt <;> simp at hpt ⊢)
@[simp] theorem Agg.discoveryDone_only (pt : AggPart) (hpt : pt ∉ [AggPart.elog, .boot]) (g : Agg) (j : RegJob) (st : Status) (free : Nat → Nat) : pt.get (Agg.discoveryDone g j st free) = pt.get g := by
  simp at hpt
  unfold Agg.discoveryDone
  (try dsimp only) <;> (repeat' split) <;> first | (simp [hpt]; done) | (cases pt <;> simp at hpt ⊢)
@[simp] theorem Agg.forgetDie_only (pt : AggPart) (hpt : pt ∉ [AggPart.boot]) (g : Agg) (p : Nat) : pt.get (Agg.forgetDie g p) = pt.get g := by
  simp at hpt
  unfold Agg.forgetDie
  (try dsimp only) <;> (repeat' split) <;> first | (simp [hpt]; done) | (cases pt <;> simp at hpt ⊢)
@[simp] theorem Agg.forgetDie_regs (g : Agg) (p : Nat) : (Agg.forgetDie g p).regs = g.regs := by
  unfold Agg.forgetDie
  (try dsimp only) <;> (repeat' split) <;> simp
@[simp] theorem Agg.regFinish_only (pt : AggPart) (hpt : pt ∉ [AggPart.mem, .ports, .links, .mbx, .acc, .ap, .jobs, .bundle, .elog, .boot, .outbox]) (g : Agg) (j : RegJob) (st : Status) (free : Nat → Nat) : pt.get (Agg.regFinish g j st free) = pt.get g := by
  simp at hpt
  unfold Agg.regFinish
  (try dsimp only) <;> (repeat' split) <;> first | (simp [hpt]; done) | (cases pt <;> simp at hpt ⊢)
@[simp] theorem Agg.finishAll_only (pt : AggPart) (hpt : pt ∉ [AggPart.mem, .ports, .links, .mbx, .acc, .ap, .jobs, .bundle, .elog, .boot, .outbox]) (g : Agg) (x : Option (RegJob × Status)) (free : Nat → Nat) : pt.get (Agg.finishAll g x free) = pt.get g := by
  simp at hpt
  unfold Agg.finishAll
  (try dsimp only) <;> (repeat' split) <;> first | (simp [hpt]; done) | (cases pt <;> simp at hpt ⊢)
@[simp] theorem Agg.responseIn_only (pt : AggPart) (hpt : pt ∉ [AggPart.mem, .ports, .links, .mbx, .acc, .ap, .jobs, .bundle, .elog, .boot, .outbox]) (g : Agg) (p : Nat) (m : List Byte) (free : Nat → Nat) : pt.get (Agg.responseIn g p m free) = pt.get g := by
  simp at hpt
  unfold Agg.responseIn
  (try dsimp only) <;> (repeat' split) <;> first | (simp [hpt]; done) | (cases pt <;> simp at hpt ⊢)
@[simp] theorem Agg.accessTimeout_only (pt : AggPart) (hpt : pt ∉ [AggPart.mem, .ports, .links, .mbx, .acc, .ap, .jobs, .bundle, .elog, .boot, .outbox]) (g : Agg) (p : Nat) (tag : Nat) (free : Nat → Nat) : pt.get (Agg.accessTimeout g p tag free) = pt.get g := by
  simp at hpt
  unfold Agg.accessTimeout
  (try dsimp only) <;> (repeat' split) <;> first | (simp [hpt]; done) | (cases pt <;> simp at hpt ⊢)
@[simp] theorem Agg.dieDown_only (pt : AggPart) (hpt : pt ∉ [AggPart.mem, .ports, .links, .mbx, .acc, .ap, .jobs, .bundle, .elog, .boot, .outbox]) (g : Agg) (p : Nat) (free : Nat → Nat) : pt.get (Agg.dieDown g p free) = pt.get g := by
  simp at hpt
  unfold Agg.dieDown
  (try dsimp only) <;> (repeat' split) <;> first | (simp [hpt]; done) | (cases pt <;> simp at hpt ⊢)
@[simp] theorem Agg.dieUp_only (pt : AggPart) (hpt : pt ∉ [AggPart.ports, .acc, .jobs, .si]) (g : Agg) (p : Nat) : pt.get (Agg.dieUp g p) = pt.get g := by
  simp at hpt
  unfold Agg.dieUp
  (try dsimp only) <;> (repeat' split) <;> first | (simp [hpt]; done) | (cases pt <;> simp at hpt ⊢)
@[simp] theorem Agg.portIdentity_only (pt : AggPart) (hpt : pt ∉ [AggPart.ports, .ingest]) (g : Agg) (p : Nat) (caps : Word) (ident : Word) (die : Word) : pt.get (Agg.portIdentity g p caps ident die) = pt.get g := by
  simp at hpt
  unfold Agg.portIdentity
  (try dsimp only) <;> (repeat' split) <;> first | (simp [hpt]; done) | (cases pt <;> simp at hpt ⊢)
@[simp] theorem Agg.loopMeasure_only (pt : AggPart) (hpt : pt ∉ [AggPart.ports, .acc, .jobs, .si]) (g : Agg) (p : Nat) (rtt : Nat) : pt.get (Agg.loopMeasure g p rtt) = pt.get g := by
  simp at hpt
  unfold Agg.loopMeasure
  (try dsimp only) <;> (repeat' split) <;> first | (simp [hpt]; done) | (cases pt <;> simp at hpt ⊢)
@[simp] theorem Agg.dieSend_only (pt : AggPart) (hpt : pt ∉ [AggPart.ports, .acc]) (g : Agg) (p : Nat) (fb : Nat → Byte) : pt.get (Agg.dieSend g p fb) = pt.get g := by
  simp at hpt
  unfold Agg.dieSend
  (try dsimp only) <;> (repeat' split) <;> first | (simp [hpt]; done) | (cases pt <;> simp at hpt ⊢)
@[simp] theorem Agg.chunkIn_only (pt : AggPart) (hpt : pt ∉ [AggPart.mem, .ports, .jobs, .scores]) (g : Agg) (p : Nat) (m : List Byte) : pt.get (Agg.chunkIn g p m) = pt.get g := by
  simp at hpt
  unfold Agg.chunkIn
  (try dsimp only) <;> (repeat' split) <;> first | (simp [hpt]; done) | (cases pt <;> simp at hpt ⊢)
@[simp] theorem Agg.chunkIn_regs (g : Agg) (p : Nat) (m : List Byte) : (Agg.chunkIn g p m).regs = g.regs := by
  unfold Agg.chunkIn
  (try dsimp only) <;> (repeat' split) <;> simp
@[simp] theorem Agg.messageIn_only (pt : AggPart) (hpt : pt ∉ [AggPart.mem, .ports, .links, .mbx, .acc, .ap, .jobs, .bundle, .ingest, .scores, .elog, .boot, .chip, .outbox]) (g : Agg) (p : Nat) (kind : Nat) (m : List Byte) (cfg : Option ChanCfg) (free : Nat → Nat) : pt.get (Agg.messageIn g p kind m cfg free) = pt.get g := by
  simp at hpt
  unfold Agg.messageIn
  (try dsimp only) <;> (repeat' split) <;> first | (simp [hpt]; done) | (cases pt <;> simp at hpt ⊢)
@[simp] theorem Agg.dieReceive_only (pt : AggPart) (hpt : pt ∉ [AggPart.mem, .ports, .links, .mbx, .acc, .ap, .jobs, .bundle, .ingest, .scores, .elog, .si, .boot, .chip, .outbox]) (g : Agg) (p : Nat) (f : List Byte) (cfg : Option ChanCfg) (free : Nat → Nat) : pt.get (Agg.dieReceive g p f cfg free) = pt.get g := by
  simp at hpt
  unfold Agg.dieReceive
  (try dsimp only) <;> (repeat' split) <;> first | (simp [hpt]; done) | (cases pt <;> simp at hpt ⊢)
@[simp] theorem Agg.frameMsg_only (pt : AggPart) (hpt : pt ∉ [AggPart.mem, .ports, .acc, .jobs, .ingest, .scores, .chip]) (g : Agg) (p : Nat) (resent : Bool) (f : List Byte) (cfg : Option ChanCfg) : pt.get (Agg.frameMsg g p resent f cfg) = pt.get g := by
  simp at hpt
  unfold Agg.frameMsg
  (try dsimp only) <;> (repeat' split) <;> first | (simp [hpt]; done) | (cases pt <;> simp at hpt ⊢)
@[simp] theorem Agg.dieRetry_only (pt : AggPart) (hpt : pt ∉ [AggPart.mem, .ports, .links, .mbx, .acc, .ap, .jobs, .bundle, .elog, .boot, .outbox]) (g : Agg) (p : Nat) (free : Nat → Nat) : pt.get (Agg.dieRetry g p free) = pt.get g := by
  simp at hpt
  unfold Agg.dieRetry
  (try dsimp only) <;> (repeat' split) <;> first | (simp [hpt]; done) | (cases pt <;> simp at hpt ⊢)
@[simp] theorem Agg.dieIdle_only (pt : AggPart) (hpt : pt ∉ [AggPart.mem, .ports, .links, .mbx, .acc, .ap, .jobs, .bundle, .elog, .boot, .outbox]) (g : Agg) (p : Nat) (free : Nat → Nat) : pt.get (Agg.dieIdle g p free) = pt.get g := by
  simp at hpt
  unfold Agg.dieIdle
  (try dsimp only) <;> (repeat' split) <;> first | (simp [hpt]; done) | (cases pt <;> simp at hpt ⊢)
@[simp] theorem Agg.dieLockLoss_only (pt : AggPart) (hpt : pt ∉ [AggPart.mem, .ports, .links, .mbx, .acc, .ap, .jobs, .bundle, .elog, .boot, .outbox]) (g : Agg) (p : Nat) (free : Nat → Nat) : pt.get (Agg.dieLockLoss g p free) = pt.get g := by
  simp at hpt
  unfold Agg.dieLockLoss
  (try dsimp only) <;> (repeat' split) <;> first | (simp [hpt]; done) | (cases pt <;> simp at hpt ⊢)
@[simp] theorem Agg.dieTrain_only (pt : AggPart) (hpt : pt ∉ [AggPart.ports]) (g : Agg) (p : Nat) : pt.get (Agg.dieTrain g p) = pt.get g := by
  simp at hpt
  unfold Agg.dieTrain
  (try dsimp only) <;> (repeat' split) <;> first | (simp [hpt]; done) | (cases pt <;> simp at hpt ⊢)
@[simp] theorem Agg.dieTrain_regs (g : Agg) (p : Nat) : (Agg.dieTrain g p).regs = g.regs := by
  unfold Agg.dieTrain
  (try dsimp only) <;> (repeat' split) <;> simp
@[simp] theorem Agg.dieLock_only (pt : AggPart) (hpt : pt ∉ [AggPart.ports]) (g : Agg) (p : Nat) : pt.get (Agg.dieLock g p) = pt.get g := by
  simp at hpt
  unfold Agg.dieLock
  (try dsimp only) <;> (repeat' split) <;> first | (simp [hpt]; done) | (cases pt <;> simp at hpt ⊢)
@[simp] theorem Agg.dieLock_regs (g : Agg) (p : Nat) : (Agg.dieLock g p).regs = g.regs := by
  unfold Agg.dieLock
  (try dsimp only) <;> (repeat' split) <;> simp
@[simp] theorem Agg.dieTrainFail_only (pt : AggPart) (hpt : pt ∉ [AggPart.ports]) (g : Agg) (p : Nat) : pt.get (Agg.dieTrainFail g p) = pt.get g := by
  simp at hpt
  unfold Agg.dieTrainFail
  (try dsimp only) <;> (repeat' split) <;> first | (simp [hpt]; done) | (cases pt <;> simp at hpt ⊢)
@[simp] theorem Agg.dieTrainFail_regs (g : Agg) (p : Nat) : (Agg.dieTrainFail g p).regs = g.regs := by
  unfold Agg.dieTrainFail
  (try dsimp only) <;> (repeat' split) <;> simp
@[simp] theorem Agg.dieWaitEnd_only (pt : AggPart) (hpt : pt ∉ [AggPart.ports]) (g : Agg) (p : Nat) : pt.get (Agg.dieWaitEnd g p) = pt.get g := by
  simp at hpt
  unfold Agg.dieWaitEnd
  (try dsimp only) <;> (repeat' split) <;> first | (simp [hpt]; done) | (cases pt <;> simp at hpt ⊢)
@[simp] theorem Agg.dieWaitEnd_regs (g : Agg) (p : Nat) : (Agg.dieWaitEnd g p).regs = g.regs := by
  unfold Agg.dieWaitEnd
  (try dsimp only) <;> (repeat' split) <;> simp
@[simp] theorem Agg.skimMessage_only (pt : AggPart) (hpt : pt ∉ [AggPart.mem, .links, .mbx, .ap, .jobs, .skim, .bundle, .stencil, .scores, .verdicts, .elog, .pair, .chip, .outbox]) (g : Agg) (k : Nat) (c : Nat) (m : List Byte) : pt.get (Agg.skimMessage g k c m) = pt.get g := by
  simp at hpt
  unfold Agg.skimMessage
  (try dsimp only) <;> (repeat' split) <;> first | (simp [hpt]; done) | (cases pt <;> simp at hpt ⊢)
@[simp] theorem Agg.timeSlotIn_only (pt : AggPart) (hpt : pt ∉ [AggPart.time, .links]) (g : Agg) (k : Nat) (s : List Byte) : pt.get (Agg.timeSlotIn g k s) = pt.get g := by
  simp at hpt
  unfold Agg.timeSlotIn
  (try dsimp only) <;> (repeat' split) <;> first | (simp [hpt]; done) | (cases pt <;> simp at hpt ⊢)
@[simp] theorem Agg.sideIn_only (pt : AggPart) (hpt : pt ∉ [AggPart.time, .links, .elog, .si]) (g : Agg) (k : Nat) (side : Option (Nat × List Byte)) : pt.get (Agg.sideIn g k side) = pt.get g := by
  simp at hpt
  unfold Agg.sideIn
  (try dsimp only) <;> (repeat' split) <;> first | (simp [hpt]; done) | (cases pt <;> simp at hpt ⊢)
@[simp] theorem Agg.pumpTc6_only (pt : AggPart) (hpt : pt ∉ [AggPart.links, .bundle]) (n : Nat) (g : Agg) : pt.get (Agg.pumpTc6 n g) = pt.get g := by
  simp at hpt
  induction n generalizing g with
  | zero => rfl
  | succ n ih => unfold Agg.pumpTc6; (try dsimp only); (repeat' split) <;> first | (simp [hpt, ih]; done) | (cases pt <;> simp [ih] at hpt ⊢)
@[simp] theorem Agg.pumpTc6_regs (n : Nat) (g : Agg) : (Agg.pumpTc6 n g).regs = g.regs := by
  induction n generalizing g with
  | zero => rfl
  | succ n ih => unfold Agg.pumpTc6; (try dsimp only); (repeat' split) <;> simp [ih]
@[simp] theorem Agg.skimFlitIn_only (pt : AggPart) (hpt : pt ∉ [AggPart.time, .links, .skim, .bundle, .elog, .si]) (g : Agg) (k : Nat) (f : List Byte) : pt.get (Agg.skimFlitIn g k f) = pt.get g := by
  simp at hpt
  unfold Agg.skimFlitIn
  (try dsimp only) <;> (repeat' split) <;> first | (simp [hpt]; done) | (cases pt <;> simp at hpt ⊢)
@[simp] theorem Agg.drainDeskew_only (pt : AggPart) (hpt : pt ∉ [AggPart.time, .links, .skim, .bundle, .elog, .si]) (k : Nat) (a : Nat) (y2 : Agg) : pt.get (Agg.drainDeskew k a y2) = pt.get y2 := by
  simp at hpt
  induction a generalizing y2 with
  | zero => rfl
  | succ n ih => unfold Agg.drainDeskew; (try dsimp only); (repeat' split) <;> first | (simp [hpt, ih]; done) | (cases pt <;> simp [ih] at hpt ⊢)
@[simp] theorem Agg.codewordIn_only (pt : AggPart) (hpt : pt ∉ [AggPart.time, .links, .skim, .bundle, .elog, .si]) (g : Agg) (k : Nat) (lane : Nat) (corrected : Nat) (flit : Option (List Byte × Nat)) : pt.get (Agg.codewordIn g k lane corrected flit) = pt.get g := by
  simp at hpt
  unfold Agg.codewordIn
  (try dsimp only) <;> (repeat' split) <;> first | (simp [hpt]; done) | (cases pt <;> simp at hpt ⊢)
@[simp] theorem Agg.linkRetry_only (pt : AggPart) (hpt : pt ∉ [AggPart.links, .skim, .bundle]) (g : Agg) (k : Nat) : pt.get (Agg.linkRetry g k) = pt.get g := by
  simp at hpt
  unfold Agg.linkRetry
  (try dsimp only) <;> (repeat' split) <;> first | (simp [hpt]; done) | (cases pt <;> simp at hpt ⊢)
@[simp] theorem Agg.linkIdle_only (pt : AggPart) (hpt : pt ∉ [AggPart.links, .skim, .bundle]) (g : Agg) (k : Nat) : pt.get (Agg.linkIdle g k) = pt.get g := by
  simp at hpt
  unfold Agg.linkIdle
  (try dsimp only) <;> (repeat' split) <;> first | (simp [hpt]; done) | (cases pt <;> simp at hpt ⊢)
@[simp] theorem Agg.linkLockLoss_only (pt : AggPart) (hpt : pt ∉ [AggPart.links, .skim, .bundle]) (g : Agg) (k : Nat) : pt.get (Agg.linkLockLoss g k) = pt.get g := by
  simp at hpt
  unfold Agg.linkLockLoss
  (try dsimp only) <;> (repeat' split) <;> first | (simp [hpt]; done) | (cases pt <;> simp at hpt ⊢)
@[simp] theorem Agg.modEnd_only (pt : AggPart) (hpt : pt ∉ [AggPart.links]) (g : Agg) (k : Nat) (f : PortEnd → PortEnd) : pt.get (Agg.modEnd g k f) = pt.get g := by
  simp at hpt
  unfold Agg.modEnd
  (try dsimp only) <;> (repeat' split) <;> first | (simp [hpt]; done) | (cases pt <;> simp at hpt ⊢)
@[simp] theorem Agg.modEnd_regs (g : Agg) (k : Nat) (f : PortEnd → PortEnd) : (Agg.modEnd g k f).regs = g.regs := by
  unfold Agg.modEnd
  (try dsimp only) <;> (repeat' split) <;> simp
@[simp] theorem Agg.linkTrainStart_only (pt : AggPart) (hpt : pt ∉ [AggPart.links]) (g : Agg) (k : Nat) : pt.get (Agg.linkTrainStart g k) = pt.get g := by
  simp at hpt
  unfold Agg.linkTrainStart
  (try dsimp only) <;> (repeat' split) <;> first | (simp [hpt]; done) | (cases pt <;> simp at hpt ⊢)
@[simp] theorem Agg.linkTrainStart_regs (g : Agg) (k : Nat) : (Agg.linkTrainStart g k).regs = g.regs := by
  unfold Agg.linkTrainStart
  (try dsimp only) <;> (repeat' split) <;> simp
@[simp] theorem Agg.linkLock_only (pt : AggPart) (hpt : pt ∉ [AggPart.links]) (g : Agg) (k : Nat) : pt.get (Agg.linkLock g k) = pt.get g := by
  simp at hpt
  unfold Agg.linkLock
  (try dsimp only) <;> (repeat' split) <;> first | (simp [hpt]; done) | (cases pt <;> simp at hpt ⊢)
@[simp] theorem Agg.linkLock_regs (g : Agg) (k : Nat) : (Agg.linkLock g k).regs = g.regs := by
  unfold Agg.linkLock
  (try dsimp only) <;> (repeat' split) <;> simp
@[simp] theorem Agg.linkTrainFail_only (pt : AggPart) (hpt : pt ∉ [AggPart.links]) (g : Agg) (k : Nat) : pt.get (Agg.linkTrainFail g k) = pt.get g := by
  simp at hpt
  unfold Agg.linkTrainFail
  (try dsimp only) <;> (repeat' split) <;> first | (simp [hpt]; done) | (cases pt <;> simp at hpt ⊢)
@[simp] theorem Agg.linkTrainFail_regs (g : Agg) (k : Nat) : (Agg.linkTrainFail g k).regs = g.regs := by
  unfold Agg.linkTrainFail
  (try dsimp only) <;> (repeat' split) <;> simp
@[simp] theorem Agg.linkWaitEnd_only (pt : AggPart) (hpt : pt ∉ [AggPart.links]) (g : Agg) (k : Nat) : pt.get (Agg.linkWaitEnd g k) = pt.get g := by
  simp at hpt
  unfold Agg.linkWaitEnd
  (try dsimp only) <;> (repeat' split) <;> first | (simp [hpt]; done) | (cases pt <;> simp at hpt ⊢)
@[simp] theorem Agg.linkWaitEnd_regs (g : Agg) (k : Nat) : (Agg.linkWaitEnd g k).regs = g.regs := by
  unfold Agg.linkWaitEnd
  (try dsimp only) <;> (repeat' split) <;> simp
@[simp] theorem Agg.keepaliveSend_only (pt : AggPart) (hpt : pt ∉ [AggPart.links, .bundle, .pair]) (g : Agg) (free : Nat → Byte) : pt.get (Agg.keepaliveSend g free) = pt.get g := by
  simp at hpt
  unfold Agg.keepaliveSend
  (try dsimp only) <;> (repeat' split) <;> first | (simp [hpt]; done) | (cases pt <;> simp at hpt ⊢)
@[simp] theorem Agg.keepaliveSend_regs (g : Agg) (free : Nat → Byte) : (Agg.keepaliveSend g free).regs = g.regs := by
  unfold Agg.keepaliveSend
  (try dsimp only) <;> (repeat' split) <;> simp
@[simp] theorem Agg.keepaliveReceive_only (pt : AggPart) (hpt : pt ∉ [AggPart.pair]) (g : Agg) : pt.get (Agg.keepaliveReceive g) = pt.get g := by
  simp at hpt
  unfold Agg.keepaliveReceive
  (try dsimp only) <;> (repeat' split) <;> first | (simp [hpt]; done) | (cases pt <;> simp at hpt ⊢)
@[simp] theorem Agg.keepaliveReceive_regs (g : Agg) : (Agg.keepaliveReceive g).regs = g.regs := by
  unfold Agg.keepaliveReceive
  (try dsimp only) <;> (repeat' split) <;> simp
@[simp] theorem Agg.takeOverJob_only (pt : AggPart) (hpt : pt ∉ [AggPart.ports, .links, .mbx, .acc, .ap, .jobs, .bundle, .outbox]) (g : Agg) (n : Nat) : pt.get (Agg.takeOverJob g n) = pt.get g := by
  simp at hpt
  unfold Agg.takeOverJob
  (try dsimp only) <;> (repeat' split) <;> first | (simp [hpt]; done) | (cases pt <;> simp at hpt ⊢)
@[simp] theorem Agg.takeOver_only (pt : AggPart) (hpt : pt ∉ [AggPart.ports, .links, .mbx, .acc, .ap, .jobs, .bundle, .outbox]) (g : Agg) : pt.get (Agg.takeOver g) = pt.get g := by
  simp at hpt
  unfold Agg.takeOver
  (try dsimp only) <;> (repeat' split) <;> first | (simp [hpt]; done) | (cases pt <;> simp at hpt ⊢)
@[simp] theorem Agg.forgetJob_only (pt : AggPart) (hpt : pt ∉ [AggPart.mbx, .ap, .jobs, .codec, .stencil, .scores]) (g : Agg) (n : Nat) : pt.get (Agg.forgetJob g n) = pt.get g := by
  simp at hpt
  unfold Agg.forgetJob
  (try dsimp only) <;> (repeat' split) <;> first | (simp [hpt]; done) | (cases pt <;> simp at hpt ⊢)
@[simp] theorem Agg.forgetJob_regs (g : Agg) (n : Nat) : (Agg.forgetJob g n).regs = g.regs := by
  unfold Agg.forgetJob
  (try dsimp only) <;> (repeat' split) <;> simp
@[simp] theorem Agg.discardSync_only (pt : AggPart) (hpt : pt ∉ [AggPart.mbx, .ap, .jobs, .codec, .stencil, .scores, .verdicts, .pair]) (g : Agg) : pt.get (Agg.discardSync g) = pt.get g := by
  simp at hpt
  unfold Agg.discardSync
  (try dsimp only) <;> (repeat' split) <;> first | (simp [hpt]; done) | (cases pt <;> simp at hpt ⊢)
@[simp] theorem Agg.discardSync_regs (g : Agg) : (Agg.discardSync g).regs = g.regs := by
  unfold Agg.discardSync
  (try dsimp only) <;> (repeat' split) <;> simp
@[simp] theorem Agg.partnerCoreLost_only (pt : AggPart) (hpt : pt ∉ [AggPart.mem, .ports, .links, .mbx, .acc, .ap, .jobs, .bundle, .codec, .stencil, .scores, .verdicts, .elog, .pair, .outbox]) (g : Agg) : pt.get (Agg.partnerCoreLost g) = pt.get g := by
  simp at hpt
  unfold Agg.partnerCoreLost
  (try dsimp only) <;> (repeat' split) <;> first | (simp [hpt]; done) | (cases pt <;> simp at hpt ⊢)
@[simp] theorem Agg.partnerSiLostNow_only (pt : AggPart) (hpt : pt ∉ [AggPart.elog, .si]) (g : Agg) : pt.get (Agg.partnerSiLostNow g) = pt.get g := by
  simp at hpt
  unfold Agg.partnerSiLostNow
  (try dsimp only) <;> (repeat' split) <;> first | (simp [hpt]; done) | (cases pt <;> simp at hpt ⊢)
@[simp] theorem Agg.noteCkpt_only (pt : AggPart) (hpt : pt ∉ [AggPart.pair]) (g : Agg) : pt.get (Agg.noteCkpt g) = pt.get g := by
  simp at hpt
  unfold Agg.noteCkpt
  (try dsimp only) <;> (repeat' split) <;> first | (simp [hpt]; done) | (cases pt <;> simp at hpt ⊢)
@[simp] theorem Agg.checkpointWrite_only (pt : AggPart) (hpt : pt ∉ [AggPart.mem, .links, .elog, .pair]) (g : Agg) (free : Nat → Byte) : pt.get (Agg.checkpointWrite g free) = pt.get g := by
  simp at hpt
  unfold Agg.checkpointWrite
  (try dsimp only) <;> (repeat' split) <;> first | (simp [hpt]; done) | (cases pt <;> simp at hpt ⊢)
@[simp] theorem Agg.checkpointFail_only (pt : AggPart) (hpt : pt ∉ [AggPart.elog, .pair]) (g : Agg) : pt.get (Agg.checkpointFail g) = pt.get g := by
  simp at hpt
  unfold Agg.checkpointFail
  (try dsimp only) <;> (repeat' split) <;> first | (simp [hpt]; done) | (cases pt <;> simp at hpt ⊢)
@[simp] theorem Agg.checkpointReceive_only (pt : AggPart) (hpt : pt ∉ [AggPart.pair]) (g : Agg) (m : List Byte) : pt.get (Agg.checkpointReceive g m) = pt.get g := by
  simp at hpt
  unfold Agg.checkpointReceive
  (try dsimp only) <;> (repeat' split) <;> first | (simp [hpt]; done) | (cases pt <;> simp at hpt ⊢)
@[simp] theorem Agg.checkpointReceive_regs (g : Agg) (m : List Byte) : (Agg.checkpointReceive g m).regs = g.regs := by
  unfold Agg.checkpointReceive
  (try dsimp only) <;> (repeat' split) <;> simp
@[simp] theorem Agg.checkpointFetch_only (pt : AggPart) (hpt : pt ∉ [AggPart.links]) (g : Agg) (k : Nat) (tray : Nat) (partners : Option (List Byte)) : pt.get (Agg.checkpointFetch g k tray partners) = pt.get g := by
  simp at hpt
  unfold Agg.checkpointFetch
  (try dsimp only) <;> (repeat' split) <;> first | (simp [hpt]; done) | (cases pt <;> simp at hpt ⊢)
@[simp] theorem Agg.checkpointFetch_regs (g : Agg) (k : Nat) (tray : Nat) (partners : Option (List Byte)) : (Agg.checkpointFetch g k tray partners).regs = g.regs := by
  unfold Agg.checkpointFetch
  (try dsimp only) <;> (repeat' split) <;> simp
@[simp] theorem Agg.syncRequest_only (pt : AggPart) (hpt : pt ∉ [AggPart.pair]) (g : Agg) : pt.get (Agg.syncRequest g) = pt.get g := by
  simp at hpt
  unfold Agg.syncRequest
  (try dsimp only) <;> (repeat' split) <;> first | (simp [hpt]; done) | (cases pt <;> simp at hpt ⊢)
@[simp] theorem Agg.syncRequest_regs (g : Agg) : (Agg.syncRequest g).regs = g.regs := by
  unfold Agg.syncRequest
  (try dsimp only) <;> (repeat' split) <;> simp
@[simp] theorem Agg.claimAll_only (pt : AggPart) (hpt : pt ∉ [AggPart.jobs]) (g : Agg) (n : Nat) (ds : List JobDie) : pt.get (Agg.claimAll g n ds) = pt.get g := by
  simp at hpt
  unfold Agg.claimAll
  (try dsimp only) <;> (repeat' split) <;> (first | (simp (maxDischargeDepth := 5) [hpt]; done) | (rw [Agg.command_only pt (by simp [hpt])]; (repeat' intro _); (try dsimp only) <;> (repeat' split) <;> (first | (simp [hpt]; done) | (cases pt <;> simp at hpt ⊢)); done) | (rw [Agg.checked_only pt (by simp [hpt])]; (repeat' intro _); (try dsimp only) <;> (repeat' split) <;> (first | (simp [hpt]; done) | (cases pt <;> simp at hpt ⊢)); done) | (rw [AggPart.get_foldl]; (repeat' intro _); (try dsimp only) <;> (repeat' split) <;> (first | (simp [hpt]; done) | (cases pt <;> simp at hpt ⊢)); done))
@[simp] theorem Agg.claimAll_regs (g : Agg) (n : Nat) (ds : List JobDie) : (Agg.claimAll g n ds).regs = g.regs := by
  unfold Agg.claimAll
  (try dsimp only) <;> (repeat' split) <;> simp
@[simp] theorem Agg.installEnsembles_only (pt : AggPart) (hpt : pt ∉ [AggPart.stencil]) (g : Agg) (n : Nat) (m : Model) : pt.get (Agg.installEnsembles g n m) = pt.get g := by
  simp at hpt
  unfold Agg.installEnsembles
  split
  · next h => exact Agg.loadEnsembles_only pt (by simp [hpt]) h
  · first | (simp [hpt]; done) | (cases pt <;> simp at hpt ⊢)
@[simp] theorem Agg.installEnsembles_regs (g : Agg) (n : Nat) (m : Model) : (Agg.installEnsembles g n m).regs = g.regs := by
  unfold Agg.installEnsembles
  split
  · next h => exact Agg.loadEnsembles_regs h
  · simp
@[simp] theorem Agg.installJob_only (pt : AggPart) (hpt : pt ∉ [AggPart.mem, .mbx, .ap, .jobs, .stencil, .scores, .pair]) (partner : Bool) (join : Nat) (g : Agg) (p : PairJob) : pt.get (Agg.installJob partner join g p) = pt.get g := by
  simp at hpt
  unfold Agg.installJob
  dsimp only
  rw [Agg.withPair_only pt (by simp [hpt])]
  split <;> cases pt <;> simp at hpt ⊢
@[simp] theorem Agg.installJob_regs (partner : Bool) (join : Nat) (g : Agg) (p : PairJob) : (Agg.installJob partner join g p).regs = g.regs := by
  unfold Agg.installJob
  dsimp only
  rw [Agg.withPair_regs]
  split <;> simp
@[simp] theorem Agg.installModule_only (pt : AggPart) (hpt : pt ∉ [AggPart.skim, .codec, .stencil, .verdicts]) (g : Agg) (x : PairContent) : pt.get (Agg.installModule g x) = pt.get g := by
  simp at hpt
  unfold Agg.installModule
  (try dsimp only) <;> (repeat' split) <;> first | (simp [hpt]; done) | (cases pt <;> simp at hpt ⊢)
@[simp] theorem Agg.askResends_only (pt : AggPart) (hpt : pt ∉ [AggPart.ports, .acc]) (g : Agg) (w : Nat) : pt.get (Agg.askResends g w) = pt.get g := by
  simp at hpt
  unfold Agg.askResends
  (try dsimp only) <;> (repeat' split) <;> first | (simp [hpt]; done) | (cases pt <;> simp at hpt ⊢)
@[simp] theorem Agg.askResends_regs (g : Agg) (w : Nat) : (Agg.askResends g w).regs = g.regs := by
  unfold Agg.askResends
  (try dsimp only) <;> (repeat' split) <;> simp
@[simp] theorem Agg.syncState_only (pt : AggPart) (hpt : pt ∉ [AggPart.mem, .ports, .links, .mbx, .acc, .ap, .jobs, .skim, .codec, .stencil, .scores, .verdicts, .pair, .outbox]) (g : Agg) (x : Option PairContent) : pt.get (Agg.syncState g x) = pt.get g := by
  simp at hpt
  unfold Agg.syncState
  (try dsimp only) <;> (repeat' split) <;> first | (simp [hpt]; done) | (cases pt <;> simp at hpt ⊢)
@[simp] theorem Agg.pairStroke_only (pt : AggPart) (hpt : pt ∉ [AggPart.links, .bundle, .elog, .pair]) (g : Agg) (w : Nat) : pt.get (Agg.pairStroke g w) = pt.get g := by
  simp at hpt
  unfold Agg.pairStroke
  (try dsimp only) <;> (repeat' split) <;> first | (simp [hpt]; done) | (cases pt <;> simp at hpt ⊢)
@[simp] theorem Agg.sampleTaps_only (pt : AggPart) (hpt : pt ∉ [AggPart.links, .ap, .skim]) (g : Agg) (w : Nat) : pt.get (Agg.sampleTaps g w) = pt.get g := by
  simp at hpt
  unfold Agg.sampleTaps
  (try dsimp only) <;> (repeat' split) <;> first | (simp [hpt]; done) | (cases pt <;> simp at hpt ⊢)
@[simp] theorem Agg.sampleTaps_regs (g : Agg) (w : Nat) : (Agg.sampleTaps g w).regs = g.regs := by
  unfold Agg.sampleTaps
  (try dsimp only) <;> (repeat' split) <;> simp
@[simp] theorem Agg.showCounters_only (pt : AggPart) (hpt : pt ∉ [AggPart.jobs, .chipShown]) (g : Agg) : pt.get (Agg.showCounters g) = pt.get g := by
  simp at hpt
  unfold Agg.showCounters
  (try dsimp only) <;> (repeat' split) <;> first | (simp [hpt]; done) | (cases pt <;> simp at hpt ⊢)
@[simp] theorem Agg.showCounters_regs (g : Agg) : (Agg.showCounters g).regs = g.regs := by
  unfold Agg.showCounters
  (try dsimp only) <;> (repeat' split) <;> simp
@[simp] theorem Agg.takeChange_only (pt : AggPart) (hpt : pt ∉ [AggPart.time]) (g : Agg) (s : Sched) (n : Nat) : pt.get (Agg.takeChange g s n) = pt.get g := by
  simp at hpt
  unfold Agg.takeChange
  (try dsimp only) <;> (repeat' split) <;> first | (simp [hpt]; done) | (cases pt <;> simp at hpt ⊢)
@[simp] theorem Agg.windowOpens_only (pt : AggPart) (hpt : pt ∉ [AggPart.mem, .ports, .links, .mbx, .acc, .ap, .jobs, .skim, .bundle, .stencil, .scores, .elog, .pair, .outbox]) (g : Agg) (n : Nat) : pt.get (Agg.windowOpens g n) = pt.get g := by
  simp at hpt
  unfold Agg.windowOpens
  (try dsimp only) <;> (repeat' split) <;> first | (simp [hpt]; done) | (cases pt <;> simp at hpt ⊢)
@[simp] theorem Agg.stroke_only (pt : AggPart) (hpt : pt ∉ [AggPart.mem, .time, .ports, .links, .mbx, .acc, .ap, .jobs, .skim, .bundle, .stencil, .scores, .elog, .pair, .chipShown, .outbox]) (g : Agg) : pt.get (Agg.stroke g) = pt.get g := by
  simp at hpt
  unfold Agg.stroke
  (try dsimp only) <;> (repeat' split) <;> first | (simp [hpt]; done) | (cases pt <;> simp at hpt ⊢)
@[simp] theorem Agg.whenPowered_only (pt : AggPart) (g : Agg) (f : Agg → Agg) (h : ∀ x, pt.get (f x) = pt.get x) : pt.get (Agg.whenPowered g f) = pt.get g := by
  unfold Agg.whenPowered
  (try dsimp only) <;> (repeat' split) <;> first | (simp [h]; done) | (cases pt <;> simp [h])
@[simp] theorem Agg.whenPowered_regs (g : Agg) (f : Agg → Agg) (h : ∀ x, (f x).regs = x.regs) : (Agg.whenPowered g f).regs = g.regs := by
  unfold Agg.whenPowered
  (try dsimp only) <;> (repeat' split) <;> simp [h]
@[simp] theorem Agg.whenFw_only (pt : AggPart) (g : Agg) (f : Agg → Agg) (h : ∀ x, pt.get (f x) = pt.get x) : pt.get (Agg.whenFw g f) = pt.get g := by
  unfold Agg.whenFw
  (try dsimp only) <;> (repeat' split) <;> first | (simp [h]; done) | (cases pt <;> simp [h])
@[simp] theorem Agg.whenFw_regs (g : Agg) (f : Agg → Agg) (h : ∀ x, (f x).regs = x.regs) : (Agg.whenFw g f).regs = g.regs := by
  unfold Agg.whenFw
  (try dsimp only) <;> (repeat' split) <;> simp [h]
@[simp] theorem Agg.whenLive_only (pt : AggPart) (g : Agg) (f : Agg → Agg) (h : ∀ x, pt.get (f x) = pt.get x) : pt.get (Agg.whenLive g f) = pt.get g := by
  unfold Agg.whenLive
  (try dsimp only) <;> (repeat' split) <;> first | (simp [h]; done) | (cases pt <;> simp [h])
@[simp] theorem Agg.whenLive_regs (g : Agg) (f : Agg → Agg) (h : ∀ x, (f x).regs = x.regs) : (Agg.whenLive g f).regs = g.regs := by
  unfold Agg.whenLive
  (try dsimp only) <;> (repeat' split) <;> simp [h]
@[simp] theorem Agg.whenUp_only (pt : AggPart) (g : Agg) (k : Nat) (f : Agg → Agg) (h : ∀ x, pt.get (f x) = pt.get x) : pt.get (Agg.whenUp g k f) = pt.get g := by
  unfold Agg.whenUp
  (try dsimp only) <;> (repeat' split) <;> first | (simp [h]; done) | (cases pt <;> simp [h])
@[simp] theorem Agg.whenUp_regs (g : Agg) (k : Nat) (f : Agg → Agg) (h : ∀ x, (f x).regs = x.regs) : (Agg.whenUp g k f).regs = g.regs := by
  unfold Agg.whenUp
  (try dsimp only) <;> (repeat' split) <;> simp [h]
@[simp] theorem Agg.whenPartner_only (pt : AggPart) (g : Agg) (f : Agg → Agg) (h : ∀ x, pt.get (f x) = pt.get x) : pt.get (Agg.whenPartner g f) = pt.get g := by
  unfold Agg.whenPartner
  (try dsimp only) <;> (repeat' split) <;> first | (simp [h]; done) | (cases pt <;> simp [h])
@[simp] theorem Agg.whenPartner_regs (g : Agg) (f : Agg → Agg) (h : ∀ x, (f x).regs = x.regs) : (Agg.whenPartner g f).regs = g.regs := by
  unfold Agg.whenPartner
  (try dsimp only) <;> (repeat' split) <;> simp [h]
@[simp] theorem Agg.whenFrom_only (pt : AggPart) (g : Agg) (src : Option (Fin 32)) (f : Agg → Agg) (h : ∀ x, pt.get (f x) = pt.get x) : pt.get (Agg.whenFrom g src f) = pt.get g := by
  unfold Agg.whenFrom
  (try dsimp only) <;> (repeat' split) <;> first | (simp [h]; done) | (cases pt <;> simp [h])
@[simp] theorem Agg.whenFrom_regs (g : Agg) (src : Option (Fin 32)) (f : Agg → Agg) (h : ∀ x, (f x).regs = x.regs) : (Agg.whenFrom g src f).regs = g.regs := by
  unfold Agg.whenFrom
  (try dsimp only) <;> (repeat' split) <;> simp [h]
@[simp] theorem Agg.datagramOf_only (pt : AggPart) (hpt : pt ∉ [AggPart.mbx, .jobs, .chip, .outbox]) (g : Agg) (kinds : Nat → Bool) (addr : Nat) (port : Nat) (m : List Byte) : pt.get (Agg.datagramOf g kinds addr port m) = pt.get g := by
  simp at hpt
  unfold Agg.datagramOf
  (try dsimp only) <;> (repeat' split) <;> first | (simp [hpt]; done) | (cases pt <;> simp at hpt ⊢)
@[simp] theorem Agg.nakInvalid_only (pt : AggPart) (hpt : pt ∉ [AggPart.ap]) (g : Agg) (qpn : Nat) (q : Qp) (psn : Nat) : pt.get (Agg.nakInvalid g qpn q psn) = pt.get g := by
  simp at hpt
  unfold Agg.nakInvalid
  (try dsimp only) <;> (repeat' split) <;> first | (simp [hpt]; done) | (cases pt <;> simp at hpt ⊢)
@[simp] theorem Agg.nakOperational_only (pt : AggPart) (hpt : pt ∉ [AggPart.ap]) (g : Agg) (qpn : Nat) (q : Qp) (psn : Nat) : pt.get (Agg.nakOperational g qpn q psn) = pt.get g := by
  simp at hpt
  unfold Agg.nakOperational
  (try dsimp only) <;> (repeat' split) <;> first | (simp [hpt]; done) | (cases pt <;> simp at hpt ⊢)
@[simp] theorem Agg.ackQp_only (pt : AggPart) (hpt : pt ∉ [AggPart.ap]) (g : Agg) (qpn : Nat) (q : Qp) (psn : Nat) : pt.get (Agg.ackQp g qpn q psn) = pt.get g := by
  simp at hpt
  unfold Agg.ackQp
  (try dsimp only) <;> (repeat' split) <;> first | (simp [hpt]; done) | (cases pt <;> simp at hpt ⊢)
@[simp] theorem Agg.ackQp_regs (g : Agg) (qpn : Nat) (q : Qp) (psn : Nat) : (Agg.ackQp g qpn q psn).regs = g.regs := by
  unfold Agg.ackQp
  (try dsimp only) <;> (repeat' split) <;> simp
@[simp] theorem Agg.writeRegs_only (pt : AggPart) (hpt : pt ∉ [AggPart.gates, .mbx, .ap, .elog, .pwr, .si, .chip, .outbox]) (g : Agg) (ringToo : Bool) (a : Nat) (bytes : List Byte) (y4 : Nat) : pt.get (Agg.writeRegs g ringToo a bytes y4) = pt.get g := by
  simp at hpt
  induction y4 generalizing g a bytes with
  | zero => rfl
  | succ n ih => unfold Agg.writeRegs; (try dsimp only); (repeat' split) <;> first | (simp [hpt, ih]; done) | (cases pt <;> simp [ih] at hpt ⊢)
@[simp] theorem Agg.readRegs_only (pt : AggPart) (hpt : pt ∉ [AggPart.stencil]) (g : Agg) (ringToo : Bool) (a : Nat) (y3 : Nat) : pt.get (Agg.readRegs g ringToo a y3).1 = pt.get g := by
  simp at hpt
  induction y3 generalizing g a with
  | zero => rfl
  | succ n ih => unfold Agg.readRegs; (try dsimp only); (repeat' split) <;> first | (simp [hpt, ih]; done) | (cases pt <;> simp [ih] at hpt ⊢)
@[simp] theorem Agg.rdmaStore_only (pt : AggPart) (hpt : pt ∉ [AggPart.mem, .gates, .mbx, .ap, .elog, .pwr, .si, .chip, .outbox]) (g : Agg) (a : Nat) (bytes : List Byte) : pt.get (Agg.rdmaStore g a bytes) = pt.get g := by
  simp at hpt
  unfold Agg.rdmaStore
  (try dsimp only) <;> (repeat' split) <;> first | (simp [hpt]; done) | (cases pt <;> simp at hpt ⊢)
@[simp] theorem Agg.rdmaLoad_only (pt : AggPart) (hpt : pt ∉ [AggPart.stencil]) (g : Agg) (a : Nat) (n : Nat) : pt.get (Agg.rdmaLoad g a n).1 = pt.get g := by
  simp at hpt
  unfold Agg.rdmaLoad
  (try dsimp only) <;> (repeat' split) <;> first | (simp [hpt]; done) | (cases pt <;> simp at hpt ⊢)
@[simp] theorem Agg.storeThrough_only (pt : AggPart) (hpt : pt ∉ [AggPart.mem, .gates, .mbx, .ap, .elog, .pwr, .si, .chip, .outbox]) (g : Agg) (t : Option Nat) (a : Nat) (bytes : List Byte) : pt.get (Agg.storeThrough g t a bytes) = pt.get g := by
  simp at hpt
  unfold Agg.storeThrough
  (try dsimp only) <;> (repeat' split) <;> first | (simp [hpt]; done) | (cases pt <;> simp at hpt ⊢)
@[simp] theorem Agg.loadThrough_only (pt : AggPart) (hpt : pt ∉ [AggPart.stencil]) (g : Agg) (t : Option Nat) (a : Nat) (n : Nat) : pt.get (Agg.loadThrough g t a n).1 = pt.get g := by
  simp at hpt
  unfold Agg.loadThrough
  (try dsimp only) <;> (repeat' split) <;> first | (simp [hpt]; done) | (cases pt <;> simp at hpt ⊢)
@[simp] theorem Agg.takeWrite_only (pt : AggPart) (hpt : pt ∉ [AggPart.mem, .gates, .mbx, .ap, .jobs, .elog, .pwr, .si, .chip, .outbox]) (g : Agg) (qpn : Nat) (q : Qp) (psn : Nat) (m : RdmaMsg) (bytes : List Byte) (last : Bool) : pt.get (Agg.takeWrite g qpn q psn m bytes last) = pt.get g := by
  simp at hpt
  unfold Agg.takeWrite
  (try dsimp only) <;> (repeat' split) <;> first | (simp [hpt]; done) | (cases pt <;> simp at hpt ⊢)
@[simp] theorem Agg.rdmaWriteIn_only (pt : AggPart) (hpt : pt ∉ [AggPart.mem, .gates, .mbx, .ap, .jobs, .elog, .pwr, .si, .chip, .outbox]) (g : Agg) (qpn : Nat) (q : Qp) (p : RocePkt) : pt.get (Agg.rdmaWriteIn g qpn q p) = pt.get g := by
  simp at hpt
  unfold Agg.rdmaWriteIn
  (try dsimp only) <;> (repeat' split) <;> first | (simp [hpt]; done) | (cases pt <;> simp at hpt ⊢)
@[simp] theorem Agg.rdmaReadIn_only (pt : AggPart) (hpt : pt ∉ [AggPart.mbx, .ap, .jobs, .stencil]) (g : Agg) (qpn : Nat) (q : Qp) (p : RocePkt) (fresh : Bool) (memError : Bool) : pt.get (Agg.rdmaReadIn g qpn q p fresh memError) = pt.get g := by
  simp at hpt
  unfold Agg.rdmaReadIn
  (try dsimp only) <;> (repeat' split) <;> first | (simp [hpt]; done) | (cases pt <;> simp at hpt ⊢)
@[simp] theorem Agg.rdmaSendIn_only (pt : AggPart) (hpt : pt ∉ [AggPart.mbx, .ap, .chip, .outbox]) (g : Agg) (qpn : Nat) (q : Qp) (p : RocePkt) : pt.get (Agg.rdmaSendIn g qpn q p) = pt.get g := by
  simp at hpt
  unfold Agg.rdmaSendIn
  (try dsimp only) <;> (repeat' split) <;> first | (simp [hpt]; done) | (cases pt <;> simp at hpt ⊢)
@[simp] theorem Agg.processPkt_only (pt : AggPart) (hpt : pt ∉ [AggPart.mem, .gates, .mbx, .ap, .jobs, .stencil, .elog, .pwr, .si, .chip, .outbox]) (g : Agg) (p : RocePkt) (memError : Bool) : pt.get (Agg.processPkt g p memError) = pt.get g := by
  simp at hpt
  unfold Agg.processPkt
  (try dsimp only) <;> (repeat' split) <;> first | (simp [hpt]; done) | (cases pt <;> simp at hpt ⊢)
@[simp] theorem Agg.congest_only (pt : AggPart) (hpt : pt ∉ [AggPart.ap]) (g : Agg) (p : RocePkt) : pt.get (Agg.congest g p) = pt.get g := by
  simp at hpt
  unfold Agg.congest
  (try dsimp only) <;> (repeat' split) <;> first | (simp [hpt]; done) | (cases pt <;> simp at hpt ⊢)
@[simp] theorem Agg.rdmaIn_only (pt : AggPart) (hpt : pt ∉ [AggPart.mem, .gates, .mbx, .ap, .jobs, .stencil, .elog, .pwr, .si, .chip, .outbox]) (g : Agg) (port : Nat) (p : RocePkt) (memError : Bool) : pt.get (Agg.rdmaIn g port p memError) = pt.get g := by
  simp at hpt
  unfold Agg.rdmaIn
  (try dsimp only) <;> (repeat' split) <;> first | (simp [hpt]; done) | (cases pt <;> simp at hpt ⊢)
@[simp] theorem Agg.contextFetched_only (pt : AggPart) (hpt : pt ∉ [AggPart.mem, .gates, .mbx, .ap, .jobs, .stencil, .elog, .pwr, .si, .chip, .outbox]) (g : Agg) (qpn : Nat) (ns : Nat) : pt.get (Agg.contextFetched g qpn ns) = pt.get g := by
  simp at hpt
  unfold Agg.contextFetched
  (try dsimp only) <;> (repeat' split) <;> first | (simp [hpt]; done) | (cases pt <;> simp at hpt ⊢)
@[simp] theorem Agg.resendAll_only (pt : AggPart) (hpt : pt ∉ [AggPart.ap]) (g : Agg) (qpn : Nat) (q : Qp) : pt.get (Agg.resendAll g qpn q) = pt.get g := by
  simp at hpt
  unfold Agg.resendAll
  (try dsimp only) <;> (repeat' split) <;> first | (simp [hpt]; done) | (cases pt <;> simp at hpt ⊢)
@[simp] theorem Agg.resendAll_regs (g : Agg) (qpn : Nat) (q : Qp) : (Agg.resendAll g qpn q).regs = g.regs := by
  unfold Agg.resendAll
  (try dsimp only) <;> (repeat' split) <;> simp
@[simp] theorem Agg.failQp_only (pt : AggPart) (hpt : pt ∉ [AggPart.ap]) (g : Agg) (qpn : Nat) (q : Qp) : pt.get (Agg.failQp g qpn q) = pt.get g := by
  simp at hpt
  unfold Agg.failQp
  (try dsimp only) <;> (repeat' split) <;> first | (simp [hpt]; done) | (cases pt <;> simp at hpt ⊢)
@[simp] theorem Agg.ackTimeout_only (pt : AggPart) (hpt : pt ∉ [AggPart.ap]) (g : Agg) (qpn : Nat) : pt.get (Agg.ackTimeout g qpn) = pt.get g := by
  simp at hpt
  unfold Agg.ackTimeout
  (try dsimp only) <;> (repeat' split) <;> first | (simp [hpt]; done) | (cases pt <;> simp at hpt ⊢)
@[simp] theorem Agg.requesterAck_only (pt : AggPart) (hpt : pt ∉ [AggPart.ap]) (g : Agg) (qpn : Nat) (psn : Nat) (nak : Option Nat) : pt.get (Agg.requesterAck g qpn psn nak) = pt.get g := by
  simp at hpt
  unfold Agg.requesterAck
  (try dsimp only) <;> (repeat' split) <;> first | (simp [hpt]; done) | (cases pt <;> simp at hpt ⊢)
@[simp] theorem Agg.cnpReceive_only (pt : AggPart) (g : Agg) (port : Nat) : pt.get (Agg.cnpReceive g port) = pt.get g := by
  unfold Agg.cnpReceive
  (try dsimp only) <;> (repeat' split) <;> first | (simp; done) | (cases pt <;> simp)
@[simp] theorem Agg.apLink_only (pt : AggPart) (hpt : pt ∉ [AggPart.ap]) (g : Agg) (port : Nat) (up : Bool) : pt.get (Agg.apLink g port up) = pt.get g := by
  simp at hpt
  unfold Agg.apLink
  (try dsimp only) <;> (repeat' split) <;> first | (simp [hpt]; done) | (cases pt <;> simp at hpt ⊢)
@[simp] theorem Agg.revokeInstant_only (pt : AggPart) (hpt : pt ∉ [AggPart.ap]) (g : Agg) (w : Nat) : pt.get (Agg.revokeInstant g w) = pt.get g := by
  simp at hpt
  unfold Agg.revokeInstant
  (try dsimp only) <;> (repeat' split) <;> first | (simp [hpt]; done) | (cases pt <;> simp at hpt ⊢)
@[simp] theorem Agg.revokeInstant_regs (g : Agg) (w : Nat) : (Agg.revokeInstant g w).regs = g.regs := by
  unfold Agg.revokeInstant
  (try dsimp only) <;> (repeat' split) <;> simp
@[simp] theorem Agg.endRevoke_only (pt : AggPart) (hpt : pt ∉ [AggPart.mbx, .ap, .jobs, .outbox]) (g : Agg) (w : Nat) (writesCut : Nat) (rs : List ReadOut) : pt.get (Agg.endRevoke g w writesCut rs) = pt.get g := by
  simp at hpt
  unfold Agg.endRevoke
  (try dsimp only) <;> (repeat' split) <;> first | (simp [hpt]; done) | (cases pt <;> simp at hpt ⊢)
@[simp] theorem Agg.revokeDrained_only (pt : AggPart) (hpt : pt ∉ [AggPart.mbx, .ap, .jobs, .outbox]) (g : Agg) (w : Nat) : pt.get (Agg.revokeDrained g w) = pt.get g := by
  simp at hpt
  unfold Agg.revokeDrained
  (try dsimp only) <;> (repeat' split) <;> first | (simp [hpt]; done) | (cases pt <;> simp at hpt ⊢)
@[simp] theorem Agg.revokeBound_only (pt : AggPart) (hpt : pt ∉ [AggPart.mbx, .ap, .jobs, .outbox]) (g : Agg) (w : Nat) : pt.get (Agg.revokeBound g w) = pt.get g := by
  simp at hpt
  unfold Agg.revokeBound
  (try dsimp only) <;> (repeat' split) <;> first | (simp [hpt]; done) | (cases pt <;> simp at hpt ⊢)
@[simp] theorem Agg.lifeTick_only (pt : AggPart) (g : Agg) : pt.get (Agg.lifeTick g) = pt.get g := by
  unfold Agg.lifeTick
  (try dsimp only) <;> (repeat' split) <;> first | (simp; done) | (cases pt <;> simp)
@[simp] theorem Agg.drainPort_only (pt : AggPart) (hpt : pt ∉ [AggPart.ap, .outbox]) (port : Nat) (n : Nat) (g : Agg) : pt.get (Agg.drainPort port n g) = pt.get g := by
  simp at hpt
  induction n generalizing g with
  | zero => rfl
  | succ n ih => unfold Agg.drainPort; (try dsimp only); (repeat' split) <;> first | (simp [hpt, ih]; done) | (cases pt <;> simp [ih] at hpt ⊢)
@[simp] theorem Agg.drainEgress_only (pt : AggPart) (hpt : pt ∉ [AggPart.ap, .outbox]) (g : Agg) : pt.get (Agg.drainEgress g) = pt.get g := by
  simp at hpt
  unfold Agg.drainEgress
  (try dsimp only) <;> (repeat' split) <;> first | (simp [hpt]; done) | (cases pt <;> simp at hpt ⊢)
@[simp] theorem Agg.drainOne_only (pt : AggPart) (hpt : pt ∉ [AggPart.mbx, .ap, .jobs, .outbox]) (g : Agg) (qpn : Nat) : pt.get (Agg.drainOne g qpn) = pt.get g := by
  simp at hpt
  unfold Agg.drainOne
  (try dsimp only) <;> (repeat' split) <;> first | (simp [hpt]; done) | (cases pt <;> simp at hpt ⊢)
@[simp] theorem Agg.qpDrains_only (pt : AggPart) (hpt : pt ∉ [AggPart.mbx, .ap, .jobs, .outbox]) (g : Agg) : pt.get (Agg.qpDrains g) = pt.get g := by
  simp at hpt
  unfold Agg.qpDrains
  (try dsimp only) <;> (repeat' split) <;> first | (simp [hpt]; done) | (cases pt <;> simp at hpt ⊢)
@[simp] theorem Agg.tick_only (pt : AggPart) (hpt : pt ∉ [AggPart.time, .mbx, .ap, .jobs, .boot, .outbox]) (g : Agg) : pt.get (Agg.tick g) = pt.get g := by
  simp at hpt
  unfold Agg.tick
  (try dsimp only) <;> (repeat' split) <;> first | (simp [hpt]; done) | (cases pt <;> simp at hpt ⊢)

end Sys2Proof.Machine
end

