-- ==== Sys2Proof/Laws/PartsAtu.lean ====
section
/-!
SUPPORT. PartsAtu.lean: one lemma per operation of the ATU that says which parts of it the operation may change.
-/
namespace Sys2Proof.Machine
set_option linter.all false
@[simp] theorem Atu.setReg_only (pt : AtuPart) (a : Atu) (off : Nat) (v : Word) : pt.get (Atu.setReg a off v) = pt.get a := by
  unfold Atu.setReg
  (try dsimp only) <;> (repeat' split) <;> first | (simp; done) | (cases pt <;> simp)
@[simp] theorem Atu.setRegN_only (pt : AtuPart) (a : Atu) (off : Nat) (v : Nat) : pt.get (Atu.setRegN a off v) = pt.get a := by
  unfold Atu.setRegN
  (try dsimp only) <;> (repeat' split) <;> first | (simp; done) | (cases pt <;> simp)
@[simp] theorem Atu.setFld_only (pt : AtuPart) (a : Atu) (off : Nat) (hi : Nat) (lo : Nat) (v : Nat) : pt.get (Atu.setFld a off hi lo v) = pt.get a := by
  unfold Atu.setFld
  (try dsimp only) <;> (repeat' split) <;> first | (simp; done) | (cases pt <;> simp)
@[simp] theorem Atu.inc_only (pt : AtuPart) (a : Atu) (off : Nat) (n : Nat) : pt.get (Atu.inc a off n) = pt.get a := by
  unfold Atu.inc
  (try dsimp only) <;> (repeat' split) <;> first | (simp; done) | (cases pt <;> simp)
@[simp] theorem Atu.incFldSat_only (pt : AtuPart) (a : Atu) (off : Nat) (hi : Nat) (lo : Nat) : pt.get (Atu.incFldSat a off hi lo) = pt.get a := by
  unfold Atu.incFldSat
  (try dsimp only) <;> (repeat' split) <;> first | (simp; done) | (cases pt <;> simp)
@[simp] theorem Atu.flag_only (pt : AtuPart) (a : Atu) (f : Flag) : pt.get (Atu.flag a f) = pt.get a := by
  unfold Atu.flag
  (try dsimp only) <;> (repeat' split) <;> first | (simp; done) | (cases pt <;> simp)
@[simp] theorem Atu.setClaim_only (pt : AtuPart) (a : Atu) (k : Nat) (holder : Nat) (index : Nat) (s : Side) : pt.get (Atu.setClaim a k holder index s) = pt.get a := by
  unfold Atu.setClaim
  (try dsimp only) <;> (repeat' split) <;> first | (simp; done) | (cases pt <;> simp)
@[simp] theorem Atu.freeClaim_only (pt : AtuPart) (a : Atu) (k : Nat) : pt.get (Atu.freeClaim a k) = pt.get a := by
  unfold Atu.freeClaim
  (try dsimp only) <;> (repeat' split) <;> first | (simp; done) | (cases pt <;> simp)
@[simp] theorem Atu.releaseDma_only (pt : AtuPart) (a : Atu) (holder : Nat) : pt.get (Atu.releaseDma a holder) = pt.get a := by
  unfold Atu.releaseDma
  (try dsimp only) <;> (repeat' split) <;> first | (simp; done) | (cases pt <;> simp)
@[simp] theorem Atu.flagTimes_only (pt : AtuPart) (a : Atu) (f : Flag) (y2 : Nat) : pt.get (Atu.flagTimes a f y2) = pt.get a := by
  induction y2 generalizing a with
  | zero => rfl
  | succ n ih => unfold Atu.flagTimes; (try dsimp only); (repeat' split) <;> first | (simp [ih]; done) | (cases pt <;> simp [ih])
@[simp] theorem Atu.addOverwritten_only (pt : AtuPart) (a : Atu) (n : Nat) : pt.get (Atu.addOverwritten a n) = pt.get a := by
  unfold Atu.addOverwritten
  (try dsimp only) <;> (repeat' split) <;> first | (simp; done) | (cases pt <;> simp)
@[simp] theorem Atu.evrAppend_only (pt : AtuPart) (hpt : pt ∉ [AtuPart.evr]) (a : Atu) (r : EvrRec) : pt.get (Atu.evrAppend a r) = pt.get a := by
  simp at hpt
  unfold Atu.evrAppend
  (try dsimp only) <;> (repeat' split) <;> first | (simp [hpt]; done) | (cases pt <;> simp at hpt ⊢)
@[simp] theorem Atu.event_only (pt : AtuPart) (hpt : pt ∉ [AtuPart.evr]) (a : Atu) (typ : Nat) (sev : Nat) (source : Nat) (detail : List Byte) : pt.get (Atu.event a typ sev source detail) = pt.get a := by
  simp at hpt
  unfold Atu.event
  (try dsimp only) <;> (repeat' split) <;> first | (simp [hpt]; done) | (cases pt <;> simp at hpt ⊢)
@[simp] theorem Atu.timeStateEvent_only (pt : AtuPart) (hpt : pt ∉ [AtuPart.evr]) (a : Atu) (t : TimeState) (off : Int) : pt.get (Atu.timeStateEvent a t off) = pt.get a := by
  simp at hpt
  unfold Atu.timeStateEvent
  (try dsimp only) <;> (repeat' split) <;> first | (simp [hpt]; done) | (cases pt <;> simp at hpt ⊢)
@[simp] theorem Atu.snapFaultEvent_only (pt : AtuPart) (hpt : pt ∉ [AtuPart.evr]) (a : Atu) : pt.get (Atu.snapFaultEvent a) = pt.get a := by
  simp at hpt
  unfold Atu.snapFaultEvent
  (try dsimp only) <;> (repeat' split) <;> first | (simp [hpt]; done) | (cases pt <;> simp at hpt ⊢)
@[simp] theorem Atu.fitEvent_only (pt : AtuPart) (hpt : pt ∉ [AtuPart.evr]) (a : Atu) (k : Nat) : pt.get (Atu.fitEvent a k) = pt.get a := by
  simp at hpt
  unfold Atu.fitEvent
  (try dsimp only) <;> (repeat' split) <;> first | (simp [hpt]; done) | (cases pt <;> simp at hpt ⊢)
@[simp] theorem Atu.fitEvents_only (pt : AtuPart) (hpt : pt ∉ [AtuPart.evr]) (a : Atu) : pt.get (Atu.fitEvents a) = pt.get a := by
  simp at hpt
  unfold Atu.fitEvents
  (try dsimp only) <;> (repeat' split) <;> first | (simp [hpt]; done) | (cases pt <;> simp at hpt ⊢)
@[simp] theorem Atu.lifeMove_only (pt : AtuPart) (hpt : pt ∉ [AtuPart.age, .sand]) (a : Atu) (v : Nat) : pt.get (Atu.lifeMove a v) = pt.get a := by
  simp at hpt
  unfold Atu.lifeMove
  (try dsimp only) <;> (repeat' split) <;> first | (simp [hpt]; done) | (cases pt <;> simp at hpt ⊢)
@[simp] theorem Atu.evrLoad_only (pt : AtuPart) (hpt : pt ∉ [AtuPart.age, .sand, .evr]) (a : Atu) : pt.get (Atu.evrLoad a) = pt.get a := by
  simp at hpt
  unfold Atu.evrLoad
  (try dsimp only) <;> (repeat' split) <;> first | (simp [hpt]; done) | (cases pt <;> simp at hpt ⊢)
@[simp] theorem Atu.startFlush_only (pt : AtuPart) (hpt : pt ∉ [AtuPart.age, .sand, .evr]) (a : Atu) (reason : Nat) : pt.get (Atu.startFlush a reason) = pt.get a := by
  simp at hpt
  unfold Atu.startFlush
  (try dsimp only) <;> (repeat' split) <;> first | (simp [hpt]; done) | (cases pt <;> simp at hpt ⊢)
@[simp] theorem Atu.flushErr_only (pt : AtuPart) (hpt : pt ∉ [AtuPart.evr]) (a : Atu) : pt.get (Atu.flushErr a) = pt.get a := by
  simp at hpt
  unfold Atu.flushErr
  (try dsimp only) <;> (repeat' split) <;> first | (simp [hpt]; done) | (cases pt <;> simp at hpt ⊢)
@[simp] theorem Atu.flushDone_only (pt : AtuPart) (hpt : pt ∉ [AtuPart.evr]) (a : Atu) : pt.get (Atu.flushDone a) = pt.get a := by
  simp at hpt
  unfold Atu.flushDone
  (try dsimp only) <;> (repeat' split) <;> first | (simp [hpt]; done) | (cases pt <;> simp at hpt ⊢)
@[simp] theorem Atu.lifeTick_only (pt : AtuPart) (a : Atu) : pt.get (Atu.lifeTick a) = pt.get a := by
  unfold Atu.lifeTick
  (try dsimp only) <;> (repeat' split) <;> first | (simp; done) | (cases pt <;> simp)
@[simp] theorem Atu.evrPowerFail_only (pt : AtuPart) (hpt : pt ∉ [AtuPart.age, .sand, .evr]) (a : Atu) : pt.get (Atu.evrPowerFail a) = pt.get a := by
  simp at hpt
  unfold Atu.evrPowerFail
  (try dsimp only) <;> (repeat' split) <;> first | (simp [hpt]; done) | (cases pt <;> simp at hpt ⊢)
@[simp] theorem Atu.hostRecord_only (pt : AtuPart) (hpt : pt ∉ [AtuPart.evr]) (a : Atu) (v : Word) : pt.get (Atu.hostRecord a v) = pt.get a := by
  simp at hpt
  unfold Atu.hostRecord
  (try dsimp only) <;> (repeat' split) <;> first | (simp [hpt]; done) | (cases pt <;> simp at hpt ⊢)
@[simp] theorem Atu.settle_only (pt : AtuPart) (hpt : pt ∉ [AtuPart.trace, .hostMem]) (a : Atu) (t : TraceStream) : pt.get (Atu.settle a t).1 = pt.get a := by
  simp at hpt
  unfold Atu.settle
  (try dsimp only) <;> (repeat' split) <;> first | (simp [hpt]; done) | (cases pt <;> simp at hpt ⊢)
@[simp] theorem Atu.setSrc_only (pt : AtuPart) (hpt : pt ∉ [AtuPart.trace, .hostMem]) (a : Atu) (n : Fin 16) (x : TraceSrc) : pt.get (Atu.setSrc a n x) = pt.get a := by
  simp at hpt
  unfold Atu.setSrc
  (try dsimp only) <;> (repeat' split) <;> first | (simp [hpt]; done) | (cases pt <;> simp at hpt ⊢)
@[simp] theorem Atu.setLogStream_only (pt : AtuPart) (hpt : pt ∉ [AtuPart.trace, .hostMem]) (a : Atu) (t : TraceStream) : pt.get (Atu.setLogStream a t) = pt.get a := by
  simp at hpt
  unfold Atu.setLogStream
  (try dsimp only) <;> (repeat' split) <;> first | (simp [hpt]; done) | (cases pt <;> simp at hpt ⊢)
@[simp] theorem Atu.pulse_only (pt : AtuPart) (hpt : pt ∉ [AtuPart.trace]) (a : Atu) (e : Nat) : pt.get (Atu.pulse a e) = pt.get a := by
  simp at hpt
  unfold Atu.pulse
  (try dsimp only) <;> (repeat' split) <;> first | (simp [hpt]; done) | (cases pt <;> simp at hpt ⊢)
@[simp] theorem Atu.pulse_regs (a : Atu) (e : Nat) : (Atu.pulse a e).regs = a.regs := by
  unfold Atu.pulse
  (try dsimp only) <;> (repeat' split) <;> simp
@[simp] theorem Atu.srcStart_only (pt : AtuPart) (hpt : pt ∉ [AtuPart.trace, .hostMem]) (a : Atu) (e : Nat) (n : Fin 16) : pt.get (Atu.srcStart a e n) = pt.get a := by
  simp at hpt
  unfold Atu.srcStart
  (try dsimp only) <;> (repeat' split) <;> first | (simp [hpt]; done) | (cases pt <;> simp at hpt ⊢)
@[simp] theorem Atu.eachSrc_only (pt : AtuPart) (a : Atu) (f : Atu → Fin 16 → Atu) (h : ∀ x y, pt.get (f x y) = pt.get x) : pt.get (Atu.eachSrc a f) = pt.get a := by
  unfold Atu.eachSrc
  (try dsimp only) <;> (repeat' split) <;> first | (simp [h]; done) | (cases pt <;> simp [h])
@[simp] theorem Atu.eachSrc_regs (a : Atu) (f : Atu → Fin 16 → Atu) (h : ∀ x y, (f x y).regs = x.regs) : (Atu.eachSrc a f).regs = a.regs := by
  unfold Atu.eachSrc
  (try dsimp only) <;> (repeat' split) <;> simp [h]
@[simp] theorem Atu.traceStart_only (pt : AtuPart) (hpt : pt ∉ [AtuPart.trace, .hostMem]) (a : Atu) (e : Nat) : pt.get (Atu.traceStart a e) = pt.get a := by
  simp at hpt
  unfold Atu.traceStart
  (try dsimp only) <;> (repeat' split) <;> first | (simp [hpt]; done) | (cases pt <;> simp at hpt ⊢)
@[simp] theorem Atu.srcStop_only (pt : AtuPart) (hpt : pt ∉ [AtuPart.trace, .hostMem]) (a : Atu) (e : Nat) (n : Fin 16) : pt.get (Atu.srcStop a e n) = pt.get a := by
  simp at hpt
  unfold Atu.srcStop
  (try dsimp only) <;> (repeat' split) <;> first | (simp [hpt]; done) | (cases pt <;> simp at hpt ⊢)
@[simp] theorem Atu.traceStop_only (pt : AtuPart) (hpt : pt ∉ [AtuPart.trace, .hostMem]) (a : Atu) (e : Nat) : pt.get (Atu.traceStop a e) = pt.get a := by
  simp at hpt
  unfold Atu.traceStop
  (try dsimp only) <;> (repeat' split) <;> first | (simp [hpt]; done) | (cases pt <;> simp at hpt ⊢)
@[simp] theorem Atu.checkBufFull_only (pt : AtuPart) (hpt : pt ∉ [AtuPart.trace, .hostMem]) (a : Atu) (was : Bool) : pt.get (Atu.checkBufFull a was) = pt.get a := by
  simp at hpt
  unfold Atu.checkBufFull
  (try dsimp only) <;> (repeat' split) <;> first | (simp [hpt]; done) | (cases pt <;> simp at hpt ⊢)
@[simp] theorem Atu.stopEvent_only (pt : AtuPart) (hpt : pt ∉ [AtuPart.trace, .hostMem]) (a : Atu) (e : Nat) : pt.get (Atu.stopEvent a e) = pt.get a := by
  simp at hpt
  unfold Atu.stopEvent
  (try dsimp only) <;> (repeat' split) <;> first | (simp [hpt]; done) | (cases pt <;> simp at hpt ⊢)
@[simp] theorem Atu.fire_only (pt : AtuPart) (hpt : pt ∉ [AtuPart.trace, .hostMem]) (a : Atu) (es : List Nat) : pt.get (Atu.fire a es) = pt.get a := by
  simp at hpt
  unfold Atu.fire
  (try dsimp only) <;> (repeat' split) <;> first | (simp [hpt]; done) | (cases pt <;> simp at hpt ⊢)
@[simp] theorem Atu.retire_only (pt : AtuPart) (hpt : pt ∉ [AtuPart.trace, .hostMem]) (a : Atu) (n : Fin 16) (r : Retire) : pt.get (Atu.retire a n r) = pt.get a := by
  simp at hpt
  unfold Atu.retire
  (try dsimp only) <;> (repeat' split) <;> first | (simp [hpt]; done) | (cases pt <;> simp at hpt ⊢)
@[simp] theorem Atu.mark_only (pt : AtuPart) (hpt : pt ∉ [AtuPart.trace, .hostMem]) (a : Atu) (n : Fin 16) (recv : Bool) (xid : BitVec 32) : pt.get (Atu.mark a n recv xid) = pt.get a := by
  simp at hpt
  unfold Atu.mark
  (try dsimp only) <;> (repeat' split) <;> first | (simp [hpt]; done) | (cases pt <;> simp at hpt ⊢)
@[simp] theorem Atu.srcStatus_only (pt : AtuPart) (a : Atu) (n : Fin 16) : pt.get (Atu.srcStatus a n) = pt.get a := by
  unfold Atu.srcStatus
  (try dsimp only) <;> (repeat' split) <;> first | (simp; done) | (cases pt <;> simp)
@[simp] theorem Atu.srcContext_only (pt : AtuPart) (hpt : pt ∉ [AtuPart.trace, .hostMem]) (a : Atu) (n : Fin 16) : pt.get (Atu.srcContext a n) = pt.get a := by
  simp at hpt
  unfold Atu.srcContext
  (try dsimp only) <;> (repeat' split) <;> first | (simp [hpt]; done) | (cases pt <;> simp at hpt ⊢)
@[simp] theorem Atu.contextChange_only (pt : AtuPart) (hpt : pt ∉ [AtuPart.trace, .hostMem]) (a : Atu) (n : Fin 16) (priv : BitVec 2) (secure : Bool) (pc : BitVec 64) : pt.get (Atu.contextChange a n priv secure pc) = pt.get a := by
  simp at hpt
  unfold Atu.contextChange
  (try dsimp only) <;> (repeat' split) <;> first | (simp [hpt]; done) | (cases pt <;> simp at hpt ⊢)
@[simp] theorem Atu.corePowerDown_only (pt : AtuPart) (hpt : pt ∉ [AtuPart.trace, .hostMem]) (a : Atu) (n : Fin 16) : pt.get (Atu.corePowerDown a n) = pt.get a := by
  simp at hpt
  unfold Atu.corePowerDown
  (try dsimp only) <;> (repeat' split) <;> first | (simp [hpt]; done) | (cases pt <;> simp at hpt ⊢)
@[simp] theorem Atu.corePowerUp_only (pt : AtuPart) (hpt : pt ∉ [AtuPart.trace, .hostMem]) (a : Atu) (n : Fin 16) (priv : BitVec 2) (secure : Bool) (pc : BitVec 64) : pt.get (Atu.corePowerUp a n priv secure pc) = pt.get a := by
  simp at hpt
  unfold Atu.corePowerUp
  (try dsimp only) <;> (repeat' split) <;> first | (simp [hpt]; done) | (cases pt <;> simp at hpt ⊢)
@[simp] theorem Atu.srcOverflow_only (pt : AtuPart) (hpt : pt ∉ [AtuPart.trace, .hostMem]) (a : Atu) (n : Fin 16) : pt.get (Atu.srcOverflow a n) = pt.get a := by
  simp at hpt
  unfold Atu.srcOverflow
  (try dsimp only) <;> (repeat' split) <;> first | (simp [hpt]; done) | (cases pt <;> simp at hpt ⊢)
@[simp] theorem Atu.logOverflow_only (pt : AtuPart) (hpt : pt ∉ [AtuPart.trace, .hostMem]) (a : Atu) : pt.get (Atu.logOverflow a) = pt.get a := by
  simp at hpt
  unfold Atu.logOverflow
  (try dsimp only) <;> (repeat' split) <;> first | (simp [hpt]; done) | (cases pt <;> simp at hpt ⊢)
@[simp] theorem Atu.srcChunkClose_only (pt : AtuPart) (hpt : pt ∉ [AtuPart.trace, .hostMem]) (a : Atu) (n : Fin 16) : pt.get (Atu.srcChunkClose a n) = pt.get a := by
  simp at hpt
  unfold Atu.srcChunkClose
  (try dsimp only) <;> (repeat' split) <;> first | (simp [hpt]; done) | (cases pt <;> simp at hpt ⊢)
@[simp] theorem Atu.logChunkClose_only (pt : AtuPart) (hpt : pt ∉ [AtuPart.trace, .hostMem]) (a : Atu) : pt.get (Atu.logChunkClose a) = pt.get a := by
  simp at hpt
  unfold Atu.logChunkClose
  (try dsimp only) <;> (repeat' split) <;> first | (simp [hpt]; done) | (cases pt <;> simp at hpt ⊢)
@[simp] theorem Atu.stopDelayEnd_only (pt : AtuPart) (hpt : pt ∉ [AtuPart.trace, .hostMem]) (a : Atu) : pt.get (Atu.stopDelayEnd a) = pt.get a := by
  simp at hpt
  unfold Atu.stopDelayEnd
  (try dsimp only) <;> (repeat' split) <;> first | (simp [hpt]; done) | (cases pt <;> simp at hpt ⊢)
@[simp] theorem Atu.pulseEnd_only (pt : AtuPart) (hpt : pt ∉ [AtuPart.trace]) (a : Atu) (k : Fin 4) : pt.get (Atu.pulseEnd a k) = pt.get a := by
  simp at hpt
  unfold Atu.pulseEnd
  (try dsimp only) <;> (repeat' split) <;> first | (simp [hpt]; done) | (cases pt <;> simp at hpt ⊢)
@[simp] theorem Atu.pulseEnd_regs (a : Atu) (k : Fin 4) : (Atu.pulseEnd a k).regs = a.regs := by
  unfold Atu.pulseEnd
  (try dsimp only) <;> (repeat' split) <;> simp
@[simp] theorem Atu.bufDmaError_only (pt : AtuPart) (a : Atu) : pt.get (Atu.bufDmaError a) = pt.get a := by
  unfold Atu.bufDmaError
  (try dsimp only) <;> (repeat' split) <;> first | (simp; done) | (cases pt <;> simp)
@[simp] theorem Atu.streamOverflow_only (pt : AtuPart) (hpt : pt ∉ [AtuPart.trace, .hostMem]) (a : Atu) (t : Fin 17) : pt.get (Atu.streamOverflow a t) = pt.get a := by
  simp at hpt
  unfold Atu.streamOverflow
  (try dsimp only) <;> (repeat' split) <;> first | (simp [hpt]; done) | (cases pt <;> simp at hpt ⊢)
@[simp] theorem Atu.streamChunkClose_only (pt : AtuPart) (hpt : pt ∉ [AtuPart.trace, .hostMem]) (a : Atu) (t : Fin 17) : pt.get (Atu.streamChunkClose a t) = pt.get a := by
  simp at hpt
  unfold Atu.streamChunkClose
  (try dsimp only) <;> (repeat' split) <;> first | (simp [hpt]; done) | (cases pt <;> simp at hpt ⊢)
@[simp] theorem Atu.trigInEdge_only (pt : AtuPart) (hpt : pt ∉ [AtuPart.trace, .hostMem]) (a : Atu) (lines : BitVec 4) : pt.get (Atu.trigInEdge a lines) = pt.get a := by
  simp at hpt
  unfold Atu.trigInEdge
  (try dsimp only) <;> (repeat' split) <;> first | (simp [hpt]; done) | (cases pt <;> simp at hpt ⊢)
@[simp] theorem Atu.startTrace_only (pt : AtuPart) (hpt : pt ∉ [AtuPart.trace, .hostMem]) (a : Atu) (e : BitVec 6) : pt.get (Atu.startTrace a e) = pt.get a := by
  simp at hpt
  unfold Atu.startTrace
  (try dsimp only) <;> (repeat' split) <;> first | (simp [hpt]; done) | (cases pt <;> simp at hpt ⊢)
@[simp] theorem Atu.stopTrace_only (pt : AtuPart) (hpt : pt ∉ [AtuPart.trace, .hostMem]) (a : Atu) (e : BitVec 6) : pt.get (Atu.stopTrace a e) = pt.get a := by
  simp at hpt
  unfold Atu.stopTrace
  (try dsimp only) <;> (repeat' split) <;> first | (simp [hpt]; done) | (cases pt <;> simp at hpt ⊢)
@[simp] theorem Atu.recheckContexts_only (pt : AtuPart) (hpt : pt ∉ [AtuPart.trace, .hostMem]) (a : Atu) : pt.get (Atu.recheckContexts a) = pt.get a := by
  simp at hpt
  unfold Atu.recheckContexts
  (try dsimp only) <;> (repeat' split) <;> first | (simp [hpt]; done) | (cases pt <;> simp at hpt ⊢)
@[simp] theorem Atu.authToken_only (pt : AtuPart) (hpt : pt ∉ [AtuPart.trace, .hostMem]) (a : Atu) (s : SideRegs) (hi : Word) : pt.get ((Atu.authToken a s hi).2) = pt.get a := by
  simp at hpt
  unfold Atu.authToken
  (try dsimp only) <;> (repeat' split) <;> first | (simp [hpt]; done) | (cases pt <;> simp at hpt ⊢)
@[simp] theorem Atu.authExpire_only (pt : AtuPart) (hpt : pt ∉ [AtuPart.trace, .hostMem]) (a : Atu) : pt.get (Atu.authExpire a) = pt.get a := by
  simp at hpt
  unfold Atu.authExpire
  (try dsimp only) <;> (repeat' split) <;> first | (simp [hpt]; done) | (cases pt <;> simp at hpt ⊢)
@[simp] theorem Atu.logPut_only (pt : AtuPart) (hpt : pt ∉ [AtuPart.trace, .hostMem]) (a : Atu) (marks : Nat) (pkt : List Byte) : pt.get (Atu.logPut a marks pkt) = pt.get a := by
  simp at hpt
  unfold Atu.logPut
  (try dsimp only) <;> (repeat' split) <;> first | (simp [hpt]; done) | (cases pt <;> simp at hpt ⊢)
@[simp] theorem Atu.logMatch_only (pt : AtuPart) (hpt : pt ∉ [AtuPart.trace, .hostMem]) (a : Atu) (k : Nat) (b : LogByte) : pt.get (Atu.logMatch a k b) = pt.get a := by
  simp at hpt
  unfold Atu.logMatch
  (try dsimp only) <;> (repeat' split) <;> first | (simp [hpt]; done) | (cases pt <;> simp at hpt ⊢)
@[simp] theorem Atu.logFeed_only (pt : AtuPart) (hpt : pt ∉ [AtuPart.trace, .log, .hostMem]) (a : Atu) (b : LogByte) : pt.get (Atu.logFeed a b) = pt.get a := by
  simp at hpt
  unfold Atu.logFeed
  (try dsimp only) <;> (repeat' split) <;> first | (simp [hpt]; done) | (cases pt <;> simp at hpt ⊢)
@[simp] theorem Atu.logInvalid_only (pt : AtuPart) (hpt : pt ∉ [AtuPart.trace, .log, .hostMem]) (a : Atu) (bs : List LogByte) : pt.get (Atu.logInvalid a bs) = pt.get a := by
  simp at hpt
  unfold Atu.logInvalid
  (try dsimp only) <;> (repeat' split) <;> first | (simp [hpt]; done) | (cases pt <;> simp at hpt ⊢)
@[simp] theorem Atu.setPartChar_only (pt : AtuPart) (hpt : pt ∉ [AtuPart.log]) (a : Atu) (bs : List LogByte) : pt.get (Atu.setPartChar a bs) = pt.get a := by
  simp at hpt
  unfold Atu.setPartChar
  (try dsimp only) <;> (repeat' split) <;> first | (simp [hpt]; done) | (cases pt <;> simp at hpt ⊢)
@[simp] theorem Atu.setPartChar_regs (a : Atu) (bs : List LogByte) : (Atu.setPartChar a bs).regs = a.regs := by
  unfold Atu.setPartChar
  (try dsimp only) <;> (repeat' split) <;> simp
@[simp] theorem Atu.logLead_only (pt : AtuPart) (hpt : pt ∉ [AtuPart.trace, .log, .hostMem]) (a : Atu) (b : LogByte) : pt.get (Atu.logLead a b) = pt.get a := by
  simp at hpt
  unfold Atu.logLead
  (try dsimp only) <;> (repeat' split) <;> first | (simp [hpt]; done) | (cases pt <;> simp at hpt ⊢)
@[simp] theorem Atu.logUtf8_only (pt : AtuPart) (hpt : pt ∉ [AtuPart.trace, .log, .hostMem]) (a : Atu) (b : LogByte) : pt.get (Atu.logUtf8 a b) = pt.get a := by
  simp at hpt
  unfold Atu.logUtf8
  (try dsimp only) <;> (repeat' split) <;> first | (simp [hpt]; done) | (cases pt <;> simp at hpt ⊢)
@[simp] theorem Atu.logUnheld_only (pt : AtuPart) (hpt : pt ∉ [AtuPart.trace, .log, .hostMem]) (a : Atu) : pt.get (Atu.logUnheld a) = pt.get a := by
  simp at hpt
  unfold Atu.logUnheld
  (try dsimp only) <;> (repeat' split) <;> first | (simp [hpt]; done) | (cases pt <;> simp at hpt ⊢)
@[simp] theorem Atu.logEnd_only (pt : AtuPart) (hpt : pt ∉ [AtuPart.trace, .log, .hostMem]) (a : Atu) : pt.get (Atu.logEnd a) = pt.get a := by
  simp at hpt
  unfold Atu.logEnd
  (try dsimp only) <;> (repeat' split) <;> first | (simp [hpt]; done) | (cases pt <;> simp at hpt ⊢)
@[simp] theorem Atu.logBufDone_only (pt : AtuPart) (hpt : pt ∉ [AtuPart.trace, .log, .hostMem]) (a : Atu) (b : LogBuf) : pt.get (Atu.logBufDone a b) = pt.get a := by
  simp at hpt
  unfold Atu.logBufDone
  (try dsimp only) <;> (repeat' split) <;> first | (simp [hpt]; done) | (cases pt <;> simp at hpt ⊢)
@[simp] theorem Atu.logConsume_only (pt : AtuPart) (hpt : pt ∉ [AtuPart.trace, .log, .hostMem]) (a : Atu) : pt.get (Atu.logConsume a) = pt.get a := by
  simp at hpt
  unfold Atu.logConsume
  (try dsimp only) <;> (repeat' split) <;> first | (simp [hpt]; done) | (cases pt <;> simp at hpt ⊢)
@[simp] theorem Atu.logDmaError_only (pt : AtuPart) (hpt : pt ∉ [AtuPart.trace, .log, .hostMem]) (a : Atu) : pt.get (Atu.logDmaError a) = pt.get a := by
  simp at hpt
  unfold Atu.logDmaError
  (try dsimp only) <;> (repeat' split) <;> first | (simp [hpt]; done) | (cases pt <;> simp at hpt ⊢)
@[simp] theorem Atu.logSubmit_only (pt : AtuPart) (hpt : pt ∉ [AtuPart.log]) (a : Atu) (v : Word) : pt.get (Atu.logSubmit a v) = pt.get a := by
  simp at hpt
  unfold Atu.logSubmit
  (try dsimp only) <;> (repeat' split) <;> first | (simp [hpt]; done) | (cases pt <;> simp at hpt ⊢)
@[simp] theorem Atu.logSubmit_regs (a : Atu) (v : Word) : (Atu.logSubmit a v).regs = a.regs := by
  unfold Atu.logSubmit
  (try dsimp only) <;> (repeat' split) <;> simp
@[simp] theorem Atu.logRestart_only (pt : AtuPart) (hpt : pt ∉ [AtuPart.trace, .log]) (a : Atu) : pt.get (Atu.logRestart a) = pt.get a := by
  simp at hpt
  unfold Atu.logRestart
  (try dsimp only) <;> (repeat' split) <;> first | (simp [hpt]; done) | (cases pt <;> simp at hpt ⊢)
@[simp] theorem Atu.modChan_only (pt : AtuPart) (hpt : pt ∉ [AtuPart.samp]) (a : Atu) (n : Nat) (f : Chan → Chan) : pt.get (Atu.modChan a n f) = pt.get a := by
  simp at hpt
  unfold Atu.modChan
  (try dsimp only) <;> (repeat' split) <;> first | (simp [hpt]; done) | (cases pt <;> simp at hpt ⊢)
@[simp] theorem Atu.modChan_regs (a : Atu) (n : Nat) (f : Chan → Chan) : (Atu.modChan a n f).regs = a.regs := by
  unfold Atu.modChan
  (try dsimp only) <;> (repeat' split) <;> simp
@[simp] theorem Atu.mapChans_only (pt : AtuPart) (hpt : pt ∉ [AtuPart.samp]) (a : Atu) (f : Nat → Chan → Chan) : pt.get (Atu.mapChans a f) = pt.get a := by
  simp at hpt
  unfold Atu.mapChans
  (try dsimp only) <;> (repeat' split) <;> first | (simp [hpt]; done) | (cases pt <;> simp at hpt ⊢)
@[simp] theorem Atu.mapChans_regs (a : Atu) (f : Nat → Chan → Chan) : (Atu.mapChans a f).regs = a.regs := by
  unfold Atu.mapChans
  (try dsimp only) <;> (repeat' split) <;> simp
@[simp] theorem Atu.planPeriod_only (pt : AtuPart) (hpt : pt ∉ [AtuPart.samp]) (a : Atu) (c : Nat) (period : Nat) : pt.get (Atu.planPeriod a c period) = pt.get a := by
  simp at hpt
  unfold Atu.planPeriod
  (try dsimp only) <;> (repeat' split) <;> first | (simp [hpt]; done) | (cases pt <;> simp at hpt ⊢)
@[simp] theorem Atu.planPeriod_regs (a : Atu) (c : Nat) (period : Nat) : (Atu.planPeriod a c period).regs = a.regs := by
  unfold Atu.planPeriod
  (try dsimp only) <;> (repeat' split) <;> simp
@[simp] theorem Atu.applyPlanned_only (pt : AtuPart) (hpt : pt ∉ [AtuPart.samp]) (a : Atu) : pt.get (Atu.applyPlanned a) = pt.get a := by
  simp at hpt
  unfold Atu.applyPlanned
  (try dsimp only) <;> (repeat' split) <;> first | (simp [hpt]; done) | (cases pt <;> simp at hpt ⊢)
@[simp] theorem Atu.resume_only (pt : AtuPart) (hpt : pt ∉ [AtuPart.samp]) (a : Atu) (period : Nat) (fresh : List Nat) (y3 : List Nat) : pt.get (Atu.resume a period fresh y3) = pt.get a := by
  simp at hpt
  induction y3 generalizing a with
  | nil => rfl
  | cons x l ih => unfold Atu.resume; (try dsimp only); (repeat' split) <;> first | (simp [hpt, ih]; done) | (cases pt <;> simp [ih] at hpt ⊢)
@[simp] theorem Atu.resume_regs (a : Atu) (period : Nat) (fresh : List Nat) (y3 : List Nat) : (Atu.resume a period fresh y3).regs = a.regs := by
  induction y3 generalizing a with
  | nil => rfl
  | cons x l ih => unfold Atu.resume; (try dsimp only); (repeat' split) <;> simp [ih]
@[simp] theorem Atu.periodChanged_only (pt : AtuPart) (hpt : pt ∉ [AtuPart.samp]) (a : Atu) (period : Nat) : pt.get (Atu.periodChanged a period) = pt.get a := by
  simp at hpt
  unfold Atu.periodChanged
  (try dsimp only) <;> (repeat' split) <;> first | (simp [hpt]; done) | (cases pt <;> simp at hpt ⊢)
@[simp] theorem Atu.budgetOnLearn_only (pt : AtuPart) (hpt : pt ∉ [AtuPart.samp]) (a : Atu) (periods : List Nat) : pt.get (Atu.budgetOnLearn a periods) = pt.get a := by
  simp at hpt
  unfold Atu.budgetOnLearn
  (try dsimp only) <;> (repeat' split) <;> first | (simp [hpt]; done) | (cases pt <;> simp at hpt ⊢)
@[simp] theorem Atu.budgetOnLearn_regs (a : Atu) (periods : List Nat) : (Atu.budgetOnLearn a periods).regs = a.regs := by
  unfold Atu.budgetOnLearn
  (try dsimp only) <;> (repeat' split) <;> simp
@[simp] theorem Atu.firstSuspend_only (pt : AtuPart) (hpt : pt ∉ [AtuPart.samp]) (a : Atu) : pt.get (Atu.firstSuspend a) = pt.get a := by
  simp at hpt
  unfold Atu.firstSuspend
  (try dsimp only) <;> (repeat' split) <;> first | (simp [hpt]; done) | (cases pt <;> simp at hpt ⊢)
@[simp] theorem Atu.commitAccept_only (pt : AtuPart) (hpt : pt ∉ [AtuPart.samp]) (a : Atu) (mask : Nat) (actWin : Nat) : pt.get (Atu.commitAccept a mask actWin) = pt.get a := by
  simp at hpt
  unfold Atu.commitAccept
  (try dsimp only) <;> (repeat' split) <;> first | (simp [hpt]; done) | (cases pt <;> simp at hpt ⊢)
@[simp] theorem Atu.commitAccept_regs (a : Atu) (mask : Nat) (actWin : Nat) : (Atu.commitAccept a mask actWin).regs = a.regs := by
  unfold Atu.commitAccept
  (try dsimp only) <;> (repeat' split) <;> simp
@[simp] theorem Atu.commit_only (pt : AtuPart) (hpt : pt ∉ [AtuPart.samp]) (a : Atu) (side : Side) (mask : Nat) (actWin : Nat) : pt.get ((Atu.commit a side mask actWin).2) = pt.get a := by
  simp at hpt
  unfold Atu.commit
  (try dsimp only) <;> (repeat' split) <;> first | (simp [hpt]; done) | (cases pt <;> simp at hpt ⊢)
@[simp] theorem Atu.dropPending_only (pt : AtuPart) (hpt : pt ∉ [AtuPart.samp]) (a : Atu) (mask : Nat) : pt.get (Atu.dropPending a mask) = pt.get a := by
  simp at hpt
  unfold Atu.dropPending
  (try dsimp only) <;> (repeat' split) <;> first | (simp [hpt]; done) | (cases pt <;> simp at hpt ⊢)
@[simp] theorem Atu.dropPending_regs (a : Atu) (mask : Nat) : (Atu.dropPending a mask).regs = a.regs := by
  unfold Atu.dropPending
  (try dsimp only) <;> (repeat' split) <;> simp
@[simp] theorem Atu.commitCancel_only (pt : AtuPart) (hpt : pt ∉ [AtuPart.samp]) (a : Atu) (side : Side) (mask : Nat) : pt.get ((Atu.commitCancel a side mask).2) = pt.get a := by
  simp at hpt
  unfold Atu.commitCancel
  (try dsimp only) <;> (repeat' split) <;> first | (simp [hpt]; done) | (cases pt <;> simp at hpt ⊢)
@[simp] theorem Atu.commitApply_only (pt : AtuPart) (hpt : pt ∉ [AtuPart.samp]) (w : Nat) (a : Atu) (c : Commit) : pt.get (Atu.commitApply w a c) = pt.get a := by
  simp at hpt
  unfold Atu.commitApply
  (try dsimp only) <;> (repeat' split) <;> first | (simp [hpt]; done) | (cases pt <;> simp at hpt ⊢)
@[simp] theorem Atu.applyWhere_only (pt : AtuPart) (hpt : pt ∉ [AtuPart.samp]) (a : Atu) (w : Nat) (due : Commit → Bool) : pt.get (Atu.applyWhere a w due) = pt.get a := by
  simp at hpt
  unfold Atu.applyWhere
  (try dsimp only) <;> (repeat' split) <;> first | (simp [hpt]; done) | (cases pt <;> simp at hpt ⊢)
@[simp] theorem Atu.applyCommits_only (pt : AtuPart) (hpt : pt ∉ [AtuPart.samp]) (a : Atu) (w : Nat) : pt.get (Atu.applyCommits a w) = pt.get a := by
  simp at hpt
  unfold Atu.applyCommits
  (try dsimp only) <;> (repeat' split) <;> first | (simp [hpt]; done) | (cases pt <;> simp at hpt ⊢)
@[simp] theorem Atu.accrueNow_only (pt : AtuPart) (hpt : pt ∉ [AtuPart.samp]) (a : Atu) : pt.get (Atu.accrueNow a) = pt.get a := by
  simp at hpt
  unfold Atu.accrueNow
  (try dsimp only) <;> (repeat' split) <;> first | (simp [hpt]; done) | (cases pt <;> simp at hpt ⊢)
@[simp] theorem Atu.accrueNow_regs (a : Atu) : (Atu.accrueNow a).regs = a.regs := by
  unfold Atu.accrueNow
  (try dsimp only) <;> (repeat' split) <;> simp
@[simp] theorem Atu.mapBlocks_only (pt : AtuPart) (hpt : pt ∉ [AtuPart.samp]) (a : Atu) (f : Fin 16 → TapBlock → TapBlock) : pt.get (Atu.mapBlocks a f) = pt.get a := by
  simp at hpt
  unfold Atu.mapBlocks
  (try dsimp only) <;> (repeat' split) <;> first | (simp [hpt]; done) | (cases pt <;> simp at hpt ⊢)
@[simp] theorem Atu.mapBlocks_regs (a : Atu) (f : Fin 16 → TapBlock → TapBlock) : (Atu.mapBlocks a f).regs = a.regs := by
  unfold Atu.mapBlocks
  (try dsimp only) <;> (repeat' split) <;> simp
@[simp] theorem Atu.stopRegion_only (pt : AtuPart) (hpt : pt ∉ [AtuPart.samp]) (a : Atu) (r : Nat) (taps : List (List (BitVec 48))) : pt.get (Atu.stopRegion a r taps) = pt.get a := by
  simp at hpt
  unfold Atu.stopRegion
  (try dsimp only) <;> (repeat' split) <;> first | (simp [hpt]; done) | (cases pt <;> simp at hpt ⊢)
@[simp] theorem Atu.regionEdge_only (pt : AtuPart) (hpt : pt ∉ [AtuPart.samp]) (a : Atu) (r : Fin 16) (stop : Bool) (asserted : Bool) (taps : List (List (BitVec 48))) : pt.get (Atu.regionEdge a r stop asserted taps) = pt.get a := by
  simp at hpt
  unfold Atu.regionEdge
  (try dsimp only) <;> (repeat' split) <;> first | (simp [hpt]; done) | (cases pt <;> simp at hpt ⊢)
@[simp] theorem Atu.openWindow_only (pt : AtuPart) (hpt : pt ∉ [AtuPart.samp]) (a : Atu) : pt.get (Atu.openWindow a) = pt.get a := by
  simp at hpt
  unfold Atu.openWindow
  (try dsimp only) <;> (repeat' split) <;> first | (simp [hpt]; done) | (cases pt <;> simp at hpt ⊢)
@[simp] theorem Atu.openWindow_regs (a : Atu) : (Atu.openWindow a).regs = a.regs := by
  unfold Atu.openWindow
  (try dsimp only) <;> (repeat' split) <;> simp
@[simp] theorem Atu.passWindow_only (pt : AtuPart) (hpt : pt ∉ [AtuPart.samp]) (a : Atu) (k : Nat) : pt.get (Atu.passWindow a k) = pt.get a := by
  simp at hpt
  unfold Atu.passWindow
  (try dsimp only) <;> (repeat' split) <;> first | (simp [hpt]; done) | (cases pt <;> simp at hpt ⊢)
@[simp] theorem Atu.passWindow_regs (a : Atu) (k : Nat) : (Atu.passWindow a k).regs = a.regs := by
  unfold Atu.passWindow
  (try dsimp only) <;> (repeat' split) <;> simp
@[simp] theorem Atu.closeWindow_only (pt : AtuPart) (hpt : pt ∉ [AtuPart.samp]) (a : Atu) (n : Nat) : pt.get (Atu.closeWindow a n) = pt.get a := by
  simp at hpt
  unfold Atu.closeWindow
  (try dsimp only) <;> (repeat' split) <;> first | (simp [hpt]; done) | (cases pt <;> simp at hpt ⊢)
@[simp] theorem Atu.closeWindow_regs (a : Atu) (n : Nat) : (Atu.closeWindow a n).regs = a.regs := by
  unfold Atu.closeWindow
  (try dsimp only) <;> (repeat' split) <;> simp
@[simp] theorem Atu.setBlock_only (pt : AtuPart) (hpt : pt ∉ [AtuPart.samp]) (a : Atu) (b : Fin 16) (t : TapBlock) : pt.get (Atu.setBlock a b t) = pt.get a := by
  simp at hpt
  unfold Atu.setBlock
  (try dsimp only) <;> (repeat' split) <;> first | (simp [hpt]; done) | (cases pt <;> simp at hpt ⊢)
@[simp] theorem Atu.setBlock_regs (a : Atu) (b : Fin 16) (t : TapBlock) : (Atu.setBlock a b t).regs = a.regs := by
  unfold Atu.setBlock
  (try dsimp only) <;> (repeat' split) <;> simp
@[simp] theorem Atu.countSkipped_only (pt : AtuPart) (hpt : pt ∉ [AtuPart.samp]) (a : Atu) (part : Bool) (lo : Nat) (hi : Nat) : pt.get (Atu.countSkipped a part lo hi) = pt.get a := by
  simp at hpt
  unfold Atu.countSkipped
  (try dsimp only) <;> (repeat' split) <;> first | (simp [hpt]; done) | (cases pt <;> simp at hpt ⊢)
@[simp] theorem Atu.countSkipped_regs (a : Atu) (part : Bool) (lo : Nat) (hi : Nat) : (Atu.countSkipped a part lo hi).regs = a.regs := by
  unfold Atu.countSkipped
  (try dsimp only) <;> (repeat' split) <;> simp
@[simp] theorem Atu.withTime_only (pt : AtuPart) (hpt : pt ∉ [AtuPart.time]) (a : Atu) (f : AtuTime → AtuTime) : pt.get (Atu.withTime a f) = pt.get a := by
  simp at hpt
  unfold Atu.withTime
  (try dsimp only) <;> (repeat' split) <;> first | (simp [hpt]; done) | (cases pt <;> simp at hpt ⊢)
@[simp] theorem Atu.withTime_regs (a : Atu) (f : AtuTime → AtuTime) : (Atu.withTime a f).regs = a.regs := by
  unfold Atu.withTime
  (try dsimp only) <;> (repeat' split) <;> simp
@[simp] theorem Atu.takeChange_only (pt : AtuPart) (hpt : pt ∉ [AtuPart.time, .samp]) (a : Atu) (s : Sched) (c : Nat) (p' : Nat) : pt.get (Atu.takeChange a s c p') = pt.get a := by
  simp at hpt
  unfold Atu.takeChange
  (try dsimp only) <;> (repeat' split) <;> first | (simp [hpt]; done) | (cases pt <;> simp at hpt ⊢)
@[simp] theorem Atu.changeAt_only (pt : AtuPart) (hpt : pt ∉ [AtuPart.time, .samp]) (a : Atu) (w : Nat) : pt.get (Atu.changeAt a w) = pt.get a := by
  simp at hpt
  unfold Atu.changeAt
  (try dsimp only) <;> (repeat' split) <;> first | (simp [hpt]; done) | (cases pt <;> simp at hpt ⊢)
@[simp] theorem Atu.passStroke_only (pt : AtuPart) (hpt : pt ∉ [AtuPart.time, .samp]) (a : Atu) (first : Bool) (w : Nat) : pt.get (Atu.passStroke a first w) = pt.get a := by
  simp at hpt
  unfold Atu.passStroke
  (try dsimp only) <;> (repeat' split) <;> first | (simp [hpt]; done) | (cases pt <;> simp at hpt ⊢)
@[simp] theorem Atu.skipStrokes_only (pt : AtuPart) (hpt : pt ∉ [AtuPart.time, .samp]) (a : Atu) (first : Bool) (lo : Nat) (n : Nat) : pt.get (Atu.skipStrokes a first lo n) = pt.get a := by
  simp at hpt
  unfold Atu.skipStrokes
  (try dsimp only) <;> (repeat' split) <;> first | (simp [hpt]; done) | (cases pt <;> simp at hpt ⊢)
@[simp] theorem Atu.markStep_only (pt : AtuPart) (hpt : pt ∉ [AtuPart.samp]) (a : Atu) : pt.get (Atu.markStep a) = pt.get a := by
  simp at hpt
  unfold Atu.markStep
  (try dsimp only) <;> (repeat' split) <;> first | (simp [hpt]; done) | (cases pt <;> simp at hpt ⊢)
@[simp] theorem Atu.markStep_regs (a : Atu) : (Atu.markStep a).regs = a.regs := by
  unfold Atu.markStep
  (try dsimp only) <;> (repeat' split) <;> simp
@[simp] theorem Atu.markStalled_only (pt : AtuPart) (hpt : pt ∉ [AtuPart.samp, .evr]) (a : Atu) (b : Fin 16) (n : Nat) : pt.get (Atu.markStalled a b n) = pt.get a := by
  simp at hpt
  unfold Atu.markStalled
  (try dsimp only) <;> (repeat' split) <;> first | (simp [hpt]; done) | (cases pt <;> simp at hpt ⊢)
@[simp] theorem Atu.abandon_only (pt : AtuPart) (hpt : pt ∉ [AtuPart.samp, .evr]) (a : Atu) : pt.get (Atu.abandon a) = pt.get a := by
  simp at hpt
  unfold Atu.abandon
  rw [AtuPart.get_foldl]
  intro _ _
  split <;> simp [hpt]
@[simp] theorem Atu.beginSnap_only (pt : AtuPart) (hpt : pt ∉ [AtuPart.samp]) (a : Atu) (n : Nat) (ht : Nat) (untested : Bool) (due : List Nat) : pt.get (Atu.beginSnap a n ht untested due) = pt.get a := by
  simp at hpt
  unfold Atu.beginSnap
  (try dsimp only) <;> (repeat' split) <;> first | (simp [hpt]; done) | (cases pt <;> simp at hpt ⊢)
@[simp] theorem Atu.openFirst_only (pt : AtuPart) (hpt : pt ∉ [AtuPart.samp]) (a : Atu) : pt.get (Atu.openFirst a) = pt.get a := by
  simp at hpt
  unfold Atu.openFirst
  (try dsimp only) <;> (repeat' split) <;> first | (simp [hpt]; done) | (cases pt <;> simp at hpt ⊢)
@[simp] theorem Atu.openFirst_regs (a : Atu) : (Atu.openFirst a).regs = a.regs := by
  unfold Atu.openFirst
  (try dsimp only) <;> (repeat' split) <;> simp
@[simp] theorem Atu.sampleStroke_only (pt : AtuPart) (hpt : pt ∉ [AtuPart.time, .samp, .evr]) (a : Atu) (n : Nat) (ht : Nat) (last : Option Nat) (untested : Bool) : pt.get (Atu.sampleStroke a n ht last untested) = pt.get a := by
  simp at hpt
  unfold Atu.sampleStroke
  (try dsimp only) <;> (repeat' split) <;> first | (simp [hpt]; done) | (cases pt <;> simp at hpt ⊢)
@[simp] theorem Atu.blockCapture_only (pt : AtuPart) (hpt : pt ∉ [AtuPart.samp]) (a : Atu) (b : Fin 16) (vs : List (BitVec 48)) : pt.get (Atu.blockCapture a b vs) = pt.get a := by
  simp at hpt
  unfold Atu.blockCapture
  (try dsimp only) <;> (repeat' split) <;> first | (simp [hpt]; done) | (cases pt <;> simp at hpt ⊢)
@[simp] theorem Atu.blockCapture_regs (a : Atu) (b : Fin 16) (vs : List (BitVec 48)) : (Atu.blockCapture a b vs).regs = a.regs := by
  unfold Atu.blockCapture
  (try dsimp only) <;> (repeat' split) <;> simp
@[simp] theorem Atu.blockStall_only (pt : AtuPart) (hpt : pt ∉ [AtuPart.samp, .evr]) (a : Atu) (b : Fin 16) : pt.get (Atu.blockStall a b) = pt.get a := by
  simp at hpt
  unfold Atu.blockStall
  (try dsimp only) <;> (repeat' split) <;> first | (simp [hpt]; done) | (cases pt <;> simp at hpt ⊢)
@[simp] theorem Atu.lateRelease_only (pt : AtuPart) (hpt : pt ∉ [AtuPart.samp]) (a : Atu) (b : Fin 16) : pt.get (Atu.lateRelease a b) = pt.get a := by
  simp at hpt
  unfold Atu.lateRelease
  (try dsimp only) <;> (repeat' split) <;> first | (simp [hpt]; done) | (cases pt <;> simp at hpt ⊢)
@[simp] theorem Atu.lateRelease_regs (a : Atu) (b : Fin 16) : (Atu.lateRelease a b).regs = a.regs := by
  unfold Atu.lateRelease
  (try dsimp only) <;> (repeat' split) <;> simp
@[simp] theorem Atu.sendBoth_only (pt : AtuPart) (hpt : pt ∉ [AtuPart.portA, .portB]) (a : Atu) (kind : Nat) (msg : List Byte) : pt.get (Atu.sendBoth a kind msg) = pt.get a := by
  simp at hpt
  unfold Atu.sendBoth
  (try dsimp only) <;> (repeat' split) <;> first | (simp [hpt]; done) | (cases pt <;> simp at hpt ⊢)
@[simp] theorem Atu.sendBoth_regs (a : Atu) (kind : Nat) (msg : List Byte) : (Atu.sendBoth a kind msg).regs = a.regs := by
  unfold Atu.sendBoth
  (try dsimp only) <;> (repeat' split) <;> simp
@[simp] theorem Atu.spill_only (pt : AtuPart) (hpt : pt ∉ [AtuPart.path]) (a : Atu) (f : List Byte) : pt.get (Atu.spill a f) = pt.get a := by
  simp at hpt
  unfold Atu.spill
  (try dsimp only) <;> (repeat' split) <;> first | (simp [hpt]; done) | (cases pt <;> simp at hpt ⊢)
@[simp] theorem Atu.buildFrame_only (pt : AtuPart) (hpt : pt ∉ [AtuPart.samp, .path, .portA, .portB]) (vals : List (List Nat)) (stalled : Bool) (a : Atu) (j : FrameJob) : pt.get (Atu.buildFrame vals stalled a j) = pt.get a := by
  simp at hpt
  unfold Atu.buildFrame
  (try dsimp only) <;> (repeat' split) <;> first | (simp [hpt]; done) | (cases pt <;> simp at hpt ⊢)
@[simp] theorem Atu.snapshotComplete_only (pt : AtuPart) (hpt : pt ∉ [AtuPart.samp, .path, .portA, .portB]) (a : Atu) : pt.get (Atu.snapshotComplete a) = pt.get a := by
  simp at hpt
  unfold Atu.snapshotComplete
  (try dsimp only) <;> (repeat' split) <;> first | (simp [hpt]; done) | (cases pt <;> simp at hpt ⊢)
@[simp] theorem Atu.powerDomains_only (pt : AtuPart) (hpt : pt ∉ [AtuPart.samp]) (a : Atu) (pdom : BitVec 16) : pt.get (Atu.powerDomains a pdom) = pt.get a := by
  simp at hpt
  unfold Atu.powerDomains
  (try dsimp only) <;> (repeat' split) <;> first | (simp [hpt]; done) | (cases pt <;> simp at hpt ⊢)
@[simp] theorem Atu.spillDone_only (pt : AtuPart) (hpt : pt ∉ [AtuPart.path, .hostMem]) (a : Atu) : pt.get (Atu.spillDone a) = pt.get a := by
  simp at hpt
  unfold Atu.spillDone
  (try dsimp only) <;> (repeat' split) <;> first | (simp [hpt]; done) | (cases pt <;> simp at hpt ⊢)
@[simp] theorem Atu.spillDone_regs (a : Atu) : (Atu.spillDone a).regs = a.regs := by
  unfold Atu.spillDone
  (try dsimp only) <;> (repeat' split) <;> simp
@[simp] theorem Atu.spillDisable_only (pt : AtuPart) (hpt : pt ∉ [AtuPart.path]) (a : Atu) : pt.get (Atu.spillDisable a) = pt.get a := by
  simp at hpt
  unfold Atu.spillDisable
  (try dsimp only) <;> (repeat' split) <;> first | (simp [hpt]; done) | (cases pt <;> simp at hpt ⊢)
@[simp] theorem Atu.spillError_only (pt : AtuPart) (hpt : pt ∉ [AtuPart.path]) (a : Atu) : pt.get (Atu.spillError a) = pt.get a := by
  simp at hpt
  unfold Atu.spillError
  (try dsimp only) <;> (repeat' split) <;> first | (simp [hpt]; done) | (cases pt <;> simp at hpt ⊢)
@[simp] theorem Atu.resendStart_only (pt : AtuPart) (hpt : pt ∉ [AtuPart.path, .portA, .portB]) (a : Atu) (mask : Nat) : pt.get (Atu.resendStart a mask) = pt.get a := by
  simp at hpt
  unfold Atu.resendStart
  (try dsimp only) <;> (repeat' split) <;> first | (simp [hpt]; done) | (cases pt <;> simp at hpt ⊢)
@[simp] theorem Atu.resendDone_only (pt : AtuPart) (hpt : pt ∉ [AtuPart.path]) (a : Atu) : pt.get (Atu.resendDone a) = pt.get a := by
  simp at hpt
  unfold Atu.resendDone
  (try dsimp only) <;> (repeat' split) <;> first | (simp [hpt]; done) | (cases pt <;> simp at hpt ⊢)
@[simp] theorem Atu.setChkVal_only (pt : AtuPart) (a : Atu) (v : Nat) : pt.get (Atu.setChkVal a v) = pt.get a := by
  unfold Atu.setChkVal
  (try dsimp only) <;> (repeat' split) <;> first | (simp; done) | (cases pt <;> simp)
@[simp] theorem Atu.chkStart_only (pt : AtuPart) (hpt : pt ∉ [AtuPart.path]) (a : Atu) (cont : Bool) : pt.get (Atu.chkStart a cont) = pt.get a := by
  simp at hpt
  unfold Atu.chkStart
  (try dsimp only) <;> (repeat' split) <;> first | (simp [hpt]; done) | (cases pt <;> simp at hpt ⊢)
@[simp] theorem Atu.chkFinish_only (pt : AtuPart) (hpt : pt ∉ [AtuPart.path]) (a : Atu) : pt.get (Atu.chkFinish a) = pt.get a := by
  simp at hpt
  unfold Atu.chkFinish
  (try dsimp only) <;> (repeat' split) <;> first | (simp [hpt]; done) | (cases pt <;> simp at hpt ⊢)
@[simp] theorem Atu.chkDone_only (pt : AtuPart) (hpt : pt ∉ [AtuPart.path]) (a : Atu) : pt.get (Atu.chkDone a) = pt.get a := by
  simp at hpt
  unfold Atu.chkDone
  (try dsimp only) <;> (repeat' split) <;> first | (simp [hpt]; done) | (cases pt <;> simp at hpt ⊢)
@[simp] theorem Atu.chkError_only (pt : AtuPart) (hpt : pt ∉ [AtuPart.path]) (a : Atu) (n : Nat) : pt.get (Atu.chkError a n) = pt.get a := by
  simp at hpt
  unfold Atu.chkError
  (try dsimp only) <;> (repeat' split) <;> first | (simp [hpt]; done) | (cases pt <;> simp at hpt ⊢)
@[simp] theorem Atu.setMarginLevel_only (pt : AtuPart) (a : Atu) (d : Nat) (v : Nat) : pt.get (Atu.setMarginLevel a d v) = pt.get a := by
  unfold Atu.setMarginLevel
  (try dsimp only) <;> (repeat' split) <;> first | (simp; done) | (cases pt <;> simp)
@[simp] theorem Atu.ageMeasure_only (pt : AtuPart) (hpt : pt ∉ [AtuPart.age]) (a : Atu) (vals : List (BitVec 16)) : pt.get (Atu.ageMeasure a vals) = pt.get a := by
  simp at hpt
  unfold Atu.ageMeasure
  (try dsimp only) <;> (repeat' split) <;> first | (simp [hpt]; done) | (cases pt <;> simp at hpt ⊢)
@[simp] theorem Atu.siteFault_only (pt : AtuPart) (hpt : pt ∉ [AtuPart.evr]) (a : Atu) (k : Fin 32) : pt.get (Atu.siteFault a k) = pt.get a := by
  simp at hpt
  unfold Atu.siteFault
  (try dsimp only) <;> (repeat' split) <;> first | (simp [hpt]; done) | (cases pt <;> simp at hpt ⊢)
@[simp] theorem Atu.armEol_only (pt : AtuPart) (hpt : pt ∉ [AtuPart.age]) (a : Atu) (k : Fin 32) : pt.get (Atu.armEol a k) = pt.get a := by
  simp at hpt
  unfold Atu.armEol
  (try dsimp only) <;> (repeat' split) <;> first | (simp [hpt]; done) | (cases pt <;> simp at hpt ⊢)
@[simp] theorem Atu.armEol_regs (a : Atu) (k : Fin 32) : (Atu.armEol a k).regs = a.regs := by
  unfold Atu.armEol
  (try dsimp only) <;> (repeat' split) <;> simp
@[simp] theorem Atu.project_only (pt : AtuPart) (hpt : pt ∉ [AtuPart.age, .evr]) (a : Atu) (k : Fin 32) : pt.get (Atu.project a k) = pt.get a := by
  simp at hpt
  unfold Atu.project
  (try dsimp only) <;> (repeat' split) <;> first | (simp [hpt]; done) | (cases pt <;> simp at hpt ⊢)
@[simp] theorem Atu.fitSite_only (pt : AtuPart) (hpt : pt ∉ [AtuPart.age, .evr]) (a : Atu) (k : Fin 32) : pt.get (Atu.fitSite a k) = pt.get a := by
  simp at hpt
  unfold Atu.fitSite
  (try dsimp only) <;> (repeat' split) <;> first | (simp [hpt]; done) | (cases pt <;> simp at hpt ⊢)
@[simp] theorem Atu.fitSample_only (pt : AtuPart) (hpt : pt ∉ [AtuPart.age, .evr]) (a : Atu) : pt.get (Atu.fitSample a) = pt.get a := by
  simp at hpt
  unfold Atu.fitSample
  (try dsimp only) <;> (repeat' split) <;> first | (simp [hpt]; done) | (cases pt <;> simp at hpt ⊢)
@[simp] theorem Atu.driveAdvice_only (pt : AtuPart) (hpt : pt ∉ [AtuPart.age]) (a : Atu) : pt.get (Atu.driveAdvice a) = pt.get a := by
  simp at hpt
  unfold Atu.driveAdvice
  (try dsimp only) <;> (repeat' split) <;> first | (simp [hpt]; done) | (cases pt <;> simp at hpt ⊢)
@[simp] theorem Atu.giveAdvice_only (pt : AtuPart) (hpt : pt ∉ [AtuPart.samp, .age, .evr]) (a : Atu) (d : Fin 16) (action : Nat) (level : Nat) (site : Nat) : pt.get (Atu.giveAdvice a d action level site) = pt.get a := by
  simp at hpt
  unfold Atu.giveAdvice
  (try dsimp only) <;> (repeat' split) <;> first | (simp [hpt]; done) | (cases pt <;> simp at hpt ⊢)
@[simp] theorem Atu.advise_only (pt : AtuPart) (hpt : pt ∉ [AtuPart.samp, .age, .evr]) (a : Atu) (d : Fin 16) (action : Nat) (site : Nat) : pt.get (Atu.advise a d action site) = pt.get a := by
  simp at hpt
  unfold Atu.advise
  (try dsimp only) <;> (repeat' split) <;> first | (simp [hpt]; done) | (cases pt <;> simp at hpt ⊢)
@[simp] theorem Atu.recoatDomain_only (pt : AtuPart) (hpt : pt ∉ [AtuPart.samp, .age, .evr]) (a : Atu) (d : Fin 16) : pt.get (Atu.recoatDomain a d) = pt.get a := by
  simp at hpt
  unfold Atu.recoatDomain
  (try dsimp only) <;> (repeat' split) <;> first | (simp [hpt]; done) | (cases pt <;> simp at hpt ⊢)
@[simp] theorem Atu.recoat_only (pt : AtuPart) (hpt : pt ∉ [AtuPart.samp, .age, .evr]) (a : Atu) : pt.get (Atu.recoat a) = pt.get a := by
  simp at hpt
  unfold Atu.recoat
  (try dsimp only) <;> (repeat' split) <;> first | (simp [hpt]; done) | (cases pt <;> simp at hpt ⊢)
@[simp] theorem Atu.setSand_only (pt : AtuPart) (hpt : pt ∉ [AtuPart.sand]) (a : Atu) (n : Fin 16) (c : SandCore) : pt.get (Atu.setSand a n c) = pt.get a := by
  simp at hpt
  unfold Atu.setSand
  (try dsimp only) <;> (repeat' split) <;> first | (simp [hpt]; done) | (cases pt <;> simp at hpt ⊢)
@[simp] theorem Atu.setSand_regs (a : Atu) (n : Fin 16) (c : SandCore) : (Atu.setSand a n c).regs = a.regs := by
  unfold Atu.setSand
  (try dsimp only) <;> (repeat' split) <;> simp
@[simp] theorem Atu.mapSand_only (pt : AtuPart) (hpt : pt ∉ [AtuPart.sand]) (a : Atu) (f : Fin 16 → SandCore → SandCore) : pt.get (Atu.mapSand a f) = pt.get a := by
  simp at hpt
  unfold Atu.mapSand
  (try dsimp only) <;> (repeat' split) <;> first | (simp [hpt]; done) | (cases pt <;> simp at hpt ⊢)
@[simp] theorem Atu.mapSand_regs (a : Atu) (f : Fin 16 → SandCore → SandCore) : (Atu.mapSand a f).regs = a.regs := by
  unfold Atu.mapSand
  (try dsimp only) <;> (repeat' split) <;> simp
@[simp] theorem Atu.sandReqs_only (pt : AtuPart) (hpt : pt ∉ [AtuPart.sand]) (a : Atu) : pt.get (Atu.sandReqs a) = pt.get a := by
  simp at hpt
  unfold Atu.sandReqs
  (try dsimp only) <;> (repeat' split) <;> first | (simp [hpt]; done) | (cases pt <;> simp at hpt ⊢)
@[simp] theorem Atu.sandReqs_regs (a : Atu) : (Atu.sandReqs a).regs = a.regs := by
  unfold Atu.sandReqs
  (try dsimp only) <;> (repeat' split) <;> simp
@[simp] theorem Atu.sandTrace_only (pt : AtuPart) (hpt : pt ∉ [AtuPart.trace, .hostMem]) (a : Atu) (n : Fin 16) : pt.get (Atu.sandTrace a n) = pt.get a := by
  simp at hpt
  unfold Atu.sandTrace
  (try dsimp only) <;> (repeat' split) <;> first | (simp [hpt]; done) | (cases pt <;> simp at hpt ⊢)
@[simp] theorem Atu.sandDue_only (pt : AtuPart) (hpt : pt ∉ [AtuPart.sand]) (a : Atu) (_n : Fin 16) : pt.get (Atu.sandDue a _n) = pt.get a := by
  simp at hpt
  unfold Atu.sandDue
  (try dsimp only) <;> (repeat' split) <;> first | (simp [hpt]; done) | (cases pt <;> simp at hpt ⊢)
@[simp] theorem Atu.sandDue_regs (a : Atu) (_n : Fin 16) : (Atu.sandDue a _n).regs = a.regs := by
  unfold Atu.sandDue
  (try dsimp only) <;> (repeat' split) <;> simp
@[simp] theorem Atu.sandGrant_only (pt : AtuPart) (hpt : pt ∉ [AtuPart.trace, .sand, .hostMem]) (a : Atu) (mask : BitVec 16) : pt.get (Atu.sandGrant a mask) = pt.get a := by
  simp at hpt
  unfold Atu.sandGrant
  (try dsimp only) <;> (repeat' split) <;> first | (simp [hpt]; done) | (cases pt <;> simp at hpt ⊢)
@[simp] theorem Atu.sandAbort_only (pt : AtuPart) (hpt : pt ∉ [AtuPart.trace, .sand, .hostMem]) (a : Atu) (n : Fin 16) : pt.get (Atu.sandAbort a n) = pt.get a := by
  simp at hpt
  unfold Atu.sandAbort
  (try dsimp only) <;> (repeat' split) <;> first | (simp [hpt]; done) | (cases pt <;> simp at hpt ⊢)
@[simp] theorem Atu.sandWithdraw_only (pt : AtuPart) (hpt : pt ∉ [AtuPart.trace, .sand, .hostMem]) (a : Atu) (n : Fin 16) : pt.get (Atu.sandWithdraw a n) = pt.get a := by
  simp at hpt
  unfold Atu.sandWithdraw
  (try dsimp only) <;> (repeat' split) <;> first | (simp [hpt]; done) | (cases pt <;> simp at hpt ⊢)
@[simp] theorem Atu.sandPass_only (pt : AtuPart) (hpt : pt ∉ [AtuPart.trace, .sand, .evr, .hostMem]) (a : Atu) (n : Fin 16) : pt.get (Atu.sandPass a n) = pt.get a := by
  simp at hpt
  unfold Atu.sandPass
  (try dsimp only) <;> (repeat' split) <;> first | (simp [hpt]; done) | (cases pt <;> simp at hpt ⊢)
@[simp] theorem Atu.sandFail_only (pt : AtuPart) (hpt : pt ∉ [AtuPart.samp, .trace, .age, .sand, .evr, .hostMem]) (a : Atu) (n : Fin 16) (result : Nat) : pt.get (Atu.sandFail a n result) = pt.get a := by
  simp at hpt
  unfold Atu.sandFail
  (try dsimp only) <;> (repeat' split) <;> first | (simp [hpt]; done) | (cases pt <;> simp at hpt ⊢)
@[simp] theorem Atu.sandDone_only (pt : AtuPart) (hpt : pt ∉ [AtuPart.samp, .trace, .age, .sand, .evr, .hostMem]) (a : Atu) (n : Fin 16) (pass : Bool) : pt.get (Atu.sandDone a n pass) = pt.get a := by
  simp at hpt
  unfold Atu.sandDone
  (try dsimp only) <;> (repeat' split) <;> first | (simp [hpt]; done) | (cases pt <;> simp at hpt ⊢)
@[simp] theorem Atu.sandTimeout_only (pt : AtuPart) (hpt : pt ∉ [AtuPart.samp, .trace, .age, .sand, .evr, .hostMem]) (a : Atu) (n : Fin 16) : pt.get (Atu.sandTimeout a n) = pt.get a := by
  simp at hpt
  unfold Atu.sandTimeout
  (try dsimp only) <;> (repeat' split) <;> first | (simp [hpt]; done) | (cases pt <;> simp at hpt ⊢)
@[simp] theorem Atu.sandAgain_only (pt : AtuPart) (hpt : pt ∉ [AtuPart.sand]) (a : Atu) (n : Fin 16) : pt.get (Atu.sandAgain a n) = pt.get a := by
  simp at hpt
  unfold Atu.sandAgain
  (try dsimp only) <;> (repeat' split) <;> first | (simp [hpt]; done) | (cases pt <;> simp at hpt ⊢)
@[simp] theorem Atu.sandAgain_regs (a : Atu) (n : Fin 16) : (Atu.sandAgain a n).regs = a.regs := by
  unfold Atu.sandAgain
  (try dsimp only) <;> (repeat' split) <;> simp
@[simp] theorem Atu.sandRetest_only (pt : AtuPart) (hpt : pt ∉ [AtuPart.sand]) (a : Atu) (_n : Fin 16) : pt.get (Atu.sandRetest a _n) = pt.get a := by
  simp at hpt
  unfold Atu.sandRetest
  (try dsimp only) <;> (repeat' split) <;> first | (simp [hpt]; done) | (cases pt <;> simp at hpt ⊢)
@[simp] theorem Atu.sandRetest_regs (a : Atu) (_n : Fin 16) : (Atu.sandRetest a _n).regs = a.regs := by
  unfold Atu.sandRetest
  (try dsimp only) <;> (repeat' split) <;> simp
@[simp] theorem Atu.sandSoftDeadline_only (pt : AtuPart) (hpt : pt ∉ [AtuPart.sand, .evr]) (a : Atu) (n : Fin 16) : pt.get (Atu.sandSoftDeadline a n) = pt.get a := by
  simp at hpt
  unfold Atu.sandSoftDeadline
  (try dsimp only) <;> (repeat' split) <;> first | (simp [hpt]; done) | (cases pt <;> simp at hpt ⊢)
@[simp] theorem Atu.sandStroke_only (pt : AtuPart) (hpt : pt ∉ [AtuPart.sand, .evr]) (a : Atu) (n : Fin 16) : pt.get (Atu.sandStroke a n) = pt.get a := by
  simp at hpt
  unfold Atu.sandStroke
  (try dsimp only) <;> (repeat' split) <;> first | (simp [hpt]; done) | (cases pt <;> simp at hpt ⊢)
@[simp] theorem Atu.sandStrokes_only (pt : AtuPart) (hpt : pt ∉ [AtuPart.sand, .evr]) (a : Atu) : pt.get (Atu.sandStrokes a) = pt.get a := by
  simp at hpt
  unfold Atu.sandStrokes
  (try dsimp only) <;> (repeat' split) <;> first | (simp [hpt]; done) | (cases pt <;> simp at hpt ⊢)
@[simp] theorem Atu.sandEnableWrite_only (pt : AtuPart) (hpt : pt ∉ [AtuPart.trace, .sand, .hostMem]) (a : Atu) (mask : Nat) : pt.get (Atu.sandEnableWrite a mask) = pt.get a := by
  simp at hpt
  unfold Atu.sandEnableWrite
  (try dsimp only) <;> (repeat' split) <;> first | (simp [hpt]; done) | (cases pt <;> simp at hpt ⊢)
@[simp] theorem Atu.sandRetime_only (pt : AtuPart) (hpt : pt ∉ [AtuPart.sand]) (a : Atu) : pt.get (Atu.sandRetime a) = pt.get a := by
  simp at hpt
  unfold Atu.sandRetime
  (try dsimp only) <;> (repeat' split) <;> first | (simp [hpt]; done) | (cases pt <;> simp at hpt ⊢)
@[simp] theorem Atu.sandRetime_regs (a : Atu) : (Atu.sandRetime a).regs = a.regs := by
  unfold Atu.sandRetime
  (try dsimp only) <;> (repeat' split) <;> simp
@[simp] theorem Atu.sandRunNow_only (pt : AtuPart) (hpt : pt ∉ [AtuPart.sand]) (a : Atu) (mask : Nat) : pt.get (Atu.sandRunNow a mask) = pt.get a := by
  simp at hpt
  unfold Atu.sandRunNow
  (try dsimp only) <;> (repeat' split) <;> first | (simp [hpt]; done) | (cases pt <;> simp at hpt ⊢)
@[simp] theorem Atu.sandRunNow_regs (a : Atu) (mask : Nat) : (Atu.sandRunNow a mask).regs = a.regs := by
  unfold Atu.sandRunNow
  (try dsimp only) <;> (repeat' split) <;> simp
@[simp] theorem Atu.sandClearFailed_only (pt : AtuPart) (hpt : pt ∉ [AtuPart.sand]) (a : Atu) (mask : Nat) : pt.get (Atu.sandClearFailed a mask) = pt.get a := by
  simp at hpt
  unfold Atu.sandClearFailed
  (try dsimp only) <;> (repeat' split) <;> first | (simp [hpt]; done) | (cases pt <;> simp at hpt ⊢)
@[simp] theorem Atu.sandClearFailed_regs (a : Atu) (mask : Nat) : (Atu.sandClearFailed a mask).regs = a.regs := by
  unfold Atu.sandClearFailed
  (try dsimp only) <;> (repeat' split) <;> simp
@[simp] theorem Atu.lifeSeed_only (pt : AtuPart) (hpt : pt ∉ [AtuPart.age, .sand, .evr]) (a : Atu) (v : Nat) : pt.get (Atu.lifeSeed a v) = pt.get a := by
  simp at hpt
  unfold Atu.lifeSeed
  (try dsimp only) <;> (repeat' split) <;> first | (simp [hpt]; done) | (cases pt <;> simp at hpt ⊢)
@[simp] theorem Atu.powerAborts_only (pt : AtuPart) (hpt : pt ∉ [AtuPart.trace, .sand, .hostMem]) (a : Atu) : pt.get (Atu.powerAborts a) = pt.get a := by
  simp at hpt
  unfold Atu.powerAborts
  (try dsimp only) <;> (repeat' split) <;> first | (simp [hpt]; done) | (cases pt <;> simp at hpt ⊢)
@[simp] theorem Atu.pwrFail_only (pt : AtuPart) (hpt : pt ∉ [AtuPart.trace, .age, .sand, .evr, .hostMem]) (a : Atu) (asserted : Bool) : pt.get (Atu.pwrFail a asserted) = pt.get a := by
  simp at hpt
  unfold Atu.pwrFail
  (try dsimp only) <;> (repeat' split) <;> first | (simp [hpt]; done) | (cases pt <;> simp at hpt ⊢)
@[simp] theorem Atu.setPort_only (pt : AtuPart) (hpt : pt ∉ [AtuPart.portA, .portB]) (a : Atu) (p : PortId) (x : PortEnd) : pt.get (Atu.setPort a p x) = pt.get a := by
  simp at hpt
  unfold Atu.setPort
  (try dsimp only) <;> (repeat' split) <;> first | (simp [hpt]; done) | (cases pt <;> simp at hpt ⊢)
@[simp] theorem Atu.setPort_regs (a : Atu) (p : PortId) (x : PortEnd) : (Atu.setPort a p x).regs = a.regs := by
  unfold Atu.setPort
  (try dsimp only) <;> (repeat' split) <;> simp
@[simp] theorem Atu.refollow_only (pt : AtuPart) (hpt : pt ∉ [AtuPart.time]) (a : Atu) : pt.get (Atu.refollow a) = pt.get a := by
  simp at hpt
  unfold Atu.refollow
  (try dsimp only) <;> (repeat' split) <;> first | (simp [hpt]; done) | (cases pt <;> simp at hpt ⊢)
@[simp] theorem Atu.refollow_regs (a : Atu) : (Atu.refollow a).regs = a.regs := by
  unfold Atu.refollow
  (try dsimp only) <;> (repeat' split) <;> simp
@[simp] theorem Atu.updateAbDiff_only (pt : AtuPart) (a : Atu) : pt.get (Atu.updateAbDiff a) = pt.get a := by
  unfold Atu.updateAbDiff
  (try dsimp only) <;> (repeat' split) <;> first | (simp; done) | (cases pt <;> simp)
@[simp] theorem Atu.enterSched_only (pt : AtuPart) (hpt : pt ∉ [AtuPart.time, .samp]) (a : Atu) (s : Sched) (p : Option (Nat × Nat)) : pt.get (Atu.enterSched a s p) = pt.get a := by
  simp at hpt
  unfold Atu.enterSched
  (try dsimp only) <;> (repeat' split) <;> first | (simp [hpt]; done) | (cases pt <;> simp at hpt ⊢)
@[simp] theorem Atu.enterSched_regs (a : Atu) (s : Sched) (p : Option (Nat × Nat)) : (Atu.enterSched a s p).regs = a.regs := by
  unfold Atu.enterSched
  (try dsimp only) <;> (repeat' split) <;> simp
@[simp] theorem Atu.learnSched_only (pt : AtuPart) (hpt : pt ∉ [AtuPart.time, .samp]) (a : Atu) (s : Sched) (p : Option (Nat × Nat)) : pt.get (Atu.learnSched a s p) = pt.get a := by
  simp at hpt
  unfold Atu.learnSched
  (try dsimp only) <;> (repeat' split) <;> first | (simp [hpt]; done) | (cases pt <;> simp at hpt ⊢)
@[simp] theorem Atu.enterState_only (pt : AtuPart) (hpt : pt ∉ [AtuPart.time, .evr]) (a : Atu) (s : TimeState) (off : Int) : pt.get (Atu.enterState a s off) = pt.get a := by
  simp at hpt
  unfold Atu.enterState
  (try dsimp only) <;> (repeat' split) <;> first | (simp [hpt]; done) | (cases pt <;> simp at hpt ⊢)
@[simp] theorem Atu.stepHt_only (pt : AtuPart) (hpt : pt ∉ [AtuPart.time]) (a : Atu) (ht : Nat) : pt.get (Atu.stepHt a ht) = pt.get a := by
  simp at hpt
  unfold Atu.stepHt
  (try dsimp only) <;> (repeat' split) <;> first | (simp [hpt]; done) | (cases pt <;> simp at hpt ⊢)
@[simp] theorem Atu.stepHt_regs (a : Atu) (ht : Nat) : (Atu.stepHt a ht).regs = a.regs := by
  unfold Atu.stepHt
  (try dsimp only) <;> (repeat' split) <;> simp
@[simp] theorem Atu.slewBy_only (pt : AtuPart) (hpt : pt ∉ [AtuPart.time]) (a : Atu) (off : Int) : pt.get (Atu.slewBy a off) = pt.get a := by
  simp at hpt
  unfold Atu.slewBy
  (try dsimp only) <;> (repeat' split) <;> first | (simp [hpt]; done) | (cases pt <;> simp at hpt ⊢)
@[simp] theorem Atu.slewBy_regs (a : Atu) (off : Int) : (Atu.slewBy a off).regs = a.regs := by
  unfold Atu.slewBy
  (try dsimp only) <;> (repeat' split) <;> simp
@[simp] theorem Atu.lockCount_only (pt : AtuPart) (hpt : pt ∉ [AtuPart.time, .evr]) (a : Atu) (off : Int) (restart : Bool) : pt.get (Atu.lockCount a off restart) = pt.get a := by
  simp at hpt
  unfold Atu.lockCount
  (try dsimp only) <;> (repeat' split) <;> first | (simp [hpt]; done) | (cases pt <;> simp at hpt ⊢)
@[simp] theorem Atu.stepUnlocked_only (pt : AtuPart) (hpt : pt ∉ [AtuPart.time, .samp]) (a : Atu) (ht : Nat) : pt.get (Atu.stepUnlocked a ht) = pt.get a := by
  simp at hpt
  unfold Atu.stepUnlocked
  (try dsimp only) <;> (repeat' split) <;> first | (simp [hpt]; done) | (cases pt <;> simp at hpt ⊢)
@[simp] theorem Atu.stepUnlocked_regs (a : Atu) (ht : Nat) : (Atu.stepUnlocked a ht).regs = a.regs := by
  unfold Atu.stepUnlocked
  (try dsimp only) <;> (repeat' split) <;> simp
@[simp] theorem Atu.beatActs_only (pt : AtuPart) (hpt : pt ∉ [AtuPart.time, .samp, .evr]) (a : Atu) (beatHt : Nat) (off : Int) (silent : Bool) : pt.get (Atu.beatActs a beatHt off silent) = pt.get a := by
  simp at hpt
  unfold Atu.beatActs
  (try dsimp only) <;> (repeat' split) <;> first | (simp [hpt]; done) | (cases pt <;> simp at hpt ⊢)
@[simp] theorem Atu.checkSilence_only (pt : AtuPart) (hpt : pt ∉ [AtuPart.time, .evr]) (a : Atu) : pt.get (Atu.checkSilence a) = pt.get a := by
  simp at hpt
  unfold Atu.checkSilence
  (try dsimp only) <;> (repeat' split) <;> first | (simp [hpt]; done) | (cases pt <;> simp at hpt ⊢)
@[simp] theorem Atu.beat_only (pt : AtuPart) (hpt : pt ∉ [AtuPart.time, .samp, .evr]) (a : Atu) (p : PortId) (w : List Byte) : pt.get (Atu.beat a p w) = pt.get a := by
  simp at hpt
  unfold Atu.beat
  (try dsimp only) <;> (repeat' split) <;> first | (simp [hpt]; done) | (cases pt <;> simp at hpt ⊢)
@[simp] theorem Atu.beatMsg_only (pt : AtuPart) (hpt : pt ∉ [AtuPart.time, .samp, .evr]) (a : Atu) (p : PortId) (w : List Byte) : pt.get (Atu.beatMsg a p w) = pt.get a := by
  simp at hpt
  unfold Atu.beatMsg
  (try dsimp only) <;> (repeat' split) <;> first | (simp [hpt]; done) | (cases pt <;> simp at hpt ⊢)
@[simp] theorem Atu.noteMissed_only (pt : AtuPart) (hpt : pt ∉ [AtuPart.time]) (a : Atu) (p : PortId) : pt.get (Atu.noteMissed a p) = pt.get a := by
  simp at hpt
  unfold Atu.noteMissed
  (try dsimp only) <;> (repeat' split) <;> first | (simp [hpt]; done) | (cases pt <;> simp at hpt ⊢)
@[simp] theorem Atu.countMissed_only (pt : AtuPart) (hpt : pt ∉ [AtuPart.time]) (a : Atu) (p : PortId) : pt.get (Atu.countMissed a p) = pt.get a := by
  simp at hpt
  unfold Atu.countMissed
  (try dsimp only) <;> (repeat' split) <;> first | (simp [hpt]; done) | (cases pt <;> simp at hpt ⊢)
@[simp] theorem Atu.beatMissed_only (pt : AtuPart) (hpt : pt ∉ [AtuPart.time, .evr]) (a : Atu) (p : PortId) : pt.get (Atu.beatMissed a p) = pt.get a := by
  simp at hpt
  unfold Atu.beatMissed
  (try dsimp only) <;> (repeat' split) <;> first | (simp [hpt]; done) | (cases pt <;> simp at hpt ⊢)
@[simp] theorem Atu.portUp_only (pt : AtuPart) (hpt : pt ∉ [AtuPart.time, .safe, .portA, .portB]) (a : Atu) (p : PortId) : pt.get (Atu.portUp a p) = pt.get a := by
  simp at hpt
  unfold Atu.portUp
  (try dsimp only) <;> (repeat' split) <;> first | (simp [hpt]; done) | (cases pt <;> simp at hpt ⊢)
@[simp] theorem Atu.portDown_only (pt : AtuPart) (hpt : pt ∉ [AtuPart.time, .portA, .portB]) (a : Atu) (p : PortId) : pt.get (Atu.portDown a p) = pt.get a := by
  simp at hpt
  unfold Atu.portDown
  (try dsimp only) <;> (repeat' split) <;> first | (simp [hpt]; done) | (cases pt <;> simp at hpt ⊢)
@[simp] theorem Atu.strokeOut_only (pt : AtuPart) (hpt : pt ∉ [AtuPart.trace]) (a : Atu) (n : Nat) : pt.get (Atu.strokeOut a n) = pt.get a := by
  simp at hpt
  unfold Atu.strokeOut
  (try dsimp only) <;> (repeat' split) <;> first | (simp [hpt]; done) | (cases pt <;> simp at hpt ⊢)
@[simp] theorem Atu.strokeOut_regs (a : Atu) (n : Nat) : (Atu.strokeOut a n).regs = a.regs := by
  unfold Atu.strokeOut
  (try dsimp only) <;> (repeat' split) <;> simp
@[simp] theorem Atu.fireStroke_only (pt : AtuPart) (hpt : pt ∉ [AtuPart.time, .samp, .trace, .sand, .evr, .hostMem]) (a : Atu) (s : Sched) (n : Nat) : pt.get (Atu.fireStroke a s n) = pt.get a := by
  simp at hpt
  unfold Atu.fireStroke
  (try dsimp only) <;> (repeat' split) <;> first | (simp [hpt]; done) | (cases pt <;> simp at hpt ⊢)
@[simp] theorem Atu.stroke_only (pt : AtuPart) (hpt : pt ∉ [AtuPart.time, .samp, .trace, .sand, .evr, .hostMem]) (a : Atu) : pt.get (Atu.stroke a) = pt.get a := by
  simp at hpt
  unfold Atu.stroke
  (try dsimp only) <;> (repeat' split) <;> first | (simp [hpt]; done) | (cases pt <;> simp at hpt ⊢)
@[simp] theorem Atu.windowRoll_only (pt : AtuPart) (hpt : pt ∉ [AtuPart.samp]) (a : Atu) (old : Nat) : pt.get (Atu.windowRoll a old) = pt.get a := by
  simp at hpt
  unfold Atu.windowRoll
  (try dsimp only) <;> (repeat' split) <;> first | (simp [hpt]; done) | (cases pt <;> simp at hpt ⊢)
@[simp] theorem Atu.windowRoll_regs (a : Atu) (old : Nat) : (Atu.windowRoll a old).regs = a.regs := by
  unfold Atu.windowRoll
  (try dsimp only) <;> (repeat' split) <;> simp
@[simp] theorem Atu.tick_only (pt : AtuPart) (hpt : pt ∉ [AtuPart.time, .samp, .age]) (a : Atu) : pt.get (Atu.tick a) = pt.get a := by
  simp at hpt
  unfold Atu.tick
  (try dsimp only) <;> (repeat' split) <;> first | (simp [hpt]; done) | (cases pt <;> simp at hpt ⊢)
@[simp] theorem Atu.sandHardDeadline_only (pt : AtuPart) (hpt : pt ∉ [AtuPart.sand, .evr]) (a : Atu) (n : Fin 16) : pt.get (Atu.sandHardDeadline a n) = pt.get a := by
  simp at hpt
  unfold Atu.sandHardDeadline
  (try dsimp only) <;> (repeat' split) <;> first | (simp [hpt]; done) | (cases pt <;> simp at hpt ⊢)
@[simp] theorem Atu.setSideRegs_only (pt : AtuPart) (hpt : pt ∉ [AtuPart.bound]) (a : Atu) (s : Side) (x : SideRegs) : pt.get (Atu.setSideRegs a s x) = pt.get a := by
  simp at hpt
  unfold Atu.setSideRegs
  (try dsimp only) <;> (repeat' split) <;> first | (simp [hpt]; done) | (cases pt <;> simp at hpt ⊢)
@[simp] theorem Atu.setSideRegs_regs (a : Atu) (s : Side) (x : SideRegs) : (Atu.setSideRegs a s x).regs = a.regs := by
  unfold Atu.setSideRegs
  (try dsimp only) <;> (repeat' split) <;> simp
@[simp] theorem Atu.latchHi_only (pt : AtuPart) (a : Atu) (off : Nat) : pt.get (Atu.latchHi a off) = pt.get a := by
  unfold Atu.latchHi
  (try dsimp only) <;> (repeat' split) <;> first | (simp; done) | (cases pt <;> simp)
@[simp] theorem Atu.readEffect_only (pt : AtuPart) (hpt : pt ∉ [AtuPart.bound]) (a : Atu) (s : Side) (off : Nat) : pt.get (Atu.readEffect a s off) = pt.get a := by
  simp at hpt
  unfold Atu.readEffect
  (try dsimp only) <;> (repeat' split) <;> first | (simp [hpt]; done) | (cases pt <;> simp at hpt ⊢)
@[simp] theorem Atu.refusedEvent_only (pt : AtuPart) (hpt : pt ∉ [AtuPart.evr]) (a : Atu) (off : Nat) (c : Status) : pt.get (Atu.refusedEvent a off c) = pt.get a := by
  simp at hpt
  unfold Atu.refusedEvent
  (try dsimp only) <;> (repeat' split) <;> first | (simp [hpt]; done) | (cases pt <;> simp at hpt ⊢)
@[simp] theorem Atu.logEntry_only (pt : AtuPart) (a : Atu) (e : ErrEntry) : pt.get (Atu.logEntry a e) = pt.get a := by
  unfold Atu.logEntry
  (try dsimp only) <;> (repeat' split) <;> first | (simp; done) | (cases pt <;> simp)
@[simp] theorem Atu.logRefusal_only (pt : AtuPart) (hpt : pt ∉ [AtuPart.evr, .bound]) (a : Atu) (s : Side) (wr : Bool) (off : Nat) (c : Status) : pt.get (Atu.logRefusal a s wr off c) = pt.get a := by
  simp at hpt
  unfold Atu.logRefusal
  (try dsimp only) <;> (repeat' split) <;> first | (simp [hpt]; done) | (cases pt <;> simp at hpt ⊢)
@[simp] theorem Atu.refuse_only (pt : AtuPart) (hpt : pt ∉ [AtuPart.evr, .bound]) (a : Atu) (s : Side) (wr : Bool) (off : Nat) (v : Word) (c : Status) : pt.get (Atu.refuse a s wr off v c) = pt.get a := by
  simp at hpt
  unfold Atu.refuse
  (try dsimp only) <;> (repeat' split) <;> first | (simp [hpt]; done) | (cases pt <;> simp at hpt ⊢)
@[simp] theorem Atu.cutResend_only (pt : AtuPart) (a : Atu) (running : Bool) : pt.get (Atu.cutResend a running) = pt.get a := by
  unfold Atu.cutResend
  (try dsimp only) <;> (repeat' split) <;> first | (simp; done) | (cases pt <;> simp)
@[simp] theorem Atu.mainReset_only (pt : AtuPart) (hpt : pt ∉ [AtuPart.time, .samp, .path, .trace, .log, .age, .sand, .bound, .safe, .portA, .portB]) (a : Atu) (cause : Nat) : pt.get (Atu.mainReset a cause) = pt.get a := by
  simp at hpt
  unfold Atu.mainReset
  (try dsimp only) <;> (repeat' split) <;> first | (simp [hpt]; done) | (cases pt <;> simp at hpt ⊢)
@[simp] theorem Atu.por_only (pt : AtuPart) (hpt : pt ∉ [AtuPart.time, .samp, .path, .trace, .log, .age, .sand, .evr, .bound, .safe, .portA, .portB]) (a : Atu) : pt.get (Atu.por a) = pt.get a := by
  simp at hpt
  unfold Atu.por
  (try dsimp only) <;> (repeat' split) <;> first | (simp [hpt]; done) | (cases pt <;> simp at hpt ⊢)
@[simp] theorem Atu.resetRelease_only (pt : AtuPart) (hpt : pt ∉ [AtuPart.time, .bound]) (a : Atu) (dieId : Word) : pt.get (Atu.resetRelease a dieId) = pt.get a := by
  simp at hpt
  unfold Atu.resetRelease
  (try dsimp only) <;> (repeat' split) <;> first | (simp [hpt]; done) | (cases pt <;> simp at hpt ⊢)
@[simp] theorem Atu.becomeReady_only (pt : AtuPart) (hpt : pt ∉ [AtuPart.bound]) (a : Atu) : pt.get (Atu.becomeReady a) = pt.get a := by
  simp at hpt
  unfold Atu.becomeReady
  (try dsimp only) <;> (repeat' split) <;> first | (simp [hpt]; done) | (cases pt <;> simp at hpt ⊢)
@[simp] theorem Atu.takeDma_only (pt : AtuPart) (a : Atu) (holder : Nat) (s : Side) : pt.get (Atu.takeDma a holder s) = pt.get a := by
  unfold Atu.takeDma
  (try dsimp only) <;> (repeat' split) <;> first | (simp; done) | (cases pt <;> simp)
@[simp] theorem Atu.timerClaim_only (pt : AtuPart) (a : Atu) (s : Side) : pt.get (Atu.timerClaim a s) = pt.get a := by
  unfold Atu.timerClaim
  (try dsimp only) <;> (repeat' split) <;> first | (simp; done) | (cases pt <;> simp)
@[simp] theorem Atu.spillEnable_only (pt : AtuPart) (hpt : pt ∉ [AtuPart.path]) (a : Atu) : pt.get (Atu.spillEnable a) = pt.get a := by
  simp at hpt
  unfold Atu.spillEnable
  (try dsimp only) <;> (repeat' split) <;> first | (simp [hpt]; done) | (cases pt <;> simp at hpt ⊢)
@[simp] theorem Atu.spillEnable_regs (a : Atu) : (Atu.spillEnable a).regs = a.regs := by
  unfold Atu.spillEnable
  (try dsimp only) <;> (repeat' split) <;> simp
@[simp] theorem Atu.effectA_only (pt : AtuPart) (hpt : pt ∉ [AtuPart.time, .samp, .path, .trace, .log, .age, .sand, .bound, .safe, .portA, .portB]) (a : Atu) (s : Side) (off : Nat) (v : Word) (old : Word) : pt.get (Atu.effectA a s off v old) = pt.get a := by
  simp at hpt
  unfold Atu.effectA
  (try dsimp only) <;> (repeat' split) <;> first | (simp [hpt]; done) | (cases pt <;> simp at hpt ⊢)
@[simp] theorem Atu.logEnable_only (pt : AtuPart) (hpt : pt ∉ [AtuPart.log]) (a : Atu) (fresh : Nat) : pt.get (Atu.logEnable a fresh) = pt.get a := by
  simp at hpt
  unfold Atu.logEnable
  (try dsimp only) <;> (repeat' split) <;> first | (simp [hpt]; done) | (cases pt <;> simp at hpt ⊢)
@[simp] theorem Atu.logEnable_regs (a : Atu) (fresh : Nat) : (Atu.logEnable a fresh).regs = a.regs := by
  unfold Atu.logEnable
  (try dsimp only) <;> (repeat' split) <;> simp
@[simp] theorem Atu.effectB_only (pt : AtuPart) (hpt : pt ∉ [AtuPart.trace, .log, .bound, .hostMem]) (a : Atu) (s : Side) (off : Nat) (v : Word) (old : Word) : pt.get (Atu.effectB a s off v old) = pt.get a := by
  simp at hpt
  unfold Atu.effectB
  (try dsimp only) <;> (repeat' split) <;> first | (simp [hpt]; done) | (cases pt <;> simp at hpt ⊢)
@[simp] theorem Atu.effectC_only (pt : AtuPart) (hpt : pt ∉ [AtuPart.trace, .age, .sand, .evr, .bound, .hostMem]) (a : Atu) (s : Side) (off : Nat) (v : Word) (old : Word) : pt.get (Atu.effectC a s off v old) = pt.get a := by
  simp at hpt
  unfold Atu.effectC
  (try dsimp only) <;> (repeat' split) <;> first | (simp [hpt]; done) | (cases pt <;> simp at hpt ⊢)
@[simp] theorem Atu.doWrite_only (pt : AtuPart) (hpt : pt ∉ [AtuPart.time, .samp, .path, .trace, .log, .age, .sand, .evr, .bound, .safe, .portA, .portB, .hostMem]) (a : Atu) (s : Side) (r : RegRow) (off : Nat) (v : Word) : pt.get ((Atu.doWrite a s r off v).2) = pt.get a := by
  simp at hpt
  unfold Atu.doWrite
  (try dsimp only) <;> (repeat' split) <;> first | (simp [hpt]; done) | (cases pt <;> simp at hpt ⊢)
@[simp] theorem Atu.access_only (pt : AtuPart) (hpt : pt ∉ [AtuPart.time, .samp, .path, .trace, .log, .age, .sand, .evr, .bound, .safe, .portA, .portB, .hostMem]) (a : Atu) (s : Side) (wr : Bool) (off : Nat) (v : Word) (strb : Nat) : pt.get ((Atu.access a s wr off v strb).2) = pt.get a := by
  simp at hpt
  unfold Atu.access
  (try dsimp only) <;> (repeat' split) <;> first | (simp [hpt]; done) | (cases pt <;> simp at hpt ⊢)
@[simp] theorem Atu.hostAccess_only (pt : AtuPart) (hpt : pt ∉ [AtuPart.time, .samp, .path, .trace, .log, .age, .sand, .evr, .bound, .safe, .portA, .portB, .hostMem]) (a : Atu) (wr : Bool) (off : Nat) (v : Word) (strb : Nat) : pt.get (Atu.hostAccess a wr off v strb) = pt.get a := by
  simp at hpt
  unfold Atu.hostAccess
  (try dsimp only) <;> (repeat' split) <;> first | (simp [hpt]; done) | (cases pt <;> simp at hpt ⊢)
@[simp] theorem Atu.answerPort_only (pt : AtuPart) (hpt : pt ∉ [AtuPart.time, .samp, .path, .trace, .log, .age, .sand, .evr, .bound, .safe, .portA, .portB, .hostMem]) (a : Atu) (p : PortId) (tag : Nat) (wr : Bool) (off : Nat) (v : Word) : pt.get (Atu.answerPort a p tag wr off v) = pt.get a := by
  simp at hpt
  unfold Atu.answerPort
  (try dsimp only) <;> (repeat' split) <;> first | (simp [hpt]; done) | (cases pt <;> simp at hpt ⊢)
@[simp] theorem Atu.portAccess_only (pt : AtuPart) (hpt : pt ∉ [AtuPart.time, .samp, .path, .trace, .log, .age, .sand, .evr, .bound, .safe, .portA, .portB, .hostMem]) (a : Atu) (p : PortId) (tag : Nat) (wr : Bool) (off : Nat) (v : Word) : pt.get (Atu.portAccess a p tag wr off v) = pt.get a := by
  simp at hpt
  unfold Atu.portAccess
  (try dsimp only) <;> (repeat' split) <;> first | (simp [hpt]; done) | (cases pt <;> simp at hpt ⊢)
@[simp] theorem Atu.request_only (pt : AtuPart) (hpt : pt ∉ [AtuPart.time, .samp, .path, .trace, .log, .age, .sand, .evr, .bound, .safe, .portA, .portB, .hostMem]) (a : Atu) (p : PortId) (m : List Byte) : pt.get (Atu.request a p m) = pt.get a := by
  simp at hpt
  unfold Atu.request
  (try dsimp only) <;> (repeat' split) <;> first | (simp [hpt]; done) | (cases pt <;> simp at hpt ⊢)
@[simp] theorem Atu.requestMsg_only (pt : AtuPart) (hpt : pt ∉ [AtuPart.time, .samp, .path, .trace, .log, .age, .sand, .evr, .bound, .safe, .portA, .portB, .hostMem]) (a : Atu) (p : PortId) (m : List Byte) : pt.get (Atu.requestMsg a p m) = pt.get a := by
  simp at hpt
  unfold Atu.requestMsg
  (try dsimp only) <;> (repeat' split) <;> first | (simp [hpt]; done) | (cases pt <;> simp at hpt ⊢)
@[simp] theorem Atu.mainPwrLow_only (pt : AtuPart) (hpt : pt ∉ [AtuPart.time, .samp, .path, .trace, .log, .age, .sand, .bound, .safe, .portA, .portB]) (a : Atu) : pt.get (Atu.mainPwrLow a) = pt.get a := by
  simp at hpt
  unfold Atu.mainPwrLow
  (try dsimp only) <;> (repeat' split) <;> first | (simp [hpt]; done) | (cases pt <;> simp at hpt ⊢)
@[simp] theorem Atu.faultFlush_only (pt : AtuPart) (hpt : pt ∉ [AtuPart.age, .sand, .evr]) (a : Atu) : pt.get (Atu.faultFlush a) = pt.get a := by
  simp at hpt
  unfold Atu.faultFlush
  (try dsimp only) <;> (repeat' split) <;> first | (simp [hpt]; done) | (cases pt <;> simp at hpt ⊢)
@[simp] theorem Atu.accessFrom_only (pt : AtuPart) (hpt : pt ∉ [AtuPart.time, .samp, .path, .trace, .log, .age, .sand, .evr, .bound, .safe, .portA, .portB, .hostMem]) (a : Atu) (src : RegFrom) (wr : Bool) (off : Nat) (v : Word) (strb : Nat) : pt.get (Atu.accessFrom a src wr off v strb) = pt.get a := by
  simp at hpt
  unfold Atu.accessFrom
  (try dsimp only) <;> (repeat' split) <;> first | (simp [hpt]; done) | (cases pt <;> simp at hpt ⊢)
@[simp] theorem Atu.writeFrom_only (pt : AtuPart) (hpt : pt ∉ [AtuPart.time, .samp, .path, .trace, .log, .age, .sand, .evr, .bound, .safe, .portA, .portB, .hostMem]) (a : Atu) (src : RegFrom) (off : Nat) (v : Word) : pt.get (Atu.writeFrom a src off v) = pt.get a := by
  simp at hpt
  unfold Atu.writeFrom
  (try dsimp only) <;> (repeat' split) <;> first | (simp [hpt]; done) | (cases pt <;> simp at hpt ⊢)
@[simp] theorem Atu.releaseHeld_only (pt : AtuPart) (hpt : pt ∉ [AtuPart.time, .samp, .path, .trace, .log, .age, .sand, .evr, .bound, .safe, .portA, .portB, .hostMem]) (a : Atu) (h : HeldAccess) : pt.get (Atu.releaseHeld a h) = pt.get a := by
  simp at hpt
  unfold Atu.releaseHeld
  (try dsimp only) <;> (repeat' split) <;> first | (simp [hpt]; done) | (cases pt <;> simp at hpt ⊢)
@[simp] theorem Atu.clkStop_only (pt : AtuPart) (hpt : pt ∉ [AtuPart.bound]) (a : Atu) : pt.get (Atu.clkStop a) = pt.get a := by
  simp at hpt
  unfold Atu.clkStop
  (try dsimp only) <;> (repeat' split) <;> first | (simp [hpt]; done) | (cases pt <;> simp at hpt ⊢)
@[simp] theorem Atu.clkStop_regs (a : Atu) : (Atu.clkStop a).regs = a.regs := by
  unfold Atu.clkStop
  (try dsimp only) <;> (repeat' split) <;> simp
@[simp] theorem Atu.shiftTimers_only (pt : AtuPart) (hpt : pt ∉ [AtuPart.trace, .sand]) (a : Atu) (d : Nat) : pt.get (Atu.shiftTimers a d) = pt.get a := by
  simp at hpt
  unfold Atu.shiftTimers
  (try dsimp only) <;> (repeat' split) <;> first | (simp [hpt]; done) | (cases pt <;> simp at hpt ⊢)
@[simp] theorem Atu.shiftTimers_regs (a : Atu) (d : Nat) : (Atu.shiftTimers a d).regs = a.regs := by
  unfold Atu.shiftTimers
  (try dsimp only) <;> (repeat' split) <;> simp
@[simp] theorem Atu.stopResume_only (pt : AtuPart) (hpt : pt ∉ [AtuPart.samp]) (a : Atu) : pt.get (Atu.stopResume a) = pt.get a := by
  simp at hpt
  unfold Atu.stopResume
  (try dsimp only) <;> (repeat' split) <;> first | (simp [hpt]; done) | (cases pt <;> simp at hpt ⊢)
@[simp] theorem Atu.clkRestart_only (pt : AtuPart) (hpt : pt ∉ [AtuPart.time, .samp, .path, .trace, .log, .age, .sand, .evr, .bound, .safe, .portA, .portB, .hostMem]) (a : Atu) : pt.get (Atu.clkRestart a) = pt.get a := by
  simp at hpt
  unfold Atu.clkRestart
  (try dsimp only) <;> (repeat' split) <;> first | (simp [hpt]; done) | (cases pt <;> simp at hpt ⊢)
@[simp] theorem Atu.askSafety_only (pt : AtuPart) (hpt : pt ∉ [AtuPart.portA, .portB]) (a : Atu) : pt.get (Atu.askSafety a) = pt.get a := by
  simp at hpt
  unfold Atu.askSafety
  (try dsimp only) <;> (repeat' split) <;> first | (simp [hpt]; done) | (cases pt <;> simp at hpt ⊢)
@[simp] theorem Atu.askSafety_regs (a : Atu) : (Atu.askSafety a).regs = a.regs := by
  unfold Atu.askSafety
  (try dsimp only) <;> (repeat' split) <;> simp
@[simp] theorem Atu.selfFault_only (pt : AtuPart) (a : Atu) : pt.get (Atu.selfFault a) = pt.get a := by
  unfold Atu.selfFault
  (try dsimp only) <;> (repeat' split) <;> first | (simp; done) | (cases pt <;> simp)
@[simp] theorem Atu.checkInterval_only (pt : AtuPart) (a : Atu) (last : Nat) : pt.get (Atu.checkInterval a last) = pt.get a := by
  unfold Atu.checkInterval
  (try dsimp only) <;> (repeat' split) <;> first | (simp; done) | (cases pt <;> simp)
@[simp] theorem Atu.safetyBeat_only (pt : AtuPart) (hpt : pt ∉ [AtuPart.safe, .portA, .portB]) (a : Atu) : pt.get (Atu.safetyBeat a) = pt.get a := by
  simp at hpt
  unfold Atu.safetyBeat
  (try dsimp only) <;> (repeat' split) <;> first | (simp [hpt]; done) | (cases pt <;> simp at hpt ⊢)
@[simp] theorem Atu.safeEdge_only (pt : AtuPart) (hpt : pt ∉ [AtuPart.evr, .safe]) (a : Atu) (i : Fin 8) (now : Bool) : pt.get (Atu.safeEdge a i now) = pt.get a := by
  simp at hpt
  unfold Atu.safeEdge
  (try dsimp only) <;> (repeat' split) <;> first | (simp [hpt]; done) | (cases pt <;> simp at hpt ⊢)
@[simp] theorem Atu.safeIn_only (pt : AtuPart) (hpt : pt ∉ [AtuPart.samp, .trace, .evr, .safe, .portA, .portB, .hostMem]) (a : Atu) (lv : BitVec 8) : pt.get (Atu.safeIn a lv) = pt.get a := by
  simp at hpt
  unfold Atu.safeIn
  (try dsimp only) <;> (repeat' split) <;> first | (simp [hpt]; done) | (cases pt <;> simp at hpt ⊢)
@[simp] theorem Atu.pathTest_only (pt : AtuPart) (a : Atu) (fails : BitVec 8) : pt.get (Atu.pathTest a fails) = pt.get a := by
  unfold Atu.pathTest
  (try dsimp only) <;> (repeat' split) <;> first | (simp; done) | (cases pt <;> simp)
@[simp] theorem Atu.topUp_only (pt : AtuPart) (hpt : pt ∉ [AtuPart.trace]) (a : Atu) : pt.get (Atu.topUp a) = pt.get a := by
  simp at hpt
  unfold Atu.topUp
  (try dsimp only) <;> (repeat' split) <;> first | (simp [hpt]; done) | (cases pt <;> simp at hpt ⊢)
@[simp] theorem Atu.topUp_regs (a : Atu) : (Atu.topUp a).regs = a.regs := by
  unfold Atu.topUp
  (try dsimp only) <;> (repeat' split) <;> simp
@[simp] theorem Atu.setTokens_only (pt : AtuPart) (hpt : pt ∉ [AtuPart.trace]) (a : Atu) (p : PortId) (n : Nat) : pt.get (Atu.setTokens a p n) = pt.get a := by
  simp at hpt
  unfold Atu.setTokens
  (try dsimp only) <;> (repeat' split) <;> first | (simp [hpt]; done) | (cases pt <;> simp at hpt ⊢)
@[simp] theorem Atu.setTokens_regs (a : Atu) (p : PortId) (n : Nat) : (Atu.setTokens a p n).regs = a.regs := by
  unfold Atu.setTokens
  (try dsimp only) <;> (repeat' split) <;> simp
@[simp] theorem Atu.spend_only (pt : AtuPart) (hpt : pt ∉ [AtuPart.trace]) (a : Atu) (p : PortId) : pt.get (Atu.spend a p) = pt.get a := by
  simp at hpt
  unfold Atu.spend
  (try dsimp only) <;> (repeat' split) <;> first | (simp [hpt]; done) | (cases pt <;> simp at hpt ⊢)
@[simp] theorem Atu.spend_regs (a : Atu) (p : PortId) : (Atu.spend a p).regs = a.regs := by
  unfold Atu.spend
  (try dsimp only) <;> (repeat' split) <;> simp
theorem Atu.pullSource_only (pt : AtuPart) (hpt : pt ∉ [AtuPart.trace]) {a : Atu} {p l b a'} (h : a.pullSource p l = some (b, a')) : pt.get a' = pt.get a := by
  simp at hpt
  induction l generalizing a with
  | nil => cases h
  | cons x l ih =>
    unfold Atu.pullSource at h
    split at h
    · injection h with h; injection h with _ h; subst h; first | (simp [hpt]; done) | (cases pt <;> simp at hpt ⊢)
    · exact ih h
theorem Atu.pullSource_regs {a : Atu} {p l b a'} (h : a.pullSource p l = some (b, a')) : a'.regs = a.regs := by
  induction l generalizing a with
  | nil => cases h
  | cons x l ih =>
    unfold Atu.pullSource at h
    split at h
    · injection h with h; injection h with _ h; subst h; simp
    · exact ih h
theorem Atu.pullChunk_only (pt : AtuPart) (hpt : pt ∉ [AtuPart.trace]) {a : Atu} {p b a'} (h : a.pullChunk p = some (b, a')) : pt.get a' = pt.get a := by
  simp at hpt
  unfold Atu.pullChunk at h
  repeat' split at h
  · next h1 => injection h with h; subst h; exact Atu.pullSource_only pt (by simp [hpt]) h1
  · injection h with h; injection h with _ h; subst h; first | (simp [hpt]; done) | (cases pt <;> simp at hpt ⊢)
  · cases h
theorem Atu.pullChunk_regs {a : Atu} {p b a'} (h : a.pullChunk p = some (b, a')) : a'.regs = a.regs := by
  unfold Atu.pullChunk at h
  repeat' split at h
  · next h1 => injection h with h; subst h; exact Atu.pullSource_regs h1
  · injection h with h; injection h with _ h; subst h; simp
  · cases h
@[simp] theorem Atu.offerTrace_only (pt : AtuPart) (hpt : pt ∉ [AtuPart.trace, .portA, .portB]) (a : Atu) (p : PortId) : pt.get (Atu.offerTrace a p) = pt.get a := by
  simp at hpt
  unfold Atu.offerTrace
  dsimp only
  repeat' split
  · first | (simp [hpt]; done) | (cases pt <;> simp at hpt ⊢)
  · first | (simp [hpt]; done) | (cases pt <;> simp at hpt ⊢)
  · first | (simp [hpt]; done) | (cases pt <;> simp at hpt ⊢)
  · next h => have b := Atu.pullChunk_only pt (by simp [hpt]) h; first | (simp [hpt, b]; done) | (cases pt <;> simp [b] at hpt ⊢)
@[simp] theorem Atu.offerTrace_regs (a : Atu) (p : PortId) : (Atu.offerTrace a p).regs = a.regs := by
  unfold Atu.offerTrace
  dsimp only
  repeat' split
  · simp
  · simp
  · simp
  · next h => have b := Atu.pullChunk_regs h; simp [b]
@[simp] theorem Atu.sendSafety_only (pt : AtuPart) (hpt : pt ∉ [AtuPart.safe, .portA, .portB]) (a : Atu) (p : PortId) : pt.get (Atu.sendSafety a p) = pt.get a := by
  simp at hpt
  unfold Atu.sendSafety
  (try dsimp only) <;> (repeat' split) <;> first | (simp [hpt]; done) | (cases pt <;> simp at hpt ⊢)
@[simp] theorem Atu.sendTraining_only (pt : AtuPart) (hpt : pt ∉ [AtuPart.portA, .portB]) (a : Atu) (p : PortId) : pt.get (Atu.sendTraining a p) = pt.get a := by
  simp at hpt
  unfold Atu.sendTraining
  (try dsimp only) <;> (repeat' split) <;> first | (simp [hpt]; done) | (cases pt <;> simp at hpt ⊢)
@[simp] theorem Atu.sendTraining_regs (a : Atu) (p : PortId) : (Atu.sendTraining a p).regs = a.regs := by
  unfold Atu.sendTraining
  (try dsimp only) <;> (repeat' split) <;> simp
@[simp] theorem Atu.sendFlit_only (pt : AtuPart) (hpt : pt ∉ [AtuPart.trace, .safe, .portA, .portB]) (a : Atu) (p : PortId) : pt.get (Atu.sendFlit a p) = pt.get a := by
  simp at hpt
  unfold Atu.sendFlit
  (try dsimp only) <;> (repeat' split) <;> first | (simp [hpt]; done) | (cases pt <;> simp at hpt ⊢)
@[simp] theorem Atu.replayFlag_only (pt : AtuPart) (a : Atu) (p : PortId) (started : Bool) : pt.get (Atu.replayFlag a p started) = pt.get a := by
  unfold Atu.replayFlag
  (try dsimp only) <;> (repeat' split) <;> first | (simp; done) | (cases pt <;> simp)
@[simp] theorem Atu.recvFlit_only (pt : AtuPart) (hpt : pt ∉ [AtuPart.time, .samp, .path, .trace, .log, .age, .sand, .evr, .bound, .safe, .portA, .portB, .hostMem]) (a : Atu) (p : PortId) (f : List Byte) : pt.get (Atu.recvFlit a p f) = pt.get a := by
  simp at hpt
  unfold Atu.recvFlit
  (try dsimp only) <;> (repeat' split) <;> first | (simp [hpt]; done) | (cases pt <;> simp at hpt ⊢)
@[simp] theorem Atu.loopReturn_only (pt : AtuPart) (hpt : pt ∉ [AtuPart.time, .safe, .portA, .portB]) (a : Atu) (p : PortId) : pt.get (Atu.loopReturn a p) = pt.get a := by
  simp at hpt
  unfold Atu.loopReturn
  (try dsimp only) <;> (repeat' split) <;> first | (simp [hpt]; done) | (cases pt <;> simp at hpt ⊢)
@[simp] theorem Atu.retryTimeout_only (pt : AtuPart) (hpt : pt ∉ [AtuPart.time, .portA, .portB]) (a : Atu) (p : PortId) : pt.get (Atu.retryTimeout a p) = pt.get a := by
  simp at hpt
  unfold Atu.retryTimeout
  (try dsimp only) <;> (repeat' split) <;> first | (simp [hpt]; done) | (cases pt <;> simp at hpt ⊢)
@[simp] theorem Atu.idleTimeout_only (pt : AtuPart) (hpt : pt ∉ [AtuPart.time, .portA, .portB]) (a : Atu) (p : PortId) : pt.get (Atu.idleTimeout a p) = pt.get a := by
  simp at hpt
  unfold Atu.idleTimeout
  (try dsimp only) <;> (repeat' split) <;> first | (simp [hpt]; done) | (cases pt <;> simp at hpt ⊢)
@[simp] theorem Atu.lockLoss_only (pt : AtuPart) (hpt : pt ∉ [AtuPart.time, .portA, .portB]) (a : Atu) (p : PortId) : pt.get (Atu.lockLoss a p) = pt.get a := by
  simp at hpt
  unfold Atu.lockLoss
  (try dsimp only) <;> (repeat' split) <;> first | (simp [hpt]; done) | (cases pt <;> simp at hpt ⊢)
@[simp] theorem Atu.trainStart_only (pt : AtuPart) (hpt : pt ∉ [AtuPart.portA, .portB]) (a : Atu) (p : PortId) : pt.get (Atu.trainStart a p) = pt.get a := by
  simp at hpt
  unfold Atu.trainStart
  (try dsimp only) <;> (repeat' split) <;> first | (simp [hpt]; done) | (cases pt <;> simp at hpt ⊢)
@[simp] theorem Atu.trainStart_regs (a : Atu) (p : PortId) : (Atu.trainStart a p).regs = a.regs := by
  unfold Atu.trainStart
  (try dsimp only) <;> (repeat' split) <;> simp
@[simp] theorem Atu.blockLock_only (pt : AtuPart) (hpt : pt ∉ [AtuPart.portA, .portB]) (a : Atu) (p : PortId) : pt.get (Atu.blockLock a p) = pt.get a := by
  simp at hpt
  unfold Atu.blockLock
  (try dsimp only) <;> (repeat' split) <;> first | (simp [hpt]; done) | (cases pt <;> simp at hpt ⊢)
@[simp] theorem Atu.blockLock_regs (a : Atu) (p : PortId) : (Atu.blockLock a p).regs = a.regs := by
  unfold Atu.blockLock
  (try dsimp only) <;> (repeat' split) <;> simp
@[simp] theorem Atu.trainFail_only (pt : AtuPart) (hpt : pt ∉ [AtuPart.portA, .portB]) (a : Atu) (p : PortId) : pt.get (Atu.trainFail a p) = pt.get a := by
  simp at hpt
  unfold Atu.trainFail
  (try dsimp only) <;> (repeat' split) <;> first | (simp [hpt]; done) | (cases pt <;> simp at hpt ⊢)
@[simp] theorem Atu.trainFail_regs (a : Atu) (p : PortId) : (Atu.trainFail a p).regs = a.regs := by
  unfold Atu.trainFail
  (try dsimp only) <;> (repeat' split) <;> simp
@[simp] theorem Atu.trainWaitEnd_only (pt : AtuPart) (hpt : pt ∉ [AtuPart.portA, .portB]) (a : Atu) (p : PortId) : pt.get (Atu.trainWaitEnd a p) = pt.get a := by
  simp at hpt
  unfold Atu.trainWaitEnd
  (try dsimp only) <;> (repeat' split) <;> first | (simp [hpt]; done) | (cases pt <;> simp at hpt ⊢)
@[simp] theorem Atu.trainWaitEnd_regs (a : Atu) (p : PortId) : (Atu.trainWaitEnd a p).regs = a.regs := by
  unfold Atu.trainWaitEnd
  (try dsimp only) <;> (repeat' split) <;> simp
@[simp] theorem Atu.oobReset_only (pt : AtuPart) (hpt : pt ∉ [AtuPart.time, .samp, .path, .trace, .log, .age, .sand, .bound, .safe, .portA, .portB]) (a : Atu) (p : PortId) (bs : List LineBlock) : pt.get (Atu.oobReset a p bs) = pt.get a := by
  simp at hpt
  unfold Atu.oobReset
  (try dsimp only) <;> (repeat' split) <;> first | (simp [hpt]; done) | (cases pt <;> simp at hpt ⊢)

end Sys2Proof.Machine
end

