-- ==== Sys2Proof/Laws/RegFields.lean ====
section
/-!
SUPPORT. RegFields.lean: a register file after a write elsewhere, the ranges that blocks of registers take, and the registers of the flags.
-/
namespace Sys2Proof.Machine
set_option linter.all false
def coversR (l m : List (Nat × Nat)) : Bool := m.all fun x => l.any fun r => decide (r.1 ≤ x.1) && decide (x.2 ≤ r.2)
theorem Outside.mono {l m : List (Nat × Nat)} {k : Nat} (h : Outside l k) (c : coversR l m = true) : Outside m k := by
  intro x hx
  simp only [coversR, List.all_eq_true, List.any_eq_true, Bool.and_eq_true, decide_eq_true_eq] at c
  obtain ⟨r, hr, h1, h2⟩ := c x hx
  have := h r hr
  omega
@[simp] theorem rget_rset_out (r : SMap Word) (o k : Nat) (v : Word) (h : Outside [(o, o)] k) : rget (rset r o v) k = rget r k := by
  apply sget_sset_ne
  have := h (o, o) (by simp)
  omega
@[simp] theorem rget_rsetN_out (r : SMap Word) (o k v : Nat) (h : Outside [(o, o)] k) : rget (rsetN r o v) k = rget r k := rget_rset_out r o k _ h
@[simp] theorem rget_rinc_out (r : SMap Word) (o k v : Nat) (h : Outside [(o, o)] k) : rget (rinc r o v) k = rget r k := rget_rset_out r o k _ h
@[simp] theorem rget_rincSat_out (r : SMap Word) (o k : Nat) (h : Outside [(o, o)] k) : rget (rincSat r o) k = rget r k := by
  unfold rincSat; split
  · rfl
  · exact rget_rset_out r o k _ h
@[simp] theorem rget_rset64_out (r : SMap Word) (o k v : Nat) (h : Outside [(o, o)] k) (h2 : Outside [(o + 4, o + 4)] k) : rget (rset64 r o v) k = rget r k := by
  unfold rset64; rw [rget_rsetN_out _ _ _ _ h2, rget_rsetN_out _ _ _ _ h]
@[simp] theorem rget_raise_out (f : Flag) (r : SMap Word) (k : Nat) (h : Outside [(f.stat, f.stat)] k) (h2 : Outside [(f.ctr, f.ctr)] k) : rget (raiseFlag f r) k = rget r k := by
  unfold raiseFlag; rw [rget_rincSat_out _ _ _ h2, rget_rset_out _ _ _ _ h]
@[simp] theorem rget_ite {c : Prop} [Decidable c] (x y : SMap Word) (k : Nat) : rget (if c then x else y) k = if c then rget x k else rget y k := by split <;> rfl
@[simp] theorem Agg.rget_foldl {α : Type} (l : List α) (f : Agg → α → Agg) (k : Nat) (h : ∀ b x, rget (f b x).regs k = rget b.regs k) (a : Agg) : rget (l.foldl f a).regs k = rget a.regs k := by
  induction l generalizing a with
  | nil => rfl
  | cons x l ih => simp only [List.foldl_cons, ih, h]
@[simp] theorem Agg.rget_foldl1 {α β : Type} (l : List α) (f : Agg × β → α → Agg × β) (k : Nat) (h : ∀ b x, rget (f b x).1.regs k = rget b.1.regs k) (a : Agg × β) : rget (l.foldl f a).1.regs k = rget a.1.regs k := by
  induction l generalizing a with
  | nil => rfl
  | cons x l ih => simp only [List.foldl_cons, ih, h]
@[simp] theorem Atu.rget_foldl {α : Type} (l : List α) (f : Atu → α → Atu) (k : Nat) (h : ∀ b x, rget (f b x).regs k = rget b.regs k) (a : Atu) : rget (l.foldl f a).regs k = rget a.regs k := by
  induction l generalizing a with
  | nil => rfl
  | cons x l ih => simp only [List.foldl_cons, ih, h]
@[simp] theorem Atu.rget_foldl1 {α β : Type} (l : List α) (f : Atu × β → α → Atu × β) (k : Nat) (h : ∀ b x, rget (f b x).1.regs k = rget b.1.regs k) (a : Atu × β) : rget (l.foldl f a).1.regs k = rget a.1.regs k := by
  induction l generalizing a with
  | nil => rfl
  | cons x l ih => simp only [List.foldl_cons, ih, h]
theorem outside_range {lo hi o k : Nat} (h : Outside [(lo, hi)] k) (a : lo ≤ o) (b : o ≤ hi) : Outside [(o, o)] k := by
  have := h _ (List.mem_singleton.2 rfl)
  intro r hr; rw [List.mem_singleton.1 hr]; simp only at *; omega
@[simp] theorem tmFlag_stat (k : Nat) : (tmFlag k).stat = 0x1000 := by simp only [tmFlag]
@[simp] theorem tmFlag_ctr (k : Nat) : (tmFlag k).ctr = 0x1040 + 4 * (k - 16) := by simp only [tmFlag]
@[simp] theorem dportFlag_stat (p k : Nat) : (dportFlag p k).stat = dportBase p := by simp only [dportFlag]
@[simp] theorem dportFlag_ctr (p k : Nat) : (dportFlag p k).ctr = dportBase p + 0x40 + 4 * (k - 8) := by simp only [dportFlag]
@[simp] theorem sklinkFlag_stat (l k : Nat) : (sklinkFlag l k).stat = sklinkBase l := by simp only [sklinkFlag]
@[simp] theorem sklinkFlag_ctr (l k : Nat) : (sklinkFlag l k).ctr = sklinkBase l + 0x40 + 4 * (k - 8) := by simp only [sklinkFlag]
@[simp] theorem tcFlag_stat (k : Nat) : (tcFlag k).stat = 0x40088 := by simp only [tcFlag]
@[simp] theorem tcFlag_ctr (k : Nat) : (tcFlag k).ctr = 0x400C0 + 4 * k := by simp only [tcFlag]
@[simp] theorem skimFlag_stat (k : Nat) : (skimFlag k).stat = 0x50000 := by simp only [skimFlag]
@[simp] theorem skimFlag_ctr (k : Nat) : (skimFlag k).ctr = 0x50040 + 4 * k := by simp only [skimFlag]
@[simp] theorem stnFlag_stat (k : Nat) : (stnFlag k).stat = 0x60010 := by simp only [stnFlag]
@[simp] theorem stnFlag_ctr (k : Nat) : (stnFlag k).ctr = 0x60040 + 4 * k := by simp only [stnFlag]
@[simp] theorem stencilFlag_stat (k : Nat) : (stencilFlag k).stat = 0x70000 := by simp only [stencilFlag]
@[simp] theorem stencilFlag_ctr (k : Nat) : (stencilFlag k).ctr = 0x70040 + 4 * k := by simp only [stencilFlag]
@[simp] theorem levelFlag_stat (k : Nat) : (levelFlag k).stat = 0x80000 := by simp only [levelFlag]
@[simp] theorem levelFlag_ctr (k : Nat) : (levelFlag k).ctr = 0x80040 + 4 * k := by simp only [levelFlag]
@[simp] theorem mbxFlag_stat (k : Nat) : (mbxFlag k).stat = 0x90000 := by simp only [mbxFlag]
@[simp] theorem mbxFlag_ctr (k : Nat) : (mbxFlag k).ctr = 0x90040 + 4 * k := by simp only [mbxFlag]
@[simp] theorem jobFlag_stat (k : Nat) : (jobFlag k).stat = 0xA0000 := by simp only [jobFlag]
@[simp] theorem jobFlag_ctr (k : Nat) : (jobFlag k).ctr = 0xA0040 + 4 * k := by simp only [jobFlag]
@[simp] theorem apFlag_stat (k : Nat) : (apFlag k).stat = 0xB0000 := by simp only [apFlag]
@[simp] theorem apFlag_ctr (k : Nat) : (apFlag k).ctr = 0xB0040 + 4 * k := by simp only [apFlag]
@[simp] theorem pwrFlag_stat (k : Nat) : (pwrFlag k).stat = 0xC0000 := by simp only [pwrFlag]
@[simp] theorem pwrFlag_ctr (k : Nat) : (pwrFlag k).ctr = 0xC0040 + 4 * k := by simp only [pwrFlag]
@[simp] theorem asafeFlag_stat (k : Nat) : (asafeFlag k).stat = 0xD0004 := by simp only [asafeFlag]
@[simp] theorem asafeFlag_ctr (k : Nat) : (asafeFlag k).ctr = 0xD0040 + 4 * k := by simp only [asafeFlag]
@[simp] theorem bootFlag_stat (k : Nat) : (bootFlag k).stat = 0xE0000 := by simp only [bootFlag]
@[simp] theorem bootFlag_ctr (k : Nat) : (bootFlag k).ctr = 0xE0040 + 4 * (k - 16) := by simp only [bootFlag]
@[simp] theorem ringFlag_stat (n k : Nat) : (ringFlag n k).stat = ringRegion n + 0x4014 := by simp only [ringFlag]
@[simp] theorem ringFlag_ctr (n k : Nat) : (ringFlag n k).ctr = ringRegion n + 0x4040 + 4 * k := by simp only [ringFlag]
@[simp] theorem bndFlag_stat (k : Nat) : (bndFlag k).stat = 0x0030 := by simp only [bndFlag]
@[simp] theorem bndFlag_ctr (k : Nat) : (bndFlag k).ctr = 0x0040 + 4 * k := by simp only [bndFlag]
@[simp] theorem timeFlag_stat (k : Nat) : (timeFlag k).stat = 0x0108 := by simp only [timeFlag]
@[simp] theorem timeFlag_ctr (k : Nat) : (timeFlag k).ctr = 0x0140 + 4 * (k - 8) := by simp only [timeFlag]
@[simp] theorem snapFlag_stat (k : Nat) : (snapFlag k).stat = 0x0400 := by simp only [snapFlag]
@[simp] theorem snapFlag_ctr (k : Nat) : (snapFlag k).ctr = 0x0440 + 4 * k := by simp only [snapFlag]
@[simp] theorem frameFlag_stat (k : Nat) : (frameFlag k).stat = 0x0704 := by simp only [frameFlag]
@[simp] theorem frameFlag_ctr (k : Nat) : (frameFlag k).ctr = 0x0740 + 4 * k := by simp only [frameFlag]
@[simp] theorem trcFlag_stat (k : Nat) : (trcFlag k).stat = 0x3008 := by simp only [trcFlag]
@[simp] theorem trcFlag_ctr (k : Nat) : (trcFlag k).ctr = 0x3040 + 4 * (k - 8) := by simp only [trcFlag]
@[simp] theorem logFlag_stat (k : Nat) : (logFlag k).stat = 0x3810 := by simp only [logFlag]
@[simp] theorem logFlag_ctr (k : Nat) : (logFlag k).ctr = 0x3840 + 4 * (k - 8) := by simp only [logFlag]
@[simp] theorem sandFlag_stat (k : Nat) : (sandFlag k).stat = 0x5A10 := by simp only [sandFlag]
@[simp] theorem sandFlag_ctr (k : Nat) : (sandFlag k).ctr = 0x5A40 + 4 * k := by simp only [sandFlag]
@[simp] theorem ageFlag_stat (k : Nat) : (ageFlag k).stat = 0x5008 := by simp only [ageFlag]
@[simp] theorem ageFlag_ctr (k : Nat) : (ageFlag k).ctr = 0x5040 + 4 * k := by simp only [ageFlag]
@[simp] theorem evrFlag_stat (k : Nat) : (evrFlag k).stat = 0x6004 := by simp only [evrFlag]
@[simp] theorem evrFlag_ctr (k : Nat) : (evrFlag k).ctr = 0x6040 + 4 * (k - 8) := by simp only [evrFlag]
@[simp] theorem safeFlag_stat (k : Nat) : (safeFlag k).stat = 0x6800 := by simp only [safeFlag]
@[simp] theorem safeFlag_ctr (k : Nat) : (safeFlag k).ctr = 0x6840 + 4 * (k - 16) := by simp only [safeFlag]
@[simp] theorem dpFlag_stat (p : PortId) (k : Nat) : (dpFlag p k).stat = portBase p := by simp only [dpFlag]
@[simp] theorem dpFlag_ctr (p : PortId) (k : Nat) : (dpFlag p k).ctr = portBase p + 0x40 + 4 * (k - 8) := by simp only [dpFlag]
theorem outside_one {o k : Nat} (h : k ≠ o) : Outside [(o, o)] k := by
  intro r hr; rw [List.mem_singleton.1 hr]; simp only; omega
@[simp] theorem out_dportBase {k : Nat} (p : Nat) (o : Nat) (h : Outside [(0x20000, 0x23FFF)] k) (ho : o < 256) : Outside [(dportBase p + o, dportBase p + o)] k := by
  have := h _ (List.mem_singleton.2 rfl)
  simp only [Outside, List.mem_singleton, forall_eq]
  (simp only [dportBase] at *; omega)
@[simp] theorem out_dportBase0 {k : Nat} (p : Nat) (h : Outside [(0x20000, 0x23FFF)] k) : Outside [(dportBase p, dportBase p)] k := out_dportBase p 0 h (by decide)
@[simp] theorem out_sklinkBase {k : Nat} (p : Nat) (o : Nat) (h : Outside [(0x30000, 0x31FFF)] k) (ho : o < 256) : Outside [(sklinkBase p + o, sklinkBase p + o)] k := by
  have := h _ (List.mem_singleton.2 rfl)
  simp only [Outside, List.mem_singleton, forall_eq]
  (simp only [sklinkBase] at *; omega)
@[simp] theorem out_sklinkBase0 {k : Nat} (p : Nat) (h : Outside [(0x30000, 0x31FFF)] k) : Outside [(sklinkBase p, sklinkBase p)] k := out_sklinkBase p 0 h (by decide)
@[simp] theorem out_apBase {k : Nat} (p : Nat) (o : Nat) (h : Outside [(0xB0000, 0xB01FF)] k) (ho : o < 128) : Outside [(apBase p + o, apBase p + o)] k := by
  have := h _ (List.mem_singleton.2 rfl)
  simp only [Outside, List.mem_singleton, forall_eq]
  (simp only [apBase] at *; omega)
@[simp] theorem out_apBase0 {k : Nat} (p : Nat) (h : Outside [(0xB0000, 0xB01FF)] k) : Outside [(apBase p, apBase p)] k := out_apBase p 0 h (by decide)
@[simp] theorem out_apSent {k : Nat} (p c : Nat) (o : Nat) (h : Outside [(0x43000, 0x431FF)] k) (ho : o < 24) : Outside [(apSent p c + o, apSent p c + o)] k := by
  have := h _ (List.mem_singleton.2 rfl)
  simp only [Outside, List.mem_singleton, forall_eq]
  (simp only [apSent] at *; omega)
@[simp] theorem out_apSent0 {k : Nat} (p c : Nat) (h : Outside [(0x43000, 0x431FF)] k) : Outside [(apSent p c, apSent p c)] k := out_apSent p c 0 h (by decide)
@[simp] theorem out_siteBase {k : Nat} (p : Nat) (o : Nat) (h : Outside [(0x5100, 0x58FF)] k) (ho : o < 64) : Outside [(siteBase p + o, siteBase p + o)] k := by
  have := h _ (List.mem_singleton.2 rfl)
  simp only [Outside, List.mem_singleton, forall_eq]
  (simp only [siteBase] at *; omega)
@[simp] theorem out_siteBase0 {k : Nat} (p : Nat) (h : Outside [(0x5100, 0x58FF)] k) : Outside [(siteBase p, siteBase p)] k := out_siteBase p 0 h (by decide)
@[simp] theorem out_aggSiteBase {k : Nat} (p : Nat) (o : Nat) (h : Outside [(0xC0100, 0xC06FF)] k) (ho : o < 64) : Outside [(aggSiteBase p + o, aggSiteBase p + o)] k := by
  have := h _ (List.mem_singleton.2 rfl)
  simp only [Outside, List.mem_singleton, forall_eq]
  (simp only [aggSiteBase] at *; omega)
@[simp] theorem out_aggSiteBase0 {k : Nat} (p : Nat) (h : Outside [(0xC0100, 0xC06FF)] k) : Outside [(aggSiteBase p, aggSiteBase p)] k := out_aggSiteBase p 0 h (by decide)
@[simp] theorem out_patBase {k : Nat} (p : Nat) (o : Nat) (h : Outside [(0x4000, 0x4FFF)] k) (ho : o < 128) : Outside [(patBase p + o, patBase p + o)] k := by
  have := h _ (List.mem_singleton.2 rfl)
  simp only [Outside, List.mem_singleton, forall_eq]
  (simp only [patBase] at *; omega)
@[simp] theorem out_patBase0 {k : Nat} (p : Nat) (h : Outside [(0x4000, 0x4FFF)] k) : Outside [(patBase p, patBase p)] k := out_patBase p 0 h (by decide)
@[simp] theorem out_portBase {k : Nat} (p : PortId) (o : Nat) (h : Outside [(0x7000, 0x70FF)] k) (ho : o < 128) : Outside [(portBase p + o, portBase p + o)] k := by
  have := h _ (List.mem_singleton.2 rfl)
  simp only [Outside, List.mem_singleton, forall_eq]
  cases p <;> (simp only [portBase] at *; omega)
@[simp] theorem out_portBase0 {k : Nat} (p : PortId) (h : Outside [(0x7000, 0x70FF)] k) : Outside [(portBase p, portBase p)] k := out_portBase p 0 h (by decide)
@[simp] theorem out_ringRegion {k : Nat} (p : Nat) (o : Nat) (h : Outside [(0x20000000, 0x2010FFFF)] k) (ho : o < 65536) : Outside [(ringRegion p + o, ringRegion p + o)] k := by
  have := h _ (List.mem_singleton.2 rfl)
  simp only [Outside, List.mem_singleton, forall_eq]
  (simp only [ringRegion] at *; omega)
@[simp] theorem out_ringRegion0 {k : Nat} (p : Nat) (h : Outside [(0x20000000, 0x2010FFFF)] k) : Outside [(ringRegion p, ringRegion p)] k := out_ringRegion p 0 h (by decide)
end Sys2Proof.Machine
end

