-- ==== Sys2Proof/Laws/RegsAgg.lean ====
section
/-!
SUPPORT. RegsAgg.lean: one lemma per operation of the aggregator that says which registers the operation may change (the first half).
-/
namespace Sys2Proof.Machine
set_option linter.all false
@[simp] theorem Agg.setReg_rget (g : Agg) (off : Nat) (v : Word) (k_ : Nat) (h : Outside [(off, off)] k_) : rget (Agg.setReg g off v).regs k_ = rget g.regs k_ := by
  unfold Agg.setReg
  (repeat' split) <;> simp [h]
@[simp] theorem Agg.setRegN_rget (g : Agg) (off : Nat) (v : Nat) (k_ : Nat) (h : Outside [(off, off)] k_) : rget (Agg.setRegN g off v).regs k_ = rget g.regs k_ := by
  unfold Agg.setRegN
  (repeat' split) <;> simp [h]
@[simp] theorem Agg.setReg64_rget (g : Agg) (off : Nat) (v : Nat) (k_ : Nat) (h : Outside [(off, off)] k_) (h2 : Outside [(off + 4, off + 4)] k_) : rget (Agg.setReg64 g off v).regs k_ = rget g.regs k_ := by
  unfold Agg.setReg64
  (repeat' split) <;> simp [h, h2]
@[simp] theorem Agg.setFld_rget (g : Agg) (off : Nat) (hi : Nat) (lo : Nat) (v : Nat) (k_ : Nat) (h : Outside [(off, off)] k_) : rget (Agg.setFld g off hi lo v).regs k_ = rget g.regs k_ := by
  unfold Agg.setFld
  (repeat' split) <;> simp [h]
@[simp] theorem Agg.setBit_rget (g : Agg) (off : Nat) (k : Nat) (b : Bool) (k_ : Nat) (h : Outside [(off, off)] k_) : rget (Agg.setBit g off k b).regs k_ = rget g.regs k_ := by
  unfold Agg.setBit
  (repeat' split) <;> simp [h]
@[simp] theorem Agg.inc_rget (g : Agg) (off : Nat) (n : Nat) (k_ : Nat) (h : Outside [(off, off)] k_) : rget (Agg.inc g off n).regs k_ = rget g.regs k_ := by
  unfold Agg.inc
  (repeat' split) <;> simp [h]
@[simp] theorem Agg.incFldSat_rget (g : Agg) (off : Nat) (hi : Nat) (lo : Nat) (k_ : Nat) (h : Outside [(off, off)] k_) : rget (Agg.incFldSat g off hi lo).regs k_ = rget g.regs k_ := by
  unfold Agg.incFldSat
  (repeat' split) <;> simp [h]
@[simp] theorem Agg.flag_rget (g : Agg) (f : Flag) (k_ : Nat) (h : Outside [(f.stat, f.stat)] k_) (h2 : Outside [(f.ctr, f.ctr)] k_) : rget (Agg.flag g f).regs k_ = rget g.regs k_ := by
  unfold Agg.flag
  (repeat' split) <;> simp [h, h2]
@[simp] theorem Agg.violation_rget (g : Agg) (ring : Nat) (op : Nat) (status : Nat) (tag : Nat) (source : Nat) (addr : Nat) (k_ : Nat) (h : Outside [(0x90000, 0x90000), (0x90040, 0x90040)] k_) : rget (Agg.violation g ring op status tag source addr).regs k_ = rget g.regs k_ := by
  have hm := fun (m : List (Nat × Nat)) (c : coversR [(0x90000, 0x90000), (0x90040, 0x90040)] m = true) => Outside.mono h c
  have hb0 : Outside [(0x90000, 0x90000)] k_ := hm _ (by decide)
  have hb1 : Outside [(0x90040, 0x90040)] k_ := hm _ (by decide)
  unfold Agg.violation
  (repeat' split) <;> simp [hb0, hb1]
@[simp] theorem Agg.completeNow_rget (g : Agg) (w : Nat × Nat) (op : Nat) (st : Status) (res : List Byte) (addr : Nat) (k_ : Nat) (h : Outside [(0x90000, 0x90000), (0x90040, 0x90040)] k_) : rget (Agg.completeNow g w op st res addr).regs k_ = rget g.regs k_ := by
  have hm := fun (m : List (Nat × Nat)) (c : coversR [(0x90000, 0x90000), (0x90040, 0x90040)] m = true) => Outside.mono h c
  have hb0 : Outside [(0x90000, 0x90000), (0x90040, 0x90040)] k_ := hm _ (by decide)
  unfold Agg.completeNow
  (try dsimp only) <;> (repeat' split) <;> simp [hb0]
@[simp] theorem Agg.completeAt_rget (g : Agg) (w : Nat × Nat) (op : Nat) (st : Status) (res : List Byte) (addr : Nat) (k_ : Nat) (h : Outside [(0x43000, 0x431FF), (0x90000, 0x90000), (0x90040, 0x90040), (0xB0000, 0xB01FF)] k_) : rget (Agg.completeAt g w op st res addr).regs k_ = rget g.regs k_ := by
  have hm := fun (m : List (Nat × Nat)) (c : coversR [(0x43000, 0x431FF), (0x90000, 0x90000), (0x90040, 0x90040), (0xB0000, 0xB01FF)] m = true) => Outside.mono h c
  have hb0 : Outside [(0x43000, 0x431FF), (0xB0000, 0xB01FF)] k_ := hm _ (by decide)
  have hb1 : Outside [(0x90000, 0x90000), (0x90040, 0x90040)] k_ := hm _ (by decide)
  unfold Agg.completeAt
  (repeat' split) <;> simp [hb0, hb1]
@[simp] theorem Agg.complete_rget (g : Agg) (w : Nat × Nat) (op : Nat) (st : Status) (res : List (Nat × Nat)) (k_ : Nat) (h : Outside [(0x43000, 0x431FF), (0x90000, 0x90000), (0x90040, 0x90040), (0xB0000, 0xB01FF)] k_) : rget (Agg.complete g w op st res).regs k_ = rget g.regs k_ := by
  have hm := fun (m : List (Nat × Nat)) (c : coversR [(0x43000, 0x431FF), (0x90000, 0x90000), (0x90040, 0x90040), (0xB0000, 0xB01FF)] m = true) => Outside.mono h c
  have hb0 : Outside [(0x43000, 0x431FF), (0x90000, 0x90000), (0x90040, 0x90040), (0xB0000, 0xB01FF)] k_ := hm _ (by decide)
  unfold Agg.complete
  (repeat' split) <;> simp [hb0]
@[simp] theorem Agg.refuse_rget (g : Agg) (w : Nat × Nat) (op : Nat) (st : Status) (addr : Nat) (k_ : Nat) (h : Outside [(0x43000, 0x431FF), (0x90000, 0x90000), (0x90040, 0x90040), (0xB0000, 0xB01FF)] k_) : rget (Agg.refuse g w op st addr).regs k_ = rget g.regs k_ := by
  have hm := fun (m : List (Nat × Nat)) (c : coversR [(0x43000, 0x431FF), (0x90000, 0x90000), (0x90040, 0x90040), (0xB0000, 0xB01FF)] m = true) => Outside.mono h c
  have hb0 : Outside [(0x43000, 0x431FF), (0xB0000, 0xB01FF)] k_ := hm _ (by decide)
  have hb1 : Outside [(0x90000, 0x90000), (0x90040, 0x90040)] k_ := hm _ (by decide)
  unfold Agg.refuse
  (repeat' split) <;> simp [hb0, hb1]
@[simp] theorem Agg.checked_rget (g : Agg) (c : Caller) (op : Nat) (codes : List Status) (bad : Option Nat) (f : Agg → Agg) (k_ : Nat) (h : Outside [(0x43000, 0x431FF), (0x90000, 0x90000), (0x90040, 0x90040), (0xB0000, 0xB01FF)] k_) (hf : ∀ x, rget (f x).regs k_ = rget x.regs k_) : rget (Agg.checked g c op codes bad f).regs k_ = rget g.regs k_ := by
  have hm := fun (m : List (Nat × Nat)) (c : coversR [(0x43000, 0x431FF), (0x90000, 0x90000), (0x90040, 0x90040), (0xB0000, 0xB01FF)] m = true) => Outside.mono h c
  have hb0 : Outside [(0x43000, 0x431FF), (0x90000, 0x90000), (0x90040, 0x90040), (0xB0000, 0xB01FF)] k_ := hm _ (by decide)
  have hb1 : Outside [(0x43000, 0x431FF), (0xB0000, 0xB01FF)] k_ := hm _ (by decide)
  unfold Agg.checked
  (repeat' split) <;> simp [hb0, hb1, hf]
@[simp] theorem Agg.command_rget (g : Agg) (c : Caller) (op : Nat) (codes : List Status) (bad : Option Nat) (f : Agg → Agg) (k_ : Nat) (h : Outside [(0x43000, 0x431FF), (0x90000, 0x90000), (0x90040, 0x90040), (0xB0000, 0xB01FF)] k_) (hf : ∀ x, rget (f x).regs k_ = rget x.regs k_) : rget (Agg.command g c op codes bad f).regs k_ = rget g.regs k_ := by
  have hm := fun (m : List (Nat × Nat)) (c : coversR [(0x43000, 0x431FF), (0x90000, 0x90000), (0x90040, 0x90040), (0xB0000, 0xB01FF)] m = true) => Outside.mono h c
  have hb0 : Outside [(0x43000, 0x431FF), (0x90000, 0x90000), (0x90040, 0x90040), (0xB0000, 0xB01FF)] k_ := hm _ (by decide)
  unfold Agg.command
  (repeat' split) <;> simp [hb0, hf]
@[simp] theorem Agg.done_rget (g : Agg) (c : Caller) (op : Nat) (res : List (Nat × Nat)) (k_ : Nat) (h : Outside [(0x43000, 0x431FF), (0x90000, 0x90000), (0x90040, 0x90040), (0xB0000, 0xB01FF)] k_) : rget (Agg.done g c op res).regs k_ = rget g.regs k_ := by
  have hm := fun (m : List (Nat × Nat)) (c : coversR [(0x43000, 0x431FF), (0x90000, 0x90000), (0x90040, 0x90040), (0xB0000, 0xB01FF)] m = true) => Outside.mono h c
  have hb0 : Outside [(0x43000, 0x431FF), (0x90000, 0x90000), (0x90040, 0x90040), (0xB0000, 0xB01FF)] k_ := hm _ (by decide)
  unfold Agg.done
  (repeat' split) <;> simp [hb0]
@[simp] theorem Agg.codecRun_rget (g : Agg) (c : Caller) (encode : Bool) (flush : Bool) (slot : Nat) (src : Nat) (len : Nat) (kind : Nat) (dst : Nat) (k_ : Nat) (h : Outside [(0x43000, 0x431FF), (0x90000, 0x90000), (0x90040, 0x90040), (0xB0000, 0xB01FF)] k_) : rget (Agg.codecRun g c encode flush slot src len kind dst).regs k_ = rget g.regs k_ := by
  have hm := fun (m : List (Nat × Nat)) (c : coversR [(0x43000, 0x431FF), (0x90000, 0x90000), (0x90040, 0x90040), (0xB0000, 0xB01FF)] m = true) => Outside.mono h c
  have hb0 : Outside [(0x43000, 0x431FF), (0x90000, 0x90000), (0x90040, 0x90040), (0xB0000, 0xB01FF)] k_ := hm _ (by decide)
  unfold Agg.codecRun
  (repeat' split) <;> simp [hb0]
@[simp] theorem Agg.codecSave_rget (g : Agg) (c : Caller) (slot : Nat) (dst : Nat) (release : Bool) (k_ : Nat) (h : Outside [(0x43000, 0x431FF), (0x90000, 0x90000), (0x90040, 0x90040), (0xB0000, 0xB01FF)] k_) : rget (Agg.codecSave g c slot dst release).regs k_ = rget g.regs k_ := by
  have hm := fun (m : List (Nat × Nat)) (c : coversR [(0x43000, 0x431FF), (0x90000, 0x90000), (0x90040, 0x90040), (0xB0000, 0xB01FF)] m = true) => Outside.mono h c
  have hb0 : Outside [(0x43000, 0x431FF), (0x90000, 0x90000), (0x90040, 0x90040), (0xB0000, 0xB01FF)] k_ := hm _ (by decide)
  unfold Agg.codecSave
  (repeat' split) <;> simp [hb0]
@[simp] theorem Agg.codecRestore_rget (g : Agg) (c : Caller) (slot : Nat) (src : Nat) (k_ : Nat) (h : Outside [(0x43000, 0x431FF), (0x90000, 0x90000), (0x90040, 0x90040), (0xB0000, 0xB01FF)] k_) : rget (Agg.codecRestore g c slot src).regs k_ = rget g.regs k_ := by
  have hm := fun (m : List (Nat × Nat)) (c : coversR [(0x43000, 0x431FF), (0x90000, 0x90000), (0x90040, 0x90040), (0xB0000, 0xB01FF)] m = true) => Outside.mono h c
  have hb0 : Outside [(0x43000, 0x431FF), (0x90000, 0x90000), (0x90040, 0x90040), (0xB0000, 0xB01FF)] k_ := hm _ (by decide)
  unfold Agg.codecRestore
  (repeat' split) <;> simp [hb0]
@[simp] theorem Agg.cvuDone_rget (g : Agg) (c : Caller) (k : Nat) (k_ : Nat) (h : Outside [(0x43000, 0x431FF), (0x90000, 0x90000), (0x90040, 0x90040), (0xB0000, 0xB01FF)] k_) : rget (Agg.cvuDone g c k).regs k_ = rget g.regs k_ := by
  have hm := fun (m : List (Nat × Nat)) (c : coversR [(0x43000, 0x431FF), (0x90000, 0x90000), (0x90040, 0x90040), (0xB0000, 0xB01FF)] m = true) => Outside.mono h c
  have hb0 : Outside [(0x43000, 0x431FF), (0x90000, 0x90000), (0x90040, 0x90040), (0xB0000, 0xB01FF)] k_ := hm _ (by decide)
  unfold Agg.cvuDone
  (repeat' split) <;> simp [hb0]
@[simp] theorem Agg.cvuConfigure_rget (g : Agg) (c : Caller) (k : Nat) (width : Nat) (poly : Nat) (init : Nat) (refIn : Bool) (refOut : Bool) (xorOut : Nat) (k_ : Nat) (h : Outside [(0x43000, 0x431FF), (0x90000, 0x90000), (0x90040, 0x90040), (0xB0000, 0xB01FF)] k_) : rget (Agg.cvuConfigure g c k width poly init refIn refOut xorOut).regs k_ = rget g.regs k_ := by
  have hm := fun (m : List (Nat × Nat)) (c : coversR [(0x43000, 0x431FF), (0x90000, 0x90000), (0x90040, 0x90040), (0xB0000, 0xB01FF)] m = true) => Outside.mono h c
  have hb0 : Outside [(0x43000, 0x431FF), (0x90000, 0x90000), (0x90040, 0x90040), (0xB0000, 0xB01FF)] k_ := hm _ (by decide)
  unfold Agg.cvuConfigure
  (repeat' split) <;> simp [hb0]
@[simp] theorem Agg.cvuScan_rget (g : Agg) (c : Caller) (k : Nat) (a : Nat) (n : Nat) (cont : Bool) (k_ : Nat) (h : Outside [(0x43000, 0x431FF), (0x90000, 0x90000), (0x90040, 0x90040), (0xB0000, 0xB01FF)] k_) : rget (Agg.cvuScan g c k a n cont).regs k_ = rget g.regs k_ := by
  have hm := fun (m : List (Nat × Nat)) (c : coversR [(0x43000, 0x431FF), (0x90000, 0x90000), (0x90040, 0x90040), (0xB0000, 0xB01FF)] m = true) => Outside.mono h c
  have hb0 : Outside [(0x43000, 0x431FF), (0x90000, 0x90000), (0x90040, 0x90040), (0xB0000, 0xB01FF)] k_ := hm _ (by decide)
  unfold Agg.cvuScan
  (try dsimp only)
  (repeat' split) <;> (first | (simp [hb0]; done) | (rw [Agg.command_rget _ _ _ _ _ _ _ (by simp [hb0])]; (repeat' intro _); (try dsimp only); (repeat' split) <;> (simp [hb0]; done)))
@[simp] theorem Agg.cvuRead_rget (g : Agg) (c : Caller) (k : Nat) (k_ : Nat) (h : Outside [(0x43000, 0x431FF), (0x90000, 0x90000), (0x90040, 0x90040), (0xB0000, 0xB01FF)] k_) : rget (Agg.cvuRead g c k).regs k_ = rget g.regs k_ := by
  have hm := fun (m : List (Nat × Nat)) (c : coversR [(0x43000, 0x431FF), (0x90000, 0x90000), (0x90040, 0x90040), (0xB0000, 0xB01FF)] m = true) => Outside.mono h c
  have hb0 : Outside [(0x43000, 0x431FF), (0x90000, 0x90000), (0x90040, 0x90040), (0xB0000, 0xB01FF)] k_ := hm _ (by decide)
  unfold Agg.cvuRead
  (repeat' split) <;> simp [hb0]
@[simp] theorem Agg.cvuWrite_rget (g : Agg) (c : Caller) (k : Nat) (v : Nat) (k_ : Nat) (h : Outside [(0x43000, 0x431FF), (0x90000, 0x90000), (0x90040, 0x90040), (0xB0000, 0xB01FF)] k_) : rget (Agg.cvuWrite g c k v).regs k_ = rget g.regs k_ := by
  have hm := fun (m : List (Nat × Nat)) (c : coversR [(0x43000, 0x431FF), (0x90000, 0x90000), (0x90040, 0x90040), (0xB0000, 0xB01FF)] m = true) => Outside.mono h c
  have hb0 : Outside [(0x43000, 0x431FF), (0x90000, 0x90000), (0x90040, 0x90040), (0xB0000, 0xB01FF)] k_ := hm _ (by decide)
  unfold Agg.cvuWrite
  (repeat' split) <;> simp [hb0]
@[simp] theorem Agg.enterHoldover_rget (g : Agg) (k_ : Nat) (h : Outside [(0x1000, 0x1000), (0x1048, 0x1048)] k_) : rget (Agg.enterHoldover g).regs k_ = rget g.regs k_ := by
  have hm := fun (m : List (Nat × Nat)) (c : coversR [(0x1000, 0x1000), (0x1048, 0x1048)] m = true) => Outside.mono h c
  have hb0 : Outside [(0x1000, 0x1000)] k_ := hm _ (by decide)
  have hb1 : Outside [(0x1048, 0x1048)] k_ := hm _ (by decide)
  unfold Agg.enterHoldover
  (repeat' split) <;> simp [hb0, hb1]
@[simp] theorem Agg.loseReference_rget (g : Agg) (k_ : Nat) (h : Outside [(0x1000, 0x1000), (0x1048, 0x1048)] k_) : rget (Agg.loseReference g).regs k_ = rget g.regs k_ := by
  have hm := fun (m : List (Nat × Nat)) (c : coversR [(0x1000, 0x1000), (0x1048, 0x1048)] m = true) => Outside.mono h c
  have hb0 : Outside [(0x1000, 0x1000), (0x1048, 0x1048)] k_ := hm _ (by decide)
  unfold Agg.loseReference
  (repeat' split) <;> simp [hb0]
@[simp] theorem Agg.todMessage_rget (g : Agg) (m : List Byte) (k_ : Nat) (h : Outside [(0x1000, 0x1000), (0x1044, 0x1044)] k_) : rget (Agg.todMessage g m).regs k_ = rget g.regs k_ := by
  have hm := fun (m : List (Nat × Nat)) (c : coversR [(0x1000, 0x1000), (0x1044, 0x1044)] m = true) => Outside.mono h c
  have hb0 : Outside [(0x1000, 0x1000)] k_ := hm _ (by decide)
  have hb1 : Outside [(0x1044, 0x1044)] k_ := hm _ (by decide)
  unfold Agg.todMessage
  (repeat' split) <;> simp [hb0, hb1]
@[simp] theorem Agg.judgeTod_rget (g : Agg) (k_ : Nat) (h : Outside [(0x1000, 0x1000), (0x1044, 0x1044)] k_) : rget (Agg.judgeTod g).2.regs k_ = rget g.regs k_ := by
  have hm := fun (m : List (Nat × Nat)) (c : coversR [(0x1000, 0x1000), (0x1044, 0x1044)] m = true) => Outside.mono h c
  have hb0 : Outside [(0x1000, 0x1000)] k_ := hm _ (by decide)
  have hb1 : Outside [(0x1044, 0x1044)] k_ := hm _ (by decide)
  unfold Agg.judgeTod
  (repeat' split) <;> simp [hb0, hb1]
@[simp] theorem Agg.holdoverEdge_rget (g : Agg) (off : Int) (k_ : Nat) (h : Outside [(0x1000, 0x1000), (0x1040, 0x1040)] k_) : rget (Agg.holdoverEdge g off).regs k_ = rget g.regs k_ := by
  have hm := fun (m : List (Nat × Nat)) (c : coversR [(0x1000, 0x1000), (0x1040, 0x1040)] m = true) => Outside.mono h c
  have hb0 : Outside [(0x1000, 0x1000)] k_ := hm _ (by decide)
  have hb1 : Outside [(0x1040, 0x1040)] k_ := hm _ (by decide)
  unfold Agg.holdoverEdge
  (repeat' split) <;> simp [hb0, hb1]
@[simp] theorem Agg.edgePhase_rget (g : Agg) (named : Option Nat) (k_ : Nat) (h : Outside [(0x1000, 0x1000), (0x1040, 0x1040)] k_) : rget (Agg.edgePhase g named).regs k_ = rget g.regs k_ := by
  have hm := fun (m : List (Nat × Nat)) (c : coversR [(0x1000, 0x1000), (0x1040, 0x1040)] m = true) => Outside.mono h c
  have hb0 : Outside [(0x1000, 0x1000), (0x1040, 0x1040)] k_ := hm _ (by decide)
  unfold Agg.edgePhase
  (repeat' split) <;> simp [hb0]
@[simp] theorem Agg.ppsEdge_rget (g : Agg) (k_ : Nat) (h : Outside [(0x1000, 0x1000), (0x1040, 0x1044)] k_) : rget (Agg.ppsEdge g).regs k_ = rget g.regs k_ := by
  have hm := fun (m : List (Nat × Nat)) (c : coversR [(0x1000, 0x1000), (0x1040, 0x1044)] m = true) => Outside.mono h c
  have hb0 : Outside [(0x1000, 0x1000)] k_ := hm _ (by decide)
  have hb1 : Outside [(0x1000, 0x1000), (0x1040, 0x1040)] k_ := hm _ (by decide)
  have hb2 : Outside [(0x1000, 0x1000), (0x1044, 0x1044)] k_ := hm _ (by decide)
  have hb3 : Outside [(0x1040, 0x1040)] k_ := hm _ (by decide)
  have hb4 : Outside [(0x1044, 0x1044)] k_ := hm _ (by decide)
  unfold Agg.ppsEdge
  (try dsimp only)
  (repeat' split) <;> simp [hb0, hb1, hb2, hb3, hb4]
@[simp] theorem Agg.ppsLoss_rget (g : Agg) (k_ : Nat) (h : Outside [(0x1000, 0x1000), (0x1048, 0x1048)] k_) : rget (Agg.ppsLoss g).regs k_ = rget g.regs k_ := by
  have hm := fun (m : List (Nat × Nat)) (c : coversR [(0x1000, 0x1000), (0x1048, 0x1048)] m = true) => Outside.mono h c
  have hb0 : Outside [(0x1000, 0x1000), (0x1048, 0x1048)] k_ := hm _ (by decide)
  unfold Agg.ppsLoss
  (repeat' split) <;> simp [hb0]
@[simp] theorem Agg.refLoss_rget (g : Agg) (k_ : Nat) (h : Outside [(0x1000, 0x1000), (0x1048, 0x1048)] k_) : rget (Agg.refLoss g).regs k_ = rget g.regs k_ := by
  have hm := fun (m : List (Nat × Nat)) (c : coversR [(0x1000, 0x1000), (0x1048, 0x1048)] m = true) => Outside.mono h c
  have hb0 : Outside [(0x1000, 0x1000), (0x1048, 0x1048)] k_ := hm _ (by decide)
  unfold Agg.refLoss
  (repeat' split) <;> simp [hb0]
@[simp] theorem Agg.inputsReturn_rget (g : Agg) (pps : Bool) (ref : Bool) (k_ : Nat) (h : Outside [(0x1000, 0x1000), (0x1040, 0x1044)] k_) : rget (Agg.inputsReturn g pps ref).regs k_ = rget g.regs k_ := by
  have hm := fun (m : List (Nat × Nat)) (c : coversR [(0x1000, 0x1000), (0x1040, 0x1044)] m = true) => Outside.mono h c
  have hb0 : Outside [(0x1000, 0x1000), (0x1040, 0x1044)] k_ := hm _ (by decide)
  unfold Agg.inputsReturn
  (repeat' split) <;> simp [hb0]
@[simp] theorem Agg.exchangeFail_rget (g : Agg) (alt : Bool) (k_ : Nat) (h : Outside [(0x1000, 0x1000), (0x1048, 0x104C)] k_) : rget (Agg.exchangeFail g alt).regs k_ = rget g.regs k_ := by
  have hm := fun (m : List (Nat × Nat)) (c : coversR [(0x1000, 0x1000), (0x1048, 0x104C)] m = true) => Outside.mono h c
  have hb0 : Outside [(0x1000, 0x1000)] k_ := hm _ (by decide)
  have hb1 : Outside [(0x1000, 0x1000), (0x1048, 0x1048)] k_ := hm _ (by decide)
  have hb2 : Outside [(0x104C, 0x104C)] k_ := hm _ (by decide)
  unfold Agg.exchangeFail
  (repeat' split) <;> simp [hb0, hb1, hb2]
@[simp] theorem Agg.exchangeStart_rget (g : Agg) (alt : Bool) (k_ : Nat) (h : Outside [(0x1000, 0x1000), (0x1048, 0x104C)] k_) : rget (Agg.exchangeStart g alt).regs k_ = rget g.regs k_ := by
  have hm := fun (m : List (Nat × Nat)) (c : coversR [(0x1000, 0x1000), (0x1048, 0x104C)] m = true) => Outside.mono h c
  have hb0 : Outside [(0x1000, 0x1000), (0x1048, 0x104C)] k_ := hm _ (by decide)
  unfold Agg.exchangeStart
  (repeat' split) <;> simp [hb0]
@[simp] theorem Agg.learnSched_rget (g : Agg) (s : Sched) (p : Option (Nat × Nat)) (k_ : Nat) (h : Outside [(0x1000, 0x1000), (0x1054, 0x1054)] k_) : rget (Agg.learnSched g s p).regs k_ = rget g.regs k_ := by
  have hm := fun (m : List (Nat × Nat)) (c : coversR [(0x1000, 0x1000), (0x1054, 0x1054)] m = true) => Outside.mono h c
  have hb0 : Outside [(0x1000, 0x1000)] k_ := hm _ (by decide)
  have hb1 : Outside [(0x1054, 0x1054)] k_ := hm _ (by decide)
  unfold Agg.learnSched
  (repeat' split) <;> simp [hb0, hb1]
@[simp] theorem Agg.preferOther_rget (g : Agg) (k_ : Nat) (h : Outside [(0x1000, 0x1000), (0x104C, 0x104C)] k_) : rget (Agg.preferOther g).regs k_ = rget g.regs k_ := by
  have hm := fun (m : List (Nat × Nat)) (c : coversR [(0x1000, 0x1000), (0x104C, 0x104C)] m = true) => Outside.mono h c
  have hb0 : Outside [(0x1000, 0x1000)] k_ := hm _ (by decide)
  have hb1 : Outside [(0x104C, 0x104C)] k_ := hm _ (by decide)
  unfold Agg.preferOther
  (repeat' split) <;> simp [hb0, hb1]
@[simp] theorem Agg.exchangeReply_rget (g : Agg) (k : Nat) (m : List Byte) (k_ : Nat) (h : Outside [(0x1000, 0x1000), (0x1048, 0x104C), (0x1054, 0x1054)] k_) : rget (Agg.exchangeReply g k m).regs k_ = rget g.regs k_ := by
  have hm := fun (m : List (Nat × Nat)) (c : coversR [(0x1000, 0x1000), (0x1048, 0x104C), (0x1054, 0x1054)] m = true) => Outside.mono h c
  have hb0 : Outside [(0x1000, 0x1000), (0x1048, 0x104C)] k_ := hm _ (by decide)
  have hb1 : Outside [(0x1000, 0x1000), (0x104C, 0x104C)] k_ := hm _ (by decide)
  have hb2 : Outside [(0x1000, 0x1000), (0x1054, 0x1054)] k_ := hm _ (by decide)
  unfold Agg.exchangeReply
  (try dsimp only)
  (repeat' split) <;> simp [hb0, hb1, hb2]
@[simp] theorem Agg.partnerHt_rget (g : Agg) (theirs : Nat) (k_ : Nat) (h : Outside [(0x1000, 0x1000), (0x1050, 0x1050)] k_) : rget (Agg.partnerHt g theirs).regs k_ = rget g.regs k_ := by
  have hm := fun (m : List (Nat × Nat)) (c : coversR [(0x1000, 0x1000), (0x1050, 0x1050)] m = true) => Outside.mono h c
  have hb0 : Outside [(0x1000, 0x1000)] k_ := hm _ (by decide)
  have hb1 : Outside [(0x1050, 0x1050)] k_ := hm _ (by decide)
  unfold Agg.partnerHt
  (repeat' split) <;> simp [hb0, hb1]
@[simp] theorem Agg.selectSource_rget (g : Agg) (c : Caller) (source : Nat) (force : Bool) (k_ : Nat) (h : Outside [(0x1000, 0x1000), (0x1048, 0x1048), (0x43000, 0x431FF), (0x90000, 0x90000), (0x90040, 0x90040), (0xB0000, 0xB01FF)] k_) : rget (Agg.selectSource g c source force).regs k_ = rget g.regs k_ := by
  have hm := fun (m : List (Nat × Nat)) (c : coversR [(0x1000, 0x1000), (0x1048, 0x1048), (0x43000, 0x431FF), (0x90000, 0x90000), (0x90040, 0x90040), (0xB0000, 0xB01FF)] m = true) => Outside.mono h c
  have hb0 : Outside [(0x1000, 0x1000)] k_ := hm _ (by decide)
  have hb1 : Outside [(0x1048, 0x1048)] k_ := hm _ (by decide)
  have hb2 : Outside [(0x43000, 0x431FF), (0x90000, 0x90000), (0x90040, 0x90040), (0xB0000, 0xB01FF)] k_ := hm _ (by decide)
  unfold Agg.selectSource
  (repeat' split) <;> simp [hb0, hb1, hb2]
@[simp] theorem Agg.scheduleInit_rget (g : Agg) (c : Caller) (epoch : Nat) (period : Nat) (k_ : Nat) (h : Outside [(0x43000, 0x431FF), (0x90000, 0x90000), (0x90040, 0x90040), (0xB0000, 0xB01FF)] k_) : rget (Agg.scheduleInit g c epoch period).regs k_ = rget g.regs k_ := by
  have hm := fun (m : List (Nat × Nat)) (c : coversR [(0x43000, 0x431FF), (0x90000, 0x90000), (0x90040, 0x90040), (0xB0000, 0xB01FF)] m = true) => Outside.mono h c
  have hb0 : Outside [(0x43000, 0x431FF), (0x90000, 0x90000), (0x90040, 0x90040), (0xB0000, 0xB01FF)] k_ := hm _ (by decide)
  unfold Agg.scheduleInit
  (repeat' split) <;> simp [hb0]
@[simp] theorem Agg.scheduleChange_rget (g : Agg) (c : Caller) (win : Nat) (period : Nat) (k_ : Nat) (h : Outside [(0x43000, 0x431FF), (0x90000, 0x90000), (0x90040, 0x90040), (0xB0000, 0xB01FF)] k_) : rget (Agg.scheduleChange g c win period).regs k_ = rget g.regs k_ := by
  have hm := fun (m : List (Nat × Nat)) (c : coversR [(0x43000, 0x431FF), (0x90000, 0x90000), (0x90040, 0x90040), (0xB0000, 0xB01FF)] m = true) => Outside.mono h c
  have hb0 : Outside [(0x43000, 0x431FF), (0x90000, 0x90000), (0x90040, 0x90040), (0xB0000, 0xB01FF)] k_ := hm _ (by decide)
  unfold Agg.scheduleChange
  (repeat' split) <;> simp [hb0]
@[simp] theorem Agg.linkAsym_rget (g : Agg) (c : Caller) (k : Nat) (ps : Int) (k_ : Nat) (h : Outside [(0x43000, 0x431FF), (0x90000, 0x90000), (0x90040, 0x90040), (0xB0000, 0xB01FF)] k_) : rget (Agg.linkAsym g c k ps).regs k_ = rget g.regs k_ := by
  have hm := fun (m : List (Nat × Nat)) (c : coversR [(0x43000, 0x431FF), (0x90000, 0x90000), (0x90040, 0x90040), (0xB0000, 0xB01FF)] m = true) => Outside.mono h c
  have hb0 : Outside [(0x43000, 0x431FF), (0x90000, 0x90000), (0x90040, 0x90040), (0xB0000, 0xB01FF)] k_ := hm _ (by decide)
  unfold Agg.linkAsym
  (repeat' split) <;> simp [hb0]
@[simp] theorem Agg.dieportAsym_rget (g : Agg) (c : Caller) (p : Nat) (ps : Int) (k_ : Nat) (h : Outside [(0x43000, 0x431FF), (0x90000, 0x90000), (0x90040, 0x90040), (0xB0000, 0xB01FF)] k_) : rget (Agg.dieportAsym g c p ps).regs k_ = rget g.regs k_ := by
  have hm := fun (m : List (Nat × Nat)) (c : coversR [(0x43000, 0x431FF), (0x90000, 0x90000), (0x90040, 0x90040), (0xB0000, 0xB01FF)] m = true) => Outside.mono h c
  have hb0 : Outside [(0x43000, 0x431FF), (0x90000, 0x90000), (0x90040, 0x90040), (0xB0000, 0xB01FF)] k_ := hm _ (by decide)
  unfold Agg.dieportAsym
  (repeat' split) <;> simp [hb0]
@[simp] theorem Agg.atuWrite_rget (g : Agg) (c : Caller) (p : Nat) (off : Nat) (v : Nat) (k_ : Nat) (h : Outside [(0x43000, 0x431FF), (0x90000, 0x90000), (0x90040, 0x90040), (0xB0000, 0xB01FF)] k_) : rget (Agg.atuWrite g c p off v).regs k_ = rget g.regs k_ := by
  have hm := fun (m : List (Nat × Nat)) (c : coversR [(0x43000, 0x431FF), (0x90000, 0x90000), (0x90040, 0x90040), (0xB0000, 0xB01FF)] m = true) => Outside.mono h c
  have hb0 : Outside [(0x43000, 0x431FF), (0x90000, 0x90000), (0x90040, 0x90040), (0xB0000, 0xB01FF)] k_ := hm _ (by decide)
  unfold Agg.atuWrite
  (repeat' split) <;> simp [hb0]
@[simp] theorem Agg.atuRead_rget (g : Agg) (c : Caller) (p : Nat) (off : Nat) (count : Nat) (k_ : Nat) (h : Outside [(0x43000, 0x431FF), (0x90000, 0x90000), (0x90040, 0x90040), (0xB0000, 0xB01FF)] k_) : rget (Agg.atuRead g c p off count).regs k_ = rget g.regs k_ := by
  have hm := fun (m : List (Nat × Nat)) (c : coversR [(0x43000, 0x431FF), (0x90000, 0x90000), (0x90040, 0x90040), (0xB0000, 0xB01FF)] m = true) => Outside.mono h c
  have hb0 : Outside [(0x43000, 0x431FF), (0x90000, 0x90000), (0x90040, 0x90040), (0xB0000, 0xB01FF)] k_ := hm _ (by decide)
  unfold Agg.atuRead
  (repeat' split) <;> simp [hb0]
@[simp] theorem Agg.getTimeStatus_rget (g : Agg) (c : Caller) (target : Nat) (k_ : Nat) (h : Outside [(0x43000, 0x431FF), (0x90000, 0x90000), (0x90040, 0x90040), (0xB0000, 0xB01FF)] k_) : rget (Agg.getTimeStatus g c target).regs k_ = rget g.regs k_ := by
  have hm := fun (m : List (Nat × Nat)) (c : coversR [(0x43000, 0x431FF), (0x90000, 0x90000), (0x90040, 0x90040), (0xB0000, 0xB01FF)] m = true) => Outside.mono h c
  have hb0 : Outside [(0x43000, 0x431FF), (0x90000, 0x90000), (0x90040, 0x90040), (0xB0000, 0xB01FF)] k_ := hm _ (by decide)
  unfold Agg.getTimeStatus
  (repeat' split) <;> simp [hb0]
@[simp] theorem Agg.traceCtlStart_rget (g : Agg) (c : Caller) (p : Nat) (k_ : Nat) (h : Outside [(0x43000, 0x431FF), (0x90000, 0x90000), (0x90040, 0x90040), (0xB0000, 0xB01FF)] k_) : rget (Agg.traceCtlStart g c p).regs k_ = rget g.regs k_ := by
  have hm := fun (m : List (Nat × Nat)) (c : coversR [(0x43000, 0x431FF), (0x90000, 0x90000), (0x90040, 0x90040), (0xB0000, 0xB01FF)] m = true) => Outside.mono h c
  have hb0 : Outside [(0x43000, 0x431FF), (0x90000, 0x90000), (0x90040, 0x90040), (0xB0000, 0xB01FF)] k_ := hm _ (by decide)
  unfold Agg.traceCtlStart
  (repeat' split) <;> simp [hb0]
@[simp] theorem Agg.traceCtlStop_rget (g : Agg) (c : Caller) (p : Nat) (k_ : Nat) (h : Outside [(0x43000, 0x431FF), (0x90000, 0x90000), (0x90040, 0x90040), (0xB0000, 0xB01FF)] k_) : rget (Agg.traceCtlStop g c p).regs k_ = rget g.regs k_ := by
  have hm := fun (m : List (Nat × Nat)) (c : coversR [(0x43000, 0x431FF), (0x90000, 0x90000), (0x90040, 0x90040), (0xB0000, 0xB01FF)] m = true) => Outside.mono h c
  have hb0 : Outside [(0x43000, 0x431FF), (0x90000, 0x90000), (0x90040, 0x90040), (0xB0000, 0xB01FF)] k_ := hm _ (by decide)
  unfold Agg.traceCtlStop
  (repeat' split) <;> simp [hb0]
@[simp] theorem Agg.traceCtlAuth_rget (g : Agg) (c : Caller) (p : Nat) (token : Nat) (expiry : Nat) (k_ : Nat) (h : Outside [(0x43000, 0x431FF), (0x90000, 0x90000), (0x90040, 0x90040), (0xB0000, 0xB01FF)] k_) : rget (Agg.traceCtlAuth g c p token expiry).regs k_ = rget g.regs k_ := by
  have hm := fun (m : List (Nat × Nat)) (c : coversR [(0x43000, 0x431FF), (0x90000, 0x90000), (0x90040, 0x90040), (0xB0000, 0xB01FF)] m = true) => Outside.mono h c
  have hb0 : Outside [(0x43000, 0x431FF), (0x90000, 0x90000), (0x90040, 0x90040), (0xB0000, 0xB01FF)] k_ := hm _ (by decide)
  unfold Agg.traceCtlAuth
  (repeat' split) <;> simp [hb0]
@[simp] theorem Agg.traceCtlStatus_rget (g : Agg) (c : Caller) (p : Nat) (k_ : Nat) (h : Outside [(0x43000, 0x431FF), (0x90000, 0x90000), (0x90040, 0x90040), (0xB0000, 0xB01FF)] k_) : rget (Agg.traceCtlStatus g c p).regs k_ = rget g.regs k_ := by
  have hm := fun (m : List (Nat × Nat)) (c : coversR [(0x43000, 0x431FF), (0x90000, 0x90000), (0x90040, 0x90040), (0xB0000, 0xB01FF)] m = true) => Outside.mono h c
  have hb0 : Outside [(0x43000, 0x431FF), (0x90000, 0x90000), (0x90040, 0x90040), (0xB0000, 0xB01FF)] k_ := hm _ (by decide)
  unfold Agg.traceCtlStatus
  (repeat' split) <;> simp [hb0]
@[simp] theorem Agg.sandPlan_rget (g : Agg) (c : Caller) (p : Nat) (codes : List Status) (bad : Bool) (mask : Nat) (ws : List (Nat × Nat)) (k_ : Nat) (h : Outside [(0x43000, 0x431FF), (0x90000, 0x90000), (0x90040, 0x90040), (0xB0000, 0xB01FF)] k_) : rget (Agg.sandPlan g c p codes bad mask ws).regs k_ = rget g.regs k_ := by
  have hm := fun (m : List (Nat × Nat)) (c : coversR [(0x43000, 0x431FF), (0x90000, 0x90000), (0x90040, 0x90040), (0xB0000, 0xB01FF)] m = true) => Outside.mono h c
  have hb0 : Outside [(0x43000, 0x431FF), (0x90000, 0x90000), (0x90040, 0x90040), (0xB0000, 0xB01FF)] k_ := hm _ (by decide)
  unfold Agg.sandPlan
  (repeat' split) <;> simp [hb0]
@[simp] theorem Agg.sandSet_rget (g : Agg) (c : Caller) (p : Nat) (mask : Nat) (interval : Nat) (soft : Nat) (hard : Nat) (k_ : Nat) (h : Outside [(0x43000, 0x431FF), (0x90000, 0x90000), (0x90040, 0x90040), (0xB0000, 0xB01FF)] k_) : rget (Agg.sandSet g c p mask interval soft hard).regs k_ = rget g.regs k_ := by
  have hm := fun (m : List (Nat × Nat)) (c : coversR [(0x43000, 0x431FF), (0x90000, 0x90000), (0x90040, 0x90040), (0xB0000, 0xB01FF)] m = true) => Outside.mono h c
  have hb0 : Outside [(0x43000, 0x431FF), (0x90000, 0x90000), (0x90040, 0x90040), (0xB0000, 0xB01FF)] k_ := hm _ (by decide)
  unfold Agg.sandSet
  (repeat' split) <;> simp [hb0]
@[simp] theorem Agg.sandRunNow_rget (g : Agg) (c : Caller) (p : Nat) (mask : Nat) (k_ : Nat) (h : Outside [(0x43000, 0x431FF), (0x90000, 0x90000), (0x90040, 0x90040), (0xB0000, 0xB01FF)] k_) : rget (Agg.sandRunNow g c p mask).regs k_ = rget g.regs k_ := by
  have hm := fun (m : List (Nat × Nat)) (c : coversR [(0x43000, 0x431FF), (0x90000, 0x90000), (0x90040, 0x90040), (0xB0000, 0xB01FF)] m = true) => Outside.mono h c
  have hb0 : Outside [(0x43000, 0x431FF), (0x90000, 0x90000), (0x90040, 0x90040), (0xB0000, 0xB01FF)] k_ := hm _ (by decide)
  unfold Agg.sandRunNow
  (repeat' split) <;> simp [hb0]
@[simp] theorem Agg.sandClear_rget (g : Agg) (c : Caller) (p : Nat) (mask : Nat) (k_ : Nat) (h : Outside [(0x43000, 0x431FF), (0x90000, 0x90000), (0x90040, 0x90040), (0xB0000, 0xB01FF)] k_) : rget (Agg.sandClear g c p mask).regs k_ = rget g.regs k_ := by
  have hm := fun (m : List (Nat × Nat)) (c : coversR [(0x43000, 0x431FF), (0x90000, 0x90000), (0x90040, 0x90040), (0xB0000, 0xB01FF)] m = true) => Outside.mono h c
  have hb0 : Outside [(0x43000, 0x431FF), (0x90000, 0x90000), (0x90040, 0x90040), (0xB0000, 0xB01FF)] k_ := hm _ (by decide)
  unfold Agg.sandClear
  (repeat' split) <;> simp [hb0]
@[simp] theorem Agg.sandStatus_rget (g : Agg) (c : Caller) (p : Nat) (k_ : Nat) (h : Outside [(0x43000, 0x431FF), (0x90000, 0x90000), (0x90040, 0x90040), (0xB0000, 0xB01FF)] k_) : rget (Agg.sandStatus g c p).regs k_ = rget g.regs k_ := by
  have hm := fun (m : List (Nat × Nat)) (c : coversR [(0x43000, 0x431FF), (0x90000, 0x90000), (0x90040, 0x90040), (0xB0000, 0xB01FF)] m = true) => Outside.mono h c
  have hb0 : Outside [(0x43000, 0x431FF), (0x90000, 0x90000), (0x90040, 0x90040), (0xB0000, 0xB01FF)] k_ := hm _ (by decide)
  unfold Agg.sandStatus
  (repeat' split) <;> simp [hb0]
@[simp] theorem Agg.atuReset_rget (g : Agg) (c : Caller) (p : Nat) (kind : Bool) (k_ : Nat) (h : Outside [(0x20000, 0x23FFF), (0x43000, 0x431FF), (0x90000, 0x90000), (0x90040, 0x90040), (0xB0000, 0xB01FF)] k_) : rget (Agg.atuReset g c p kind).regs k_ = rget g.regs k_ := by
  have hm := fun (m : List (Nat × Nat)) (c : coversR [(0x20000, 0x23FFF), (0x43000, 0x431FF), (0x90000, 0x90000), (0x90040, 0x90040), (0xB0000, 0xB01FF)] m = true) => Outside.mono h c
  have hb0 : Outside [(0x20000, 0x23FFF)] k_ := hm _ (by decide)
  have hb1 : Outside [(0x43000, 0x431FF), (0x90000, 0x90000), (0x90040, 0x90040), (0xB0000, 0xB01FF)] k_ := hm _ (by decide)
  unfold Agg.atuReset
  (try dsimp only)
  (repeat' split) <;> (first | (simp [hb0, hb1, Nat.add_assoc]; done) | (rw [Agg.command_rget _ _ _ _ _ _ _ (by simp [hb0, hb1, Nat.add_assoc])]; (repeat' intro _); (try dsimp only); (repeat' split) <;> (simp [hb0, hb1, Nat.add_assoc]; done)))
@[simp] theorem Agg.resetTimeout_rget (g : Agg) (p : Nat) (k_ : Nat) (h : Outside [(0x43000, 0x431FF), (0x90000, 0x90000), (0x90040, 0x90040), (0xB0000, 0xB01FF)] k_) : rget (Agg.resetTimeout g p).regs k_ = rget g.regs k_ := by
  have hm := fun (m : List (Nat × Nat)) (c : coversR [(0x43000, 0x431FF), (0x90000, 0x90000), (0x90040, 0x90040), (0xB0000, 0xB01FF)] m = true) => Outside.mono h c
  have hb0 : Outside [(0x43000, 0x431FF), (0x90000, 0x90000), (0x90040, 0x90040), (0xB0000, 0xB01FF)] k_ := hm _ (by decide)
  unfold Agg.resetTimeout
  (repeat' split) <;> simp [hb0]
@[simp] theorem Agg.resetAnswer_rget (g : Agg) (p : Nat) (st : Status) (k_ : Nat) (h : Outside [(0x43000, 0x431FF), (0x90000, 0x90000), (0x90040, 0x90040), (0xB0000, 0xB01FF)] k_) : rget (Agg.resetAnswer g p st).regs k_ = rget g.regs k_ := by
  have hm := fun (m : List (Nat × Nat)) (c : coversR [(0x43000, 0x431FF), (0x90000, 0x90000), (0x90040, 0x90040), (0xB0000, 0xB01FF)] m = true) => Outside.mono h c
  have hb0 : Outside [(0x43000, 0x431FF), (0x90000, 0x90000), (0x90040, 0x90040), (0xB0000, 0xB01FF)] k_ := hm _ (by decide)
  unfold Agg.resetAnswer
  (repeat' split) <;> simp [hb0]
@[simp] theorem Agg.evrDone_rget (g : Agg) (j : RegJob) (dst : Nat) (mx : Nat) (pos : Nat) (len : Nat) (k_ : Nat) (h : Outside [(0x43000, 0x431FF), (0x90000, 0x90000), (0x90040, 0x90040), (0xB0000, 0xB01FF)] k_) : rget (Agg.evrDone g j dst mx pos len).regs k_ = rget g.regs k_ := by
  have hm := fun (m : List (Nat × Nat)) (c : coversR [(0x43000, 0x431FF), (0x90000, 0x90000), (0x90040, 0x90040), (0xB0000, 0xB01FF)] m = true) => Outside.mono h c
  have hb0 : Outside [(0x43000, 0x431FF), (0x90000, 0x90000), (0x90040, 0x90040), (0xB0000, 0xB01FF)] k_ := hm _ (by decide)
  unfold Agg.evrDone
  (repeat' split) <;> simp [hb0]
@[simp] theorem Agg.regEnds_rget (g : Agg) (j : RegJob) (st : Status) (res : List (Nat × Nat)) (k_ : Nat) (h : Outside [(0x43000, 0x431FF), (0x90000, 0x90000), (0x90040, 0x90040), (0xB0000, 0xB01FF)] k_) : rget (Agg.regEnds g j st res).regs k_ = rget g.regs k_ := by
  have hm := fun (m : List (Nat × Nat)) (c : coversR [(0x43000, 0x431FF), (0x90000, 0x90000), (0x90040, 0x90040), (0xB0000, 0xB01FF)] m = true) => Outside.mono h c
  have hb0 : Outside [(0x43000, 0x431FF), (0x90000, 0x90000), (0x90040, 0x90040), (0xB0000, 0xB01FF)] k_ := hm _ (by decide)
  unfold Agg.regEnds
  (try dsimp only) <;> (repeat' split) <;> simp [hb0]
@[simp] theorem Agg.regDone_rget (g : Agg) (j : RegJob) (st : Status) (k_ : Nat) (h : Outside [(0x43000, 0x431FF), (0x90000, 0x90000), (0x90040, 0x90040), (0xB0000, 0xB01FF)] k_) : rget (Agg.regDone g j st).regs k_ = rget g.regs k_ := by
  have hm := fun (m : List (Nat × Nat)) (c : coversR [(0x43000, 0x431FF), (0x90000, 0x90000), (0x90040, 0x90040), (0xB0000, 0xB01FF)] m = true) => Outside.mono h c
  have hb0 : Outside [(0x43000, 0x431FF), (0x90000, 0x90000), (0x90040, 0x90040), (0xB0000, 0xB01FF)] k_ := hm _ (by decide)
  unfold Agg.regDone
  (repeat' split) <;> simp [hb0]
@[simp] theorem Agg.frameIn_rget (g : Agg) (p : Nat) (resent : Bool) (f : List Byte) (cfg : Option ChanCfg) (k_ : Nat) (h : Outside [(0x40088, 0x40088), (0x400D4, 0x400D4)] k_) : rget (Agg.frameIn g p resent f cfg).regs k_ = rget g.regs k_ := by
  have hm := fun (m : List (Nat × Nat)) (c : coversR [(0x40088, 0x40088), (0x400D4, 0x400D4)] m = true) => Outside.mono h c
  have hb0 : Outside [(0x40088, 0x40088)] k_ := hm _ (by decide)
  have hb1 : Outside [(0x400D4, 0x400D4)] k_ := hm _ (by decide)
  unfold Agg.frameIn
  (try dsimp only)
  (repeat' split) <;> simp [hb0, hb1]
@[simp] theorem Agg.buildDie_rget (n : Nat) (w : Nat) (g : Agg) (d : JobDie) (k_ : Nat) (h : Outside [(0x70000, 0x70000), (0x7004C, 0x7004C)] k_) : rget (Agg.buildDie n w g d).regs k_ = rget g.regs k_ := by
  have hm := fun (m : List (Nat × Nat)) (c : coversR [(0x70000, 0x70000), (0x7004C, 0x7004C)] m = true) => Outside.mono h c
  have hb0 : Outside [(0x70000, 0x70000)] k_ := hm _ (by decide)
  have hb1 : Outside [(0x7004C, 0x7004C)] k_ := hm _ (by decide)
  unfold Agg.buildDie
  (repeat' split) <;> simp [hb0, hb1]
@[simp] theorem Agg.buildAt_rget (n : Nat) (w : Nat) (g : Agg) (t : Nat) (k_ : Nat) (h : Outside [(0x70000, 0x70000), (0x7004C, 0x7004C)] k_) : rget (Agg.buildAt n w g t).regs k_ = rget g.regs k_ := by
  have hm := fun (m : List (Nat × Nat)) (c : coversR [(0x70000, 0x70000), (0x7004C, 0x7004C)] m = true) => Outside.mono h c
  have hb0 : Outside [(0x70000, 0x70000), (0x7004C, 0x7004C)] k_ := hm _ (by decide)
  unfold Agg.buildAt
  (repeat' split) <;> simp [hb0]
@[simp] theorem Agg.ingestCutoff_rget (g : Agg) (n : Nat) (k_ : Nat) (h : Outside [(0x70000, 0x70000), (0x7004C, 0x7004C)] k_) : rget (Agg.ingestCutoff g n).regs k_ = rget g.regs k_ := by
  have hm := fun (m : List (Nat × Nat)) (c : coversR [(0x70000, 0x70000), (0x7004C, 0x7004C)] m = true) => Outside.mono h c
  have hb0 : Outside [(0x70000, 0x70000), (0x7004C, 0x7004C)] k_ := hm _ (by decide)
  unfold Agg.ingestCutoff
  (repeat' split) <;> simp [hb0]
@[simp] theorem Agg.holdStep_rget (g : Agg) (k_ : Nat) (h : Outside [(0xC0000, 0xC0000), (0xC0044, 0xC0044)] k_) : rget (Agg.holdStep g).regs k_ = rget g.regs k_ := by
  have hm := fun (m : List (Nat × Nat)) (c : coversR [(0xC0000, 0xC0000), (0xC0044, 0xC0044)] m = true) => Outside.mono h c
  have hb0 : Outside [(0xC0000, 0xC0000)] k_ := hm _ (by decide)
  have hb1 : Outside [(0xC0044, 0xC0044)] k_ := hm _ (by decide)
  unfold Agg.holdStep
  (repeat' split) <;> simp [hb0, hb1]
@[simp] theorem Agg.startStep_rget (g : Agg) (k_ : Nat) (h : Outside [(0xC0000, 0xC0000), (0xC0044, 0xC0044)] k_) : rget (Agg.startStep g).regs k_ = rget g.regs k_ := by
  have hm := fun (m : List (Nat × Nat)) (c : coversR [(0xC0000, 0xC0000), (0xC0044, 0xC0044)] m = true) => Outside.mono h c
  have hb0 : Outside [(0xC0000, 0xC0000), (0xC0044, 0xC0044)] k_ := hm _ (by decide)
  unfold Agg.startStep
  (repeat' split) <;> simp [hb0]
@[simp] theorem Agg.stepDone_rget (g : Agg) (k_ : Nat) (h : Outside [(0xC0000, 0xC0000), (0xC0044, 0xC0044)] k_) : rget (Agg.stepDone g).regs k_ = rget g.regs k_ := by
  have hm := fun (m : List (Nat × Nat)) (c : coversR [(0xC0000, 0xC0000), (0xC0044, 0xC0044)] m = true) => Outside.mono h c
  have hb0 : Outside [(0xC0000, 0xC0000), (0xC0044, 0xC0044)] k_ := hm _ (by decide)
  unfold Agg.stepDone
  (repeat' split) <;> simp [hb0]
@[simp] theorem Agg.capEvaluate_rget (g : Agg) (mw : Nat) (k_ : Nat) (h : Outside [(0xC0000, 0xC0000), (0xC0018, 0xC0018), (0xC0044, 0xC0044), (0xC004C, 0xC004C)] k_) : rget (Agg.capEvaluate g mw).regs k_ = rget g.regs k_ := by
  have hm := fun (m : List (Nat × Nat)) (c : coversR [(0xC0000, 0xC0000), (0xC0018, 0xC0018), (0xC0044, 0xC0044), (0xC004C, 0xC004C)] m = true) => Outside.mono h c
  have hb0 : Outside [(0xC0000, 0xC0000)] k_ := hm _ (by decide)
  have hb1 : Outside [(0xC0000, 0xC0000), (0xC0044, 0xC0044)] k_ := hm _ (by decide)
  have hb2 : Outside [(0xC0018, 0xC0018)] k_ := hm _ (by decide)
  have hb3 : Outside [(0xC004C, 0xC004C)] k_ := hm _ (by decide)
  unfold Agg.capEvaluate
  (try dsimp only)
  (repeat' split) <;> simp [hb0, hb1, hb2, hb3]
@[simp] theorem Agg.thermalEvaluate_rget (g : Agg) (temps : Vector Int 12) (k_ : Nat) (h : Outside [(0xC0000, 0xC0000), (0xC001C, 0xC001C), (0xC0044, 0xC0044), (0xC0050, 0xC0054)] k_) : rget (Agg.thermalEvaluate g temps).regs k_ = rget g.regs k_ := by
  have hm := fun (m : List (Nat × Nat)) (c : coversR [(0xC0000, 0xC0000), (0xC001C, 0xC001C), (0xC0044, 0xC0044), (0xC0050, 0xC0054)] m = true) => Outside.mono h c
  have hb0 : Outside [(0xC0000, 0xC0000)] k_ := hm _ (by decide)
  have hb1 : Outside [(0xC0000, 0xC0000), (0xC0044, 0xC0044)] k_ := hm _ (by decide)
  have hb2 : Outside [(0xC001C, 0xC001C)] k_ := hm _ (by decide)
  have hb3 : Outside [(0xC0050, 0xC0050)] k_ := hm _ (by decide)
  have hb4 : Outside [(0xC0054, 0xC0054)] k_ := hm _ (by decide)
  unfold Agg.thermalEvaluate
  (try dsimp only)
  (repeat' split) <;> simp [hb0, hb1, hb2, hb3, hb4]
@[simp] theorem Agg.droopTrip_rget (g : Agg) (k_ : Nat) (h : Outside [(0xC0000, 0xC0000), (0xC0020, 0xC0020), (0xC0040, 0xC0044)] k_) : rget (Agg.droopTrip g).regs k_ = rget g.regs k_ := by
  have hm := fun (m : List (Nat × Nat)) (c : coversR [(0xC0000, 0xC0000), (0xC0020, 0xC0020), (0xC0040, 0xC0044)] m = true) => Outside.mono h c
  have hb0 : Outside [(0xC0000, 0xC0000)] k_ := hm _ (by decide)
  have hb1 : Outside [(0xC0000, 0xC0000), (0xC0044, 0xC0044)] k_ := hm _ (by decide)
  have hb2 : Outside [(0xC0020, 0xC0020)] k_ := hm _ (by decide)
  have hb3 : Outside [(0xC0040, 0xC0040)] k_ := hm _ (by decide)
  unfold Agg.droopTrip
  (try dsimp only)
  (repeat' split) <;> simp [hb0, hb1, hb2, hb3]
@[simp] theorem Agg.stepHoldEnd_rget (g : Agg) (k_ : Nat) (h : Outside [(0xC0000, 0xC0000), (0xC0044, 0xC0044)] k_) : rget (Agg.stepHoldEnd g).regs k_ = rget g.regs k_ := by
  have hm := fun (m : List (Nat × Nat)) (c : coversR [(0xC0000, 0xC0000), (0xC0044, 0xC0044)] m = true) => Outside.mono h c
  have hb0 : Outside [(0xC0000, 0xC0000), (0xC0044, 0xC0044)] k_ := hm _ (by decide)
  unfold Agg.stepHoldEnd
  (repeat' split) <;> simp [hb0]
@[simp] theorem Agg.vrAlert_rget (g : Agg) (k_ : Nat) (h : Outside [(0xC0000, 0xC0000), (0xC0048, 0xC0048)] k_) : rget (Agg.vrAlert g).regs k_ = rget g.regs k_ := by
  have hm := fun (m : List (Nat × Nat)) (c : coversR [(0xC0000, 0xC0000), (0xC0048, 0xC0048)] m = true) => Outside.mono h c
  have hb0 : Outside [(0xC0000, 0xC0000)] k_ := hm _ (by decide)
  have hb1 : Outside [(0xC0048, 0xC0048)] k_ := hm _ (by decide)
  unfold Agg.vrAlert
  (repeat' split) <;> simp [hb0, hb1]
@[simp] theorem Agg.vrAlertClear_rget (g : Agg) (k_ : Nat) (h : Outside [(0xC0000, 0xC0000), (0xC0044, 0xC0044)] k_) : rget (Agg.vrAlertClear g).regs k_ = rget g.regs k_ := by
  have hm := fun (m : List (Nat × Nat)) (c : coversR [(0xC0000, 0xC0000), (0xC0044, 0xC0044)] m = true) => Outside.mono h c
  have hb0 : Outside [(0xC0000, 0xC0000), (0xC0044, 0xC0044)] k_ := hm _ (by decide)
  unfold Agg.vrAlertClear
  (repeat' split) <;> simp [hb0]
@[simp] theorem Agg.showMargins_rget (g : Agg) (k_ : Nat) (h : Outside [(0xC0000, 0xC0000), (0xC0038, 0xC0038), (0xC0044, 0xC0044)] k_) : rget (Agg.showMargins g).regs k_ = rget g.regs k_ := by
  have hm := fun (m : List (Nat × Nat)) (c : coversR [(0xC0000, 0xC0000), (0xC0038, 0xC0038), (0xC0044, 0xC0044)] m = true) => Outside.mono h c
  have hb0 : Outside [(0xC0000, 0xC0000), (0xC0044, 0xC0044)] k_ := hm _ (by decide)
  have hb1 : Outside [(0xC0038, 0xC0038)] k_ := hm _ (by decide)
  unfold Agg.showMargins
  (repeat' split) <;> simp [hb0, hb1]
@[simp] theorem Agg.aggSiteFault_rget (g : Agg) (k : Nat) (k_ : Nat) (h : Outside [(0xC0000, 0xC0000), (0xC0058, 0xC0058)] k_) : rget (Agg.aggSiteFault g k).regs k_ = rget g.regs k_ := by
  have hm := fun (m : List (Nat × Nat)) (c : coversR [(0xC0000, 0xC0000), (0xC0058, 0xC0058)] m = true) => Outside.mono h c
  have hb0 : Outside [(0xC0000, 0xC0000)] k_ := hm _ (by decide)
  have hb1 : Outside [(0xC0058, 0xC0058)] k_ := hm _ (by decide)
  unfold Agg.aggSiteFault
  (repeat' split) <;> simp [hb0, hb1]
@[simp] theorem Agg.measureSite_rget (vals : List (BitVec 16)) (faults : BitVec 24) (g : Agg) (k : Nat) (k_ : Nat) (h : Outside [(0xC0000, 0xC0000), (0xC0058, 0xC0058), (0xC0100, 0xC06FF)] k_) : rget (Agg.measureSite vals faults g k).regs k_ = rget g.regs k_ := by
  have hm := fun (m : List (Nat × Nat)) (c : coversR [(0xC0000, 0xC0000), (0xC0058, 0xC0058), (0xC0100, 0xC06FF)] m = true) => Outside.mono h c
  have hb0 : Outside [(0xC0000, 0xC0000), (0xC0058, 0xC0058)] k_ := hm _ (by decide)
  have hb1 : Outside [(0xC0100, 0xC06FF)] k_ := hm _ (by decide)
  unfold Agg.measureSite
  (repeat' split) <;> simp [hb0, hb1]
@[simp] theorem Agg.ageMeasure_rget (g : Agg) (vals : List (BitVec 16)) (faults : BitVec 24) (k_ : Nat) (h : Outside [(0xC0000, 0xC0000), (0xC0058, 0xC0058), (0xC0100, 0xC06FF)] k_) : rget (Agg.ageMeasure g vals faults).regs k_ = rget g.regs k_ := by
  have hm := fun (m : List (Nat × Nat)) (c : coversR [(0xC0000, 0xC0000), (0xC0058, 0xC0058), (0xC0100, 0xC06FF)] m = true) => Outside.mono h c
  have hb0 : Outside [(0xC0000, 0xC0000), (0xC0058, 0xC0058), (0xC0100, 0xC06FF)] k_ := hm _ (by decide)
  unfold Agg.ageMeasure
  (repeat' split) <;> simp [hb0]
@[simp] theorem Agg.aggProject_rget (g : Agg) (k : Nat) (k_ : Nat) (h : Outside [(0xC0000, 0xC0000), (0xC005C, 0xC005C), (0xC0100, 0xC06FF)] k_) : rget (Agg.aggProject g k).regs k_ = rget g.regs k_ := by
  have hm := fun (m : List (Nat × Nat)) (c : coversR [(0xC0000, 0xC0000), (0xC005C, 0xC005C), (0xC0100, 0xC06FF)] m = true) => Outside.mono h c
  have hb0 : Outside [(0xC0000, 0xC0000)] k_ := hm _ (by decide)
  have hb1 : Outside [(0xC005C, 0xC005C)] k_ := hm _ (by decide)
  have hb2 : Outside [(0xC0100, 0xC06FF)] k_ := hm _ (by decide)
  unfold Agg.aggProject
  (repeat' split) <;> simp [hb0, hb1, hb2]
@[simp] theorem Agg.aggFitSite_rget (g : Agg) (k : Nat) (k_ : Nat) (h : Outside [(0xC0000, 0xC0000), (0xC005C, 0xC005C), (0xC0100, 0xC06FF)] k_) : rget (Agg.aggFitSite g k).regs k_ = rget g.regs k_ := by
  have hm := fun (m : List (Nat × Nat)) (c : coversR [(0xC0000, 0xC0000), (0xC005C, 0xC005C), (0xC0100, 0xC06FF)] m = true) => Outside.mono h c
  have hb0 : Outside [(0xC0000, 0xC0000), (0xC005C, 0xC005C), (0xC0100, 0xC06FF)] k_ := hm _ (by decide)
  have hb1 : Outside [(0xC0100, 0xC06FF)] k_ := hm _ (by decide)
  unfold Agg.aggFitSite
  (try dsimp only)
  (repeat' split) <;> (first | (simp [hb0, hb1, Nat.add_assoc]; done) | (rw [Agg.command_rget _ _ _ _ _ _ _ (by simp [hb0, hb1, Nat.add_assoc])]; (repeat' intro _); (try dsimp only); (repeat' split) <;> (simp [hb0, hb1, Nat.add_assoc]; done)))
@[simp] theorem Agg.saveLife_rget (g : Agg) (ok : Bool) (k_ : Nat) (h : Outside [(0xE0000, 0xE0000), (0xE0054, 0xE0054)] k_) : rget (Agg.saveLife g ok).regs k_ = rget g.regs k_ := by
  have hm := fun (m : List (Nat × Nat)) (c : coversR [(0xE0000, 0xE0000), (0xE0054, 0xE0054)] m = true) => Outside.mono h c
  have hb0 : Outside [(0xE0000, 0xE0000)] k_ := hm _ (by decide)
  have hb1 : Outside [(0xE0054, 0xE0054)] k_ := hm _ (by decide)
  unfold Agg.saveLife
  (repeat' split) <;> simp [hb0, hb1]
@[simp] theorem Agg.loadSite_rget (e : SMap Byte) (b : Nat) (g : Agg) (k : Nat) (k_ : Nat) (h : Outside [(0xC0100, 0xC06FF)] k_) : rget (Agg.loadSite e b g k).regs k_ = rget g.regs k_ := by
  have hm := fun (m : List (Nat × Nat)) (c : coversR [(0xC0100, 0xC06FF)] m = true) => Outside.mono h c
  have hb0 : Outside [(0xC0100, 0xC06FF)] k_ := hm _ (by decide)
  unfold Agg.loadSite
  (repeat' split) <;> simp [hb0, Nat.add_assoc]
@[simp] theorem Agg.loadLife_rget (g : Agg) (k_ : Nat) (h : Outside [(0xC0000, 0xC0000), (0xC0024, 0xC0024), (0xC0038, 0xC0038), (0xC0044, 0xC0044), (0xC0100, 0xC06FF), (0xE0000, 0xE0000), (0xE0050, 0xE0050)] k_) : rget (Agg.loadLife g).regs k_ = rget g.regs k_ := by
  have hm := fun (m : List (Nat × Nat)) (c : coversR [(0xC0000, 0xC0000), (0xC0024, 0xC0024), (0xC0038, 0xC0038), (0xC0044, 0xC0044), (0xC0100, 0xC06FF), (0xE0000, 0xE0000), (0xE0050, 0xE0050)] m = true) => Outside.mono h c
  have hb0 : Outside [(0xC0000, 0xC0000), (0xC0038, 0xC0038), (0xC0044, 0xC0044)] k_ := hm _ (by decide)
  have hb1 : Outside [(0xC0024, 0xC0024)] k_ := hm _ (by decide)
  have hb2 : Outside [(0xC0100, 0xC06FF)] k_ := hm _ (by decide)
  have hb3 : Outside [(0xE0000, 0xE0000)] k_ := hm _ (by decide)
  have hb4 : Outside [(0xE0050, 0xE0050)] k_ := hm _ (by decide)
  unfold Agg.loadLife
  (repeat' split) <;> simp [hb0, hb1, hb2, hb3, hb4]
@[simp] theorem Agg.fitSave_rget (g : Agg) (ok : Bool) (k_ : Nat) (h : Outside [(0xC0000, 0xC0000), (0xC005C, 0xC005C), (0xC0100, 0xC06FF), (0xE0000, 0xE0000), (0xE0054, 0xE0054)] k_) : rget (Agg.fitSave g ok).regs k_ = rget g.regs k_ := by
  have hm := fun (m : List (Nat × Nat)) (c : coversR [(0xC0000, 0xC0000), (0xC005C, 0xC005C), (0xC0100, 0xC06FF), (0xE0000, 0xE0000), (0xE0054, 0xE0054)] m = true) => Outside.mono h c
  have hb0 : Outside [(0xC0000, 0xC0000), (0xC005C, 0xC005C), (0xC0100, 0xC06FF)] k_ := hm _ (by decide)
  have hb1 : Outside [(0xE0000, 0xE0000), (0xE0054, 0xE0054)] k_ := hm _ (by decide)
  unfold Agg.fitSave
  (repeat' split) <;> simp [hb0, hb1]
@[simp] theorem Agg.marginStep_rget (g : Agg) (d : Nat) (site : Nat) (lower : Bool) (k_ : Nat) (h : Outside [(0xC0000, 0xC0000), (0xC0038, 0xC0038), (0xC0044, 0xC0044), (0xC0060, 0xC0060)] k_) : rget (Agg.marginStep g d site lower).regs k_ = rget g.regs k_ := by
  have hm := fun (m : List (Nat × Nat)) (c : coversR [(0xC0000, 0xC0000), (0xC0038, 0xC0038), (0xC0044, 0xC0044), (0xC0060, 0xC0060)] m = true) => Outside.mono h c
  have hb0 : Outside [(0xC0000, 0xC0000)] k_ := hm _ (by decide)
  have hb1 : Outside [(0xC0000, 0xC0000), (0xC0038, 0xC0038), (0xC0044, 0xC0044)] k_ := hm _ (by decide)
  have hb2 : Outside [(0xC0044, 0xC0044)] k_ := hm _ (by decide)
  have hb3 : Outside [(0xC0060, 0xC0060)] k_ := hm _ (by decide)
  unfold Agg.marginStep
  (repeat' split) <;> simp [hb0, hb1, hb2, hb3]
@[simp] theorem Agg.relax_rget (g : Agg) (d : Nat) (k_ : Nat) (h : Outside [(0xC0000, 0xC0000), (0xC0038, 0xC0038), (0xC0044, 0xC0044)] k_) : rget (Agg.relax g d).regs k_ = rget g.regs k_ := by
  have hm := fun (m : List (Nat × Nat)) (c : coversR [(0xC0000, 0xC0000), (0xC0038, 0xC0038), (0xC0044, 0xC0044)] m = true) => Outside.mono h c
  have hb0 : Outside [(0xC0000, 0xC0000), (0xC0038, 0xC0038), (0xC0044, 0xC0044)] k_ := hm _ (by decide)
  have hb1 : Outside [(0xC0000, 0xC0000)] k_ := hm _ (by decide)
  have hb2 : Outside [(0xC0044, 0xC0044)] k_ := hm _ (by decide)
  unfold Agg.relax
  (repeat' split) <;> simp [hb0, hb1, hb2]
@[simp] theorem Agg.recoatDom_rget (g : Agg) (d : Nat) (k_ : Nat) (h : Outside [(0xC0000, 0xC0000), (0xC0038, 0xC0038), (0xC0044, 0xC0044), (0xC0060, 0xC0060)] k_) : rget (Agg.recoatDom g d).regs k_ = rget g.regs k_ := by
  have hm := fun (m : List (Nat × Nat)) (c : coversR [(0xC0000, 0xC0000), (0xC0038, 0xC0038), (0xC0044, 0xC0044), (0xC0060, 0xC0060)] m = true) => Outside.mono h c
  have hb0 : Outside [(0xC0000, 0xC0000), (0xC0038, 0xC0038), (0xC0044, 0xC0044)] k_ := hm _ (by decide)
  have hb1 : Outside [(0xC0000, 0xC0000), (0xC0038, 0xC0038), (0xC0044, 0xC0044), (0xC0060, 0xC0060)] k_ := hm _ (by decide)
  unfold Agg.recoatDom
  (try dsimp only)
  (repeat' split) <;> simp [hb0, hb1]
@[simp] theorem Agg.saveMargins_rget (g : Agg) (before : Agg) (k_ : Nat) (h : Outside [(0xE0000, 0xE0000), (0xE0054, 0xE0054)] k_) : rget (Agg.saveMargins g before).regs k_ = rget g.regs k_ := by
  have hm := fun (m : List (Nat × Nat)) (c : coversR [(0xE0000, 0xE0000), (0xE0054, 0xE0054)] m = true) => Outside.mono h c
  have hb0 : Outside [(0xE0000, 0xE0000), (0xE0054, 0xE0054)] k_ := hm _ (by decide)
  unfold Agg.saveMargins
  (try dsimp only) <;> (repeat' split) <;> simp [hb0]
@[simp] theorem Agg.recoatCycle_rget (g : Agg) (k_ : Nat) (h : Outside [(0xC0000, 0xC0000), (0xC0038, 0xC0038), (0xC0044, 0xC0044), (0xC0060, 0xC0060), (0xE0000, 0xE0000), (0xE0054, 0xE0054)] k_) : rget (Agg.recoatCycle g).regs k_ = rget g.regs k_ := by
  have hm := fun (m : List (Nat × Nat)) (c : coversR [(0xC0000, 0xC0000), (0xC0038, 0xC0038), (0xC0044, 0xC0044), (0xC0060, 0xC0060), (0xE0000, 0xE0000), (0xE0054, 0xE0054)] m = true) => Outside.mono h c
  have hb0 : Outside [(0xC0000, 0xC0000), (0xC0038, 0xC0038), (0xC0044, 0xC0044), (0xC0060, 0xC0060)] k_ := hm _ (by decide)
  have hb1 : Outside [(0xE0000, 0xE0000), (0xE0054, 0xE0054)] k_ := hm _ (by decide)
  unfold Agg.recoatCycle
  (repeat' split) <;> simp [hb0, hb1]
@[simp] theorem Agg.powerSetState_rget (g : Agg) (c : Caller) (st : Nat) (k_ : Nat) (h : Outside [(0x43000, 0x431FF), (0x90000, 0x90000), (0x90040, 0x90040), (0xB0000, 0xB01FF), (0xC0000, 0xC0000), (0xC0044, 0xC0044)] k_) : rget (Agg.powerSetState g c st).regs k_ = rget g.regs k_ := by
  have hm := fun (m : List (Nat × Nat)) (c : coversR [(0x43000, 0x431FF), (0x90000, 0x90000), (0x90040, 0x90040), (0xB0000, 0xB01FF), (0xC0000, 0xC0000), (0xC0044, 0xC0044)] m = true) => Outside.mono h c
  have hb0 : Outside [(0x43000, 0x431FF), (0x90000, 0x90000), (0x90040, 0x90040), (0xB0000, 0xB01FF)] k_ := hm _ (by decide)
  have hb1 : Outside [(0xC0000, 0xC0000), (0xC0044, 0xC0044)] k_ := hm _ (by decide)
  unfold Agg.powerSetState
  (repeat' split) <;> simp [hb0, hb1]
@[simp] theorem Agg.powerSetCap_rget (g : Agg) (c : Caller) (w : Nat) (k_ : Nat) (h : Outside [(0x43000, 0x431FF), (0x90000, 0x90000), (0x90040, 0x90040), (0xB0000, 0xB01FF), (0xC0008, 0xC0008)] k_) : rget (Agg.powerSetCap g c w).regs k_ = rget g.regs k_ := by
  have hm := fun (m : List (Nat × Nat)) (c : coversR [(0x43000, 0x431FF), (0x90000, 0x90000), (0x90040, 0x90040), (0xB0000, 0xB01FF), (0xC0008, 0xC0008)] m = true) => Outside.mono h c
  have hb0 : Outside [(0x43000, 0x431FF), (0x90000, 0x90000), (0x90040, 0x90040), (0xB0000, 0xB01FF)] k_ := hm _ (by decide)
  have hb1 : Outside [(0xC0008, 0xC0008)] k_ := hm _ (by decide)
  unfold Agg.powerSetCap
  (repeat' split) <;> simp [hb0, hb1]
@[simp] theorem Agg.powerSetMargin_rget (g : Agg) (c : Caller) (d : Nat) (lv : Nat) (k_ : Nat) (h : Outside [(0x43000, 0x431FF), (0x90000, 0x90000), (0x90040, 0x90040), (0xB0000, 0xB01FF), (0xC0000, 0xC0000), (0xC0038, 0xC0038), (0xC0044, 0xC0044), (0xE0000, 0xE0000), (0xE0054, 0xE0054)] k_) : rget (Agg.powerSetMargin g c d lv).regs k_ = rget g.regs k_ := by
  have hm := fun (m : List (Nat × Nat)) (c : coversR [(0x43000, 0x431FF), (0x90000, 0x90000), (0x90040, 0x90040), (0xB0000, 0xB01FF), (0xC0000, 0xC0000), (0xC0038, 0xC0038), (0xC0044, 0xC0044), (0xE0000, 0xE0000), (0xE0054, 0xE0054)] m = true) => Outside.mono h c
  have hb0 : Outside [(0x43000, 0x431FF), (0x90000, 0x90000), (0x90040, 0x90040), (0xB0000, 0xB01FF)] k_ := hm _ (by decide)
  have hb1 : Outside [(0xC0000, 0xC0000), (0xC0038, 0xC0038), (0xC0044, 0xC0044)] k_ := hm _ (by decide)
  have hb2 : Outside [(0xE0000, 0xE0000), (0xE0054, 0xE0054)] k_ := hm _ (by decide)
  unfold Agg.powerSetMargin
  (try dsimp only)
  (repeat' split) <;> (first | (simp [hb0, hb1, hb2]; done) | (rw [Agg.command_rget _ _ _ _ _ _ _ (by simp [hb0, hb1, hb2])]; (repeat' intro _); (try dsimp only); (repeat' split) <;> (simp [hb0, hb1, hb2]; done)))
@[simp] theorem Agg.powerStatus_rget (g : Agg) (c : Caller) (k_ : Nat) (h : Outside [(0x43000, 0x431FF), (0x90000, 0x90000), (0x90040, 0x90040), (0xB0000, 0xB01FF)] k_) : rget (Agg.powerStatus g c).regs k_ = rget g.regs k_ := by
  have hm := fun (m : List (Nat × Nat)) (c : coversR [(0x43000, 0x431FF), (0x90000, 0x90000), (0x90040, 0x90040), (0xB0000, 0xB01FF)] m = true) => Outside.mono h c
  have hb0 : Outside [(0x43000, 0x431FF), (0x90000, 0x90000), (0x90040, 0x90040), (0xB0000, 0xB01FF)] k_ := hm _ (by decide)
  unfold Agg.powerStatus
  (repeat' split) <;> simp [hb0]
@[simp] theorem Agg.showStation_rget (g : Agg) (kind : Nat) (k : Nat) (k_ : Nat) (h : Outside [(0x60000, 0x60007), (0x60100, 0x602FF)] k_) : rget (Agg.showStation g kind k).regs k_ = rget g.regs k_ := by
  have hm := fun (m : List (Nat × Nat)) (c : coversR [(0x60000, 0x60007), (0x60100, 0x602FF)] m = true) => Outside.mono h c
  have hb0 : Outside [(0x60000, 0x60007)] k_ := hm _ (by decide)
  have hb1 : Outside [(0x60100, 0x602FF)] k_ := hm _ (by decide)
  have hq0 : ∀ o, 393216 ≤ o → o ≤ 393223 → Outside [(o, o)] k_ := fun o c d => outside_range (hm [(0x60000, 0x60007)] (by decide)) c d
  have hq1 : ∀ o, 393472 ≤ o → o ≤ 393983 → Outside [(o, o)] k_ := fun o c d => outside_range (hm [(0x60100, 0x602FF)] (by decide)) c d
  unfold Agg.showStation
  (try dsimp only)
  (repeat' split) <;> (first | (simp (disch := first | assumption | (refine hq0 _ ?_ ?_ <;> omega) | (refine hq1 _ ?_ ?_ <;> omega) | (intros; simp (disch := first | assumption | (refine hq0 _ ?_ ?_ <;> omega) | (refine hq1 _ ?_ ?_ <;> omega)) [hb0, hb1, Nat.add_assoc])) [hb0, hb1, Nat.add_assoc]; done) | (simp (disch := first | assumption | (refine hq0 _ ?_ ?_ <;> omega) | (refine hq1 _ ?_ ?_ <;> omega) | (intros; simp (disch := first | assumption | (refine hq0 _ ?_ ?_ <;> omega) | (refine hq1 _ ?_ ?_ <;> omega)) [hb0, hb1, Nat.add_assoc])) [hb0, hb1, Nat.add_assoc]; split <;> simp))
@[simp] theorem Agg.modStation_rget (g : Agg) (kind : Nat) (k : Nat) (f : Station → Station) (k_ : Nat) (h : Outside [(0x60000, 0x60007), (0x60100, 0x602FF)] k_) : rget (Agg.modStation g kind k f).regs k_ = rget g.regs k_ := by
  have hm := fun (m : List (Nat × Nat)) (c : coversR [(0x60000, 0x60007), (0x60100, 0x602FF)] m = true) => Outside.mono h c
  have hb0 : Outside [(0x60000, 0x60007), (0x60100, 0x602FF)] k_ := hm _ (by decide)
  unfold Agg.modStation
  (repeat' split) <;> simp [hb0]
@[simp] theorem Agg.dueForTest_rget (g : Agg) (kind : Nat) (k : Nat) (k_ : Nat) (h : Outside [(0x60000, 0x60007), (0x60100, 0x602FF)] k_) : rget (Agg.dueForTest g kind k).regs k_ = rget g.regs k_ := by
  have hm := fun (m : List (Nat × Nat)) (c : coversR [(0x60000, 0x60007), (0x60100, 0x602FF)] m = true) => Outside.mono h c
  have hb0 : Outside [(0x60000, 0x60007), (0x60100, 0x602FF)] k_ := hm _ (by decide)
  unfold Agg.dueForTest
  (repeat' split) <;> simp [hb0]
@[simp] theorem Agg.programEnd_rget (g : Agg) (r : RunJob) (fail : Bool) (k_ : Nat) (h : Outside [(0x60010, 0x60010), (0x60058, 0x60058)] k_) : rget (Agg.programEnd g r fail).regs k_ = rget g.regs k_ := by
  have hm := fun (m : List (Nat × Nat)) (c : coversR [(0x60010, 0x60010), (0x60058, 0x60058)] m = true) => Outside.mono h c
  have hb0 : Outside [(0x60010, 0x60010)] k_ := hm _ (by decide)
  have hb1 : Outside [(0x60058, 0x60058)] k_ := hm _ (by decide)
  unfold Agg.programEnd
  (repeat' split) <;> simp [hb0, hb1]
@[simp] theorem Agg.runNext_rget (g : Agg) (r : RunJob) (res : List (Nat × Nat)) (k_ : Nat) (h : Outside [(0x43000, 0x431FF), (0x60010, 0x60010), (0x60058, 0x60058), (0x90000, 0x90000), (0x90040, 0x90040), (0xB0000, 0xB01FF)] k_) : rget (Agg.runNext g r res).regs k_ = rget g.regs k_ := by
  have hm := fun (m : List (Nat × Nat)) (c : coversR [(0x43000, 0x431FF), (0x60010, 0x60010), (0x60058, 0x60058), (0x90000, 0x90000), (0x90040, 0x90040), (0xB0000, 0xB01FF)] m = true) => Outside.mono h c
  have hb0 : Outside [(0x43000, 0x431FF), (0x90000, 0x90000), (0x90040, 0x90040), (0xB0000, 0xB01FF)] k_ := hm _ (by decide)
  have hb1 : Outside [(0x60010, 0x60010), (0x60058, 0x60058)] k_ := hm _ (by decide)
  unfold Agg.runNext
  (repeat' split) <;> simp [hb0, hb1]
@[simp] theorem Agg.takeForTest_rget (g : Agg) (kind : Nat) (k : Nat) (k_ : Nat) (h : Outside [(0x60000, 0x60007), (0x60100, 0x602FF)] k_) : rget (Agg.takeForTest g kind k).regs k_ = rget g.regs k_ := by
  have hm := fun (m : List (Nat × Nat)) (c : coversR [(0x60000, 0x60007), (0x60100, 0x602FF)] m = true) => Outside.mono h c
  have hb0 : Outside [(0x60000, 0x60007), (0x60100, 0x602FF)] k_ := hm _ (by decide)
  unfold Agg.takeForTest
  (try dsimp only) <;> (repeat' split) <;> simp [hb0]
@[simp] theorem Agg.suspectStation_rget (g : Agg) (kind : Nat) (k : Nat) (k_ : Nat) (h : Outside [(0x60000, 0x60007), (0x60100, 0x602FF)] k_) : rget (Agg.suspectStation g kind k).regs k_ = rget g.regs k_ := by
  have hm := fun (m : List (Nat × Nat)) (c : coversR [(0x60000, 0x60007), (0x60100, 0x602FF)] m = true) => Outside.mono h c
  have hb0 : Outside [(0x60000, 0x60007), (0x60100, 0x602FF)] k_ := hm _ (by decide)
  unfold Agg.suspectStation
  (try dsimp only) <;> (repeat' split) <;> simp [hb0]
@[simp] theorem Agg.runComplete_rget (g : Agg) (who : RunRef) (cycles : Nat) (corr : Nat) (err : Option (Nat × Nat)) (k_ : Nat) (h : Outside [(0x43000, 0x431FF), (0x60000, 0x60007), (0x60010, 0x60010), (0x60028, 0x60030), (0x60048, 0x60058), (0x60100, 0x602FF), (0x90000, 0x90000), (0x90040, 0x90040), (0xB0000, 0xB01FF)] k_) : rget (Agg.runComplete g who cycles corr err).regs k_ = rget g.regs k_ := by
  have hm := fun (m : List (Nat × Nat)) (c : coversR [(0x43000, 0x431FF), (0x60000, 0x60007), (0x60010, 0x60010), (0x60028, 0x60030), (0x60048, 0x60058), (0x60100, 0x602FF), (0x90000, 0x90000), (0x90040, 0x90040), (0xB0000, 0xB01FF)] m = true) => Outside.mono h c
  have hb0 : Outside [(0x43000, 0x431FF), (0x60010, 0x60010), (0x60058, 0x60058), (0x90000, 0x90000), (0x90040, 0x90040), (0xB0000, 0xB01FF)] k_ := hm _ (by decide)
  have hb1 : Outside [(0x43000, 0x431FF), (0x90000, 0x90000), (0x90040, 0x90040), (0xB0000, 0xB01FF)] k_ := hm _ (by decide)
  have hb2 : Outside [(0x60000, 0x60007), (0x60100, 0x602FF)] k_ := hm _ (by decide)
  have hb3 : Outside [(0x60010, 0x60010)] k_ := hm _ (by decide)
  have hb4 : Outside [(0x60010, 0x60010), (0x60058, 0x60058)] k_ := hm _ (by decide)
  have hb5 : Outside [(0x60028, 0x60028)] k_ := hm _ (by decide)
  have hb6 : Outside [(0x6002C, 0x6002C)] k_ := hm _ (by decide)
  have hb7 : Outside [(0x60030, 0x60030)] k_ := hm _ (by decide)
  have hb8 : Outside [(0x60048, 0x60048)] k_ := hm _ (by decide)
  have hb9 : Outside [(0x6004C, 0x6004C)] k_ := hm _ (by decide)
  have hb10 : Outside [(0x60050, 0x60050)] k_ := hm _ (by decide)
  have hb11 : Outside [(0x60054, 0x60054)] k_ := hm _ (by decide)
  unfold Agg.runComplete
  (repeat' split) <;> simp [hb0, hb1, hb2, hb3, hb4, hb5, hb6, hb7, hb8, hb9, hb10, hb11]
@[simp] theorem Agg.stationRun_rget (g : Agg) (c : Caller) (addr : Nat) (count : Nat) (k_ : Nat) (h : Outside [(0x43000, 0x431FF), (0x90000, 0x90000), (0x90040, 0x90040), (0xB0000, 0xB01FF)] k_) : rget (Agg.stationRun g c addr count).regs k_ = rget g.regs k_ := by
  have hm := fun (m : List (Nat × Nat)) (c : coversR [(0x43000, 0x431FF), (0x90000, 0x90000), (0x90040, 0x90040), (0xB0000, 0xB01FF)] m = true) => Outside.mono h c
  have hb0 : Outside [(0x43000, 0x431FF), (0x90000, 0x90000), (0x90040, 0x90040), (0xB0000, 0xB01FF)] k_ := hm _ (by decide)
  unfold Agg.stationRun
  (repeat' split) <;> simp [hb0]
@[simp] theorem Agg.stationKat_rget (g : Agg) (c : Caller) (kind : Nat) (k : Nat) (own : Bool) (run : Nat) (pass : Bool) (cycles : Nat) (free : Nat → Nat) (k_ : Nat) (h : Outside [(0x43000, 0x431FF), (0x90000, 0x90000), (0x90040, 0x90040), (0xB0000, 0xB01FF)] k_) : rget (Agg.stationKat g c kind k own run pass cycles free).regs k_ = rget g.regs k_ := by
  have hm := fun (m : List (Nat × Nat)) (c : coversR [(0x43000, 0x431FF), (0x90000, 0x90000), (0x90040, 0x90040), (0xB0000, 0xB01FF)] m = true) => Outside.mono h c
  have hb0 : Outside [(0x43000, 0x431FF), (0x90000, 0x90000), (0x90040, 0x90040), (0xB0000, 0xB01FF)] k_ := hm _ (by decide)
  unfold Agg.stationKat
  (repeat' split) <;> simp [hb0]
@[simp] theorem Agg.takeNext_rget (g : Agg) (k_ : Nat) (h : Outside [(0x60000, 0x60007), (0x60100, 0x602FF)] k_) : rget (Agg.takeNext g).regs k_ = rget g.regs k_ := by
  have hm := fun (m : List (Nat × Nat)) (c : coversR [(0x60000, 0x60007), (0x60100, 0x602FF)] m = true) => Outside.mono h c
  have hb0 : Outside [(0x60000, 0x60007), (0x60100, 0x602FF)] k_ := hm _ (by decide)
  unfold Agg.takeNext
  (try dsimp only) <;> (repeat' split) <;> simp [hb0]
@[simp] theorem Agg.stationService_rget (g : Agg) (c : Caller) (kind : Nat) (k : Nat) (inService : Bool) (k_ : Nat) (h : Outside [(0x43000, 0x431FF), (0x60000, 0x60007), (0x60100, 0x602FF), (0x90000, 0x90000), (0x90040, 0x90040), (0xB0000, 0xB01FF)] k_) : rget (Agg.stationService g c kind k inService).regs k_ = rget g.regs k_ := by
  have hm := fun (m : List (Nat × Nat)) (c : coversR [(0x43000, 0x431FF), (0x60000, 0x60007), (0x60100, 0x602FF), (0x90000, 0x90000), (0x90040, 0x90040), (0xB0000, 0xB01FF)] m = true) => Outside.mono h c
  have hb0 : Outside [(0x43000, 0x431FF), (0x90000, 0x90000), (0x90040, 0x90040), (0xB0000, 0xB01FF)] k_ := hm _ (by decide)
  have hb1 : Outside [(0x60000, 0x60007), (0x60100, 0x602FF)] k_ := hm _ (by decide)
  unfold Agg.stationService
  (repeat' split) <;> simp [hb0, hb1]
@[simp] theorem Agg.stationStatus_rget (g : Agg) (c : Caller) (w : Nat) (dst : Nat) (k_ : Nat) (h : Outside [(0x43000, 0x431FF), (0x90000, 0x90000), (0x90040, 0x90040), (0xB0000, 0xB01FF)] k_) : rget (Agg.stationStatus g c w dst).regs k_ = rget g.regs k_ := by
  have hm := fun (m : List (Nat × Nat)) (c : coversR [(0x43000, 0x431FF), (0x90000, 0x90000), (0x90040, 0x90040), (0xB0000, 0xB01FF)] m = true) => Outside.mono h c
  have hb0 : Outside [(0x43000, 0x431FF), (0x90000, 0x90000), (0x90040, 0x90040), (0xB0000, 0xB01FF)] k_ := hm _ (by decide)
  unfold Agg.stationStatus
  (repeat' split) <;> simp [hb0]
@[simp] theorem Agg.stationDue_rget (g : Agg) (kind : Nat) (k : Nat) (k_ : Nat) (h : Outside [(0x60000, 0x60007), (0x60100, 0x602FF)] k_) : rget (Agg.stationDue g kind k).regs k_ = rget g.regs k_ := by
  have hm := fun (m : List (Nat × Nat)) (c : coversR [(0x60000, 0x60007), (0x60100, 0x602FF)] m = true) => Outside.mono h c
  have hb0 : Outside [(0x60000, 0x60007), (0x60100, 0x602FF)] k_ := hm _ (by decide)
  unfold Agg.stationDue
  (repeat' split) <;> simp [hb0]
@[simp] theorem Agg.stationForce_rget (g : Agg) (kind : Nat) (k : Nat) (k_ : Nat) (h : Outside [(0x60000, 0x60007), (0x60100, 0x602FF)] k_) : rget (Agg.stationForce g kind k).regs k_ = rget g.regs k_ := by
  have hm := fun (m : List (Nat × Nat)) (c : coversR [(0x60000, 0x60007), (0x60100, 0x602FF)] m = true) => Outside.mono h c
  have hb0 : Outside [(0x60000, 0x60007), (0x60100, 0x602FF)] k_ := hm _ (by decide)
  unfold Agg.stationForce
  (repeat' split) <;> simp [hb0]
@[simp] theorem Agg.stationOut_rget (g : Agg) (kind : Nat) (k : Nat) (k_ : Nat) (h : Outside [(0x60000, 0x60007), (0x60010, 0x60010), (0x60040, 0x60044), (0x60100, 0x602FF)] k_) : rget (Agg.stationOut g kind k).regs k_ = rget g.regs k_ := by
  have hm := fun (m : List (Nat × Nat)) (c : coversR [(0x60000, 0x60007), (0x60010, 0x60010), (0x60040, 0x60044), (0x60100, 0x602FF)] m = true) => Outside.mono h c
  have hb0 : Outside [(0x60000, 0x60007), (0x60100, 0x602FF)] k_ := hm _ (by decide)
  have hb1 : Outside [(0x60010, 0x60010)] k_ := hm _ (by decide)
  have hb2 : Outside [(0x60040, 0x60040)] k_ := hm _ (by decide)
  have hb3 : Outside [(0x60044, 0x60044)] k_ := hm _ (by decide)
  unfold Agg.stationOut
  (repeat' split) <;> simp [hb0, hb1, hb2, hb3]
@[simp] theorem Agg.stationTested_rget (g : Agg) (kind : Nat) (k : Nat) (pass : Bool) (k_ : Nat) (h : Outside [(0x60000, 0x60007), (0x60010, 0x60010), (0x60040, 0x60044), (0x60100, 0x602FF)] k_) : rget (Agg.stationTested g kind k pass).regs k_ = rget g.regs k_ := by
  have hm := fun (m : List (Nat × Nat)) (c : coversR [(0x60000, 0x60007), (0x60010, 0x60010), (0x60040, 0x60044), (0x60100, 0x602FF)] m = true) => Outside.mono h c
  have hb0 : Outside [(0x60000, 0x60007), (0x60010, 0x60010), (0x60040, 0x60044), (0x60100, 0x602FF)] k_ := hm _ (by decide)
  have hb1 : Outside [(0x60000, 0x60007), (0x60100, 0x602FF)] k_ := hm _ (by decide)
  have hb2 : Outside [(0x60010, 0x60010)] k_ := hm _ (by decide)
  have hb3 : Outside [(0x60040, 0x60040)] k_ := hm _ (by decide)
  unfold Agg.stationTested
  (repeat' split) <;> simp [hb0, hb1, hb2, hb3]
@[simp] theorem Agg.stencilLookup_rget (g : Agg) (n : Nat) (e : Nat) (t : Nat) (tree : Nat) (hits : Option (List (Nat × Bool))) (k_ : Nat) (h : Outside [(0x70000, 0x70000), (0x70040, 0x70048)] k_) : rget (Agg.stencilLookup g n e t tree hits).regs k_ = rget g.regs k_ := by
  have hm := fun (m : List (Nat × Nat)) (c : coversR [(0x70000, 0x70000), (0x70040, 0x70048)] m = true) => Outside.mono h c
  have hb0 : Outside [(0x70000, 0x70000)] k_ := hm _ (by decide)
  have hb1 : Outside [(0x70040, 0x70040)] k_ := hm _ (by decide)
  have hb2 : Outside [(0x70044, 0x70044)] k_ := hm _ (by decide)
  have hb3 : Outside [(0x70048, 0x70048)] k_ := hm _ (by decide)
  unfold Agg.stencilLookup
  (repeat' split) <;> simp [hb0, hb1, hb2, hb3]
@[simp] theorem Agg.entityDone_rget (g : Agg) (c : Caller) (k_ : Nat) (h : Outside [(0x43000, 0x431FF), (0x90000, 0x90000), (0x90040, 0x90040), (0xB0000, 0xB01FF)] k_) : rget (Agg.entityDone g c).regs k_ = rget g.regs k_ := by
  have hm := fun (m : List (Nat × Nat)) (c : coversR [(0x43000, 0x431FF), (0x90000, 0x90000), (0x90040, 0x90040), (0xB0000, 0xB01FF)] m = true) => Outside.mono h c
  have hb0 : Outside [(0x43000, 0x431FF), (0x90000, 0x90000), (0x90040, 0x90040), (0xB0000, 0xB01FF)] k_ := hm _ (by decide)
  unfold Agg.entityDone
  (repeat' split) <;> simp [hb0]
@[simp] theorem Agg.entityPut_rget (g : Agg) (c : Caller) (die : Nat) (src : Nat) (act : Nat) (k_ : Nat) (h : Outside [(0x43000, 0x431FF), (0x90000, 0x90000), (0x90040, 0x90040), (0xB0000, 0xB01FF)] k_) : rget (Agg.entityPut g c die src act).regs k_ = rget g.regs k_ := by
  have hm := fun (m : List (Nat × Nat)) (c : coversR [(0x43000, 0x431FF), (0x90000, 0x90000), (0x90040, 0x90040), (0xB0000, 0xB01FF)] m = true) => Outside.mono h c
  have hb0 : Outside [(0x43000, 0x431FF), (0x90000, 0x90000), (0x90040, 0x90040), (0xB0000, 0xB01FF)] k_ := hm _ (by decide)
  unfold Agg.entityPut
  (repeat' split) <;> simp [hb0]
@[simp] theorem Agg.entityDelete_rget (g : Agg) (c : Caller) (die : Nat) (act : Nat) (k_ : Nat) (h : Outside [(0x43000, 0x431FF), (0x90000, 0x90000), (0x90040, 0x90040), (0xB0000, 0xB01FF)] k_) : rget (Agg.entityDelete g c die act).regs k_ = rget g.regs k_ := by
  have hm := fun (m : List (Nat × Nat)) (c : coversR [(0x43000, 0x431FF), (0x90000, 0x90000), (0x90040, 0x90040), (0xB0000, 0xB01FF)] m = true) => Outside.mono h c
  have hb0 : Outside [(0x43000, 0x431FF), (0x90000, 0x90000), (0x90040, 0x90040), (0xB0000, 0xB01FF)] k_ := hm _ (by decide)
  unfold Agg.entityDelete
  (repeat' split) <;> simp [hb0]
@[simp] theorem Agg.entityRead_rget (g : Agg) (c : Caller) (die : Nat) (dst : Nat) (k_ : Nat) (h : Outside [(0x43000, 0x431FF), (0x90000, 0x90000), (0x90040, 0x90040), (0xB0000, 0xB01FF)] k_) : rget (Agg.entityRead g c die dst).regs k_ = rget g.regs k_ := by
  have hm := fun (m : List (Nat × Nat)) (c : coversR [(0x43000, 0x431FF), (0x90000, 0x90000), (0x90040, 0x90040), (0xB0000, 0xB01FF)] m = true) => Outside.mono h c
  have hb0 : Outside [(0x43000, 0x431FF), (0x90000, 0x90000), (0x90040, 0x90040), (0xB0000, 0xB01FF)] k_ := hm _ (by decide)
  unfold Agg.entityRead
  (repeat' split) <;> simp [hb0]
@[simp] theorem Agg.entityStatus_rget (g : Agg) (c : Caller) (k_ : Nat) (h : Outside [(0x43000, 0x431FF), (0x90000, 0x90000), (0x90040, 0x90040), (0xB0000, 0xB01FF)] k_) : rget (Agg.entityStatus g c).regs k_ = rget g.regs k_ := by
  have hm := fun (m : List (Nat × Nat)) (c : coversR [(0x43000, 0x431FF), (0x90000, 0x90000), (0x90040, 0x90040), (0xB0000, 0xB01FF)] m = true) => Outside.mono h c
  have hb0 : Outside [(0x43000, 0x431FF), (0x90000, 0x90000), (0x90040, 0x90040), (0xB0000, 0xB01FF)] k_ := hm _ (by decide)
  unfold Agg.entityStatus
  (repeat' split) <;> simp [hb0]
@[simp] theorem Agg.entityStroke_rget (g : Agg) (w : Nat) (k_ : Nat) (h : Outside [(0x70000, 0x70000), (0x70050, 0x70050)] k_) : rget (Agg.entityStroke g w).regs k_ = rget g.regs k_ := by
  have hm := fun (m : List (Nat × Nat)) (c : coversR [(0x70000, 0x70000), (0x70050, 0x70050)] m = true) => Outside.mono h c
  have hb0 : Outside [(0x70000, 0x70000)] k_ := hm _ (by decide)
  have hb1 : Outside [(0x70050, 0x70050)] k_ := hm _ (by decide)
  unfold Agg.entityStroke
  (repeat' split) <;> simp [hb0, hb1]
@[simp] theorem Agg.stencilTake_rget (g : Agg) (c : Caller) (n : Nat) (e : Nat) (image : List Byte) (k_ : Nat) (h : Outside [(0x43000, 0x431FF), (0x90000, 0x90000), (0x90040, 0x90040), (0xB0000, 0xB01FF)] k_) : rget (Agg.stencilTake g c n e image).regs k_ = rget g.regs k_ := by
  have hm := fun (m : List (Nat × Nat)) (c : coversR [(0x43000, 0x431FF), (0x90000, 0x90000), (0x90040, 0x90040), (0xB0000, 0xB01FF)] m = true) => Outside.mono h c
  have hb0 : Outside [(0x43000, 0x431FF), (0x90000, 0x90000), (0x90040, 0x90040), (0xB0000, 0xB01FF)] k_ := hm _ (by decide)
  unfold Agg.stencilTake
  split
  · next h => have b := Agg.loadEnsemble_regs (Agg.loadChecked_ok h); simp [b, hb0, Nat.add_assoc]
  · simp [hb0, Nat.add_assoc]
@[simp] theorem Agg.stencilLoad_rget (g : Agg) (c : Caller) (e : Nat) (addr : Nat) (len : Nat) (k_ : Nat) (h : Outside [(0x43000, 0x431FF), (0x90000, 0x90000), (0x90040, 0x90040), (0xB0000, 0xB01FF)] k_) : rget (Agg.stencilLoad g c e addr len).regs k_ = rget g.regs k_ := by
  have hm := fun (m : List (Nat × Nat)) (c : coversR [(0x43000, 0x431FF), (0x90000, 0x90000), (0x90040, 0x90040), (0xB0000, 0xB01FF)] m = true) => Outside.mono h c
  have hb0 : Outside [(0x43000, 0x431FF), (0x90000, 0x90000), (0x90040, 0x90040), (0xB0000, 0xB01FF)] k_ := hm _ (by decide)
  unfold Agg.stencilLoad
  (repeat' split) <;> simp [hb0]
@[simp] theorem Agg.stencilActivate_rget (g : Agg) (c : Caller) (e : Nat) (act : Nat) (k_ : Nat) (h : Outside [(0x43000, 0x431FF), (0x90000, 0x90000), (0x90040, 0x90040), (0xB0000, 0xB01FF)] k_) : rget (Agg.stencilActivate g c e act).regs k_ = rget g.regs k_ := by
  have hm := fun (m : List (Nat × Nat)) (c : coversR [(0x43000, 0x431FF), (0x90000, 0x90000), (0x90040, 0x90040), (0xB0000, 0xB01FF)] m = true) => Outside.mono h c
  have hb0 : Outside [(0x43000, 0x431FF), (0x90000, 0x90000), (0x90040, 0x90040), (0xB0000, 0xB01FF)] k_ := hm _ (by decide)
  unfold Agg.stencilActivate
  (repeat' split) <;> simp [hb0]
@[simp] theorem Agg.stencilUnload_rget (g : Agg) (c : Caller) (e : Nat) (act : Nat) (k_ : Nat) (h : Outside [(0x43000, 0x431FF), (0x90000, 0x90000), (0x90040, 0x90040), (0xB0000, 0xB01FF)] k_) : rget (Agg.stencilUnload g c e act).regs k_ = rget g.regs k_ := by
  have hm := fun (m : List (Nat × Nat)) (c : coversR [(0x43000, 0x431FF), (0x90000, 0x90000), (0x90040, 0x90040), (0xB0000, 0xB01FF)] m = true) => Outside.mono h c
  have hb0 : Outside [(0x43000, 0x431FF), (0x90000, 0x90000), (0x90040, 0x90040), (0xB0000, 0xB01FF)] k_ := hm _ (by decide)
  unfold Agg.stencilUnload
  (repeat' split) <;> simp [hb0]
@[simp] theorem Agg.stencilStatus_rget (g : Agg) (c : Caller) (e : Nat) (k_ : Nat) (h : Outside [(0x43000, 0x431FF), (0x90000, 0x90000), (0x90040, 0x90040), (0xB0000, 0xB01FF)] k_) : rget (Agg.stencilStatus g c e).regs k_ = rget g.regs k_ := by
  have hm := fun (m : List (Nat × Nat)) (c : coversR [(0x43000, 0x431FF), (0x90000, 0x90000), (0x90040, 0x90040), (0xB0000, 0xB01FF)] m = true) => Outside.mono h c
  have hb0 : Outside [(0x43000, 0x431FF), (0x90000, 0x90000), (0x90040, 0x90040), (0xB0000, 0xB01FF)] k_ := hm _ (by decide)
  unfold Agg.stencilStatus
  (repeat' split) <;> simp [hb0]
@[simp] theorem Agg.applyEns_rget (g : Agg) (n : Nat) (e : Nat) (w : Nat) (k_ : Nat) (h : Outside [(0x70000, 0x70000), (0x70054, 0x70054)] k_) : rget (Agg.applyEns g n e w).regs k_ = rget g.regs k_ := by
  have hm := fun (m : List (Nat × Nat)) (c : coversR [(0x70000, 0x70000), (0x70054, 0x70054)] m = true) => Outside.mono h c
  have hb0 : Outside [(0x70000, 0x70000)] k_ := hm _ (by decide)
  have hb1 : Outside [(0x70054, 0x70054)] k_ := hm _ (by decide)
  unfold Agg.applyEns
  (try dsimp only)
  (repeat' split) <;> simp [hb0, hb1]
@[simp] theorem Agg.ensembleStroke_rget (g : Agg) (w : Nat) (k_ : Nat) (h : Outside [(0x70000, 0x70000), (0x70054, 0x70054)] k_) : rget (Agg.ensembleStroke g w).regs k_ = rget g.regs k_ := by
  have hm := fun (m : List (Nat × Nat)) (c : coversR [(0x70000, 0x70000), (0x70054, 0x70054)] m = true) => Outside.mono h c
  have hb0 : Outside [(0x70000, 0x70000), (0x70054, 0x70054)] k_ := hm _ (by decide)
  unfold Agg.ensembleStroke
  rw [Agg.rget_foldl]
  intro b n
  rw [Agg.rget_foldl]
  intro b e
  simp [hb0, Nat.add_assoc]
@[simp] theorem Agg.tc2Expire_rget (g : Agg) (k : Nat) (k_ : Nat) (h : Outside [(0x40088, 0x40088), (0x400C8, 0x400C8)] k_) : rget (Agg.tc2Expire g k).regs k_ = rget g.regs k_ := by
  have hm := fun (m : List (Nat × Nat)) (c : coversR [(0x40088, 0x40088), (0x400C8, 0x400C8)] m = true) => Outside.mono h c
  have hb0 : Outside [(0x40088, 0x40088)] k_ := hm _ (by decide)
  have hb1 : Outside [(0x400C8, 0x400C8)] k_ := hm _ (by decide)
  unfold Agg.tc2Expire
  (repeat' split) <;> simp [hb0, hb1]
@[simp] theorem Agg.buildData_rget (g : Agg) (k : Nat) (free : Nat → Byte) (k_ : Nat) (h : Outside [(0x40088, 0x40088), (0x400C8, 0x400C8)] k_) : rget (Agg.buildData g k free).regs k_ = rget g.regs k_ := by
  have hm := fun (m : List (Nat × Nat)) (c : coversR [(0x40088, 0x40088), (0x400C8, 0x400C8)] m = true) => Outside.mono h c
  have hb0 : Outside [(0x40088, 0x40088), (0x400C8, 0x400C8)] k_ := hm _ (by decide)
  unfold Agg.buildData
  (repeat' split) <;> simp [hb0]
@[simp] theorem Agg.flitBuild_rget (g : Agg) (k : Nat) (free : Nat → Byte) (k_ : Nat) (h : Outside [(0x30000, 0x31FFF), (0x40088, 0x40088), (0x400C8, 0x400C8)] k_) : rget (Agg.flitBuild g k free).regs k_ = rget g.regs k_ := by
  have hm := fun (m : List (Nat × Nat)) (c : coversR [(0x30000, 0x31FFF), (0x40088, 0x40088), (0x400C8, 0x400C8)] m = true) => Outside.mono h c
  have hb0 : Outside [(0x30000, 0x31FFF)] k_ := hm _ (by decide)
  have hb1 : Outside [(0x40088, 0x40088), (0x400C8, 0x400C8)] k_ := hm _ (by decide)
  unfold Agg.flitBuild
  (try dsimp only)
  (repeat' split) <;> simp [hb0, hb1]
@[simp] theorem Agg.linkDown_rget (g : Agg) (k : Nat) (k_ : Nat) (h : Outside [(0x30000, 0x31FFF)] k_) : rget (Agg.linkDown g k).regs k_ = rget g.regs k_ := by
  have hm := fun (m : List (Nat × Nat)) (c : coversR [(0x30000, 0x31FFF)] m = true) => Outside.mono h c
  have hb0 : Outside [(0x30000, 0x31FFF)] k_ := hm _ (by decide)
  unfold Agg.linkDown
  (repeat' split) <;> simp [hb0]
@[simp] theorem Agg.linkTrain_rget (g : Agg) (k : Nat) (lanes : Nat) (tray : Nat) (role : Nat) (peerLink : Nat) (variant : Nat) (trips : Nat) (asym0 : Nat) (asym1 : Nat) (k_ : Nat) (h : Outside [(0x30000, 0x31FFF)] k_) : rget (Agg.linkTrain g k lanes tray role peerLink variant trips asym0 asym1).regs k_ = rget g.regs k_ := by
  have hm := fun (m : List (Nat × Nat)) (c : coversR [(0x30000, 0x31FFF)] m = true) => Outside.mono h c
  have hb0 : Outside [(0x30000, 0x31FFF)] k_ := hm _ (by decide)
  unfold Agg.linkTrain
  (repeat' split) <;> simp [hb0]
@[simp] theorem Agg.replayLink_rget (g : Agg) (k : Nat) (k_ : Nat) (h : Outside [(0x30000, 0x31FFF)] k_) : rget (Agg.replayLink g k).regs k_ = rget g.regs k_ := by
  have hm := fun (m : List (Nat × Nat)) (c : coversR [(0x30000, 0x31FFF)] m = true) => Outside.mono h c
  have hb0 : Outside [(0x30000, 0x31FFF)] k_ := hm _ (by decide)
  unfold Agg.replayLink
  (try dsimp only) <;> (repeat' split) <;> simp [hb0, Nat.add_assoc]
@[simp] theorem Agg.noteHold_rget (g : Agg) (k : Nat) (k_ : Nat) (h : Outside [(0x30000, 0x31FFF)] k_) : rget (Agg.noteHold g k).regs k_ = rget g.regs k_ := by
  have hm := fun (m : List (Nat × Nat)) (c : coversR [(0x30000, 0x31FFF)] m = true) => Outside.mono h c
  have hb0 : Outside [(0x30000, 0x31FFF)] k_ := hm _ (by decide)
  unfold Agg.noteHold
  (try dsimp only) <;> (repeat' split) <;> simp [hb0, Nat.add_assoc]
@[simp] theorem Agg.setLanes_rget (g : Agg) (k : Nat) (mask : Nat) (k_ : Nat) (h : Outside [(0x1000, 0x1000), (0x1048, 0x104C), (0x30000, 0x31FFF)] k_) : rget (Agg.setLanes g k mask).regs k_ = rget g.regs k_ := by
  have hm := fun (m : List (Nat × Nat)) (c : coversR [(0x1000, 0x1000), (0x1048, 0x104C), (0x30000, 0x31FFF)] m = true) => Outside.mono h c
  have hb0 : Outside [(0x1000, 0x1000), (0x1048, 0x104C)] k_ := hm _ (by decide)
  have hb1 : Outside [(0x30000, 0x31FFF)] k_ := hm _ (by decide)
  unfold Agg.setLanes
  (repeat' split) <;> simp [hb0, hb1, Nat.add_assoc]
@[simp] theorem Agg.laneRemove_rget (g : Agg) (k : Nat) (lane : Nat) (unc : Nat) (corr : Nat) (symbols : Nat) (lost : Bool) (at_ : Nat) (k_ : Nat) (h : Outside [(0x30000, 0x31FFF)] k_) : rget (Agg.laneRemove g k lane unc corr symbols lost at_).regs k_ = rget g.regs k_ := by
  have hm := fun (m : List (Nat × Nat)) (c : coversR [(0x30000, 0x31FFF)] m = true) => Outside.mono h c
  have hb0 : Outside [(0x30000, 0x31FFF)] k_ := hm _ (by decide)
  unfold Agg.laneRemove
  (repeat' split) <;> simp [hb0]
@[simp] theorem Agg.reachChange_rget (g : Agg) (k : Nat) (k_ : Nat) (h : Outside [(0x1000, 0x1000), (0x1048, 0x104C), (0x30000, 0x31FFF)] k_) : rget (Agg.reachChange g k).regs k_ = rget g.regs k_ := by
  have hm := fun (m : List (Nat × Nat)) (c : coversR [(0x1000, 0x1000), (0x1048, 0x104C), (0x30000, 0x31FFF)] m = true) => Outside.mono h c
  have hb0 : Outside [(0x1000, 0x1000), (0x1048, 0x104C), (0x30000, 0x31FFF)] k_ := hm _ (by decide)
  unfold Agg.reachChange
  (repeat' split) <;> simp [hb0]
@[simp] theorem Agg.laneChange_rget (g : Agg) (k : Nat) (at_ : Nat) (mask : Nat) (k_ : Nat) (h : Outside [(0x1000, 0x1000), (0x1048, 0x104C), (0x30000, 0x31FFF)] k_) : rget (Agg.laneChange g k at_ mask).regs k_ = rget g.regs k_ := by
  have hm := fun (m : List (Nat × Nat)) (c : coversR [(0x1000, 0x1000), (0x1048, 0x104C), (0x30000, 0x31FFF)] m = true) => Outside.mono h c
  have hb0 : Outside [(0x1000, 0x1000), (0x1048, 0x104C), (0x30000, 0x31FFF)] k_ := hm _ (by decide)
  unfold Agg.laneChange
  (repeat' split) <;> simp [hb0]
@[simp] theorem Agg.releaseLate_rget (g : Agg) (k : Nat) (c : Nat) (k_ : Nat) (h : Outside [(0x40088, 0x40088), (0x400D0, 0x400D0)] k_) : rget (Agg.releaseLate g k c).regs k_ = rget g.regs k_ := by
  have hm := fun (m : List (Nat × Nat)) (c : coversR [(0x40088, 0x40088), (0x400D0, 0x400D0)] m = true) => Outside.mono h c
  have hb0 : Outside [(0x40088, 0x40088)] k_ := hm _ (by decide)
  have hb1 : Outside [(0x400D0, 0x400D0)] k_ := hm _ (by decide)
  unfold Agg.releaseLate
  (try dsimp only)
  (repeat' split) <;> simp [hb0, hb1]
@[simp] theorem Agg.creditStall_rget (g : Agg) (k : Nat) (c : Nat) (k_ : Nat) (h : Outside [(0x40088, 0x4008C), (0x400CC, 0x400CC)] k_) : rget (Agg.creditStall g k c).regs k_ = rget g.regs k_ := by
  have hm := fun (m : List (Nat × Nat)) (c : coversR [(0x40088, 0x4008C), (0x400CC, 0x400CC)] m = true) => Outside.mono h c
  have hb0 : Outside [(0x40088, 0x40088)] k_ := hm _ (by decide)
  have hb1 : Outside [(0x4008C, 0x4008C)] k_ := hm _ (by decide)
  have hb2 : Outside [(0x400CC, 0x400CC)] k_ := hm _ (by decide)
  unfold Agg.creditStall
  (try dsimp only)
  (repeat' split) <;> simp [hb0, hb1, hb2]
@[simp] theorem Agg.gateStatus_rget (g : Agg) (code : Nat) (k_ : Nat) (h : Outside [(0x40084, 0x40084)] k_) : rget (Agg.gateStatus g code).regs k_ = rget g.regs k_ := by
  have hm := fun (m : List (Nat × Nat)) (c : coversR [(0x40084, 0x40084)] m = true) => Outside.mono h c
  have hb0 : Outside [(0x40084, 0x40084)] k_ := hm _ (by decide)
  unfold Agg.gateStatus
  (repeat' split) <;> simp [hb0]
@[simp] theorem Agg.gateCommit_rget (g : Agg) (k_ : Nat) (h : Outside [(0x40084, 0x40088), (0x400C4, 0x400C4)] k_) : rget (Agg.gateCommit g).regs k_ = rget g.regs k_ := by
  have hm := fun (m : List (Nat × Nat)) (c : coversR [(0x40084, 0x40088), (0x400C4, 0x400C4)] m = true) => Outside.mono h c
  have hb0 : Outside [(0x40084, 0x40084)] k_ := hm _ (by decide)
  have hb1 : Outside [(0x40088, 0x40088)] k_ := hm _ (by decide)
  have hb2 : Outside [(0x400C4, 0x400C4)] k_ := hm _ (by decide)
  unfold Agg.gateCommit
  (repeat' split) <;> simp [hb0, hb1, hb2]
@[simp] theorem Agg.gateCancel_rget (g : Agg) (k_ : Nat) (h : Outside [(0x40084, 0x40084)] k_) : rget (Agg.gateCancel g).regs k_ = rget g.regs k_ := by
  have hm := fun (m : List (Nat × Nat)) (c : coversR [(0x40084, 0x40084)] m = true) => Outside.mono h c
  have hb0 : Outside [(0x40084, 0x40084)] k_ := hm _ (by decide)
  unfold Agg.gateCancel
  (repeat' split) <;> simp [hb0]
@[simp] theorem Agg.applyGates_rget (g : Agg) (close : Nat) (k_ : Nat) (h : Outside [(0x40040, 0x4007F), (0x40084, 0x40088), (0x400C0, 0x400C0), (0x40180, 0x401FF)] k_) : rget (Agg.applyGates g close).regs k_ = rget g.regs k_ := by
  have hm := fun (m : List (Nat × Nat)) (c : coversR [(0x40040, 0x4007F), (0x40084, 0x40088), (0x400C0, 0x400C0), (0x40180, 0x401FF)] m = true) => Outside.mono h c
  have hb0 : Outside [(0x40040, 0x4007F)] k_ := hm _ (by decide)
  have hb1 : Outside [(0x40084, 0x40084)] k_ := hm _ (by decide)
  have hb2 : Outside [(0x40088, 0x40088)] k_ := hm _ (by decide)
  have hb3 : Outside [(0x400C0, 0x400C0)] k_ := hm _ (by decide)
  have hb4 : Outside [(0x40180, 0x401FF)] k_ := hm _ (by decide)
  have hq0 : ∀ o, 262208 ≤ o → o ≤ 262271 → Outside [(o, o)] k_ := fun o c d => outside_range (hm [(0x40040, 0x4007F)] (by decide)) c d
  have hq1 : ∀ o, 262528 ≤ o → o ≤ 262655 → Outside [(o, o)] k_ := fun o c d => outside_range (hm [(0x40180, 0x401FF)] (by decide)) c d
  unfold Agg.applyGates
  (try dsimp only)
  (repeat' split) <;> (first | (simp (disch := first | assumption | (refine hq0 _ ?_ ?_ <;> omega) | (refine hq1 _ ?_ ?_ <;> omega) | (intros; simp (disch := first | assumption | (refine hq0 _ ?_ ?_ <;> omega) | (refine hq1 _ ?_ ?_ <;> omega)) [hb0, hb1, hb2, hb3, hb4, Nat.add_assoc])) [hb0, hb1, hb2, hb3, hb4, Nat.add_assoc]; done) | (simp (disch := first | assumption | (refine hq0 _ ?_ ?_ <;> omega) | (refine hq1 _ ?_ ?_ <;> omega) | (intros; simp (disch := first | assumption | (refine hq0 _ ?_ ?_ <;> omega) | (refine hq1 _ ?_ ?_ <;> omega)) [hb0, hb1, hb2, hb3, hb4, Nat.add_assoc])) [hb0, hb1, hb2, hb3, hb4, Nat.add_assoc]; split <;> simp))
@[simp] theorem Agg.gateStep_rget (g : Agg) (k_ : Nat) (h : Outside [(0x40040, 0x4007F), (0x40084, 0x40088), (0x400C0, 0x400C0), (0x40180, 0x401FF)] k_) : rget (Agg.gateStep g).regs k_ = rget g.regs k_ := by
  have hm := fun (m : List (Nat × Nat)) (c : coversR [(0x40040, 0x4007F), (0x40084, 0x40088), (0x400C0, 0x400C0), (0x40180, 0x401FF)] m = true) => Outside.mono h c
  have hb0 : Outside [(0x40040, 0x4007F), (0x40084, 0x40088), (0x400C0, 0x400C0), (0x40180, 0x401FF)] k_ := hm _ (by decide)
  have hb1 : Outside [(0x40084, 0x40084)] k_ := hm _ (by decide)
  unfold Agg.gateStep
  (repeat' split) <;> simp [hb0, hb1]
@[simp] theorem Agg.setUnknown_rget (g : Agg) (p : Nat) (k_ : Nat) (h : Outside [(0xD0004, 0xD0004), (0xD0044, 0xD0044)] k_) : rget (Agg.setUnknown g p).regs k_ = rget g.regs k_ := by
  have hm := fun (m : List (Nat × Nat)) (c : coversR [(0xD0004, 0xD0004), (0xD0044, 0xD0044)] m = true) => Outside.mono h c
  have hb0 : Outside [(0xD0004, 0xD0004)] k_ := hm _ (by decide)
  have hb1 : Outside [(0xD0044, 0xD0044)] k_ := hm _ (by decide)
  unfold Agg.setUnknown
  (repeat' split) <;> simp [hb0, hb1]
@[simp] theorem Agg.siMiss_rget (g : Agg) (p : Nat) (k_ : Nat) (h : Outside [(0xD0004, 0xD0004), (0xD0044, 0xD0044)] k_) : rget (Agg.siMiss g p).regs k_ = rget g.regs k_ := by
  have hm := fun (m : List (Nat × Nat)) (c : coversR [(0xD0004, 0xD0004), (0xD0044, 0xD0044)] m = true) => Outside.mono h c
  have hb0 : Outside [(0xD0004, 0xD0004), (0xD0044, 0xD0044)] k_ := hm _ (by decide)
  unfold Agg.siMiss
  (repeat' split) <;> simp [hb0]
@[simp] theorem Agg.siBeat_rget (g : Agg) (p : Nat) (m : List Byte) (k_ : Nat) (h : Outside [(0xD0004, 0xD0004), (0xD0044, 0xD0044)] k_) : rget (Agg.siBeat g p m).regs k_ = rget g.regs k_ := by
  have hm := fun (m : List (Nat × Nat)) (c : coversR [(0xD0004, 0xD0004), (0xD0044, 0xD0044)] m = true) => Outside.mono h c
  have hb0 : Outside [(0xD0004, 0xD0004), (0xD0044, 0xD0044)] k_ := hm _ (by decide)
  unfold Agg.siBeat
  (repeat' split) <;> simp [hb0]
@[simp] theorem Agg.safetyIn_rget (g : Agg) (p : Nat) (m : List Byte) (k_ : Nat) (h : Outside [(0xD0004, 0xD0004), (0xD0044, 0xD0044)] k_) : rget (Agg.safetyIn g p m).regs k_ = rget g.regs k_ := by
  have hm := fun (m : List (Nat × Nat)) (c : coversR [(0xD0004, 0xD0004), (0xD0044, 0xD0044)] m = true) => Outside.mono h c
  have hb0 : Outside [(0xD0004, 0xD0004), (0xD0044, 0xD0044)] k_ := hm _ (by decide)
  unfold Agg.safetyIn
  (repeat' split) <;> simp [hb0]
@[simp] theorem Agg.safetyMiss_rget (g : Agg) (p : Nat) (k_ : Nat) (h : Outside [(0x20000, 0x23FFF), (0xD0004, 0xD0004), (0xD0044, 0xD0044)] k_) : rget (Agg.safetyMiss g p).regs k_ = rget g.regs k_ := by
  have hm := fun (m : List (Nat × Nat)) (c : coversR [(0x20000, 0x23FFF), (0xD0004, 0xD0004), (0xD0044, 0xD0044)] m = true) => Outside.mono h c
  have hb0 : Outside [(0x20000, 0x23FFF)] k_ := hm _ (by decide)
  have hb1 : Outside [(0xD0004, 0xD0004), (0xD0044, 0xD0044)] k_ := hm _ (by decide)
  unfold Agg.safetyMiss
  (repeat' split) <;> simp [hb0, hb1, Nat.add_assoc]
@[simp] theorem Agg.safeRetire_rget (g : Agg) (p : Nat) (k_ : Nat) (h : Outside [(0xD0004, 0xD0004), (0xD0064, 0xD0064)] k_) : rget (Agg.safeRetire g p).regs k_ = rget g.regs k_ := by
  have hm := fun (m : List (Nat × Nat)) (c : coversR [(0xD0004, 0xD0004), (0xD0064, 0xD0064)] m = true) => Outside.mono h c
  have hb0 : Outside [(0xD0004, 0xD0004)] k_ := hm _ (by decide)
  have hb1 : Outside [(0xD0064, 0xD0064)] k_ := hm _ (by decide)
  unfold Agg.safeRetire
  (repeat' split) <;> simp [hb0, hb1]
@[simp] theorem Agg.evalAlarm_rget (g : Agg) (p : Nat) (k_ : Nat) (h : Outside [(0xD0004, 0xD0004), (0xD0040, 0xD0040)] k_) : rget (Agg.evalAlarm g p).regs k_ = rget g.regs k_ := by
  have hm := fun (m : List (Nat × Nat)) (c : coversR [(0xD0004, 0xD0004), (0xD0040, 0xD0040)] m = true) => Outside.mono h c
  have hb0 : Outside [(0xD0004, 0xD0004)] k_ := hm _ (by decide)
  have hb1 : Outside [(0xD0040, 0xD0040)] k_ := hm _ (by decide)
  unfold Agg.evalAlarm
  (repeat' split) <;> simp [hb0, hb1]
@[simp] theorem Agg.evalCoolant_rget (g : Agg) (k_ : Nat) (h : Outside [(0xD0004, 0xD0004), (0xD0048, 0xD0048)] k_) : rget (Agg.evalCoolant g).regs k_ = rget g.regs k_ := by
  have hm := fun (m : List (Nat × Nat)) (c : coversR [(0xD0004, 0xD0004), (0xD0048, 0xD0048)] m = true) => Outside.mono h c
  have hb0 : Outside [(0xD0004, 0xD0004)] k_ := hm _ (by decide)
  have hb1 : Outside [(0xD0048, 0xD0048)] k_ := hm _ (by decide)
  unfold Agg.evalCoolant
  (repeat' split) <;> simp [hb0, hb1]
@[simp] theorem Agg.siEvaluate_rget (g : Agg) (t0 : Int) (t1 : Int) (switches : Bool) (k_ : Nat) (h : Outside [(0xD0004, 0xD0004), (0xD0040, 0xD0040), (0xD0048, 0xD004C)] k_) : rget (Agg.siEvaluate g t0 t1 switches).regs k_ = rget g.regs k_ := by
  have hm := fun (m : List (Nat × Nat)) (c : coversR [(0xD0004, 0xD0004), (0xD0040, 0xD0040), (0xD0048, 0xD004C)] m = true) => Outside.mono h c
  have hb0 : Outside [(0xD0004, 0xD0004)] k_ := hm _ (by decide)
  have hb1 : Outside [(0xD0004, 0xD0004), (0xD0040, 0xD0040)] k_ := hm _ (by decide)
  have hb2 : Outside [(0xD0004, 0xD0004), (0xD0048, 0xD0048)] k_ := hm _ (by decide)
  have hb3 : Outside [(0xD004C, 0xD004C)] k_ := hm _ (by decide)
  unfold Agg.siEvaluate
  (repeat' split) <;> simp [hb0, hb1, hb2, hb3]
@[simp] theorem Agg.unknownTimeout_rget (g : Agg) (p : Nat) (k_ : Nat) (h : Outside [(0xD0004, 0xD0004), (0xD0044, 0xD0044)] k_) : rget (Agg.unknownTimeout g p).regs k_ = rget g.regs k_ := by
  have hm := fun (m : List (Nat × Nat)) (c : coversR [(0xD0004, 0xD0004), (0xD0044, 0xD0044)] m = true) => Outside.mono h c
  have hb0 : Outside [(0xD0004, 0xD0004)] k_ := hm _ (by decide)
  have hb1 : Outside [(0xD0044, 0xD0044)] k_ := hm _ (by decide)
  unfold Agg.unknownTimeout
  (repeat' split) <;> simp [hb0, hb1]
@[simp] theorem Agg.siSelfTest_rget (g : Agg) (memory : Bool) (config : Bool) (clock : Bool) (corrected : Bool) (t0 : Int) (t1 : Int) (k_ : Nat) (h : Outside [(0xD0004, 0xD0004), (0xD0050, 0xD0050)] k_) : rget (Agg.siSelfTest g memory config clock corrected t0 t1).regs k_ = rget g.regs k_ := by
  have hm := fun (m : List (Nat × Nat)) (c : coversR [(0xD0004, 0xD0004), (0xD0050, 0xD0050)] m = true) => Outside.mono h c
  have hb0 : Outside [(0xD0004, 0xD0004)] k_ := hm _ (by decide)
  have hb1 : Outside [(0xD0050, 0xD0050)] k_ := hm _ (by decide)
  unfold Agg.siSelfTest
  (repeat' split) <;> simp [hb0, hb1]
@[simp] theorem Agg.partnerSiLost_rget (g : Agg) (k_ : Nat) (h : Outside [(0xD0004, 0xD0004), (0xD005C, 0xD005C)] k_) : rget (Agg.partnerSiLost g).regs k_ = rget g.regs k_ := by
  have hm := fun (m : List (Nat × Nat)) (c : coversR [(0xD0004, 0xD0004), (0xD005C, 0xD005C)] m = true) => Outside.mono h c
  have hb0 : Outside [(0xD0004, 0xD0004)] k_ := hm _ (by decide)
  have hb1 : Outside [(0xD005C, 0xD005C)] k_ := hm _ (by decide)
  unfold Agg.partnerSiLost
  (repeat' split) <;> simp [hb0, hb1]
@[simp] theorem Agg.skimSafetyIn_rget (g : Agg) (k : Nat) (m : List Byte) (k_ : Nat) (h : Outside [(0xD0004, 0xD0004), (0xD005C, 0xD005C)] k_) : rget (Agg.skimSafetyIn g k m).regs k_ = rget g.regs k_ := by
  have hm := fun (m : List (Nat × Nat)) (c : coversR [(0xD0004, 0xD0004), (0xD005C, 0xD005C)] m = true) => Outside.mono h c
  have hb0 : Outside [(0xD0004, 0xD0004), (0xD005C, 0xD005C)] k_ := hm _ (by decide)
  unfold Agg.skimSafetyIn
  (repeat' split) <;> simp [hb0]
@[simp] theorem Agg.skimSafetyMiss_rget (g : Agg) (k : Nat) (k_ : Nat) (h : Outside [(0x30000, 0x31FFF), (0xD0004, 0xD0004), (0xD005C, 0xD005C)] k_) : rget (Agg.skimSafetyMiss g k).regs k_ = rget g.regs k_ := by
  have hm := fun (m : List (Nat × Nat)) (c : coversR [(0x30000, 0x31FFF), (0xD0004, 0xD0004), (0xD005C, 0xD005C)] m = true) => Outside.mono h c
  have hb0 : Outside [(0x30000, 0x31FFF)] k_ := hm _ (by decide)
  have hb1 : Outside [(0xD0004, 0xD0004), (0xD005C, 0xD005C)] k_ := hm _ (by decide)
  unfold Agg.skimSafetyMiss
  (repeat' split) <;> simp [hb0, hb1, Nat.add_assoc]
@[simp] theorem Agg.answerAsk_rget (r : Nat) (d : Option SkimUpDown) (g : Agg) (q : SkimAsk) (k_ : Nat) (h : Outside [(0x43000, 0x431FF), (0x90000, 0x90000), (0x90040, 0x90040), (0xB0000, 0xB01FF)] k_) : rget (Agg.answerAsk r d g q).regs k_ = rget g.regs k_ := by
  have hm := fun (m : List (Nat × Nat)) (c : coversR [(0x43000, 0x431FF), (0x90000, 0x90000), (0x90040, 0x90040), (0xB0000, 0xB01FF)] m = true) => Outside.mono h c
  have hb0 : Outside [(0x43000, 0x431FF), (0x90000, 0x90000), (0x90040, 0x90040), (0xB0000, 0xB01FF)] k_ := hm _ (by decide)
  unfold Agg.answerAsk
  (try dsimp only) <;> (repeat' split) <;> simp [hb0]
@[simp] theorem Agg.finishRound_rget (g : Agg) (r : Nat) (d : Option SkimUpDown) (k_ : Nat) (h : Outside [(0x43000, 0x431FF), (0x50008, 0x5000C), (0x90000, 0x90000), (0x90040, 0x90040), (0xB0000, 0xB01FF)] k_) : rget (Agg.finishRound g r d).regs k_ = rget g.regs k_ := by
  have hm := fun (m : List (Nat × Nat)) (c : coversR [(0x43000, 0x431FF), (0x50008, 0x5000C), (0x90000, 0x90000), (0x90040, 0x90040), (0xB0000, 0xB01FF)] m = true) => Outside.mono h c
  have hb0 : Outside [(0x50008, 0x50008)] k_ := hm _ (by decide)
  have hb1 : Outside [(0x5000C, 0x5000C)] k_ := hm _ (by decide)
  have hb2 : Outside [(0x43000, 0x431FF), (0x90000, 0x90000), (0x90040, 0x90040), (0xB0000, 0xB01FF)] k_ := hm _ (by decide)
  unfold Agg.finishRound
  (repeat' split) <;> simp [hb0, hb1, hb2]
@[simp] theorem Agg.discardRound_rget (g : Agg) (r : Nat) (k_ : Nat) (h : Outside [(0x43000, 0x431FF), (0x50000, 0x50000), (0x50008, 0x5000C), (0x50044, 0x50044), (0x90000, 0x90000), (0x90040, 0x90040), (0xB0000, 0xB01FF)] k_) : rget (Agg.discardRound g r).regs k_ = rget g.regs k_ := by
  have hm := fun (m : List (Nat × Nat)) (c : coversR [(0x43000, 0x431FF), (0x50000, 0x50000), (0x50008, 0x5000C), (0x50044, 0x50044), (0x90000, 0x90000), (0x90040, 0x90040), (0xB0000, 0xB01FF)] m = true) => Outside.mono h c
  have hb0 : Outside [(0x50000, 0x50000)] k_ := hm _ (by decide)
  have hb1 : Outside [(0x50008, 0x5000C)] k_ := hm _ (by decide)
  have hb2 : Outside [(0x50044, 0x50044)] k_ := hm _ (by decide)
  have hb3 : Outside [(0x43000, 0x431FF), (0x50008, 0x5000C), (0x90000, 0x90000), (0x90040, 0x90040), (0xB0000, 0xB01FF)] k_ := hm _ (by decide)
  unfold Agg.discardRound
  (repeat' split) <;> simp [hb0, hb1, hb2, hb3]
@[simp] theorem Agg.useDown_rget (g : Agg) (r : Nat) (m : SkimUpDown) (k_ : Nat) (h : Outside [(0x43000, 0x431FF), (0x50000, 0x50000), (0x50008, 0x5000C), (0x50040, 0x50040), (0x90000, 0x90000), (0x90040, 0x90040), (0xB0000, 0xB01FF)] k_) : rget (Agg.useDown g r m).regs k_ = rget g.regs k_ := by
  have hm := fun (m : List (Nat × Nat)) (c : coversR [(0x43000, 0x431FF), (0x50000, 0x50000), (0x50008, 0x5000C), (0x50040, 0x50040), (0x90000, 0x90000), (0x90040, 0x90040), (0xB0000, 0xB01FF)] m = true) => Outside.mono h c
  have hb0 : Outside [(0x50000, 0x50000)] k_ := hm _ (by decide)
  have hb1 : Outside [(0x50008, 0x5000C)] k_ := hm _ (by decide)
  have hb2 : Outside [(0x50040, 0x50040)] k_ := hm _ (by decide)
  have hb3 : Outside [(0x43000, 0x431FF), (0x50008, 0x5000C), (0x90000, 0x90000), (0x90040, 0x90040), (0xB0000, 0xB01FF)] k_ := hm _ (by decide)
  unfold Agg.useDown
  (repeat' split) <;> simp [hb0, hb1, hb2, hb3]
@[simp] theorem Agg.dropOldest_rget (g : Agg) (k_ : Nat) (h : Outside [(0x43000, 0x431FF), (0x50000, 0x50000), (0x50008, 0x5000C), (0x50044, 0x50044), (0x90000, 0x90000), (0x90040, 0x90040), (0xB0000, 0xB01FF)] k_) : rget (Agg.dropOldest g).regs k_ = rget g.regs k_ := by
  have hm := fun (m : List (Nat × Nat)) (c : coversR [(0x43000, 0x431FF), (0x50000, 0x50000), (0x50008, 0x5000C), (0x50044, 0x50044), (0x90000, 0x90000), (0x90040, 0x90040), (0xB0000, 0xB01FF)] m = true) => Outside.mono h c
  have hb0 : Outside [(0x50000, 0x50000), (0x50008, 0x5000C), (0x50044, 0x50044)] k_ := hm _ (by decide)
  have hb1 : Outside [(0x43000, 0x431FF), (0x50000, 0x50000), (0x50008, 0x5000C), (0x50044, 0x50044), (0x90000, 0x90000), (0x90040, 0x90040), (0xB0000, 0xB01FF)] k_ := hm _ (by decide)
  unfold Agg.dropOldest
  (repeat' split) <;> simp [hb0, hb1]
@[simp] theorem Agg.roundClose_rget (g : Agg) (k_ : Nat) (h : Outside [(0x43000, 0x431FF), (0x50000, 0x50000), (0x50008, 0x5000C), (0x50044, 0x50044), (0x90000, 0x90000), (0x90040, 0x90040), (0xB0000, 0xB01FF)] k_) : rget (Agg.roundClose g).regs k_ = rget g.regs k_ := by
  have hm := fun (m : List (Nat × Nat)) (c : coversR [(0x43000, 0x431FF), (0x50000, 0x50000), (0x50008, 0x5000C), (0x50044, 0x50044), (0x90000, 0x90000), (0x90040, 0x90040), (0xB0000, 0xB01FF)] m = true) => Outside.mono h c
  have hb0 : Outside [(0x50000, 0x50000), (0x50008, 0x5000C), (0x50044, 0x50044)] k_ := hm _ (by decide)
  have hb1 : Outside [(0x43000, 0x431FF), (0x50000, 0x50000), (0x50008, 0x5000C), (0x50044, 0x50044), (0x90000, 0x90000), (0x90040, 0x90040), (0xB0000, 0xB01FF)] k_ := hm _ (by decide)
  unfold Agg.roundClose
  (try dsimp only)
  (repeat' split) <;> simp [hb0, hb1]
@[simp] theorem Agg.skimMerge_rget (g : Agg) (r : Nat) (k_ : Nat) (h : Outside [(0x50000, 0x50000), (0x5004C, 0x5004C), (0x5005C, 0x5005C)] k_) : rget (Agg.skimMerge g r).regs k_ = rget g.regs k_ := by
  have hm := fun (m : List (Nat × Nat)) (c : coversR [(0x50000, 0x50000), (0x5004C, 0x5004C), (0x5005C, 0x5005C)] m = true) => Outside.mono h c
  have hb0 : Outside [(0x50000, 0x50000)] k_ := hm _ (by decide)
  have hb1 : Outside [(0x5004C, 0x5004C)] k_ := hm _ (by decide)
  have hb2 : Outside [(0x5005C, 0x5005C)] k_ := hm _ (by decide)
  unfold Agg.skimMerge
  (repeat' split) <;> simp [hb0, hb1, hb2]
@[simp] theorem Agg.skimUpReceive_rget (g : Agg) (k : Nat) (bytes : List Byte) (k_ : Nat) (h : Outside [(0x50000, 0x50000), (0x50048, 0x50048), (0x50050, 0x50050)] k_) : rget (Agg.skimUpReceive g k bytes).regs k_ = rget g.regs k_ := by
  have hm := fun (m : List (Nat × Nat)) (c : coversR [(0x50000, 0x50000), (0x50048, 0x50048), (0x50050, 0x50050)] m = true) => Outside.mono h c
  have hb0 : Outside [(0x50000, 0x50000)] k_ := hm _ (by decide)
  have hb1 : Outside [(0x50048, 0x50048)] k_ := hm _ (by decide)
  have hb2 : Outside [(0x50050, 0x50050)] k_ := hm _ (by decide)
  unfold Agg.skimUpReceive
  (repeat' split) <;> simp [hb0, hb1, hb2]
@[simp] theorem Agg.rootDecide_rget (g : Agg) (r : Nat) (k_ : Nat) (h : Outside [(0x43000, 0x431FF), (0x50000, 0x50000), (0x50008, 0x5000C), (0x50044, 0x50044), (0x90000, 0x90000), (0x90040, 0x90040), (0xB0000, 0xB01FF)] k_) : rget (Agg.rootDecide g r).regs k_ = rget g.regs k_ := by
  have hm := fun (m : List (Nat × Nat)) (c : coversR [(0x43000, 0x431FF), (0x50000, 0x50000), (0x50008, 0x5000C), (0x50044, 0x50044), (0x90000, 0x90000), (0x90040, 0x90040), (0xB0000, 0xB01FF)] m = true) => Outside.mono h c
  have hb0 : Outside [(0x50000, 0x50000), (0x50008, 0x5000C), (0x50044, 0x50044)] k_ := hm _ (by decide)
  have hb1 : Outside [(0x43000, 0x431FF), (0x50000, 0x50000), (0x50008, 0x5000C), (0x50044, 0x50044), (0x90000, 0x90000), (0x90040, 0x90040), (0xB0000, 0xB01FF)] k_ := hm _ (by decide)
  unfold Agg.rootDecide
  (repeat' split) <;> simp [hb0, hb1]
@[simp] theorem Agg.pairChoose_rget (g : Agg) (r : Nat) (k_ : Nat) (h : Outside [(0x43000, 0x431FF), (0x50000, 0x50000), (0x50008, 0x5000C), (0x50040, 0x50040), (0x90000, 0x90000), (0x90040, 0x90040), (0xB0000, 0xB01FF)] k_) : rget (Agg.pairChoose g r).regs k_ = rget g.regs k_ := by
  have hm := fun (m : List (Nat × Nat)) (c : coversR [(0x43000, 0x431FF), (0x50000, 0x50000), (0x50008, 0x5000C), (0x50040, 0x50040), (0x90000, 0x90000), (0x90040, 0x90040), (0xB0000, 0xB01FF)] m = true) => Outside.mono h c
  have hb0 : Outside [(0x50000, 0x50000), (0x50008, 0x5000C), (0x50040, 0x50040)] k_ := hm _ (by decide)
  have hb1 : Outside [(0x43000, 0x431FF), (0x50000, 0x50000), (0x50008, 0x5000C), (0x50040, 0x50040), (0x90000, 0x90000), (0x90040, 0x90040), (0xB0000, 0xB01FF)] k_ := hm _ (by decide)
  unfold Agg.pairChoose
  (try dsimp only)
  (repeat' split) <;> simp [hb0, hb1]
@[simp] theorem Agg.downUse_rget (g : Agg) (r : Nat) (said : Option (Nat × Nat)) (k_ : Nat) (h : Outside [(0x43000, 0x431FF), (0x50000, 0x50000), (0x50008, 0x5000C), (0x50040, 0x50040), (0x90000, 0x90000), (0x90040, 0x90040), (0xB0000, 0xB01FF)] k_) : rget (Agg.downUse g r said).regs k_ = rget g.regs k_ := by
  have hm := fun (m : List (Nat × Nat)) (c : coversR [(0x43000, 0x431FF), (0x50000, 0x50000), (0x50008, 0x5000C), (0x50040, 0x50040), (0x90000, 0x90000), (0x90040, 0x90040), (0xB0000, 0xB01FF)] m = true) => Outside.mono h c
  have hb0 : Outside [(0x50000, 0x50000), (0x50008, 0x5000C), (0x50040, 0x50040)] k_ := hm _ (by decide)
  have hb1 : Outside [(0x43000, 0x431FF), (0x50000, 0x50000), (0x50008, 0x5000C), (0x50040, 0x50040), (0x90000, 0x90000), (0x90040, 0x90040), (0xB0000, 0xB01FF)] k_ := hm _ (by decide)
  unfold Agg.downUse
  (repeat' split) <;> simp [hb0, hb1]
@[simp] theorem Agg.downReceive_rget (g : Agg) (k : Nat) (partner : Bool) (bytes : List Byte) (k_ : Nat) (h : Outside [(0x43000, 0x431FF), (0x50000, 0x50000), (0x50008, 0x5000C), (0x50040, 0x50040), (0x90000, 0x90000), (0x90040, 0x90040), (0xB0000, 0xB01FF)] k_) : rget (Agg.downReceive g k partner bytes).regs k_ = rget g.regs k_ := by
  have hm := fun (m : List (Nat × Nat)) (c : coversR [(0x43000, 0x431FF), (0x50000, 0x50000), (0x50008, 0x5000C), (0x50040, 0x50040), (0x90000, 0x90000), (0x90040, 0x90040), (0xB0000, 0xB01FF)] m = true) => Outside.mono h c
  have hb0 : Outside [(0x50000, 0x50000), (0x50008, 0x5000C), (0x50040, 0x50040)] k_ := hm _ (by decide)
  have hb1 : Outside [(0x43000, 0x431FF), (0x50000, 0x50000), (0x50008, 0x5000C), (0x50040, 0x50040), (0x90000, 0x90000), (0x90040, 0x90040), (0xB0000, 0xB01FF)] k_ := hm _ (by decide)
  unfold Agg.downReceive
  (repeat' split) <;> simp [hb0, hb1]
@[simp] theorem Agg.abortReceive_rget (g : Agg) (bytes : List Byte) (k_ : Nat) (h : Outside [(0x43000, 0x431FF), (0x50000, 0x50000), (0x50008, 0x5000C), (0x50044, 0x50044), (0x90000, 0x90000), (0x90040, 0x90040), (0xB0000, 0xB01FF)] k_) : rget (Agg.abortReceive g bytes).regs k_ = rget g.regs k_ := by
  have hm := fun (m : List (Nat × Nat)) (c : coversR [(0x43000, 0x431FF), (0x50000, 0x50000), (0x50008, 0x5000C), (0x50044, 0x50044), (0x90000, 0x90000), (0x90040, 0x90040), (0xB0000, 0xB01FF)] m = true) => Outside.mono h c
  have hb0 : Outside [(0x50000, 0x50000), (0x50008, 0x5000C), (0x50044, 0x50044)] k_ := hm _ (by decide)
  have hb1 : Outside [(0x43000, 0x431FF), (0x50000, 0x50000), (0x50008, 0x5000C), (0x50044, 0x50044), (0x90000, 0x90000), (0x90040, 0x90040), (0xB0000, 0xB01FF)] k_ := hm _ (by decide)
  unfold Agg.abortReceive
  (try dsimp only)
  (repeat' split) <;> simp [hb0, hb1]
@[simp] theorem Agg.roundTimeout_rget (g : Agg) (r : Nat) (k_ : Nat) (h : Outside [(0x43000, 0x431FF), (0x50000, 0x50000), (0x50008, 0x5000C), (0x50044, 0x50044), (0x90000, 0x90000), (0x90040, 0x90040), (0xB0000, 0xB01FF)] k_) : rget (Agg.roundTimeout g r).regs k_ = rget g.regs k_ := by
  have hm := fun (m : List (Nat × Nat)) (c : coversR [(0x43000, 0x431FF), (0x50000, 0x50000), (0x50008, 0x5000C), (0x50044, 0x50044), (0x90000, 0x90000), (0x90040, 0x90040), (0xB0000, 0xB01FF)] m = true) => Outside.mono h c
  have hb0 : Outside [(0x50000, 0x50000), (0x50008, 0x5000C), (0x50044, 0x50044)] k_ := hm _ (by decide)
  have hb1 : Outside [(0x43000, 0x431FF), (0x50000, 0x50000), (0x50008, 0x5000C), (0x50044, 0x50044), (0x90000, 0x90000), (0x90040, 0x90040), (0xB0000, 0xB01FF)] k_ := hm _ (by decide)
  unfold Agg.roundTimeout
  (repeat' split) <;> simp [hb0, hb1]
@[simp] theorem Agg.joinReceive_rget (g : Agg) (k : Nat) (depth : Nat) (height : Nat) (k_ : Nat) (h : Outside [(0x50000, 0x50000), (0x50058, 0x50058)] k_) : rget (Agg.joinReceive g k depth height).regs k_ = rget g.regs k_ := by
  have hm := fun (m : List (Nat × Nat)) (c : coversR [(0x50000, 0x50000), (0x50058, 0x50058)] m = true) => Outside.mono h c
  have hb0 : Outside [(0x50000, 0x50000)] k_ := hm _ (by decide)
  have hb1 : Outside [(0x50058, 0x50058)] k_ := hm _ (by decide)
  unfold Agg.joinReceive
  (repeat' split) <;> simp [hb0, hb1]
@[simp] theorem Agg.joinReply_rget (g : Agg) (k : Nat) (ack : Bool) (k_ : Nat) (h : Outside [(0x50000, 0x50000), (0x50054, 0x50058)] k_) : rget (Agg.joinReply g k ack).regs k_ = rget g.regs k_ := by
  have hm := fun (m : List (Nat × Nat)) (c : coversR [(0x50000, 0x50000), (0x50054, 0x50058)] m = true) => Outside.mono h c
  have hb0 : Outside [(0x50000, 0x50000)] k_ := hm _ (by decide)
  have hb1 : Outside [(0x50054, 0x50054)] k_ := hm _ (by decide)
  have hb2 : Outside [(0x50058, 0x50058)] k_ := hm _ (by decide)
  unfold Agg.joinReply
  (repeat' split) <;> simp [hb0, hb1, hb2]
@[simp] theorem Agg.adoptReply_rget (g : Agg) (k : Nat) (ack : Bool) (depth : Nat) (k_ : Nat) (h : Outside [(0x50000, 0x50000), (0x50054, 0x50058)] k_) : rget (Agg.adoptReply g k ack depth).regs k_ = rget g.regs k_ := by
  have hm := fun (m : List (Nat × Nat)) (c : coversR [(0x50000, 0x50000), (0x50054, 0x50058)] m = true) => Outside.mono h c
  have hb0 : Outside [(0x50000, 0x50000)] k_ := hm _ (by decide)
  have hb1 : Outside [(0x50054, 0x50054)] k_ := hm _ (by decide)
  have hb2 : Outside [(0x50058, 0x50058)] k_ := hm _ (by decide)
  unfold Agg.adoptReply
  (repeat' split) <;> simp [hb0, hb1, hb2]
@[simp] theorem Agg.setMetrics_rget (g : Agg) (c : Caller) (setId : Nat) (act : Nat) (count : Nat) (addr : Nat) (k_ : Nat) (h : Outside [(0x43000, 0x431FF), (0x90000, 0x90000), (0x90040, 0x90040), (0xB0000, 0xB01FF)] k_) : rget (Agg.setMetrics g c setId act count addr).regs k_ = rget g.regs k_ := by
  have hm := fun (m : List (Nat × Nat)) (c : coversR [(0x43000, 0x431FF), (0x90000, 0x90000), (0x90040, 0x90040), (0xB0000, 0xB01FF)] m = true) => Outside.mono h c
  have hb0 : Outside [(0x43000, 0x431FF), (0x90000, 0x90000), (0x90040, 0x90040), (0xB0000, 0xB01FF)] k_ := hm _ (by decide)
  unfold Agg.setMetrics
  (repeat' split) <;> simp [hb0]
@[simp] theorem Agg.treeConfigure_rget (g : Agg) (c : Caller) (a : TreeArgs) (k_ : Nat) (h : Outside [(0x43000, 0x431FF), (0x90000, 0x90000), (0x90040, 0x90040), (0xB0000, 0xB01FF)] k_) : rget (Agg.treeConfigure g c a).regs k_ = rget g.regs k_ := by
  have hm := fun (m : List (Nat × Nat)) (c : coversR [(0x43000, 0x431FF), (0x90000, 0x90000), (0x90040, 0x90040), (0xB0000, 0xB01FF)] m = true) => Outside.mono h c
  have hb0 : Outside [(0x43000, 0x431FF), (0x90000, 0x90000), (0x90040, 0x90040), (0xB0000, 0xB01FF)] k_ := hm _ (by decide)
  unfold Agg.treeConfigure
  (repeat' split) <;> simp [hb0]
@[simp] theorem Agg.treeReturn_rget (g : Agg) (c : Caller) (k_ : Nat) (h : Outside [(0x43000, 0x431FF), (0x90000, 0x90000), (0x90040, 0x90040), (0xB0000, 0xB01FF)] k_) : rget (Agg.treeReturn g c).regs k_ = rget g.regs k_ := by
  have hm := fun (m : List (Nat × Nat)) (c : coversR [(0x43000, 0x431FF), (0x90000, 0x90000), (0x90040, 0x90040), (0xB0000, 0xB01FF)] m = true) => Outside.mono h c
  have hb0 : Outside [(0x43000, 0x431FF), (0x90000, 0x90000), (0x90040, 0x90040), (0xB0000, 0xB01FF)] k_ := hm _ (by decide)
  unfold Agg.treeReturn
  (repeat' split) <;> simp [hb0]
@[simp] theorem Agg.treeDissolve_rget (g : Agg) (c : Caller) (act : Nat) (k_ : Nat) (h : Outside [(0x43000, 0x431FF), (0x90000, 0x90000), (0x90040, 0x90040), (0xB0000, 0xB01FF)] k_) : rget (Agg.treeDissolve g c act).regs k_ = rget g.regs k_ := by
  have hm := fun (m : List (Nat × Nat)) (c : coversR [(0x43000, 0x431FF), (0x90000, 0x90000), (0x90040, 0x90040), (0xB0000, 0xB01FF)] m = true) => Outside.mono h c
  have hb0 : Outside [(0x43000, 0x431FF), (0x90000, 0x90000), (0x90040, 0x90040), (0xB0000, 0xB01FF)] k_ := hm _ (by decide)
  unfold Agg.treeDissolve
  (repeat' split) <;> simp [hb0]
@[simp] theorem Agg.skimStatus_rget (g : Agg) (c : Caller) (r : Nat) (dst : Nat) (k_ : Nat) (h : Outside [(0x43000, 0x431FF), (0x90000, 0x90000), (0x90040, 0x90040), (0xB0000, 0xB01FF)] k_) : rget (Agg.skimStatus g c r dst).regs k_ = rget g.regs k_ := by
  have hm := fun (m : List (Nat × Nat)) (c : coversR [(0x43000, 0x431FF), (0x90000, 0x90000), (0x90040, 0x90040), (0xB0000, 0xB01FF)] m = true) => Outside.mono h c
  have hb0 : Outside [(0x43000, 0x431FF), (0x90000, 0x90000), (0x90040, 0x90040), (0xB0000, 0xB01FF)] k_ := hm _ (by decide)
  unfold Agg.skimStatus
  (try dsimp only)
  (repeat' split) <;> simp [hb0]
@[simp] theorem Agg.showDust_rget (g : Agg) (w : Nat) (k_ : Nat) (h : Outside [(0x80010, 0x8001C)] k_) : rget (Agg.showDust g w).regs k_ = rget g.regs k_ := by
  have hm := fun (m : List (Nat × Nat)) (c : coversR [(0x80010, 0x8001C)] m = true) => Outside.mono h c
  have hb0 : Outside [(0x80010, 0x80010)] k_ := hm _ (by decide)
  have hb1 : Outside [(0x80014, 0x80014)] k_ := hm _ (by decide)
  have hb2 : Outside [(0x80018, 0x80018)] k_ := hm _ (by decide)
  have hb3 : Outside [(0x8001C, 0x8001C)] k_ := hm _ (by decide)
  unfold Agg.showDust
  (repeat' split) <;> simp [hb0, hb1, hb2, hb3]
@[simp] theorem Agg.dustRound_rget (g : Agg) (x : Round) (k_ : Nat) (h : Outside [(0x80000, 0x80000), (0x80010, 0x8001C), (0x80060, 0x80060)] k_) : rget (Agg.dustRound g x).regs k_ = rget g.regs k_ := by
  have hm := fun (m : List (Nat × Nat)) (c : coversR [(0x80000, 0x80000), (0x80010, 0x8001C), (0x80060, 0x80060)] m = true) => Outside.mono h c
  have hb0 : Outside [(0x80000, 0x80000)] k_ := hm _ (by decide)
  have hb1 : Outside [(0x80010, 0x8001C)] k_ := hm _ (by decide)
  have hb2 : Outside [(0x80060, 0x80060)] k_ := hm _ (by decide)
  unfold Agg.dustRound
  (repeat' split) <;> simp [hb0, hb1, hb2]
@[simp] theorem Agg.recommend_rget (g : Agg) (n : Nat) (close : Nat) (l : Level) (late : Bool) (p : PlacedV) (k_ : Nat) (h : Outside [(0x80000, 0x80000), (0x8005C, 0x8005C)] k_) : rget (Agg.recommend g n close l late p).1.regs k_ = rget g.regs k_ := by
  have hm := fun (m : List (Nat × Nat)) (c : coversR [(0x80000, 0x80000), (0x8005C, 0x8005C)] m = true) => Outside.mono h c
  have hb0 : Outside [(0x80000, 0x80000)] k_ := hm _ (by decide)
  have hb1 : Outside [(0x8005C, 0x8005C)] k_ := hm _ (by decide)
  unfold Agg.recommend
  (try dsimp only)
  (repeat' split) <;> simp [hb0, hb1]
@[simp] theorem Agg.settleRound_rget (g : Agg) (n : Nat) (r : Nat) (k_ : Nat) (h : Outside [(0x80000, 0x80000), (0x80010, 0x8001C), (0x8005C, 0x8005C)] k_) : rget (Agg.settleRound g n r).regs k_ = rget g.regs k_ := by
  have hm := fun (m : List (Nat × Nat)) (c : coversR [(0x80000, 0x80000), (0x80010, 0x8001C), (0x8005C, 0x8005C)] m = true) => Outside.mono h c
  have hb0 : Outside [(0x80000, 0x80000), (0x8005C, 0x8005C)] k_ := hm _ (by decide)
  have hb1 : Outside [(0x80010, 0x8001C)] k_ := hm _ (by decide)
  unfold Agg.settleRound
  (repeat' split) <;> simp [hb0, hb1]
@[simp] theorem Agg.settleUnchecked_rget (g : Agg) (n : Nat) (r : Nat) (k_ : Nat) (h : Outside [(0x80000, 0x80000), (0x80010, 0x8001C), (0x8005C, 0x8005C)] k_) : rget (Agg.settleUnchecked g n r).regs k_ = rget g.regs k_ := by
  have hm := fun (m : List (Nat × Nat)) (c : coversR [(0x80000, 0x80000), (0x80010, 0x8001C), (0x8005C, 0x8005C)] m = true) => Outside.mono h c
  have hb0 : Outside [(0x80000, 0x80000), (0x80010, 0x8001C), (0x8005C, 0x8005C)] k_ := hm _ (by decide)
  unfold Agg.settleUnchecked
  (repeat' split) <;> simp [hb0]
@[simp] theorem Agg.placeDie_rget (n : Nat) (x : Round) (l : Level) (acc : Agg × List PlacedV × SMap Nat) (d : DieWin) (k_ : Nat) (h : Outside [(0x80000, 0x80000), (0x80058, 0x80058)] k_) : rget (Agg.placeDie n x l acc d).1.regs k_ = rget acc.1.regs k_ := by
  have hm := fun (m : List (Nat × Nat)) (c : coversR [(0x80000, 0x80000), (0x80058, 0x80058)] m = true) => Outside.mono h c
  have hb0 : Outside [(0x80000, 0x80000)] k_ := hm _ (by decide)
  have hb1 : Outside [(0x80058, 0x80058)] k_ := hm _ (by decide)
  unfold Agg.placeDie
  dsimp only
  (repeat' split) <;> simp [hb0, hb1, levelFlag]
@[simp] theorem Agg.placeWins_rget (g : Agg) (x : Round) (n : Nat) (ws : List Nat) (tallies : SMap Nat) (k_ : Nat) (h : Outside [(0x80000, 0x80000), (0x80058, 0x80058)] k_) : rget (Agg.placeWins g x n ws tallies).1.regs k_ = rget g.regs k_ := by
  have hm := fun (m : List (Nat × Nat)) (c : coversR [(0x80000, 0x80000), (0x80058, 0x80058)] m = true) => Outside.mono h c
  have hb0 : Outside [(0x80000, 0x80000), (0x80058, 0x80058)] k_ := hm _ (by decide)
  unfold Agg.placeWins
  (try dsimp only) <;> (repeat' split) <;> simp [hb0]
@[simp] theorem Agg.placeJob_rget (g : Agg) (x : Round) (n : Nat) (tallies : SMap Nat) (k_ : Nat) (h : Outside [(0x80000, 0x80000), (0x80058, 0x80058)] k_) : rget (Agg.placeJob g x n tallies).1.regs k_ = rget g.regs k_ := by
  have hm := fun (m : List (Nat × Nat)) (c : coversR [(0x80000, 0x80000), (0x80058, 0x80058)] m = true) => Outside.mono h c
  have hb0 : Outside [(0x80000, 0x80000), (0x80058, 0x80058)] k_ := hm _ (by decide)
  unfold Agg.placeJob
  (try dsimp only)
  (repeat' split) <;> simp [hb0]
@[simp] theorem Agg.endDispute_rget (g : Agg) (n : Nat) (r : Nat) (k_ : Nat) (h : Outside [(0x80000, 0x80000), (0x80010, 0x8001C), (0x8005C, 0x8005C)] k_) : rget (Agg.endDispute g n r).regs k_ = rget g.regs k_ := by
  have hm := fun (m : List (Nat × Nat)) (c : coversR [(0x80000, 0x80000), (0x80010, 0x8001C), (0x8005C, 0x8005C)] m = true) => Outside.mono h c
  have hb0 : Outside [(0x80000, 0x80000), (0x80010, 0x8001C), (0x8005C, 0x8005C)] k_ := hm _ (by decide)
  unfold Agg.endDispute
  (repeat' split) <;> simp [hb0]
@[simp] theorem Agg.contest_rget (g : Agg) (n : Nat) (r : Nat) (ts : List Nat) (outcome : Nat) (k_ : Nat) (h : Outside [(0x80000, 0x80000), (0x8002C, 0x8002C), (0x80044, 0x80044)] k_) : rget (Agg.contest g n r ts outcome).regs k_ = rget g.regs k_ := by
  have hm := fun (m : List (Nat × Nat)) (c : coversR [(0x80000, 0x80000), (0x8002C, 0x8002C), (0x80044, 0x80044)] m = true) => Outside.mono h c
  have hb0 : Outside [(0x80000, 0x80000)] k_ := hm _ (by decide)
  have hb1 : Outside [(0x8002C, 0x8002C)] k_ := hm _ (by decide)
  have hb2 : Outside [(0x80044, 0x80044)] k_ := hm _ (by decide)
  unfold Agg.contest
  (repeat' split) <;> simp [hb0, hb1, hb2]
@[simp] theorem Agg.contestOpen_rget (g : Agg) (n : Nat) (r : Nat) (k_ : Nat) (h : Outside [(0x80000, 0x80000), (0x80010, 0x8001C), (0x8002C, 0x8002C), (0x80044, 0x80044), (0x8005C, 0x8005C)] k_) : rget (Agg.contestOpen g n r).regs k_ = rget g.regs k_ := by
  have hm := fun (m : List (Nat × Nat)) (c : coversR [(0x80000, 0x80000), (0x80010, 0x8001C), (0x8002C, 0x8002C), (0x80044, 0x80044), (0x8005C, 0x8005C)] m = true) => Outside.mono h c
  have hb0 : Outside [(0x80000, 0x80000), (0x80010, 0x8001C), (0x8005C, 0x8005C)] k_ := hm _ (by decide)
  have hb1 : Outside [(0x80000, 0x80000), (0x8002C, 0x8002C), (0x80044, 0x80044)] k_ := hm _ (by decide)
  unfold Agg.contestOpen
  (repeat' split) <;> simp [hb0, hb1]
@[simp] theorem Agg.wrongSide_rget (g : Agg) (n : Nat) (r : Nat) (mine : Bool) (k_ : Nat) (h : Outside [(0x80000, 0x80000), (0x80010, 0x8001C), (0x80048, 0x80048), (0x8005C, 0x8005C)] k_) : rget (Agg.wrongSide g n r mine).regs k_ = rget g.regs k_ := by
  have hm := fun (m : List (Nat × Nat)) (c : coversR [(0x80000, 0x80000), (0x80010, 0x8001C), (0x80048, 0x80048), (0x8005C, 0x8005C)] m = true) => Outside.mono h c
  have hb0 : Outside [(0x80000, 0x80000)] k_ := hm _ (by decide)
  have hb1 : Outside [(0x80000, 0x80000), (0x80010, 0x8001C), (0x8005C, 0x8005C)] k_ := hm _ (by decide)
  have hb2 : Outside [(0x80048, 0x80048)] k_ := hm _ (by decide)
  unfold Agg.wrongSide
  (repeat' split) <;> simp [hb0, hb1, hb2]
@[simp] theorem Agg.stepTwo_rget (g : Agg) (n : Nat) (r : Nat) (k_ : Nat) (h : Outside [(0x80000, 0x80000), (0x80010, 0x8001C), (0x8005C, 0x8005C)] k_) : rget (Agg.stepTwo g n r).regs k_ = rget g.regs k_ := by
  have hm := fun (m : List (Nat × Nat)) (c : coversR [(0x80000, 0x80000), (0x80010, 0x8001C), (0x8005C, 0x8005C)] m = true) => Outside.mono h c
  have hb0 : Outside [(0x80000, 0x80000), (0x80010, 0x8001C), (0x8005C, 0x8005C)] k_ := hm _ (by decide)
  unfold Agg.stepTwo
  (repeat' split) <;> simp [hb0]
@[simp] theorem Agg.stepOne_rget (g : Agg) (n : Nat) (r : Nat) (m : List Byte) (k_ : Nat) (h : Outside [(0x80000, 0x80000), (0x80010, 0x8001C), (0x8002C, 0x8002C), (0x80044, 0x8004C), (0x8005C, 0x8005C)] k_) : rget (Agg.stepOne g n r m).regs k_ = rget g.regs k_ := by
  have hm := fun (m : List (Nat × Nat)) (c : coversR [(0x80000, 0x80000), (0x80010, 0x8001C), (0x8002C, 0x8002C), (0x80044, 0x8004C), (0x8005C, 0x8005C)] m = true) => Outside.mono h c
  have hb0 : Outside [(0x80000, 0x80000)] k_ := hm _ (by decide)
  have hb1 : Outside [(0x80000, 0x80000), (0x80010, 0x8001C), (0x8005C, 0x8005C)] k_ := hm _ (by decide)
  have hb2 : Outside [(0x80000, 0x80000), (0x8002C, 0x8002C), (0x80044, 0x80044)] k_ := hm _ (by decide)
  have hb3 : Outside [(0x80048, 0x80048)] k_ := hm _ (by decide)
  have hb4 : Outside [(0x8004C, 0x8004C)] k_ := hm _ (by decide)
  unfold Agg.stepOne
  (repeat' split) <;> simp [hb0, hb1, hb2, hb3, hb4]
@[simp] theorem Agg.compareRound_rget (g : Agg) (n : Nat) (r : Nat) (m : List Byte) (k_ : Nat) (h : Outside [(0x80000, 0x80000), (0x80010, 0x8002C), (0x80040, 0x8004C), (0x80054, 0x80054), (0x8005C, 0x8005C)] k_) : rget (Agg.compareRound g n r m).regs k_ = rget g.regs k_ := by
  have hm := fun (m : List (Nat × Nat)) (c : coversR [(0x80000, 0x80000), (0x80010, 0x8002C), (0x80040, 0x8004C), (0x80054, 0x80054), (0x8005C, 0x8005C)] m = true) => Outside.mono h c
  have hb0 : Outside [(0x80000, 0x80000)] k_ := hm _ (by decide)
  have hb1 : Outside [(0x80000, 0x80000), (0x80010, 0x8001C), (0x8002C, 0x8002C), (0x80044, 0x8004C), (0x8005C, 0x8005C)] k_ := hm _ (by decide)
  have hb2 : Outside [(0x80000, 0x80000), (0x80010, 0x8001C), (0x8005C, 0x8005C)] k_ := hm _ (by decide)
  have hb3 : Outside [(0x80020, 0x80020)] k_ := hm _ (by decide)
  have hb4 : Outside [(0x80024, 0x80024)] k_ := hm _ (by decide)
  have hb5 : Outside [(0x80028, 0x80028)] k_ := hm _ (by decide)
  have hb6 : Outside [(0x80040, 0x80040)] k_ := hm _ (by decide)
  have hb7 : Outside [(0x80054, 0x80054)] k_ := hm _ (by decide)
  unfold Agg.compareRound
  (repeat' split) <;> simp [hb0, hb1, hb2, hb3, hb4, hb5, hb6, hb7]
@[simp] theorem Agg.checkRound_rget (g : Agg) (n : Nat) (r : Nat) (k_ : Nat) (h : Outside [(0x80000, 0x80000), (0x80010, 0x8002C), (0x80040, 0x8004C), (0x80054, 0x80054), (0x8005C, 0x8005C)] k_) : rget (Agg.checkRound g n r).regs k_ = rget g.regs k_ := by
  have hm := fun (m : List (Nat × Nat)) (c : coversR [(0x80000, 0x80000), (0x80010, 0x8002C), (0x80040, 0x8004C), (0x80054, 0x80054), (0x8005C, 0x8005C)] m = true) => Outside.mono h c
  have hb0 : Outside [(0x80000, 0x80000), (0x80010, 0x8001C), (0x8005C, 0x8005C)] k_ := hm _ (by decide)
  have hb1 : Outside [(0x80000, 0x80000), (0x80010, 0x8002C), (0x80040, 0x8004C), (0x80054, 0x80054), (0x8005C, 0x8005C)] k_ := hm _ (by decide)
  unfold Agg.checkRound
  (try dsimp only)
  (repeat' split) <;> simp [hb0, hb1]
@[simp] theorem Agg.placeGap_rget (g : Agg) (n : Nat) (k_ : Nat) (h : Outside [(0x80000, 0x80000), (0x80010, 0x8001C), (0x80058, 0x8005C)] k_) : rget (Agg.placeGap g n).regs k_ = rget g.regs k_ := by
  have hm := fun (m : List (Nat × Nat)) (c : coversR [(0x80000, 0x80000), (0x80010, 0x8001C), (0x80058, 0x8005C)] m = true) => Outside.mono h c
  have hb0 : Outside [(0x80000, 0x80000), (0x80010, 0x8001C), (0x8005C, 0x8005C)] k_ := hm _ (by decide)
  have hb1 : Outside [(0x80000, 0x80000), (0x80058, 0x80058)] k_ := hm _ (by decide)
  unfold Agg.placeGap
  (try dsimp only) <;> (repeat' split) <;> simp [hb0, hb1]
@[simp] theorem Agg.placeRound_rget (g : Agg) (x : Round) (k_ : Nat) (h : Outside [(0x80000, 0x80000), (0x80010, 0x8002C), (0x80040, 0x8004C), (0x80054, 0x80060)] k_) : rget (Agg.placeRound g x).regs k_ = rget g.regs k_ := by
  have hm := fun (m : List (Nat × Nat)) (c : coversR [(0x80000, 0x80000), (0x80010, 0x8002C), (0x80040, 0x8004C), (0x80054, 0x80060)] m = true) => Outside.mono h c
  have hb0 : Outside [(0x80000, 0x80000), (0x80058, 0x80058)] k_ := hm _ (by decide)
  have hb1 : Outside [(0x80000, 0x80000), (0x80010, 0x8002C), (0x80040, 0x8004C), (0x80054, 0x80054), (0x8005C, 0x8005C)] k_ := hm _ (by decide)
  have hb2 : Outside [(0x80000, 0x80000), (0x80010, 0x8001C), (0x80060, 0x80060)] k_ := hm _ (by decide)
  unfold Agg.placeRound
  (try dsimp only) <;> (repeat' split) <;> simp [hb0, hb1, hb2]
@[simp] theorem Agg.levelPlace_rget (g : Agg) (k_ : Nat) (h : Outside [(0x80000, 0x80000), (0x80010, 0x8002C), (0x80040, 0x8004C), (0x80054, 0x80060)] k_) : rget (Agg.levelPlace g).regs k_ = rget g.regs k_ := by
  have hm := fun (m : List (Nat × Nat)) (c : coversR [(0x80000, 0x80000), (0x80010, 0x8002C), (0x80040, 0x8004C), (0x80054, 0x80060)] m = true) => Outside.mono h c
  have hb0 : Outside [(0x80000, 0x80000), (0x80010, 0x8001C), (0x80060, 0x80060)] k_ := hm _ (by decide)
  have hb1 : Outside [(0x80000, 0x80000), (0x80010, 0x8002C), (0x80040, 0x8004C), (0x80054, 0x80054), (0x8005C, 0x8005C)] k_ := hm _ (by decide)
  have hb2 : Outside [(0x80000, 0x80000), (0x80058, 0x80058)] k_ := hm _ (by decide)
  have hb3 : Outside [(0x80000, 0x80000), (0x80010, 0x8001C), (0x80058, 0x8005C)] k_ := hm _ (by decide)
  have hb4 : Outside [(0x80000, 0x80000), (0x80010, 0x8002C), (0x80040, 0x8004C), (0x80054, 0x80060)] k_ := hm _ (by decide)
  unfold Agg.levelPlace
  (repeat' split) <;> simp [hb0, hb1, hb2, hb3, hb4]
@[simp] theorem Agg.partnerCrcFail_rget (g : Agg) (n : Nat) (r : Nat) (k_ : Nat) (h : Outside [(0x80000, 0x80000), (0x80010, 0x8001C), (0x8002C, 0x8002C), (0x80044, 0x80044), (0x8005C, 0x8005C)] k_) : rget (Agg.partnerCrcFail g n r).regs k_ = rget g.regs k_ := by
  have hm := fun (m : List (Nat × Nat)) (c : coversR [(0x80000, 0x80000), (0x80010, 0x8001C), (0x8002C, 0x8002C), (0x80044, 0x80044), (0x8005C, 0x8005C)] m = true) => Outside.mono h c
  have hb0 : Outside [(0x80000, 0x80000), (0x80010, 0x8001C), (0x8002C, 0x8002C), (0x80044, 0x80044), (0x8005C, 0x8005C)] k_ := hm _ (by decide)
  unfold Agg.partnerCrcFail
  (repeat' split) <;> simp [hb0]
end Sys2Proof.Machine
end

