-- ==== Sys2Proof/Laws/RegsAggUnits.lean ====
section
/-!
SUPPORT. RegsAggUnits.lean: one lemma per operation of the aggregator that says which registers the operation may change (the second half).
-/
namespace Sys2Proof.Machine
set_option linter.all false
@[simp] theorem Agg.summaryReceive_rget (g : Agg) (m : List Byte) (k_ : Nat) (h : Outside [(0x80000, 0x80000), (0x80010, 0x8002C), (0x80040, 0x8004C), (0x80054, 0x80054), (0x8005C, 0x8005C)] k_) : rget (Agg.summaryReceive g m).regs k_ = rget g.regs k_ := by
  have hm := fun (m : List (Nat × Nat)) (c : coversR [(0x80000, 0x80000), (0x80010, 0x8002C), (0x80040, 0x8004C), (0x80054, 0x80054), (0x8005C, 0x8005C)] m = true) => Outside.mono h c
  have hb0 : Outside [(0x80000, 0x80000), (0x80010, 0x8001C), (0x8002C, 0x8002C), (0x80044, 0x80044), (0x8005C, 0x8005C)] k_ := hm _ (by decide)
  have hb1 : Outside [(0x80000, 0x80000), (0x80010, 0x8002C), (0x80040, 0x8004C), (0x80054, 0x80054), (0x8005C, 0x8005C)] k_ := hm _ (by decide)
  unfold Agg.summaryReceive
  (try dsimp only)
  (repeat' split) <;> simp [hb0, hb1]
@[simp] theorem Agg.summaryLate_rget (g : Agg) (n : Nat) (r : Nat) (k_ : Nat) (h : Outside [(0x80000, 0x80000), (0x80010, 0x8001C), (0x80050, 0x80050), (0x8005C, 0x8005C)] k_) : rget (Agg.summaryLate g n r).regs k_ = rget g.regs k_ := by
  have hm := fun (m : List (Nat × Nat)) (c : coversR [(0x80000, 0x80000), (0x80010, 0x8001C), (0x80050, 0x80050), (0x8005C, 0x8005C)] m = true) => Outside.mono h c
  have hb0 : Outside [(0x80000, 0x80000)] k_ := hm _ (by decide)
  have hb1 : Outside [(0x80000, 0x80000), (0x80010, 0x8001C), (0x8005C, 0x8005C)] k_ := hm _ (by decide)
  have hb2 : Outside [(0x80050, 0x80050)] k_ := hm _ (by decide)
  unfold Agg.summaryLate
  (repeat' split) <;> simp [hb0, hb1, hb2]
@[simp] theorem Agg.runLogReceive_rget (g : Agg) (n : Nat) (r : Nat) (logs : Option (List Byte)) (k_ : Nat) (h : Outside [(0x80000, 0x80000), (0x80010, 0x8001C), (0x8002C, 0x8002C), (0x80044, 0x80044), (0x8005C, 0x8005C)] k_) : rget (Agg.runLogReceive g n r logs).regs k_ = rget g.regs k_ := by
  have hm := fun (m : List (Nat × Nat)) (c : coversR [(0x80000, 0x80000), (0x80010, 0x8001C), (0x8002C, 0x8002C), (0x80044, 0x80044), (0x8005C, 0x8005C)] m = true) => Outside.mono h c
  have hb0 : Outside [(0x80000, 0x80000), (0x80010, 0x8001C), (0x8002C, 0x8002C), (0x80044, 0x80044), (0x8005C, 0x8005C)] k_ := hm _ (by decide)
  unfold Agg.runLogReceive
  (try dsimp only)
  (repeat' split) <;> simp [hb0]
@[simp] theorem Agg.failStation_rget (g : Agg) (s : Nat) (k_ : Nat) (h : Outside [(0x60000, 0x60007), (0x60010, 0x60010), (0x60040, 0x60044), (0x60100, 0x602FF)] k_) : rget (Agg.failStation g s).regs k_ = rget g.regs k_ := by
  have hm := fun (m : List (Nat × Nat)) (c : coversR [(0x60000, 0x60007), (0x60010, 0x60010), (0x60040, 0x60044), (0x60100, 0x602FF)] m = true) => Outside.mono h c
  have hb0 : Outside [(0x60000, 0x60007), (0x60010, 0x60010), (0x60040, 0x60044), (0x60100, 0x602FF)] k_ := hm _ (by decide)
  have hb1 : Outside [(0x60000, 0x60007), (0x60100, 0x602FF)] k_ := hm _ (by decide)
  have hb2 : Outside [(0x60010, 0x60010)] k_ := hm _ (by decide)
  have hb3 : Outside [(0x60040, 0x60040)] k_ := hm _ (by decide)
  unfold Agg.failStation
  (repeat' split) <;> simp [hb0, hb1, hb2, hb3]
@[simp] theorem Agg.katResult_rget (g : Agg) (n : Nat) (r : Nat) (mine : Bool) (theirs : Bool) (k_ : Nat) (h : Outside [(0x60000, 0x60007), (0x60010, 0x60010), (0x60040, 0x60044), (0x60100, 0x602FF), (0x80000, 0x80000), (0x80010, 0x8001C), (0x8002C, 0x8002C), (0x80044, 0x80048), (0x8005C, 0x8005C)] k_) : rget (Agg.katResult g n r mine theirs).regs k_ = rget g.regs k_ := by
  have hm := fun (m : List (Nat × Nat)) (c : coversR [(0x60000, 0x60007), (0x60010, 0x60010), (0x60040, 0x60044), (0x60100, 0x602FF), (0x80000, 0x80000), (0x80010, 0x8001C), (0x8002C, 0x8002C), (0x80044, 0x80048), (0x8005C, 0x8005C)] m = true) => Outside.mono h c
  have hb0 : Outside [(0x60000, 0x60007), (0x60010, 0x60010), (0x60040, 0x60044), (0x60100, 0x602FF)] k_ := hm _ (by decide)
  have hb1 : Outside [(0x80000, 0x80000), (0x80010, 0x8001C), (0x80048, 0x80048), (0x8005C, 0x8005C)] k_ := hm _ (by decide)
  have hb2 : Outside [(0x80000, 0x80000), (0x80010, 0x8001C), (0x8005C, 0x8005C)] k_ := hm _ (by decide)
  have hb3 : Outside [(0x80000, 0x80000), (0x8002C, 0x8002C), (0x80044, 0x80044)] k_ := hm _ (by decide)
  unfold Agg.katResult
  (repeat' split) <;> simp [hb0, hb1, hb2, hb3]
@[simp] theorem Agg.dueUsed_rget (g : Agg) (n : Nat) (p : PlacedRound) (k_ : Nat) (h : Outside [(0x60000, 0x60007), (0x60100, 0x602FF)] k_) : rget (Agg.dueUsed g n p).regs k_ = rget g.regs k_ := by
  have hm := fun (m : List (Nat × Nat)) (c : coversR [(0x60000, 0x60007), (0x60100, 0x602FF)] m = true) => Outside.mono h c
  have hb0 : Outside [(0x60000, 0x60007), (0x60100, 0x602FF)] k_ := hm _ (by decide)
  unfold Agg.dueUsed
  (repeat' split) <;> simp [hb0]
@[simp] theorem Agg.redigest_rget (g : Agg) (n : Nat) (r : Nat) (fault : Option Nat) (theirs : Nat) (k_ : Nat) (h : Outside [(0x60000, 0x60007), (0x60100, 0x602FF), (0x80000, 0x80000), (0x80010, 0x8001C), (0x8002C, 0x8002C), (0x80044, 0x80048), (0x8005C, 0x8005C)] k_) : rget (Agg.redigest g n r fault theirs).regs k_ = rget g.regs k_ := by
  have hm := fun (m : List (Nat × Nat)) (c : coversR [(0x60000, 0x60007), (0x60100, 0x602FF), (0x80000, 0x80000), (0x80010, 0x8001C), (0x8002C, 0x8002C), (0x80044, 0x80048), (0x8005C, 0x8005C)] m = true) => Outside.mono h c
  have hb0 : Outside [(0x60000, 0x60007), (0x60100, 0x602FF)] k_ := hm _ (by decide)
  have hb1 : Outside [(0x80000, 0x80000), (0x80010, 0x8001C), (0x8002C, 0x8002C), (0x80044, 0x80044), (0x8005C, 0x8005C)] k_ := hm _ (by decide)
  have hb2 : Outside [(0x80000, 0x80000), (0x80010, 0x8001C), (0x80048, 0x80048), (0x8005C, 0x8005C)] k_ := hm _ (by decide)
  unfold Agg.redigest
  (repeat' split) <;> simp [hb0, hb1, hb2]
@[simp] theorem Agg.disagreeAdopt_rget (g : Agg) (n : Nat) (r : Nat) (t : Nat) (records : List Byte) (image : List Byte) (rows : List Byte) (k_ : Nat) (h : Outside [(0x80000, 0x80000), (0x80010, 0x8001C), (0x8005C, 0x8005C)] k_) : rget (Agg.disagreeAdopt g n r t records image rows).regs k_ = rget g.regs k_ := by
  have hm := fun (m : List (Nat × Nat)) (c : coversR [(0x80000, 0x80000), (0x80010, 0x8001C), (0x8005C, 0x8005C)] m = true) => Outside.mono h c
  have hb0 : Outside [(0x80000, 0x80000), (0x80010, 0x8001C), (0x8005C, 0x8005C)] k_ := hm _ (by decide)
  unfold Agg.disagreeAdopt
  (repeat' split) <;> simp [hb0]
@[simp] theorem Agg.disagreeTimeout_rget (g : Agg) (n : Nat) (r : Nat) (k_ : Nat) (h : Outside [(0x80000, 0x80000), (0x80010, 0x8001C), (0x8002C, 0x8002C), (0x80044, 0x80044), (0x8005C, 0x8005C)] k_) : rget (Agg.disagreeTimeout g n r).regs k_ = rget g.regs k_ := by
  have hm := fun (m : List (Nat × Nat)) (c : coversR [(0x80000, 0x80000), (0x80010, 0x8001C), (0x8002C, 0x8002C), (0x80044, 0x80044), (0x8005C, 0x8005C)] m = true) => Outside.mono h c
  have hb0 : Outside [(0x80000, 0x80000), (0x80010, 0x8001C), (0x8002C, 0x8002C), (0x80044, 0x80044), (0x8005C, 0x8005C)] k_ := hm _ (by decide)
  unfold Agg.disagreeTimeout
  (repeat' split) <;> simp [hb0]
@[simp] theorem Agg.expelNow_rget (g : Agg) (n : Nat) (die : Nat) (raise : Nat) (fromWin : Nat) (k_ : Nat) (h : Outside [(0x80000, 0x80000), (0x80064, 0x80064)] k_) : rget (Agg.expelNow g n die raise fromWin).regs k_ = rget g.regs k_ := by
  have hm := fun (m : List (Nat × Nat)) (c : coversR [(0x80000, 0x80000), (0x80064, 0x80064)] m = true) => Outside.mono h c
  have hb0 : Outside [(0x80000, 0x80000)] k_ := hm _ (by decide)
  have hb1 : Outside [(0x80064, 0x80064)] k_ := hm _ (by decide)
  unfold Agg.expelNow
  (repeat' split) <;> simp [hb0, hb1]
@[simp] theorem Agg.expelApply_rget (g : Agg) (c : Caller) (die : Nat) (raise : Nat) (fromWin : Nat) (expiry : Nat) (addr : Nat) (count : Nat) (k_ : Nat) (h : Outside [(0x43000, 0x431FF), (0x80000, 0x80000), (0x80064, 0x80064), (0x90000, 0x90000), (0x90040, 0x90040), (0xB0000, 0xB01FF)] k_) : rget (Agg.expelApply g c die raise fromWin expiry addr count).regs k_ = rget g.regs k_ := by
  have hm := fun (m : List (Nat × Nat)) (c : coversR [(0x43000, 0x431FF), (0x80000, 0x80000), (0x80064, 0x80064), (0x90000, 0x90000), (0x90040, 0x90040), (0xB0000, 0xB01FF)] m = true) => Outside.mono h c
  have hb0 : Outside [(0x43000, 0x431FF), (0x90000, 0x90000), (0x90040, 0x90040), (0xB0000, 0xB01FF)] k_ := hm _ (by decide)
  have hb1 : Outside [(0x80000, 0x80000), (0x80064, 0x80064)] k_ := hm _ (by decide)
  unfold Agg.expelApply
  (repeat' split) <;> simp [hb0, hb1]
@[simp] theorem Agg.expelRestore_rget (g : Agg) (c : Caller) (die : Nat) (k_ : Nat) (h : Outside [(0x43000, 0x431FF), (0x90000, 0x90000), (0x90040, 0x90040), (0xB0000, 0xB01FF)] k_) : rget (Agg.expelRestore g c die).regs k_ = rget g.regs k_ := by
  have hm := fun (m : List (Nat × Nat)) (c : coversR [(0x43000, 0x431FF), (0x90000, 0x90000), (0x90040, 0x90040), (0xB0000, 0xB01FF)] m = true) => Outside.mono h c
  have hb0 : Outside [(0x43000, 0x431FF), (0x90000, 0x90000), (0x90040, 0x90040), (0xB0000, 0xB01FF)] k_ := hm _ (by decide)
  unfold Agg.expelRestore
  (try dsimp only)
  (repeat' split) <;> (first | (simp [hb0]; done) | (rw [Agg.command_rget _ _ _ _ _ _ _ (by simp [hb0])]; (repeat' intro _); (try dsimp only); (repeat' split) <;> (simp [hb0]; done)))
@[simp] theorem Agg.expelForward_rget (g : Agg) (n : Nat) (die : Nat) (raise : Nat) (fromWin : Nat) (expiry : Nat) (token : List Byte) (k_ : Nat) (h : Outside [(0x80000, 0x80000), (0x80064, 0x80064)] k_) : rget (Agg.expelForward g n die raise fromWin expiry token).regs k_ = rget g.regs k_ := by
  have hm := fun (m : List (Nat × Nat)) (c : coversR [(0x80000, 0x80000), (0x80064, 0x80064)] m = true) => Outside.mono h c
  have hb0 : Outside [(0x80000, 0x80000), (0x80064, 0x80064)] k_ := hm _ (by decide)
  unfold Agg.expelForward
  (repeat' split) <;> simp [hb0]
@[simp] theorem Agg.dustChange_rget (g : Agg) (c : Caller) (x : DustChange) (k_ : Nat) (h : Outside [(0x43000, 0x431FF), (0x90000, 0x90000), (0x90040, 0x90040), (0xB0000, 0xB01FF)] k_) : rget (Agg.dustChange g c x).regs k_ = rget g.regs k_ := by
  have hm := fun (m : List (Nat × Nat)) (c : coversR [(0x43000, 0x431FF), (0x90000, 0x90000), (0x90040, 0x90040), (0xB0000, 0xB01FF)] m = true) => Outside.mono h c
  have hb0 : Outside [(0x43000, 0x431FF), (0x90000, 0x90000), (0x90040, 0x90040), (0xB0000, 0xB01FF)] k_ := hm _ (by decide)
  unfold Agg.dustChange
  (repeat' split) <;> simp [hb0]
@[simp] theorem Agg.dustConfigure_rget (g : Agg) (c : Caller) (budget : Nat) (mean : Nat) (minMean : Nat) (metric : Option Nat) (allow : Bool) (k_ : Nat) (h : Outside [(0x43000, 0x431FF), (0x90000, 0x90000), (0x90040, 0x90040), (0xB0000, 0xB01FF)] k_) : rget (Agg.dustConfigure g c budget mean minMean metric allow).regs k_ = rget g.regs k_ := by
  have hm := fun (m : List (Nat × Nat)) (c : coversR [(0x43000, 0x431FF), (0x90000, 0x90000), (0x90040, 0x90040), (0xB0000, 0xB01FF)] m = true) => Outside.mono h c
  have hb0 : Outside [(0x43000, 0x431FF), (0x90000, 0x90000), (0x90040, 0x90040), (0xB0000, 0xB01FF)] k_ := hm _ (by decide)
  unfold Agg.dustConfigure
  (repeat' split) <;> simp [hb0]
@[simp] theorem Agg.dustClear_rget (g : Agg) (c : Caller) (k_ : Nat) (h : Outside [(0x43000, 0x431FF), (0x90000, 0x90000), (0x90040, 0x90040), (0xB0000, 0xB01FF)] k_) : rget (Agg.dustClear g c).regs k_ = rget g.regs k_ := by
  have hm := fun (m : List (Nat × Nat)) (c : coversR [(0x43000, 0x431FF), (0x90000, 0x90000), (0x90040, 0x90040), (0xB0000, 0xB01FF)] m = true) => Outside.mono h c
  have hb0 : Outside [(0x43000, 0x431FF), (0x90000, 0x90000), (0x90040, 0x90040), (0xB0000, 0xB01FF)] k_ := hm _ (by decide)
  unfold Agg.dustClear
  (repeat' split) <;> simp [hb0]
@[simp] theorem Agg.dustSeed_rget (g : Agg) (c : Caller) (addr : Nat) (k_ : Nat) (h : Outside [(0x43000, 0x431FF), (0x90000, 0x90000), (0x90040, 0x90040), (0xB0000, 0xB01FF)] k_) : rget (Agg.dustSeed g c addr).regs k_ = rget g.regs k_ := by
  have hm := fun (m : List (Nat × Nat)) (c : coversR [(0x43000, 0x431FF), (0x90000, 0x90000), (0x90040, 0x90040), (0xB0000, 0xB01FF)] m = true) => Outside.mono h c
  have hb0 : Outside [(0x43000, 0x431FF), (0x90000, 0x90000), (0x90040, 0x90040), (0xB0000, 0xB01FF)] k_ := hm _ (by decide)
  unfold Agg.dustSeed
  (repeat' split) <;> simp [hb0]
@[simp] theorem Agg.dustStatus_rget (g : Agg) (c : Caller) (k_ : Nat) (h : Outside [(0x43000, 0x431FF), (0x90000, 0x90000), (0x90040, 0x90040), (0xB0000, 0xB01FF)] k_) : rget (Agg.dustStatus g c).regs k_ = rget g.regs k_ := by
  have hm := fun (m : List (Nat × Nat)) (c : coversR [(0x43000, 0x431FF), (0x90000, 0x90000), (0x90040, 0x90040), (0xB0000, 0xB01FF)] m = true) => Outside.mono h c
  have hb0 : Outside [(0x43000, 0x431FF), (0x90000, 0x90000), (0x90040, 0x90040), (0xB0000, 0xB01FF)] k_ := hm _ (by decide)
  unfold Agg.dustStatus
  (repeat' split) <;> simp [hb0]
@[simp] theorem Agg.verdictRecords_rget (g : Agg) (c : Caller) (die : Nat) (first : Nat) (windows : Nat) (dst : Nat) (k_ : Nat) (h : Outside [(0x43000, 0x431FF), (0x90000, 0x90000), (0x90040, 0x90040), (0xB0000, 0xB01FF)] k_) : rget (Agg.verdictRecords g c die first windows dst).regs k_ = rget g.regs k_ := by
  have hm := fun (m : List (Nat × Nat)) (c : coversR [(0x43000, 0x431FF), (0x90000, 0x90000), (0x90040, 0x90040), (0xB0000, 0xB01FF)] m = true) => Outside.mono h c
  have hb0 : Outside [(0x43000, 0x431FF), (0x90000, 0x90000), (0x90040, 0x90040), (0xB0000, 0xB01FF)] k_ := hm _ (by decide)
  unfold Agg.verdictRecords
  (repeat' split) <;> simp [hb0]
@[simp] theorem Agg.verdictRecs_rget (g : Agg) (c : Caller) (fromSeq : Nat) (mx : Nat) (dst : Nat) (k_ : Nat) (h : Outside [(0x43000, 0x431FF), (0x90000, 0x90000), (0x90040, 0x90040), (0xB0000, 0xB01FF)] k_) : rget (Agg.verdictRecs g c fromSeq mx dst).regs k_ = rget g.regs k_ := by
  have hm := fun (m : List (Nat × Nat)) (c : coversR [(0x43000, 0x431FF), (0x90000, 0x90000), (0x90040, 0x90040), (0xB0000, 0xB01FF)] m = true) => Outside.mono h c
  have hb0 : Outside [(0x43000, 0x431FF), (0x90000, 0x90000), (0x90040, 0x90040), (0xB0000, 0xB01FF)] k_ := hm _ (by decide)
  unfold Agg.verdictRecs
  (repeat' split) <;> simp [hb0]
@[simp] theorem Agg.disagreeStatus_rget (g : Agg) (c : Caller) (r : Nat) (k_ : Nat) (h : Outside [(0x43000, 0x431FF), (0x90000, 0x90000), (0x90040, 0x90040), (0xB0000, 0xB01FF)] k_) : rget (Agg.disagreeStatus g c r).regs k_ = rget g.regs k_ := by
  have hm := fun (m : List (Nat × Nat)) (c : coversR [(0x43000, 0x431FF), (0x90000, 0x90000), (0x90040, 0x90040), (0xB0000, 0xB01FF)] m = true) => Outside.mono h c
  have hb0 : Outside [(0x43000, 0x431FF), (0x90000, 0x90000), (0x90040, 0x90040), (0xB0000, 0xB01FF)] k_ := hm _ (by decide)
  unfold Agg.disagreeStatus
  (try dsimp only)
  (repeat' split) <;> simp [hb0]
@[simp] theorem Agg.createJob_rget (g : Agg) (q : QueuedCreate) (n : Nat) (hawk : Nat) (hbm : Nat) (k_ : Nat) (h : Outside [(0x43000, 0x431FF), (0x90000, 0x90000), (0x90040, 0x90040), (0xB0000, 0xB01FF)] k_) : rget (Agg.createJob g q n hawk hbm).regs k_ = rget g.regs k_ := by
  have hm := fun (m : List (Nat × Nat)) (c : coversR [(0x43000, 0x431FF), (0x90000, 0x90000), (0x90040, 0x90040), (0xB0000, 0xB01FF)] m = true) => Outside.mono h c
  have hb0 : Outside [(0x43000, 0x431FF), (0x90000, 0x90000), (0x90040, 0x90040), (0xB0000, 0xB01FF)] k_ := hm _ (by decide)
  unfold Agg.createJob
  (repeat' split) <;> simp [hb0]
@[simp] theorem Agg.serveQueue_rget (g : Agg) (a : Nat) (k_ : Nat) (h : Outside [(0x43000, 0x431FF), (0x90000, 0x90000), (0x90040, 0x90040), (0xB0000, 0xB01FF)] k_) : rget (Agg.serveQueue g a).regs k_ = rget g.regs k_ := by
  have hm := fun (m : List (Nat × Nat)) (c : coversR [(0x43000, 0x431FF), (0x90000, 0x90000), (0x90040, 0x90040), (0xB0000, 0xB01FF)] m = true) => Outside.mono h c
  have hb0 : Outside [(0x43000, 0x431FF), (0x90000, 0x90000), (0x90040, 0x90040), (0xB0000, 0xB01FF)] k_ := hm _ (by decide)
  induction a generalizing g with
  | zero => simp [Agg.serveQueue]
  | succ n ih => unfold Agg.serveQueue; (try dsimp only); (repeat' split) <;> (first | (simp [ih, hb0, Nat.add_assoc]; done) | simp [hb0, Nat.add_assoc])
@[simp] theorem Agg.jobCreate_rget (g : Agg) (c : Caller) (jobTag : Nat) (hawkMib : Nat) (hbmGib : Nat) (addr : Nat) (queueMs : Nat) (k_ : Nat) (h : Outside [(0x43000, 0x431FF), (0x90000, 0x90000), (0x90040, 0x90040), (0xA0000, 0xA0000), (0xA0040, 0xA0040), (0xB0000, 0xB01FF)] k_) : rget (Agg.jobCreate g c jobTag hawkMib hbmGib addr queueMs).regs k_ = rget g.regs k_ := by
  have hm := fun (m : List (Nat × Nat)) (c : coversR [(0x43000, 0x431FF), (0x90000, 0x90000), (0x90040, 0x90040), (0xA0000, 0xA0000), (0xA0040, 0xA0040), (0xB0000, 0xB01FF)] m = true) => Outside.mono h c
  have hb0 : Outside [(0x43000, 0x431FF), (0x90000, 0x90000), (0x90040, 0x90040), (0xB0000, 0xB01FF)] k_ := hm _ (by decide)
  have hb1 : Outside [(0xA0000, 0xA0000)] k_ := hm _ (by decide)
  have hb2 : Outside [(0xA0040, 0xA0040)] k_ := hm _ (by decide)
  unfold Agg.jobCreate
  (try dsimp only)
  (repeat' split) <;> simp [hb0, hb1, hb2]
@[simp] theorem Agg.createTimeout_rget (g : Agg) (k_ : Nat) (h : Outside [(0x43000, 0x431FF), (0x90000, 0x90000), (0x90040, 0x90040), (0xB0000, 0xB01FF)] k_) : rget (Agg.createTimeout g).regs k_ = rget g.regs k_ := by
  have hm := fun (m : List (Nat × Nat)) (c : coversR [(0x43000, 0x431FF), (0x90000, 0x90000), (0x90040, 0x90040), (0xB0000, 0xB01FF)] m = true) => Outside.mono h c
  have hb0 : Outside [(0x43000, 0x431FF), (0x90000, 0x90000), (0x90040, 0x90040), (0xB0000, 0xB01FF)] k_ := hm _ (by decide)
  unfold Agg.createTimeout
  (repeat' split) <;> simp [hb0]
@[simp] theorem Agg.areaZeroed_rget (g : Agg) (k_ : Nat) (h : Outside [(0x43000, 0x431FF), (0x90000, 0x90000), (0x90040, 0x90040), (0xB0000, 0xB01FF)] k_) : rget (Agg.areaZeroed g).regs k_ = rget g.regs k_ := by
  have hm := fun (m : List (Nat × Nat)) (c : coversR [(0x43000, 0x431FF), (0x90000, 0x90000), (0x90040, 0x90040), (0xB0000, 0xB01FF)] m = true) => Outside.mono h c
  have hb0 : Outside [(0x43000, 0x431FF), (0x90000, 0x90000), (0x90040, 0x90040), (0xB0000, 0xB01FF)] k_ := hm _ (by decide)
  unfold Agg.areaZeroed
  (repeat' split) <;> simp [hb0]
@[simp] theorem Agg.addDies_rget (g : Agg) (c : Caller) (addr : Nat) (count : Nat) (k_ : Nat) (h : Outside [(0x43000, 0x431FF), (0x90000, 0x90000), (0x90040, 0x90040), (0xB0000, 0xB01FF)] k_) : rget (Agg.addDies g c addr count).regs k_ = rget g.regs k_ := by
  have hm := fun (m : List (Nat × Nat)) (c : coversR [(0x43000, 0x431FF), (0x90000, 0x90000), (0x90040, 0x90040), (0xB0000, 0xB01FF)] m = true) => Outside.mono h c
  have hb0 : Outside [(0x43000, 0x431FF), (0x90000, 0x90000), (0x90040, 0x90040), (0xB0000, 0xB01FF)] k_ := hm _ (by decide)
  unfold Agg.addDies
  (try dsimp only)
  (repeat' split) <;> (first | (simp [hb0]; done) | (rw [Agg.command_rget _ _ _ _ _ _ _ (by simp [hb0])]; (repeat' intro _); (try dsimp only); (repeat' split) <;> (simp [hb0]; done)))
@[simp] theorem Agg.loadOutcome_rget (g : Agg) (w : Nat × Nat) (n : Nat) (img : List Byte) (k_ : Nat) (h : Outside [(0x43000, 0x431FF), (0x90000, 0x90000), (0x90040, 0x90040), (0xB0000, 0xB01FF)] k_) : rget (Agg.loadOutcome g w n img).regs k_ = rget g.regs k_ := by
  unfold Agg.loadOutcome
  repeat' split
  · simp [h]
  · next h2 => have b := Agg.loadModel_regs h2; simp [b, h]
  · simp [h]
  · simp [h]
@[simp] theorem Agg.loadLocal_rget (g : Agg) (c : Caller) (addr : Nat) (len : Nat) (k_ : Nat) (h : Outside [(0x43000, 0x431FF), (0x90000, 0x90000), (0x90040, 0x90040), (0xB0000, 0xB01FF)] k_) : rget (Agg.loadLocal g c addr len).regs k_ = rget g.regs k_ := by
  have hm := fun (m : List (Nat × Nat)) (c : coversR [(0x43000, 0x431FF), (0x90000, 0x90000), (0x90040, 0x90040), (0xB0000, 0xB01FF)] m = true) => Outside.mono h c
  have hb0 : Outside [(0x43000, 0x431FF), (0x90000, 0x90000), (0x90040, 0x90040), (0xB0000, 0xB01FF)] k_ := hm _ (by decide)
  unfold Agg.loadLocal
  (repeat' split) <;> simp [hb0]
@[simp] theorem Agg.endArm_rget (g : Agg) (n : Nat) (k_ : Nat) (h : Outside [(0x43000, 0x431FF), (0x90000, 0x90000), (0x90040, 0x90040), (0xB0000, 0xB01FF)] k_) : rget (Agg.endArm g n).regs k_ = rget g.regs k_ := by
  have hm := fun (m : List (Nat × Nat)) (c : coversR [(0x43000, 0x431FF), (0x90000, 0x90000), (0x90040, 0x90040), (0xB0000, 0xB01FF)] m = true) => Outside.mono h c
  have hb0 : Outside [(0x43000, 0x431FF), (0x90000, 0x90000), (0x90040, 0x90040), (0xB0000, 0xB01FF)] k_ := hm _ (by decide)
  unfold Agg.endArm
  (try dsimp only)
  (repeat' split) <;> simp [hb0]
@[simp] theorem Agg.jobArm_rget (g : Agg) (c : Caller) (earliest : Nat) (hold : Nat) (k_ : Nat) (h : Outside [(0x43000, 0x431FF), (0x90000, 0x90000), (0x90040, 0x90040), (0xB0000, 0xB01FF)] k_) : rget (Agg.jobArm g c earliest hold).regs k_ = rget g.regs k_ := by
  have hm := fun (m : List (Nat × Nat)) (c : coversR [(0x43000, 0x431FF), (0x90000, 0x90000), (0x90040, 0x90040), (0xB0000, 0xB01FF)] m = true) => Outside.mono h c
  have hb0 : Outside [(0x43000, 0x431FF), (0x90000, 0x90000), (0x90040, 0x90040), (0xB0000, 0xB01FF)] k_ := hm _ (by decide)
  unfold Agg.jobArm
  (repeat' split) <;> simp [hb0]
@[simp] theorem Agg.expireArm_rget (g : Agg) (n : Nat) (k_ : Nat) (h : Outside [(0xA0000, 0xA0000), (0xA0048, 0xA0048)] k_) : rget (Agg.expireArm g n).regs k_ = rget g.regs k_ := by
  have hm := fun (m : List (Nat × Nat)) (c : coversR [(0xA0000, 0xA0000), (0xA0048, 0xA0048)] m = true) => Outside.mono h c
  have hb0 : Outside [(0xA0000, 0xA0000)] k_ := hm _ (by decide)
  have hb1 : Outside [(0xA0048, 0xA0048)] k_ := hm _ (by decide)
  unfold Agg.expireArm
  (repeat' split) <;> simp [hb0, hb1]
@[simp] theorem Agg.armExpire_rget (g : Agg) (k_ : Nat) (h : Outside [(0xA0000, 0xA0000), (0xA0048, 0xA0048)] k_) : rget (Agg.armExpire g).regs k_ = rget g.regs k_ := by
  have hm := fun (m : List (Nat × Nat)) (c : coversR [(0xA0000, 0xA0000), (0xA0048, 0xA0048)] m = true) => Outside.mono h c
  have hb0 : Outside [(0xA0000, 0xA0000), (0xA0048, 0xA0048)] k_ := hm _ (by decide)
  unfold Agg.armExpire
  (repeat' split) <;> simp [hb0]
@[simp] theorem Agg.endCommit_rget (g : Agg) (n : Nat) (k_ : Nat) (h : Outside [(0x43000, 0x431FF), (0x90000, 0x90000), (0x90040, 0x90040), (0xA0000, 0xA0000), (0xA004C, 0xA004C), (0xB0000, 0xB01FF)] k_) : rget (Agg.endCommit g n).regs k_ = rget g.regs k_ := by
  have hm := fun (m : List (Nat × Nat)) (c : coversR [(0x43000, 0x431FF), (0x90000, 0x90000), (0x90040, 0x90040), (0xA0000, 0xA0000), (0xA004C, 0xA004C), (0xB0000, 0xB01FF)] m = true) => Outside.mono h c
  have hb0 : Outside [(0x43000, 0x431FF), (0x90000, 0x90000), (0x90040, 0x90040), (0xB0000, 0xB01FF)] k_ := hm _ (by decide)
  have hb1 : Outside [(0xA0000, 0xA0000)] k_ := hm _ (by decide)
  have hb2 : Outside [(0xA004C, 0xA004C)] k_ := hm _ (by decide)
  unfold Agg.endCommit
  (try dsimp only)
  (repeat' split) <;> simp [hb0, hb1, hb2]
@[simp] theorem Agg.commitOutcome_rget (g : Agg) (n : Nat) (code : Nat) (k_ : Nat) (h : Outside [(0x43000, 0x431FF), (0x90000, 0x90000), (0x90040, 0x90040), (0xA0000, 0xA0000), (0xA004C, 0xA004C), (0xB0000, 0xB01FF)] k_) : rget (Agg.commitOutcome g n code).regs k_ = rget g.regs k_ := by
  have hm := fun (m : List (Nat × Nat)) (c : coversR [(0x43000, 0x431FF), (0x90000, 0x90000), (0x90040, 0x90040), (0xA0000, 0xA0000), (0xA004C, 0xA004C), (0xB0000, 0xB01FF)] m = true) => Outside.mono h c
  have hb0 : Outside [(0x43000, 0x431FF), (0x90000, 0x90000), (0x90040, 0x90040), (0xB0000, 0xB01FF)] k_ := hm _ (by decide)
  have hb1 : Outside [(0xA0000, 0xA0000)] k_ := hm _ (by decide)
  have hb2 : Outside [(0xA004C, 0xA004C)] k_ := hm _ (by decide)
  unfold Agg.commitOutcome
  (repeat' split) <;> simp [hb0, hb1, hb2]
@[simp] theorem Agg.jobCommit_rget (g : Agg) (c : Caller) (act : Nat) (k_ : Nat) (h : Outside [(0x43000, 0x431FF), (0x90000, 0x90000), (0x90040, 0x90040), (0xA0000, 0xA0000), (0xA004C, 0xA004C), (0xB0000, 0xB01FF)] k_) : rget (Agg.jobCommit g c act).regs k_ = rget g.regs k_ := by
  have hm := fun (m : List (Nat × Nat)) (c : coversR [(0x43000, 0x431FF), (0x90000, 0x90000), (0x90040, 0x90040), (0xA0000, 0xA0000), (0xA004C, 0xA004C), (0xB0000, 0xB01FF)] m = true) => Outside.mono h c
  have hb0 : Outside [(0x43000, 0x431FF), (0x90000, 0x90000), (0x90040, 0x90040), (0xA0000, 0xA0000), (0xA004C, 0xA004C), (0xB0000, 0xB01FF)] k_ := hm _ (by decide)
  have hb1 : Outside [(0x43000, 0x431FF), (0x90000, 0x90000), (0x90040, 0x90040), (0xB0000, 0xB01FF)] k_ := hm _ (by decide)
  unfold Agg.jobCommit
  (try dsimp only)
  (repeat' split) <;> (first | (simp [hb0, hb1]; done) | (rw [Agg.command_rget _ _ _ _ _ _ _ (by simp [hb0, hb1])]; (repeat' intro _); (try dsimp only); (repeat' split) <;> (simp [hb0, hb1]; done)))
@[simp] theorem Agg.jobDisarm_rget (g : Agg) (c : Caller) (k_ : Nat) (h : Outside [(0x43000, 0x431FF), (0x90000, 0x90000), (0x90040, 0x90040), (0xB0000, 0xB01FF)] k_) : rget (Agg.jobDisarm g c).regs k_ = rget g.regs k_ := by
  have hm := fun (m : List (Nat × Nat)) (c : coversR [(0x43000, 0x431FF), (0x90000, 0x90000), (0x90040, 0x90040), (0xB0000, 0xB01FF)] m = true) => Outside.mono h c
  have hb0 : Outside [(0x43000, 0x431FF), (0x90000, 0x90000), (0x90040, 0x90040), (0xB0000, 0xB01FF)] k_ := hm _ (by decide)
  unfold Agg.jobDisarm
  (repeat' split) <;> simp [hb0]
@[simp] theorem Agg.jobRegDone_rget (g : Agg) (x : RegJob) (st : Status) (k_ : Nat) (h : Outside [(0x43000, 0x431FF), (0x90000, 0x90000), (0x90040, 0x90040), (0xA0000, 0xA0000), (0xA004C, 0xA004C), (0xB0000, 0xB01FF)] k_) : rget (Agg.jobRegDone g x st).regs k_ = rget g.regs k_ := by
  have hm := fun (m : List (Nat × Nat)) (c : coversR [(0x43000, 0x431FF), (0x90000, 0x90000), (0x90040, 0x90040), (0xA0000, 0xA0000), (0xA004C, 0xA004C), (0xB0000, 0xB01FF)] m = true) => Outside.mono h c
  have hb0 : Outside [(0x43000, 0x431FF), (0x90000, 0x90000), (0x90040, 0x90040), (0xA0000, 0xA0000), (0xA004C, 0xA004C), (0xB0000, 0xB01FF)] k_ := hm _ (by decide)
  have hb1 : Outside [(0x43000, 0x431FF), (0x90000, 0x90000), (0x90040, 0x90040), (0xB0000, 0xB01FF)] k_ := hm _ (by decide)
  unfold Agg.jobRegDone
  (repeat' split) <;> simp [hb0, hb1]
@[simp] theorem Agg.loseParked_rget (g : Agg) (qpn : Nat) (k_ : Nat) (h : Outside [(0xB0000, 0xB01FF)] k_) : rget (Agg.loseParked g qpn).regs k_ = rget g.regs k_ := by
  have hm := fun (m : List (Nat × Nat)) (c : coversR [(0xB0000, 0xB01FF)] m = true) => Outside.mono h c
  have hb0 : Outside [(0xB0000, 0xB01FF)] k_ := hm _ (by decide)
  have hb1 : Outside [(0xB0000, 0xB0000)] k_ := hm _ (by decide)
  have hb2 : Outside [(0xB0048, 0xB0048)] k_ := hm _ (by decide)
  unfold Agg.loseParked
  (try dsimp only) <;> (repeat' split) <;> simp [hb0, hb1, hb2, Nat.add_assoc]
@[simp] theorem Agg.releaseJob_rget (g : Agg) (n : Nat) (tiles : Nat → Nat) (k_ : Nat) (h : Outside [(0x43000, 0x431FF), (0x90000, 0x90000), (0x90040, 0x90040), (0xA0000, 0xA0000), (0xA0044, 0xA0044), (0xB0000, 0xB01FF)] k_) : rget (Agg.releaseJob g n tiles).regs k_ = rget g.regs k_ := by
  have hm := fun (m : List (Nat × Nat)) (c : coversR [(0x43000, 0x431FF), (0x90000, 0x90000), (0x90040, 0x90040), (0xA0000, 0xA0000), (0xA0044, 0xA0044), (0xB0000, 0xB01FF)] m = true) => Outside.mono h c
  have hb0 : Outside [(0x43000, 0x431FF), (0x90000, 0x90000), (0x90040, 0x90040), (0xB0000, 0xB01FF)] k_ := hm _ (by decide)
  have hb1 : Outside [(0x43000, 0x431FF), (0xB0000, 0xB01FF)] k_ := hm _ (by decide)
  have hb2 : Outside [(0xA0000, 0xA0000)] k_ := hm _ (by decide)
  have hb3 : Outside [(0xA0044, 0xA0044)] k_ := hm _ (by decide)
  have hb4 : Outside [(0xB0000, 0xB01FF)] k_ := hm _ (by decide)
  unfold Agg.releaseJob
  (try dsimp only)
  (repeat' split) <;> simp [hb0, hb1, hb2, hb3, hb4]
@[simp] theorem Agg.endReplacement_rget (g : Agg) (n : Nat) (k_ : Nat) (h : Outside [(0x43000, 0x431FF), (0x90000, 0x90000), (0x90040, 0x90040), (0xB0000, 0xB01FF)] k_) : rget (Agg.endReplacement g n).regs k_ = rget g.regs k_ := by
  have hm := fun (m : List (Nat × Nat)) (c : coversR [(0x43000, 0x431FF), (0x90000, 0x90000), (0x90040, 0x90040), (0xB0000, 0xB01FF)] m = true) => Outside.mono h c
  have hb0 : Outside [(0x43000, 0x431FF), (0x90000, 0x90000), (0x90040, 0x90040), (0xB0000, 0xB01FF)] k_ := hm _ (by decide)
  unfold Agg.endReplacement
  (try dsimp only) <;> (repeat' split) <;> simp [hb0]
@[simp] theorem Agg.jobTeardown_rget (g : Agg) (c : Caller) (last : Nat) (tiles : Nat → Nat) (k_ : Nat) (h : Outside [(0x43000, 0x431FF), (0x90000, 0x90000), (0x90040, 0x90040), (0xA0000, 0xA0000), (0xA0044, 0xA0044), (0xB0000, 0xB01FF)] k_) : rget (Agg.jobTeardown g c last tiles).regs k_ = rget g.regs k_ := by
  have hm := fun (m : List (Nat × Nat)) (c : coversR [(0x43000, 0x431FF), (0x90000, 0x90000), (0x90040, 0x90040), (0xA0000, 0xA0000), (0xA0044, 0xA0044), (0xB0000, 0xB01FF)] m = true) => Outside.mono h c
  have hb0 : Outside [(0x43000, 0x431FF), (0x90000, 0x90000), (0x90040, 0x90040), (0xA0000, 0xA0000), (0xA0044, 0xA0044), (0xB0000, 0xB01FF)] k_ := hm _ (by decide)
  have hb1 : Outside [(0x43000, 0x431FF), (0x90000, 0x90000), (0x90040, 0x90040), (0xB0000, 0xB01FF)] k_ := hm _ (by decide)
  unfold Agg.jobTeardown
  (repeat' split) <;> simp [hb0, hb1]
@[simp] theorem Agg.jobRelease_rget (g : Agg) (n : Nat) (tiles : Nat → Nat) (k_ : Nat) (h : Outside [(0x43000, 0x431FF), (0x90000, 0x90000), (0x90040, 0x90040), (0xA0000, 0xA0000), (0xA0044, 0xA0044), (0xB0000, 0xB01FF)] k_) : rget (Agg.jobRelease g n tiles).regs k_ = rget g.regs k_ := by
  have hm := fun (m : List (Nat × Nat)) (c : coversR [(0x43000, 0x431FF), (0x90000, 0x90000), (0x90040, 0x90040), (0xA0000, 0xA0000), (0xA0044, 0xA0044), (0xB0000, 0xB01FF)] m = true) => Outside.mono h c
  have hb0 : Outside [(0x43000, 0x431FF), (0x90000, 0x90000), (0x90040, 0x90040), (0xA0000, 0xA0000), (0xA0044, 0xA0044), (0xB0000, 0xB01FF)] k_ := hm _ (by decide)
  unfold Agg.jobRelease
  (repeat' split) <;> simp [hb0]
@[simp] theorem Agg.jobStatus_rget (g : Agg) (c : Caller) (k_ : Nat) (h : Outside [(0x43000, 0x431FF), (0x90000, 0x90000), (0x90040, 0x90040), (0xB0000, 0xB01FF)] k_) : rget (Agg.jobStatus g c).regs k_ = rget g.regs k_ := by
  have hm := fun (m : List (Nat × Nat)) (c : coversR [(0x43000, 0x431FF), (0x90000, 0x90000), (0x90040, 0x90040), (0xB0000, 0xB01FF)] m = true) => Outside.mono h c
  have hb0 : Outside [(0x43000, 0x431FF), (0x90000, 0x90000), (0x90040, 0x90040), (0xB0000, 0xB01FF)] k_ := hm _ (by decide)
  unfold Agg.jobStatus
  (repeat' split) <;> simp [hb0]
@[simp] theorem Agg.endWait_rget (g : Agg) (p : Paste) (commit : Bool) (x : PasteWait) (k_ : Nat) (h : Outside [(0x43000, 0x431FF), (0x90000, 0x90000), (0x90040, 0x90040), (0xB0000, 0xB01FF)] k_) : rget (Agg.endWait g p commit x).regs k_ = rget g.regs k_ := by
  have hm := fun (m : List (Nat × Nat)) (c : coversR [(0x43000, 0x431FF), (0x90000, 0x90000), (0x90040, 0x90040), (0xB0000, 0xB01FF)] m = true) => Outside.mono h c
  have hb0 : Outside [(0x43000, 0x431FF), (0x90000, 0x90000), (0x90040, 0x90040), (0xB0000, 0xB01FF)] k_ := hm _ (by decide)
  unfold Agg.endWait
  (repeat' split) <;> simp [hb0]
@[simp] theorem Agg.endWaits_rget (g : Agg) (p : Paste) (f : Agg → PasteWait → Agg) (k_ : Nat) (hf : ∀ x y, rget (f x y).regs k_ = rget x.regs k_) : rget (Agg.endWaits g p f).regs k_ = rget g.regs k_ := by
  unfold Agg.endWaits
  (repeat' split) <;> simp [hf]
@[simp] theorem Agg.decidePaste_rget (g : Agg) (p : Paste) (commit : Bool) (k_ : Nat) (h : Outside [(0x43000, 0x431FF), (0x90000, 0x90000), (0x90040, 0x90040), (0xA0000, 0xA0000), (0xA0040, 0xA007F), (0xB0000, 0xB01FF)] k_) : rget (Agg.decidePaste g p commit).regs k_ = rget g.regs k_ := by
  have hm := fun (m : List (Nat × Nat)) (c : coversR [(0x43000, 0x431FF), (0x90000, 0x90000), (0x90040, 0x90040), (0xA0000, 0xA0000), (0xA0040, 0xA007F), (0xB0000, 0xB01FF)] m = true) => Outside.mono h c
  have hb0 : Outside [(0x43000, 0x431FF), (0x90000, 0x90000), (0x90040, 0x90040), (0xB0000, 0xB01FF)] k_ := hm _ (by decide)
  have hb1 : Outside [(0xA0000, 0xA0000)] k_ := hm _ (by decide)
  have hb2 : Outside [(0xA0040, 0xA007F)] k_ := hm _ (by decide)
  unfold Agg.decidePaste
  have hz : ∀ o, o ∈ [655440, 655444] → Outside [(o, o)] k_ := by
    intro o ho; exact outside_range (hm [(0xA0040, 0xA007F)] (by decide)) (by simp at ho; omega) (by simp at ho; omega)
  have hz1 := hz 655440 (by simp)
  have hz2 := hz 655444 (by simp)
  (try dsimp only)
  cases commit <;> (repeat' split) <;> simp [hz1, hz2, hb0, hb1, hb2, Nat.add_assoc]
@[simp] theorem Agg.tryCommit_rget (g : Agg) (i : Nat) (k_ : Nat) (h : Outside [(0x43000, 0x431FF), (0x90000, 0x90000), (0x90040, 0x90040), (0xA0000, 0xA0000), (0xA0040, 0xA007F), (0xB0000, 0xB01FF)] k_) : rget (Agg.tryCommit g i).regs k_ = rget g.regs k_ := by
  have hm := fun (m : List (Nat × Nat)) (c : coversR [(0x43000, 0x431FF), (0x90000, 0x90000), (0x90040, 0x90040), (0xA0000, 0xA0000), (0xA0040, 0xA007F), (0xB0000, 0xB01FF)] m = true) => Outside.mono h c
  have hb0 : Outside [(0x43000, 0x431FF), (0x90000, 0x90000), (0x90040, 0x90040), (0xA0000, 0xA0000), (0xA0040, 0xA007F), (0xB0000, 0xB01FF)] k_ := hm _ (by decide)
  unfold Agg.tryCommit
  (repeat' split) <;> simp [hb0]
@[simp] theorem Agg.pasteHaveSend_rget (g : Agg) (i : Nat) (k_ : Nat) (h : Outside [(0x43000, 0x431FF), (0x90000, 0x90000), (0x90040, 0x90040), (0xA0000, 0xA0000), (0xA0040, 0xA007F), (0xB0000, 0xB01FF)] k_) : rget (Agg.pasteHaveSend g i).regs k_ = rget g.regs k_ := by
  have hm := fun (m : List (Nat × Nat)) (c : coversR [(0x43000, 0x431FF), (0x90000, 0x90000), (0x90040, 0x90040), (0xA0000, 0xA0000), (0xA0040, 0xA007F), (0xB0000, 0xB01FF)] m = true) => Outside.mono h c
  have hb0 : Outside [(0x43000, 0x431FF), (0x90000, 0x90000), (0x90040, 0x90040), (0xA0000, 0xA0000), (0xA0040, 0xA007F), (0xB0000, 0xB01FF)] k_ := hm _ (by decide)
  unfold Agg.pasteHaveSend
  (repeat' split) <;> simp [hb0]
@[simp] theorem Agg.pasteHaveReceive_rget (g : Agg) (src : Option Nat) (m : List Byte) (holds : Bool) (k_ : Nat) (h : Outside [(0x43000, 0x431FF), (0x90000, 0x90000), (0x90040, 0x90040), (0xA0000, 0xA0000), (0xA0040, 0xA007F), (0xB0000, 0xB01FF)] k_) : rget (Agg.pasteHaveReceive g src m holds).regs k_ = rget g.regs k_ := by
  have hm := fun (m : List (Nat × Nat)) (c : coversR [(0x43000, 0x431FF), (0x90000, 0x90000), (0x90040, 0x90040), (0xA0000, 0xA0000), (0xA0040, 0xA007F), (0xB0000, 0xB01FF)] m = true) => Outside.mono h c
  have hb0 : Outside [(0x43000, 0x431FF), (0x90000, 0x90000), (0x90040, 0x90040), (0xA0000, 0xA0000), (0xA0040, 0xA007F), (0xB0000, 0xB01FF)] k_ := hm _ (by decide)
  unfold Agg.pasteHaveReceive
  (repeat' split) <;> simp [hb0]
@[simp] theorem Agg.pasteDeadline_rget (g : Agg) (i : Nat) (k_ : Nat) (h : Outside [(0x43000, 0x431FF), (0x90000, 0x90000), (0x90040, 0x90040), (0xA0000, 0xA0000), (0xA0040, 0xA007F), (0xB0000, 0xB01FF)] k_) : rget (Agg.pasteDeadline g i).regs k_ = rget g.regs k_ := by
  have hm := fun (m : List (Nat × Nat)) (c : coversR [(0x43000, 0x431FF), (0x90000, 0x90000), (0x90040, 0x90040), (0xA0000, 0xA0000), (0xA0040, 0xA007F), (0xB0000, 0xB01FF)] m = true) => Outside.mono h c
  have hb0 : Outside [(0x43000, 0x431FF), (0x90000, 0x90000), (0x90040, 0x90040), (0xA0000, 0xA0000), (0xA0040, 0xA007F), (0xB0000, 0xB01FF)] k_ := hm _ (by decide)
  unfold Agg.pasteDeadline
  (repeat' split) <;> simp [hb0]
@[simp] theorem Agg.pasteDecide_rget (g : Agg) (m : List Byte) (k_ : Nat) (h : Outside [(0x43000, 0x431FF), (0x90000, 0x90000), (0x90040, 0x90040), (0xA0000, 0xA0000), (0xA0040, 0xA007F), (0xB0000, 0xB01FF)] k_) : rget (Agg.pasteDecide g m).regs k_ = rget g.regs k_ := by
  have hm := fun (m : List (Nat × Nat)) (c : coversR [(0x43000, 0x431FF), (0x90000, 0x90000), (0x90040, 0x90040), (0xA0000, 0xA0000), (0xA0040, 0xA007F), (0xB0000, 0xB01FF)] m = true) => Outside.mono h c
  have hb0 : Outside [(0x43000, 0x431FF), (0x90000, 0x90000), (0x90040, 0x90040), (0xA0000, 0xA0000), (0xA0040, 0xA007F), (0xB0000, 0xB01FF)] k_ := hm _ (by decide)
  have hb1 : Outside [(0xA0000, 0xA0000)] k_ := hm _ (by decide)
  have hb2 : Outside [(0xA0064, 0xA0064)] k_ := hm _ (by decide)
  unfold Agg.pasteDecide
  (try dsimp only)
  (repeat' split) <;> simp [hb0, hb1, hb2]
@[simp] theorem Agg.fetchRun_rget (g : Agg) (p : Paste) (a : Nat) (y3 : Nat) (y4 : Nat) (k_ : Nat) (h : Outside [(0xA0000, 0xA0000), (0xA005C, 0xA005C)] k_) : rget (Agg.fetchRun g p a y3 y4).regs k_ = rget g.regs k_ := by
  have hm := fun (m : List (Nat × Nat)) (c : coversR [(0xA0000, 0xA0000), (0xA005C, 0xA005C)] m = true) => Outside.mono h c
  have hb0 : Outside [(0xA0000, 0xA0000)] k_ := hm _ (by decide)
  have hb1 : Outside [(0xA005C, 0xA005C)] k_ := hm _ (by decide)
  induction a generalizing g y3 y4 with
  | zero => simp [Agg.fetchRun]
  | succ n ih =>
    unfold Agg.fetchRun
    split
    · rfl
    · dsimp only
      rw [ih]
      simp [hb0, hb1, Nat.add_assoc]
@[simp] theorem Agg.openPaste_rget (g : Agg) (m : List Byte) (k_ : Nat) (h : Outside [(0xA0000, 0xA0000), (0xA0060, 0xA0060)] k_) : rget (Agg.openPaste g m).1.regs k_ = rget g.regs k_ := by
  have hm := fun (m : List (Nat × Nat)) (c : coversR [(0xA0000, 0xA0000), (0xA0060, 0xA0060)] m = true) => Outside.mono h c
  have hb0 : Outside [(0xA0000, 0xA0000)] k_ := hm _ (by decide)
  have hb1 : Outside [(0xA0060, 0xA0060)] k_ := hm _ (by decide)
  unfold Agg.openPaste
  (try dsimp only)
  (repeat' split) <;> simp [hb0, hb1]
@[simp] theorem Agg.pasteChunk_rget (g : Agg) (m : List Byte) (k_ : Nat) (h : Outside [(0x43000, 0x431FF), (0x90000, 0x90000), (0x90040, 0x90040), (0xA0000, 0xA0000), (0xA0040, 0xA007F), (0xB0000, 0xB01FF)] k_) : rget (Agg.pasteChunk g m).regs k_ = rget g.regs k_ := by
  have hm := fun (m : List (Nat × Nat)) (c : coversR [(0x43000, 0x431FF), (0x90000, 0x90000), (0x90040, 0x90040), (0xA0000, 0xA0000), (0xA0040, 0xA007F), (0xB0000, 0xB01FF)] m = true) => Outside.mono h c
  have hb0 : Outside [(0x43000, 0x431FF), (0x90000, 0x90000), (0x90040, 0x90040), (0xA0000, 0xA0000), (0xA0040, 0xA007F), (0xB0000, 0xB01FF)] k_ := hm _ (by decide)
  have hb1 : Outside [(0xA0000, 0xA0000), (0xA005C, 0xA005C)] k_ := hm _ (by decide)
  have hb2 : Outside [(0xA0000, 0xA0000), (0xA0060, 0xA0060)] k_ := hm _ (by decide)
  unfold Agg.pasteChunk
  (try dsimp only)
  (repeat' split) <;> simp [hb0, hb1, hb2]
@[simp] theorem Agg.pasteFetch_rget (g : Agg) (src : Option Nat) (m : List Byte) (k_ : Nat) (h : Outside [(0xA0000, 0xA0000), (0xA005C, 0xA005C)] k_) : rget (Agg.pasteFetch g src m).regs k_ = rget g.regs k_ := by
  have hm := fun (m : List (Nat × Nat)) (c : coversR [(0xA0000, 0xA0000), (0xA005C, 0xA005C)] m = true) => Outside.mono h c
  have hb0 : Outside [(0xA0000, 0xA0000), (0xA005C, 0xA005C)] k_ := hm _ (by decide)
  unfold Agg.pasteFetch
  (try dsimp only)
  (repeat' split) <;> simp [hb0]
@[simp] theorem Agg.pasteReparent_rget (g : Agg) (i : Nat) (left : Bool) (k_ : Nat) (h : Outside [(0xA0000, 0xA0000), (0xA0058, 0xA0058)] k_) : rget (Agg.pasteReparent g i left).regs k_ = rget g.regs k_ := by
  have hm := fun (m : List (Nat × Nat)) (c : coversR [(0xA0000, 0xA0000), (0xA0058, 0xA0058)] m = true) => Outside.mono h c
  have hb0 : Outside [(0xA0000, 0xA0000)] k_ := hm _ (by decide)
  have hb1 : Outside [(0xA0058, 0xA0058)] k_ := hm _ (by decide)
  unfold Agg.pasteReparent
  (repeat' split) <;> simp [hb0, hb1]
@[simp] theorem Agg.pasteAbandon_rget (g : Agg) (i : Nat) (k_ : Nat) (h : Outside [(0x43000, 0x431FF), (0x90000, 0x90000), (0x90040, 0x90040), (0xA0000, 0xA0000), (0xA0054, 0xA0054), (0xB0000, 0xB01FF)] k_) : rget (Agg.pasteAbandon g i).regs k_ = rget g.regs k_ := by
  have hm := fun (m : List (Nat × Nat)) (c : coversR [(0x43000, 0x431FF), (0x90000, 0x90000), (0x90040, 0x90040), (0xA0000, 0xA0000), (0xA0054, 0xA0054), (0xB0000, 0xB01FF)] m = true) => Outside.mono h c
  have hb0 : Outside [(0x43000, 0x431FF), (0x90000, 0x90000), (0x90040, 0x90040), (0xB0000, 0xB01FF)] k_ := hm _ (by decide)
  have hb1 : Outside [(0xA0000, 0xA0000)] k_ := hm _ (by decide)
  have hb2 : Outside [(0xA0054, 0xA0054)] k_ := hm _ (by decide)
  unfold Agg.pasteAbandon
  (repeat' split) <;> simp [hb0, hb1, hb2]
@[simp] theorem Agg.pasteSend_rget (g : Agg) (c : Caller) (i : Nat) (addr : Nat) (len : Nat) (deadline : Nat) (membersAddr : Nat) (k_ : Nat) (h : Outside [(0x43000, 0x431FF), (0x90000, 0x90000), (0x90040, 0x90040), (0xA0000, 0xA0000), (0xA0040, 0xA007F), (0xB0000, 0xB01FF)] k_) : rget (Agg.pasteSend g c i addr len deadline membersAddr).regs k_ = rget g.regs k_ := by
  have hm := fun (m : List (Nat × Nat)) (c : coversR [(0x43000, 0x431FF), (0x90000, 0x90000), (0x90040, 0x90040), (0xA0000, 0xA0000), (0xA0040, 0xA007F), (0xB0000, 0xB01FF)] m = true) => Outside.mono h c
  have hb0 : Outside [(0x43000, 0x431FF), (0x90000, 0x90000), (0x90040, 0x90040), (0xA0000, 0xA0000), (0xA0040, 0xA007F), (0xB0000, 0xB01FF)] k_ := hm _ (by decide)
  have hb1 : Outside [(0x43000, 0x431FF), (0x90000, 0x90000), (0x90040, 0x90040), (0xB0000, 0xB01FF)] k_ := hm _ (by decide)
  unfold Agg.pasteSend
  (try dsimp only)
  (repeat' split) <;> (first | (simp [hb0, hb1]; done) | (rw [Agg.command_rget _ _ _ _ _ _ _ (by simp [hb0, hb1])]; (repeat' intro _); (try dsimp only); (repeat' split) <;> (simp [hb0, hb1]; done)))
@[simp] theorem Agg.pasteReceive_rget (g : Agg) (c : Caller) (i : Nat) (digest : Nat) (k_ : Nat) (h : Outside [(0x43000, 0x431FF), (0x90000, 0x90000), (0x90040, 0x90040), (0xB0000, 0xB01FF)] k_) : rget (Agg.pasteReceive g c i digest).regs k_ = rget g.regs k_ := by
  have hm := fun (m : List (Nat × Nat)) (c : coversR [(0x43000, 0x431FF), (0x90000, 0x90000), (0x90040, 0x90040), (0xB0000, 0xB01FF)] m = true) => Outside.mono h c
  have hb0 : Outside [(0x43000, 0x431FF), (0x90000, 0x90000), (0x90040, 0x90040), (0xB0000, 0xB01FF)] k_ := hm _ (by decide)
  unfold Agg.pasteReceive
  (try dsimp only)
  (repeat' split) <;> (first | (simp [hb0]; done) | (rw [Agg.command_rget _ _ _ _ _ _ _ (by simp [hb0])]; (repeat' intro _); (try dsimp only); (repeat' split) <;> (simp [hb0]; done)))
@[simp] theorem Agg.noteWait_rget (g : Agg) (n : Nat) (tag : Bool) (k_ : Nat) (h : Outside [(0x90000, 0x90000), (0x9004C, 0x9004C), (0x20000000, 0x2010FFFF)] k_) : rget (Agg.noteWait g n tag).regs k_ = rget g.regs k_ := by
  have hm := fun (m : List (Nat × Nat)) (c : coversR [(0x90000, 0x90000), (0x9004C, 0x9004C), (0x20000000, 0x2010FFFF)] m = true) => Outside.mono h c
  have hb0 : Outside [(0x90000, 0x90000)] k_ := hm _ (by decide)
  have hb1 : Outside [(0x9004C, 0x9004C)] k_ := hm _ (by decide)
  have hb2 : Outside [(0x20000000, 0x2010FFFF)] k_ := hm _ (by decide)
  unfold Agg.noteWait
  (repeat' split) <;> simp [hb0, hb1, hb2, Nat.add_assoc]
@[simp] theorem Agg.enter_rget (g : Agg) (n : Nat) (pos : Nat) (d : List Byte) (slots : Nat) (shared : Bool) (tagged : Bool) (codes : List Status) (chained : Bool) (k_ : Nat) (h : Outside [(0x90000, 0x90000), (0x9004C, 0x9004C)] k_) : rget (Agg.enter g n pos d slots shared tagged codes chained).regs k_ = rget g.regs k_ := by
  have hm := fun (m : List (Nat × Nat)) (c : coversR [(0x90000, 0x90000), (0x9004C, 0x9004C)] m = true) => Outside.mono h c
  have hb0 : Outside [(0x90000, 0x90000)] k_ := hm _ (by decide)
  have hb1 : Outside [(0x9004C, 0x9004C)] k_ := hm _ (by decide)
  unfold Agg.enter
  (repeat' split) <;> simp [hb0, hb1]
@[simp] theorem Agg.refuseDescr_rget (g : Agg) (n : Nat) (pos : Nat) (d : List Byte) (st : Status) (k_ : Nat) (h : Outside [(0x43000, 0x431FF), (0x90000, 0x90000), (0x90040, 0x90040), (0xB0000, 0xB01FF)] k_) : rget (Agg.refuseDescr g n pos d st).regs k_ = rget g.regs k_ := by
  have hm := fun (m : List (Nat × Nat)) (c : coversR [(0x43000, 0x431FF), (0x90000, 0x90000), (0x90040, 0x90040), (0xB0000, 0xB01FF)] m = true) => Outside.mono h c
  have hb0 : Outside [(0x43000, 0x431FF), (0xB0000, 0xB01FF)] k_ := hm _ (by decide)
  have hb1 : Outside [(0x90000, 0x90000), (0x90040, 0x90040)] k_ := hm _ (by decide)
  unfold Agg.refuseDescr
  (repeat' split) <;> simp [hb0, hb1]
@[simp] theorem Agg.getInfo_rget (g : Agg) (c : Caller) (k_ : Nat) (h : Outside [(0x43000, 0x431FF), (0x90000, 0x90000), (0x90040, 0x90040), (0xB0000, 0xB01FF)] k_) : rget (Agg.getInfo g c).regs k_ = rget g.regs k_ := by
  have hm := fun (m : List (Nat × Nat)) (c : coversR [(0x43000, 0x431FF), (0x90000, 0x90000), (0x90040, 0x90040), (0xB0000, 0xB01FF)] m = true) => Outside.mono h c
  have hb0 : Outside [(0x43000, 0x431FF), (0x90000, 0x90000), (0x90040, 0x90040), (0xB0000, 0xB01FF)] k_ := hm _ (by decide)
  unfold Agg.getInfo
  (repeat' split) <;> simp [hb0]
@[simp] theorem Agg.readCounters_rget (g : Agg) (c : Caller) (dst : Nat) (k_ : Nat) (h : Outside [(0x43000, 0x431FF), (0x90000, 0x90000), (0x90040, 0x90040), (0xB0000, 0xB01FF)] k_) : rget (Agg.readCounters g c dst).regs k_ = rget g.regs k_ := by
  have hm := fun (m : List (Nat × Nat)) (c : coversR [(0x43000, 0x431FF), (0x90000, 0x90000), (0x90040, 0x90040), (0xB0000, 0xB01FF)] m = true) => Outside.mono h c
  have hb0 : Outside [(0x43000, 0x431FF), (0x90000, 0x90000), (0x90040, 0x90040), (0xB0000, 0xB01FF)] k_ := hm _ (by decide)
  unfold Agg.readCounters
  (repeat' split) <;> simp [hb0]
@[simp] theorem Agg.readGlobal_rget (g : Agg) (c : Caller) (dst : Nat) (k_ : Nat) (h : Outside [(0x43000, 0x431FF), (0x90000, 0x90000), (0x90040, 0x90040), (0xB0000, 0xB01FF)] k_) : rget (Agg.readGlobal g c dst).regs k_ = rget g.regs k_ := by
  have hm := fun (m : List (Nat × Nat)) (c : coversR [(0x43000, 0x431FF), (0x90000, 0x90000), (0x90040, 0x90040), (0xB0000, 0xB01FF)] m = true) => Outside.mono h c
  have hb0 : Outside [(0x43000, 0x431FF), (0x90000, 0x90000), (0x90040, 0x90040), (0xB0000, 0xB01FF)] k_ := hm _ (by decide)
  unfold Agg.readGlobal
  (repeat' split) <;> simp [hb0]
@[simp] theorem Agg.getCaps_rget (g : Agg) (c : Caller) (k_ : Nat) (h : Outside [(0x43000, 0x431FF), (0x90000, 0x90000), (0x90040, 0x90040), (0xB0000, 0xB01FF)] k_) : rget (Agg.getCaps g c).regs k_ = rget g.regs k_ := by
  have hm := fun (m : List (Nat × Nat)) (c : coversR [(0x43000, 0x431FF), (0x90000, 0x90000), (0x90040, 0x90040), (0xB0000, 0xB01FF)] m = true) => Outside.mono h c
  have hb0 : Outside [(0x43000, 0x431FF), (0x90000, 0x90000), (0x90040, 0x90040), (0xB0000, 0xB01FF)] k_ := hm _ (by decide)
  unfold Agg.getCaps
  (repeat' split) <;> simp [hb0]
@[simp] theorem Agg.nop_rget (g : Agg) (c : Caller) (k_ : Nat) (h : Outside [(0x43000, 0x431FF), (0x90000, 0x90000), (0x90040, 0x90040), (0xB0000, 0xB01FF)] k_) : rget (Agg.nop g c).regs k_ = rget g.regs k_ := by
  have hm := fun (m : List (Nat × Nat)) (c : coversR [(0x43000, 0x431FF), (0x90000, 0x90000), (0x90040, 0x90040), (0xB0000, 0xB01FF)] m = true) => Outside.mono h c
  have hb0 : Outside [(0x43000, 0x431FF), (0x90000, 0x90000), (0x90040, 0x90040), (0xB0000, 0xB01FF)] k_ := hm _ (by decide)
  unfold Agg.nop
  (repeat' split) <;> simp [hb0]
@[simp] theorem Agg.runTime_rget (g : Agg) (c : Caller) (op : Nat) (fn : Nat) (p : Nat → Nat) (k_ : Nat) (h : Outside [(0x1000, 0x1000), (0x1048, 0x1048), (0x43000, 0x431FF), (0x90000, 0x90000), (0x90040, 0x90040), (0xB0000, 0xB01FF)] k_) : rget (Agg.runTime g c op fn p).regs k_ = rget g.regs k_ := by
  have hm := fun (m : List (Nat × Nat)) (c : coversR [(0x1000, 0x1000), (0x1048, 0x1048), (0x43000, 0x431FF), (0x90000, 0x90000), (0x90040, 0x90040), (0xB0000, 0xB01FF)] m = true) => Outside.mono h c
  have hb0 : Outside [(0x43000, 0x431FF), (0x90000, 0x90000), (0x90040, 0x90040), (0xB0000, 0xB01FF)] k_ := hm _ (by decide)
  have hb1 : Outside [(0x1000, 0x1000), (0x1048, 0x1048), (0x43000, 0x431FF), (0x90000, 0x90000), (0x90040, 0x90040), (0xB0000, 0xB01FF)] k_ := hm _ (by decide)
  unfold Agg.runTime
  (try dsimp only) <;> (repeat' split) <;> simp [hb0, hb1]
@[simp] theorem Agg.runAtu_rget (g : Agg) (c : Caller) (op : Nat) (fn : Nat) (p : Nat → Nat) (k_ : Nat) (h : Outside [(0x20000, 0x23FFF), (0x43000, 0x431FF), (0x90000, 0x90000), (0x90040, 0x90040), (0xB0000, 0xB01FF)] k_) : rget (Agg.runAtu g c op fn p).regs k_ = rget g.regs k_ := by
  have hm := fun (m : List (Nat × Nat)) (c : coversR [(0x20000, 0x23FFF), (0x43000, 0x431FF), (0x90000, 0x90000), (0x90040, 0x90040), (0xB0000, 0xB01FF)] m = true) => Outside.mono h c
  have hb0 : Outside [(0x43000, 0x431FF), (0x90000, 0x90000), (0x90040, 0x90040), (0xB0000, 0xB01FF)] k_ := hm _ (by decide)
  have hb1 : Outside [(0x20000, 0x23FFF), (0x43000, 0x431FF), (0x90000, 0x90000), (0x90040, 0x90040), (0xB0000, 0xB01FF)] k_ := hm _ (by decide)
  unfold Agg.runAtu
  (try dsimp only) <;> (repeat' split) <;> simp [hb0, hb1]
@[simp] theorem Agg.runVerdict_rget (g : Agg) (c : Caller) (op : Nat) (fn : Nat) (p : Nat → Nat) (k_ : Nat) (h : Outside [(0x43000, 0x431FF), (0x80000, 0x80000), (0x80064, 0x80064), (0x90000, 0x90000), (0x90040, 0x90040), (0xB0000, 0xB01FF)] k_) : rget (Agg.runVerdict g c op fn p).regs k_ = rget g.regs k_ := by
  have hm := fun (m : List (Nat × Nat)) (c : coversR [(0x43000, 0x431FF), (0x80000, 0x80000), (0x80064, 0x80064), (0x90000, 0x90000), (0x90040, 0x90040), (0xB0000, 0xB01FF)] m = true) => Outside.mono h c
  have hb0 : Outside [(0x43000, 0x431FF), (0x80000, 0x80000), (0x80064, 0x80064), (0x90000, 0x90000), (0x90040, 0x90040), (0xB0000, 0xB01FF)] k_ := hm _ (by decide)
  have hb1 : Outside [(0x43000, 0x431FF), (0x90000, 0x90000), (0x90040, 0x90040), (0xB0000, 0xB01FF)] k_ := hm _ (by decide)
  unfold Agg.runVerdict
  (try dsimp only) <;> (repeat' split) <;> simp [hb0, hb1]
@[simp] theorem Agg.runScore_rget (g : Agg) (c : Caller) (op : Nat) (fn : Nat) (p : Nat → Nat) (free : Nat → Nat) (k_ : Nat) (h : Outside [(0x43000, 0x431FF), (0x60000, 0x60007), (0x60100, 0x602FF), (0x90000, 0x90000), (0x90040, 0x90040), (0xB0000, 0xB01FF)] k_) : rget (Agg.runScore g c op fn p free).regs k_ = rget g.regs k_ := by
  have hm := fun (m : List (Nat × Nat)) (c : coversR [(0x43000, 0x431FF), (0x60000, 0x60007), (0x60100, 0x602FF), (0x90000, 0x90000), (0x90040, 0x90040), (0xB0000, 0xB01FF)] m = true) => Outside.mono h c
  have hb0 : Outside [(0x43000, 0x431FF), (0x90000, 0x90000), (0x90040, 0x90040), (0xB0000, 0xB01FF)] k_ := hm _ (by decide)
  have hb1 : Outside [(0x43000, 0x431FF), (0x60000, 0x60007), (0x60100, 0x602FF), (0x90000, 0x90000), (0x90040, 0x90040), (0xB0000, 0xB01FF)] k_ := hm _ (by decide)
  unfold Agg.runScore
  (try dsimp only) <;> (repeat' split) <;> simp [hb0, hb1]
@[simp] theorem Agg.runJob_rget (g : Agg) (c : Caller) (op : Nat) (fn : Nat) (p : Nat → Nat) (free : Nat → Nat) (k_ : Nat) (h : Outside [(0x43000, 0x431FF), (0x90000, 0x90000), (0x90040, 0x90040), (0xA0000, 0xA0000), (0xA0040, 0xA007F), (0xB0000, 0xB01FF)] k_) : rget (Agg.runJob g c op fn p free).regs k_ = rget g.regs k_ := by
  have hm := fun (m : List (Nat × Nat)) (c : coversR [(0x43000, 0x431FF), (0x90000, 0x90000), (0x90040, 0x90040), (0xA0000, 0xA0000), (0xA0040, 0xA007F), (0xB0000, 0xB01FF)] m = true) => Outside.mono h c
  have hb0 : Outside [(0x43000, 0x431FF), (0x90000, 0x90000), (0x90040, 0x90040), (0xA0000, 0xA0000), (0xA004C, 0xA004C), (0xB0000, 0xB01FF)] k_ := hm _ (by decide)
  have hb1 : Outside [(0x43000, 0x431FF), (0x90000, 0x90000), (0x90040, 0x90040), (0xA0000, 0xA0000), (0xA0040, 0xA007F), (0xB0000, 0xB01FF)] k_ := hm _ (by decide)
  have hb2 : Outside [(0x43000, 0x431FF), (0x90000, 0x90000), (0x90040, 0x90040), (0xB0000, 0xB01FF)] k_ := hm _ (by decide)
  have hb3 : Outside [(0x43000, 0x431FF), (0x90000, 0x90000), (0x90040, 0x90040), (0xA0000, 0xA0000), (0xA0044, 0xA0044), (0xB0000, 0xB01FF)] k_ := hm _ (by decide)
  have hb4 : Outside [(0x43000, 0x431FF), (0x90000, 0x90000), (0x90040, 0x90040), (0xA0000, 0xA0000), (0xA0040, 0xA0040), (0xB0000, 0xB01FF)] k_ := hm _ (by decide)
  unfold Agg.runJob
  (try dsimp only) <;> (repeat' split) <;> simp [hb0, hb1, hb2, hb3, hb4]
@[simp] theorem Agg.waitGraph_rget (g : Agg) (c : Caller) (chip : Bool) (dst : Nat) (mx : Nat) (k_ : Nat) (h : Outside [(0x43000, 0x431FF), (0x90000, 0x90000), (0x90040, 0x90040), (0x9004C, 0x90050), (0xB0000, 0xB01FF), (0x20000000, 0x2010FFFF)] k_) : rget (Agg.waitGraph g c chip dst mx).regs k_ = rget g.regs k_ := by
  have hm := fun (m : List (Nat × Nat)) (c : coversR [(0x43000, 0x431FF), (0x90000, 0x90000), (0x90040, 0x90040), (0x9004C, 0x90050), (0xB0000, 0xB01FF), (0x20000000, 0x2010FFFF)] m = true) => Outside.mono h c
  have hb0 : Outside [(0x43000, 0x431FF), (0x90000, 0x90000), (0x90040, 0x90040), (0x9004C, 0x9004C), (0xB0000, 0xB01FF), (0x20000000, 0x2010FFFF)] k_ := hm _ (by decide)
  have hb1 : Outside [(0x43000, 0x431FF), (0x90000, 0x90000), (0x90040, 0x90040), (0xB0000, 0xB01FF)] k_ := hm _ (by decide)
  have hb2 : Outside [(0x90000, 0x90000)] k_ := hm _ (by decide)
  have hb3 : Outside [(0x90050, 0x90050)] k_ := hm _ (by decide)
  unfold Agg.waitGraph
  (repeat' split) <;> simp [hb0, hb1, hb2, hb3]
@[simp] theorem Agg.windowRevoke_rget (g : Agg) (c : Caller) (w : Nat) (rkey : Nat) (k_ : Nat) (h : Outside [(0x43000, 0x431FF), (0x90000, 0x90000), (0x90040, 0x90040), (0xB0000, 0xB01FF)] k_) : rget (Agg.windowRevoke g c w rkey).regs k_ = rget g.regs k_ := by
  have hm := fun (m : List (Nat × Nat)) (c : coversR [(0x43000, 0x431FF), (0x90000, 0x90000), (0x90040, 0x90040), (0xB0000, 0xB01FF)] m = true) => Outside.mono h c
  have hb0 : Outside [(0x43000, 0x431FF), (0x90000, 0x90000), (0x90040, 0x90040), (0xB0000, 0xB01FF)] k_ := hm _ (by decide)
  unfold Agg.windowRevoke
  (repeat' split) <;> simp [hb0]
@[simp] theorem Agg.qpCreate_rget (g : Agg) (c : Caller) (pd : Nat) (a : QpArgs) (k_ : Nat) (h : Outside [(0x43000, 0x431FF), (0x90000, 0x90000), (0x90040, 0x90040), (0xB0000, 0xB01FF)] k_) : rget (Agg.qpCreate g c pd a).regs k_ = rget g.regs k_ := by
  have hm := fun (m : List (Nat × Nat)) (c : coversR [(0x43000, 0x431FF), (0x90000, 0x90000), (0x90040, 0x90040), (0xB0000, 0xB01FF)] m = true) => Outside.mono h c
  have hb0 : Outside [(0x43000, 0x431FF), (0x90000, 0x90000), (0x90040, 0x90040), (0xB0000, 0xB01FF)] k_ := hm _ (by decide)
  unfold Agg.qpCreate
  (try dsimp only)
  (repeat' split) <;> simp [hb0]
@[simp] theorem Agg.nakQp_rget (g : Agg) (qpn : Nat) (q : Qp) (psn : Nat) (code : Nat) (flagNo : Nat) (k_ : Nat) (h : Outside [(0x43000, 0x431FF), (0xB0000, 0xB01FF)] k_) : rget (Agg.nakQp g qpn q psn code flagNo).regs k_ = rget g.regs k_ := by
  have hm := fun (m : List (Nat × Nat)) (c : coversR [(0x43000, 0x431FF), (0xB0000, 0xB01FF)] m = true) => Outside.mono h c
  have hb0 : Outside [(0x43000, 0x431FF), (0xB0000, 0xB01FF)] k_ := hm _ (by decide)
  have hb1 : Outside [(0xB0000, 0xB0000)] k_ := hm _ (by decide)
  have hb2 : Outside [(0xB0000, 0xB01FF)] k_ := hm _ (by decide)
  have hb3 : Outside [(0xB0054, 0xB0054)] k_ := hm _ (by decide)
  have hq : Outside [(720960 + 4 * (flagNo % 8), 720960 + 4 * (flagNo % 8))] k_ := outside_range (hm [(0xB0000, 0xB01FF)] (by decide)) (by omega) (by omega)
  have hq5 : Outside [(0xB0054, 0xB0054)] k_ := hm _ (by decide)
  have hq6 : Outside [(0xB0000, 0xB0000)] k_ := hm _ (by decide)
  unfold Agg.nakQp
  simp [hq, hq5, hq6, hb0, hb1, hb2, hb3, Nat.add_assoc]
@[simp] theorem Agg.nakAccess_rget (g : Agg) (qpn : Nat) (q : Qp) (psn : Nat) (addr : Nat) (k_ : Nat) (h : Outside [(0x43000, 0x431FF), (0x90000, 0x90000), (0x90040, 0x90040), (0xB0000, 0xB01FF)] k_) : rget (Agg.nakAccess g qpn q psn addr).regs k_ = rget g.regs k_ := by
  have hm := fun (m : List (Nat × Nat)) (c : coversR [(0x43000, 0x431FF), (0x90000, 0x90000), (0x90040, 0x90040), (0xB0000, 0xB01FF)] m = true) => Outside.mono h c
  have hb0 : Outside [(0x43000, 0x431FF), (0xB0000, 0xB01FF)] k_ := hm _ (by decide)
  have hb1 : Outside [(0x90000, 0x90000), (0x90040, 0x90040)] k_ := hm _ (by decide)
  unfold Agg.nakAccess
  (repeat' split) <;> simp [hb0, hb1]
@[simp] theorem Agg.cutRead_rget (g : Agg) (r : ReadOut) (k_ : Nat) (h : Outside [(0x43000, 0x431FF), (0x90000, 0x90000), (0x90040, 0x90040), (0xB0000, 0xB01FF)] k_) : rget (Agg.cutRead g r).regs k_ = rget g.regs k_ := by
  have hm := fun (m : List (Nat × Nat)) (c : coversR [(0x43000, 0x431FF), (0x90000, 0x90000), (0x90040, 0x90040), (0xB0000, 0xB01FF)] m = true) => Outside.mono h c
  have hb0 : Outside [(0x43000, 0x431FF), (0x90000, 0x90000), (0x90040, 0x90040), (0xB0000, 0xB01FF)] k_ := hm _ (by decide)
  unfold Agg.cutRead
  (try dsimp only) <;> (repeat' split) <;> simp [hb0]
@[simp] theorem Agg.endQpDrain_rget (g : Agg) (qpn : Nat) (q : Qp) (d : QpDrain) (k_ : Nat) (h : Outside [(0x43000, 0x431FF), (0x90000, 0x90000), (0x90040, 0x90040), (0xB0000, 0xB01FF)] k_) : rget (Agg.endQpDrain g qpn q d).regs k_ = rget g.regs k_ := by
  have hm := fun (m : List (Nat × Nat)) (c : coversR [(0x43000, 0x431FF), (0x90000, 0x90000), (0x90040, 0x90040), (0xB0000, 0xB01FF)] m = true) => Outside.mono h c
  have hb0 : Outside [(0x43000, 0x431FF), (0x90000, 0x90000), (0x90040, 0x90040), (0xB0000, 0xB01FF)] k_ := hm _ (by decide)
  have hb1 : Outside [(0xB0000, 0xB01FF)] k_ := hm _ (by decide)
  have hb2 : Outside [(0xB0000, 0xB0000)] k_ := hm _ (by decide)
  have hb3 : Outside [(0xB0058, 0xB0058)] k_ := hm _ (by decide)
  unfold Agg.endQpDrain
  (try dsimp only) <;> (repeat' split) <;> simp [hb0, hb1, hb2, hb3]
@[simp] theorem Agg.drainQp_rget (g : Agg) (qpn : Nat) (d : QpDrain) (k_ : Nat) (h : Outside [(0x43000, 0x431FF), (0x90000, 0x90000), (0x90040, 0x90040), (0xB0000, 0xB01FF)] k_) : rget (Agg.drainQp g qpn d).regs k_ = rget g.regs k_ := by
  have hm := fun (m : List (Nat × Nat)) (c : coversR [(0x43000, 0x431FF), (0x90000, 0x90000), (0x90040, 0x90040), (0xB0000, 0xB01FF)] m = true) => Outside.mono h c
  have hb0 : Outside [(0xB0000, 0xB0000)] k_ := hm _ (by decide)
  have hb1 : Outside [(0xB0000, 0xB01FF)] k_ := hm _ (by decide)
  have hb2 : Outside [(0xB0048, 0xB0048)] k_ := hm _ (by decide)
  have hb3 : Outside [(0xB0058, 0xB0058)] k_ := hm _ (by decide)
  have hb4 : Outside [(0x43000, 0x431FF), (0x90000, 0x90000), (0x90040, 0x90040), (0xB0000, 0xB01FF)] k_ := hm _ (by decide)
  unfold Agg.drainQp
  (repeat' split) <;> simp [hb0, hb1, hb2, hb3, hb4]
@[simp] theorem Agg.qpReconnect_rget (g : Agg) (c : Caller) (qpn : Nat) (a : QpArgs) (k_ : Nat) (h : Outside [(0x43000, 0x431FF), (0x90000, 0x90000), (0x90040, 0x90040), (0xB0000, 0xB01FF)] k_) : rget (Agg.qpReconnect g c qpn a).regs k_ = rget g.regs k_ := by
  have hm := fun (m : List (Nat × Nat)) (c : coversR [(0x43000, 0x431FF), (0x90000, 0x90000), (0x90040, 0x90040), (0xB0000, 0xB01FF)] m = true) => Outside.mono h c
  have hb0 : Outside [(0x43000, 0x431FF), (0x90000, 0x90000), (0x90040, 0x90040), (0xB0000, 0xB01FF)] k_ := hm _ (by decide)
  have hb1 : Outside [(0x43000, 0x431FF), (0xB0000, 0xB01FF)] k_ := hm _ (by decide)
  have hb2 : Outside [(0xB0000, 0xB01FF)] k_ := hm _ (by decide)
  unfold Agg.qpReconnect
  (try dsimp only)
  (repeat' split) <;> (first | (simp [hb0, hb1, hb2]; done) | (rw [Agg.command_rget _ _ _ _ _ _ _ (by simp [hb0, hb1, hb2])]; (repeat' intro _); (try dsimp only); (repeat' split) <;> (simp [hb0, hb1, hb2]; done)))
@[simp] theorem Agg.violationRead_rget (g : Agg) (c : Caller) (from_ : Nat) (mx : Nat) (dst : Nat) (k_ : Nat) (h : Outside [(0x43000, 0x431FF), (0x90000, 0x90000), (0x90040, 0x90040), (0xB0000, 0xB01FF)] k_) : rget (Agg.violationRead g c from_ mx dst).regs k_ = rget g.regs k_ := by
  have hm := fun (m : List (Nat × Nat)) (c : coversR [(0x43000, 0x431FF), (0x90000, 0x90000), (0x90040, 0x90040), (0xB0000, 0xB01FF)] m = true) => Outside.mono h c
  have hb0 : Outside [(0x43000, 0x431FF), (0x90000, 0x90000), (0x90040, 0x90040), (0xB0000, 0xB01FF)] k_ := hm _ (by decide)
  unfold Agg.violationRead
  (repeat' split) <;> simp [hb0]
@[simp] theorem Agg.eventLogRead_rget (g : Agg) (c : Caller) (from_ : Nat) (mx : Nat) (dst : Nat) (k_ : Nat) (h : Outside [(0x43000, 0x431FF), (0x90000, 0x90000), (0x90040, 0x90040), (0xB0000, 0xB01FF)] k_) : rget (Agg.eventLogRead g c from_ mx dst).regs k_ = rget g.regs k_ := by
  have hm := fun (m : List (Nat × Nat)) (c : coversR [(0x43000, 0x431FF), (0x90000, 0x90000), (0x90040, 0x90040), (0xB0000, 0xB01FF)] m = true) => Outside.mono h c
  have hb0 : Outside [(0x43000, 0x431FF), (0x90000, 0x90000), (0x90040, 0x90040), (0xB0000, 0xB01FF)] k_ := hm _ (by decide)
  unfold Agg.eventLogRead
  (repeat' split) <;> simp [hb0]
@[simp] theorem Agg.recorderRead_rget (g : Agg) (c : Caller) (port : Nat) (from_ : Nat) (mx : Nat) (dst : Nat) (k_ : Nat) (h : Outside [(0x43000, 0x431FF), (0x90000, 0x90000), (0x90040, 0x90040), (0xB0000, 0xB01FF)] k_) : rget (Agg.recorderRead g c port from_ mx dst).regs k_ = rget g.regs k_ := by
  have hm := fun (m : List (Nat × Nat)) (c : coversR [(0x43000, 0x431FF), (0x90000, 0x90000), (0x90040, 0x90040), (0xB0000, 0xB01FF)] m = true) => Outside.mono h c
  have hb0 : Outside [(0x43000, 0x431FF), (0x90000, 0x90000), (0x90040, 0x90040), (0xB0000, 0xB01FF)] k_ := hm _ (by decide)
  unfold Agg.recorderRead
  (repeat' split) <;> simp [hb0]
@[simp] theorem Agg.logRead_rget (g : Agg) (c : Caller) (source : Nat) (port : Nat) (from_ : Nat) (mx : Nat) (dst : Nat) (k_ : Nat) (h : Outside [(0x43000, 0x431FF), (0x90000, 0x90000), (0x90040, 0x90040), (0xB0000, 0xB01FF)] k_) : rget (Agg.logRead g c source port from_ mx dst).regs k_ = rget g.regs k_ := by
  have hm := fun (m : List (Nat × Nat)) (c : coversR [(0x43000, 0x431FF), (0x90000, 0x90000), (0x90040, 0x90040), (0xB0000, 0xB01FF)] m = true) => Outside.mono h c
  have hb0 : Outside [(0x43000, 0x431FF), (0x90000, 0x90000), (0x90040, 0x90040), (0xB0000, 0xB01FF)] k_ := hm _ (by decide)
  unfold Agg.logRead
  (repeat' split) <;> simp [hb0]
@[simp] theorem Agg.failSync_rget (g : Agg) (st : Status) (k_ : Nat) (h : Outside [(0x43000, 0x431FF), (0x90000, 0x90000), (0x90040, 0x90040), (0xB0000, 0xB01FF)] k_) : rget (Agg.failSync g st).regs k_ = rget g.regs k_ := by
  have hm := fun (m : List (Nat × Nat)) (c : coversR [(0x43000, 0x431FF), (0x90000, 0x90000), (0x90040, 0x90040), (0xB0000, 0xB01FF)] m = true) => Outside.mono h c
  have hb0 : Outside [(0x43000, 0x431FF), (0x90000, 0x90000), (0x90040, 0x90040), (0xB0000, 0xB01FF)] k_ := hm _ (by decide)
  unfold Agg.failSync
  (try dsimp only)
  (repeat' split) <;> simp [hb0]
@[simp] theorem Agg.askKeeper_rget (g : Agg) (k_ : Nat) (h : Outside [(0x43000, 0x431FF), (0x90000, 0x90000), (0x90040, 0x90040), (0xB0000, 0xB01FF)] k_) : rget (Agg.askKeeper g).regs k_ = rget g.regs k_ := by
  have hm := fun (m : List (Nat × Nat)) (c : coversR [(0x43000, 0x431FF), (0x90000, 0x90000), (0x90040, 0x90040), (0xB0000, 0xB01FF)] m = true) => Outside.mono h c
  have hb0 : Outside [(0x43000, 0x431FF), (0x90000, 0x90000), (0x90040, 0x90040), (0xB0000, 0xB01FF)] k_ := hm _ (by decide)
  unfold Agg.askKeeper
  (try dsimp only) <;> (repeat' split) <;> simp [hb0]
@[simp] theorem Agg.syncStart_rget (g : Agg) (c : Caller) (source : Nat) (fallback : Bool) (theirs : Option (List Byte)) (k_ : Nat) (h : Outside [(0x43000, 0x431FF), (0x90000, 0x90000), (0x90040, 0x90040), (0xB0000, 0xB01FF)] k_) : rget (Agg.syncStart g c source fallback theirs).regs k_ = rget g.regs k_ := by
  have hm := fun (m : List (Nat × Nat)) (c : coversR [(0x43000, 0x431FF), (0x90000, 0x90000), (0x90040, 0x90040), (0xB0000, 0xB01FF)] m = true) => Outside.mono h c
  have hb0 : Outside [(0x43000, 0x431FF), (0x90000, 0x90000), (0x90040, 0x90040), (0xB0000, 0xB01FF)] k_ := hm _ (by decide)
  unfold Agg.syncStart
  (repeat' split) <;> simp [hb0]
@[simp] theorem Agg.qpDestroy_rget (g : Agg) (c : Caller) (qpn : Nat) (k_ : Nat) (h : Outside [(0x43000, 0x431FF), (0x90000, 0x90000), (0x90040, 0x90040), (0xB0000, 0xB01FF)] k_) : rget (Agg.qpDestroy g c qpn).regs k_ = rget g.regs k_ := by
  have hm := fun (m : List (Nat × Nat)) (c : coversR [(0x43000, 0x431FF), (0x90000, 0x90000), (0x90040, 0x90040), (0xB0000, 0xB01FF)] m = true) => Outside.mono h c
  have hb0 : Outside [(0x43000, 0x431FF), (0x90000, 0x90000), (0x90040, 0x90040), (0xB0000, 0xB01FF)] k_ := hm _ (by decide)
  have hb1 : Outside [(0xB0000, 0xB01FF)] k_ := hm _ (by decide)
  unfold Agg.qpDestroy
  (try dsimp only)
  (repeat' split) <;> (first | (simp [hb0, hb1]; done) | (rw [Agg.command_rget _ _ _ _ _ _ _ (by simp [hb0, hb1])]; (repeat' intro _); (try dsimp only); (repeat' split) <;> (simp [hb0, hb1]; done)))
@[simp] theorem Agg.pdCreate_rget (g : Agg) (c : Caller) (k_ : Nat) (h : Outside [(0x43000, 0x431FF), (0x90000, 0x90000), (0x90040, 0x90040), (0xB0000, 0xB01FF)] k_) : rget (Agg.pdCreate g c).regs k_ = rget g.regs k_ := by
  have hm := fun (m : List (Nat × Nat)) (c : coversR [(0x43000, 0x431FF), (0x90000, 0x90000), (0x90040, 0x90040), (0xB0000, 0xB01FF)] m = true) => Outside.mono h c
  have hb0 : Outside [(0x43000, 0x431FF), (0x90000, 0x90000), (0x90040, 0x90040), (0xB0000, 0xB01FF)] k_ := hm _ (by decide)
  unfold Agg.pdCreate
  (try dsimp only)
  (repeat' split) <;> simp [hb0]
@[simp] theorem Agg.pdDestroy_rget (g : Agg) (c : Caller) (pd : Nat) (k_ : Nat) (h : Outside [(0x43000, 0x431FF), (0x90000, 0x90000), (0x90040, 0x90040), (0xB0000, 0xB01FF)] k_) : rget (Agg.pdDestroy g c pd).regs k_ = rget g.regs k_ := by
  have hm := fun (m : List (Nat × Nat)) (c : coversR [(0x43000, 0x431FF), (0x90000, 0x90000), (0x90040, 0x90040), (0xB0000, 0xB01FF)] m = true) => Outside.mono h c
  have hb0 : Outside [(0x43000, 0x431FF), (0x90000, 0x90000), (0x90040, 0x90040), (0xB0000, 0xB01FF)] k_ := hm _ (by decide)
  unfold Agg.pdDestroy
  (repeat' split) <;> simp [hb0]
@[simp] theorem Agg.windowOpen_rget (g : Agg) (c : Caller) (pd : Nat) (base : Nat) (len : Nat) (access : Nat) (qpn : Option Nat) (notify : Bool) (k_ : Nat) (h : Outside [(0x43000, 0x431FF), (0x90000, 0x90000), (0x90040, 0x90040), (0xB0000, 0xB01FF)] k_) : rget (Agg.windowOpen g c pd base len access qpn notify).regs k_ = rget g.regs k_ := by
  have hm := fun (m : List (Nat × Nat)) (c : coversR [(0x43000, 0x431FF), (0x90000, 0x90000), (0x90040, 0x90040), (0xB0000, 0xB01FF)] m = true) => Outside.mono h c
  have hb0 : Outside [(0x43000, 0x431FF), (0x90000, 0x90000), (0x90040, 0x90040), (0xB0000, 0xB01FF)] k_ := hm _ (by decide)
  unfold Agg.windowOpen
  (try dsimp only)
  (repeat' split) <;> simp [hb0]
@[simp] theorem Agg.pairStatus_rget (g : Agg) (c : Caller) (k_ : Nat) (h : Outside [(0x43000, 0x431FF), (0x90000, 0x90000), (0x90040, 0x90040), (0xB0000, 0xB01FF)] k_) : rget (Agg.pairStatus g c).regs k_ = rget g.regs k_ := by
  have hm := fun (m : List (Nat × Nat)) (c : coversR [(0x43000, 0x431FF), (0x90000, 0x90000), (0x90040, 0x90040), (0xB0000, 0xB01FF)] m = true) => Outside.mono h c
  have hb0 : Outside [(0x43000, 0x431FF), (0x90000, 0x90000), (0x90040, 0x90040), (0xB0000, 0xB01FF)] k_ := hm _ (by decide)
  unfold Agg.pairStatus
  (repeat' split) <;> simp [hb0]
@[simp] theorem Agg.runUnit_rget (g : Agg) (c : Caller) (op : Nat) (fn : Nat) (p : Nat → Nat) (k_ : Nat) (h : Outside [(0x43000, 0x431FF), (0x90000, 0x90000), (0x90040, 0x90040), (0x9004C, 0x90050), (0xB0000, 0xB01FF), (0xC0000, 0xC0000), (0xC0008, 0xC0008), (0xC0038, 0xC0038), (0xC0044, 0xC0044), (0xE0000, 0xE0000), (0xE0054, 0xE0054), (0x20000000, 0x2010FFFF)] k_) : rget (Agg.runUnit g c op fn p).regs k_ = rget g.regs k_ := by
  have hm := fun (m : List (Nat × Nat)) (c : coversR [(0x43000, 0x431FF), (0x90000, 0x90000), (0x90040, 0x90040), (0x9004C, 0x90050), (0xB0000, 0xB01FF), (0xC0000, 0xC0000), (0xC0008, 0xC0008), (0xC0038, 0xC0038), (0xC0044, 0xC0044), (0xE0000, 0xE0000), (0xE0054, 0xE0054), (0x20000000, 0x2010FFFF)] m = true) => Outside.mono h c
  have hb0 : Outside [(0x43000, 0x431FF), (0x90000, 0x90000), (0x90040, 0x90040), (0x9004C, 0x90050), (0xB0000, 0xB01FF), (0x20000000, 0x2010FFFF)] k_ := hm _ (by decide)
  have hb1 : Outside [(0x43000, 0x431FF), (0x90000, 0x90000), (0x90040, 0x90040), (0xB0000, 0xB01FF)] k_ := hm _ (by decide)
  have hb2 : Outside [(0x43000, 0x431FF), (0x90000, 0x90000), (0x90040, 0x90040), (0xB0000, 0xB01FF), (0xC0000, 0xC0000), (0xC0044, 0xC0044)] k_ := hm _ (by decide)
  have hb3 : Outside [(0x43000, 0x431FF), (0x90000, 0x90000), (0x90040, 0x90040), (0xB0000, 0xB01FF), (0xC0008, 0xC0008)] k_ := hm _ (by decide)
  have hb4 : Outside [(0x43000, 0x431FF), (0x90000, 0x90000), (0x90040, 0x90040), (0xB0000, 0xB01FF), (0xC0000, 0xC0000), (0xC0038, 0xC0038), (0xC0044, 0xC0044), (0xE0000, 0xE0000), (0xE0054, 0xE0054)] k_ := hm _ (by decide)
  unfold Agg.runUnit
  (try dsimp only) <;> (repeat' split) <;> simp [hb0, hb1, hb2, hb3, hb4]
@[simp] theorem Agg.runDescr_rget (g : Agg) (c : Caller) (op : Nat) (fn : Nat) (p : Nat → Nat) (free : Nat → Nat) (k_ : Nat) (h : Outside [(0x1000, 0x1000), (0x1048, 0x1048), (0x20000, 0x23FFF), (0x43000, 0x431FF), (0x60000, 0x60007), (0x60100, 0x602FF), (0x80000, 0x80000), (0x80064, 0x80064), (0x90000, 0x90000), (0x90040, 0x90040), (0x9004C, 0x90050), (0xA0000, 0xA0000), (0xA0040, 0xA007F), (0xB0000, 0xB01FF), (0xC0000, 0xC0000), (0xC0008, 0xC0008), (0xC0038, 0xC0038), (0xC0044, 0xC0044), (0xE0000, 0xE0000), (0xE0054, 0xE0054), (0x20000000, 0x2010FFFF)] k_) : rget (Agg.runDescr g c op fn p free).regs k_ = rget g.regs k_ := by
  have hm := fun (m : List (Nat × Nat)) (c : coversR [(0x1000, 0x1000), (0x1048, 0x1048), (0x20000, 0x23FFF), (0x43000, 0x431FF), (0x60000, 0x60007), (0x60100, 0x602FF), (0x80000, 0x80000), (0x80064, 0x80064), (0x90000, 0x90000), (0x90040, 0x90040), (0x9004C, 0x90050), (0xA0000, 0xA0000), (0xA0040, 0xA007F), (0xB0000, 0xB01FF), (0xC0000, 0xC0000), (0xC0008, 0xC0008), (0xC0038, 0xC0038), (0xC0044, 0xC0044), (0xE0000, 0xE0000), (0xE0054, 0xE0054), (0x20000000, 0x2010FFFF)] m = true) => Outside.mono h c
  have hb0 : Outside [(0x1000, 0x1000), (0x1048, 0x1048), (0x43000, 0x431FF), (0x90000, 0x90000), (0x90040, 0x90040), (0xB0000, 0xB01FF)] k_ := hm _ (by decide)
  have hb1 : Outside [(0x20000, 0x23FFF), (0x43000, 0x431FF), (0x90000, 0x90000), (0x90040, 0x90040), (0xB0000, 0xB01FF)] k_ := hm _ (by decide)
  have hb2 : Outside [(0x43000, 0x431FF), (0x80000, 0x80000), (0x80064, 0x80064), (0x90000, 0x90000), (0x90040, 0x90040), (0xB0000, 0xB01FF)] k_ := hm _ (by decide)
  have hb3 : Outside [(0x43000, 0x431FF), (0x60000, 0x60007), (0x60100, 0x602FF), (0x90000, 0x90000), (0x90040, 0x90040), (0xB0000, 0xB01FF)] k_ := hm _ (by decide)
  have hb4 : Outside [(0x43000, 0x431FF), (0x90000, 0x90000), (0x90040, 0x90040), (0xA0000, 0xA0000), (0xA0040, 0xA007F), (0xB0000, 0xB01FF)] k_ := hm _ (by decide)
  have hb5 : Outside [(0x43000, 0x431FF), (0x90000, 0x90000), (0x90040, 0x90040), (0x9004C, 0x90050), (0xB0000, 0xB01FF), (0xC0000, 0xC0000), (0xC0008, 0xC0008), (0xC0038, 0xC0038), (0xC0044, 0xC0044), (0xE0000, 0xE0000), (0xE0054, 0xE0054), (0x20000000, 0x2010FFFF)] k_ := hm _ (by decide)
  unfold Agg.runDescr
  (try dsimp only) <;> (repeat' split) <;> simp [hb0, hb1, hb2, hb3, hb4, hb5]
@[simp] theorem Agg.runParams_rget (g : Agg) (n : Nat) (d : List Byte) (free : Nat → Nat) (k_ : Nat) (h : Outside [(0x1000, 0x1000), (0x1048, 0x1048), (0x20000, 0x23FFF), (0x43000, 0x431FF), (0x60000, 0x60007), (0x60100, 0x602FF), (0x80000, 0x80000), (0x80064, 0x80064), (0x90000, 0x90000), (0x90040, 0x90040), (0x9004C, 0x90050), (0xA0000, 0xA0000), (0xA0040, 0xA007F), (0xB0000, 0xB01FF), (0xC0000, 0xC0000), (0xC0008, 0xC0008), (0xC0038, 0xC0038), (0xC0044, 0xC0044), (0xE0000, 0xE0000), (0xE0054, 0xE0054), (0x20000000, 0x2010FFFF)] k_) : rget (Agg.runParams g n d free).regs k_ = rget g.regs k_ := by
  have hm := fun (m : List (Nat × Nat)) (c : coversR [(0x1000, 0x1000), (0x1048, 0x1048), (0x20000, 0x23FFF), (0x43000, 0x431FF), (0x60000, 0x60007), (0x60100, 0x602FF), (0x80000, 0x80000), (0x80064, 0x80064), (0x90000, 0x90000), (0x90040, 0x90040), (0x9004C, 0x90050), (0xA0000, 0xA0000), (0xA0040, 0xA007F), (0xB0000, 0xB01FF), (0xC0000, 0xC0000), (0xC0008, 0xC0008), (0xC0038, 0xC0038), (0xC0044, 0xC0044), (0xE0000, 0xE0000), (0xE0054, 0xE0054), (0x20000000, 0x2010FFFF)] m = true) => Outside.mono h c
  have hb0 : Outside [(0x1000, 0x1000), (0x1048, 0x1048), (0x20000, 0x23FFF), (0x43000, 0x431FF), (0x60000, 0x60007), (0x60100, 0x602FF), (0x80000, 0x80000), (0x80064, 0x80064), (0x90000, 0x90000), (0x90040, 0x90040), (0x9004C, 0x90050), (0xA0000, 0xA0000), (0xA0040, 0xA007F), (0xB0000, 0xB01FF), (0xC0000, 0xC0000), (0xC0008, 0xC0008), (0xC0038, 0xC0038), (0xC0044, 0xC0044), (0xE0000, 0xE0000), (0xE0054, 0xE0054), (0x20000000, 0x2010FFFF)] k_ := hm _ (by decide)
  unfold Agg.runParams
  (try dsimp only) <;> (repeat' split) <;> simp [hb0]
theorem Agg.admitAt_rget {g : Agg} {n pos : Nat} {free : Nat → Nat} {g' : Agg} (e : g.admitAt n pos free = .ok g' ∨ g.admitAt n pos free = .error g') (k_ : Nat) (h : Outside [(0x1000, 0x1000), (0x1048, 0x1048), (0x20000, 0x23FFF), (0x43000, 0x431FF), (0x60000, 0x60007), (0x60100, 0x602FF), (0x80000, 0x80000), (0x80064, 0x80064), (0x90000, 0x90000), (0x90040, 0x90040), (0x9004C, 0x90050), (0xA0000, 0xA0000), (0xA0040, 0xA007F), (0xB0000, 0xB01FF), (0xC0000, 0xC0000), (0xC0008, 0xC0008), (0xC0038, 0xC0038), (0xC0044, 0xC0044), (0xE0000, 0xE0000), (0xE0054, 0xE0054), (0x20000000, 0x2010FFFF)] k_) : rget g'.regs k_ = rget g.regs k_ := by
  have hm := fun (m : List (Nat × Nat)) (c : coversR [(0x1000, 0x1000), (0x1048, 0x1048), (0x20000, 0x23FFF), (0x43000, 0x431FF), (0x60000, 0x60007), (0x60100, 0x602FF), (0x80000, 0x80000), (0x80064, 0x80064), (0x90000, 0x90000), (0x90040, 0x90040), (0x9004C, 0x90050), (0xA0000, 0xA0000), (0xA0040, 0xA007F), (0xB0000, 0xB01FF), (0xC0000, 0xC0000), (0xC0008, 0xC0008), (0xC0038, 0xC0038), (0xC0044, 0xC0044), (0xE0000, 0xE0000), (0xE0054, 0xE0054), (0x20000000, 0x2010FFFF)] m = true) => Outside.mono h c
  have hb0 : Outside [(0x43000, 0x431FF), (0x90000, 0x90000), (0x90040, 0x90040), (0xB0000, 0xB01FF)] k_ := hm _ (by decide)
  have hb1 : Outside [(0x1000, 0x1000), (0x1048, 0x1048), (0x20000, 0x23FFF), (0x43000, 0x431FF), (0x60000, 0x60007), (0x60100, 0x602FF), (0x80000, 0x80000), (0x80064, 0x80064), (0x90000, 0x90000), (0x90040, 0x90040), (0x9004C, 0x90050), (0xA0000, 0xA0000), (0xA0040, 0xA007F), (0xB0000, 0xB01FF), (0xC0000, 0xC0000), (0xC0008, 0xC0008), (0xC0038, 0xC0038), (0xC0044, 0xC0044), (0xE0000, 0xE0000), (0xE0054, 0xE0054), (0x20000000, 0x2010FFFF)] k_ := hm _ (by decide)
  have hb2 : Outside [(0x90000, 0x90000), (0x9004C, 0x9004C)] k_ := hm _ (by decide)
  have hb3 : Outside [(0x90000, 0x90000), (0x9004C, 0x9004C), (0x20000000, 0x2010FFFF)] k_ := hm _ (by decide)
  unfold Agg.admitAt at e
  dsimp only at e
  repeat' split at e
  all_goals simp only [Except.ok.injEq, Except.error.injEq, reduceCtorEq, or_false, false_or] at e
  all_goals subst e
  all_goals simp [hb0, hb1, hb2, hb3]
@[simp] theorem Agg.admitAhead_rget (g : Agg) (free : Nat → Nat) (k_ : Nat) (h : Outside [(0x1000, 0x1000), (0x1048, 0x1048), (0x20000, 0x23FFF), (0x43000, 0x431FF), (0x60000, 0x60007), (0x60100, 0x602FF), (0x80000, 0x80000), (0x80064, 0x80064), (0x90000, 0x90000), (0x90040, 0x90040), (0x9004C, 0x90050), (0xA0000, 0xA0000), (0xA0040, 0xA007F), (0xB0000, 0xB01FF), (0xC0000, 0xC0000), (0xC0008, 0xC0008), (0xC0038, 0xC0038), (0xC0044, 0xC0044), (0xE0000, 0xE0000), (0xE0054, 0xE0054), (0x20000000, 0x2010FFFF)] k_) : rget (Agg.admitAhead g free).regs k_ = rget g.regs k_ := by
  have hm := fun (m : List (Nat × Nat)) (c : coversR [(0x1000, 0x1000), (0x1048, 0x1048), (0x20000, 0x23FFF), (0x43000, 0x431FF), (0x60000, 0x60007), (0x60100, 0x602FF), (0x80000, 0x80000), (0x80064, 0x80064), (0x90000, 0x90000), (0x90040, 0x90040), (0x9004C, 0x90050), (0xA0000, 0xA0000), (0xA0040, 0xA007F), (0xB0000, 0xB01FF), (0xC0000, 0xC0000), (0xC0008, 0xC0008), (0xC0038, 0xC0038), (0xC0044, 0xC0044), (0xE0000, 0xE0000), (0xE0054, 0xE0054), (0x20000000, 0x2010FFFF)] m = true) => Outside.mono h c
  have hb0 : Outside [(0x1000, 0x1000), (0x1048, 0x1048), (0x20000, 0x23FFF), (0x43000, 0x431FF), (0x60000, 0x60007), (0x60100, 0x602FF), (0x80000, 0x80000), (0x80064, 0x80064), (0x90000, 0x90000), (0x90040, 0x90040), (0x9004C, 0x90050), (0xA0000, 0xA0000), (0xA0040, 0xA007F), (0xB0000, 0xB01FF), (0xC0000, 0xC0000), (0xC0008, 0xC0008), (0xC0038, 0xC0038), (0xC0044, 0xC0044), (0xE0000, 0xE0000), (0xE0054, 0xE0054), (0x20000000, 0x2010FFFF)] k_ := hm _ (by decide)
  unfold Agg.admitAhead
  repeat' split
  · rfl
  · next e => have b := Agg.admitAt_rget (.inl e) k_ hb0; simp [b]
  · rfl
@[simp] theorem Agg.descriptorAdmit_rget (g : Agg) (n : Nat) (free : Nat → Nat) (k_ : Nat) (h : Outside [(0x1000, 0x1000), (0x1048, 0x1048), (0x20000, 0x23FFF), (0x43000, 0x431FF), (0x60000, 0x60007), (0x60100, 0x602FF), (0x80000, 0x80000), (0x80064, 0x80064), (0x90000, 0x90000), (0x90040, 0x90040), (0x9004C, 0x90050), (0xA0000, 0xA0000), (0xA0040, 0xA007F), (0xB0000, 0xB01FF), (0xC0000, 0xC0000), (0xC0008, 0xC0008), (0xC0038, 0xC0038), (0xC0044, 0xC0044), (0xE0000, 0xE0000), (0xE0054, 0xE0054), (0x20000000, 0x2010FFFF)] k_) : rget (Agg.descriptorAdmit g n free).regs k_ = rget g.regs k_ := by
  have hm := fun (m : List (Nat × Nat)) (c : coversR [(0x1000, 0x1000), (0x1048, 0x1048), (0x20000, 0x23FFF), (0x43000, 0x431FF), (0x60000, 0x60007), (0x60100, 0x602FF), (0x80000, 0x80000), (0x80064, 0x80064), (0x90000, 0x90000), (0x90040, 0x90040), (0x9004C, 0x90050), (0xA0000, 0xA0000), (0xA0040, 0xA007F), (0xB0000, 0xB01FF), (0xC0000, 0xC0000), (0xC0008, 0xC0008), (0xC0038, 0xC0038), (0xC0044, 0xC0044), (0xE0000, 0xE0000), (0xE0054, 0xE0054), (0x20000000, 0x2010FFFF)] m = true) => Outside.mono h c
  have hb0 : Outside [(0x1000, 0x1000), (0x1048, 0x1048), (0x20000, 0x23FFF), (0x43000, 0x431FF), (0x60000, 0x60007), (0x60100, 0x602FF), (0x80000, 0x80000), (0x80064, 0x80064), (0x90000, 0x90000), (0x90040, 0x90040), (0x9004C, 0x90050), (0xA0000, 0xA0000), (0xA0040, 0xA007F), (0xB0000, 0xB01FF), (0xC0000, 0xC0000), (0xC0008, 0xC0008), (0xC0038, 0xC0038), (0xC0044, 0xC0044), (0xE0000, 0xE0000), (0xE0054, 0xE0054), (0x20000000, 0x2010FFFF)] k_ := hm _ (by decide)
  unfold Agg.descriptorAdmit
  dsimp only
  split
  · rfl
  · split
    · next e => have b := Agg.admitAt_rget (.inl e) k_ hb0; split <;> simp [b, hb0]
    · next e => have b := Agg.admitAt_rget (.inr e) k_ hb0; split <;> simp [b, hb0]
@[simp] theorem Agg.ringFault_rget (g : Agg) (n : Nat) (k_ : Nat) (h : Outside [(0x43000, 0x431FF), (0x90000, 0x90000), (0x90048, 0x90048), (0xB0000, 0xB01FF), (0x20000000, 0x2010FFFF)] k_) : rget (Agg.ringFault g n).regs k_ = rget g.regs k_ := by
  have hm := fun (m : List (Nat × Nat)) (c : coversR [(0x43000, 0x431FF), (0x90000, 0x90000), (0x90048, 0x90048), (0xB0000, 0xB01FF), (0x20000000, 0x2010FFFF)] m = true) => Outside.mono h c
  have hb0 : Outside [(0x43000, 0x431FF), (0xB0000, 0xB01FF)] k_ := hm _ (by decide)
  have hb1 : Outside [(0x90000, 0x90000)] k_ := hm _ (by decide)
  have hb2 : Outside [(0x90048, 0x90048)] k_ := hm _ (by decide)
  have hb3 : Outside [(0x20000000, 0x2010FFFF)] k_ := hm _ (by decide)
  unfold Agg.ringFault
  (repeat' split) <;> simp [hb0, hb1, hb2, hb3]
@[simp] theorem Agg.sqDoorbell_rget (g : Agg) (n : Nat) (v : Nat) (k_ : Nat) (h : Outside [(0x43000, 0x431FF), (0x90000, 0x90000), (0x90048, 0x90048), (0xB0000, 0xB01FF), (0x20000000, 0x2010FFFF)] k_) : rget (Agg.sqDoorbell g n v).regs k_ = rget g.regs k_ := by
  have hm := fun (m : List (Nat × Nat)) (c : coversR [(0x43000, 0x431FF), (0x90000, 0x90000), (0x90048, 0x90048), (0xB0000, 0xB01FF), (0x20000000, 0x2010FFFF)] m = true) => Outside.mono h c
  have hb0 : Outside [(0x43000, 0x431FF), (0x90000, 0x90000), (0x90048, 0x90048), (0xB0000, 0xB01FF), (0x20000000, 0x2010FFFF)] k_ := hm _ (by decide)
  unfold Agg.sqDoorbell
  (repeat' split) <;> simp [hb0]
@[simp] theorem Agg.udpDrop_rget (g : Agg) (ring : Nat) (k_ : Nat) (h : Outside [(0x90000, 0x90000), (0x90040, 0x90044)] k_) : rget (Agg.udpDrop g ring).regs k_ = rget g.regs k_ := by
  have hm := fun (m : List (Nat × Nat)) (c : coversR [(0x90000, 0x90000), (0x90040, 0x90044)] m = true) => Outside.mono h c
  have hb0 : Outside [(0x90000, 0x90000)] k_ := hm _ (by decide)
  have hb1 : Outside [(0x90000, 0x90000), (0x90040, 0x90040)] k_ := hm _ (by decide)
  have hb2 : Outside [(0x90044, 0x90044)] k_ := hm _ (by decide)
  unfold Agg.udpDrop
  (repeat' split) <;> simp [hb0, hb1, hb2]
@[simp] theorem Agg.datagramIn_rget (g : Agg) (addr : Nat) (port : Nat) (m : List Byte) (k_ : Nat) (h : Outside [(0x90000, 0x90000), (0x90040, 0x90044)] k_) : rget (Agg.datagramIn g addr port m).regs k_ = rget g.regs k_ := by
  have hm := fun (m : List (Nat × Nat)) (c : coversR [(0x90000, 0x90000), (0x90040, 0x90044)] m = true) => Outside.mono h c
  have hb0 : Outside [(0x90000, 0x90000), (0x90040, 0x90044)] k_ := hm _ (by decide)
  unfold Agg.datagramIn
  (try dsimp only)
  (repeat' split) <;> simp [hb0]
@[simp] theorem Agg.triggered_rget (g : Agg) (off : Nat) (old : Word) (v : Word) (k_ : Nat) (h : Outside [(0x40084, 0x40088), (0x400C4, 0x400C4), (0x43000, 0x431FF), (0x90000, 0x90000), (0x90048, 0x90048), (0xB0000, 0xB01FF), (0xD0004, 0xD0004), (0xD0064, 0xD0064), (0x20000000, 0x2010FFFF)] k_) : rget (Agg.triggered g off old v).regs k_ = rget g.regs k_ := by
  have hm := fun (m : List (Nat × Nat)) (c : coversR [(0x40084, 0x40088), (0x400C4, 0x400C4), (0x43000, 0x431FF), (0x90000, 0x90000), (0x90048, 0x90048), (0xB0000, 0xB01FF), (0xD0004, 0xD0004), (0xD0064, 0xD0064), (0x20000000, 0x2010FFFF)] m = true) => Outside.mono h c
  have hb0 : Outside [(0x40084, 0x40084)] k_ := hm _ (by decide)
  have hb1 : Outside [(0x40084, 0x40088), (0x400C4, 0x400C4)] k_ := hm _ (by decide)
  have hb2 : Outside [(0x43000, 0x431FF), (0x90000, 0x90000), (0x90048, 0x90048), (0xB0000, 0xB01FF), (0x20000000, 0x2010FFFF)] k_ := hm _ (by decide)
  have hb3 : Outside [(0xD0004, 0xD0004), (0xD0064, 0xD0064)] k_ := hm _ (by decide)
  unfold Agg.triggered
  (repeat' split) <;> simp [hb0, hb1, hb2, hb3]
@[simp] theorem Agg.bootErr_rget (g : Agg) (code : Nat) (k_ : Nat) (h : Outside [(0xE0000, 0xE0000)] k_) : rget (Agg.bootErr g code).regs k_ = rget g.regs k_ := by
  have hm := fun (m : List (Nat × Nat)) (c : coversR [(0xE0000, 0xE0000)] m = true) => Outside.mono h c
  have hb0 : Outside [(0xE0000, 0xE0000)] k_ := hm _ (by decide)
  unfold Agg.bootErr
  (repeat' split) <;> simp [hb0]
@[simp] theorem Agg.startPrimer_rget (g : Agg) (k_ : Nat) (h : Outside [(0xE0000, 0xE0000)] k_) : rget (Agg.startPrimer g).regs k_ = rget g.regs k_ := by
  have hm := fun (m : List (Nat × Nat)) (c : coversR [(0xE0000, 0xE0000)] m = true) => Outside.mono h c
  have hb0 : Outside [(0xE0000, 0xE0000)] k_ := hm _ (by decide)
  unfold Agg.startPrimer
  (repeat' split) <;> simp [hb0]
@[simp] theorem Agg.restart_rget (g : Agg) (coolant : Bool) (k_ : Nat) (h : Outside [(0xE0000, 0xE0000)] k_) : rget (Agg.restart g coolant).regs k_ = rget g.regs k_ := by
  have hm := fun (m : List (Nat × Nat)) (c : coversR [(0xE0000, 0xE0000)] m = true) => Outside.mono h c
  have hb0 : Outside [(0xE0000, 0xE0000)] k_ := hm _ (by decide)
  unfold Agg.restart
  (repeat' split) <;> simp [hb0]
@[simp] theorem Agg.sourceFail_rget (g : Agg) (k_ : Nat) (h : Outside [(0xE0000, 0xE0000), (0xE0040, 0xE0040)] k_) : rget (Agg.sourceFail g).regs k_ = rget g.regs k_ := by
  have hm := fun (m : List (Nat × Nat)) (c : coversR [(0xE0000, 0xE0000), (0xE0040, 0xE0040)] m = true) => Outside.mono h c
  have hb0 : Outside [(0xE0000, 0xE0000)] k_ := hm _ (by decide)
  have hb1 : Outside [(0xE0040, 0xE0040)] k_ := hm _ (by decide)
  unfold Agg.sourceFail
  (repeat' split) <;> simp [hb0, hb1]
@[simp] theorem Agg.sourceTimeout_rget (g : Agg) (k_ : Nat) (h : Outside [(0xE0000, 0xE0000), (0xE0040, 0xE0040)] k_) : rget (Agg.sourceTimeout g).regs k_ = rget g.regs k_ := by
  have hm := fun (m : List (Nat × Nat)) (c : coversR [(0xE0000, 0xE0000), (0xE0040, 0xE0040)] m = true) => Outside.mono h c
  have hb0 : Outside [(0xE0000, 0xE0000), (0xE0040, 0xE0040)] k_ := hm _ (by decide)
  unfold Agg.sourceTimeout
  (repeat' split) <;> simp [hb0]
@[simp] theorem Agg.enableSites_rget (g : Agg) (k_ : Nat) (h : Outside [(0xC0100, 0xC06FF)] k_) : rget (Agg.enableSites g).regs k_ = rget g.regs k_ := by
  have hm := fun (m : List (Nat × Nat)) (c : coversR [(0xC0100, 0xC06FF)] m = true) => Outside.mono h c
  have hb0 : Outside [(0xC0100, 0xC06FF)] k_ := hm _ (by decide)
  unfold Agg.enableSites
  rw [Agg.rget_foldl]
  intro b n
  simp [hb0, Nat.add_assoc]
@[simp] theorem Agg.startFirmware_rget (g : Agg) (m : List Byte) (session : Nat) (k_ : Nat) (h : Outside [(0xC0000, 0xC0000), (0xC0024, 0xC0024), (0xC0038, 0xC0038), (0xC0044, 0xC0044), (0xC0100, 0xC06FF), (0xE0000, 0xE0000), (0xE0050, 0xE0050)] k_) : rget (Agg.startFirmware g m session).regs k_ = rget g.regs k_ := by
  have hm := fun (m : List (Nat × Nat)) (c : coversR [(0xC0000, 0xC0000), (0xC0024, 0xC0024), (0xC0038, 0xC0038), (0xC0044, 0xC0044), (0xC0100, 0xC06FF), (0xE0000, 0xE0000), (0xE0050, 0xE0050)] m = true) => Outside.mono h c
  have hb0 : Outside [(0xC0000, 0xC0000), (0xC0024, 0xC0024), (0xC0038, 0xC0038), (0xC0044, 0xC0044), (0xC0100, 0xC06FF), (0xE0000, 0xE0000), (0xE0050, 0xE0050)] k_ := hm _ (by decide)
  have hb1 : Outside [(0xC0100, 0xC06FF)] k_ := hm _ (by decide)
  unfold Agg.startFirmware
  (repeat' split) <;> simp [hb0, hb1]
@[simp] theorem Agg.imageCheck_rget (g : Agg) (m : Option (List Byte)) (free : Nat → Nat) (k_ : Nat) (h : Outside [(0xC0000, 0xC0000), (0xC0024, 0xC0024), (0xC0038, 0xC0038), (0xC0044, 0xC0044), (0xC0100, 0xC06FF), (0xE0000, 0xE0000), (0xE0040, 0xE0044), (0xE0050, 0xE0050)] k_) : rget (Agg.imageCheck g m free).regs k_ = rget g.regs k_ := by
  have hm := fun (m : List (Nat × Nat)) (c : coversR [(0xC0000, 0xC0000), (0xC0024, 0xC0024), (0xC0038, 0xC0038), (0xC0044, 0xC0044), (0xC0100, 0xC06FF), (0xE0000, 0xE0000), (0xE0040, 0xE0044), (0xE0050, 0xE0050)] m = true) => Outside.mono h c
  have hb0 : Outside [(0xC0000, 0xC0000), (0xC0024, 0xC0024), (0xC0038, 0xC0038), (0xC0044, 0xC0044), (0xC0100, 0xC06FF), (0xE0000, 0xE0000), (0xE0050, 0xE0050)] k_ := hm _ (by decide)
  have hb1 : Outside [(0xE0000, 0xE0000)] k_ := hm _ (by decide)
  have hb2 : Outside [(0xE0000, 0xE0000), (0xE0040, 0xE0040)] k_ := hm _ (by decide)
  have hb3 : Outside [(0xE0044, 0xE0044)] k_ := hm _ (by decide)
  unfold Agg.imageCheck
  (repeat' split) <;> simp [hb0, hb1, hb2, hb3]
@[simp] theorem Agg.sampleStraps_rget (g : Agg) (x : Straps) (k_ : Nat) (h : Outside [(0x10, 0x10)] k_) : rget (Agg.sampleStraps g x).regs k_ = rget g.regs k_ := by
  have hm := fun (m : List (Nat × Nat)) (c : coversR [(0x10, 0x10)] m = true) => Outside.mono h c
  have hb0 : Outside [(0x10, 0x10)] k_ := hm _ (by decide)
  unfold Agg.sampleStraps
  (repeat' split) <;> simp [hb0]
@[simp] theorem Agg.hbmTrained_rget (g : Agg) (ok : Bool) (k_ : Nat) (h : Outside [(0xE0000, 0xE0000), (0xE0048, 0xE0048)] k_) : rget (Agg.hbmTrained g ok).regs k_ = rget g.regs k_ := by
  have hm := fun (m : List (Nat × Nat)) (c : coversR [(0xE0000, 0xE0000), (0xE0048, 0xE0048)] m = true) => Outside.mono h c
  have hb0 : Outside [(0xE0000, 0xE0000)] k_ := hm _ (by decide)
  have hb1 : Outside [(0xE0048, 0xE0048)] k_ := hm _ (by decide)
  unfold Agg.hbmTrained
  (repeat' split) <;> simp [hb0, hb1]
@[simp] theorem Agg.dieChecked_rget (g : Agg) (p : Nat) (pass : Bool) (free : Nat → Nat) (k_ : Nat) (h : Outside [(0xE0000, 0xE0000), (0xE0008, 0xE000F), (0xE004C, 0xE004C)] k_) : rget (Agg.dieChecked g p pass free).regs k_ = rget g.regs k_ := by
  have hm := fun (m : List (Nat × Nat)) (c : coversR [(0xE0000, 0xE0000), (0xE0008, 0xE000F), (0xE004C, 0xE004C)] m = true) => Outside.mono h c
  have hb0 : Outside [(0xE0000, 0xE0000)] k_ := hm _ (by decide)
  have hb1 : Outside [(0xE0008, 0xE000F)] k_ := hm _ (by decide)
  have hb2 : Outside [(0xE004C, 0xE004C)] k_ := hm _ (by decide)
  have hq0 : ∀ o, 917512 ≤ o → o ≤ 917519 → Outside [(o, o)] k_ := fun o c d => outside_range (hm [(0xE0008, 0xE000F)] (by decide)) c d
  unfold Agg.dieChecked
  (try dsimp only)
  (repeat' split) <;> (first | (simp (disch := first | assumption | (refine hq0 _ ?_ ?_ <;> omega) | (intros; simp (disch := first | assumption | (refine hq0 _ ?_ ?_ <;> omega)) [hb0, hb1, hb2, Nat.add_assoc])) [hb0, hb1, hb2, Nat.add_assoc]; done) | (simp (disch := first | assumption | (refine hq0 _ ?_ ?_ <;> omega) | (intros; simp (disch := first | assumption | (refine hq0 _ ?_ ?_ <;> omega)) [hb0, hb1, hb2, Nat.add_assoc])) [hb0, hb1, hb2, Nat.add_assoc]; split <;> simp))
@[simp] theorem Agg.discoveryDone_rget (g : Agg) (j : RegJob) (st : Status) (free : Nat → Nat) (k_ : Nat) (h : Outside [(0xE0000, 0xE0000), (0xE0008, 0xE000F), (0xE004C, 0xE004C)] k_) : rget (Agg.discoveryDone g j st free).regs k_ = rget g.regs k_ := by
  have hm := fun (m : List (Nat × Nat)) (c : coversR [(0xE0000, 0xE0000), (0xE0008, 0xE000F), (0xE004C, 0xE004C)] m = true) => Outside.mono h c
  have hb0 : Outside [(0xE0000, 0xE0000), (0xE0008, 0xE000F), (0xE004C, 0xE004C)] k_ := hm _ (by decide)
  unfold Agg.discoveryDone
  (repeat' split) <;> simp [hb0]
@[simp] theorem Agg.regFinish_rget (g : Agg) (j : RegJob) (st : Status) (free : Nat → Nat) (k_ : Nat) (h : Outside [(0x43000, 0x431FF), (0x90000, 0x90000), (0x90040, 0x90040), (0xA0000, 0xA0000), (0xA004C, 0xA004C), (0xB0000, 0xB01FF), (0xE0000, 0xE0000), (0xE0008, 0xE000F), (0xE004C, 0xE004C)] k_) : rget (Agg.regFinish g j st free).regs k_ = rget g.regs k_ := by
  have hm := fun (m : List (Nat × Nat)) (c : coversR [(0x43000, 0x431FF), (0x90000, 0x90000), (0x90040, 0x90040), (0xA0000, 0xA0000), (0xA004C, 0xA004C), (0xB0000, 0xB01FF), (0xE0000, 0xE0000), (0xE0008, 0xE000F), (0xE004C, 0xE004C)] m = true) => Outside.mono h c
  have hb0 : Outside [(0x43000, 0x431FF), (0x90000, 0x90000), (0x90040, 0x90040), (0xA0000, 0xA0000), (0xA004C, 0xA004C), (0xB0000, 0xB01FF)] k_ := hm _ (by decide)
  have hb1 : Outside [(0x43000, 0x431FF), (0x90000, 0x90000), (0x90040, 0x90040), (0xB0000, 0xB01FF)] k_ := hm _ (by decide)
  have hb2 : Outside [(0xE0000, 0xE0000), (0xE0008, 0xE000F), (0xE004C, 0xE004C)] k_ := hm _ (by decide)
  unfold Agg.regFinish
  (repeat' split) <;> simp [hb0, hb1, hb2]
@[simp] theorem Agg.finishAll_rget (g : Agg) (x : Option (RegJob × Status)) (free : Nat → Nat) (k_ : Nat) (h : Outside [(0x43000, 0x431FF), (0x90000, 0x90000), (0x90040, 0x90040), (0xA0000, 0xA0000), (0xA004C, 0xA004C), (0xB0000, 0xB01FF), (0xE0000, 0xE0000), (0xE0008, 0xE000F), (0xE004C, 0xE004C)] k_) : rget (Agg.finishAll g x free).regs k_ = rget g.regs k_ := by
  have hm := fun (m : List (Nat × Nat)) (c : coversR [(0x43000, 0x431FF), (0x90000, 0x90000), (0x90040, 0x90040), (0xA0000, 0xA0000), (0xA004C, 0xA004C), (0xB0000, 0xB01FF), (0xE0000, 0xE0000), (0xE0008, 0xE000F), (0xE004C, 0xE004C)] m = true) => Outside.mono h c
  have hb0 : Outside [(0x43000, 0x431FF), (0x90000, 0x90000), (0x90040, 0x90040), (0xA0000, 0xA0000), (0xA004C, 0xA004C), (0xB0000, 0xB01FF), (0xE0000, 0xE0000), (0xE0008, 0xE000F), (0xE004C, 0xE004C)] k_ := hm _ (by decide)
  unfold Agg.finishAll
  (repeat' split) <;> simp [hb0]
@[simp] theorem Agg.responseIn_rget (g : Agg) (p : Nat) (m : List Byte) (free : Nat → Nat) (k_ : Nat) (h : Outside [(0x43000, 0x431FF), (0x90000, 0x90000), (0x90040, 0x90040), (0xA0000, 0xA0000), (0xA004C, 0xA004C), (0xB0000, 0xB01FF), (0xE0000, 0xE0000), (0xE0008, 0xE000F), (0xE004C, 0xE004C)] k_) : rget (Agg.responseIn g p m free).regs k_ = rget g.regs k_ := by
  have hm := fun (m : List (Nat × Nat)) (c : coversR [(0x43000, 0x431FF), (0x90000, 0x90000), (0x90040, 0x90040), (0xA0000, 0xA0000), (0xA004C, 0xA004C), (0xB0000, 0xB01FF), (0xE0000, 0xE0000), (0xE0008, 0xE000F), (0xE004C, 0xE004C)] m = true) => Outside.mono h c
  have hb0 : Outside [(0x43000, 0x431FF), (0x90000, 0x90000), (0x90040, 0x90040), (0xA0000, 0xA0000), (0xA004C, 0xA004C), (0xB0000, 0xB01FF), (0xE0000, 0xE0000), (0xE0008, 0xE000F), (0xE004C, 0xE004C)] k_ := hm _ (by decide)
  unfold Agg.responseIn
  (repeat' split) <;> simp [hb0]
@[simp] theorem Agg.accessTimeout_rget (g : Agg) (p : Nat) (tag : Nat) (free : Nat → Nat) (k_ : Nat) (h : Outside [(0x43000, 0x431FF), (0x90000, 0x90000), (0x90040, 0x90040), (0xA0000, 0xA0000), (0xA004C, 0xA004C), (0xB0000, 0xB01FF), (0xE0000, 0xE0000), (0xE0008, 0xE000F), (0xE004C, 0xE004C)] k_) : rget (Agg.accessTimeout g p tag free).regs k_ = rget g.regs k_ := by
  have hm := fun (m : List (Nat × Nat)) (c : coversR [(0x43000, 0x431FF), (0x90000, 0x90000), (0x90040, 0x90040), (0xA0000, 0xA0000), (0xA004C, 0xA004C), (0xB0000, 0xB01FF), (0xE0000, 0xE0000), (0xE0008, 0xE000F), (0xE004C, 0xE004C)] m = true) => Outside.mono h c
  have hb0 : Outside [(0x43000, 0x431FF), (0x90000, 0x90000), (0x90040, 0x90040), (0xA0000, 0xA0000), (0xA004C, 0xA004C), (0xB0000, 0xB01FF), (0xE0000, 0xE0000), (0xE0008, 0xE000F), (0xE004C, 0xE004C)] k_ := hm _ (by decide)
  unfold Agg.accessTimeout
  (repeat' split) <;> simp [hb0]
@[simp] theorem Agg.dieDown_rget (g : Agg) (p : Nat) (free : Nat → Nat) (k_ : Nat) (h : Outside [(0x20000, 0x23FFF), (0x43000, 0x431FF), (0x90000, 0x90000), (0x90040, 0x90040), (0xA0000, 0xA0000), (0xA004C, 0xA004C), (0xB0000, 0xB01FF), (0xE0000, 0xE0000), (0xE0008, 0xE000F), (0xE004C, 0xE004C)] k_) : rget (Agg.dieDown g p free).regs k_ = rget g.regs k_ := by
  have hm := fun (m : List (Nat × Nat)) (c : coversR [(0x20000, 0x23FFF), (0x43000, 0x431FF), (0x90000, 0x90000), (0x90040, 0x90040), (0xA0000, 0xA0000), (0xA004C, 0xA004C), (0xB0000, 0xB01FF), (0xE0000, 0xE0000), (0xE0008, 0xE000F), (0xE004C, 0xE004C)] m = true) => Outside.mono h c
  have hb0 : Outside [(0x20000, 0x23FFF)] k_ := hm _ (by decide)
  have hb1 : Outside [(0x43000, 0x431FF), (0x90000, 0x90000), (0x90040, 0x90040), (0xA0000, 0xA0000), (0xA004C, 0xA004C), (0xB0000, 0xB01FF), (0xE0000, 0xE0000), (0xE0008, 0xE000F), (0xE004C, 0xE004C)] k_ := hm _ (by decide)
  unfold Agg.dieDown
  (repeat' split) <;> simp [hb0, hb1]
@[simp] theorem Agg.dieUp_rget (g : Agg) (p : Nat) (k_ : Nat) (h : Outside [(0x20000, 0x23FFF)] k_) : rget (Agg.dieUp g p).regs k_ = rget g.regs k_ := by
  have hm := fun (m : List (Nat × Nat)) (c : coversR [(0x20000, 0x23FFF)] m = true) => Outside.mono h c
  have hb0 : Outside [(0x20000, 0x23FFF)] k_ := hm _ (by decide)
  unfold Agg.dieUp
  (repeat' split) <;> simp [hb0]
@[simp] theorem Agg.portIdentity_rget (g : Agg) (p : Nat) (caps : Word) (ident : Word) (die : Word) (k_ : Nat) (h : Outside [(0x20000, 0x23FFF)] k_) : rget (Agg.portIdentity g p caps ident die).regs k_ = rget g.regs k_ := by
  have hm := fun (m : List (Nat × Nat)) (c : coversR [(0x20000, 0x23FFF)] m = true) => Outside.mono h c
  have hb0 : Outside [(0x20000, 0x23FFF)] k_ := hm _ (by decide)
  unfold Agg.portIdentity
  (repeat' split) <;> simp [hb0, Nat.add_assoc]
@[simp] theorem Agg.loopMeasure_rget (g : Agg) (p : Nat) (rtt : Nat) (k_ : Nat) (h : Outside [(0x20000, 0x23FFF)] k_) : rget (Agg.loopMeasure g p rtt).regs k_ = rget g.regs k_ := by
  have hm := fun (m : List (Nat × Nat)) (c : coversR [(0x20000, 0x23FFF)] m = true) => Outside.mono h c
  have hb0 : Outside [(0x20000, 0x23FFF)] k_ := hm _ (by decide)
  unfold Agg.loopMeasure
  (repeat' split) <;> simp [hb0]
@[simp] theorem Agg.dieSend_rget (g : Agg) (p : Nat) (fb : Nat → Byte) (k_ : Nat) (h : Outside [(0x20000, 0x23FFF)] k_) : rget (Agg.dieSend g p fb).regs k_ = rget g.regs k_ := by
  have hm := fun (m : List (Nat × Nat)) (c : coversR [(0x20000, 0x23FFF)] m = true) => Outside.mono h c
  have hb0 : Outside [(0x20000, 0x23FFF)] k_ := hm _ (by decide)
  unfold Agg.dieSend
  (try dsimp only)
  (repeat' split) <;> simp [hb0]
@[simp] theorem Agg.messageIn_rget (g : Agg) (p : Nat) (kind : Nat) (m : List Byte) (cfg : Option ChanCfg) (free : Nat → Nat) (k_ : Nat) (h : Outside [(0x40088, 0x40088), (0x400D4, 0x400D4), (0x43000, 0x431FF), (0x90000, 0x90000), (0x90040, 0x90040), (0xA0000, 0xA0000), (0xA004C, 0xA004C), (0xB0000, 0xB01FF), (0xE0000, 0xE0000), (0xE0008, 0xE000F), (0xE004C, 0xE004C)] k_) : rget (Agg.messageIn g p kind m cfg free).regs k_ = rget g.regs k_ := by
  have hm := fun (m : List (Nat × Nat)) (c : coversR [(0x40088, 0x40088), (0x400D4, 0x400D4), (0x43000, 0x431FF), (0x90000, 0x90000), (0x90040, 0x90040), (0xA0000, 0xA0000), (0xA004C, 0xA004C), (0xB0000, 0xB01FF), (0xE0000, 0xE0000), (0xE0008, 0xE000F), (0xE004C, 0xE004C)] m = true) => Outside.mono h c
  have hb0 : Outside [(0x40088, 0x40088), (0x400D4, 0x400D4)] k_ := hm _ (by decide)
  have hb1 : Outside [(0x43000, 0x431FF), (0x90000, 0x90000), (0x90040, 0x90040), (0xA0000, 0xA0000), (0xA004C, 0xA004C), (0xB0000, 0xB01FF), (0xE0000, 0xE0000), (0xE0008, 0xE000F), (0xE004C, 0xE004C)] k_ := hm _ (by decide)
  unfold Agg.messageIn
  (repeat' split) <;> simp [hb0, hb1]
@[simp] theorem Agg.dieReceive_rget (g : Agg) (p : Nat) (f : List Byte) (cfg : Option ChanCfg) (free : Nat → Nat) (k_ : Nat) (h : Outside [(0x20000, 0x23FFF), (0x40088, 0x40088), (0x400D4, 0x400D4), (0x43000, 0x431FF), (0x90000, 0x90000), (0x90040, 0x90040), (0xA0000, 0xA0000), (0xA004C, 0xA004C), (0xB0000, 0xB01FF), (0xD0004, 0xD0004), (0xD0044, 0xD0044), (0xE0000, 0xE0000), (0xE0008, 0xE000F), (0xE004C, 0xE004C)] k_) : rget (Agg.dieReceive g p f cfg free).regs k_ = rget g.regs k_ := by
  have hm := fun (m : List (Nat × Nat)) (c : coversR [(0x20000, 0x23FFF), (0x40088, 0x40088), (0x400D4, 0x400D4), (0x43000, 0x431FF), (0x90000, 0x90000), (0x90040, 0x90040), (0xA0000, 0xA0000), (0xA004C, 0xA004C), (0xB0000, 0xB01FF), (0xD0004, 0xD0004), (0xD0044, 0xD0044), (0xE0000, 0xE0000), (0xE0008, 0xE000F), (0xE004C, 0xE004C)] m = true) => Outside.mono h c
  have hb0 : Outside [(0x20000, 0x23FFF)] k_ := hm _ (by decide)
  have hb1 : Outside [(0x20000, 0x23FFF), (0x43000, 0x431FF), (0x90000, 0x90000), (0x90040, 0x90040), (0xA0000, 0xA0000), (0xA004C, 0xA004C), (0xB0000, 0xB01FF), (0xE0000, 0xE0000), (0xE0008, 0xE000F), (0xE004C, 0xE004C)] k_ := hm _ (by decide)
  have hb2 : Outside [(0x40088, 0x40088), (0x400D4, 0x400D4), (0x43000, 0x431FF), (0x90000, 0x90000), (0x90040, 0x90040), (0xA0000, 0xA0000), (0xA004C, 0xA004C), (0xB0000, 0xB01FF), (0xE0000, 0xE0000), (0xE0008, 0xE000F), (0xE004C, 0xE004C)] k_ := hm _ (by decide)
  have hb3 : Outside [(0xD0004, 0xD0004), (0xD0044, 0xD0044)] k_ := hm _ (by decide)
  unfold Agg.dieReceive
  (try dsimp only)
  (repeat' split) <;> simp [hb0, hb1, hb2, hb3, Nat.add_assoc]
@[simp] theorem Agg.frameMsg_rget (g : Agg) (p : Nat) (resent : Bool) (f : List Byte) (cfg : Option ChanCfg) (k_ : Nat) (h : Outside [(0x40088, 0x40088), (0x400D4, 0x400D4)] k_) : rget (Agg.frameMsg g p resent f cfg).regs k_ = rget g.regs k_ := by
  have hm := fun (m : List (Nat × Nat)) (c : coversR [(0x40088, 0x40088), (0x400D4, 0x400D4)] m = true) => Outside.mono h c
  have hb0 : Outside [(0x40088, 0x40088), (0x400D4, 0x400D4)] k_ := hm _ (by decide)
  unfold Agg.frameMsg
  (repeat' split) <;> simp [hb0]
@[simp] theorem Agg.dieRetry_rget (g : Agg) (p : Nat) (free : Nat → Nat) (k_ : Nat) (h : Outside [(0x20000, 0x23FFF), (0x43000, 0x431FF), (0x90000, 0x90000), (0x90040, 0x90040), (0xA0000, 0xA0000), (0xA004C, 0xA004C), (0xB0000, 0xB01FF), (0xE0000, 0xE0000), (0xE0008, 0xE000F), (0xE004C, 0xE004C)] k_) : rget (Agg.dieRetry g p free).regs k_ = rget g.regs k_ := by
  have hm := fun (m : List (Nat × Nat)) (c : coversR [(0x20000, 0x23FFF), (0x43000, 0x431FF), (0x90000, 0x90000), (0x90040, 0x90040), (0xA0000, 0xA0000), (0xA004C, 0xA004C), (0xB0000, 0xB01FF), (0xE0000, 0xE0000), (0xE0008, 0xE000F), (0xE004C, 0xE004C)] m = true) => Outside.mono h c
  have hb0 : Outside [(0x20000, 0x23FFF)] k_ := hm _ (by decide)
  have hb1 : Outside [(0x20000, 0x23FFF), (0x43000, 0x431FF), (0x90000, 0x90000), (0x90040, 0x90040), (0xA0000, 0xA0000), (0xA004C, 0xA004C), (0xB0000, 0xB01FF), (0xE0000, 0xE0000), (0xE0008, 0xE000F), (0xE004C, 0xE004C)] k_ := hm _ (by decide)
  unfold Agg.dieRetry
  (try dsimp only)
  (repeat' split) <;> simp [hb0, hb1, Nat.add_assoc]
@[simp] theorem Agg.dieIdle_rget (g : Agg) (p : Nat) (free : Nat → Nat) (k_ : Nat) (h : Outside [(0x20000, 0x23FFF), (0x43000, 0x431FF), (0x90000, 0x90000), (0x90040, 0x90040), (0xA0000, 0xA0000), (0xA004C, 0xA004C), (0xB0000, 0xB01FF), (0xE0000, 0xE0000), (0xE0008, 0xE000F), (0xE004C, 0xE004C)] k_) : rget (Agg.dieIdle g p free).regs k_ = rget g.regs k_ := by
  have hm := fun (m : List (Nat × Nat)) (c : coversR [(0x20000, 0x23FFF), (0x43000, 0x431FF), (0x90000, 0x90000), (0x90040, 0x90040), (0xA0000, 0xA0000), (0xA004C, 0xA004C), (0xB0000, 0xB01FF), (0xE0000, 0xE0000), (0xE0008, 0xE000F), (0xE004C, 0xE004C)] m = true) => Outside.mono h c
  have hb0 : Outside [(0x20000, 0x23FFF), (0x43000, 0x431FF), (0x90000, 0x90000), (0x90040, 0x90040), (0xA0000, 0xA0000), (0xA004C, 0xA004C), (0xB0000, 0xB01FF), (0xE0000, 0xE0000), (0xE0008, 0xE000F), (0xE004C, 0xE004C)] k_ := hm _ (by decide)
  unfold Agg.dieIdle
  (repeat' split) <;> simp [hb0]
@[simp] theorem Agg.dieLockLoss_rget (g : Agg) (p : Nat) (free : Nat → Nat) (k_ : Nat) (h : Outside [(0x20000, 0x23FFF), (0x43000, 0x431FF), (0x90000, 0x90000), (0x90040, 0x90040), (0xA0000, 0xA0000), (0xA004C, 0xA004C), (0xB0000, 0xB01FF), (0xE0000, 0xE0000), (0xE0008, 0xE000F), (0xE004C, 0xE004C)] k_) : rget (Agg.dieLockLoss g p free).regs k_ = rget g.regs k_ := by
  have hm := fun (m : List (Nat × Nat)) (c : coversR [(0x20000, 0x23FFF), (0x43000, 0x431FF), (0x90000, 0x90000), (0x90040, 0x90040), (0xA0000, 0xA0000), (0xA004C, 0xA004C), (0xB0000, 0xB01FF), (0xE0000, 0xE0000), (0xE0008, 0xE000F), (0xE004C, 0xE004C)] m = true) => Outside.mono h c
  have hb0 : Outside [(0x20000, 0x23FFF), (0x43000, 0x431FF), (0x90000, 0x90000), (0x90040, 0x90040), (0xA0000, 0xA0000), (0xA004C, 0xA004C), (0xB0000, 0xB01FF), (0xE0000, 0xE0000), (0xE0008, 0xE000F), (0xE004C, 0xE004C)] k_ := hm _ (by decide)
  unfold Agg.dieLockLoss
  (repeat' split) <;> simp [hb0]
@[simp] theorem Agg.skimMessage_rget (g : Agg) (k : Nat) (c : Nat) (m : List Byte) (k_ : Nat) (h : Outside [(0x43000, 0x431FF), (0x50000, 0x50000), (0x50008, 0x5000C), (0x50040, 0x50048), (0x50050, 0x50050), (0x80000, 0x80000), (0x80010, 0x8002C), (0x80040, 0x8004C), (0x80054, 0x80054), (0x8005C, 0x8005C), (0x90000, 0x90000), (0x90040, 0x90040), (0xA0000, 0xA0000), (0xA0040, 0xA007F), (0xB0000, 0xB01FF)] k_) : rget (Agg.skimMessage g k c m).regs k_ = rget g.regs k_ := by
  have hm := fun (m : List (Nat × Nat)) (c : coversR [(0x43000, 0x431FF), (0x50000, 0x50000), (0x50008, 0x5000C), (0x50040, 0x50048), (0x50050, 0x50050), (0x80000, 0x80000), (0x80010, 0x8002C), (0x80040, 0x8004C), (0x80054, 0x80054), (0x8005C, 0x8005C), (0x90000, 0x90000), (0x90040, 0x90040), (0xA0000, 0xA0000), (0xA0040, 0xA007F), (0xB0000, 0xB01FF)] m = true) => Outside.mono h c
  have hb0 : Outside [(0x43000, 0x431FF), (0x90000, 0x90000), (0x90040, 0x90040), (0xA0000, 0xA0000), (0xA0040, 0xA007F), (0xB0000, 0xB01FF)] k_ := hm _ (by decide)
  have hb1 : Outside [(0x50000, 0x50000), (0x50008, 0x5000C), (0x50040, 0x50040)] k_ := hm _ (by decide)
  have hb2 : Outside [(0x50000, 0x50000), (0x50008, 0x5000C), (0x50044, 0x50044)] k_ := hm _ (by decide)
  have hb3 : Outside [(0x50000, 0x50000), (0x50048, 0x50048), (0x50050, 0x50050)] k_ := hm _ (by decide)
  have hb4 : Outside [(0x80000, 0x80000), (0x80010, 0x8002C), (0x80040, 0x8004C), (0x80054, 0x80054), (0x8005C, 0x8005C)] k_ := hm _ (by decide)
  have hb5 : Outside [(0xA0000, 0xA0000), (0xA005C, 0xA005C)] k_ := hm _ (by decide)
  have hb6 : Outside [(0x43000, 0x431FF), (0x50000, 0x50000), (0x50008, 0x5000C), (0x50044, 0x50044), (0x90000, 0x90000), (0x90040, 0x90040), (0xB0000, 0xB01FF)] k_ := hm _ (by decide)
  have hb7 : Outside [(0x43000, 0x431FF), (0x50000, 0x50000), (0x50008, 0x5000C), (0x50040, 0x50040), (0x90000, 0x90000), (0x90040, 0x90040), (0xB0000, 0xB01FF)] k_ := hm _ (by decide)
  unfold Agg.skimMessage
  (try dsimp only)
  (repeat' split) <;> simp [hb0, hb1, hb2, hb3, hb4, hb5, hb6, hb7]
@[simp] theorem Agg.timeSlotIn_rget (g : Agg) (k : Nat) (s : List Byte) (k_ : Nat) (h : Outside [(0x1000, 0x1000), (0x1048, 0x104C), (0x1054, 0x1054)] k_) : rget (Agg.timeSlotIn g k s).regs k_ = rget g.regs k_ := by
  have hm := fun (m : List (Nat × Nat)) (c : coversR [(0x1000, 0x1000), (0x1048, 0x104C), (0x1054, 0x1054)] m = true) => Outside.mono h c
  have hb0 : Outside [(0x1000, 0x1000), (0x1048, 0x104C), (0x1054, 0x1054)] k_ := hm _ (by decide)
  unfold Agg.timeSlotIn
  (repeat' split) <;> simp [hb0]
@[simp] theorem Agg.sideIn_rget (g : Agg) (k : Nat) (side : Option (Nat × List Byte)) (k_ : Nat) (h : Outside [(0x1000, 0x1000), (0x1048, 0x104C), (0x1054, 0x1054), (0xD0004, 0xD0004), (0xD005C, 0xD005C)] k_) : rget (Agg.sideIn g k side).regs k_ = rget g.regs k_ := by
  have hm := fun (m : List (Nat × Nat)) (c : coversR [(0x1000, 0x1000), (0x1048, 0x104C), (0x1054, 0x1054), (0xD0004, 0xD0004), (0xD005C, 0xD005C)] m = true) => Outside.mono h c
  have hb0 : Outside [(0x1000, 0x1000), (0x1048, 0x104C), (0x1054, 0x1054)] k_ := hm _ (by decide)
  have hb1 : Outside [(0xD0004, 0xD0004), (0xD005C, 0xD005C)] k_ := hm _ (by decide)
  unfold Agg.sideIn
  (try dsimp only) <;> (repeat' split) <;> simp [hb0, hb1]
@[simp] theorem Agg.skimFlitIn_rget (g : Agg) (k : Nat) (f : List Byte) (k_ : Nat) (h : Outside [(0x1000, 0x1000), (0x1048, 0x104C), (0x1054, 0x1054), (0x30000, 0x31FFF), (0x43000, 0x431FF), (0x50000, 0x50000), (0x50008, 0x5000C), (0x50040, 0x50048), (0x50050, 0x50050), (0x80000, 0x80000), (0x80010, 0x8002C), (0x80040, 0x8004C), (0x80054, 0x80054), (0x8005C, 0x8005C), (0x90000, 0x90000), (0x90040, 0x90040), (0xA0000, 0xA0000), (0xA0040, 0xA007F), (0xB0000, 0xB01FF), (0xD0004, 0xD0004), (0xD005C, 0xD005C)] k_) : rget (Agg.skimFlitIn g k f).regs k_ = rget g.regs k_ := by
  have hm := fun (m : List (Nat × Nat)) (c : coversR [(0x1000, 0x1000), (0x1048, 0x104C), (0x1054, 0x1054), (0x30000, 0x31FFF), (0x43000, 0x431FF), (0x50000, 0x50000), (0x50008, 0x5000C), (0x50040, 0x50048), (0x50050, 0x50050), (0x80000, 0x80000), (0x80010, 0x8002C), (0x80040, 0x8004C), (0x80054, 0x80054), (0x8005C, 0x8005C), (0x90000, 0x90000), (0x90040, 0x90040), (0xA0000, 0xA0000), (0xA0040, 0xA007F), (0xB0000, 0xB01FF), (0xD0004, 0xD0004), (0xD005C, 0xD005C)] m = true) => Outside.mono h c
  have hb0 : Outside [(0x1000, 0x1000), (0x1048, 0x104C), (0x1054, 0x1054)] k_ := hm _ (by decide)
  have hb1 : Outside [(0x30000, 0x31FFF)] k_ := hm _ (by decide)
  have hb2 : Outside [(0x43000, 0x431FF), (0x50000, 0x50000), (0x50008, 0x5000C), (0x50040, 0x50048), (0x50050, 0x50050), (0x80000, 0x80000), (0x80010, 0x8002C), (0x80040, 0x8004C), (0x80054, 0x80054), (0x8005C, 0x8005C), (0x90000, 0x90000), (0x90040, 0x90040), (0xA0000, 0xA0000), (0xA0040, 0xA007F), (0xB0000, 0xB01FF)] k_ := hm _ (by decide)
  have hb3 : Outside [(0xD0004, 0xD0004), (0xD005C, 0xD005C)] k_ := hm _ (by decide)
  have hb4 : Outside [(0x1000, 0x1000), (0x1048, 0x104C), (0x1054, 0x1054), (0xD0004, 0xD0004), (0xD005C, 0xD005C)] k_ := hm _ (by decide)
  unfold Agg.skimFlitIn
  (try dsimp only)
  (repeat' split) <;> simp [hb0, hb1, hb2, hb3, hb4, Nat.add_assoc]
@[simp] theorem Agg.drainDeskew_rget (k : Nat) (a : Nat) (y2 : Agg) (k_ : Nat) (h : Outside [(0x1000, 0x1000), (0x1048, 0x104C), (0x1054, 0x1054), (0x30000, 0x31FFF), (0x43000, 0x431FF), (0x50000, 0x50000), (0x50008, 0x5000C), (0x50040, 0x50048), (0x50050, 0x50050), (0x80000, 0x80000), (0x80010, 0x8002C), (0x80040, 0x8004C), (0x80054, 0x80054), (0x8005C, 0x8005C), (0x90000, 0x90000), (0x90040, 0x90040), (0xA0000, 0xA0000), (0xA0040, 0xA007F), (0xB0000, 0xB01FF), (0xD0004, 0xD0004), (0xD005C, 0xD005C)] k_) : rget (Agg.drainDeskew k a y2).regs k_ = rget y2.regs k_ := by
  have hm := fun (m : List (Nat × Nat)) (c : coversR [(0x1000, 0x1000), (0x1048, 0x104C), (0x1054, 0x1054), (0x30000, 0x31FFF), (0x43000, 0x431FF), (0x50000, 0x50000), (0x50008, 0x5000C), (0x50040, 0x50048), (0x50050, 0x50050), (0x80000, 0x80000), (0x80010, 0x8002C), (0x80040, 0x8004C), (0x80054, 0x80054), (0x8005C, 0x8005C), (0x90000, 0x90000), (0x90040, 0x90040), (0xA0000, 0xA0000), (0xA0040, 0xA007F), (0xB0000, 0xB01FF), (0xD0004, 0xD0004), (0xD005C, 0xD005C)] m = true) => Outside.mono h c
  have hb0 : Outside [(0x1000, 0x1000), (0x1048, 0x104C), (0x1054, 0x1054), (0x30000, 0x31FFF), (0x43000, 0x431FF), (0x50000, 0x50000), (0x50008, 0x5000C), (0x50040, 0x50048), (0x50050, 0x50050), (0x80000, 0x80000), (0x80010, 0x8002C), (0x80040, 0x8004C), (0x80054, 0x80054), (0x8005C, 0x8005C), (0x90000, 0x90000), (0x90040, 0x90040), (0xA0000, 0xA0000), (0xA0040, 0xA007F), (0xB0000, 0xB01FF), (0xD0004, 0xD0004), (0xD005C, 0xD005C)] k_ := hm _ (by decide)
  induction a generalizing y2 with
  | zero => simp [Agg.drainDeskew]
  | succ n ih => unfold Agg.drainDeskew; (try dsimp only); (repeat' split) <;> (first | (simp [ih, hb0, Nat.add_assoc]; done) | simp [hb0, Nat.add_assoc])
@[simp] theorem Agg.codewordIn_rget (g : Agg) (k : Nat) (lane : Nat) (corrected : Nat) (flit : Option (List Byte × Nat)) (k_ : Nat) (h : Outside [(0x1000, 0x1000), (0x1048, 0x104C), (0x1054, 0x1054), (0x30000, 0x31FFF), (0x43000, 0x431FF), (0x50000, 0x50000), (0x50008, 0x5000C), (0x50040, 0x50048), (0x50050, 0x50050), (0x80000, 0x80000), (0x80010, 0x8002C), (0x80040, 0x8004C), (0x80054, 0x80054), (0x8005C, 0x8005C), (0x90000, 0x90000), (0x90040, 0x90040), (0xA0000, 0xA0000), (0xA0040, 0xA007F), (0xB0000, 0xB01FF), (0xD0004, 0xD0004), (0xD005C, 0xD005C)] k_) : rget (Agg.codewordIn g k lane corrected flit).regs k_ = rget g.regs k_ := by
  have hm := fun (m : List (Nat × Nat)) (c : coversR [(0x1000, 0x1000), (0x1048, 0x104C), (0x1054, 0x1054), (0x30000, 0x31FFF), (0x43000, 0x431FF), (0x50000, 0x50000), (0x50008, 0x5000C), (0x50040, 0x50048), (0x50050, 0x50050), (0x80000, 0x80000), (0x80010, 0x8002C), (0x80040, 0x8004C), (0x80054, 0x80054), (0x8005C, 0x8005C), (0x90000, 0x90000), (0x90040, 0x90040), (0xA0000, 0xA0000), (0xA0040, 0xA007F), (0xB0000, 0xB01FF), (0xD0004, 0xD0004), (0xD005C, 0xD005C)] m = true) => Outside.mono h c
  have hb0 : Outside [(0x1000, 0x1000), (0x1048, 0x104C), (0x1054, 0x1054), (0x30000, 0x31FFF), (0x43000, 0x431FF), (0x50000, 0x50000), (0x50008, 0x5000C), (0x50040, 0x50048), (0x50050, 0x50050), (0x80000, 0x80000), (0x80010, 0x8002C), (0x80040, 0x8004C), (0x80054, 0x80054), (0x8005C, 0x8005C), (0x90000, 0x90000), (0x90040, 0x90040), (0xA0000, 0xA0000), (0xA0040, 0xA007F), (0xB0000, 0xB01FF), (0xD0004, 0xD0004), (0xD005C, 0xD005C)] k_ := hm _ (by decide)
  have hb1 : Outside [(0x30000, 0x31FFF)] k_ := hm _ (by decide)
  have hq : ∀ o, 196608 ≤ o → o ≤ 204799 → Outside [(o, o)] k_ := fun o c d => outside_range (hm [(0x30000, 0x31FFF)] (by decide)) c d
  have hq1 : Outside [(sklinkBase k + 16 + 4 * (lane % 2), sklinkBase k + 16 + 4 * (lane % 2))] k_ := hq _ (by unfold sklinkBase; omega) (by unfold sklinkBase; omega)
  have hq2 : Outside [(sklinkBase k + 24 + 4 * (lane % 2), sklinkBase k + 24 + 4 * (lane % 2))] k_ := hq _ (by unfold sklinkBase; omega) (by unfold sklinkBase; omega)
  rw [Nat.add_assoc] at hq1 hq2
  unfold Agg.codewordIn
  (try dsimp only)
  (repeat' split) <;> (first | (simp [hq1, hq2, hb0, hb1, Nat.add_assoc]; done))
@[simp] theorem Agg.linkRetry_rget (g : Agg) (k : Nat) (k_ : Nat) (h : Outside [(0x30000, 0x31FFF)] k_) : rget (Agg.linkRetry g k).regs k_ = rget g.regs k_ := by
  have hm := fun (m : List (Nat × Nat)) (c : coversR [(0x30000, 0x31FFF)] m = true) => Outside.mono h c
  have hb0 : Outside [(0x30000, 0x31FFF)] k_ := hm _ (by decide)
  unfold Agg.linkRetry
  (try dsimp only)
  (repeat' split) <;> simp [hb0, Nat.add_assoc]
@[simp] theorem Agg.linkIdle_rget (g : Agg) (k : Nat) (k_ : Nat) (h : Outside [(0x30000, 0x31FFF)] k_) : rget (Agg.linkIdle g k).regs k_ = rget g.regs k_ := by
  have hm := fun (m : List (Nat × Nat)) (c : coversR [(0x30000, 0x31FFF)] m = true) => Outside.mono h c
  have hb0 : Outside [(0x30000, 0x31FFF)] k_ := hm _ (by decide)
  unfold Agg.linkIdle
  (repeat' split) <;> simp [hb0]
@[simp] theorem Agg.linkLockLoss_rget (g : Agg) (k : Nat) (k_ : Nat) (h : Outside [(0x30000, 0x31FFF)] k_) : rget (Agg.linkLockLoss g k).regs k_ = rget g.regs k_ := by
  have hm := fun (m : List (Nat × Nat)) (c : coversR [(0x30000, 0x31FFF)] m = true) => Outside.mono h c
  have hb0 : Outside [(0x30000, 0x31FFF)] k_ := hm _ (by decide)
  unfold Agg.linkLockLoss
  (repeat' split) <;> simp [hb0]
@[simp] theorem Agg.takeOverJob_rget (g : Agg) (n : Nat) (k_ : Nat) (h : Outside [(0x43000, 0x431FF), (0x90000, 0x90000), (0x90040, 0x90040), (0xA0000, 0xA0000), (0xA004C, 0xA004C), (0xB0000, 0xB01FF)] k_) : rget (Agg.takeOverJob g n).regs k_ = rget g.regs k_ := by
  have hm := fun (m : List (Nat × Nat)) (c : coversR [(0x43000, 0x431FF), (0x90000, 0x90000), (0x90040, 0x90040), (0xA0000, 0xA0000), (0xA004C, 0xA004C), (0xB0000, 0xB01FF)] m = true) => Outside.mono h c
  have hb0 : Outside [(0x43000, 0x431FF), (0x90000, 0x90000), (0x90040, 0x90040), (0xA0000, 0xA0000), (0xA004C, 0xA004C), (0xB0000, 0xB01FF)] k_ := hm _ (by decide)
  unfold Agg.takeOverJob
  (try dsimp only)
  (repeat' split) <;> simp [hb0]
@[simp] theorem Agg.takeOver_rget (g : Agg) (k_ : Nat) (h : Outside [(0x43000, 0x431FF), (0x90000, 0x90000), (0x90040, 0x90040), (0xA0000, 0xA0000), (0xA004C, 0xA004C), (0xB0000, 0xB01FF)] k_) : rget (Agg.takeOver g).regs k_ = rget g.regs k_ := by
  have hm := fun (m : List (Nat × Nat)) (c : coversR [(0x43000, 0x431FF), (0x90000, 0x90000), (0x90040, 0x90040), (0xA0000, 0xA0000), (0xA004C, 0xA004C), (0xB0000, 0xB01FF)] m = true) => Outside.mono h c
  have hb0 : Outside [(0x43000, 0x431FF), (0x90000, 0x90000), (0x90040, 0x90040), (0xA0000, 0xA0000), (0xA004C, 0xA004C), (0xB0000, 0xB01FF)] k_ := hm _ (by decide)
  unfold Agg.takeOver
  (repeat' split) <;> simp [hb0]
@[simp] theorem Agg.partnerCoreLost_rget (g : Agg) (k_ : Nat) (h : Outside [(0x43000, 0x431FF), (0x90000, 0x90000), (0x90040, 0x90040), (0xA0000, 0xA0000), (0xA0040, 0xA007F), (0xB0000, 0xB01FF), (0xD0004, 0xD0004), (0xD0058, 0xD0058)] k_) : rget (Agg.partnerCoreLost g).regs k_ = rget g.regs k_ := by
  have hm := fun (m : List (Nat × Nat)) (c : coversR [(0x43000, 0x431FF), (0x90000, 0x90000), (0x90040, 0x90040), (0xA0000, 0xA0000), (0xA0040, 0xA007F), (0xB0000, 0xB01FF), (0xD0004, 0xD0004), (0xD0058, 0xD0058)] m = true) => Outside.mono h c
  have hb0 : Outside [(0x43000, 0x431FF), (0x90000, 0x90000), (0x90040, 0x90040), (0xA0000, 0xA0000), (0xA0040, 0xA007F), (0xB0000, 0xB01FF)] k_ := hm _ (by decide)
  have hb1 : Outside [(0x43000, 0x431FF), (0x90000, 0x90000), (0x90040, 0x90040), (0xA0000, 0xA0000), (0xA004C, 0xA004C), (0xB0000, 0xB01FF)] k_ := hm _ (by decide)
  have hb2 : Outside [(0x43000, 0x431FF), (0x90000, 0x90000), (0x90040, 0x90040), (0xB0000, 0xB01FF)] k_ := hm _ (by decide)
  have hb3 : Outside [(0xD0004, 0xD0004)] k_ := hm _ (by decide)
  have hb4 : Outside [(0xD0058, 0xD0058)] k_ := hm _ (by decide)
  unfold Agg.partnerCoreLost
  (repeat' split) <;> simp [hb0, hb1, hb2, hb3, hb4]
@[simp] theorem Agg.partnerSiLostNow_rget (g : Agg) (k_ : Nat) (h : Outside [(0xD0004, 0xD0004), (0xD005C, 0xD005C)] k_) : rget (Agg.partnerSiLostNow g).regs k_ = rget g.regs k_ := by
  have hm := fun (m : List (Nat × Nat)) (c : coversR [(0xD0004, 0xD0004), (0xD005C, 0xD005C)] m = true) => Outside.mono h c
  have hb0 : Outside [(0xD0004, 0xD0004), (0xD005C, 0xD005C)] k_ := hm _ (by decide)
  unfold Agg.partnerSiLostNow
  (repeat' split) <;> simp [hb0]
@[simp] theorem Agg.noteCkpt_rget (g : Agg) (k_ : Nat) (h : Outside [(0xD0030, 0xD0034)] k_) : rget (Agg.noteCkpt g).regs k_ = rget g.regs k_ := by
  have hm := fun (m : List (Nat × Nat)) (c : coversR [(0xD0030, 0xD0034)] m = true) => Outside.mono h c
  have hb0 : Outside [(0xD0030, 0xD0030)] k_ := hm _ (by decide)
  have hb1 : Outside [(0xD0034, 0xD0034)] k_ := hm _ (by decide)
  unfold Agg.noteCkpt
  (repeat' split) <;> simp [hb0, hb1]
@[simp] theorem Agg.checkpointWrite_rget (g : Agg) (free : Nat → Byte) (k_ : Nat) (h : Outside [(0xD0030, 0xD0034)] k_) : rget (Agg.checkpointWrite g free).regs k_ = rget g.regs k_ := by
  have hm := fun (m : List (Nat × Nat)) (c : coversR [(0xD0030, 0xD0034)] m = true) => Outside.mono h c
  have hb0 : Outside [(0xD0030, 0xD0034)] k_ := hm _ (by decide)
  unfold Agg.checkpointWrite
  (try dsimp only)
  (repeat' split) <;> simp [hb0]
@[simp] theorem Agg.checkpointFail_rget (g : Agg) (k_ : Nat) (h : Outside [(0xD0004, 0xD0004), (0xD0030, 0xD0034), (0xD0060, 0xD0060)] k_) : rget (Agg.checkpointFail g).regs k_ = rget g.regs k_ := by
  have hm := fun (m : List (Nat × Nat)) (c : coversR [(0xD0004, 0xD0004), (0xD0030, 0xD0034), (0xD0060, 0xD0060)] m = true) => Outside.mono h c
  have hb0 : Outside [(0xD0004, 0xD0004)] k_ := hm _ (by decide)
  have hb1 : Outside [(0xD0030, 0xD0034)] k_ := hm _ (by decide)
  have hb2 : Outside [(0xD0060, 0xD0060)] k_ := hm _ (by decide)
  unfold Agg.checkpointFail
  (try dsimp only)
  (repeat' split) <;> simp [hb0, hb1, hb2]
@[simp] theorem Agg.installModule_rget (g : Agg) (x : PairContent) (k_ : Nat) (h : Outside [(0x40040, 0x4007F), (0x40180, 0x401FF)] k_) : rget (Agg.installModule g x).regs k_ = rget g.regs k_ := by
  have hm := fun (m : List (Nat × Nat)) (c : coversR [(0x40040, 0x4007F), (0x40180, 0x401FF)] m = true) => Outside.mono h c
  have hb0 : Outside [(0x40040, 0x4007F)] k_ := hm _ (by decide)
  have hb1 : Outside [(0x40180, 0x401FF)] k_ := hm _ (by decide)
  have hq0 : ∀ o, 262208 ≤ o → o ≤ 262271 → Outside [(o, o)] k_ := fun o c d => outside_range (hm [(0x40040, 0x4007F)] (by decide)) c d
  have hq1 : ∀ o, 262528 ≤ o → o ≤ 262655 → Outside [(o, o)] k_ := fun o c d => outside_range (hm [(0x40180, 0x401FF)] (by decide)) c d
  unfold Agg.installModule
  (try dsimp only)
  (repeat' split) <;> (first | (simp (disch := first | assumption | (refine hq0 _ ?_ ?_ <;> omega) | (refine hq1 _ ?_ ?_ <;> omega) | (intros; simp (disch := first | assumption | (refine hq0 _ ?_ ?_ <;> omega) | (refine hq1 _ ?_ ?_ <;> omega)) [hb0, hb1, Nat.add_assoc])) [hb0, hb1, Nat.add_assoc]; done) | (simp (disch := first | assumption | (refine hq0 _ ?_ ?_ <;> omega) | (refine hq1 _ ?_ ?_ <;> omega) | (intros; simp (disch := first | assumption | (refine hq0 _ ?_ ?_ <;> omega) | (refine hq1 _ ?_ ?_ <;> omega)) [hb0, hb1, Nat.add_assoc])) [hb0, hb1, Nat.add_assoc]; split <;> simp))
@[simp] theorem Agg.syncState_rget (g : Agg) (x : Option PairContent) (k_ : Nat) (h : Outside [(0x40040, 0x4007F), (0x40180, 0x401FF), (0x43000, 0x431FF), (0x90000, 0x90000), (0x90040, 0x90040), (0xB0000, 0xB01FF)] k_) : rget (Agg.syncState g x).regs k_ = rget g.regs k_ := by
  have hm := fun (m : List (Nat × Nat)) (c : coversR [(0x40040, 0x4007F), (0x40180, 0x401FF), (0x43000, 0x431FF), (0x90000, 0x90000), (0x90040, 0x90040), (0xB0000, 0xB01FF)] m = true) => Outside.mono h c
  have hb0 : Outside [(0x40040, 0x4007F), (0x40180, 0x401FF)] k_ := hm _ (by decide)
  have hb1 : Outside [(0x43000, 0x431FF), (0x90000, 0x90000), (0x90040, 0x90040), (0xB0000, 0xB01FF)] k_ := hm _ (by decide)
  unfold Agg.syncState
  (try dsimp only)
  (repeat' split) <;> simp [hb0, hb1]
@[simp] theorem Agg.pairStroke_rget (g : Agg) (w : Nat) (k_ : Nat) (h : Outside [(0xD0030, 0xD0034)] k_) : rget (Agg.pairStroke g w).regs k_ = rget g.regs k_ := by
  have hm := fun (m : List (Nat × Nat)) (c : coversR [(0xD0030, 0xD0034)] m = true) => Outside.mono h c
  have hb0 : Outside [(0xD0030, 0xD0034)] k_ := hm _ (by decide)
  unfold Agg.pairStroke
  (try dsimp only)
  (repeat' split) <;> simp [hb0]
@[simp] theorem Agg.takeChange_rget (g : Agg) (s : Sched) (n : Nat) (k_ : Nat) (h : Outside [(0x1000, 0x1000), (0x1054, 0x1054)] k_) : rget (Agg.takeChange g s n).regs k_ = rget g.regs k_ := by
  have hm := fun (m : List (Nat × Nat)) (c : coversR [(0x1000, 0x1000), (0x1054, 0x1054)] m = true) => Outside.mono h c
  have hb0 : Outside [(0x1000, 0x1000)] k_ := hm _ (by decide)
  have hb1 : Outside [(0x1054, 0x1054)] k_ := hm _ (by decide)
  unfold Agg.takeChange
  (repeat' split) <;> simp [hb0, hb1]
@[simp] theorem Agg.delayedCommit_rget (g : Agg) (n : Nat) (k_ : Nat) (h : Outside [(0x43000, 0x431FF), (0x90000, 0x90000), (0x90040, 0x90040), (0xA0000, 0xA0000), (0xA004C, 0xA004C), (0xB0000, 0xB01FF)] k_) : rget (Agg.delayedCommit g n).regs k_ = rget g.regs k_ := by
  have hm := fun (m : List (Nat × Nat)) (c : coversR [(0x43000, 0x431FF), (0x90000, 0x90000), (0x90040, 0x90040), (0xA0000, 0xA0000), (0xA004C, 0xA004C), (0xB0000, 0xB01FF)] m = true) => Outside.mono h c
  have hb0 : Outside [(0x43000, 0x431FF), (0x90000, 0x90000), (0x90040, 0x90040), (0xA0000, 0xA0000), (0xA004C, 0xA004C), (0xB0000, 0xB01FF)] k_ := hm _ (by decide)
  unfold Agg.delayedCommit
  (try dsimp only) <;> (repeat' split) <;> simp [hb0]
@[simp] theorem Agg.delayedCommits_rget (g : Agg) (k_ : Nat) (h : Outside [(0x43000, 0x431FF), (0x90000, 0x90000), (0x90040, 0x90040), (0xA0000, 0xA0000), (0xA004C, 0xA004C), (0xB0000, 0xB01FF)] k_) : rget (Agg.delayedCommits g).regs k_ = rget g.regs k_ := by
  have hm := fun (m : List (Nat × Nat)) (c : coversR [(0x43000, 0x431FF), (0x90000, 0x90000), (0x90040, 0x90040), (0xA0000, 0xA0000), (0xA004C, 0xA004C), (0xB0000, 0xB01FF)] m = true) => Outside.mono h c
  have hb0 : Outside [(0x43000, 0x431FF), (0x90000, 0x90000), (0x90040, 0x90040), (0xA0000, 0xA0000), (0xA004C, 0xA004C), (0xB0000, 0xB01FF)] k_ := hm _ (by decide)
  unfold Agg.delayedCommits
  (try dsimp only) <;> (repeat' split) <;> simp [hb0]
@[simp] theorem Agg.rebuildRows_rget (g : Agg) (n : Nat) (from_ : Nat) (to_ : Nat) (k_ : Nat) (h : Outside [(0x70000, 0x70000), (0x7004C, 0x7004C)] k_) : rget (Agg.rebuildRows g n from_ to_).regs k_ = rget g.regs k_ := by
  unfold Agg.rebuildRows
  dsimp only
  rw [Agg.modScore_regs, Agg.rget_foldl]
  intro _ _
  rw [Agg.rget_foldl]
  intro _ _
  simp [h]
@[simp] theorem Agg.activateJob_rget (g : Agg) (n : Nat) (w : Nat) (k_ : Nat) (h : Outside [(0x70000, 0x70000), (0x7004C, 0x7004C)] k_) : rget (Agg.activateJob g n w).regs k_ = rget g.regs k_ := by
  have hm := fun (m : List (Nat × Nat)) (c : coversR [(0x70000, 0x70000), (0x7004C, 0x7004C)] m = true) => Outside.mono h c
  have hb0 : Outside [(0x70000, 0x70000), (0x7004C, 0x7004C)] k_ := hm _ (by decide)
  unfold Agg.activateJob
  (try dsimp only) <;> (repeat' split) <;> simp [hb0]
@[simp] theorem Agg.jobStroke_rget (g : Agg) (w : Nat) (k_ : Nat) (h : Outside [(0x43000, 0x431FF), (0x70000, 0x70000), (0x7004C, 0x7004C), (0x90000, 0x90000), (0x90040, 0x90040), (0xA0000, 0xA0000), (0xA004C, 0xA004C), (0xB0000, 0xB01FF)] k_) : rget (Agg.jobStroke g w).regs k_ = rget g.regs k_ := by
  have hm := fun (m : List (Nat × Nat)) (c : coversR [(0x43000, 0x431FF), (0x70000, 0x70000), (0x7004C, 0x7004C), (0x90000, 0x90000), (0x90040, 0x90040), (0xA0000, 0xA0000), (0xA004C, 0xA004C), (0xB0000, 0xB01FF)] m = true) => Outside.mono h c
  have hb0 : Outside [(0x43000, 0x431FF), (0x90000, 0x90000), (0x90040, 0x90040), (0xA0000, 0xA0000), (0xA004C, 0xA004C), (0xB0000, 0xB01FF)] k_ := hm _ (by decide)
  have hb1 : Outside [(0x70000, 0x70000), (0x7004C, 0x7004C)] k_ := hm _ (by decide)
  unfold Agg.jobStroke
  (try dsimp only) <;> (repeat' split) <;> simp [hb0, hb1]
@[simp] theorem Agg.windowOpens_rget (g : Agg) (n : Nat) (k_ : Nat) (h : Outside [(0x43000, 0x431FF), (0x70000, 0x70000), (0x7004C, 0x70054), (0x90000, 0x90000), (0x90040, 0x90040), (0xA0000, 0xA0000), (0xA004C, 0xA004C), (0xB0000, 0xB01FF), (0xD0030, 0xD0034)] k_) : rget (Agg.windowOpens g n).regs k_ = rget g.regs k_ := by
  have hm := fun (m : List (Nat × Nat)) (c : coversR [(0x43000, 0x431FF), (0x70000, 0x70000), (0x7004C, 0x70054), (0x90000, 0x90000), (0x90040, 0x90040), (0xA0000, 0xA0000), (0xA004C, 0xA004C), (0xB0000, 0xB01FF), (0xD0030, 0xD0034)] m = true) => Outside.mono h c
  have hb0 : Outside [(0x70000, 0x70000), (0x70050, 0x70050)] k_ := hm _ (by decide)
  have hb1 : Outside [(0x70000, 0x70000), (0x70054, 0x70054)] k_ := hm _ (by decide)
  have hb2 : Outside [(0xD0030, 0xD0034)] k_ := hm _ (by decide)
  have hb3 : Outside [(0x43000, 0x431FF), (0x70000, 0x70000), (0x7004C, 0x7004C), (0x90000, 0x90000), (0x90040, 0x90040), (0xA0000, 0xA0000), (0xA004C, 0xA004C), (0xB0000, 0xB01FF)] k_ := hm _ (by decide)
  unfold Agg.windowOpens
  (repeat' split) <;> simp [hb0, hb1, hb2, hb3]
@[simp] theorem Agg.stroke_rget (g : Agg) (k_ : Nat) (h : Outside [(0x1000, 0x1000), (0x1054, 0x1054), (0x43000, 0x431FF), (0x70000, 0x70000), (0x7004C, 0x70054), (0x90000, 0x90000), (0x90040, 0x90040), (0xA0000, 0xA0000), (0xA004C, 0xA004C), (0xB0000, 0xB01FF), (0xD0030, 0xD0034)] k_) : rget (Agg.stroke g).regs k_ = rget g.regs k_ := by
  have hm := fun (m : List (Nat × Nat)) (c : coversR [(0x1000, 0x1000), (0x1054, 0x1054), (0x43000, 0x431FF), (0x70000, 0x70000), (0x7004C, 0x70054), (0x90000, 0x90000), (0x90040, 0x90040), (0xA0000, 0xA0000), (0xA004C, 0xA004C), (0xB0000, 0xB01FF), (0xD0030, 0xD0034)] m = true) => Outside.mono h c
  have hb0 : Outside [(0x1000, 0x1000), (0x1054, 0x1054)] k_ := hm _ (by decide)
  have hb1 : Outside [(0x70000, 0x70000), (0x70050, 0x70054), (0xD0030, 0xD0034)] k_ := hm _ (by decide)
  have hb2 : Outside [(0x43000, 0x431FF), (0x70000, 0x70000), (0x7004C, 0x70054), (0x90000, 0x90000), (0x90040, 0x90040), (0xA0000, 0xA0000), (0xA004C, 0xA004C), (0xB0000, 0xB01FF), (0xD0030, 0xD0034)] k_ := hm _ (by decide)
  unfold Agg.stroke
  (repeat' split) <;> simp [hb0, hb1, hb2]
@[simp] theorem Agg.whenPowered_rget (g : Agg) (f : Agg → Agg) (k_ : Nat) (hf : ∀ x, rget (f x).regs k_ = rget x.regs k_) : rget (Agg.whenPowered g f).regs k_ = rget g.regs k_ := by
  unfold Agg.whenPowered
  (repeat' split) <;> simp [hf]
@[simp] theorem Agg.whenFw_rget (g : Agg) (f : Agg → Agg) (k_ : Nat) (hf : ∀ x, rget (f x).regs k_ = rget x.regs k_) : rget (Agg.whenFw g f).regs k_ = rget g.regs k_ := by
  unfold Agg.whenFw
  (repeat' split) <;> simp [hf]
@[simp] theorem Agg.whenLive_rget (g : Agg) (f : Agg → Agg) (k_ : Nat) (hf : ∀ x, rget (f x).regs k_ = rget x.regs k_) : rget (Agg.whenLive g f).regs k_ = rget g.regs k_ := by
  unfold Agg.whenLive
  (repeat' split) <;> simp [hf]
@[simp] theorem Agg.whenUp_rget (g : Agg) (k : Nat) (f : Agg → Agg) (k_ : Nat) (hf : ∀ x, rget (f x).regs k_ = rget x.regs k_) : rget (Agg.whenUp g k f).regs k_ = rget g.regs k_ := by
  unfold Agg.whenUp
  (repeat' split) <;> simp [hf]
@[simp] theorem Agg.whenPartner_rget (g : Agg) (f : Agg → Agg) (k_ : Nat) (hf : ∀ x, rget (f x).regs k_ = rget x.regs k_) : rget (Agg.whenPartner g f).regs k_ = rget g.regs k_ := by
  unfold Agg.whenPartner
  (repeat' split) <;> simp [hf]
@[simp] theorem Agg.whenFrom_rget (g : Agg) (src : Option (Fin 32)) (f : Agg → Agg) (k_ : Nat) (hf : ∀ x, rget (f x).regs k_ = rget x.regs k_) : rget (Agg.whenFrom g src f).regs k_ = rget g.regs k_ := by
  unfold Agg.whenFrom
  (repeat' split) <;> simp [hf]
@[simp] theorem Agg.datagramOf_rget (g : Agg) (kinds : Nat → Bool) (addr : Nat) (port : Nat) (m : List Byte) (k_ : Nat) (h : Outside [(0x90000, 0x90000), (0x90040, 0x90044)] k_) : rget (Agg.datagramOf g kinds addr port m).regs k_ = rget g.regs k_ := by
  have hm := fun (m : List (Nat × Nat)) (c : coversR [(0x90000, 0x90000), (0x90040, 0x90044)] m = true) => Outside.mono h c
  have hb0 : Outside [(0x90000, 0x90000), (0x90040, 0x90044)] k_ := hm _ (by decide)
  unfold Agg.datagramOf
  (repeat' split) <;> simp [hb0]
@[simp] theorem Agg.nakInvalid_rget (g : Agg) (qpn : Nat) (q : Qp) (psn : Nat) (k_ : Nat) (h : Outside [(0x43000, 0x431FF), (0xB0000, 0xB01FF)] k_) : rget (Agg.nakInvalid g qpn q psn).regs k_ = rget g.regs k_ := by
  have hm := fun (m : List (Nat × Nat)) (c : coversR [(0x43000, 0x431FF), (0xB0000, 0xB01FF)] m = true) => Outside.mono h c
  have hb0 : Outside [(0x43000, 0x431FF), (0xB0000, 0xB01FF)] k_ := hm _ (by decide)
  unfold Agg.nakInvalid
  (repeat' split) <;> simp [hb0]
@[simp] theorem Agg.nakOperational_rget (g : Agg) (qpn : Nat) (q : Qp) (psn : Nat) (k_ : Nat) (h : Outside [(0x43000, 0x431FF), (0xB0000, 0xB01FF)] k_) : rget (Agg.nakOperational g qpn q psn).regs k_ = rget g.regs k_ := by
  have hm := fun (m : List (Nat × Nat)) (c : coversR [(0x43000, 0x431FF), (0xB0000, 0xB01FF)] m = true) => Outside.mono h c
  have hb0 : Outside [(0x43000, 0x431FF), (0xB0000, 0xB01FF)] k_ := hm _ (by decide)
  have hb1 : Outside [(0xB0000, 0xB0000)] k_ := hm _ (by decide)
  have hb2 : Outside [(0xB0000, 0xB01FF)] k_ := hm _ (by decide)
  have hb3 : Outside [(0xB0054, 0xB0054)] k_ := hm _ (by decide)
  unfold Agg.nakOperational
  (repeat' split) <;> simp [hb0, hb1, hb2, hb3]
@[simp] theorem Agg.rdmaSendIn_rget (g : Agg) (qpn : Nat) (q : Qp) (p : RocePkt) (k_ : Nat) (h : Outside [(0x43000, 0x431FF), (0x90000, 0x90000), (0x90048, 0x90048), (0xB0000, 0xB01FF), (0x20000000, 0x2010FFFF)] k_) : rget (Agg.rdmaSendIn g qpn q p).regs k_ = rget g.regs k_ := by
  have hm := fun (m : List (Nat × Nat)) (c : coversR [(0x43000, 0x431FF), (0x90000, 0x90000), (0x90048, 0x90048), (0xB0000, 0xB01FF), (0x20000000, 0x2010FFFF)] m = true) => Outside.mono h c
  have hb0 : Outside [(0x43000, 0x431FF), (0x90000, 0x90000), (0x90048, 0x90048), (0xB0000, 0xB01FF), (0x20000000, 0x2010FFFF)] k_ := hm _ (by decide)
  have hb1 : Outside [(0x43000, 0x431FF), (0xB0000, 0xB01FF)] k_ := hm _ (by decide)
  unfold Agg.rdmaSendIn
  (repeat' split) <;> simp [hb0, hb1]
@[simp] theorem Agg.congest_rget (g : Agg) (p : RocePkt) (k_ : Nat) (h : Outside [(0x43000, 0x431FF), (0xB0000, 0xB01FF)] k_) : rget (Agg.congest g p).regs k_ = rget g.regs k_ := by
  have hm := fun (m : List (Nat × Nat)) (c : coversR [(0x43000, 0x431FF), (0xB0000, 0xB01FF)] m = true) => Outside.mono h c
  have hb0 : Outside [(0x43000, 0x431FF), (0xB0000, 0xB01FF)] k_ := hm _ (by decide)
  have hb1 : Outside [(0xB0000, 0xB01FF)] k_ := hm _ (by decide)
  unfold Agg.congest
  (repeat' split) <;> simp [hb0, hb1]
@[simp] theorem Agg.failQp_rget (g : Agg) (qpn : Nat) (q : Qp) (k_ : Nat) (h : Outside [(0xB0000, 0xB0000), (0xB0054, 0xB0054)] k_) : rget (Agg.failQp g qpn q).regs k_ = rget g.regs k_ := by
  have hm := fun (m : List (Nat × Nat)) (c : coversR [(0xB0000, 0xB0000), (0xB0054, 0xB0054)] m = true) => Outside.mono h c
  have hb0 : Outside [(0xB0000, 0xB0000)] k_ := hm _ (by decide)
  have hb1 : Outside [(0xB0054, 0xB0054)] k_ := hm _ (by decide)
  unfold Agg.failQp
  (repeat' split) <;> simp [hb0, hb1]
@[simp] theorem Agg.ackTimeout_rget (g : Agg) (qpn : Nat) (k_ : Nat) (h : Outside [(0x43000, 0x431FF), (0xB0000, 0xB01FF)] k_) : rget (Agg.ackTimeout g qpn).regs k_ = rget g.regs k_ := by
  have hm := fun (m : List (Nat × Nat)) (c : coversR [(0x43000, 0x431FF), (0xB0000, 0xB01FF)] m = true) => Outside.mono h c
  have hb0 : Outside [(0x43000, 0x431FF), (0xB0000, 0xB01FF)] k_ := hm _ (by decide)
  have hb1 : Outside [(0xB0000, 0xB0000), (0xB0054, 0xB0054)] k_ := hm _ (by decide)
  unfold Agg.ackTimeout
  (repeat' split) <;> simp [hb0, hb1]
@[simp] theorem Agg.requesterAck_rget (g : Agg) (qpn : Nat) (psn : Nat) (nak : Option Nat) (k_ : Nat) (h : Outside [(0x43000, 0x431FF), (0xB0000, 0xB01FF)] k_) : rget (Agg.requesterAck g qpn psn nak).regs k_ = rget g.regs k_ := by
  have hm := fun (m : List (Nat × Nat)) (c : coversR [(0x43000, 0x431FF), (0xB0000, 0xB01FF)] m = true) => Outside.mono h c
  have hb0 : Outside [(0x43000, 0x431FF), (0xB0000, 0xB01FF)] k_ := hm _ (by decide)
  have hb1 : Outside [(0xB0000, 0xB0000), (0xB0054, 0xB0054)] k_ := hm _ (by decide)
  unfold Agg.requesterAck
  (repeat' split) <;> simp [hb0, hb1]
@[simp] theorem Agg.cnpReceive_rget (g : Agg) (port : Nat) (k_ : Nat) (h : Outside [(0xB0000, 0xB01FF)] k_) : rget (Agg.cnpReceive g port).regs k_ = rget g.regs k_ := by
  have hm := fun (m : List (Nat × Nat)) (c : coversR [(0xB0000, 0xB01FF)] m = true) => Outside.mono h c
  have hb0 : Outside [(0xB0000, 0xB01FF)] k_ := hm _ (by decide)
  unfold Agg.cnpReceive
  (repeat' split) <;> simp [hb0]
@[simp] theorem Agg.apLink_rget (g : Agg) (port : Nat) (up : Bool) (k_ : Nat) (h : Outside [(0xB0000, 0xB007F)] k_) : rget (Agg.apLink g port up).regs k_ = rget g.regs k_ := by
  have hm := fun (m : List (Nat × Nat)) (c : coversR [(0xB0000, 0xB007F)] m = true) => Outside.mono h c
  have hb0 : Outside [(0xB0000, 0xB007F)] k_ := hm _ (by decide)
  have hb1 : Outside [(0xB0000, 0xB0000)] k_ := hm _ (by decide)
  have hq : Outside [(720960 + 4 * (port % 2), 720960 + 4 * (port % 2))] k_ := outside_range (hm [(0xB0000, 0xB007F)] (by decide)) (by omega) (by omega)
  have hq6 : Outside [(0xB0000, 0xB0000)] k_ := hm _ (by decide)
  unfold Agg.apLink
  (try dsimp only)
  (repeat' split) <;> simp [hq, hq6, hb0, Nat.add_assoc]
@[simp] theorem Agg.endRevoke_rget (g : Agg) (w : Nat) (writesCut : Nat) (rs : List ReadOut) (k_ : Nat) (h : Outside [(0x43000, 0x431FF), (0x90000, 0x90000), (0x90040, 0x90040), (0xB0000, 0xB01FF)] k_) : rget (Agg.endRevoke g w writesCut rs).regs k_ = rget g.regs k_ := by
  have hm := fun (m : List (Nat × Nat)) (c : coversR [(0x43000, 0x431FF), (0x90000, 0x90000), (0x90040, 0x90040), (0xB0000, 0xB01FF)] m = true) => Outside.mono h c
  have hb0 : Outside [(0x43000, 0x431FF), (0x90000, 0x90000), (0x90040, 0x90040), (0xB0000, 0xB01FF)] k_ := hm _ (by decide)
  have hb1 : Outside [(0x43000, 0x431FF), (0xB0000, 0xB01FF)] k_ := hm _ (by decide)
  unfold Agg.endRevoke
  (try dsimp only)
  (repeat' split) <;> simp [hb0, hb1]
@[simp] theorem Agg.revokeDrained_rget (g : Agg) (w : Nat) (k_ : Nat) (h : Outside [(0x43000, 0x431FF), (0x90000, 0x90000), (0x90040, 0x90040), (0xB0000, 0xB01FF)] k_) : rget (Agg.revokeDrained g w).regs k_ = rget g.regs k_ := by
  have hm := fun (m : List (Nat × Nat)) (c : coversR [(0x43000, 0x431FF), (0x90000, 0x90000), (0x90040, 0x90040), (0xB0000, 0xB01FF)] m = true) => Outside.mono h c
  have hb0 : Outside [(0x43000, 0x431FF), (0x90000, 0x90000), (0x90040, 0x90040), (0xB0000, 0xB01FF)] k_ := hm _ (by decide)
  unfold Agg.revokeDrained
  (repeat' split) <;> simp [hb0]
@[simp] theorem Agg.revokeBound_rget (g : Agg) (w : Nat) (k_ : Nat) (h : Outside [(0x43000, 0x431FF), (0x90000, 0x90000), (0x90040, 0x90040), (0xB0000, 0xB01FF)] k_) : rget (Agg.revokeBound g w).regs k_ = rget g.regs k_ := by
  have hm := fun (m : List (Nat × Nat)) (c : coversR [(0x43000, 0x431FF), (0x90000, 0x90000), (0x90040, 0x90040), (0xB0000, 0xB01FF)] m = true) => Outside.mono h c
  have hb0 : Outside [(0x43000, 0x431FF), (0x90000, 0x90000), (0x90040, 0x90040), (0xB0000, 0xB01FF)] k_ := hm _ (by decide)
  have hb1 : Outside [(0xB0000, 0xB0000)] k_ := hm _ (by decide)
  have hb2 : Outside [(0xB0058, 0xB0058)] k_ := hm _ (by decide)
  unfold Agg.revokeBound
  (try dsimp only)
  (repeat' split) <;> simp [hb0, hb1, hb2]
@[simp] theorem Agg.lifeTick_rget (g : Agg) (k_ : Nat) (h : Outside [(0xC0024, 0xC0024)] k_) : rget (Agg.lifeTick g).regs k_ = rget g.regs k_ := by
  have hm := fun (m : List (Nat × Nat)) (c : coversR [(0xC0024, 0xC0024)] m = true) => Outside.mono h c
  have hb0 : Outside [(0xC0024, 0xC0024)] k_ := hm _ (by decide)
  unfold Agg.lifeTick
  (repeat' split) <;> simp [hb0]
@[simp] theorem Agg.drainPort_rget (port : Nat) (n : Nat) (g : Agg) (k_ : Nat) (h : Outside [(0x43000, 0x431FF), (0xB0000, 0xB01FF)] k_) : rget (Agg.drainPort port n g).regs k_ = rget g.regs k_ := by
  have hm := fun (m : List (Nat × Nat)) (c : coversR [(0x43000, 0x431FF), (0xB0000, 0xB01FF)] m = true) => Outside.mono h c
  have hb0 : Outside [(0xB0000, 0xB01FF)] k_ := hm _ (by decide)
  have hb1 : Outside [(0x43000, 0x431FF)] k_ := hm _ (by decide)
  induction n generalizing g with
  | zero => rfl
  | succ n ih => unfold Agg.drainPort; (try dsimp only); (repeat' split) <;> simp [ih, hb0, hb1, Nat.add_assoc]
@[simp] theorem Agg.drainEgress_rget (g : Agg) (k_ : Nat) (h : Outside [(0x43000, 0x431FF), (0xB0000, 0xB01FF)] k_) : rget (Agg.drainEgress g).regs k_ = rget g.regs k_ := by
  have hm := fun (m : List (Nat × Nat)) (c : coversR [(0x43000, 0x431FF), (0xB0000, 0xB01FF)] m = true) => Outside.mono h c
  have hb0 : Outside [(0x43000, 0x431FF), (0xB0000, 0xB01FF)] k_ := hm _ (by decide)
  unfold Agg.drainEgress
  (try dsimp only) <;> (repeat' split) <;> simp [hb0]
@[simp] theorem Agg.drainOne_rget (g : Agg) (qpn : Nat) (k_ : Nat) (h : Outside [(0x43000, 0x431FF), (0x90000, 0x90000), (0x90040, 0x90040), (0xB0000, 0xB01FF)] k_) : rget (Agg.drainOne g qpn).regs k_ = rget g.regs k_ := by
  have hm := fun (m : List (Nat × Nat)) (c : coversR [(0x43000, 0x431FF), (0x90000, 0x90000), (0x90040, 0x90040), (0xB0000, 0xB01FF)] m = true) => Outside.mono h c
  have hb0 : Outside [(0x43000, 0x431FF), (0x90000, 0x90000), (0x90040, 0x90040), (0xB0000, 0xB01FF)] k_ := hm _ (by decide)
  unfold Agg.drainOne
  (try dsimp only) <;> (repeat' split) <;> simp [hb0]
@[simp] theorem Agg.qpDrains_rget (g : Agg) (k_ : Nat) (h : Outside [(0x43000, 0x431FF), (0x90000, 0x90000), (0x90040, 0x90040), (0xB0000, 0xB01FF)] k_) : rget (Agg.qpDrains g).regs k_ = rget g.regs k_ := by
  have hm := fun (m : List (Nat × Nat)) (c : coversR [(0x43000, 0x431FF), (0x90000, 0x90000), (0x90040, 0x90040), (0xB0000, 0xB01FF)] m = true) => Outside.mono h c
  have hb0 : Outside [(0x43000, 0x431FF), (0x90000, 0x90000), (0x90040, 0x90040), (0xB0000, 0xB01FF)] k_ := hm _ (by decide)
  unfold Agg.qpDrains
  (try dsimp only) <;> (repeat' split) <;> simp [hb0]
@[simp] theorem Agg.tick_rget (g : Agg) (k_ : Nat) (h : Outside [(0x43000, 0x431FF), (0x90000, 0x90000), (0x90040, 0x90040), (0xB0000, 0xB01FF), (0xC0024, 0xC0024)] k_) : rget (Agg.tick g).regs k_ = rget g.regs k_ := by
  have hm := fun (m : List (Nat × Nat)) (c : coversR [(0x43000, 0x431FF), (0x90000, 0x90000), (0x90040, 0x90040), (0xB0000, 0xB01FF), (0xC0024, 0xC0024)] m = true) => Outside.mono h c
  have hb0 : Outside [(0xC0024, 0xC0024)] k_ := hm _ (by decide)
  have hb1 : Outside [(0x43000, 0x431FF), (0xB0000, 0xB01FF)] k_ := hm _ (by decide)
  have hb2 : Outside [(0x43000, 0x431FF), (0x90000, 0x90000), (0x90040, 0x90040), (0xB0000, 0xB01FF)] k_ := hm _ (by decide)
  unfold Agg.tick
  (repeat' split) <;> simp [hb0, hb1, hb2]
end Sys2Proof.Machine
end

