-- ==== Sys2Proof/Laws/RegsAtu.lean ====
section
/-!
SUPPORT. RegsAtu.lean: one lemma per operation of the ATU that says which registers the operation may change.
-/
namespace Sys2Proof.Machine
set_option linter.all false
@[simp] theorem Atu.setReg_rget (a : Atu) (off : Nat) (v : Word) (k_ : Nat) (h : Outside [(off, off)] k_) : rget (Atu.setReg a off v).regs k_ = rget a.regs k_ := by
  unfold Atu.setReg
  (repeat' split) <;> simp [h]
@[simp] theorem Atu.setRegN_rget (a : Atu) (off : Nat) (v : Nat) (k_ : Nat) (h : Outside [(off, off)] k_) : rget (Atu.setRegN a off v).regs k_ = rget a.regs k_ := by
  unfold Atu.setRegN
  (repeat' split) <;> simp [h]
@[simp] theorem Atu.setFld_rget (a : Atu) (off : Nat) (hi : Nat) (lo : Nat) (v : Nat) (k_ : Nat) (h : Outside [(off, off)] k_) : rget (Atu.setFld a off hi lo v).regs k_ = rget a.regs k_ := by
  unfold Atu.setFld
  (repeat' split) <;> simp [h]
@[simp] theorem Atu.inc_rget (a : Atu) (off : Nat) (n : Nat) (k_ : Nat) (h : Outside [(off, off)] k_) : rget (Atu.inc a off n).regs k_ = rget a.regs k_ := by
  unfold Atu.inc
  (repeat' split) <;> simp [h]
@[simp] theorem Atu.incFldSat_rget (a : Atu) (off : Nat) (hi : Nat) (lo : Nat) (k_ : Nat) (h : Outside [(off, off)] k_) : rget (Atu.incFldSat a off hi lo).regs k_ = rget a.regs k_ := by
  unfold Atu.incFldSat
  (repeat' split) <;> simp [h]
@[simp] theorem Atu.flag_rget (a : Atu) (f : Flag) (k_ : Nat) (h : Outside [(f.stat, f.stat)] k_) (h2 : Outside [(f.ctr, f.ctr)] k_) : rget (Atu.flag a f).regs k_ = rget a.regs k_ := by
  unfold Atu.flag
  (repeat' split) <;> simp [h, h2]
@[simp] theorem Atu.setClaim_rget (a : Atu) (k : Nat) (holder : Nat) (index : Nat) (s : Side) (k_ : Nat) (h : Outside [(0x800, 0x81F)] k_) : rget (Atu.setClaim a k holder index s).regs k_ = rget a.regs k_ := by
  have hm := fun (m : List (Nat × Nat)) (c : coversR [(0x800, 0x81F)] m = true) => Outside.mono h c
  have hb0 : Outside [(0x800, 0x81F)] k_ := hm _ (by decide)
  have hq0 : ∀ o, 2048 ≤ o → o ≤ 2079 → Outside [(o, o)] k_ := fun o c d => outside_range (hm [(0x800, 0x81F)] (by decide)) c d
  unfold Atu.setClaim
  (try dsimp only)
  (repeat' split) <;> (first | (simp (disch := first | assumption | (refine hq0 _ ?_ ?_ <;> omega) | (intros; simp (disch := first | assumption | (refine hq0 _ ?_ ?_ <;> omega)) [hb0, Nat.add_assoc])) [hb0, Nat.add_assoc]; done) | (simp (disch := first | assumption | (refine hq0 _ ?_ ?_ <;> omega) | (intros; simp (disch := first | assumption | (refine hq0 _ ?_ ?_ <;> omega)) [hb0, Nat.add_assoc])) [hb0, Nat.add_assoc]; split <;> simp))
@[simp] theorem Atu.freeClaim_rget (a : Atu) (k : Nat) (k_ : Nat) (h : Outside [(0x800, 0x81F)] k_) : rget (Atu.freeClaim a k).regs k_ = rget a.regs k_ := by
  have hm := fun (m : List (Nat × Nat)) (c : coversR [(0x800, 0x81F)] m = true) => Outside.mono h c
  have hb0 : Outside [(0x800, 0x81F)] k_ := hm _ (by decide)
  have hq0 : ∀ o, 2048 ≤ o → o ≤ 2079 → Outside [(o, o)] k_ := fun o c d => outside_range (hm [(0x800, 0x81F)] (by decide)) c d
  unfold Atu.freeClaim
  (try dsimp only)
  (repeat' split) <;> (first | (simp (disch := first | assumption | (refine hq0 _ ?_ ?_ <;> omega) | (intros; simp (disch := first | assumption | (refine hq0 _ ?_ ?_ <;> omega)) [hb0, Nat.add_assoc])) [hb0, Nat.add_assoc]; done) | (simp (disch := first | assumption | (refine hq0 _ ?_ ?_ <;> omega) | (intros; simp (disch := first | assumption | (refine hq0 _ ?_ ?_ <;> omega)) [hb0, Nat.add_assoc])) [hb0, Nat.add_assoc]; split <;> simp))
@[simp] theorem Atu.releaseDma_rget (a : Atu) (holder : Nat) (k_ : Nat) (h : Outside [(0x800, 0x81F)] k_) : rget (Atu.releaseDma a holder).regs k_ = rget a.regs k_ := by
  have hm := fun (m : List (Nat × Nat)) (c : coversR [(0x800, 0x81F)] m = true) => Outside.mono h c
  have hb0 : Outside [(0x800, 0x81F)] k_ := hm _ (by decide)
  unfold Atu.releaseDma
  (repeat' split) <;> simp [hb0]
--@
@[simp] theorem Atu.flagTimes_rget (a : Atu) (f : Flag) (n : Nat) (k_ : Nat) (h : Outside [(f.stat, f.stat)] k_) (h2 : Outside [(f.ctr, f.ctr)] k_) : rget (Atu.flagTimes a f n).regs k_ = rget a.regs k_ := by
  induction n generalizing a with
  | zero => rfl
  | succ n ih => unfold Atu.flagTimes; rw [ih]; simp [h, h2]
@[simp] theorem Atu.addOverwritten_rget (a : Atu) (n : Nat) (k_ : Nat) (h : Outside [(0x6024, 0x6024)] k_) : rget (Atu.addOverwritten a n).regs k_ = rget a.regs k_ := by
  have hm := fun (m : List (Nat × Nat)) (c : coversR [(0x6024, 0x6024)] m = true) => Outside.mono h c
  have hb0 : Outside [(0x6024, 0x6024)] k_ := hm _ (by decide)
  unfold Atu.addOverwritten
  (repeat' split) <;> simp [hb0]
@[simp] theorem Atu.evrAppend_rget (a : Atu) (r : EvrRec) (k_ : Nat) (h : Outside [(0x6004, 0x6004), (0x6024, 0x6024), (0x6048, 0x604C)] k_) : rget (Atu.evrAppend a r).regs k_ = rget a.regs k_ := by
  have hm := fun (m : List (Nat × Nat)) (c : coversR [(0x6004, 0x6004), (0x6024, 0x6024), (0x6048, 0x604C)] m = true) => Outside.mono h c
  have hb0 : Outside [(0x6004, 0x6004)] k_ := hm _ (by decide)
  have hb1 : Outside [(0x6024, 0x6024)] k_ := hm _ (by decide)
  have hb2 : Outside [(0x6048, 0x6048)] k_ := hm _ (by decide)
  have hb3 : Outside [(0x604C, 0x604C)] k_ := hm _ (by decide)
  unfold Atu.evrAppend
  (repeat' split) <;> simp [hb0, hb1, hb2, hb3]
@[simp] theorem Atu.event_rget (a : Atu) (typ : Nat) (sev : Nat) (source : Nat) (detail : List Byte) (k_ : Nat) (h : Outside [(0x6004, 0x6004), (0x6024, 0x6024), (0x6048, 0x604C)] k_) : rget (Atu.event a typ sev source detail).regs k_ = rget a.regs k_ := by
  have hm := fun (m : List (Nat × Nat)) (c : coversR [(0x6004, 0x6004), (0x6024, 0x6024), (0x6048, 0x604C)] m = true) => Outside.mono h c
  have hb0 : Outside [(0x6004, 0x6004), (0x6024, 0x6024), (0x6048, 0x604C)] k_ := hm _ (by decide)
  unfold Atu.event
  (try dsimp only)
  (repeat' split) <;> simp [hb0]
@[simp] theorem Atu.timeStateEvent_rget (a : Atu) (t : TimeState) (off : Int) (k_ : Nat) (h : Outside [(0x6004, 0x6004), (0x6024, 0x6024), (0x6048, 0x604C)] k_) : rget (Atu.timeStateEvent a t off).regs k_ = rget a.regs k_ := by
  have hm := fun (m : List (Nat × Nat)) (c : coversR [(0x6004, 0x6004), (0x6024, 0x6024), (0x6048, 0x604C)] m = true) => Outside.mono h c
  have hb0 : Outside [(0x6004, 0x6004), (0x6024, 0x6024), (0x6048, 0x604C)] k_ := hm _ (by decide)
  unfold Atu.timeStateEvent
  (repeat' split) <;> simp [hb0]
@[simp] theorem Atu.snapFaultEvent_rget (a : Atu) (k_ : Nat) (h : Outside [(0x6004, 0x6004), (0x6024, 0x6024), (0x6048, 0x604C)] k_) : rget (Atu.snapFaultEvent a).regs k_ = rget a.regs k_ := by
  have hm := fun (m : List (Nat × Nat)) (c : coversR [(0x6004, 0x6004), (0x6024, 0x6024), (0x6048, 0x604C)] m = true) => Outside.mono h c
  have hb0 : Outside [(0x6004, 0x6004), (0x6024, 0x6024), (0x6048, 0x604C)] k_ := hm _ (by decide)
  unfold Atu.snapFaultEvent
  (repeat' split) <;> simp [hb0]
@[simp] theorem Atu.fitEvent_rget (a : Atu) (k : Nat) (k_ : Nat) (h : Outside [(0x6004, 0x6004), (0x6024, 0x6024), (0x6048, 0x604C)] k_) : rget (Atu.fitEvent a k).regs k_ = rget a.regs k_ := by
  have hm := fun (m : List (Nat × Nat)) (c : coversR [(0x6004, 0x6004), (0x6024, 0x6024), (0x6048, 0x604C)] m = true) => Outside.mono h c
  have hb0 : Outside [(0x6004, 0x6004), (0x6024, 0x6024), (0x6048, 0x604C)] k_ := hm _ (by decide)
  unfold Atu.fitEvent
  (repeat' split) <;> simp [hb0]
@[simp] theorem Atu.fitEvents_rget (a : Atu) (k_ : Nat) (h : Outside [(0x6004, 0x6004), (0x6024, 0x6024), (0x6048, 0x604C)] k_) : rget (Atu.fitEvents a).regs k_ = rget a.regs k_ := by
  have hm := fun (m : List (Nat × Nat)) (c : coversR [(0x6004, 0x6004), (0x6024, 0x6024), (0x6048, 0x604C)] m = true) => Outside.mono h c
  have hb0 : Outside [(0x6004, 0x6004), (0x6024, 0x6024), (0x6048, 0x604C)] k_ := hm _ (by decide)
  unfold Atu.fitEvents
  (repeat' split) <;> simp [hb0]
@[simp] theorem Atu.lifeMove_rget (a : Atu) (v : Nat) (k_ : Nat) (h : Outside [(0x6008, 0x6008)] k_) : rget (Atu.lifeMove a v).regs k_ = rget a.regs k_ := by
  have hm := fun (m : List (Nat × Nat)) (c : coversR [(0x6008, 0x6008)] m = true) => Outside.mono h c
  have hb0 : Outside [(0x6008, 0x6008)] k_ := hm _ (by decide)
  unfold Atu.lifeMove
  (try dsimp only) <;> (repeat' split) <;> simp [hb0]
@[simp] theorem Atu.evrLoad_rget (a : Atu) (k_ : Nat) (h : Outside [(0x6004, 0x600C), (0x6024, 0x6028), (0x6048, 0x604C)] k_) : rget (Atu.evrLoad a).regs k_ = rget a.regs k_ := by
  have hm := fun (m : List (Nat × Nat)) (c : coversR [(0x6004, 0x600C), (0x6024, 0x6028), (0x6048, 0x604C)] m = true) => Outside.mono h c
  have hb0 : Outside [(0x6004, 0x6004)] k_ := hm _ (by decide)
  have hb1 : Outside [(0x6004, 0x6004), (0x6024, 0x6024), (0x6048, 0x604C)] k_ := hm _ (by decide)
  have hb2 : Outside [(0x6008, 0x6008)] k_ := hm _ (by decide)
  have hb3 : Outside [(0x600C, 0x600C)] k_ := hm _ (by decide)
  have hb4 : Outside [(0x6028, 0x6028)] k_ := hm _ (by decide)
  unfold Atu.evrLoad
  (repeat' split) <;> simp [hb0, hb1, hb2, hb3, hb4]
@[simp] theorem Atu.startFlush_rget (a : Atu) (reason : Nat) (k_ : Nat) (h : Outside [(0x6004, 0x600C), (0x6024, 0x6028), (0x6048, 0x604C)] k_) : rget (Atu.startFlush a reason).regs k_ = rget a.regs k_ := by
  have hm := fun (m : List (Nat × Nat)) (c : coversR [(0x6004, 0x600C), (0x6024, 0x6028), (0x6048, 0x604C)] m = true) => Outside.mono h c
  have hb0 : Outside [(0x6004, 0x6004)] k_ := hm _ (by decide)
  have hb1 : Outside [(0x6004, 0x6004), (0x6024, 0x6024), (0x6048, 0x604C)] k_ := hm _ (by decide)
  have hb2 : Outside [(0x6004, 0x600C), (0x6024, 0x6028), (0x6048, 0x604C)] k_ := hm _ (by decide)
  unfold Atu.startFlush
  (repeat' split) <;> simp [hb0, hb1, hb2]
@[simp] theorem Atu.flushErr_rget (a : Atu) (k_ : Nat) (h : Outside [(0x6004, 0x6004), (0x6044, 0x6044)] k_) : rget (Atu.flushErr a).regs k_ = rget a.regs k_ := by
  have hm := fun (m : List (Nat × Nat)) (c : coversR [(0x6004, 0x6004), (0x6044, 0x6044)] m = true) => Outside.mono h c
  have hb0 : Outside [(0x6004, 0x6004)] k_ := hm _ (by decide)
  have hb1 : Outside [(0x6044, 0x6044)] k_ := hm _ (by decide)
  unfold Atu.flushErr
  (repeat' split) <;> simp [hb0, hb1]
@[simp] theorem Atu.flushDone_rget (a : Atu) (k_ : Nat) (h : Outside [(0x6004, 0x6004), (0x6028, 0x6028), (0x6040, 0x6044)] k_) : rget (Atu.flushDone a).regs k_ = rget a.regs k_ := by
  have hm := fun (m : List (Nat × Nat)) (c : coversR [(0x6004, 0x6004), (0x6028, 0x6028), (0x6040, 0x6044)] m = true) => Outside.mono h c
  have hb0 : Outside [(0x6004, 0x6004)] k_ := hm _ (by decide)
  have hb1 : Outside [(0x6028, 0x6028)] k_ := hm _ (by decide)
  have hb2 : Outside [(0x6040, 0x6040)] k_ := hm _ (by decide)
  have hb3 : Outside [(0x6004, 0x6004), (0x6044, 0x6044)] k_ := hm _ (by decide)
  unfold Atu.flushDone
  (repeat' split) <;> simp [hb0, hb1, hb2, hb3]
@[simp] theorem Atu.lifeTick_rget (a : Atu) (k_ : Nat) (h : Outside [(0x6008, 0x6008)] k_) : rget (Atu.lifeTick a).regs k_ = rget a.regs k_ := by
  have hm := fun (m : List (Nat × Nat)) (c : coversR [(0x6008, 0x6008)] m = true) => Outside.mono h c
  have hb0 : Outside [(0x6008, 0x6008)] k_ := hm _ (by decide)
  unfold Atu.lifeTick
  (repeat' split) <;> simp [hb0]
@[simp] theorem Atu.evrPowerFail_rget (a : Atu) (k_ : Nat) (h : Outside [(0x6004, 0x600C), (0x6024, 0x6028), (0x6048, 0x604C)] k_) : rget (Atu.evrPowerFail a).regs k_ = rget a.regs k_ := by
  have hm := fun (m : List (Nat × Nat)) (c : coversR [(0x6004, 0x600C), (0x6024, 0x6028), (0x6048, 0x604C)] m = true) => Outside.mono h c
  have hb0 : Outside [(0x6004, 0x6004)] k_ := hm _ (by decide)
  have hb1 : Outside [(0x6004, 0x6004), (0x6024, 0x6024), (0x6048, 0x604C)] k_ := hm _ (by decide)
  have hb2 : Outside [(0x6004, 0x600C), (0x6024, 0x6028), (0x6048, 0x604C)] k_ := hm _ (by decide)
  unfold Atu.evrPowerFail
  (repeat' split) <;> simp [hb0, hb1, hb2]
@[simp] theorem Atu.hostRecord_rget (a : Atu) (v : Word) (k_ : Nat) (h : Outside [(0x6004, 0x6004), (0x6024, 0x6024), (0x6048, 0x604C)] k_) : rget (Atu.hostRecord a v).regs k_ = rget a.regs k_ := by
  have hm := fun (m : List (Nat × Nat)) (c : coversR [(0x6004, 0x6004), (0x6024, 0x6024), (0x6048, 0x604C)] m = true) => Outside.mono h c
  have hb0 : Outside [(0x6004, 0x6004), (0x6024, 0x6024), (0x6048, 0x604C)] k_ := hm _ (by decide)
  unfold Atu.hostRecord
  (repeat' split) <;> simp [hb0]
@[simp] theorem Atu.settle_rget (a : Atu) (t : TraceStream) (k_ : Nat) (h : Outside [(0x3008, 0x3008), (0x3044, 0x3044)] k_) : rget (Atu.settle a t).1.regs k_ = rget a.regs k_ := by
  have hm := fun (m : List (Nat × Nat)) (c : coversR [(0x3008, 0x3008), (0x3044, 0x3044)] m = true) => Outside.mono h c
  have hb0 : Outside [(0x3008, 0x3008)] k_ := hm _ (by decide)
  have hb1 : Outside [(0x3044, 0x3044)] k_ := hm _ (by decide)
  unfold Atu.settle
  (repeat' split) <;> simp [hb0, hb1]
@[simp] theorem Atu.setSrc_rget (a : Atu) (n : Fin 16) (x : TraceSrc) (k_ : Nat) (h : Outside [(0x3008, 0x3008), (0x3044, 0x3044)] k_) : rget (Atu.setSrc a n x).regs k_ = rget a.regs k_ := by
  have hm := fun (m : List (Nat × Nat)) (c : coversR [(0x3008, 0x3008), (0x3044, 0x3044)] m = true) => Outside.mono h c
  have hb0 : Outside [(0x3008, 0x3008), (0x3044, 0x3044)] k_ := hm _ (by decide)
  unfold Atu.setSrc
  (try dsimp only)
  (repeat' split) <;> simp [hb0]
@[simp] theorem Atu.setLogStream_rget (a : Atu) (t : TraceStream) (k_ : Nat) (h : Outside [(0x3008, 0x3008), (0x3044, 0x3044)] k_) : rget (Atu.setLogStream a t).regs k_ = rget a.regs k_ := by
  have hm := fun (m : List (Nat × Nat)) (c : coversR [(0x3008, 0x3008), (0x3044, 0x3044)] m = true) => Outside.mono h c
  have hb0 : Outside [(0x3008, 0x3008), (0x3044, 0x3044)] k_ := hm _ (by decide)
  unfold Atu.setLogStream
  (try dsimp only)
  (repeat' split) <;> simp [hb0]
@[simp] theorem Atu.srcStart_rget (a : Atu) (e : Nat) (n : Fin 16) (k_ : Nat) (h : Outside [(0x3008, 0x3008), (0x3044, 0x3044), (0x3100, 0x317F)] k_) : rget (Atu.srcStart a e n).regs k_ = rget a.regs k_ := by
  have hm := fun (m : List (Nat × Nat)) (c : coversR [(0x3008, 0x3008), (0x3044, 0x3044), (0x3100, 0x317F)] m = true) => Outside.mono h c
  have hb0 : Outside [(0x3008, 0x3008), (0x3044, 0x3044)] k_ := hm _ (by decide)
  have hb1 : Outside [(0x3100, 0x317F)] k_ := hm _ (by decide)
  have hq0 : ∀ o, 12544 ≤ o → o ≤ 12671 → Outside [(o, o)] k_ := fun o c d => outside_range (hm [(0x3100, 0x317F)] (by decide)) c d
  unfold Atu.srcStart
  (try dsimp only)
  (repeat' split) <;> (first | (simp (disch := first | assumption | (refine hq0 _ ?_ ?_ <;> omega) | (intros; simp (disch := first | assumption | (refine hq0 _ ?_ ?_ <;> omega)) [hb0, hb1, Nat.add_assoc])) [hb0, hb1, Nat.add_assoc]; done) | (simp (disch := first | assumption | (refine hq0 _ ?_ ?_ <;> omega) | (intros; simp (disch := first | assumption | (refine hq0 _ ?_ ?_ <;> omega)) [hb0, hb1, Nat.add_assoc])) [hb0, hb1, Nat.add_assoc]; split <;> simp))
@[simp] theorem Atu.eachSrc_rget (a : Atu) (f : Atu → Fin 16 → Atu) (k_ : Nat) (hf : ∀ x y, rget (f x y).regs k_ = rget x.regs k_) : rget (Atu.eachSrc a f).regs k_ = rget a.regs k_ := by
  unfold Atu.eachSrc
  (repeat' split) <;> simp [hf]
@[simp] theorem Atu.traceStart_rget (a : Atu) (e : Nat) (k_ : Nat) (h : Outside [(0x3008, 0x3008), (0x3044, 0x3044), (0x3050, 0x3050), (0x3100, 0x317F)] k_) : rget (Atu.traceStart a e).regs k_ = rget a.regs k_ := by
  have hm := fun (m : List (Nat × Nat)) (c : coversR [(0x3008, 0x3008), (0x3044, 0x3044), (0x3050, 0x3050), (0x3100, 0x317F)] m = true) => Outside.mono h c
  have hb0 : Outside [(0x3008, 0x3008)] k_ := hm _ (by decide)
  have hb1 : Outside [(0x3008, 0x3008), (0x3044, 0x3044), (0x3100, 0x317F)] k_ := hm _ (by decide)
  have hb2 : Outside [(0x3050, 0x3050)] k_ := hm _ (by decide)
  unfold Atu.traceStart
  (repeat' split) <;> simp [hb0, hb1, hb2]
@[simp] theorem Atu.srcStop_rget (a : Atu) (e : Nat) (n : Fin 16) (k_ : Nat) (h : Outside [(0x3008, 0x3008), (0x3044, 0x3044)] k_) : rget (Atu.srcStop a e n).regs k_ = rget a.regs k_ := by
  have hm := fun (m : List (Nat × Nat)) (c : coversR [(0x3008, 0x3008), (0x3044, 0x3044)] m = true) => Outside.mono h c
  have hb0 : Outside [(0x3008, 0x3008), (0x3044, 0x3044)] k_ := hm _ (by decide)
  unfold Atu.srcStop
  (repeat' split) <;> simp [hb0]
@[simp] theorem Atu.traceStop_rget (a : Atu) (e : Nat) (k_ : Nat) (h : Outside [(0x3008, 0x3008), (0x3044, 0x3044), (0x3054, 0x3054)] k_) : rget (Atu.traceStop a e).regs k_ = rget a.regs k_ := by
  have hm := fun (m : List (Nat × Nat)) (c : coversR [(0x3008, 0x3008), (0x3044, 0x3044), (0x3054, 0x3054)] m = true) => Outside.mono h c
  have hb0 : Outside [(0x3008, 0x3008)] k_ := hm _ (by decide)
  have hb1 : Outside [(0x3008, 0x3008), (0x3044, 0x3044)] k_ := hm _ (by decide)
  have hb2 : Outside [(0x3054, 0x3054)] k_ := hm _ (by decide)
  unfold Atu.traceStop
  (repeat' split) <;> simp [hb0, hb1, hb2]
@[simp] theorem Atu.checkBufFull_rget (a : Atu) (was : Bool) (k_ : Nat) (h : Outside [(0x3008, 0x3008), (0x3044, 0x3044), (0x3054, 0x3054)] k_) : rget (Atu.checkBufFull a was).regs k_ = rget a.regs k_ := by
  have hm := fun (m : List (Nat × Nat)) (c : coversR [(0x3008, 0x3008), (0x3044, 0x3044), (0x3054, 0x3054)] m = true) => Outside.mono h c
  have hb0 : Outside [(0x3008, 0x3008), (0x3044, 0x3044), (0x3054, 0x3054)] k_ := hm _ (by decide)
  unfold Atu.checkBufFull
  (repeat' split) <;> simp [hb0]
@[simp] theorem Atu.stopEvent_rget (a : Atu) (e : Nat) (k_ : Nat) (h : Outside [(0x3008, 0x3008), (0x3044, 0x3044), (0x3054, 0x3054)] k_) : rget (Atu.stopEvent a e).regs k_ = rget a.regs k_ := by
  have hm := fun (m : List (Nat × Nat)) (c : coversR [(0x3008, 0x3008), (0x3044, 0x3044), (0x3054, 0x3054)] m = true) => Outside.mono h c
  have hb0 : Outside [(0x3008, 0x3008), (0x3044, 0x3044), (0x3054, 0x3054)] k_ := hm _ (by decide)
  unfold Atu.stopEvent
  (repeat' split) <;> simp [hb0]
@[simp] theorem Atu.fire_rget (a : Atu) (es : List Nat) (k_ : Nat) (h : Outside [(0x3008, 0x3008), (0x3044, 0x3044), (0x3050, 0x3054), (0x3100, 0x317F)] k_) : rget (Atu.fire a es).regs k_ = rget a.regs k_ := by
  have hm := fun (m : List (Nat × Nat)) (c : coversR [(0x3008, 0x3008), (0x3044, 0x3044), (0x3050, 0x3054), (0x3100, 0x317F)] m = true) => Outside.mono h c
  have hb0 : Outside [(0x3008, 0x3008), (0x3044, 0x3044), (0x3050, 0x3050), (0x3100, 0x317F)] k_ := hm _ (by decide)
  have hb1 : Outside [(0x3008, 0x3008), (0x3044, 0x3044), (0x3054, 0x3054)] k_ := hm _ (by decide)
  unfold Atu.fire
  (repeat' split) <;> simp [hb0, hb1]
@[simp] theorem Atu.retire_rget (a : Atu) (n : Fin 16) (r : Retire) (k_ : Nat) (h : Outside [(0x3008, 0x3008), (0x3044, 0x3044), (0x3050, 0x3054), (0x3100, 0x317F)] k_) : rget (Atu.retire a n r).regs k_ = rget a.regs k_ := by
  have hm := fun (m : List (Nat × Nat)) (c : coversR [(0x3008, 0x3008), (0x3044, 0x3044), (0x3050, 0x3054), (0x3100, 0x317F)] m = true) => Outside.mono h c
  have hb0 : Outside [(0x3008, 0x3008), (0x3044, 0x3044)] k_ := hm _ (by decide)
  have hb1 : Outside [(0x3008, 0x3008), (0x3044, 0x3044), (0x3050, 0x3054), (0x3100, 0x317F)] k_ := hm _ (by decide)
  have hb2 : Outside [(0x3008, 0x3008), (0x3044, 0x3044), (0x3054, 0x3054)] k_ := hm _ (by decide)
  unfold Atu.retire
  (repeat' split) <;> simp [hb0, hb1, hb2]
@[simp] theorem Atu.mark_rget (a : Atu) (n : Fin 16) (recv : Bool) (xid : BitVec 32) (k_ : Nat) (h : Outside [(0x3008, 0x3008), (0x3044, 0x3044), (0x3054, 0x3054)] k_) : rget (Atu.mark a n recv xid).regs k_ = rget a.regs k_ := by
  have hm := fun (m : List (Nat × Nat)) (c : coversR [(0x3008, 0x3008), (0x3044, 0x3044), (0x3054, 0x3054)] m = true) => Outside.mono h c
  have hb0 : Outside [(0x3008, 0x3008), (0x3044, 0x3044)] k_ := hm _ (by decide)
  have hb1 : Outside [(0x3008, 0x3008), (0x3044, 0x3044), (0x3054, 0x3054)] k_ := hm _ (by decide)
  unfold Atu.mark
  (repeat' split) <;> simp [hb0, hb1]
@[simp] theorem Atu.srcStatus_rget (a : Atu) (n : Fin 16) (k_ : Nat) (h : Outside [(0x3100, 0x317F)] k_) : rget (Atu.srcStatus a n).regs k_ = rget a.regs k_ := by
  have hm := fun (m : List (Nat × Nat)) (c : coversR [(0x3100, 0x317F)] m = true) => Outside.mono h c
  have hb0 : Outside [(0x3100, 0x317F)] k_ := hm _ (by decide)
  have hq0 : ∀ o, 12544 ≤ o → o ≤ 12671 → Outside [(o, o)] k_ := fun o c d => outside_range (hm [(0x3100, 0x317F)] (by decide)) c d
  unfold Atu.srcStatus
  (try dsimp only)
  (repeat' split) <;> (first | (simp (disch := first | assumption | (refine hq0 _ ?_ ?_ <;> omega) | (intros; simp (disch := first | assumption | (refine hq0 _ ?_ ?_ <;> omega)) [hb0, Nat.add_assoc])) [hb0, Nat.add_assoc]; done) | (simp (disch := first | assumption | (refine hq0 _ ?_ ?_ <;> omega) | (intros; simp (disch := first | assumption | (refine hq0 _ ?_ ?_ <;> omega)) [hb0, Nat.add_assoc])) [hb0, Nat.add_assoc]; split <;> simp))
@[simp] theorem Atu.srcContext_rget (a : Atu) (n : Fin 16) (k_ : Nat) (h : Outside [(0x3008, 0x3008), (0x3044, 0x3044), (0x3054, 0x3054), (0x3100, 0x317F)] k_) : rget (Atu.srcContext a n).regs k_ = rget a.regs k_ := by
  have hm := fun (m : List (Nat × Nat)) (c : coversR [(0x3008, 0x3008), (0x3044, 0x3044), (0x3054, 0x3054), (0x3100, 0x317F)] m = true) => Outside.mono h c
  have hb0 : Outside [(0x3008, 0x3008), (0x3044, 0x3044)] k_ := hm _ (by decide)
  have hb1 : Outside [(0x3008, 0x3008), (0x3044, 0x3044), (0x3054, 0x3054)] k_ := hm _ (by decide)
  have hb2 : Outside [(0x3100, 0x317F)] k_ := hm _ (by decide)
  unfold Atu.srcContext
  (try dsimp only)
  (repeat' split) <;> simp [hb0, hb1, hb2]
@[simp] theorem Atu.contextChange_rget (a : Atu) (n : Fin 16) (priv : BitVec 2) (secure : Bool) (pc : BitVec 64) (k_ : Nat) (h : Outside [(0x3008, 0x3008), (0x3044, 0x3044), (0x3054, 0x3054), (0x3100, 0x317F)] k_) : rget (Atu.contextChange a n priv secure pc).regs k_ = rget a.regs k_ := by
  have hm := fun (m : List (Nat × Nat)) (c : coversR [(0x3008, 0x3008), (0x3044, 0x3044), (0x3054, 0x3054), (0x3100, 0x317F)] m = true) => Outside.mono h c
  have hb0 : Outside [(0x3008, 0x3008), (0x3044, 0x3044), (0x3054, 0x3054), (0x3100, 0x317F)] k_ := hm _ (by decide)
  have hb1 : Outside [(0x3008, 0x3008), (0x3044, 0x3044)] k_ := hm _ (by decide)
  have hb2 : Outside [(0x3008, 0x3008), (0x3044, 0x3044), (0x3054, 0x3054)] k_ := hm _ (by decide)
  unfold Atu.contextChange
  (repeat' split) <;> simp [hb0, hb1, hb2]
@[simp] theorem Atu.corePowerDown_rget (a : Atu) (n : Fin 16) (k_ : Nat) (h : Outside [(0x3008, 0x3008), (0x3044, 0x3044), (0x3054, 0x3054), (0x3100, 0x317F)] k_) : rget (Atu.corePowerDown a n).regs k_ = rget a.regs k_ := by
  have hm := fun (m : List (Nat × Nat)) (c : coversR [(0x3008, 0x3008), (0x3044, 0x3044), (0x3054, 0x3054), (0x3100, 0x317F)] m = true) => Outside.mono h c
  have hb0 : Outside [(0x3008, 0x3008), (0x3044, 0x3044)] k_ := hm _ (by decide)
  have hb1 : Outside [(0x3100, 0x317F)] k_ := hm _ (by decide)
  have hb2 : Outside [(0x3008, 0x3008), (0x3044, 0x3044), (0x3054, 0x3054)] k_ := hm _ (by decide)
  unfold Atu.corePowerDown
  (repeat' split) <;> simp [hb0, hb1, hb2]
@[simp] theorem Atu.corePowerUp_rget (a : Atu) (n : Fin 16) (priv : BitVec 2) (secure : Bool) (pc : BitVec 64) (k_ : Nat) (h : Outside [(0x3008, 0x3008), (0x3044, 0x3044), (0x3054, 0x3054), (0x3100, 0x317F)] k_) : rget (Atu.corePowerUp a n priv secure pc).regs k_ = rget a.regs k_ := by
  have hm := fun (m : List (Nat × Nat)) (c : coversR [(0x3008, 0x3008), (0x3044, 0x3044), (0x3054, 0x3054), (0x3100, 0x317F)] m = true) => Outside.mono h c
  have hb0 : Outside [(0x3008, 0x3008), (0x3044, 0x3044)] k_ := hm _ (by decide)
  have hb1 : Outside [(0x3100, 0x317F)] k_ := hm _ (by decide)
  have hb2 : Outside [(0x3008, 0x3008), (0x3044, 0x3044), (0x3054, 0x3054)] k_ := hm _ (by decide)
  unfold Atu.corePowerUp
  (try dsimp only)
  (repeat' split) <;> simp [hb0, hb1, hb2]
@[simp] theorem Atu.srcOverflow_rget (a : Atu) (n : Fin 16) (k_ : Nat) (h : Outside [(0x3008, 0x3008), (0x3040, 0x3044), (0x3054, 0x3054), (0x3100, 0x317F)] k_) : rget (Atu.srcOverflow a n).regs k_ = rget a.regs k_ := by
  have hm := fun (m : List (Nat × Nat)) (c : coversR [(0x3008, 0x3008), (0x3040, 0x3044), (0x3054, 0x3054), (0x3100, 0x317F)] m = true) => Outside.mono h c
  have hb0 : Outside [(0x3008, 0x3008)] k_ := hm _ (by decide)
  have hb1 : Outside [(0x3008, 0x3008), (0x3044, 0x3044)] k_ := hm _ (by decide)
  have hb2 : Outside [(0x3040, 0x3040)] k_ := hm _ (by decide)
  have hb3 : Outside [(0x3100, 0x317F)] k_ := hm _ (by decide)
  have hb4 : Outside [(0x3008, 0x3008), (0x3044, 0x3044), (0x3054, 0x3054)] k_ := hm _ (by decide)
  have hq0 : ∀ o, 12544 ≤ o → o ≤ 12671 → Outside [(o, o)] k_ := fun o c d => outside_range (hm [(0x3100, 0x317F)] (by decide)) c d
  unfold Atu.srcOverflow
  (try dsimp only)
  (repeat' split) <;> (first | (simp (disch := first | assumption | (refine hq0 _ ?_ ?_ <;> omega) | (intros; simp (disch := first | assumption | (refine hq0 _ ?_ ?_ <;> omega)) [hb0, hb1, hb2, hb3, hb4, Nat.add_assoc])) [hb0, hb1, hb2, hb3, hb4, Nat.add_assoc]; done) | (simp (disch := first | assumption | (refine hq0 _ ?_ ?_ <;> omega) | (intros; simp (disch := first | assumption | (refine hq0 _ ?_ ?_ <;> omega)) [hb0, hb1, hb2, hb3, hb4, Nat.add_assoc])) [hb0, hb1, hb2, hb3, hb4, Nat.add_assoc]; split <;> simp))
@[simp] theorem Atu.logOverflow_rget (a : Atu) (k_ : Nat) (h : Outside [(0x3008, 0x3008), (0x3040, 0x3044), (0x3054, 0x3054)] k_) : rget (Atu.logOverflow a).regs k_ = rget a.regs k_ := by
  have hm := fun (m : List (Nat × Nat)) (c : coversR [(0x3008, 0x3008), (0x3040, 0x3044), (0x3054, 0x3054)] m = true) => Outside.mono h c
  have hb0 : Outside [(0x3008, 0x3008)] k_ := hm _ (by decide)
  have hb1 : Outside [(0x3008, 0x3008), (0x3044, 0x3044)] k_ := hm _ (by decide)
  have hb2 : Outside [(0x3040, 0x3040)] k_ := hm _ (by decide)
  have hb3 : Outside [(0x3008, 0x3008), (0x3044, 0x3044), (0x3054, 0x3054)] k_ := hm _ (by decide)
  unfold Atu.logOverflow
  (repeat' split) <;> simp [hb0, hb1, hb2, hb3]
@[simp] theorem Atu.srcChunkClose_rget (a : Atu) (n : Fin 16) (k_ : Nat) (h : Outside [(0x3008, 0x3008), (0x3044, 0x3044), (0x3054, 0x3054)] k_) : rget (Atu.srcChunkClose a n).regs k_ = rget a.regs k_ := by
  have hm := fun (m : List (Nat × Nat)) (c : coversR [(0x3008, 0x3008), (0x3044, 0x3044), (0x3054, 0x3054)] m = true) => Outside.mono h c
  have hb0 : Outside [(0x3008, 0x3008), (0x3044, 0x3044)] k_ := hm _ (by decide)
  have hb1 : Outside [(0x3008, 0x3008), (0x3044, 0x3044), (0x3054, 0x3054)] k_ := hm _ (by decide)
  unfold Atu.srcChunkClose
  (try dsimp only)
  (repeat' split) <;> simp [hb0, hb1]
@[simp] theorem Atu.logChunkClose_rget (a : Atu) (k_ : Nat) (h : Outside [(0x3008, 0x3008), (0x3044, 0x3044), (0x3054, 0x3054)] k_) : rget (Atu.logChunkClose a).regs k_ = rget a.regs k_ := by
  have hm := fun (m : List (Nat × Nat)) (c : coversR [(0x3008, 0x3008), (0x3044, 0x3044), (0x3054, 0x3054)] m = true) => Outside.mono h c
  have hb0 : Outside [(0x3008, 0x3008), (0x3044, 0x3044)] k_ := hm _ (by decide)
  have hb1 : Outside [(0x3008, 0x3008), (0x3044, 0x3044), (0x3054, 0x3054)] k_ := hm _ (by decide)
  unfold Atu.logChunkClose
  (repeat' split) <;> simp [hb0, hb1]
@[simp] theorem Atu.stopDelayEnd_rget (a : Atu) (k_ : Nat) (h : Outside [(0x3008, 0x3008), (0x3044, 0x3044), (0x3054, 0x3054)] k_) : rget (Atu.stopDelayEnd a).regs k_ = rget a.regs k_ := by
  have hm := fun (m : List (Nat × Nat)) (c : coversR [(0x3008, 0x3008), (0x3044, 0x3044), (0x3054, 0x3054)] m = true) => Outside.mono h c
  have hb0 : Outside [(0x3008, 0x3008), (0x3044, 0x3044), (0x3054, 0x3054)] k_ := hm _ (by decide)
  unfold Atu.stopDelayEnd
  (repeat' split) <;> simp [hb0]
@[simp] theorem Atu.bufDmaError_rget (a : Atu) (k_ : Nat) (h : Outside [(0x800, 0x81F), (0x3000, 0x3000), (0x3008, 0x3008), (0x3048, 0x3048)] k_) : rget (Atu.bufDmaError a).regs k_ = rget a.regs k_ := by
  have hm := fun (m : List (Nat × Nat)) (c : coversR [(0x800, 0x81F), (0x3000, 0x3000), (0x3008, 0x3008), (0x3048, 0x3048)] m = true) => Outside.mono h c
  have hb0 : Outside [(0x800, 0x81F)] k_ := hm _ (by decide)
  have hb1 : Outside [(0x3000, 0x3000)] k_ := hm _ (by decide)
  have hb2 : Outside [(0x3008, 0x3008)] k_ := hm _ (by decide)
  have hb3 : Outside [(0x3048, 0x3048)] k_ := hm _ (by decide)
  unfold Atu.bufDmaError
  (repeat' split) <;> simp [hb0, hb1, hb2, hb3]
@[simp] theorem Atu.streamOverflow_rget (a : Atu) (t : Fin 17) (k_ : Nat) (h : Outside [(0x3008, 0x3008), (0x3040, 0x3044), (0x3054, 0x3054), (0x3100, 0x317F)] k_) : rget (Atu.streamOverflow a t).regs k_ = rget a.regs k_ := by
  have hm := fun (m : List (Nat × Nat)) (c : coversR [(0x3008, 0x3008), (0x3040, 0x3044), (0x3054, 0x3054), (0x3100, 0x317F)] m = true) => Outside.mono h c
  have hb0 : Outside [(0x3008, 0x3008), (0x3040, 0x3044)] k_ := hm _ (by decide)
  have hb1 : Outside [(0x3008, 0x3008), (0x3040, 0x3044), (0x3100, 0x317F)] k_ := hm _ (by decide)
  have hb2 : Outside [(0x3008, 0x3008), (0x3040, 0x3044), (0x3054, 0x3054)] k_ := hm _ (by decide)
  have hb3 : Outside [(0x3008, 0x3008), (0x3040, 0x3044), (0x3054, 0x3054), (0x3100, 0x317F)] k_ := hm _ (by decide)
  unfold Atu.streamOverflow
  (repeat' split) <;> simp [hb0, hb1, hb2, hb3]
@[simp] theorem Atu.streamChunkClose_rget (a : Atu) (t : Fin 17) (k_ : Nat) (h : Outside [(0x3008, 0x3008), (0x3044, 0x3044), (0x3054, 0x3054)] k_) : rget (Atu.streamChunkClose a t).regs k_ = rget a.regs k_ := by
  have hm := fun (m : List (Nat × Nat)) (c : coversR [(0x3008, 0x3008), (0x3044, 0x3044), (0x3054, 0x3054)] m = true) => Outside.mono h c
  have hb0 : Outside [(0x3008, 0x3008), (0x3044, 0x3044), (0x3054, 0x3054)] k_ := hm _ (by decide)
  unfold Atu.streamChunkClose
  (repeat' split) <;> simp [hb0]
@[simp] theorem Atu.trigInEdge_rget (a : Atu) (lines : BitVec 4) (k_ : Nat) (h : Outside [(0x3008, 0x3008), (0x3044, 0x3044), (0x3050, 0x3054), (0x3100, 0x317F)] k_) : rget (Atu.trigInEdge a lines).regs k_ = rget a.regs k_ := by
  have hm := fun (m : List (Nat × Nat)) (c : coversR [(0x3008, 0x3008), (0x3044, 0x3044), (0x3050, 0x3054), (0x3100, 0x317F)] m = true) => Outside.mono h c
  have hb0 : Outside [(0x3008, 0x3008), (0x3044, 0x3044), (0x3050, 0x3054), (0x3100, 0x317F)] k_ := hm _ (by decide)
  unfold Atu.trigInEdge
  (repeat' split) <;> simp [hb0]
@[simp] theorem Atu.startTrace_rget (a : Atu) (e : BitVec 6) (k_ : Nat) (h : Outside [(0x3008, 0x3008), (0x3044, 0x3044), (0x3050, 0x3054), (0x3100, 0x317F)] k_) : rget (Atu.startTrace a e).regs k_ = rget a.regs k_ := by
  have hm := fun (m : List (Nat × Nat)) (c : coversR [(0x3008, 0x3008), (0x3044, 0x3044), (0x3050, 0x3054), (0x3100, 0x317F)] m = true) => Outside.mono h c
  have hb0 : Outside [(0x3008, 0x3008), (0x3044, 0x3044), (0x3050, 0x3054), (0x3100, 0x317F)] k_ := hm _ (by decide)
  unfold Atu.startTrace
  (repeat' split) <;> simp [hb0]
@[simp] theorem Atu.stopTrace_rget (a : Atu) (e : BitVec 6) (k_ : Nat) (h : Outside [(0x3008, 0x3008), (0x3044, 0x3044), (0x3050, 0x3054), (0x3100, 0x317F)] k_) : rget (Atu.stopTrace a e).regs k_ = rget a.regs k_ := by
  have hm := fun (m : List (Nat × Nat)) (c : coversR [(0x3008, 0x3008), (0x3044, 0x3044), (0x3050, 0x3054), (0x3100, 0x317F)] m = true) => Outside.mono h c
  have hb0 : Outside [(0x3008, 0x3008), (0x3044, 0x3044), (0x3050, 0x3054), (0x3100, 0x317F)] k_ := hm _ (by decide)
  unfold Atu.stopTrace
  (repeat' split) <;> simp [hb0]
@[simp] theorem Atu.recheckContexts_rget (a : Atu) (k_ : Nat) (h : Outside [(0x3008, 0x3008), (0x3044, 0x3044), (0x3054, 0x3054), (0x3100, 0x317F)] k_) : rget (Atu.recheckContexts a).regs k_ = rget a.regs k_ := by
  have hm := fun (m : List (Nat × Nat)) (c : coversR [(0x3008, 0x3008), (0x3044, 0x3044), (0x3054, 0x3054), (0x3100, 0x317F)] m = true) => Outside.mono h c
  have hb0 : Outside [(0x3008, 0x3008), (0x3044, 0x3044), (0x3054, 0x3054), (0x3100, 0x317F)] k_ := hm _ (by decide)
  unfold Atu.recheckContexts
  (repeat' split) <;> simp [hb0]
@[simp] theorem Atu.authToken_rget (a : Atu) (s : SideRegs) (hi : Word) (k_ : Nat) (h : Outside [(0x3008, 0x3008), (0x3044, 0x3044), (0x304C, 0x304C), (0x3054, 0x3054), (0x3100, 0x317F)] k_) : rget (Atu.authToken a s hi).2.regs k_ = rget a.regs k_ := by
  have hm := fun (m : List (Nat × Nat)) (c : coversR [(0x3008, 0x3008), (0x3044, 0x3044), (0x304C, 0x304C), (0x3054, 0x3054), (0x3100, 0x317F)] m = true) => Outside.mono h c
  have hb0 : Outside [(0x3008, 0x3008)] k_ := hm _ (by decide)
  have hb1 : Outside [(0x3008, 0x3008), (0x3044, 0x3044), (0x3054, 0x3054), (0x3100, 0x317F)] k_ := hm _ (by decide)
  have hb2 : Outside [(0x304C, 0x304C)] k_ := hm _ (by decide)
  unfold Atu.authToken
  (try dsimp only)
  (repeat' split) <;> simp [hb0, hb1, hb2]
@[simp] theorem Atu.authExpire_rget (a : Atu) (k_ : Nat) (h : Outside [(0x3008, 0x3008), (0x3044, 0x3044), (0x3054, 0x3058), (0x3100, 0x317F)] k_) : rget (Atu.authExpire a).regs k_ = rget a.regs k_ := by
  have hm := fun (m : List (Nat × Nat)) (c : coversR [(0x3008, 0x3008), (0x3044, 0x3044), (0x3054, 0x3058), (0x3100, 0x317F)] m = true) => Outside.mono h c
  have hb0 : Outside [(0x3008, 0x3008)] k_ := hm _ (by decide)
  have hb1 : Outside [(0x3008, 0x3008), (0x3044, 0x3044), (0x3054, 0x3054), (0x3100, 0x317F)] k_ := hm _ (by decide)
  have hb2 : Outside [(0x3058, 0x3058)] k_ := hm _ (by decide)
  unfold Atu.authExpire
  (repeat' split) <;> simp [hb0, hb1, hb2]
@[simp] theorem Atu.logPut_rget (a : Atu) (marks : Nat) (pkt : List Byte) (k_ : Nat) (h : Outside [(0x3008, 0x3008), (0x3044, 0x3044), (0x3054, 0x3054)] k_) : rget (Atu.logPut a marks pkt).regs k_ = rget a.regs k_ := by
  have hm := fun (m : List (Nat × Nat)) (c : coversR [(0x3008, 0x3008), (0x3044, 0x3044), (0x3054, 0x3054)] m = true) => Outside.mono h c
  have hb0 : Outside [(0x3008, 0x3008), (0x3044, 0x3044)] k_ := hm _ (by decide)
  have hb1 : Outside [(0x3008, 0x3008), (0x3044, 0x3044), (0x3054, 0x3054)] k_ := hm _ (by decide)
  unfold Atu.logPut
  (repeat' split) <;> simp [hb0, hb1]
@[simp] theorem Atu.logMatch_rget (a : Atu) (k : Nat) (b : LogByte) (k_ : Nat) (h : Outside [(0x3008, 0x3008), (0x3044, 0x3044), (0x3054, 0x3054), (0x3810, 0x3810), (0x3840, 0x3840), (0x4000, 0x4FFF)] k_) : rget (Atu.logMatch a k b).regs k_ = rget a.regs k_ := by
  have hm := fun (m : List (Nat × Nat)) (c : coversR [(0x3008, 0x3008), (0x3044, 0x3044), (0x3054, 0x3054), (0x3810, 0x3810), (0x3840, 0x3840), (0x4000, 0x4FFF)] m = true) => Outside.mono h c
  have hb0 : Outside [(0x3008, 0x3008), (0x3044, 0x3044), (0x3054, 0x3054)] k_ := hm _ (by decide)
  have hb1 : Outside [(0x3810, 0x3810)] k_ := hm _ (by decide)
  have hb2 : Outside [(0x3840, 0x3840)] k_ := hm _ (by decide)
  have hb3 : Outside [(0x4000, 0x4FFF)] k_ := hm _ (by decide)
  unfold Atu.logMatch
  (repeat' split) <;> simp [hb0, hb1, hb2, hb3]
@[simp] theorem Atu.logFeed_rget (a : Atu) (b : LogByte) (k_ : Nat) (h : Outside [(0x3008, 0x3008), (0x3044, 0x3044), (0x3050, 0x3054), (0x3100, 0x317F), (0x3810, 0x3810), (0x3840, 0x3840), (0x4000, 0x4FFF)] k_) : rget (Atu.logFeed a b).regs k_ = rget a.regs k_ := by
  have hm := fun (m : List (Nat × Nat)) (c : coversR [(0x3008, 0x3008), (0x3044, 0x3044), (0x3050, 0x3054), (0x3100, 0x317F), (0x3810, 0x3810), (0x3840, 0x3840), (0x4000, 0x4FFF)] m = true) => Outside.mono h c
  have hb0 : Outside [(0x3008, 0x3008), (0x3044, 0x3044), (0x3050, 0x3054), (0x3100, 0x317F)] k_ := hm _ (by decide)
  have hb1 : Outside [(0x3008, 0x3008), (0x3044, 0x3044), (0x3054, 0x3054), (0x3810, 0x3810), (0x3840, 0x3840), (0x4000, 0x4FFF)] k_ := hm _ (by decide)
  unfold Atu.logFeed
  (repeat' split) <;> simp [hb0, hb1]
@[simp] theorem Atu.logInvalid_rget (a : Atu) (bs : List LogByte) (k_ : Nat) (h : Outside [(0x3008, 0x3008), (0x3044, 0x3044), (0x3054, 0x3054), (0x3810, 0x3810), (0x3844, 0x3844)] k_) : rget (Atu.logInvalid a bs).regs k_ = rget a.regs k_ := by
  have hm := fun (m : List (Nat × Nat)) (c : coversR [(0x3008, 0x3008), (0x3044, 0x3044), (0x3054, 0x3054), (0x3810, 0x3810), (0x3844, 0x3844)] m = true) => Outside.mono h c
  have hb0 : Outside [(0x3008, 0x3008), (0x3044, 0x3044), (0x3054, 0x3054)] k_ := hm _ (by decide)
  have hb1 : Outside [(0x3810, 0x3810)] k_ := hm _ (by decide)
  have hb2 : Outside [(0x3844, 0x3844)] k_ := hm _ (by decide)
  unfold Atu.logInvalid
  (repeat' split) <;> simp [hb0, hb1, hb2]
@[simp] theorem Atu.logLead_rget (a : Atu) (b : LogByte) (k_ : Nat) (h : Outside [(0x3008, 0x3008), (0x3044, 0x3044), (0x3050, 0x3054), (0x3100, 0x317F), (0x3810, 0x3810), (0x3840, 0x3844), (0x4000, 0x4FFF)] k_) : rget (Atu.logLead a b).regs k_ = rget a.regs k_ := by
  have hm := fun (m : List (Nat × Nat)) (c : coversR [(0x3008, 0x3008), (0x3044, 0x3044), (0x3050, 0x3054), (0x3100, 0x317F), (0x3810, 0x3810), (0x3840, 0x3844), (0x4000, 0x4FFF)] m = true) => Outside.mono h c
  have hb0 : Outside [(0x3008, 0x3008), (0x3044, 0x3044), (0x3050, 0x3054), (0x3100, 0x317F), (0x3810, 0x3810), (0x3840, 0x3840), (0x4000, 0x4FFF)] k_ := hm _ (by decide)
  have hb1 : Outside [(0x3008, 0x3008), (0x3044, 0x3044), (0x3054, 0x3054), (0x3810, 0x3810), (0x3844, 0x3844)] k_ := hm _ (by decide)
  unfold Atu.logLead
  (repeat' split) <;> simp [hb0, hb1]
@[simp] theorem Atu.logUtf8_rget (a : Atu) (b : LogByte) (k_ : Nat) (h : Outside [(0x3008, 0x3008), (0x3044, 0x3044), (0x3050, 0x3054), (0x3100, 0x317F), (0x3810, 0x3810), (0x3840, 0x3844), (0x4000, 0x4FFF)] k_) : rget (Atu.logUtf8 a b).regs k_ = rget a.regs k_ := by
  have hm := fun (m : List (Nat × Nat)) (c : coversR [(0x3008, 0x3008), (0x3044, 0x3044), (0x3050, 0x3054), (0x3100, 0x317F), (0x3810, 0x3810), (0x3840, 0x3844), (0x4000, 0x4FFF)] m = true) => Outside.mono h c
  have hb0 : Outside [(0x3008, 0x3008), (0x3044, 0x3044), (0x3050, 0x3054), (0x3100, 0x317F), (0x3810, 0x3810), (0x3840, 0x3840), (0x4000, 0x4FFF)] k_ := hm _ (by decide)
  have hb1 : Outside [(0x3008, 0x3008), (0x3044, 0x3044), (0x3050, 0x3054), (0x3100, 0x317F), (0x3810, 0x3810), (0x3840, 0x3844), (0x4000, 0x4FFF)] k_ := hm _ (by decide)
  have hb2 : Outside [(0x3008, 0x3008), (0x3044, 0x3044), (0x3054, 0x3054), (0x3810, 0x3810), (0x3844, 0x3844)] k_ := hm _ (by decide)
  unfold Atu.logUtf8
  (repeat' split) <;> simp [hb0, hb1, hb2]
@[simp] theorem Atu.logUnheld_rget (a : Atu) (k_ : Nat) (h : Outside [(0x3008, 0x3008), (0x3044, 0x3044), (0x3050, 0x3054), (0x3100, 0x317F), (0x3810, 0x3810), (0x3840, 0x3840), (0x4000, 0x4FFF)] k_) : rget (Atu.logUnheld a).regs k_ = rget a.regs k_ := by
  have hm := fun (m : List (Nat × Nat)) (c : coversR [(0x3008, 0x3008), (0x3044, 0x3044), (0x3050, 0x3054), (0x3100, 0x317F), (0x3810, 0x3810), (0x3840, 0x3840), (0x4000, 0x4FFF)] m = true) => Outside.mono h c
  have hb0 : Outside [(0x3008, 0x3008), (0x3044, 0x3044), (0x3050, 0x3054), (0x3100, 0x317F), (0x3810, 0x3810), (0x3840, 0x3840), (0x4000, 0x4FFF)] k_ := hm _ (by decide)
  unfold Atu.logUnheld
  (try dsimp only) <;> (repeat' split) <;> simp [hb0]
@[simp] theorem Atu.logEnd_rget (a : Atu) (k_ : Nat) (h : Outside [(0x3008, 0x3008), (0x3044, 0x3044), (0x3050, 0x3054), (0x3100, 0x317F), (0x3810, 0x3810), (0x3840, 0x3844), (0x4000, 0x4FFF)] k_) : rget (Atu.logEnd a).regs k_ = rget a.regs k_ := by
  have hm := fun (m : List (Nat × Nat)) (c : coversR [(0x3008, 0x3008), (0x3044, 0x3044), (0x3050, 0x3054), (0x3100, 0x317F), (0x3810, 0x3810), (0x3840, 0x3844), (0x4000, 0x4FFF)] m = true) => Outside.mono h c
  have hb0 : Outside [(0x3008, 0x3008), (0x3044, 0x3044), (0x3054, 0x3054), (0x3810, 0x3810), (0x3844, 0x3844)] k_ := hm _ (by decide)
  have hb1 : Outside [(0x3008, 0x3008), (0x3044, 0x3044), (0x3050, 0x3054), (0x3100, 0x317F), (0x3810, 0x3810), (0x3840, 0x3840), (0x4000, 0x4FFF)] k_ := hm _ (by decide)
  unfold Atu.logEnd
  (repeat' split) <;> simp [hb0, hb1]
@[simp] theorem Atu.logBufDone_rget (a : Atu) (b : LogBuf) (k_ : Nat) (h : Outside [(0x3008, 0x3008), (0x3044, 0x3044), (0x3050, 0x3054), (0x3100, 0x317F), (0x3810, 0x3814), (0x3840, 0x3844), (0x4000, 0x4FFF)] k_) : rget (Atu.logBufDone a b).regs k_ = rget a.regs k_ := by
  have hm := fun (m : List (Nat × Nat)) (c : coversR [(0x3008, 0x3008), (0x3044, 0x3044), (0x3050, 0x3054), (0x3100, 0x317F), (0x3810, 0x3814), (0x3840, 0x3844), (0x4000, 0x4FFF)] m = true) => Outside.mono h c
  have hb0 : Outside [(0x3008, 0x3008), (0x3044, 0x3044), (0x3054, 0x3054), (0x3810, 0x3810), (0x3844, 0x3844)] k_ := hm _ (by decide)
  have hb1 : Outside [(0x3814, 0x3814)] k_ := hm _ (by decide)
  have hb2 : Outside [(0x3008, 0x3008), (0x3044, 0x3044), (0x3050, 0x3054), (0x3100, 0x317F), (0x3810, 0x3810), (0x3840, 0x3844), (0x4000, 0x4FFF)] k_ := hm _ (by decide)
  unfold Atu.logBufDone
  (repeat' split) <;> simp [hb0, hb1, hb2]
@[simp] theorem Atu.logConsume_rget (a : Atu) (k_ : Nat) (h : Outside [(0x3008, 0x3008), (0x3044, 0x3044), (0x3050, 0x3054), (0x3100, 0x317F), (0x3810, 0x3814), (0x3840, 0x3844), (0x4000, 0x4FFF)] k_) : rget (Atu.logConsume a).regs k_ = rget a.regs k_ := by
  have hm := fun (m : List (Nat × Nat)) (c : coversR [(0x3008, 0x3008), (0x3044, 0x3044), (0x3050, 0x3054), (0x3100, 0x317F), (0x3810, 0x3814), (0x3840, 0x3844), (0x4000, 0x4FFF)] m = true) => Outside.mono h c
  have hb0 : Outside [(0x3008, 0x3008), (0x3044, 0x3044), (0x3050, 0x3054), (0x3100, 0x317F), (0x3810, 0x3810), (0x3840, 0x3840), (0x4000, 0x4FFF)] k_ := hm _ (by decide)
  have hb1 : Outside [(0x3008, 0x3008), (0x3044, 0x3044), (0x3050, 0x3054), (0x3100, 0x317F), (0x3810, 0x3810), (0x3840, 0x3844), (0x4000, 0x4FFF)] k_ := hm _ (by decide)
  have hb2 : Outside [(0x3008, 0x3008), (0x3044, 0x3044), (0x3054, 0x3054), (0x3810, 0x3814), (0x3844, 0x3844)] k_ := hm _ (by decide)
  have hb3 : Outside [(0x3008, 0x3008), (0x3044, 0x3044), (0x3050, 0x3054), (0x3100, 0x317F), (0x3810, 0x3814), (0x3840, 0x3844), (0x4000, 0x4FFF)] k_ := hm _ (by decide)
  unfold Atu.logConsume
  (repeat' split) <;> simp [hb0, hb1, hb2, hb3]
@[simp] theorem Atu.logDmaError_rget (a : Atu) (k_ : Nat) (h : Outside [(0x3008, 0x3008), (0x3044, 0x3044), (0x3050, 0x3054), (0x3100, 0x317F), (0x3810, 0x3814), (0x3840, 0x3848), (0x4000, 0x4FFF)] k_) : rget (Atu.logDmaError a).regs k_ = rget a.regs k_ := by
  have hm := fun (m : List (Nat × Nat)) (c : coversR [(0x3008, 0x3008), (0x3044, 0x3044), (0x3050, 0x3054), (0x3100, 0x317F), (0x3810, 0x3814), (0x3840, 0x3848), (0x4000, 0x4FFF)] m = true) => Outside.mono h c
  have hb0 : Outside [(0x3008, 0x3008), (0x3044, 0x3044), (0x3054, 0x3054), (0x3810, 0x3814), (0x3844, 0x3844)] k_ := hm _ (by decide)
  have hb1 : Outside [(0x3810, 0x3810)] k_ := hm _ (by decide)
  have hb2 : Outside [(0x3848, 0x3848)] k_ := hm _ (by decide)
  have hb3 : Outside [(0x3008, 0x3008), (0x3044, 0x3044), (0x3050, 0x3054), (0x3100, 0x317F), (0x3810, 0x3814), (0x3840, 0x3844), (0x4000, 0x4FFF)] k_ := hm _ (by decide)
  unfold Atu.logDmaError
  (repeat' split) <;> simp [hb0, hb1, hb2, hb3]
@[simp] theorem Atu.logRestart_rget (a : Atu) (k_ : Nat) (h : Outside [(0x3814, 0x3814)] k_) : rget (Atu.logRestart a).regs k_ = rget a.regs k_ := by
  have hm := fun (m : List (Nat × Nat)) (c : coversR [(0x3814, 0x3814)] m = true) => Outside.mono h c
  have hb0 : Outside [(0x3814, 0x3814)] k_ := hm _ (by decide)
  unfold Atu.logRestart
  (repeat' split) <;> simp [hb0]
@[simp] theorem Atu.applyPlanned_rget (a : Atu) (k_ : Nat) (h : Outside [(0x400, 0x400), (0x448, 0x448)] k_) : rget (Atu.applyPlanned a).regs k_ = rget a.regs k_ := by
  have hm := fun (m : List (Nat × Nat)) (c : coversR [(0x400, 0x400), (0x448, 0x448)] m = true) => Outside.mono h c
  have hb0 : Outside [(0x400, 0x400)] k_ := hm _ (by decide)
  have hb1 : Outside [(0x448, 0x448)] k_ := hm _ (by decide)
  unfold Atu.applyPlanned
  (repeat' split) <;> simp [hb0, hb1]
@[simp] theorem Atu.periodChanged_rget (a : Atu) (period : Nat) (k_ : Nat) (h : Outside [(0x400, 0x400), (0x448, 0x448)] k_) : rget (Atu.periodChanged a period).regs k_ = rget a.regs k_ := by
  have hm := fun (m : List (Nat × Nat)) (c : coversR [(0x400, 0x400), (0x448, 0x448)] m = true) => Outside.mono h c
  have hb0 : Outside [(0x400, 0x400), (0x448, 0x448)] k_ := hm _ (by decide)
  unfold Atu.periodChanged
  (repeat' split) <;> simp [hb0]
@[simp] theorem Atu.firstSuspend_rget (a : Atu) (k_ : Nat) (h : Outside [(0x400, 0x400), (0x448, 0x448)] k_) : rget (Atu.firstSuspend a).regs k_ = rget a.regs k_ := by
  have hm := fun (m : List (Nat × Nat)) (c : coversR [(0x400, 0x400), (0x448, 0x448)] m = true) => Outside.mono h c
  have hb0 : Outside [(0x400, 0x400)] k_ := hm _ (by decide)
  have hb1 : Outside [(0x448, 0x448)] k_ := hm _ (by decide)
  unfold Atu.firstSuspend
  (repeat' split) <;> simp [hb0, hb1]
@[simp] theorem Atu.commit_rget (a : Atu) (side : Side) (mask : Nat) (actWin : Nat) (k_ : Nat) (h : Outside [(0x30, 0x30), (0x4C, 0x4C), (0x60C, 0x60C)] k_) : rget (Atu.commit a side mask actWin).2.regs k_ = rget a.regs k_ := by
  have hm := fun (m : List (Nat × Nat)) (c : coversR [(0x30, 0x30), (0x4C, 0x4C), (0x60C, 0x60C)] m = true) => Outside.mono h c
  have hb0 : Outside [(0x30, 0x30)] k_ := hm _ (by decide)
  have hb1 : Outside [(0x4C, 0x4C)] k_ := hm _ (by decide)
  have hb2 : Outside [(0x60C, 0x60C)] k_ := hm _ (by decide)
  unfold Atu.commit
  (repeat' split) <;> simp [hb0, hb1, hb2]
@[simp] theorem Atu.commitCancel_rget (a : Atu) (side : Side) (mask : Nat) (k_ : Nat) (h : Outside [(0x60C, 0x60C)] k_) : rget (Atu.commitCancel a side mask).2.regs k_ = rget a.regs k_ := by
  have hm := fun (m : List (Nat × Nat)) (c : coversR [(0x60C, 0x60C)] m = true) => Outside.mono h c
  have hb0 : Outside [(0x60C, 0x60C)] k_ := hm _ (by decide)
  unfold Atu.commitCancel
  (repeat' split) <;> simp [hb0]
@[simp] theorem Atu.commitApply_rget (w : Nat) (a : Atu) (c : Commit) (k_ : Nat) (h : Outside [(0x400, 0x400), (0x44C, 0x44C)] k_) : rget (Atu.commitApply w a c).regs k_ = rget a.regs k_ := by
  have hm := fun (m : List (Nat × Nat)) (c : coversR [(0x400, 0x400), (0x44C, 0x44C)] m = true) => Outside.mono h c
  have hb0 : Outside [(0x400, 0x400)] k_ := hm _ (by decide)
  have hb1 : Outside [(0x44C, 0x44C)] k_ := hm _ (by decide)
  unfold Atu.commitApply
  (repeat' split) <;> simp [hb0, hb1]
@[simp] theorem Atu.applyWhere_rget (a : Atu) (w : Nat) (due : Commit → Bool) (k_ : Nat) (h : Outside [(0x400, 0x400), (0x44C, 0x44C)] k_) : rget (Atu.applyWhere a w due).regs k_ = rget a.regs k_ := by
  have hm := fun (m : List (Nat × Nat)) (c : coversR [(0x400, 0x400), (0x44C, 0x44C)] m = true) => Outside.mono h c
  have hb0 : Outside [(0x400, 0x400), (0x44C, 0x44C)] k_ := hm _ (by decide)
  unfold Atu.applyWhere
  (try dsimp only) <;> (repeat' split) <;> simp [hb0]
@[simp] theorem Atu.applyCommits_rget (a : Atu) (w : Nat) (k_ : Nat) (h : Outside [(0x400, 0x400), (0x44C, 0x44C)] k_) : rget (Atu.applyCommits a w).regs k_ = rget a.regs k_ := by
  have hm := fun (m : List (Nat × Nat)) (c : coversR [(0x400, 0x400), (0x44C, 0x44C)] m = true) => Outside.mono h c
  have hb0 : Outside [(0x400, 0x400), (0x44C, 0x44C)] k_ := hm _ (by decide)
  unfold Atu.applyCommits
  (repeat' split) <;> simp [hb0]
@[simp] theorem Atu.takeChange_rget (a : Atu) (s : Sched) (c : Nat) (p' : Nat) (k_ : Nat) (h : Outside [(0x108, 0x108), (0x150, 0x150), (0x400, 0x400), (0x448, 0x448)] k_) : rget (Atu.takeChange a s c p').regs k_ = rget a.regs k_ := by
  have hm := fun (m : List (Nat × Nat)) (c : coversR [(0x108, 0x108), (0x150, 0x150), (0x400, 0x400), (0x448, 0x448)] m = true) => Outside.mono h c
  have hb0 : Outside [(0x108, 0x108)] k_ := hm _ (by decide)
  have hb1 : Outside [(0x150, 0x150)] k_ := hm _ (by decide)
  have hb2 : Outside [(0x400, 0x400), (0x448, 0x448)] k_ := hm _ (by decide)
  unfold Atu.takeChange
  (repeat' split) <;> simp [hb0, hb1, hb2]
@[simp] theorem Atu.changeAt_rget (a : Atu) (w : Nat) (k_ : Nat) (h : Outside [(0x108, 0x108), (0x150, 0x150), (0x400, 0x400), (0x448, 0x448)] k_) : rget (Atu.changeAt a w).regs k_ = rget a.regs k_ := by
  have hm := fun (m : List (Nat × Nat)) (c : coversR [(0x108, 0x108), (0x150, 0x150), (0x400, 0x400), (0x448, 0x448)] m = true) => Outside.mono h c
  have hb0 : Outside [(0x108, 0x108), (0x150, 0x150), (0x400, 0x400), (0x448, 0x448)] k_ := hm _ (by decide)
  unfold Atu.changeAt
  (try dsimp only) <;> (repeat' split) <;> simp [hb0]
@[simp] theorem Atu.passStroke_rget (a : Atu) (first : Bool) (w : Nat) (k_ : Nat) (h : Outside [(0x108, 0x108), (0x150, 0x150), (0x400, 0x400), (0x448, 0x44C)] k_) : rget (Atu.passStroke a first w).regs k_ = rget a.regs k_ := by
  have hm := fun (m : List (Nat × Nat)) (c : coversR [(0x108, 0x108), (0x150, 0x150), (0x400, 0x400), (0x448, 0x44C)] m = true) => Outside.mono h c
  have hb0 : Outside [(0x108, 0x108), (0x150, 0x150), (0x400, 0x400), (0x448, 0x448)] k_ := hm _ (by decide)
  have hb1 : Outside [(0x400, 0x400), (0x44C, 0x44C)] k_ := hm _ (by decide)
  unfold Atu.passStroke
  (try dsimp only) <;> (repeat' split) <;> simp [hb0, hb1]
@[simp] theorem Atu.skipStrokes_rget (a : Atu) (first : Bool) (lo : Nat) (n : Nat) (k_ : Nat) (h : Outside [(0x108, 0x108), (0x150, 0x150), (0x400, 0x400), (0x448, 0x44C)] k_) : rget (Atu.skipStrokes a first lo n).regs k_ = rget a.regs k_ := by
  have hm := fun (m : List (Nat × Nat)) (c : coversR [(0x108, 0x108), (0x150, 0x150), (0x400, 0x400), (0x448, 0x44C)] m = true) => Outside.mono h c
  have hb0 : Outside [(0x400, 0x400), (0x44C, 0x44C)] k_ := hm _ (by decide)
  have hb1 : Outside [(0x108, 0x108), (0x150, 0x150), (0x400, 0x400), (0x448, 0x44C)] k_ := hm _ (by decide)
  unfold Atu.skipStrokes
  (repeat' split) <;> simp [hb0, hb1]
@[simp] theorem Atu.markStalled_rget (a : Atu) (b : Fin 16) (n : Nat) (k_ : Nat) (h : Outside [(0x400, 0x404), (0x444, 0x444), (0x6004, 0x6004), (0x6024, 0x6024), (0x6048, 0x604C)] k_) : rget (Atu.markStalled a b n).regs k_ = rget a.regs k_ := by
  have hm := fun (m : List (Nat × Nat)) (c : coversR [(0x400, 0x404), (0x444, 0x444), (0x6004, 0x6004), (0x6024, 0x6024), (0x6048, 0x604C)] m = true) => Outside.mono h c
  have hb0 : Outside [(0x6004, 0x6004), (0x6024, 0x6024), (0x6048, 0x604C)] k_ := hm _ (by decide)
  have hb1 : Outside [(0x404, 0x404)] k_ := hm _ (by decide)
  have hb2 : Outside [(0x400, 0x400)] k_ := hm _ (by decide)
  have hb3 : Outside [(0x444, 0x444)] k_ := hm _ (by decide)
  unfold Atu.markStalled
  (try dsimp only) <;> (repeat' split) <;> simp [hb0, hb1, hb2, hb3]
@[simp] theorem Atu.abandon_rget (a : Atu) (k_ : Nat) (h : Outside [(0x400, 0x404), (0x444, 0x444), (0x6004, 0x6004), (0x6024, 0x6024), (0x6048, 0x604C)] k_) : rget (Atu.abandon a).regs k_ = rget a.regs k_ := by
  unfold Atu.abandon
  rw [Atu.rget_foldl]
  intro _ _
  split <;> simp [h]
@[simp] theorem Atu.beginSnap_rget (a : Atu) (n : Nat) (ht : Nat) (untested : Bool) (due : List Nat) (k_ : Nat) (h : Outside [(0x404, 0x404)] k_) : rget (Atu.beginSnap a n ht untested due).regs k_ = rget a.regs k_ := by
  have hm := fun (m : List (Nat × Nat)) (c : coversR [(0x404, 0x404)] m = true) => Outside.mono h c
  have hb0 : Outside [(0x404, 0x404)] k_ := hm _ (by decide)
  unfold Atu.beginSnap
  (try dsimp only) <;> (repeat' split) <;> simp [hb0]
@[simp] theorem Atu.sampleStroke_rget (a : Atu) (n : Nat) (ht : Nat) (last : Option Nat) (untested : Bool) (k_ : Nat) (h : Outside [(0x108, 0x108), (0x150, 0x150), (0x400, 0x404), (0x440, 0x44C), (0x6004, 0x6004), (0x6024, 0x6024), (0x6048, 0x604C)] k_) : rget (Atu.sampleStroke a n ht last untested).regs k_ = rget a.regs k_ := by
  have hm := fun (m : List (Nat × Nat)) (c : coversR [(0x108, 0x108), (0x150, 0x150), (0x400, 0x404), (0x440, 0x44C), (0x6004, 0x6004), (0x6024, 0x6024), (0x6048, 0x604C)] m = true) => Outside.mono h c
  have hb0 : Outside [(0x400, 0x400)] k_ := hm _ (by decide)
  have hb1 : Outside [(0x400, 0x400), (0x448, 0x448)] k_ := hm _ (by decide)
  have hb2 : Outside [(0x400, 0x400), (0x44C, 0x44C)] k_ := hm _ (by decide)
  have hb3 : Outside [(0x404, 0x404)] k_ := hm _ (by decide)
  have hb4 : Outside [(0x440, 0x440)] k_ := hm _ (by decide)
  have hb5 : Outside [(0x6004, 0x6004), (0x6024, 0x6024), (0x6048, 0x604C)] k_ := hm _ (by decide)
  have hb6 : Outside [(0x400, 0x404), (0x444, 0x444), (0x6004, 0x6004), (0x6024, 0x6024), (0x6048, 0x604C)] k_ := hm _ (by decide)
  have hb7 : Outside [(0x108, 0x108), (0x150, 0x150), (0x400, 0x400), (0x448, 0x44C)] k_ := hm _ (by decide)
  unfold Atu.sampleStroke
  (repeat' split) <;> simp [hb0, hb1, hb2, hb3, hb4, hb5, hb6, hb7]
@[simp] theorem Atu.blockStall_rget (a : Atu) (b : Fin 16) (k_ : Nat) (h : Outside [(0x400, 0x404), (0x444, 0x444), (0x6004, 0x6004), (0x6024, 0x6024), (0x6048, 0x604C)] k_) : rget (Atu.blockStall a b).regs k_ = rget a.regs k_ := by
  have hm := fun (m : List (Nat × Nat)) (c : coversR [(0x400, 0x404), (0x444, 0x444), (0x6004, 0x6004), (0x6024, 0x6024), (0x6048, 0x604C)] m = true) => Outside.mono h c
  have hb0 : Outside [(0x400, 0x400)] k_ := hm _ (by decide)
  have hb1 : Outside [(0x404, 0x404)] k_ := hm _ (by decide)
  have hb2 : Outside [(0x444, 0x444)] k_ := hm _ (by decide)
  have hb3 : Outside [(0x6004, 0x6004), (0x6024, 0x6024), (0x6048, 0x604C)] k_ := hm _ (by decide)
  have hb4 : Outside [(0x400, 0x404), (0x444, 0x444), (0x6004, 0x6004), (0x6024, 0x6024), (0x6048, 0x604C)] k_ := hm _ (by decide)
  unfold Atu.blockStall
  (try dsimp only)
  (repeat' split) <;> simp [hb0, hb1, hb2, hb3, hb4]
@[simp] theorem Atu.spill_rget (a : Atu) (f : List Byte) (k_ : Nat) (h : Outside [(0x704, 0x704), (0x740, 0x740)] k_) : rget (Atu.spill a f).regs k_ = rget a.regs k_ := by
  have hm := fun (m : List (Nat × Nat)) (c : coversR [(0x704, 0x704), (0x740, 0x740)] m = true) => Outside.mono h c
  have hb0 : Outside [(0x704, 0x704)] k_ := hm _ (by decide)
  have hb1 : Outside [(0x740, 0x740)] k_ := hm _ (by decide)
  unfold Atu.spill
  (repeat' split) <;> simp [hb0, hb1]
@[simp] theorem Atu.buildFrame_rget (vals : List (List Nat)) (stalled : Bool) (a : Atu) (j : FrameJob) (k_ : Nat) (h : Outside [(0x704, 0x704), (0x740, 0x740)] k_) : rget (Atu.buildFrame vals stalled a j).regs k_ = rget a.regs k_ := by
  have hm := fun (m : List (Nat × Nat)) (c : coversR [(0x704, 0x704), (0x740, 0x740)] m = true) => Outside.mono h c
  have hb0 : Outside [(0x704, 0x704), (0x740, 0x740)] k_ := hm _ (by decide)
  unfold Atu.buildFrame
  (repeat' split) <;> simp [hb0]
@[simp] theorem Atu.snapshotComplete_rget (a : Atu) (k_ : Nat) (h : Outside [(0x704, 0x704), (0x740, 0x740)] k_) : rget (Atu.snapshotComplete a).regs k_ = rget a.regs k_ := by
  have hm := fun (m : List (Nat × Nat)) (c : coversR [(0x704, 0x704), (0x740, 0x740)] m = true) => Outside.mono h c
  have hb0 : Outside [(0x704, 0x704), (0x740, 0x740)] k_ := hm _ (by decide)
  unfold Atu.snapshotComplete
  (repeat' split) <;> simp [hb0]
@[simp] theorem Atu.powerDomains_rget (a : Atu) (pdom : BitVec 16) (k_ : Nat) (h : Outside [(0x18, 0x18), (0x400, 0x400), (0x450, 0x450)] k_) : rget (Atu.powerDomains a pdom).regs k_ = rget a.regs k_ := by
  have hm := fun (m : List (Nat × Nat)) (c : coversR [(0x18, 0x18), (0x400, 0x400), (0x450, 0x450)] m = true) => Outside.mono h c
  have hb0 : Outside [(0x18, 0x18)] k_ := hm _ (by decide)
  have hb1 : Outside [(0x400, 0x400)] k_ := hm _ (by decide)
  have hb2 : Outside [(0x450, 0x450)] k_ := hm _ (by decide)
  unfold Atu.powerDomains
  (repeat' split) <;> simp [hb0, hb1, hb2]
@[simp] theorem Atu.spillDisable_rget (a : Atu) (k_ : Nat) (h : Outside [(0x718, 0x718), (0x800, 0x81F)] k_) : rget (Atu.spillDisable a).regs k_ = rget a.regs k_ := by
  have hm := fun (m : List (Nat × Nat)) (c : coversR [(0x718, 0x718), (0x800, 0x81F)] m = true) => Outside.mono h c
  have hb0 : Outside [(0x718, 0x718)] k_ := hm _ (by decide)
  have hb1 : Outside [(0x800, 0x81F)] k_ := hm _ (by decide)
  unfold Atu.spillDisable
  (repeat' split) <;> simp [hb0, hb1]
@[simp] theorem Atu.spillError_rget (a : Atu) (k_ : Nat) (h : Outside [(0x704, 0x704), (0x718, 0x718), (0x740, 0x744), (0x800, 0x81F)] k_) : rget (Atu.spillError a).regs k_ = rget a.regs k_ := by
  have hm := fun (m : List (Nat × Nat)) (c : coversR [(0x704, 0x704), (0x718, 0x718), (0x740, 0x744), (0x800, 0x81F)] m = true) => Outside.mono h c
  have hb0 : Outside [(0x704, 0x704)] k_ := hm _ (by decide)
  have hb1 : Outside [(0x718, 0x718), (0x800, 0x81F)] k_ := hm _ (by decide)
  have hb2 : Outside [(0x740, 0x740)] k_ := hm _ (by decide)
  have hb3 : Outside [(0x744, 0x744)] k_ := hm _ (by decide)
  unfold Atu.spillError
  (repeat' split) <;> simp [hb0, hb1, hb2, hb3]
@[simp] theorem Atu.resendStart_rget (a : Atu) (mask : Nat) (k_ : Nat) (h : Outside [(0x774, 0x774)] k_) : rget (Atu.resendStart a mask).regs k_ = rget a.regs k_ := by
  have hm := fun (m : List (Nat × Nat)) (c : coversR [(0x774, 0x774)] m = true) => Outside.mono h c
  have hb0 : Outside [(0x774, 0x774)] k_ := hm _ (by decide)
  unfold Atu.resendStart
  (repeat' split) <;> simp [hb0]
@[simp] theorem Atu.resendDone_rget (a : Atu) (k_ : Nat) (h : Outside [(0x704, 0x704), (0x748, 0x748), (0x774, 0x774)] k_) : rget (Atu.resendDone a).regs k_ = rget a.regs k_ := by
  have hm := fun (m : List (Nat × Nat)) (c : coversR [(0x704, 0x704), (0x748, 0x748), (0x774, 0x774)] m = true) => Outside.mono h c
  have hb0 : Outside [(0x704, 0x704)] k_ := hm _ (by decide)
  have hb1 : Outside [(0x748, 0x748)] k_ := hm _ (by decide)
  have hb2 : Outside [(0x774, 0x774)] k_ := hm _ (by decide)
  unfold Atu.resendDone
  (repeat' split) <;> simp [hb0, hb1, hb2]
@[simp] theorem Atu.setChkVal_rget (a : Atu) (v : Nat) (k_ : Nat) (h : Outside [(0x794, 0x798)] k_) : rget (Atu.setChkVal a v).regs k_ = rget a.regs k_ := by
  have hm := fun (m : List (Nat × Nat)) (c : coversR [(0x794, 0x798)] m = true) => Outside.mono h c
  have hb0 : Outside [(0x794, 0x794)] k_ := hm _ (by decide)
  have hb1 : Outside [(0x798, 0x798)] k_ := hm _ (by decide)
  unfold Atu.setChkVal
  (repeat' split) <;> simp [hb0, hb1]
@[simp] theorem Atu.chkStart_rget (a : Atu) (cont : Bool) (k_ : Nat) (h : Outside [(0x794, 0x798), (0x7A4, 0x7A4)] k_) : rget (Atu.chkStart a cont).regs k_ = rget a.regs k_ := by
  have hm := fun (m : List (Nat × Nat)) (c : coversR [(0x794, 0x798), (0x7A4, 0x7A4)] m = true) => Outside.mono h c
  have hb0 : Outside [(0x794, 0x798)] k_ := hm _ (by decide)
  have hb1 : Outside [(0x7A4, 0x7A4)] k_ := hm _ (by decide)
  unfold Atu.chkStart
  (repeat' split) <;> simp [hb0, hb1]
@[simp] theorem Atu.chkFinish_rget (a : Atu) (k_ : Nat) (h : Outside [(0x704, 0x704), (0x74C, 0x74C), (0x7A4, 0x7A4), (0x800, 0x81F)] k_) : rget (Atu.chkFinish a).regs k_ = rget a.regs k_ := by
  have hm := fun (m : List (Nat × Nat)) (c : coversR [(0x704, 0x704), (0x74C, 0x74C), (0x7A4, 0x7A4), (0x800, 0x81F)] m = true) => Outside.mono h c
  have hb0 : Outside [(0x704, 0x704)] k_ := hm _ (by decide)
  have hb1 : Outside [(0x74C, 0x74C)] k_ := hm _ (by decide)
  have hb2 : Outside [(0x7A4, 0x7A4)] k_ := hm _ (by decide)
  have hb3 : Outside [(0x800, 0x81F)] k_ := hm _ (by decide)
  unfold Atu.chkFinish
  (repeat' split) <;> simp [hb0, hb1, hb2, hb3]
@[simp] theorem Atu.chkDone_rget (a : Atu) (k_ : Nat) (h : Outside [(0x704, 0x704), (0x74C, 0x74C), (0x794, 0x7A4), (0x800, 0x81F)] k_) : rget (Atu.chkDone a).regs k_ = rget a.regs k_ := by
  have hm := fun (m : List (Nat × Nat)) (c : coversR [(0x704, 0x704), (0x74C, 0x74C), (0x794, 0x7A4), (0x800, 0x81F)] m = true) => Outside.mono h c
  have hb0 : Outside [(0x704, 0x704), (0x74C, 0x74C), (0x7A4, 0x7A4), (0x800, 0x81F)] k_ := hm _ (by decide)
  have hb1 : Outside [(0x794, 0x798)] k_ := hm _ (by decide)
  have hb2 : Outside [(0x79C, 0x79C)] k_ := hm _ (by decide)
  have hb3 : Outside [(0x7A0, 0x7A0)] k_ := hm _ (by decide)
  unfold Atu.chkDone
  (repeat' split) <;> simp [hb0, hb1, hb2, hb3]
@[simp] theorem Atu.chkError_rget (a : Atu) (n : Nat) (k_ : Nat) (h : Outside [(0x704, 0x704), (0x74C, 0x750), (0x794, 0x798), (0x7A4, 0x7A4), (0x800, 0x81F)] k_) : rget (Atu.chkError a n).regs k_ = rget a.regs k_ := by
  have hm := fun (m : List (Nat × Nat)) (c : coversR [(0x704, 0x704), (0x74C, 0x750), (0x794, 0x798), (0x7A4, 0x7A4), (0x800, 0x81F)] m = true) => Outside.mono h c
  have hb0 : Outside [(0x704, 0x704)] k_ := hm _ (by decide)
  have hb1 : Outside [(0x704, 0x704), (0x74C, 0x74C), (0x7A4, 0x7A4), (0x800, 0x81F)] k_ := hm _ (by decide)
  have hb2 : Outside [(0x750, 0x750)] k_ := hm _ (by decide)
  have hb3 : Outside [(0x794, 0x798)] k_ := hm _ (by decide)
  unfold Atu.chkError
  (repeat' split) <;> simp [hb0, hb1, hb2, hb3]
@[simp] theorem Atu.setMarginLevel_rget (a : Atu) (d : Nat) (v : Nat) (k_ : Nat) (h : Outside [(0x5010, 0x5014)] k_) : rget (Atu.setMarginLevel a d v).regs k_ = rget a.regs k_ := by
  have hm := fun (m : List (Nat × Nat)) (c : coversR [(0x5010, 0x5014)] m = true) => Outside.mono h c
  have hb0 : Outside [(0x5010, 0x5014)] k_ := hm _ (by decide)
  have hq0 : ∀ o, 20496 ≤ o → o ≤ 20500 → Outside [(o, o)] k_ := fun o c d => outside_range (hm [(0x5010, 0x5014)] (by decide)) c d
  unfold Atu.setMarginLevel
  (try dsimp only)
  (repeat' split) <;> (first | (simp (disch := first | assumption | (refine hq0 _ ?_ ?_ <;> omega) | (intros; simp (disch := first | assumption | (refine hq0 _ ?_ ?_ <;> omega)) [hb0, Nat.add_assoc])) [hb0, Nat.add_assoc]; done) | (simp (disch := first | assumption | (refine hq0 _ ?_ ?_ <;> omega) | (intros; simp (disch := first | assumption | (refine hq0 _ ?_ ?_ <;> omega)) [hb0, Nat.add_assoc])) [hb0, Nat.add_assoc]; split <;> simp))
@[simp] theorem Atu.ageMeasure_rget (a : Atu) (vals : List (BitVec 16)) (k_ : Nat) (h : Outside [(0x5100, 0x58FF)] k_) : rget (Atu.ageMeasure a vals).regs k_ = rget a.regs k_ := by
  have hm := fun (m : List (Nat × Nat)) (c : coversR [(0x5100, 0x58FF)] m = true) => Outside.mono h c
  have hb0 : Outside [(0x5100, 0x58FF)] k_ := hm _ (by decide)
  unfold Atu.ageMeasure
  have h1 : ∀ (b : Atu) (x : Fin 32), rget (if b.siteEnabled x && b.pdomOn (b.sitePdom x) then b.setFld (siteBase x + 0x0C) 15 0 (vals.getD x 0).toNat else b).regs k_ = rget b.regs k_ := by
    intro b x; split <;> simp [hb0, Nat.add_assoc]
  (try dsimp only)
  (repeat' split) <;> (first | (simp [hb0, Nat.add_assoc]; done) | (rw [Atu.rget_foldl]; intro b x; (repeat' split) <;> simp [hb0, Nat.add_assoc]))
@[simp] theorem Atu.siteFault_rget (a : Atu) (k : Fin 32) (k_ : Nat) (h : Outside [(0x5008, 0x500C), (0x5048, 0x5048), (0x6004, 0x6004), (0x6024, 0x6024), (0x6048, 0x604C)] k_) : rget (Atu.siteFault a k).regs k_ = rget a.regs k_ := by
  have hm := fun (m : List (Nat × Nat)) (c : coversR [(0x5008, 0x500C), (0x5048, 0x5048), (0x6004, 0x6004), (0x6024, 0x6024), (0x6048, 0x604C)] m = true) => Outside.mono h c
  have hb0 : Outside [(0x5008, 0x5008)] k_ := hm _ (by decide)
  have hb1 : Outside [(0x500C, 0x500C)] k_ := hm _ (by decide)
  have hb2 : Outside [(0x5048, 0x5048)] k_ := hm _ (by decide)
  have hb3 : Outside [(0x6004, 0x6004), (0x6024, 0x6024), (0x6048, 0x604C)] k_ := hm _ (by decide)
  unfold Atu.siteFault
  (repeat' split) <;> simp [hb0, hb1, hb2, hb3]
@[simp] theorem Atu.project_rget (a : Atu) (k : Fin 32) (k_ : Nat) (h : Outside [(0x5008, 0x5008), (0x5044, 0x5044), (0x5100, 0x58FF), (0x6004, 0x6004), (0x6024, 0x6024), (0x6048, 0x604C)] k_) : rget (Atu.project a k).regs k_ = rget a.regs k_ := by
  have hm := fun (m : List (Nat × Nat)) (c : coversR [(0x5008, 0x5008), (0x5044, 0x5044), (0x5100, 0x58FF), (0x6004, 0x6004), (0x6024, 0x6024), (0x6048, 0x604C)] m = true) => Outside.mono h c
  have hb0 : Outside [(0x5008, 0x5008)] k_ := hm _ (by decide)
  have hb1 : Outside [(0x5044, 0x5044)] k_ := hm _ (by decide)
  have hb2 : Outside [(0x5100, 0x58FF)] k_ := hm _ (by decide)
  have hb3 : Outside [(0x6004, 0x6004), (0x6024, 0x6024), (0x6048, 0x604C)] k_ := hm _ (by decide)
  unfold Atu.project
  (repeat' split) <;> simp [hb0, hb1, hb2, hb3]
@[simp] theorem Atu.fitSite_rget (a : Atu) (k : Fin 32) (k_ : Nat) (h : Outside [(0x5008, 0x5008), (0x5044, 0x5044), (0x5100, 0x58FF), (0x6004, 0x6004), (0x6024, 0x6024), (0x6048, 0x604C)] k_) : rget (Atu.fitSite a k).regs k_ = rget a.regs k_ := by
  have hm := fun (m : List (Nat × Nat)) (c : coversR [(0x5008, 0x5008), (0x5044, 0x5044), (0x5100, 0x58FF), (0x6004, 0x6004), (0x6024, 0x6024), (0x6048, 0x604C)] m = true) => Outside.mono h c
  have hb0 : Outside [(0x5008, 0x5008), (0x5044, 0x5044), (0x5100, 0x58FF), (0x6004, 0x6004), (0x6024, 0x6024), (0x6048, 0x604C)] k_ := hm _ (by decide)
  have hb1 : Outside [(0x5100, 0x58FF)] k_ := hm _ (by decide)
  unfold Atu.fitSite
  (repeat' split) <;> simp [hb0, hb1, Nat.add_assoc]
@[simp] theorem Atu.fitSample_rget (a : Atu) (k_ : Nat) (h : Outside [(0x5008, 0x5008), (0x5044, 0x5044), (0x5100, 0x58FF), (0x6004, 0x6004), (0x6024, 0x6024), (0x6048, 0x604C)] k_) : rget (Atu.fitSample a).regs k_ = rget a.regs k_ := by
  have hm := fun (m : List (Nat × Nat)) (c : coversR [(0x5008, 0x5008), (0x5044, 0x5044), (0x5100, 0x58FF), (0x6004, 0x6004), (0x6024, 0x6024), (0x6048, 0x604C)] m = true) => Outside.mono h c
  have hb0 : Outside [(0x5008, 0x5008), (0x5044, 0x5044), (0x5100, 0x58FF), (0x6004, 0x6004), (0x6024, 0x6024), (0x6048, 0x604C)] k_ := hm _ (by decide)
  unfold Atu.fitSample
  (repeat' split) <;> simp [hb0]
@[simp] theorem Atu.driveAdvice_rget (a : Atu) (k_ : Nat) (h : Outside [(0x5018, 0x5018)] k_) : rget (Atu.driveAdvice a).regs k_ = rget a.regs k_ := by
  have hm := fun (m : List (Nat × Nat)) (c : coversR [(0x5018, 0x5018)] m = true) => Outside.mono h c
  have hb0 : Outside [(0x5018, 0x5018)] k_ := hm _ (by decide)
  unfold Atu.driveAdvice
  (try dsimp only) <;> (repeat' split) <;> simp [hb0]
@[simp] theorem Atu.giveAdvice_rget (a : Atu) (d : Fin 16) (action : Nat) (level : Nat) (site : Nat) (k_ : Nat) (h : Outside [(0x5008, 0x5008), (0x5010, 0x5018), (0x504C, 0x504C), (0x6004, 0x6004), (0x6024, 0x6024), (0x6048, 0x604C)] k_) : rget (Atu.giveAdvice a d action level site).regs k_ = rget a.regs k_ := by
  have hm := fun (m : List (Nat × Nat)) (c : coversR [(0x5008, 0x5008), (0x5010, 0x5018), (0x504C, 0x504C), (0x6004, 0x6004), (0x6024, 0x6024), (0x6048, 0x604C)] m = true) => Outside.mono h c
  have hb0 : Outside [(0x5008, 0x5008)] k_ := hm _ (by decide)
  have hb1 : Outside [(0x5010, 0x5014)] k_ := hm _ (by decide)
  have hb2 : Outside [(0x5018, 0x5018)] k_ := hm _ (by decide)
  have hb3 : Outside [(0x504C, 0x504C)] k_ := hm _ (by decide)
  have hb4 : Outside [(0x6004, 0x6004), (0x6024, 0x6024), (0x6048, 0x604C)] k_ := hm _ (by decide)
  unfold Atu.giveAdvice
  (repeat' split) <;> simp [hb0, hb1, hb2, hb3, hb4]
@[simp] theorem Atu.advise_rget (a : Atu) (d : Fin 16) (action : Nat) (site : Nat) (k_ : Nat) (h : Outside [(0x5008, 0x5008), (0x5010, 0x5018), (0x504C, 0x5050), (0x6004, 0x6004), (0x6024, 0x6024), (0x6048, 0x604C)] k_) : rget (Atu.advise a d action site).regs k_ = rget a.regs k_ := by
  have hm := fun (m : List (Nat × Nat)) (c : coversR [(0x5008, 0x5008), (0x5010, 0x5018), (0x504C, 0x5050), (0x6004, 0x6004), (0x6024, 0x6024), (0x6048, 0x604C)] m = true) => Outside.mono h c
  have hb0 : Outside [(0x5008, 0x5008)] k_ := hm _ (by decide)
  have hb1 : Outside [(0x5008, 0x5008), (0x5010, 0x5018), (0x504C, 0x504C), (0x6004, 0x6004), (0x6024, 0x6024), (0x6048, 0x604C)] k_ := hm _ (by decide)
  have hb2 : Outside [(0x5050, 0x5050)] k_ := hm _ (by decide)
  have hb3 : Outside [(0x6004, 0x6004), (0x6024, 0x6024), (0x6048, 0x604C)] k_ := hm _ (by decide)
  unfold Atu.advise
  (repeat' split) <;> simp [hb0, hb1, hb2, hb3]
@[simp] theorem Atu.recoatDomain_rget (a : Atu) (d : Fin 16) (k_ : Nat) (h : Outside [(0x5008, 0x5008), (0x5010, 0x5018), (0x5040, 0x5040), (0x504C, 0x5050), (0x6004, 0x6004), (0x6024, 0x6024), (0x6048, 0x604C)] k_) : rget (Atu.recoatDomain a d).regs k_ = rget a.regs k_ := by
  have hm := fun (m : List (Nat × Nat)) (c : coversR [(0x5008, 0x5008), (0x5010, 0x5018), (0x5040, 0x5040), (0x504C, 0x5050), (0x6004, 0x6004), (0x6024, 0x6024), (0x6048, 0x604C)] m = true) => Outside.mono h c
  have hb0 : Outside [(0x5008, 0x5008)] k_ := hm _ (by decide)
  have hb1 : Outside [(0x5008, 0x5008), (0x5010, 0x5018), (0x504C, 0x5050), (0x6004, 0x6004), (0x6024, 0x6024), (0x6048, 0x604C)] k_ := hm _ (by decide)
  have hb2 : Outside [(0x5040, 0x5040)] k_ := hm _ (by decide)
  unfold Atu.recoatDomain
  (try dsimp only)
  (repeat' split) <;> simp [hb0, hb1, hb2]
@[simp] theorem Atu.recoat_rget (a : Atu) (k_ : Nat) (h : Outside [(0x5008, 0x5008), (0x5010, 0x5018), (0x5040, 0x5040), (0x504C, 0x5050), (0x6004, 0x6004), (0x6024, 0x6024), (0x6048, 0x604C)] k_) : rget (Atu.recoat a).regs k_ = rget a.regs k_ := by
  have hm := fun (m : List (Nat × Nat)) (c : coversR [(0x5008, 0x5008), (0x5010, 0x5018), (0x5040, 0x5040), (0x504C, 0x5050), (0x6004, 0x6004), (0x6024, 0x6024), (0x6048, 0x604C)] m = true) => Outside.mono h c
  have hb0 : Outside [(0x5008, 0x5008), (0x5010, 0x5018), (0x5040, 0x5040), (0x504C, 0x5050), (0x6004, 0x6004), (0x6024, 0x6024), (0x6048, 0x604C)] k_ := hm _ (by decide)
  unfold Atu.recoat
  (repeat' split) <;> simp [hb0]
@[simp] theorem Atu.sandTrace_rget (a : Atu) (n : Fin 16) (k_ : Nat) (h : Outside [(0x3008, 0x3008), (0x3044, 0x3044), (0x3054, 0x3054), (0x3100, 0x317F)] k_) : rget (Atu.sandTrace a n).regs k_ = rget a.regs k_ := by
  have hm := fun (m : List (Nat × Nat)) (c : coversR [(0x3008, 0x3008), (0x3044, 0x3044), (0x3054, 0x3054), (0x3100, 0x317F)] m = true) => Outside.mono h c
  have hb0 : Outside [(0x3008, 0x3008), (0x3044, 0x3044), (0x3054, 0x3054), (0x3100, 0x317F)] k_ := hm _ (by decide)
  unfold Atu.sandTrace
  (repeat' split) <;> simp [hb0]
@[simp] theorem Atu.sandGrant_rget (a : Atu) (mask : BitVec 16) (k_ : Nat) (h : Outside [(0x3008, 0x3008), (0x3044, 0x3044), (0x3054, 0x3054), (0x3100, 0x317F)] k_) : rget (Atu.sandGrant a mask).regs k_ = rget a.regs k_ := by
  have hm := fun (m : List (Nat × Nat)) (c : coversR [(0x3008, 0x3008), (0x3044, 0x3044), (0x3054, 0x3054), (0x3100, 0x317F)] m = true) => Outside.mono h c
  have hb0 : Outside [(0x3008, 0x3008), (0x3044, 0x3044), (0x3054, 0x3054), (0x3100, 0x317F)] k_ := hm _ (by decide)
  unfold Atu.sandGrant
  (repeat' split) <;> simp [hb0]
@[simp] theorem Atu.sandAbort_rget (a : Atu) (n : Fin 16) (k_ : Nat) (h : Outside [(0x3008, 0x3008), (0x3044, 0x3044), (0x3054, 0x3054), (0x3100, 0x317F), (0x5A10, 0x5A10), (0x5A4C, 0x5A4C)] k_) : rget (Atu.sandAbort a n).regs k_ = rget a.regs k_ := by
  have hm := fun (m : List (Nat × Nat)) (c : coversR [(0x3008, 0x3008), (0x3044, 0x3044), (0x3054, 0x3054), (0x3100, 0x317F), (0x5A10, 0x5A10), (0x5A4C, 0x5A4C)] m = true) => Outside.mono h c
  have hb0 : Outside [(0x3008, 0x3008), (0x3044, 0x3044), (0x3054, 0x3054), (0x3100, 0x317F)] k_ := hm _ (by decide)
  have hb1 : Outside [(0x5A10, 0x5A10)] k_ := hm _ (by decide)
  have hb2 : Outside [(0x5A4C, 0x5A4C)] k_ := hm _ (by decide)
  unfold Atu.sandAbort
  (repeat' split) <;> simp [hb0, hb1, hb2]
@[simp] theorem Atu.sandWithdraw_rget (a : Atu) (n : Fin 16) (k_ : Nat) (h : Outside [(0x3008, 0x3008), (0x3044, 0x3044), (0x3054, 0x3054), (0x3100, 0x317F), (0x5A10, 0x5A10), (0x5A4C, 0x5A4C)] k_) : rget (Atu.sandWithdraw a n).regs k_ = rget a.regs k_ := by
  have hm := fun (m : List (Nat × Nat)) (c : coversR [(0x3008, 0x3008), (0x3044, 0x3044), (0x3054, 0x3054), (0x3100, 0x317F), (0x5A10, 0x5A10), (0x5A4C, 0x5A4C)] m = true) => Outside.mono h c
  have hb0 : Outside [(0x3008, 0x3008), (0x3044, 0x3044), (0x3054, 0x3054), (0x3100, 0x317F), (0x5A10, 0x5A10), (0x5A4C, 0x5A4C)] k_ := hm _ (by decide)
  unfold Atu.sandWithdraw
  (repeat' split) <;> simp [hb0]
@[simp] theorem Atu.sandPass_rget (a : Atu) (n : Fin 16) (k_ : Nat) (h : Outside [(0x3008, 0x3008), (0x3044, 0x3044), (0x3054, 0x3054), (0x3100, 0x317F), (0x5A10, 0x5A10), (0x5A54, 0x5A54), (0x6004, 0x6004), (0x6024, 0x6024), (0x6048, 0x604C)] k_) : rget (Atu.sandPass a n).regs k_ = rget a.regs k_ := by
  have hm := fun (m : List (Nat × Nat)) (c : coversR [(0x3008, 0x3008), (0x3044, 0x3044), (0x3054, 0x3054), (0x3100, 0x317F), (0x5A10, 0x5A10), (0x5A54, 0x5A54), (0x6004, 0x6004), (0x6024, 0x6024), (0x6048, 0x604C)] m = true) => Outside.mono h c
  have hb0 : Outside [(0x3008, 0x3008), (0x3044, 0x3044), (0x3054, 0x3054), (0x3100, 0x317F)] k_ := hm _ (by decide)
  have hb1 : Outside [(0x5A10, 0x5A10)] k_ := hm _ (by decide)
  have hb2 : Outside [(0x5A54, 0x5A54)] k_ := hm _ (by decide)
  have hb3 : Outside [(0x6004, 0x6004), (0x6024, 0x6024), (0x6048, 0x604C)] k_ := hm _ (by decide)
  unfold Atu.sandPass
  (repeat' split) <;> simp [hb0, hb1, hb2, hb3]
@[simp] theorem Atu.sandFail_rget (a : Atu) (n : Fin 16) (result : Nat) (k_ : Nat) (h : Outside [(0x3008, 0x3008), (0x3044, 0x3044), (0x3054, 0x3054), (0x3100, 0x317F), (0x5008, 0x5008), (0x5010, 0x5018), (0x504C, 0x5050), (0x5A10, 0x5A10), (0x5A48, 0x5A48), (0x6004, 0x6004), (0x6024, 0x6024), (0x6048, 0x604C)] k_) : rget (Atu.sandFail a n result).regs k_ = rget a.regs k_ := by
  have hm := fun (m : List (Nat × Nat)) (c : coversR [(0x3008, 0x3008), (0x3044, 0x3044), (0x3054, 0x3054), (0x3100, 0x317F), (0x5008, 0x5008), (0x5010, 0x5018), (0x504C, 0x5050), (0x5A10, 0x5A10), (0x5A48, 0x5A48), (0x6004, 0x6004), (0x6024, 0x6024), (0x6048, 0x604C)] m = true) => Outside.mono h c
  have hb0 : Outside [(0x3008, 0x3008), (0x3044, 0x3044), (0x3054, 0x3054), (0x3100, 0x317F)] k_ := hm _ (by decide)
  have hb1 : Outside [(0x5008, 0x5008), (0x5010, 0x5018), (0x504C, 0x5050), (0x6004, 0x6004), (0x6024, 0x6024), (0x6048, 0x604C)] k_ := hm _ (by decide)
  have hb2 : Outside [(0x5A10, 0x5A10)] k_ := hm _ (by decide)
  have hb3 : Outside [(0x5A48, 0x5A48)] k_ := hm _ (by decide)
  have hb4 : Outside [(0x6004, 0x6004), (0x6024, 0x6024), (0x6048, 0x604C)] k_ := hm _ (by decide)
  unfold Atu.sandFail
  (try dsimp only)
  (repeat' split) <;> simp [hb0, hb1, hb2, hb3, hb4]
@[simp] theorem Atu.sandDone_rget (a : Atu) (n : Fin 16) (pass : Bool) (k_ : Nat) (h : Outside [(0x3008, 0x3008), (0x3044, 0x3044), (0x3054, 0x3054), (0x3100, 0x317F), (0x5008, 0x5008), (0x5010, 0x5018), (0x504C, 0x5050), (0x5A10, 0x5A10), (0x5A48, 0x5A48), (0x5A54, 0x5A54), (0x6004, 0x6004), (0x6024, 0x6024), (0x6048, 0x604C)] k_) : rget (Atu.sandDone a n pass).regs k_ = rget a.regs k_ := by
  have hm := fun (m : List (Nat × Nat)) (c : coversR [(0x3008, 0x3008), (0x3044, 0x3044), (0x3054, 0x3054), (0x3100, 0x317F), (0x5008, 0x5008), (0x5010, 0x5018), (0x504C, 0x5050), (0x5A10, 0x5A10), (0x5A48, 0x5A48), (0x5A54, 0x5A54), (0x6004, 0x6004), (0x6024, 0x6024), (0x6048, 0x604C)] m = true) => Outside.mono h c
  have hb0 : Outside [(0x3008, 0x3008), (0x3044, 0x3044), (0x3054, 0x3054), (0x3100, 0x317F), (0x5008, 0x5008), (0x5010, 0x5018), (0x504C, 0x5050), (0x5A10, 0x5A10), (0x5A48, 0x5A48), (0x6004, 0x6004), (0x6024, 0x6024), (0x6048, 0x604C)] k_ := hm _ (by decide)
  have hb1 : Outside [(0x3008, 0x3008), (0x3044, 0x3044), (0x3054, 0x3054), (0x3100, 0x317F), (0x5A10, 0x5A10), (0x5A54, 0x5A54), (0x6004, 0x6004), (0x6024, 0x6024), (0x6048, 0x604C)] k_ := hm _ (by decide)
  unfold Atu.sandDone
  (repeat' split) <;> simp [hb0, hb1]
@[simp] theorem Atu.sandTimeout_rget (a : Atu) (n : Fin 16) (k_ : Nat) (h : Outside [(0x3008, 0x3008), (0x3044, 0x3044), (0x3054, 0x3054), (0x3100, 0x317F), (0x5008, 0x5008), (0x5010, 0x5018), (0x504C, 0x5050), (0x5A10, 0x5A10), (0x5A48, 0x5A48), (0x5A50, 0x5A50), (0x6004, 0x6004), (0x6024, 0x6024), (0x6048, 0x604C)] k_) : rget (Atu.sandTimeout a n).regs k_ = rget a.regs k_ := by
  have hm := fun (m : List (Nat × Nat)) (c : coversR [(0x3008, 0x3008), (0x3044, 0x3044), (0x3054, 0x3054), (0x3100, 0x317F), (0x5008, 0x5008), (0x5010, 0x5018), (0x504C, 0x5050), (0x5A10, 0x5A10), (0x5A48, 0x5A48), (0x5A50, 0x5A50), (0x6004, 0x6004), (0x6024, 0x6024), (0x6048, 0x604C)] m = true) => Outside.mono h c
  have hb0 : Outside [(0x3008, 0x3008), (0x3044, 0x3044), (0x3054, 0x3054), (0x3100, 0x317F), (0x5008, 0x5008), (0x5010, 0x5018), (0x504C, 0x5050), (0x5A10, 0x5A10), (0x5A48, 0x5A48), (0x6004, 0x6004), (0x6024, 0x6024), (0x6048, 0x604C)] k_ := hm _ (by decide)
  have hb1 : Outside [(0x5A10, 0x5A10)] k_ := hm _ (by decide)
  have hb2 : Outside [(0x5A50, 0x5A50)] k_ := hm _ (by decide)
  unfold Atu.sandTimeout
  (repeat' split) <;> simp [hb0, hb1, hb2]
@[simp] theorem Atu.sandSoftDeadline_rget (a : Atu) (n : Fin 16) (k_ : Nat) (h : Outside [(0x5A10, 0x5A10), (0x5A40, 0x5A40), (0x6004, 0x6004), (0x6024, 0x6024), (0x6048, 0x604C)] k_) : rget (Atu.sandSoftDeadline a n).regs k_ = rget a.regs k_ := by
  have hm := fun (m : List (Nat × Nat)) (c : coversR [(0x5A10, 0x5A10), (0x5A40, 0x5A40), (0x6004, 0x6004), (0x6024, 0x6024), (0x6048, 0x604C)] m = true) => Outside.mono h c
  have hb0 : Outside [(0x5A10, 0x5A10)] k_ := hm _ (by decide)
  have hb1 : Outside [(0x5A40, 0x5A40)] k_ := hm _ (by decide)
  have hb2 : Outside [(0x6004, 0x6004), (0x6024, 0x6024), (0x6048, 0x604C)] k_ := hm _ (by decide)
  unfold Atu.sandSoftDeadline
  (repeat' split) <;> simp [hb0, hb1, hb2]
@[simp] theorem Atu.sandStroke_rget (a : Atu) (n : Fin 16) (k_ : Nat) (h : Outside [(0x5A10, 0x5A10), (0x5A44, 0x5A44), (0x6004, 0x6004), (0x6024, 0x6024), (0x6048, 0x604C)] k_) : rget (Atu.sandStroke a n).regs k_ = rget a.regs k_ := by
  have hm := fun (m : List (Nat × Nat)) (c : coversR [(0x5A10, 0x5A10), (0x5A44, 0x5A44), (0x6004, 0x6004), (0x6024, 0x6024), (0x6048, 0x604C)] m = true) => Outside.mono h c
  have hb0 : Outside [(0x5A10, 0x5A10)] k_ := hm _ (by decide)
  have hb1 : Outside [(0x5A44, 0x5A44)] k_ := hm _ (by decide)
  have hb2 : Outside [(0x6004, 0x6004), (0x6024, 0x6024), (0x6048, 0x604C)] k_ := hm _ (by decide)
  unfold Atu.sandStroke
  (repeat' split) <;> simp [hb0, hb1, hb2]
@[simp] theorem Atu.sandStrokes_rget (a : Atu) (k_ : Nat) (h : Outside [(0x5A10, 0x5A10), (0x5A44, 0x5A44), (0x6004, 0x6004), (0x6024, 0x6024), (0x6048, 0x604C)] k_) : rget (Atu.sandStrokes a).regs k_ = rget a.regs k_ := by
  have hm := fun (m : List (Nat × Nat)) (c : coversR [(0x5A10, 0x5A10), (0x5A44, 0x5A44), (0x6004, 0x6004), (0x6024, 0x6024), (0x6048, 0x604C)] m = true) => Outside.mono h c
  have hb0 : Outside [(0x5A10, 0x5A10), (0x5A44, 0x5A44), (0x6004, 0x6004), (0x6024, 0x6024), (0x6048, 0x604C)] k_ := hm _ (by decide)
  unfold Atu.sandStrokes
  (repeat' split) <;> simp [hb0]
@[simp] theorem Atu.sandEnableWrite_rget (a : Atu) (mask : Nat) (k_ : Nat) (h : Outside [(0x3008, 0x3008), (0x3044, 0x3044), (0x3054, 0x3054), (0x3100, 0x317F), (0x5A00, 0x5A00)] k_) : rget (Atu.sandEnableWrite a mask).regs k_ = rget a.regs k_ := by
  have hm := fun (m : List (Nat × Nat)) (c : coversR [(0x3008, 0x3008), (0x3044, 0x3044), (0x3054, 0x3054), (0x3100, 0x317F), (0x5A00, 0x5A00)] m = true) => Outside.mono h c
  have hb0 : Outside [(0x3008, 0x3008), (0x3044, 0x3044), (0x3054, 0x3054), (0x3100, 0x317F)] k_ := hm _ (by decide)
  have hb1 : Outside [(0x5A00, 0x5A00)] k_ := hm _ (by decide)
  unfold Atu.sandEnableWrite
  (repeat' split) <;> simp [hb0, hb1]
@[simp] theorem Atu.lifeSeed_rget (a : Atu) (v : Nat) (k_ : Nat) (h : Outside [(0x6008, 0x6008)] k_) : rget (Atu.lifeSeed a v).regs k_ = rget a.regs k_ := by
  have hm := fun (m : List (Nat × Nat)) (c : coversR [(0x6008, 0x6008)] m = true) => Outside.mono h c
  have hb0 : Outside [(0x6008, 0x6008)] k_ := hm _ (by decide)
  unfold Atu.lifeSeed
  (repeat' split) <;> simp [hb0]
@[simp] theorem Atu.powerAborts_rget (a : Atu) (k_ : Nat) (h : Outside [(0x3008, 0x3008), (0x3044, 0x3044), (0x3054, 0x3054), (0x3100, 0x317F), (0x5A10, 0x5A10), (0x5A4C, 0x5A4C)] k_) : rget (Atu.powerAborts a).regs k_ = rget a.regs k_ := by
  have hm := fun (m : List (Nat × Nat)) (c : coversR [(0x3008, 0x3008), (0x3044, 0x3044), (0x3054, 0x3054), (0x3100, 0x317F), (0x5A10, 0x5A10), (0x5A4C, 0x5A4C)] m = true) => Outside.mono h c
  have hb0 : Outside [(0x3008, 0x3008), (0x3044, 0x3044), (0x3054, 0x3054), (0x3100, 0x317F), (0x5A10, 0x5A10), (0x5A4C, 0x5A4C)] k_ := hm _ (by decide)
  unfold Atu.powerAborts
  (try dsimp only) <;> (repeat' split) <;> simp [hb0]
@[simp] theorem Atu.pwrFail_rget (a : Atu) (asserted : Bool) (k_ : Nat) (h : Outside [(0x18, 0x18), (0x3008, 0x3008), (0x3044, 0x3044), (0x3054, 0x3054), (0x3100, 0x317F), (0x5A10, 0x5A10), (0x5A4C, 0x5A4C), (0x6004, 0x600C), (0x6024, 0x6028), (0x6048, 0x604C)] k_) : rget (Atu.pwrFail a asserted).regs k_ = rget a.regs k_ := by
  have hm := fun (m : List (Nat × Nat)) (c : coversR [(0x18, 0x18), (0x3008, 0x3008), (0x3044, 0x3044), (0x3054, 0x3054), (0x3100, 0x317F), (0x5A10, 0x5A10), (0x5A4C, 0x5A4C), (0x6004, 0x600C), (0x6024, 0x6028), (0x6048, 0x604C)] m = true) => Outside.mono h c
  have hb0 : Outside [(0x18, 0x18)] k_ := hm _ (by decide)
  have hb1 : Outside [(0x3008, 0x3008), (0x3044, 0x3044), (0x3054, 0x3054), (0x3100, 0x317F), (0x5A10, 0x5A10), (0x5A4C, 0x5A4C)] k_ := hm _ (by decide)
  have hb2 : Outside [(0x6004, 0x6004), (0x6024, 0x6024), (0x6048, 0x604C)] k_ := hm _ (by decide)
  have hb3 : Outside [(0x6004, 0x600C), (0x6024, 0x6028), (0x6048, 0x604C)] k_ := hm _ (by decide)
  unfold Atu.pwrFail
  (repeat' split) <;> simp [hb0, hb1, hb2, hb3]
@[simp] theorem Atu.updateAbDiff_rget (a : Atu) (k_ : Nat) (h : Outside [(0x108, 0x10C), (0x154, 0x154)] k_) : rget (Atu.updateAbDiff a).regs k_ = rget a.regs k_ := by
  have hm := fun (m : List (Nat × Nat)) (c : coversR [(0x108, 0x10C), (0x154, 0x154)] m = true) => Outside.mono h c
  have hb0 : Outside [(0x108, 0x108)] k_ := hm _ (by decide)
  have hb1 : Outside [(0x10C, 0x10C)] k_ := hm _ (by decide)
  have hb2 : Outside [(0x154, 0x154)] k_ := hm _ (by decide)
  unfold Atu.updateAbDiff
  (repeat' split) <;> simp [hb0, hb1, hb2]
@[simp] theorem Atu.learnSched_rget (a : Atu) (s : Sched) (p : Option (Nat × Nat)) (k_ : Nat) (h : Outside [(0x108, 0x108), (0x150, 0x150), (0x400, 0x400), (0x448, 0x448)] k_) : rget (Atu.learnSched a s p).regs k_ = rget a.regs k_ := by
  have hm := fun (m : List (Nat × Nat)) (c : coversR [(0x108, 0x108), (0x150, 0x150), (0x400, 0x400), (0x448, 0x448)] m = true) => Outside.mono h c
  have hb0 : Outside [(0x108, 0x108)] k_ := hm _ (by decide)
  have hb1 : Outside [(0x150, 0x150)] k_ := hm _ (by decide)
  have hb2 : Outside [(0x400, 0x400), (0x448, 0x448)] k_ := hm _ (by decide)
  unfold Atu.learnSched
  (repeat' split) <;> simp [hb0, hb1, hb2]
@[simp] theorem Atu.enterState_rget (a : Atu) (s : TimeState) (off : Int) (k_ : Nat) (h : Outside [(0x6004, 0x6004), (0x6024, 0x6024), (0x6048, 0x604C)] k_) : rget (Atu.enterState a s off).regs k_ = rget a.regs k_ := by
  have hm := fun (m : List (Nat × Nat)) (c : coversR [(0x6004, 0x6004), (0x6024, 0x6024), (0x6048, 0x604C)] m = true) => Outside.mono h c
  have hb0 : Outside [(0x6004, 0x6004), (0x6024, 0x6024), (0x6048, 0x604C)] k_ := hm _ (by decide)
  unfold Atu.enterState
  (repeat' split) <;> simp [hb0]
@[simp] theorem Atu.lockCount_rget (a : Atu) (off : Int) (restart : Bool) (k_ : Nat) (h : Outside [(0x6004, 0x6004), (0x6024, 0x6024), (0x6048, 0x604C)] k_) : rget (Atu.lockCount a off restart).regs k_ = rget a.regs k_ := by
  have hm := fun (m : List (Nat × Nat)) (c : coversR [(0x6004, 0x6004), (0x6024, 0x6024), (0x6048, 0x604C)] m = true) => Outside.mono h c
  have hb0 : Outside [(0x6004, 0x6004), (0x6024, 0x6024), (0x6048, 0x604C)] k_ := hm _ (by decide)
  unfold Atu.lockCount
  (repeat' split) <;> simp [hb0]
@[simp] theorem Atu.beatActs_rget (a : Atu) (beatHt : Nat) (off : Int) (silent : Bool) (k_ : Nat) (h : Outside [(0x108, 0x108), (0x110, 0x110), (0x148, 0x148), (0x6004, 0x6004), (0x6024, 0x6024), (0x6048, 0x604C)] k_) : rget (Atu.beatActs a beatHt off silent).regs k_ = rget a.regs k_ := by
  have hm := fun (m : List (Nat × Nat)) (c : coversR [(0x108, 0x108), (0x110, 0x110), (0x148, 0x148), (0x6004, 0x6004), (0x6024, 0x6024), (0x6048, 0x604C)] m = true) => Outside.mono h c
  have hb0 : Outside [(0x108, 0x108)] k_ := hm _ (by decide)
  have hb1 : Outside [(0x110, 0x110)] k_ := hm _ (by decide)
  have hb2 : Outside [(0x148, 0x148)] k_ := hm _ (by decide)
  have hb3 : Outside [(0x6004, 0x6004), (0x6024, 0x6024), (0x6048, 0x604C)] k_ := hm _ (by decide)
  unfold Atu.beatActs
  (repeat' split) <;> simp [hb0, hb1, hb2, hb3]
@[simp] theorem Atu.checkSilence_rget (a : Atu) (k_ : Nat) (h : Outside [(0x108, 0x108), (0x114, 0x118), (0x144, 0x144), (0x6004, 0x6004), (0x6024, 0x6024), (0x6048, 0x604C)] k_) : rget (Atu.checkSilence a).regs k_ = rget a.regs k_ := by
  have hm := fun (m : List (Nat × Nat)) (c : coversR [(0x108, 0x108), (0x114, 0x118), (0x144, 0x144), (0x6004, 0x6004), (0x6024, 0x6024), (0x6048, 0x604C)] m = true) => Outside.mono h c
  have hb0 : Outside [(0x108, 0x108)] k_ := hm _ (by decide)
  have hb1 : Outside [(0x114, 0x114)] k_ := hm _ (by decide)
  have hb2 : Outside [(0x118, 0x118)] k_ := hm _ (by decide)
  have hb3 : Outside [(0x144, 0x144)] k_ := hm _ (by decide)
  have hb4 : Outside [(0x6004, 0x6004), (0x6024, 0x6024), (0x6048, 0x604C)] k_ := hm _ (by decide)
  unfold Atu.checkSilence
  (repeat' split) <;> simp [hb0, hb1, hb2, hb3, hb4]
@[simp] theorem Atu.beat_rget (a : Atu) (p : PortId) (w : List Byte) (k_ : Nat) (h : Outside [(0x108, 0x118), (0x144, 0x154), (0x400, 0x400), (0x448, 0x448), (0x6004, 0x6004), (0x6024, 0x6024), (0x6048, 0x604C)] k_) : rget (Atu.beat a p w).regs k_ = rget a.regs k_ := by
  have hm := fun (m : List (Nat × Nat)) (c : coversR [(0x108, 0x118), (0x144, 0x154), (0x400, 0x400), (0x448, 0x448), (0x6004, 0x6004), (0x6024, 0x6024), (0x6048, 0x604C)] m = true) => Outside.mono h c
  have hb0 : Outside [(0x108, 0x108)] k_ := hm _ (by decide)
  have hb1 : Outside [(0x108, 0x108), (0x110, 0x110), (0x148, 0x148), (0x6004, 0x6004), (0x6024, 0x6024), (0x6048, 0x604C)] k_ := hm _ (by decide)
  have hb2 : Outside [(0x108, 0x108), (0x150, 0x150), (0x400, 0x400), (0x448, 0x448)] k_ := hm _ (by decide)
  have hb3 : Outside [(0x108, 0x10C), (0x154, 0x154)] k_ := hm _ (by decide)
  have hb4 : Outside [(0x10C, 0x10C)] k_ := hm _ (by decide)
  have hb5 : Outside [(0x14C, 0x14C)] k_ := hm _ (by decide)
  have hb6 : Outside [(0x108, 0x108), (0x114, 0x118), (0x144, 0x144), (0x6004, 0x6004), (0x6024, 0x6024), (0x6048, 0x604C)] k_ := hm _ (by decide)
  unfold Atu.beat
  (repeat' split) <;> simp [hb0, hb1, hb2, hb3, hb4, hb5, hb6]
@[simp] theorem Atu.beatMsg_rget (a : Atu) (p : PortId) (w : List Byte) (k_ : Nat) (h : Outside [(0x108, 0x118), (0x144, 0x154), (0x400, 0x400), (0x448, 0x448), (0x6004, 0x6004), (0x6024, 0x6024), (0x6048, 0x604C)] k_) : rget (Atu.beatMsg a p w).regs k_ = rget a.regs k_ := by
  have hm := fun (m : List (Nat × Nat)) (c : coversR [(0x108, 0x118), (0x144, 0x154), (0x400, 0x400), (0x448, 0x448), (0x6004, 0x6004), (0x6024, 0x6024), (0x6048, 0x604C)] m = true) => Outside.mono h c
  have hb0 : Outside [(0x108, 0x110), (0x148, 0x154), (0x400, 0x400), (0x448, 0x448), (0x6004, 0x6004), (0x6024, 0x6024), (0x6048, 0x604C)] k_ := hm _ (by decide)
  have hb1 : Outside [(0x108, 0x118), (0x144, 0x154), (0x400, 0x400), (0x448, 0x448), (0x6004, 0x6004), (0x6024, 0x6024), (0x6048, 0x604C)] k_ := hm _ (by decide)
  unfold Atu.beatMsg
  (repeat' split) <;> simp [hb0, hb1]
@[simp] theorem Atu.noteMissed_rget (a : Atu) (p : PortId) (k_ : Nat) (h : Outside [(0x108, 0x108), (0x140, 0x140)] k_) : rget (Atu.noteMissed a p).regs k_ = rget a.regs k_ := by
  have hm := fun (m : List (Nat × Nat)) (c : coversR [(0x108, 0x108), (0x140, 0x140)] m = true) => Outside.mono h c
  have hb0 : Outside [(0x108, 0x108)] k_ := hm _ (by decide)
  have hb1 : Outside [(0x140, 0x140)] k_ := hm _ (by decide)
  unfold Atu.noteMissed
  (try dsimp only) <;> (repeat' split) <;> simp [hb0, hb1]
@[simp] theorem Atu.countMissed_rget (a : Atu) (p : PortId) (k_ : Nat) (h : Outside [(0x108, 0x108), (0x140, 0x140)] k_) : rget (Atu.countMissed a p).regs k_ = rget a.regs k_ := by
  have hm := fun (m : List (Nat × Nat)) (c : coversR [(0x108, 0x108), (0x140, 0x140)] m = true) => Outside.mono h c
  have hb0 : Outside [(0x108, 0x108), (0x140, 0x140)] k_ := hm _ (by decide)
  unfold Atu.countMissed
  (try dsimp only) <;> (repeat' split) <;> simp [hb0]
@[simp] theorem Atu.beatMissed_rget (a : Atu) (p : PortId) (k_ : Nat) (h : Outside [(0x108, 0x108), (0x114, 0x118), (0x140, 0x144), (0x6004, 0x6004), (0x6024, 0x6024), (0x6048, 0x604C)] k_) : rget (Atu.beatMissed a p).regs k_ = rget a.regs k_ := by
  have hm := fun (m : List (Nat × Nat)) (c : coversR [(0x108, 0x108), (0x114, 0x118), (0x140, 0x144), (0x6004, 0x6004), (0x6024, 0x6024), (0x6048, 0x604C)] m = true) => Outside.mono h c
  have hb0 : Outside [(0x108, 0x108)] k_ := hm _ (by decide)
  have hb1 : Outside [(0x108, 0x108), (0x114, 0x118), (0x144, 0x144), (0x6004, 0x6004), (0x6024, 0x6024), (0x6048, 0x604C)] k_ := hm _ (by decide)
  have hb2 : Outside [(0x140, 0x140)] k_ := hm _ (by decide)
  have hb3 : Outside [(0x108, 0x108), (0x140, 0x140)] k_ := hm _ (by decide)
  unfold Atu.beatMissed
  (repeat' split) <;> simp [hb0, hb1, hb2, hb3]
@[simp] theorem Atu.portUp_rget (a : Atu) (p : PortId) (k_ : Nat) (h : Outside [(0x7000, 0x70FF)] k_) : rget (Atu.portUp a p).regs k_ = rget a.regs k_ := by
  have hm := fun (m : List (Nat × Nat)) (c : coversR [(0x7000, 0x70FF)] m = true) => Outside.mono h c
  have hb0 : Outside [(0x7000, 0x70FF)] k_ := hm _ (by decide)
  unfold Atu.portUp
  (repeat' split) <;> simp [hb0]
@[simp] theorem Atu.portDown_rget (a : Atu) (p : PortId) (k_ : Nat) (h : Outside [(0x7000, 0x70FF)] k_) : rget (Atu.portDown a p).regs k_ = rget a.regs k_ := by
  have hm := fun (m : List (Nat × Nat)) (c : coversR [(0x7000, 0x70FF)] m = true) => Outside.mono h c
  have hb0 : Outside [(0x7000, 0x70FF)] k_ := hm _ (by decide)
  unfold Atu.portDown
  (repeat' split) <;> simp [hb0]
@[simp] theorem Atu.fireStroke_rget (a : Atu) (s : Sched) (n : Nat) (k_ : Nat) (h : Outside [(0x108, 0x108), (0x150, 0x150), (0x400, 0x404), (0x440, 0x44C), (0x3008, 0x3008), (0x3044, 0x3044), (0x3050, 0x3058), (0x3100, 0x317F), (0x5A10, 0x5A10), (0x5A44, 0x5A44), (0x6004, 0x6004), (0x6024, 0x6024), (0x6048, 0x604C)] k_) : rget (Atu.fireStroke a s n).regs k_ = rget a.regs k_ := by
  have hm := fun (m : List (Nat × Nat)) (c : coversR [(0x108, 0x108), (0x150, 0x150), (0x400, 0x404), (0x440, 0x44C), (0x3008, 0x3008), (0x3044, 0x3044), (0x3050, 0x3058), (0x3100, 0x317F), (0x5A10, 0x5A10), (0x5A44, 0x5A44), (0x6004, 0x6004), (0x6024, 0x6024), (0x6048, 0x604C)] m = true) => Outside.mono h c
  have hb0 : Outside [(0x108, 0x108), (0x150, 0x150), (0x400, 0x400), (0x448, 0x448)] k_ := hm _ (by decide)
  have hb1 : Outside [(0x400, 0x404), (0x440, 0x440), (0x448, 0x44C), (0x6004, 0x6004), (0x6024, 0x6024), (0x6048, 0x604C)] k_ := hm _ (by decide)
  have hb2 : Outside [(0x3008, 0x3008), (0x3044, 0x3044), (0x3050, 0x3054), (0x3100, 0x317F)] k_ := hm _ (by decide)
  have hb3 : Outside [(0x3008, 0x3008), (0x3044, 0x3044), (0x3054, 0x3058), (0x3100, 0x317F)] k_ := hm _ (by decide)
  have hb4 : Outside [(0x5A10, 0x5A10), (0x5A44, 0x5A44), (0x6004, 0x6004), (0x6024, 0x6024), (0x6048, 0x604C)] k_ := hm _ (by decide)
  have hb5 : Outside [(0x108, 0x108), (0x150, 0x150), (0x400, 0x404), (0x440, 0x44C), (0x6004, 0x6004), (0x6024, 0x6024), (0x6048, 0x604C)] k_ := hm _ (by decide)
  unfold Atu.fireStroke
  (try dsimp only)
  (repeat' split) <;> simp [hb0, hb1, hb2, hb3, hb4, hb5]
@[simp] theorem Atu.stroke_rget (a : Atu) (k_ : Nat) (h : Outside [(0x108, 0x108), (0x150, 0x150), (0x400, 0x404), (0x440, 0x44C), (0x3008, 0x3008), (0x3044, 0x3044), (0x3050, 0x3058), (0x3100, 0x317F), (0x5A10, 0x5A10), (0x5A44, 0x5A44), (0x6004, 0x6004), (0x6024, 0x6024), (0x6048, 0x604C)] k_) : rget (Atu.stroke a).regs k_ = rget a.regs k_ := by
  have hm := fun (m : List (Nat × Nat)) (c : coversR [(0x108, 0x108), (0x150, 0x150), (0x400, 0x404), (0x440, 0x44C), (0x3008, 0x3008), (0x3044, 0x3044), (0x3050, 0x3058), (0x3100, 0x317F), (0x5A10, 0x5A10), (0x5A44, 0x5A44), (0x6004, 0x6004), (0x6024, 0x6024), (0x6048, 0x604C)] m = true) => Outside.mono h c
  have hb0 : Outside [(0x108, 0x108), (0x150, 0x150), (0x400, 0x404), (0x440, 0x440), (0x448, 0x44C), (0x3008, 0x3008), (0x3044, 0x3044), (0x3050, 0x3058), (0x3100, 0x317F), (0x5A10, 0x5A10), (0x5A44, 0x5A44), (0x6004, 0x6004), (0x6024, 0x6024), (0x6048, 0x604C)] k_ := hm _ (by decide)
  have hb1 : Outside [(0x108, 0x108), (0x150, 0x150), (0x400, 0x404), (0x440, 0x44C), (0x3008, 0x3008), (0x3044, 0x3044), (0x3050, 0x3058), (0x3100, 0x317F), (0x5A10, 0x5A10), (0x5A44, 0x5A44), (0x6004, 0x6004), (0x6024, 0x6024), (0x6048, 0x604C)] k_ := hm _ (by decide)
  unfold Atu.stroke
  (repeat' split) <;> simp [hb0, hb1]
@[simp] theorem Atu.sandHardDeadline_rget (a : Atu) (n : Fin 16) (k_ : Nat) (h : Outside [(0x5A10, 0x5A10), (0x5A44, 0x5A44), (0x6004, 0x6004), (0x6024, 0x6024), (0x6048, 0x604C)] k_) : rget (Atu.sandHardDeadline a n).regs k_ = rget a.regs k_ := by
  have hm := fun (m : List (Nat × Nat)) (c : coversR [(0x5A10, 0x5A10), (0x5A44, 0x5A44), (0x6004, 0x6004), (0x6024, 0x6024), (0x6048, 0x604C)] m = true) => Outside.mono h c
  have hb0 : Outside [(0x5A10, 0x5A10), (0x5A44, 0x5A44), (0x6004, 0x6004), (0x6024, 0x6024), (0x6048, 0x604C)] k_ := hm _ (by decide)
  unfold Atu.sandHardDeadline
  (repeat' split) <;> simp [hb0]
@[simp] theorem Atu.latchHi_rget (a : Atu) (off : Nat) (k_ : Nat) (h : Outside [(0x104, 0x104), (0x724, 0x724), (0x72C, 0x72C), (0x3074, 0x3074), (0x6014, 0x6014)] k_) : rget (Atu.latchHi a off).regs k_ = rget a.regs k_ := by
  have hm := fun (m : List (Nat × Nat)) (c : coversR [(0x104, 0x104), (0x724, 0x724), (0x72C, 0x72C), (0x3074, 0x3074), (0x6014, 0x6014)] m = true) => Outside.mono h c
  have hb0 : Outside [(0x104, 0x104)] k_ := hm _ (by decide)
  have hb1 : Outside [(0x724, 0x724)] k_ := hm _ (by decide)
  have hb2 : Outside [(0x72C, 0x72C)] k_ := hm _ (by decide)
  have hb3 : Outside [(0x3074, 0x3074)] k_ := hm _ (by decide)
  have hb4 : Outside [(0x6014, 0x6014)] k_ := hm _ (by decide)
  unfold Atu.latchHi
  (repeat' split) <;> simp [hb0, hb1, hb2, hb3, hb4]
@[simp] theorem Atu.readEffect_rget (a : Atu) (s : Side) (off : Nat) (k_ : Nat) (h : Outside [(0x104, 0x104), (0x724, 0x724), (0x72C, 0x72C), (0x3074, 0x3074), (0x6014, 0x6014)] k_) : rget (Atu.readEffect a s off).regs k_ = rget a.regs k_ := by
  have hm := fun (m : List (Nat × Nat)) (c : coversR [(0x104, 0x104), (0x724, 0x724), (0x72C, 0x72C), (0x3074, 0x3074), (0x6014, 0x6014)] m = true) => Outside.mono h c
  have hb0 : Outside [(0x104, 0x104), (0x724, 0x724), (0x72C, 0x72C), (0x3074, 0x3074), (0x6014, 0x6014)] k_ := hm _ (by decide)
  unfold Atu.readEffect
  (repeat' split) <;> simp [hb0]
@[simp] theorem Atu.refusedEvent_rget (a : Atu) (off : Nat) (c : Status) (k_ : Nat) (h : Outside [(0x6004, 0x6004), (0x6024, 0x6024), (0x6048, 0x604C)] k_) : rget (Atu.refusedEvent a off c).regs k_ = rget a.regs k_ := by
  have hm := fun (m : List (Nat × Nat)) (c : coversR [(0x6004, 0x6004), (0x6024, 0x6024), (0x6048, 0x604C)] m = true) => Outside.mono h c
  have hb0 : Outside [(0x6004, 0x6004), (0x6024, 0x6024), (0x6048, 0x604C)] k_ := hm _ (by decide)
  unfold Atu.refusedEvent
  (try dsimp only) <;> (repeat' split) <;> simp [hb0]
@[simp] theorem Atu.logEntry_rget (a : Atu) (e : ErrEntry) (k_ : Nat) (h : Outside [(0x20, 0x2C)] k_) : rget (Atu.logEntry a e).regs k_ = rget a.regs k_ := by
  have hm := fun (m : List (Nat × Nat)) (c : coversR [(0x20, 0x2C)] m = true) => Outside.mono h c
  have hb0 : Outside [(0x28, 0x28)] k_ := hm _ (by decide)
  have hb1 : Outside [(0x2C, 0x2C)] k_ := hm _ (by decide)
  have hb2 : Outside [(0x20, 0x20)] k_ := hm _ (by decide)
  have hb3 : Outside [(0x24, 0x24)] k_ := hm _ (by decide)
  unfold Atu.logEntry
  (try dsimp only) <;> (repeat' split) <;> simp [hb0, hb1, hb2, hb3]
@[simp] theorem Atu.logRefusal_rget (a : Atu) (s : Side) (wr : Bool) (off : Nat) (c : Status) (k_ : Nat) (h : Outside [(0x20, 0x30), (0x40, 0x40), (0x6004, 0x6004), (0x6024, 0x6024), (0x6048, 0x604C)] k_) : rget (Atu.logRefusal a s wr off c).regs k_ = rget a.regs k_ := by
  have hm := fun (m : List (Nat × Nat)) (c : coversR [(0x20, 0x30), (0x40, 0x40), (0x6004, 0x6004), (0x6024, 0x6024), (0x6048, 0x604C)] m = true) => Outside.mono h c
  have hb0 : Outside [(0x6004, 0x6004), (0x6024, 0x6024), (0x6048, 0x604C)] k_ := hm _ (by decide)
  have hb1 : Outside [(0x20, 0x2C)] k_ := hm _ (by decide)
  have hb2 : Outside [(0x30, 0x30)] k_ := hm _ (by decide)
  have hb3 : Outside [(0x40, 0x40)] k_ := hm _ (by decide)
  unfold Atu.logRefusal
  (try dsimp only) <;> (repeat' split) <;> simp [hb0, hb1, hb2, hb3]
@[simp] theorem Atu.refuse_rget (a : Atu) (s : Side) (wr : Bool) (off : Nat) (v : Word) (c : Status) (k_ : Nat) (h : Outside [(0x20, 0x30), (0x40, 0x40), (0x4C, 0x4C), (0x60C, 0x60C), (0x3810, 0x3810), (0x384C, 0x384C), (0x6004, 0x6004), (0x6024, 0x6024), (0x6048, 0x604C)] k_) : rget (Atu.refuse a s wr off v c).regs k_ = rget a.regs k_ := by
  have hm := fun (m : List (Nat × Nat)) (c : coversR [(0x20, 0x30), (0x40, 0x40), (0x4C, 0x4C), (0x60C, 0x60C), (0x3810, 0x3810), (0x384C, 0x384C), (0x6004, 0x6004), (0x6024, 0x6024), (0x6048, 0x604C)] m = true) => Outside.mono h c
  have hb0 : Outside [(0x20, 0x20)] k_ := hm _ (by decide)
  have hb1 : Outside [(0x24, 0x24)] k_ := hm _ (by decide)
  have hb2 : Outside [(0x28, 0x28)] k_ := hm _ (by decide)
  have hb3 : Outside [(0x2C, 0x2C)] k_ := hm _ (by decide)
  have hb4 : Outside [(0x30, 0x30)] k_ := hm _ (by decide)
  have hb5 : Outside [(0x40, 0x40)] k_ := hm _ (by decide)
  have hb6 : Outside [(0x4C, 0x4C)] k_ := hm _ (by decide)
  have hb7 : Outside [(0x60C, 0x60C)] k_ := hm _ (by decide)
  have hb8 : Outside [(0x3810, 0x3810)] k_ := hm _ (by decide)
  have hb9 : Outside [(0x384C, 0x384C)] k_ := hm _ (by decide)
  have hb10 : Outside [(0x6004, 0x6004), (0x6024, 0x6024), (0x6048, 0x604C)] k_ := hm _ (by decide)
  have hb11 : Outside [(0x20, 0x30), (0x40, 0x40), (0x6004, 0x6004), (0x6024, 0x6024), (0x6048, 0x604C)] k_ := hm _ (by decide)
  unfold Atu.refuse
  (repeat' split) <;> simp [hb0, hb1, hb2, hb3, hb4, hb5, hb6, hb7, hb8, hb9, hb10, hb11]
@[simp] theorem Atu.resetRelease_rget (a : Atu) (dieId : Word) (k_ : Nat) (h : Outside [(8, 8), (0x30, 0x30)] k_) : rget (Atu.resetRelease a dieId).regs k_ = rget a.regs k_ := by
  have hm := fun (m : List (Nat × Nat)) (c : coversR [(8, 8), (0x30, 0x30)] m = true) => Outside.mono h c
  have hb0 : Outside [(8, 8)] k_ := hm _ (by decide)
  have hb1 : Outside [(0x30, 0x30)] k_ := hm _ (by decide)
  unfold Atu.resetRelease
  (repeat' split) <;> simp [hb0, hb1]
@[simp] theorem Atu.becomeReady_rget (a : Atu) (k_ : Nat) (h : Outside [(0x30, 0x30), (0x48, 0x48)] k_) : rget (Atu.becomeReady a).regs k_ = rget a.regs k_ := by
  have hm := fun (m : List (Nat × Nat)) (c : coversR [(0x30, 0x30), (0x48, 0x48)] m = true) => Outside.mono h c
  have hb0 : Outside [(0x30, 0x30)] k_ := hm _ (by decide)
  have hb1 : Outside [(0x48, 0x48)] k_ := hm _ (by decide)
  unfold Atu.becomeReady
  (repeat' split) <;> simp [hb0, hb1]
@[simp] theorem Atu.takeDma_rget (a : Atu) (holder : Nat) (s : Side) (k_ : Nat) (h : Outside [(0x800, 0x81F)] k_) : rget (Atu.takeDma a holder s).regs k_ = rget a.regs k_ := by
  have hm := fun (m : List (Nat × Nat)) (c : coversR [(0x800, 0x81F)] m = true) => Outside.mono h c
  have hb0 : Outside [(0x800, 0x81F)] k_ := hm _ (by decide)
  unfold Atu.takeDma
  (repeat' split) <;> simp [hb0]
@[simp] theorem Atu.timerClaim_rget (a : Atu) (s : Side) (k_ : Nat) (h : Outside [(0x800, 0x81F)] k_) : rget (Atu.timerClaim a s).regs k_ = rget a.regs k_ := by
  have hm := fun (m : List (Nat × Nat)) (c : coversR [(0x800, 0x81F)] m = true) => Outside.mono h c
  have hb0 : Outside [(0x800, 0x81F)] k_ := hm _ (by decide)
  unfold Atu.timerClaim
  (repeat' split) <;> simp [hb0]
@[simp] theorem Atu.effectB_rget (a : Atu) (s : Side) (off : Nat) (v : Word) (old : Word) (k_ : Nat) (h : Outside [(0x800, 0x81F), (0x3008, 0x3008), (0x3044, 0x3044), (0x3050, 0x3054), (0x3100, 0x317F), (0x3814, 0x3814)] k_) : rget (Atu.effectB a s off v old).regs k_ = rget a.regs k_ := by
  have hm := fun (m : List (Nat × Nat)) (c : coversR [(0x800, 0x81F), (0x3008, 0x3008), (0x3044, 0x3044), (0x3050, 0x3054), (0x3100, 0x317F), (0x3814, 0x3814)] m = true) => Outside.mono h c
  have hb0 : Outside [(0x800, 0x81F)] k_ := hm _ (by decide)
  have hb1 : Outside [(0x3008, 0x3008), (0x3044, 0x3044), (0x3050, 0x3050), (0x3100, 0x317F)] k_ := hm _ (by decide)
  have hb2 : Outside [(0x3008, 0x3008), (0x3044, 0x3044), (0x3054, 0x3054)] k_ := hm _ (by decide)
  have hb3 : Outside [(0x3814, 0x3814)] k_ := hm _ (by decide)
  unfold Atu.effectB
  (repeat' split) <;> simp [hb0, hb1, hb2, hb3]
@[simp] theorem Atu.effectC_rget (a : Atu) (s : Side) (off : Nat) (v : Word) (old : Word) (k_ : Nat) (h : Outside [(0x3008, 0x3008), (0x3044, 0x3044), (0x3054, 0x3054), (0x3100, 0x317F), (0x500C, 0x500C), (0x5A00, 0x5A00), (0x6004, 0x600C), (0x6024, 0x6028), (0x6048, 0x604C)] k_) : rget (Atu.effectC a s off v old).regs k_ = rget a.regs k_ := by
  have hm := fun (m : List (Nat × Nat)) (c : coversR [(0x3008, 0x3008), (0x3044, 0x3044), (0x3054, 0x3054), (0x3100, 0x317F), (0x500C, 0x500C), (0x5A00, 0x5A00), (0x6004, 0x600C), (0x6024, 0x6028), (0x6048, 0x604C)] m = true) => Outside.mono h c
  have hb0 : Outside [(0x3008, 0x3008), (0x3044, 0x3044), (0x3054, 0x3054), (0x3100, 0x317F), (0x5A00, 0x5A00)] k_ := hm _ (by decide)
  have hb1 : Outside [(0x500C, 0x500C)] k_ := hm _ (by decide)
  have hb2 : Outside [(0x5A00, 0x5A00)] k_ := hm _ (by decide)
  have hb3 : Outside [(0x6004, 0x6004), (0x6024, 0x6024), (0x6048, 0x604C)] k_ := hm _ (by decide)
  have hb4 : Outside [(0x6008, 0x6008)] k_ := hm _ (by decide)
  have hb5 : Outside [(0x6004, 0x600C), (0x6024, 0x6028), (0x6048, 0x604C)] k_ := hm _ (by decide)
  unfold Atu.effectC
  (repeat' split) <;> simp [hb0, hb1, hb2, hb3, hb4, hb5]
@[simp] theorem Atu.faultFlush_rget (a : Atu) (k_ : Nat) (h : Outside [(0x6004, 0x600C), (0x6024, 0x6028), (0x6048, 0x604C)] k_) : rget (Atu.faultFlush a).regs k_ = rget a.regs k_ := by
  have hm := fun (m : List (Nat × Nat)) (c : coversR [(0x6004, 0x600C), (0x6024, 0x6028), (0x6048, 0x604C)] m = true) => Outside.mono h c
  have hb0 : Outside [(0x6004, 0x6004), (0x6024, 0x6024), (0x6048, 0x604C)] k_ := hm _ (by decide)
  have hb1 : Outside [(0x6004, 0x600C), (0x6024, 0x6028), (0x6048, 0x604C)] k_ := hm _ (by decide)
  unfold Atu.faultFlush
  (repeat' split) <;> simp [hb0, hb1]
@[simp] theorem Atu.selfFault_rget (a : Atu) (k_ : Nat) (h : Outside [(0x6800, 0x6800), (0x6860, 0x6860)] k_) : rget (Atu.selfFault a).regs k_ = rget a.regs k_ := by
  have hm := fun (m : List (Nat × Nat)) (c : coversR [(0x6800, 0x6800), (0x6860, 0x6860)] m = true) => Outside.mono h c
  have hb0 : Outside [(0x6800, 0x6800)] k_ := hm _ (by decide)
  have hb1 : Outside [(0x6860, 0x6860)] k_ := hm _ (by decide)
  unfold Atu.selfFault
  (repeat' split) <;> simp [hb0, hb1]
@[simp] theorem Atu.checkInterval_rget (a : Atu) (last : Nat) (k_ : Nat) (h : Outside [(0x6800, 0x6800), (0x6808, 0x6808), (0x6860, 0x6860)] k_) : rget (Atu.checkInterval a last).regs k_ = rget a.regs k_ := by
  have hm := fun (m : List (Nat × Nat)) (c : coversR [(0x6800, 0x6800), (0x6808, 0x6808), (0x6860, 0x6860)] m = true) => Outside.mono h c
  have hb0 : Outside [(0x6800, 0x6800), (0x6860, 0x6860)] k_ := hm _ (by decide)
  have hb1 : Outside [(0x6808, 0x6808)] k_ := hm _ (by decide)
  unfold Atu.checkInterval
  (repeat' split) <;> simp [hb0, hb1]
@[simp] theorem Atu.safetyBeat_rget (a : Atu) (k_ : Nat) (h : Outside [(0x6800, 0x6800), (0x6808, 0x6808), (0x6860, 0x6860)] k_) : rget (Atu.safetyBeat a).regs k_ = rget a.regs k_ := by
  have hm := fun (m : List (Nat × Nat)) (c : coversR [(0x6800, 0x6800), (0x6808, 0x6808), (0x6860, 0x6860)] m = true) => Outside.mono h c
  have hb0 : Outside [(0x6800, 0x6800), (0x6808, 0x6808), (0x6860, 0x6860)] k_ := hm _ (by decide)
  unfold Atu.safetyBeat
  (repeat' split) <;> simp [hb0]
@[simp] theorem Atu.safeEdge_rget (a : Atu) (i : Fin 8) (now : Bool) (k_ : Nat) (h : Outside [(0x6004, 0x6004), (0x6024, 0x6024), (0x6048, 0x604C), (0x6800, 0x68FF)] k_) : rget (Atu.safeEdge a i now).regs k_ = rget a.regs k_ := by
  have hm := fun (m : List (Nat × Nat)) (c : coversR [(0x6004, 0x6004), (0x6024, 0x6024), (0x6048, 0x604C), (0x6800, 0x68FF)] m = true) => Outside.mono h c
  have hb0 : Outside [(0x6004, 0x6004), (0x6024, 0x6024), (0x6048, 0x604C)] k_ := hm _ (by decide)
  have hb1 : Outside [(0x6800, 0x68FF)] k_ := hm _ (by decide)
  have hb2 : Outside [(0x6800, 0x6800)] k_ := hm _ (by decide)
  have hq : ∀ i : Fin 8, Outside [(26688 + 4 * i.val, 26688 + 4 * i.val)] k_ := fun i => outside_range (hm [(0x6800, 0x68FF)] (by decide)) (by omega) (by omega)
  have hq6 : Outside [(0x6800, 0x6800)] k_ := hm _ (by decide)
  unfold Atu.safeEdge
  (try dsimp only)
  (repeat' split) <;> simp [hq, hq6, hb0, hb1, Nat.add_assoc]
@[simp] theorem Atu.safeIn_rget (a : Atu) (lv : BitVec 8) (k_ : Nat) (h : Outside [(0x3008, 0x3008), (0x3044, 0x3044), (0x3050, 0x3054), (0x3100, 0x317F), (0x6004, 0x6004), (0x6024, 0x6024), (0x6048, 0x604C), (0x6800, 0x68FF)] k_) : rget (Atu.safeIn a lv).regs k_ = rget a.regs k_ := by
  have hm := fun (m : List (Nat × Nat)) (c : coversR [(0x3008, 0x3008), (0x3044, 0x3044), (0x3050, 0x3054), (0x3100, 0x317F), (0x6004, 0x6004), (0x6024, 0x6024), (0x6048, 0x604C), (0x6800, 0x68FF)] m = true) => Outside.mono h c
  have hb0 : Outside [(0x3008, 0x3008), (0x3044, 0x3044), (0x3050, 0x3054), (0x3100, 0x317F)] k_ := hm _ (by decide)
  have hb1 : Outside [(0x6004, 0x6004), (0x6024, 0x6024), (0x6048, 0x604C), (0x6800, 0x68FF)] k_ := hm _ (by decide)
  unfold Atu.safeIn
  (repeat' split) <;> simp [hb0, hb1]
@[simp] theorem Atu.pathTest_rget (a : Atu) (fails : BitVec 8) (k_ : Nat) (h : Outside [(0x6800, 0x6800), (0x6808, 0x6808), (0x6860, 0x6860)] k_) : rget (Atu.pathTest a fails).regs k_ = rget a.regs k_ := by
  have hm := fun (m : List (Nat × Nat)) (c : coversR [(0x6800, 0x6800), (0x6808, 0x6808), (0x6860, 0x6860)] m = true) => Outside.mono h c
  have hb0 : Outside [(0x6800, 0x6800), (0x6860, 0x6860)] k_ := hm _ (by decide)
  have hb1 : Outside [(0x6808, 0x6808)] k_ := hm _ (by decide)
  unfold Atu.pathTest
  (repeat' split) <;> simp [hb0, hb1]
@[simp] theorem Atu.sendSafety_rget (a : Atu) (p : PortId) (k_ : Nat) (h : Outside [(0x6804, 0x6804), (0x7000, 0x70FF)] k_) : rget (Atu.sendSafety a p).regs k_ = rget a.regs k_ := by
  have hm := fun (m : List (Nat × Nat)) (c : coversR [(0x6804, 0x6804), (0x7000, 0x70FF)] m = true) => Outside.mono h c
  have hb0 : Outside [(0x6804, 0x6804)] k_ := hm _ (by decide)
  have hb1 : Outside [(0x7000, 0x70FF)] k_ := hm _ (by decide)
  unfold Atu.sendSafety
  (repeat' split) <;> simp [hb0, hb1]
@[simp] theorem Atu.sendFlit_rget (a : Atu) (p : PortId) (k_ : Nat) (h : Outside [(0x6804, 0x6804), (0x7000, 0x70FF)] k_) : rget (Atu.sendFlit a p).regs k_ = rget a.regs k_ := by
  have hm := fun (m : List (Nat × Nat)) (c : coversR [(0x6804, 0x6804), (0x7000, 0x70FF)] m = true) => Outside.mono h c
  have hb0 : Outside [(0x6804, 0x6804), (0x7000, 0x70FF)] k_ := hm _ (by decide)
  have hb1 : Outside [(0x7000, 0x70FF)] k_ := hm _ (by decide)
  unfold Atu.sendFlit
  (repeat' split) <;> simp [hb0, hb1]
@[simp] theorem Atu.replayFlag_rget (a : Atu) (p : PortId) (started : Bool) (k_ : Nat) (h : Outside [(0x7000, 0x70FF)] k_) : rget (Atu.replayFlag a p started).regs k_ = rget a.regs k_ := by
  have hm := fun (m : List (Nat × Nat)) (c : coversR [(0x7000, 0x70FF)] m = true) => Outside.mono h c
  have hb0 : Outside [(0x7000, 0x70FF)] k_ := hm _ (by decide)
  unfold Atu.replayFlag
  (repeat' split) <;> simp [hb0, Nat.add_assoc]
@[simp] theorem Atu.loopReturn_rget (a : Atu) (p : PortId) (k_ : Nat) (h : Outside [(0x7000, 0x70FF)] k_) : rget (Atu.loopReturn a p).regs k_ = rget a.regs k_ := by
  have hm := fun (m : List (Nat × Nat)) (c : coversR [(0x7000, 0x70FF)] m = true) => Outside.mono h c
  have hb0 : Outside [(0x7000, 0x70FF)] k_ := hm _ (by decide)
  unfold Atu.loopReturn
  (try dsimp only)
  (repeat' split) <;> simp [hb0]
@[simp] theorem Atu.retryTimeout_rget (a : Atu) (p : PortId) (k_ : Nat) (h : Outside [(0x7000, 0x70FF)] k_) : rget (Atu.retryTimeout a p).regs k_ = rget a.regs k_ := by
  have hm := fun (m : List (Nat × Nat)) (c : coversR [(0x7000, 0x70FF)] m = true) => Outside.mono h c
  have hb0 : Outside [(0x7000, 0x70FF)] k_ := hm _ (by decide)
  unfold Atu.retryTimeout
  (try dsimp only)
  (repeat' split) <;> simp [hb0, Nat.add_assoc]
@[simp] theorem Atu.idleTimeout_rget (a : Atu) (p : PortId) (k_ : Nat) (h : Outside [(0x7000, 0x70FF)] k_) : rget (Atu.idleTimeout a p).regs k_ = rget a.regs k_ := by
  have hm := fun (m : List (Nat × Nat)) (c : coversR [(0x7000, 0x70FF)] m = true) => Outside.mono h c
  have hb0 : Outside [(0x7000, 0x70FF)] k_ := hm _ (by decide)
  unfold Atu.idleTimeout
  (repeat' split) <;> simp [hb0]
@[simp] theorem Atu.lockLoss_rget (a : Atu) (p : PortId) (k_ : Nat) (h : Outside [(0x7000, 0x70FF)] k_) : rget (Atu.lockLoss a p).regs k_ = rget a.regs k_ := by
  have hm := fun (m : List (Nat × Nat)) (c : coversR [(0x7000, 0x70FF)] m = true) => Outside.mono h c
  have hb0 : Outside [(0x7000, 0x70FF)] k_ := hm _ (by decide)
  unfold Atu.lockLoss
  (repeat' split) <;> simp [hb0]
end Sys2Proof.Machine
end

