-- ==== Sys2Proof/Laws/Effects.lean ====
section
/-!
SUPPORT. Effects.lean: what the shared operations do when nothing turns a command away: register accesses, flags, commands on rings.
-/
namespace Sys2Proof.Machine
set_option linter.all false

/-! ### Words -/

theorem wbit_or_pow (w : Word) (k : Nat) (h : k < 32) : wbit (w ||| BitVec.ofNat 32 (2 ^ k)) k = true := by
  have : (2 ^ k % 2 ^ 32).testBit k = true := by rw [Nat.testBit_mod_two_pow]; simp [h, Nat.testBit_two_pow_self]
  simp only [wbit, BitVec.toNat_or, BitVec.toNat_ofNat, Nat.testBit_or, this, Bool.or_true]

/-- A flag that is raised is set. -/
theorem wbit_raiseFlag (f : Flag) (r : SMap Word) (hk : f.bit < 32) (hc : f.ctr ≠ f.stat) : wbit (rget (raiseFlag f r) f.stat) f.bit = true := by
  unfold raiseFlag rincSat
  split
  · rw [rget_rset_self]; exact wbit_or_pow _ _ hk
  · rw [rget_rset_ne _ _ _ _ (Ne.symm hc), rget_rset_self]; exact wbit_or_pow _ _ hk

theorem testBit_bitField (v hi lo i : Nat) : (bitField v hi lo).testBit i = (decide (i < hi + 1 - lo) && v.testBit (lo + i)) := by
  rw [bitField, Nat.testBit_mod_two_pow, Nat.testBit_div_two_pow, Nat.add_comm lo i]

theorem testBit_wsetFld (w : Word) (hi lo v i : Nat) (hh : hi < 32) :
    (wsetFld w hi lo v).toNat.testBit i = if lo ≤ i ∧ i ≤ hi then v.testBit (i - lo) else w.toNat.testBit i := by
  have hm : ((2 ^ (hi + 1 - lo) - 1) * 2 ^ lo).testBit i = (decide (lo ≤ i) && decide (i ≤ hi)) := by
    rw [Nat.testBit_mul_two_pow, Nat.testBit_two_pow_sub_one]
    by_cases h : lo ≤ i <;> simp [h]
    omega
  have hw : 32 ≤ i → w.toNat.testBit i = false := fun h => Nat.testBit_lt_two_pow (Nat.lt_of_lt_of_le w.isLt (Nat.pow_le_pow_right (by decide) h))
  simp only [wsetFld, BitVec.toNat_or, BitVec.toNat_and, BitVec.toNat_not, BitVec.toNat_ofNat, Nat.testBit_or, Nat.testBit_and, Nat.testBit_mod_two_pow, hm]
  rw [show 2 ^ 32 - 1 - (2 ^ (hi + 1 - lo) - 1) * 2 ^ lo % 2 ^ 32 = 2 ^ 32 - ((2 ^ (hi + 1 - lo) - 1) * 2 ^ lo % 2 ^ 32 + 1) by omega,
    Nat.testBit_two_pow_sub_succ (Nat.mod_lt _ (by decide)), Nat.testBit_mod_two_pow, hm, Nat.testBit_mul_two_pow]
  by_cases h1 : lo ≤ i <;> by_cases h2 : i ≤ hi <;> by_cases h3 : i < 32 <;> simp [h1, h2, h3] <;> first | omega | exact hw (by omega)

/-- A field reads as what was put into it. -/
theorem wfld_wsetFld (w : Word) (hi lo v : Nat) (hh : hi < 32) (hl : lo ≤ hi) : wfld (wsetFld w hi lo v) hi lo = v % 2 ^ (hi + 1 - lo) := by
  apply Nat.eq_of_testBit_eq
  intro i
  rw [wfld, testBit_bitField, testBit_wsetFld _ _ _ _ _ hh, Nat.testBit_mod_two_pow]
  by_cases h : i < hi + 1 - lo
  · rw [if_pos (by omega)]; simp
  · simp [h]

@[simp] theorem outside_nil (k : Nat) : Outside [] k := by intro r h; cases h
@[simp] theorem outside_cons (a b : Nat) (l : List (Nat × Nat)) (k : Nat) : Outside ((a, b) :: l) k ↔ (k < a ∨ b < k) ∧ Outside l k := by
  constructor
  · intro h; exact ⟨h _ (List.mem_cons_self ..), fun r hr => h r (List.mem_cons_of_mem _ hr)⟩
  · intro h r hr; rcases List.mem_cons.1 hr with rfl | hr
    · exact h.1
    · exact h.2 r hr

@[simp] theorem Atu.setReg_regs_self (a : Atu) (o : Nat) (v : Word) : rget (a.setReg o v).regs o = v := rget_rset_self _ _ _
@[simp] theorem Agg.setReg_regs_self (a : Agg) (o : Nat) (v : Word) : rget (a.setReg o v).regs o = v := rget_rset_self _ _ _
@[simp] theorem Atu.setRegN_regs_self (a : Atu) (o v : Nat) : rget (a.setRegN o v).regs o = BitVec.ofNat 32 v := rget_rset_self _ _ _
@[simp] theorem Agg.setRegN_regs_self (a : Agg) (o v : Nat) : rget (a.setRegN o v).regs o = BitVec.ofNat 32 v := rget_rset_self _ _ _
@[simp] theorem Atu.setFld_regs_self (a : Atu) (o hi lo v : Nat) : rget (a.setFld o hi lo v).regs o = wsetFld (rget a.regs o) hi lo v := rget_rset_self _ _ _
@[simp] theorem Agg.setFld_regs_self (a : Agg) (o hi lo v : Nat) : rget (a.setFld o hi lo v).regs o = wsetFld (rget a.regs o) hi lo v := rget_rset_self _ _ _
/-- A flag that was raised is set; what follows must leave its register alone. -/
theorem Atu.bit_flag (a : Atu) (f : Flag) (hk : f.bit < 32) (hc : f.ctr ≠ f.stat) : wbit (rget (a.flag f).regs f.stat) f.bit = true :=
  wbit_raiseFlag f a.regs hk hc
theorem Agg.bit_flag (a : Agg) (f : Flag) (hk : f.bit < 32) (hc : f.ctr ≠ f.stat) : wbit (rget (a.flag f).regs f.stat) f.bit = true :=
  wbit_raiseFlag f a.regs hk hc
/-- A flag that is raised leaves the other flags of its register. -/
theorem wbit_raiseFlag_keep (f : Flag) (r : SMap Word) (k : Nat) (hc : f.ctr ≠ f.stat) (h : wbit (rget r f.stat) k = true) :
    wbit (rget (raiseFlag f r) f.stat) k = true := by
  have h2 : wbit (rget r f.stat ||| BitVec.ofNat 32 (2 ^ f.bit)) k = true := by
    simp only [wbit, BitVec.toNat_or, Nat.testBit_or] at *
    rw [h, Bool.true_or]
  unfold raiseFlag rincSat
  split
  · rw [rget_rset_self]; exact h2
  · rw [rget_rset_ne _ _ _ _ (Ne.symm hc), rget_rset_self]; exact h2

/-! ### Register accesses of the ATU -/

/-- An ATU that answers a write with OK. -/
def Atu.replied (b : Atu) : RegFrom → Atu
  | .host => { b with bound := { b.bound with answer := ⟨.ok, 0⟩ } }
  | .port p tag => b.setPort p ((b.port p).enqueue 4 (regResponse tag.toNat ⟨.ok, 0⟩ true))
@[simp] theorem Atu.replied_only (pt : AtuPart) (hpt : pt ∉ [AtuPart.bound, .portA, .portB]) (b : Atu) (src : RegFrom) : pt.get (b.replied src) = pt.get b := by
  simp only [List.mem_cons, List.not_mem_nil, or_false, not_or] at hpt
  cases src <;> simp [Atu.replied, hpt]
@[simp] theorem Atu.replied_regs (b : Atu) (src : RegFrom) : (b.replied src).regs = b.regs := by cases src <;> simp [Atu.replied]

/-- A write that nothing refuses, with what its register does. -/
theorem Atu.writeFrom_run (a b : Atu) (src : RegFrom) (off : Nat) (v : Word) (r : RegRow) (h : a.accepts src true off v 0xF) (hr : atuRow off = some r)
    (ho : off < 0x10000) (hw : a.doWrite (sideOf src) r off v = (.ok, b)) (hb : b.bound.inReset = false) :
    a.writeFrom src off v = b.replied src := by
  obtain ⟨h1, h2, h3, h4, h5⟩ := h
  have hacc : a.access (sideOf src) true off v 0xF = (⟨.ok, 0⟩, b) := by
    unfold Atu.access
    rw [h5, hr]
    simp only [h1, h2, firstCode, hw, Bool.not_true, Bool.or_self, Bool.false_eq_true, ↓reduceIte]
  cases src with
  | host =>
    unfold Atu.writeFrom Atu.accessFrom Atu.hostAccess
    simp only [sideOf] at hacc
    simp only [h3, hacc, Bool.not_true, Bool.false_eq_true, ↓reduceIte, Atu.replied]
  | port p tag =>
    have h4 := h4 p tag rfl
    have h6 : decide (16 ≤ a.outstanding p) = false := by simp; omega
    simp only [sideOf] at hacc
    unfold Atu.writeFrom Atu.accessFrom Atu.portAccess
    simp only [Nat.mod_eq_of_lt ho, h2, h6, h3, Bool.not_true, Bool.or_self, Bool.false_eq_true, ↓reduceIte, Atu.answerPort, hacc, hb, Atu.replied]

/-- What an accepted write of any register but ATU_TRC_AUTH_HI leaves. -/
def Atu.written (a : Atu) (s : Side) (r : RegRow) (off : Nat) (v : Word) : Atu :=
  let b := if a.storedOff off && r.stores then a.setReg off (storeWord r (a.reg off) v) else a
  let b := if r.rwo ≠ 0 then { b with bound := { b.bound with rwo := off :: b.bound.rwo } } else b
  ((b.effectA s off v (a.reg off)).effectB s off v (a.reg off)).effectC s off v (a.reg off)
theorem Atu.doWrite_eq (a : Atu) (s : Side) (r : RegRow) (off : Nat) (v : Word) (h : off ≠ 0x302C) : a.doWrite s r off v = (.ok, a.written s r off v) := by
  unfold Atu.doWrite Atu.written
  simp only [h, ↓reduceIte]
theorem Atu.writeFrom_eq (a : Atu) (src : RegFrom) (off : Nat) (v : Word) (r : RegRow) (h : a.accepts src true off v 0xF) (hr : atuRow off = some r)
    (ho : off < 0x10000) (hn : off ≠ 0x302C) (hb : (a.written (sideOf src) r off v).bound.inReset = false) : a.writeFrom src off v = (a.written (sideOf src) r off v).replied src :=
  Atu.writeFrom_run a _ src off v r h hr ho (Atu.doWrite_eq a _ r off v hn) hb

/-! ### Commands on rings -/

/-- A command that its own checks do not turn away runs, and is counted as completed (R537, R554). -/
theorem Agg.command_run (g : Agg) (c : Caller) (op : Nat) (codes : List Status) (bad : Option Nat) (f : Agg → Agg) (h : g.takes c) (hc : codes = [])
    (hb : bad = none) : g.command c op codes bad f = f ((g.begin (who c)).count c.ring.val 12 1) := by
  obtain ⟨h1, h2, h3, h4⟩ := h
  subst hc hb
  simp [Agg.command, Agg.checked, h1, Agg.admitCode, h2, h3, h4, failIf, firstCode]

@[simp] theorem Agg.whenFw_run (g : Agg) (f : Agg → Agg) (h : g.fwRuns = true) : g.whenFw f = f g := by simp [Agg.whenFw, h]
@[simp] theorem Agg.whenPowered_run (g : Agg) (f : Agg → Agg) (h : g.powered = true) : g.whenPowered f = f g := by simp [Agg.whenPowered, h]
@[simp] theorem Agg.whenLive_run (g : Agg) (f : Agg → Agg) (h : g.linksLive = true) : g.whenLive f = f g := by simp [Agg.whenLive, h]

end Sys2Proof.Machine
end

