-- ==== Sys2Proof/WellFormed.lean ====
section
/-!
DEFINITION. WellFormed.lean: what a command must be beyond its types: register offsets inside their range and aligned, messages of the length
that the spec gives their kind, and lists of the length that the hardware presents. A meaning is defined for every command; an ill-formed one
is discarded or refused by the rule of its meaning.
-/
namespace Sys2Proof

/-- A die port or the host: TAG 0xFFFF is no request's tag (R295). -/
def RegFrom.wf : RegFrom → Bool
  | .host => true
  | .port _ tag => decide (tag.toNat ≠ 0xFFFF)

/-- A register offset: a whole word inside the window of an ATU (R276) or the register range of an aggregator. -/
def regOffsetWf (t : RegTarget) (off : BitVec 32) : Bool :=
  decide (off.toNat % 4 = 0) &&
    match t with
    | .atu src => src.wf && decide (off.toNat < 0x10000)
    | .agg => decide (off.toNat < 0x40000000)

/-- Entries of the module configuration EEPROM: 8 KiB (R706). -/
def programWf (prog : List (Nat × List Byte)) : Bool := prog.all fun w => decide (w.1 + w.2.length ≤ 0x2000)

/-- The data of a packet: at most 4,096 bytes, and a whole 24-bit number of its queue pair and sequence (R605). -/
def RocePkt.wf (p : RocePkt) : Bool := decide (p.qpn < 2 ^ 24 ∧ p.psn < 2 ^ 24 ∧ p.dat.length ≤ 4096 ∧ p.va < 2 ^ 64 ∧ p.rkey < 2 ^ 32 ∧ p.dmaLen < 2 ^ 32)

/-- Whether a command is well formed. Operands not named here are well formed by their types. -/
def Instr.wf : Instr → Bool
  | .registerWrite t off _ _ => regOffsetWf t off
  | .latchedRead t rd => regOffsetWf t rd.off
  | .todMessage m => decide (m.length = 32)
  | .timeExchangeRequest _ m => decide (m.length = 64)
  | .timeExchangeReply _ m => decide (m.length = 64)
  | .plumbBeatReceive _ w => decide (w.length = 48)
  | .atuResetCtlWrite src _ => src.wf
  | .registerRequest _ m => decide (m.length = 12)
  | .registerResponse _ m => decide (m.length = 12)
  | .diePortFlitReceive _ f _ => decide (f.length = 128)
  | .safetyFlitReceive _ m => decide (m.length = 16)
  | .skimFlitReceive _ f => decide (f.length = 640)
  | .skimCodewordReceive _ _ _ flit => match flit with | some f => decide (f.1.length = 640 ∧ f.2 < 65536) | none => true
  | .skimSafetyReceive _ m => decide (m.length = 16)
  | .abortReceive m => decide (m.length = 16)
  | .ageMeasure vals => decide (vals.length ≤ 32)
  | .aggAgeMeasure vals _ => decide (vals.length = 24)
  | .expelForwardReceive _ _ _ _ _ token => decide (token.length % 40 = 0)
  | .rdmaWrite _ p _ => p.wf
  | .rdmaRead _ p _ => p.wf
  | .rdmaSend _ p _ => p.wf
  | .modulePowerOn _ _ _ _ _ prog => programWf prog
  | .moduleReset _ _ prog => programWf prog
  | _ => true

end Sys2Proof
end

