-- ==== Sys2Proof/Tests/Slice0.lean ====
section
/-!
SUPPORT. Tests/Slice0.lean: a term that each check of WellFormed refuses, and for each statement with hypotheses a state and operands that meet
those of one of its clauses together. The expected answers are the spec's field ranges and lengths, cited in WellFormed.lean, and the hypotheses themselves.
-/
namespace Sys2Proof.Machine
set_option maxRecDepth 20000

/-! ### Ill-formed commands -/

theorem test_wf_register_unaligned : (Instr.registerWrite .agg 0x12 0 ⟨0xF, 0⟩).wf = false := by decide
theorem test_wf_register_outside_atu : (Instr.latchedRead (.atu .host) ⟨0x10000, 0xF⟩).wf = false := by decide
theorem test_wf_register_outside_agg : (Instr.latchedRead .agg ⟨0x40000000, 0xF⟩).wf = false := by decide
theorem test_wf_register_tag : (Instr.latchedRead (.atu (.port .a 0xFFFF)) ⟨0x100, 0xF⟩).wf = false := by decide
theorem test_wf_tod : (Instr.todMessage []).wf = false := by decide
theorem test_wf_exchange_request : (Instr.timeExchangeRequest 0 []).wf = false := by decide
theorem test_wf_exchange_reply : (Instr.timeExchangeReply 0 []).wf = false := by decide
theorem test_wf_beat : (Instr.plumbBeatReceive .a []).wf = false := by decide
theorem test_wf_reset_ctl : (Instr.atuResetCtlWrite (.port .a 0xFFFF) 0).wf = false := by decide
theorem test_wf_request : (Instr.registerRequest .a []).wf = false := by decide
theorem test_wf_safety_flit : (Instr.safetyFlitReceive 0 []).wf = false := by decide
theorem test_wf_skim_flit : (Instr.skimFlitReceive 0 []).wf = false := by decide
theorem test_wf_skim_safety : (Instr.skimSafetyReceive 0 []).wf = false := by decide
theorem test_wf_abort : (Instr.abortReceive []).wf = false := by decide
theorem test_wf_ages : (Instr.ageMeasure (List.replicate 33 0)).wf = false := by decide
theorem test_wf_response : (Instr.registerResponse 0 []).wf = false := by decide
theorem test_wf_flit : (Instr.diePortFlitReceive (.atu .a) [] none).wf = false := by decide
theorem test_wf_codeword : (Instr.skimCodewordReceive 0 0 0 (some ([], 0))).wf = false := by decide
theorem test_wf_agg_ages : (Instr.aggAgeMeasure [] 0).wf = false := by decide
theorem test_wf_token : (Instr.expelForwardReceive 0 0 0 0 0 [0]).wf = false := by decide
theorem test_wf_packet : (Instr.rdmaWrite 0 { qpn := 2 ^ 24, psn := 0, op := 3 } false).wf = false := by decide
theorem test_wf_packet_read : (Instr.rdmaRead 0 { qpn := 0, psn := 2 ^ 24, op := 4 } false).wf = false := by decide
theorem test_wf_packet_send : (Instr.rdmaSend 0 { qpn := 0, psn := 0, op := 8, va := 2 ^ 64 } false).wf = false := by decide
theorem test_wf_eeprom_power_on : (Instr.modulePowerOn ⟨0, 0, false, false, 0⟩ true true true true [(0x2000, [0])]).wf = false := by decide
theorem test_wf_eeprom_reset : (Instr.moduleReset ⟨0, 0, false, false, 0⟩ true [(0x2000, [0])]).wf = false := by decide
theorem test_wf_good : (Instr.registerWrite (.atu .host) 0x608 1 ⟨0xF, 0⟩).wf = true := by decide

/-! ### Hypotheses of the statements, met together -/

/-- A small ATU: its registers hold 0 but for those that a test sets, and its other parts are at their reset values. -/
def withAtu (f : Atu → Atu) : State := { State.reset with atu := f { regs := [] } }
/-- An ATU that serves its register window: its reset is over, READY is 1. -/
def openAtu : Atu := { regs := [], bound := { ready := true, inReset := false } }
/-- State.reset with an aggregator whose firmware runs and has sent its heartbeat, READY set. -/
def live (f : Agg → Agg) : State :=
  { State.reset with agg := f (State.reset.agg.withBoot fun u => { u with core := .fw, heartbeat := some 0, ready := true, linkOn := true }) }
/-- A command on ring 0 for no context. -/
def ring0 : Caller := ⟨0, 1, 0⟩
/-- A tree node that is no root, with a parent on link 0 and an alternate on link 1. -/
def node : TreeCfg := ⟨0, false, 1, some 0, some 1, 0, 2, 1, 0, 1, 0, 0, 0, 0⟩
/-- A link that is UP. -/
def upLink (k : Nat) (g : Agg) : Agg := g.modLink k fun l => { l with state := .up }
/-- A queue pair that is cached and in no message. -/
def oneQp (cached : Bool) : Qp :=
  { pd := 17, port := 0, pmtu := 1, dest := 0, sqPsn := 0, rqPsn := 0, timeout := 0, retry := 0, mac := 0, gid := 0, cached := cached }

theorem live_admits : (live id).agg.takes ring0 := ⟨by decide, by decide, by decide, by decide⟩
theorem openAtu_accepts : openAtu.accepts .host true 0x0400 0 0xF := ⟨by decide, by decide, by decide, fun _ _ h => (by cases h), by decide⟩

theorem witness_stepRunsFront : { State.reset with pending := [Instr.htPpsEdge] }.pending = .htPpsEdge :: [] := rfl
theorem witness_idleStepIsOneNanosecond : (live id).pending = [] ∧ (live id).agg.powered = true ∧ (live id).agg.time.slew = 0 ∧
    (live id).atu.time.state = .unset := by decide
theorem witness_memoryStaysCanonical : State.reset.memoryWf ∧ step State.reset = .next State.reset.tick := ⟨⟨by decide, by decide, by decide⟩, rfl⟩

/-- A powered module whose loop is closed. -/
def closedLoop : State := live fun g => g.withSi fun u => { u with energised := true }
theorem witness_onlyPowerOnClosesLoop : step closedLoop = .next closedLoop.tick ∧ closedLoop.tick.agg.si.energised = true := ⟨rfl, by decide⟩

def htMillion : State := live fun g => g.withTime fun t => { t with ht := 1000000 }
theorem witness_slewIsBounded : htMillion.agg.powered = true ∧ 1000000 ≤ htMillion.agg.time.ht ∧ htMillion.agg.time.ht + 2 * 1 < 2 ^ 64 := by decide

def watched63 : State := live fun g => g.modWatch 63 fun w => { w with watched := true }
theorem witness_safeRetireRule : watched63.agg.fwRuns = true ∧ (watched63.agg.port 63).link.state = .down ∧ (watched63.agg.watch 63).watched = true := by decide

def sanding15 : State := withAtu fun a => (a.setSand 15 { run := true }).setRegN 0x5A0C 0
theorem witness_sandTimeoutRule : sanding15.atu.bound.clkRun = true ∧ (sanding15.atu.sand[(15 : Fin 16)]).run = true ∧
    (sanding15.atu.sand[(15 : Fin 16)]).runSince + 1000 * sanding15.atu.fld 0x5A0C 19 0 ≤ sanding15.atu.time.elapsed := by decide
theorem witness_sandDoneIgnored : ((withAtu id).atu.sand[(0 : Fin 16)]).run = false := by decide

def logging : State := withAtu fun a => { a.setRegN 0x3800 (2 ^ 17) with log := { a.log with queue := [⟨0, 2, true, 0, 0⟩] } }
theorem witness_logDmaErrorRule : logging.atu.bit 0x3800 17 = true ∧ logging.atu.log.queue = ⟨0, 2, true, 0, 0⟩ :: [] := by decide

def awaiting15 : State := withAtu fun a => a.setBlock 15 { awaiting := some 1 }
theorem witness_samplingCommands : awaiting15.atu.samp.blocks[(15 : Fin 16)].awaiting = some 1 ∧ awaiting15.atu.blockStopped 15 = false ∧
    awaiting15.atu.samp.blocks[(15 : Fin 16)].bankA = .free := by decide

def resending : State := withAtu fun a => { a with path := { a.path with resend := some ⟨.ok⟩ } }
theorem witness_frameCommands : resending.atu.path.resend = some ⟨.ok⟩ ∧ resending.atu.portA.hasKind 1 = false ∧ resending.atu.portB.hasKind 1 = false := by decide

def strokeDue : State := withAtu fun a => { a with time := { a.time with state := .locked, ht := 2000000, sched := some ⟨0, 0, 1000⟩ } }
theorem witness_atuTimeCommands : strokeDue.atu.time.sched = some ⟨0, 0, 1000⟩ ∧ firesStrokes strokeDue.atu.time.state = true ∧
    schedHtPending ⟨0, 0, 1000⟩ strokeDue.atu.time.pending (strokeDue.atu.time.nextStroke ⟨0, 0, 1000⟩) ≤ strokeDue.atu.time.ht := by decide
def tracing : State := withAtu fun a => a.setRegN 0x0004 16
theorem witness_traceCommands : tracing.atu.hasTrace = true ∧ tracing.atu.bound.clkRun = true ∧ tracing.atu.traceOn = false := by decide

def authEnds : State := withAtu fun a => { a with trace := { a.trace with auth := { a.trace.auth with expiry := some 3 } }, time := { a.time with lastFired := some 3 } }
theorem witness_traceControlCommands : authEnds.atu.trace.auth.expiry = some 3 ∧ authEnds.atu.time.lastFired = some 3 := by decide

def siteOn : State := withAtu fun a => ({ a with bound := openAtu.bound }.setRegN 0x5100 9).setRegN 0x5000 1
theorem witness_ageingCommands : siteOn.atu.siteEnabled 0 = true ∧ siteOn.atu.bit 0x5000 0 = true ∧ siteOn.atu.inRun = true ∧ siteOn.atu.powerFailing = false ∧
    siteOn.atu.bound.clkRun = true := by decide

def askAgain : State := withAtu fun a => a.setSand 0 { againAt := some 0 }
theorem witness_sandingCommands : askAgain.atu.bound.clkRun = true ∧ (askAgain.atu.sand[(0 : Fin 16)]).againAt = some 0 ∧ 0 ≤ askAgain.atu.time.elapsed := by decide

def unknown0 : State := live fun g => (g.modWatch 0 fun w => { w with traySince := some 0 }).withTime fun t => { t with elapsed := 1000000 * g.si.unknownMs }
theorem witness_safetyCommands : unknown0.agg.powered = true ∧ (unknown0.agg.watch 0).traySince = some 0 ∧ (unknown0.agg.watch 0).timedOut = false ∧
    0 + 1000000 * unknown0.agg.si.unknownMs ≤ unknown0.agg.now := by decide
theorem witness_trafficCommands : (live id).agg.fwRuns = true ∧ gateSetBad (live id).agg.shadowSet = false := by decide

def rootInputs : State := live fun g => g.withTime fun t => { t with source := 0 }
theorem witness_timeCommands : rootInputs.agg.onInputs = true ∧ rootInputs.agg.time.ppsAt = none := by decide

def outOfBand : State := live fun g => g.modPort 63 fun d => { d with oob := true }
theorem witness_diePortCommands : (outOfBand.agg.port 63).oob = true := by decide
theorem witness_trainingCommands : (live id).agg.boot.linkOn = true ∧ ((live id).agg.port 63).link.state = .down ∧
    ((live id).agg.port 63).link.training.idleUntil = none := by decide
theorem witness_skimLinkCommands : ((live (upLink 31)).agg.link 31).state = .up ∧ skimFlitGood [] = false := by decide
theorem witness_registerCommands : openAtu.accepts .host true 0x0400 0 0xF := openAtu_accepts
theorem witness_domainCommands : openAtu.bound.inReset = false := by decide
theorem witness_recorderCommands : (withAtu id).atu.faultFlushReady = false := by decide
theorem witness_accessCommands : (live id).agg.takes ring0 ∧ ring0.ring.val = 0 ∧ (live id).agg.boot.ready = true := ⟨live_admits, by decide⟩

def scanning : State := live fun g => g.setCvu 15 { params := some crc32c }
theorem witness_codecCommands : scanning.agg.takes ring0 ∧ claimedByOther (scanning.agg.cvuOf 15).owner (ctxOf ring0) = false ∧
    (scanning.agg.cvuOf 15).params = some crc32c := ⟨⟨by decide, by decide, by decide, by decide⟩, by decide⟩
theorem witness_skimRoundCommands : (live (upLink 0)).agg.linksLive = true ∧ ((live (upLink 0)).agg.link 0).state = .up ∧
    (live (upLink 0)).agg.roundOf 5 = none ∧ (live (upLink 0)).agg.skim.lastClosed = none := by decide

def joining : State := live fun g => g.withSkim fun u => { u with cfg := some node, state := 1, joinSent := false }
theorem witness_treeCommands : joining.agg.fwRuns = true ∧ joining.agg.skim.cfg = some node ∧ joining.agg.skim.joinSent = false ∧
    joining.agg.skim.state ≠ 0 ∧ node.root = false ∧ node.primary = some 0 := by decide
theorem witness_skimControlCommands : joining.agg.takes ring0 ∧ ring0.ring.val = 0 ∧ joining.agg.boot.ready = true ∧ joining.agg.skim.cfg.isSome = true :=
  ⟨⟨by decide, by decide, by decide, by decide⟩, by decide⟩
theorem witness_stationCommands : (live id).agg.takes ring0 ∧ (live id).agg.boot.ready = true ∧ 3 < (live id).agg.builtOf 1 := ⟨live_admits, by decide⟩
theorem witness_stencilCommands : (live id).agg.takes ring0 ∧ ring0.ring.val = 0 ∧ (live id).agg.actStale 0 = false ∧ (live id).agg.entityPending < 256 :=
  ⟨live_admits, by decide⟩

def suspect : State := live fun g => g.withDust fun u => { u with suspect := true }
theorem witness_levelCommands : suspect.agg.takes ring0 ∧ ring0.ring.val = 0 ∧ suspect.agg.verdicts.dust.suspect = true :=
  ⟨⟨by decide, by decide, by decide, by decide⟩, by decide⟩

def oneDie : State := live fun g => g.modJob 1 fun j => { j with state := .active, dies := [{ die := 64, port := 0, mask := 1, pos := some 0 }] }
theorem witness_expulsionCommands : oneDie.agg.takes ⟨0, 1, 1⟩ ∧ (⟨0, 1, 1⟩ : Caller).ring.val = 0 ∧ ctxOf ⟨0, 1, 1⟩ ≠ 0 ∧
    oneDie.agg.posOf (ctxOf ⟨0, 1, 1⟩) 64 = some 0 := ⟨⟨by decide, by decide, by decide, by decide⟩, by decide⟩

def dispute1 : Dispute := { round := 2 ^ 40 - 1, ctx := 1, first := 0, step := 2, station := 128, dies := [63], openDies := [63], localDigest := 1, partnerDigest := 2, late := false }
def disputed : State := live fun g => g.withVerdicts fun u => { u with disputes := [dispute1] }
theorem witness_pairCheckCommands : disputed.agg.fwRuns = true ∧ disputed.agg.disputeOf 1 (2 ^ 40 - 1) = some dispute1 ∧ disputed.agg.partnerUp = false ∧
    dispute1.openDies ≠ [] := by decide
theorem witness_disputeCommands : disputed.agg.fwRuns = true ∧ disputed.agg.disputeOf 1 (2 ^ 40 - 1) = some dispute1 ∧ dispute1.step = 2 ∧
    dispute1.station ≠ 0xFF ∧ dispute1.openDies ≠ [] := by decide

def boundRing16 : State := live fun g => (g.modRing 16 fun r => { r with bound := true, rdma := true, qpn := 4096 }).setQp 4096 { oneQp true with pd := 16 }
theorem witness_ringCommands : boundRing16.agg.fwRuns = true ∧ (16 : Fin 17) ≠ 0 ∧ (boundRing16.agg.ring 16).bound = true ∧
    (boundRing16.agg.ring 16).rdma = true ∧ boundRing16.agg.ringQp 16 = true := by decide

def badHead : State := live fun g => g.modRing 16 fun r => { r with sqTail := 1 }
theorem witness_descriptorCommands : badHead.agg.admits = true ∧ (badHead.agg.ring 16).faulted = false ∧ (badHead.agg.ring 16).sqHead ≠ (badHead.agg.ring 16).sqTail ∧
    (badHead.agg.ring 16).ahead = [] ∧ leAt ((badHead.agg.ring 16).descriptor 0) 1 1 ≠ 1 ∧ leAt ((badHead.agg.ring 16).descriptor 0) 4 1 % 4 = 0 ∧
    badHead.agg.cqUsed 16 + 2 ≤ 256 := by decide
theorem witness_informationCommands : (live id).agg.takes ring0 := live_admits

def job1 : State := live fun g => g.modJob 1 fun j => { j with state := .created }
theorem witness_jobCommands : job1.agg.takes ⟨0, 1, 1⟩ ∧ ctxOf ⟨0, 1, 1⟩ ≠ 0 ∧ job1.agg.boot.ready = true ∧ job1.agg.outside 0 0x40000000 96 = none ∧
    (job1.agg.job (ctxOf ⟨0, 1, 1⟩)).held_ = false := ⟨⟨by decide, by decide, by decide, by decide⟩, by decide⟩
theorem witness_pasteCommands : job1.agg.takes ⟨0, 1, 1⟩ ∧ ctxOf ⟨0, 1, 1⟩ ≠ 0 ∧ job1.agg.boot.ready = true ∧
    (job1.agg.job (ctxOf ⟨0, 1, 1⟩)).held_ = false ∧ job1.agg.pasteOf 1 = none := ⟨⟨by decide, by decide, by decide, by decide⟩, by decide⟩

def fetching : State := live fun g => g.setQp 4096 (oneQp false)
theorem witness_windowCommands : fetching.agg.fwRuns = true ∧ fetching.agg.qp 4096 = some (oneQp false) ∧ (oneQp false).cached = false ∧
    fetching.agg.cacheRoom.2 = true := ⟨by decide, rfl, rfl, by decide⟩
theorem witness_powerCommands : (live id).agg.takes ring0 ∧ ring0.ring.val = 0 ∧ 120 ≤ (300 : BitVec 9).toNat ∧ (300 : BitVec 9).toNat ≤ 300 :=
  ⟨live_admits, by decide⟩

def silentPartner : State := live fun g => { g with ident := { g.ident with paired := true }, time := { g.time with elapsed := 3000000 } }
theorem witness_pairCommands : silentPartner.agg.fwRuns = true ∧ silentPartner.agg.paired = true ∧ silentPartner.agg.pair.lost = false ∧
    silentPartner.agg.pair.keptAt + 3000000 ≤ silentPartner.agg.now := by decide

def primerRuns : State := live fun g => g.withBoot fun u => { u with core := .primer }
theorem witness_bootCommands : primerRuns.agg.boot.core = .primer ∧ primerRuns.agg.boot.stopped = false ∧ primerRuns.agg.boot.fetching = false ∧
    primerRuns.agg.boot.waitEnd = none := by decide

end Sys2Proof.Machine
end

section
/-!
PROOFS. The end of a log buffer (R207, R208) and a host memory error in one (R214): what the log matcher's operations leave of its unit, and O10.
-/
namespace Sys2Proof.Machine

/-! ### What the matcher's operations leave of the log unit -/

theorem Atu.flag_log (a : Atu) (f : Flag) : (a.flag f).log = a.log := Atu.flag_only .log a f

theorem Atu.logPut_log (a : Atu) (marks : Nat) (pkt : List Byte) : (a.logPut marks pkt).log = a.log :=
  Atu.logPut_only .log (by decide) a marks pkt

theorem Atu.setPartChar_queue (a : Atu) (bs : List LogByte) : (a.setPartChar bs).log.queue = a.log.queue := rfl

/-- Matches and trigger events go to the trace stream: of the log unit a stream byte changes the history alone (R209, R210). -/
theorem Atu.logFeed_log (a : Atu) (b : LogByte) :
    (a.logFeed b).log = { a.log with hist := (some b.val :: a.log.hist).take 32 } :=
  (Atu.fire_only .log (by decide) _ _).trans
    (AtuPart.get_foldl .log _ _ (fun c k => Atu.logMatch_only .log (by decide) c k b) _)

theorem Atu.logFeed_foldl_queue (bs : List LogByte) (a : Atu) : (bs.foldl Atu.logFeed a).log.queue = a.log.queue := by
  induction bs generalizing a with
  | nil => rfl
  | cons b bs ih => rw [List.foldl_cons, ih, Atu.logFeed_log]

theorem Atu.logUnheld_queue (a : Atu) : a.logUnheld.log.queue = a.log.queue :=
  Atu.logFeed_foldl_queue a.log.partChar (a.setPartChar [])

/-- LOG_INVALID goes to the trace stream too, and the bytes of the sequence join the history only (R212). -/
theorem Atu.logInvalid_queue (a : Atu) (bs : List LogByte) : (a.logInvalid bs).log.queue = a.log.queue := by
  cases bs with
  | nil => rfl
  | cons b bs => simp only [Atu.logInvalid, Atu.flag_log, Atu.logPut_log]

/-- The end of a stream settles an incomplete character; the queue of buffers is as it was (R208, R211). -/
theorem Atu.logEnd_queue (a : Atu) : a.logEnd.log.queue = a.log.queue := by
  unfold Atu.logEnd
  split
  · exact Atu.logInvalid_queue a a.log.partChar
  · exact Atu.logUnheld_queue a

/-- A finished buffer leaves the queue, whether or not it ends the stream (R207). -/
theorem Atu.logBufDone_queue (a : Atu) (b : LogBuf) : (a.logBufDone b).log.queue = a.log.queue.tail := by
  unfold Atu.logBufDone
  split
  · exact congrArg List.tail (Atu.logEnd_queue a)
  · rfl

theorem Atu.logBufDone_off (a : Atu) (b : LogBuf) : (a.logBufDone b).log.off = 0 := rfl

/-! ### A host memory error in a log buffer -/

/-- With the matcher enabled, its clock running and a buffer at the front, the error ends that buffer as one with END and raises DMA_ERR (R214). -/
theorem Atu.logDmaError_front (a : Atu) (b : LogBuf) (rest : List LogBuf) (hen : a.bit 0x3800 17 = true) (hclk : a.bound.clkRun = true)
    (hq : a.log.queue = b :: rest) : a.logDmaError = (a.logBufDone { b with last := true }).flag (logFlag 10) := by
  simp [Atu.logDmaError, hen, hclk, hq]

/-- Settles O10: the error is the end of a buffer with END, after which DMA_ERR is raised in a register outside the log unit. -/
theorem logDmaErrorRule : Obligations.LogDmaErrorRule := by
  intro s b rest hen hclk hq
  have hrun := Atu.logDmaError_front s.atu b rest hen hclk hq
  have hlog : s.atu.logDmaError.log = (s.atu.logBufDone { b with last := true }).log :=
    hrun ▸ Atu.flag_log _ (logFlag 10)
  refine ⟨{ s with atu := s.atu.logDmaError }, rfl, ?_, ?_, ?_, hlog⟩
  · calc s.atu.logDmaError.log.queue = s.atu.log.queue.tail := by rw [hlog, Atu.logBufDone_queue]
      _ = rest := by rw [hq, List.tail_cons]
  · exact (congrArg LogUnit.off hlog).trans (Atu.logBufDone_off _ _)
  · exact hrun ▸ Atu.bit_flag _ (logFlag 10) (by decide) (by decide)

end Sys2Proof.Machine
end

section
/-!
PROOFS. The end of a sanding test (R231 to R241): what a failure leaves of the core and of ATU_SAND_STATUS, and O9.
-/
namespace Sys2Proof.Machine

/-! ### The cores of the sanding unit under its operations -/

theorem Atu.flag_sand (a : Atu) (f : Flag) : (a.flag f).sand = a.sand := Atu.flag_only .sand a f

theorem Atu.event_sand (a : Atu) (typ sev source : Nat) (detail : List Byte) : (a.event typ sev source detail).sand = a.sand :=
  Atu.event_only .sand (by decide) a typ sev source detail

theorem Atu.advise_sand (a : Atu) (d : Fin 16) (action site : Nat) : (a.advise d action site).sand = a.sand :=
  Atu.advise_only .sand (by decide) a d action site

theorem Atu.sandTrace_sand (a : Atu) (n : Fin 16) : (a.sandTrace n).sand = a.sand :=
  Atu.sandTrace_only .sand (by decide) a n

theorem Atu.setSand_core_self (a : Atu) (n : Fin 16) (c : SandCore) : (a.setSand n c).sand[n] = c :=
  Vector.getElem_set_self n.isLt

/-- SAND_REQ is worked out anew; every other field of a core stands (R231). -/
theorem Atu.sandReqs_core (a : Atu) (n : Fin 16) : ∃ r : Bool, a.sandReqs.sand[n] = { a.sand[n] with req := r } :=
  ⟨_, Vector.getElem_ofFn n.isLt⟩

/-- The requests are worked out anew and the trace source follows the lending: of a core SAND_REQ alone may change. -/
theorem Atu.sandReqs_sandTrace_core (a : Atu) (n : Fin 16) : ∃ r : Bool, (a.sandReqs.sandTrace n).sand[n] = { a.sand[n] with req := r } := by
  rw [Atu.sandTrace_sand]
  exact Atu.sandReqs_core a n

/-! ### A test that fails -/

/-- A core whose test has failed, its request taken back: a retest makes it FAILED, any other test asks for a retest at `due` (R240, R241). -/
def SandCore.failedTest (c : SandCore) (due : Int) : SandCore :=
  { c with run := false, gnt := false, req := false, retest := false, failed := c.failed || c.retest, retestAt := if c.retest then none else some due }

theorem SandCore.failedTest_failed (c : SandCore) (due : Int) (hre : c.retest = true) : (c.failedTest due).failed = true := by
  simp only [SandCore.failedTest, hre, Bool.or_true]

theorem SandCore.failedTest_retestAt (c : SandCore) (due : Int) (hre : c.retest = false) : (c.failedTest due).retestAt = some due := by
  simp only [SandCore.failedTest, hre, Bool.false_eq_true, if_false]

/-- Operating seconds at which a core that fails now is tested again: RETEST_S from now (R240). -/
def Atu.retestDue (a : Atu) : Int := a.life + a.fld 0x5A0C 31 20

theorem Atu.flag_sandFlag_reg (a : Atu) (k off : Nat) (hs : off ≠ 0x5A10) (hc : off ≠ 0x5A40 + 4 * k) : (a.flag (sandFlag k)).reg off = a.reg off :=
  Atu.flag_rget a (sandFlag k) off (by simp; omega) (by simp; omega)

theorem Atu.flag_sandFlag_retestDue (a : Atu) (k : Nat) (hk : k < 6) : (a.flag (sandFlag k)).retestDue = a.retestDue := by
  unfold Atu.retestDue Atu.life Atu.fld
  rw [Atu.flag_sandFlag_reg a k 0x6008 (by decide) (by omega), Atu.flag_sandFlag_reg a k 0x5A0C (by decide) (by omega)]

/-- RAISE_V for the core's power domain, where the core names one, is not the sanding unit's matter (R240). -/
theorem Atu.advise_dite_sand (a : Atu) (d : Nat) : (if h : d < 16 then a.advise ⟨d, h⟩ 1 0 else a).sand = a.sand := by
  split
  · exact Atu.advise_sand a _ 1 0
  · rfl

theorem Atu.advise_dite_status (a : Atu) (d : Nat) : (if h : d < 16 then a.advise ⟨d, h⟩ 1 0 else a).reg 0x5A10 = a.reg 0x5A10 := by
  split
  · exact Atu.advise_rget a _ 1 0 0x5A10 (by simp)
  · rfl

/-- What a failure does before the requests are worked out anew: the core is a failed test's, and of ATU_SAND_STATUS FAIL is raised; the record and
the margin step lie outside both (R240, R241). -/
theorem Atu.sandFail_cases (a : Atu) (n : Fin 16) (result : Nat) :
    ∃ b : Atu, a.sandFail n result = b.sandReqs.sandTrace n ∧ b.sand[n] = (a.sand[n]).failedTest a.retestDue ∧
      b.reg 0x5A10 = (a.flag (sandFlag 2)).reg 0x5A10 := by
  cases hre : (a.sand[n]).retest with
  | true =>
    simp only [Atu.sandFail, hre, if_true]
    refine ⟨_, rfl, ?_, Atu.event_rget _ _ _ _ _ 0x5A10 (by simp)⟩
    rw [Atu.event_sand, Atu.flag_sand, Atu.setSand_core_self]
    simp only [SandCore.failedTest, hre, Bool.or_true, if_true]
  | false =>
    simp only [Atu.sandFail, hre, Bool.false_eq_true, if_false]
    refine ⟨_, rfl, ?_, (Atu.advise_dite_status _ _).trans (Atu.event_rget _ _ _ _ _ 0x5A10 (by simp))⟩
    rw [Atu.advise_dite_sand, Atu.event_sand, Atu.flag_sand, Atu.setSand_core_self]
    simp only [SandCore.failedTest, hre, Bool.or_false, Bool.false_eq_true, if_false, Atu.retestDue]

theorem Atu.sandFail_core (a : Atu) (n : Fin 16) (result : Nat) :
    ∃ r : Bool, (a.sandFail n result).sand[n] = { (a.sand[n]).failedTest a.retestDue with req := r } := by
  obtain ⟨b, hb, hcore, -⟩ := Atu.sandFail_cases a n result
  rw [hb, ← hcore]
  exact Atu.sandReqs_sandTrace_core b n

/-- A failure leaves ATU_SAND_STATUS as FAIL alone does: the requests and the trace source lie in other registers. -/
theorem Atu.sandFail_status (a : Atu) (n : Fin 16) (result : Nat) : (a.sandFail n result).reg 0x5A10 = (a.flag (sandFlag 2)).reg 0x5A10 := by
  obtain ⟨b, hb, -, hstatus⟩ := Atu.sandFail_cases a n result
  calc (a.sandFail n result).reg 0x5A10 = b.sandReqs.reg 0x5A10 := hb ▸ Atu.sandTrace_rget b.sandReqs n 0x5A10 (by simp)
    _ = b.reg 0x5A10 := congrArg (rget · 0x5A10) (Atu.sandReqs_regs b)
    _ = _ := hstatus

theorem Atu.sandFail_status_keep (a : Atu) (n : Fin 16) (result k : Nat) (h : a.bit 0x5A10 k = true) : (a.sandFail n result).bit 0x5A10 k = true := by
  unfold Atu.bit
  rw [Atu.sandFail_status]
  exact wbit_raiseFlag_keep (sandFlag 2) a.regs k (by decide) h

/-! ### A test that overruns, and SAND_DONE without a test -/

/-- TEST_MAX_US after SAND_RUN rose, the test ends as a failure that raises TIMEOUT (R234). -/
theorem Atu.sandTimeout_overrun (a : Atu) (n : Fin 16) (hclk : a.bound.clkRun = true) (hrun : (a.sand[n]).run = true)
    (hmax : (a.sand[n]).runSince + 1000 * a.fld 0x5A0C 19 0 ≤ a.time.elapsed) : a.sandTimeout n = (a.flag (sandFlag 4)).sandFail n 2 := by
  unfold Atu.sandTimeout
  simp only [hrun, hclk, decide_eq_false (Nat.not_lt.2 hmax), Bool.not_true, Bool.or_self, Bool.false_eq_true, if_false]

theorem Atu.sandDone_of_not_run (a : Atu) (n : Fin 16) (pass : Bool) (hrun : (a.sand[n]).run = false) : a.sandDone n pass = a := by
  unfold Atu.sandDone
  simp only [hrun, Bool.not_false, Bool.true_or, if_true]

/-- Settles O9: an overrun raises TIMEOUT and then fails the test, which keeps TIMEOUT raised; SAND_DONE looks at SAND_RUN first. -/
theorem sandTimeoutRule : Obligations.SandTimeoutRule := by
  refine ⟨fun s n hclk hrun hmax => ⟨{ s with atu := s.atu.sandTimeout n }, rfl, ?_⟩,
    fun s n pass hrun => ⟨{ s with atu := s.atu.sandDone n pass }, rfl, Atu.sandDone_of_not_run s.atu n pass hrun⟩⟩
  have hto : s.atu.sandTimeout n = (s.atu.flag (sandFlag 4)).sandFail n 2 := Atu.sandTimeout_overrun s.atu n hclk hrun hmax
  obtain ⟨r, hcore⟩ := Atu.sandFail_core (s.atu.flag (sandFlag 4)) n 2
  rw [← hto, Atu.flag_sand, Atu.flag_sandFlag_retestDue s.atu 4 (by decide)] at hcore
  have htimeout : (s.atu.sandTimeout n).bit 0x5A10 4 = true :=
    hto ▸ Atu.sandFail_status_keep _ n 2 4 (Atu.bit_flag s.atu (sandFlag 4) (by decide) (by decide))
  refine ⟨htimeout, ?_, fun hre => ?_, fun hre => ?_⟩
  · exact congrArg SandCore.run hcore
  · exact (congrArg SandCore.failed hcore).trans (SandCore.failedTest_failed _ s.atu.retestDue hre)
  · exact (congrArg SandCore.retestAt hcore).trans (SandCore.failedTest_retestAt _ s.atu.retestDue hre)

end Sys2Proof.Machine
end

section
/-!
PROOFS. A port taken out of the watch set by SAFE_RETIRE (R677): the watch over a port and the event log under the operations it is made of, and O8.
-/
namespace Sys2Proof.Machine

/-! ### The watch over a port -/

theorem Agg.modWatch_watch_self (g : Agg) (p : Nat) (f : Watch → Watch) (hp : p < 64) : (g.modWatch p f).watch p = f (g.watch p) := by
  simp only [Agg.watch, Agg.modWatch, Agg.withSi, hp, dite_true, Vector.getElem_set_self]

/-- The watch over a port lies in the Safety Island. -/
theorem Agg.watch_congr {g h : Agg} (hsi : g.si = h.si) (p : Nat) : g.watch p = h.watch p := by
  rw [Agg.watch, hsi, Agg.watch]

theorem Agg.flag_watch (g : Agg) (f : Flag) (p : Nat) : (g.flag f).watch p = g.watch p :=
  Agg.watch_congr (Agg.flag_only .si g f) p

theorem Agg.event_watch (g : Agg) (typ sev source : Nat) (detail : List Byte) (p : Nat) : (g.event typ sev source detail).watch p = g.watch p :=
  Agg.watch_congr (Agg.event_only .si (by decide) g typ sev source detail) p

theorem Watch.leave_watched (w : Watch) : w.leave.watched = false := rfl

/-! ### Records of the event log -/

/-- The firmware runs on the core region, so records are made (R683, R697). -/
theorem Agg.coreRuns_of_fwRuns (g : Agg) (hfw : g.fwRuns = true) : g.coreRuns = true :=
  decide_eq_true (Or.inr (Or.inl (of_decide_eq_true hfw)))

/-- A record joins the log at its end, and the oldest ones make room for it (R697). -/
theorem Agg.event_recs (g : Agg) (typ sev source : Nat) (detail : List Byte) (hcore : g.coreRuns = true) :
    ∃ r : EvrRec, r.typ = typ ∧ r.source = source ∧ (g.event typ sev source detail).elog.recs = trimLog 262144 (g.elog.recs ++ [r]) := by
  simp only [Agg.event, hcore, Bool.not_true, Bool.false_eq_true, if_false]
  exact ⟨_, rfl, rfl, rfl⟩

/-! ### SAFE_RETIRE -/

/-- The aggregator with a port out of the watch set and RETIRED raised, the RETIRE record still to be made (R677). -/
def Agg.unwatched (g : Agg) (p : Nat) : Agg := (g.modWatch p Watch.leave).flag (asafeFlag 9)

theorem Agg.unwatched_watched (g : Agg) (p : Nat) (hp : p < 64) : ((g.unwatched p).watch p).watched = false := by
  rw [Agg.unwatched, Agg.flag_watch, Agg.modWatch_watch_self g p _ hp, Watch.leave_watched]

theorem Agg.unwatched_retired (g : Agg) (p : Nat) : wbit ((g.unwatched p).reg 0xD0004) 9 = true :=
  Agg.bit_flag _ (asafeFlag 9) (by decide) (by decide)

theorem Agg.unwatched_elog (g : Agg) (p : Nat) : (g.unwatched p).elog = g.elog :=
  (Agg.flag_only .elog _ _).trans (Agg.modWatch_only .elog (by decide) g p _)

theorem Agg.unwatched_coreRuns (g : Agg) (p : Nat) : (g.unwatched p).coreRuns = g.coreRuns := rfl

theorem Agg.safeRetire_down (g : Agg) (p : Nat) (hdown : (g.port p).link.state = .down) (hwatched : (g.watch p).watched = true) :
    g.safeRetire p = (g.unwatched p).event 0x28 1 p (leBytes 4 (g.dieOn p) ++ zeros 4) :=
  if_pos ⟨hdown, hwatched⟩

theorem Agg.safeRetire_ignored (g : Agg) (p : Nat) (h : (g.port p).link.state ≠ .down ∨ (g.watch p).watched = false) : g.safeRetire p = g :=
  if_neg fun ⟨hdown, hwatched⟩ => h.elim (· hdown) (Bool.eq_false_iff.1 · hwatched)

/-- A write that SAFE_RETIRE ignores changes nothing, whether or not the firmware runs. -/
theorem Agg.whenFw_safeRetire_ignored (g : Agg) (p : Nat) (h : (g.port p).link.state ≠ .down ∨ (g.watch p).watched = false) :
    g.whenFw (·.safeRetire p) = g := by
  unfold Agg.whenFw
  split
  · exact Agg.safeRetire_ignored g p h
  · rfl

/-- Settles O8: a port that is DOWN and watched is unwatched and RETIRED before the record is made, and the record touches neither the watch nor the
registers; for any other port the guard of SAFE_RETIRE fails. -/
theorem safeRetireRule : Obligations.SafeRetireRule := by
  refine ⟨fun s p hfw hdown hwatched => ⟨{ s with agg := s.agg.whenFw (·.safeRetire p.toNat) }, rfl, ?_⟩,
    fun s p hign => ⟨{ s with agg := s.agg.whenFw (·.safeRetire p.toNat) }, rfl, Agg.whenFw_safeRetire_ignored s.agg p.toNat hign⟩⟩
  dsimp only
  rw [Agg.whenFw_run s.agg _ hfw, Agg.safeRetire_down s.agg p.toNat hdown hwatched]
  have hcore : (s.agg.unwatched p.toNat).coreRuns = true := (Agg.unwatched_coreRuns s.agg p.toNat).trans (Agg.coreRuns_of_fwRuns s.agg hfw)
  obtain ⟨r, htyp, hsource, hrecs⟩ := Agg.event_recs (s.agg.unwatched p.toNat) 0x28 1 p.toNat (leBytes 4 (s.agg.dieOn p.toNat) ++ zeros 4) hcore
  refine ⟨?_, ?_, r, htyp, hsource, ?_⟩
  · rw [Agg.event_watch, Agg.unwatched_watched s.agg p.toNat p.isLt]
  · rw [Agg.reg, Agg.event_regs]
    exact Agg.unwatched_retired s.agg p.toNat
  · rw [hrecs, Agg.unwatched_elog]

end Sys2Proof.Machine
end
